-- ==== Sys2Proof/Word.lean ====
section
/-!
DEFINITION. The word types of the E48 model and the index types of its replicated parts.
R6 numbers bits from the least significant end; R28 and R29 give the ranges of the index types.
-/

namespace Sys2Proof

/-- A host register word (R7, R9: aligned 32-bit words). -/
abbrev Word := BitVec 32

/-- One byte. -/
abbrev Byte := BitVec 8

/-- Bits [lo + len - 1 : lo] of a natural number, numbered as R6 numbers them. -/
def bitsOf (v lo len : Nat) : Nat := v / 2 ^ lo % 2 ^ len

/-- Bit `n` of a natural number. -/
def bitOf (v n : Nat) : Bool := v / 2 ^ n % 2 == 1

/-- Two's complement reading of the low `w` bits of `v`. -/
def signedOf (w v : Nat) : Int :=
  if v % 2 ^ w < 2 ^ (w - 1) then (v % 2 ^ w : Nat) else (v % 2 ^ w : Nat) - (2 ^ w : Nat)

/-- The `w`-bit two's complement form of an integer. -/
def toSigned (w : Nat) (v : Int) : Nat := (v % (2 ^ w : Nat)).toNat

/-- A die of the module (R8): 0 or 1. -/
abbrev Die := Fin 2

/-- A channel, numbered 0 to 47 across the module (R29). -/
abbrev Chan := Fin 48

/-- A codec unit by its linear index (R28). -/
abbrev UnitIx := Fin 160

/-- A cluster by its linear index (R28). -/
abbrev ClusterIx := Fin 32

/-- A region or lockstep group by its module-wide index (R28). -/
abbrev Group := Fin 8

/-- A device of a lockstep group by its role (R301): 0 to 3 data, 4 XOR parity, 5 check. -/
abbrev Device := Fin 6

/-- A raster domain (R54). -/
abbrev Domain := Fin 8

/-- A handover slot of the TRS block (R61). -/
abbrev HoSlot := Fin 16

/-- A network port N0 to N3. -/
abbrev NetPort := Fin 4

/-- A module-wide network interface, 4*p + k (R212). -/
abbrev Iface := Fin 16

/-- A host port: 0 is HA, 1 is HB. -/
abbrev HostPort := Fin 2

/-- A DMA queue of a die (R29). -/
abbrev Queue := Fin 32

/-- A flow handle (R246). -/
abbrev Handle := Fin 4096

/-- A token bucket of a die (R266). -/
abbrev Bucket := Fin 4160

/-- A merge pair of a die (R235). -/
abbrev Pair := Fin 2048

/-- A Stirrup (R405). -/
abbrev Stirrup := Fin 64

/-- An event target (R362): 0 HA, 1 HB, 2 Ostler 0, 3 Ostler 1. -/
abbrev Target := Fin 4

/-- An event source (R358). -/
abbrev Source := Fin 1024

/-- A check-value unit of a die (R352). -/
abbrev ChkUnit := Fin 8

/-- A Tether link (R25, R413). -/
abbrev Link := Fin 3

/-- A stripe index (R70). -/
abbrev StripeIx := Fin 8

/-- A party that reads and writes registers, in the order of R402: HA, HB, Ostler 0, Ostler 1. -/
inductive Party where
  | ha
  | hb
  | o0
  | o1
  deriving DecidableEq, Repr

/-- The number of a party (`HPT_SELF.PARTY`, R405). -/
def Party.num : Party → Nat
  | .ha => 0
  | .hb => 1
  | .o0 => 2
  | .o1 => 3

/-- The host port that a party is, if it is one. -/
def Party.port : Party → Option Nat
  | .ha => some 0
  | .hb => some 1
  | .o0 => none
  | .o1 => none

/-- The Ostler's die, if the party is an Ostler. -/
def Party.ostDie : Party → Option Nat
  | .ha => none
  | .hb => none
  | .o0 => some 0
  | .o1 => some 1

/-- A moment: the local oscillator's core-clock edges since power good (R66), and the time base in units
of 2^-16 ns (R47). A time-driven command carries the moment at which it falls. -/
structure Now where
  osc : Nat
  tb  : Nat
  deriving DecidableEq, Repr

end Sys2Proof
end

