-- ==== Sys2Proof/Syntax.lean ====
section
/-!
DEFINITION. The commands of the E48: one constructor of `Instr` for each row of spec/opcode_table.json.
A command is what the outside sends to the module, or a step that the module itself takes at a moment:
a register access, a frame, an event on a pin, a timeout, a raster position reached.
A row that is a register write carries the party that writes and the 32-bit value; a time-driven row
carries the moment `now` at which it falls, and a timeout of something that the state does not show the edge `since`
of the local oscillator at which it began. Physical outcomes that the spec leaves to the world (which
slices of a line fail their CRC, whether a block matched, which level a land reads) are operands.
-/

namespace Sys2Proof

/-- What step 1 of R415 samples: the eight strap lands (R419), whether the flash answers its read-ID
command (R418), and the case sensor in quarter degrees (R495). -/
structure BootInputs where
  straps  : Nat
  flashOk : Bool
  caseQ   : Int
  deriving DecidableEq, Repr

/-- One error occurrence as its detecting block reports it (R461): code, die, LOC and DETAIL. -/
structure Occ where
  code   : Nat
  die    : Nat
  loc    : Nat
  detail : Nat
  deriving DecidableEq, Repr

/-- How a rail left its window (R497), DETAIL 3 to 6. -/
inductive RailFault where
  | under
  | over
  | overcurrent
  | selfTest
  deriving DecidableEq, Repr

/-- The transport of a PTP message (R42): UDP over IPv4, UDP over IPv6, or IEEE 802.3. -/
inductive PtpTransport where
  | udp4
  | udp6
  | ethernet
  deriving DecidableEq, Repr

/-- How a PTP message reaches a port (R42, R43): its transport, whether it is unicast, the sub-port that it arrives on,
and its domain number. -/
structure PtpPath where
  transport : PtpTransport
  unicast   : Bool
  sub       : Fin 4
  domain    : Nat
  deriving DecidableEq, Repr

/-- A PTP Sync or Follow_Up message as received (R42): its path, step mode, sequence number, and the origin time and
correction that it carries, in ns. Its timestamp is the time base at the moment of the command (R45). -/
structure PtpTiming where
  path    : PtpPath
  twoStep : Bool
  seqId   : Nat
  origin  : Int
  corr    : Int
  deriving DecidableEq, Repr

/-- A PTP Announce message (R44): its path and the dataset that the default best-master-clock
algorithm compares, most significant member first; the lexicographically lower is the better. -/
structure Announce where
  path    : PtpPath
  dataset : List Nat
  deriving DecidableEq, Repr

/-- A Delay_Resp, or under peer-to-peer (`p2p`) a Pdelay_Resp (R42): its path, the path delay that the exchange
measures, in ns, and logMinDelayReqInterval. -/
structure DelayResp where
  path    : PtpPath
  p2p     : Bool
  delay   : Int
  minLog  : Int
  deriving DecidableEq, Repr

/-- The offer of a channel handover over Tether (R205): the channel's register words by their offset
(CCH, QRC and REF banks), the next extended sequence number, the target picture, and the HIR minor whose
fields the offer carries with a value other than 0 (R413). -/
structure Offer where
  ch       : Nat
  bank     : List (Nat × Nat)
  nextSeq  : Nat
  picture  : Nat
  hirMinor : Nat
  deriving DecidableEq, Repr

/-- Bits of one byte of a device's burst that a line read finds flipped against what the device was given (R301, R306). -/
structure Flip where
  dev  : Device
  byte : Fin 64
  bits : Byte
  deriving DecidableEq, Repr

/-- Bits of a sample that an upset has flipped, in a unit's reconstruction or in its shadow decoder's, when a block is checked (R114):
plane, column, line and bits. -/
structure SmpFlip where
  plane : Fin 3
  x     : Nat
  y     : Nat
  bits  : Nat
  deriving DecidableEq, Repr

/-- What PCI Express answers during a descriptor (R339, R347, R348): a read that ends in Unsupported
Request or Completer Abort, and the 64-byte blocks of host memory whose completions have EP set. -/
structure DmaEnv where
  hostErr : Bool
  ep      : List Nat
  fetchOk : Bool
  deriving DecidableEq, Repr

/-- The read-back of a descriptor (R339): poison or EP on untagged data, or a host error. -/
structure ReadBack where
  poison  : Bool
  hostErr : Bool
  deriving DecidableEq, Repr

/-- Another request for a class buffer that falls on the same edge (R290): owner and class. -/
structure Rival where
  owner : Nat
  cls   : Nat
  deriving DecidableEq, Repr

/-- A repair-map entry (R330). -/
structure RepairEntry where
  kind   : Nat
  die    : Nat
  target : Nat
  index  : Nat
  spare  : Nat
  deriving DecidableEq, Repr

/-- The moment of a timeout (R66, R67), and the edge since which what it watches has waited. -/
structure Waited where
  since : Nat
  now   : Now
  deriving DecidableEq, Repr

/-- The moment at which an Ostler may be overloaded (R393), and the edge since which its oldest work item waits. -/
structure Overload where
  since : Option Nat
  now   : Now
  deriving DecidableEq, Repr

/-- The moment at which a request to a group reaches its age cap (R315), the edge since which it waits, and the edge since which
the oldest of the other real-time requests of the group waits (R316). -/
structure AgeCap where
  since   : Nat
  waiting : Option Nat
  now     : Now
  deriving DecidableEq, Repr

/-- The moment of a handover's target picture, and the extended sequence number that the sender sends then (R205, R473). -/
structure HoMoment where
  nextSeq : Nat
  now     : Now
  deriving DecidableEq, Repr

/-- The moment at which the slot of a stripe starts, and the blocks of the stripe of which a word of the input window fails its
parity (R175). -/
structure SlotMoment where
  srcBad : List Nat
  now    : Now
  deriving DecidableEq, Repr

/-- A configuration request of a host port (R417), and what it writes to MSI-X Enable, if it does (R399). -/
structure ConfigReq where
  port : HostPort
  msix : Option Bool
  deriving DecidableEq, Repr

/-- What a table command meets (R262, R263): a poisoned line, and the slots of the bridge whose parity is bad. -/
structure TableReads where
  poisoned : Bool
  slots    : List Nat
  deriving DecidableEq, Repr

/-- A template line that is read again (R282): its plane, and whether it is good. -/
structure TplLine where
  plane : Fin 2
  good  : Bool
  deriving DecidableEq, Repr

/-- What goes with the bytes of a line write (R303, R308): its sideband, and the bits that the devices return flipped where the
write reads the line. -/
structure LineSide where
  sideband : Option Nat
  flips    : List Flip
  deriving DecidableEq, Repr

/-- The operand fields of a nanoword (R386): destination, sources, immediate select, flag update, access
size code FUNC and the 64-bit constant K. -/
structure Nano where
  func  : Nat
  dst   : Fin 64
  srca  : Fin 64
  srcb  : Fin 64
  immb  : Bool
  flags : Bool
  k     : BitVec 64
  deriving DecidableEq, Repr

/-- The three forwarding tables with a command register (R258). -/
inductive TableId where
  | route
  | flow
  | bridge
  deriving DecidableEq, Repr

/-- The three context registers of a check unit (R355). -/
inductive ChkCtx where
  | cfg
  | val
  | cnt
  deriving DecidableEq, Repr

/-- The commands of the E48, in the order of spec/opcode_table.json. -/
inductive Instr where
  -- power, start-up and faults
  | vinStart (mv : Nat)
  | powerGood (b : BootInputs)
  | caseLoHoldEnd (caseQ : Int) (flashOk : Bool)
  | resetNAssert
  | resetNDeassert (b : BootInputs)
  | dramTrained (d : Die) (failed : List (Fin 4 × Device)) (now : Now)
  | startupChannelStart (ch : Chan) (now : Now)
  | pcieConfigRequest (q : ConfigReq)
  | vinDip (mv : Nat)
  | brownOut (mv : Nat) (lowUs : Nat)
  | vinOvervoltage (mv : Nat) (highMs : Nat)
  | inputDisconnect (mv : Nat)
  | railOutOfWindow (rail : Fin 9) (mv : Nat) (kind : RailFault) (us : Nat)
  | pwrHeartbeatTimeout (w : Waited)
  | thermalSample (temps : List Int) (now : Now)
  | safeReq (lowNs : Nat)
  | collectorSelfTest
  | faultLands (p n : Bool) (us : Nat)
  | collector (d : Die)
  | timeIntegrity (dom : Domain)
  | wireBreak (o : Occ) (clocks : Nat)
  | faultOccurrence (os : List Occ) (now : Now)
  | dieUp (d : Die) (failed : List (Fin 4 × Device)) (now : Now)
  | restartChannelResume (d : Die) (dom : Domain) (now : Now)
  | failoverStart (ch : Chan) (now : Now)
  | swRestart (p : Party) (d : Die)
  | faultInject (p : Party) (v : Word)
  -- time base and handover
  | syncReceived (port : NetPort) (m : PtpTiming) (now : Now)
  | announceReceived (port : NetPort) (a : Announce) (now : Now)
  | delayReqSend (port : NetPort) (now : Now)
  | syncReceiptTimeout (port : NetPort) (now : Now)
  | announceReceiptTimeout (port : NetPort) (now : Now)
  | holdoverTimeout (now : Now)
  | firstLockTimeout (now : Now)
  | realign (p : Party) (v : Word)
  | ppsInEdge (now : Now)
  | ppsOut (now : Now)
  | arm (p : Party) (n : HoSlot) (v : Word)
  | disarm (p : Party) (n : HoSlot) (v : Word)
  | handoverFire (n : HoSlot) (now : Now)
  -- channels
  | cchStart (p : Party) (d : Die) (ch : Chan) (v : Word)
  | channelStart (ch : Chan) (now : Now)
  | cchStop (p : Party) (d : Die) (ch : Chan) (v : Word)
  | moveDie (p : Party) (d : Die) (ch : Chan) (v : Word)
  | dieMove (ch : Chan) (now : Now)
  | handover (p : Party) (d : Die) (ch : Chan) (v : Word)
  | handoverOffer (l : Link) (o : Offer) (now : Now)
  | handoverReply (ch : Chan) (accept : Bool) (now : Now)
  | handoverPicture (ch : Chan) (m : HoMoment)
  | tetherHoTimeout (ch : Chan) (now : Now)
  | tileDigest (l : Link) (grp : Nat) (digest : Nat)
  | pictureBoundary (ch : Chan) (now : Now)
  | dropLt (p : Party) (d : Die) (ch : Chan) (v : Word)
  | rowReady (ch : Chan) (row : Nat) (now : Now)
  | stripeSlotStart (ch : Chan) (row : Nat) (stripe : StripeIx) (m : SlotMoment)
  | shadowCheck (ch : Chan) (row : Nat) (stripe : StripeIx) (block : Nat) (upset : List SmpFlip) (now : Now)
  | reexecDone (ch : Chan) (row : Nat) (stripe : StripeIx) (upset : List SmpFlip) (now : Now)
  | spareTakeover (c : ClusterIx) (now : Now)
  | failsWindowExpiry (u : UnitIx) (now : Now)
  | retire (p : Party) (u : UnitIx) (v : Word)
  | unitStallTimeout (u : UnitIx) (w : Waited)
  | clusterStallTimeout (c : ClusterIx) (cabac : Bool) (w : Waited)
  | stripeWithheld (ch : Chan) (row : Nat) (stripe : StripeIx) (now : Now)
  | rasterRelease (ch : Chan) (row : Nat) (j : Nat) (now : Now)
  | st2110Release (ch : Chan) (j : Nat) (now : Now)
  | decodeDeadline (ch : Chan) (row : Nat) (now : Now)
  | refreshHoldoffEnd (ch : Chan) (now : Now)
  | decodeStripeDone (ch : Chan) (row : Nat) (stripe : StripeIx) (parityBad : List Nat) (now : Now)
  | refreshRequestReceived (ch : Chan) (bytes : List Byte) (now : Now)
  | modelUpdate (ch : Chan) (now : Now)
  -- ingress
  | frameReceive (i : Iface) (bytes : List Byte) (fcsOk : Bool) (poison : List Nat) (now : Now)
  | recircPass (d : Die) (now : Now)
  | xdieCopyReceive (d : Die) (now : Now)
  | mergeWindowExpiry (d : Die) (m : Pair) (now : Now)
  | pipeStallTimeout (d : Die) (stage : Nat) (w : Waited)
  | nodeLineRefetch (d : Die) (line : Fin 16384) (good : Bool)
  | nodeRead (p : Party) (d : Die) (v : Word)
  | nodeWrite (p : Party) (d : Die) (v : Word)
  | publish (p : Party) (d : Die) (v : Word)
  | rulesetSlotRetire (d : Die)
  | portModeChange (p : Party) (d : Die) (pp : Fin 2) (v : Word)
  | mergePairWrite (p : Party) (d : Die) (m : Pair) (v : Word)
  | linkChange (i : Iface) (up : Bool)
  -- forwarding tables
  | rtRead (p : Party) (d : Die) (v : Word)
  | rtInsert (p : Party) (d : Die) (v : Word)
  | rtDelete (p : Party) (d : Die) (v : Word)
  | rtSearch (p : Party) (d : Die) (v : Word)
  | flRead (p : Party) (d : Die) (v : Word)
  | flWrite (p : Party) (d : Die) (v : Word)
  | flInsert (p : Party) (d : Die) (v : Word)
  | flDelete (p : Party) (d : Die) (v : Word)
  | flSearch (p : Party) (d : Die) (v : Word)
  | brRead (p : Party) (d : Die) (v : Word)
  | brWrite (p : Party) (d : Die) (v : Word)
  | brInsert (p : Party) (d : Die) (v : Word)
  | brDelete (p : Party) (d : Die) (v : Word)
  | brSearch (p : Party) (d : Die) (v : Word)
  | brFlush (p : Party) (d : Die) (v : Word)
  | tableCmdUnsupported (p : Party) (d : Die) (t : TableId) (v : Word)
  | tableCmdComplete (d : Die) (t : TableId) (r : TableReads) (now : Now)
  | tableCmdTimeout (d : Die) (t : TableId) (now : Now)
  | learnInsert (d : Die) (now : Now)
  | agePeriodExpiry (d : Die) (now : Now)
  | agingSweep (d : Die) (now : Now)
  | agingSweepEnd (d : Die) (now : Now)
  | tableLineRefetch (d : Die) (t : TableId) (line : Nat) (good : Bool)
  | trieLineRebuild (d : Die) (line : Nat) (listOk : Bool)
  -- egress
  | bktApply (p : Party) (d : Die) (n : Bucket) (v : Word)
  | templateRead (p : Party) (d : Die) (v : Word)
  | templateWrite (p : Party) (d : Die) (v : Word)
  | templateRefetch (d : Die) (h : Handle) (l : TplLine)
  | shapedFrameStart (d : Die) (n : Bucket) (now : Now)
  | interfaceFrameBoundary (i : Iface) (now : Now)
  | seqMirrorUpdate (d : Die) (h : Handle) (next : Word)
  -- buffer pools
  | hostAlloc (p : Party) (d : Die) (n : HostPort) (v : Word) (rivals : List Rival)
  | hostFree (p : Party) (d : Die) (n : HostPort) (v : Word)
  | reserveWrite (p : Party) (d : Die) (o : Fin 64) (cls : Option (Fin 8)) (v : Word)
  -- memory
  | dramRead (g : Group) (la : Fin 16777216) (flips : List Flip)
  | dramWrite (g : Group) (la : Fin 16777216) (off : Fin 256) (bytes : List Byte) (tags : Nat) (x : LineSide)
  | forceErase (p : Party) (g : Group) (v : Word)
  | scrubCredit (g : Group) (errs : List (Nat × List Flip)) (now : Now)
  | refreshInterval (g : Group) (rtBusy : Bool) (now : Now)
  | refreshCatchup (g : Group) (rate : Fin 4) (now : Now)
  | mr4Read (g : Group) (rate : Fin 4) (now : Now)
  | driftRetrain (g : Group) (k : Device) (now : Now)
  | driftRetrainDone (g : Group) (ok : Bool) (now : Now)
  | xbarGrantTimeout (g : Group) (cluster : Fin 4) (w : Waited)
  | ageCapHit (g : Group) (a : AgeCap)
  | repairMapAppend (e : RepairEntry)
  -- DMA
  | dmaPost (p : Party) (d : Die) (q : Queue) (v : Word)
  | dmaNop (d : Die) (q : Queue) (env : DmaEnv) (now : Now)
  | dmaCopy (d : Die) (q : Queue) (env : DmaEnv) (now : Now)
  | dmaReshIn (d : Die) (q : Queue) (env : DmaEnv) (now : Now)
  | dmaReshOut (d : Die) (q : Queue) (env : DmaEnv) (now : Now)
  | dmaDeint (d : Die) (q : Queue) (env : DmaEnv) (now : Now)
  | dmaInter (d : Die) (q : Queue) (env : DmaEnv) (now : Now)
  | dmaFill (d : Die) (q : Queue) (env : DmaEnv) (now : Now)
  | dmaCompare (d : Die) (q : Queue) (env : DmaEnv) (now : Now)
  | dmaCheck (d : Die) (q : Queue) (env : DmaEnv) (now : Now)
  | dmaRecv (d : Die) (q : Queue) (env : DmaEnv) (now : Now)
  | dmaSend (d : Die) (q : Queue) (env : DmaEnv) (now : Now)
  | dmaOpReserved (d : Die) (q : Queue) (env : DmaEnv) (now : Now)
  | descComplete (d : Die) (q : Queue) (rb : ReadBack) (now : Now)
  | dmaDescTimeout (d : Die) (q : Queue) (now : Now)
  | pcieCplTimeout (d : Die) (q : Queue) (w : Waited)
  | dmaResume (p : Party) (d : Die) (q : Queue) (v : Word)
  | dmaReset (p : Party) (d : Die) (q : Queue) (v : Word)
  -- check-value units
  | chkData (p : Party) (d : Die) (c : ChkUnit) (v : Word)
  | chkDataB (p : Party) (d : Die) (c : ChkUnit) (v : Word)
  | chkFold (p : Party) (d : Die) (c : ChkUnit) (v : Word)
  | chkStart (p : Party) (d : Die) (c : ChkUnit) (v : Word)
  | chkFinish (p : Party) (d : Die) (c : ChkUnit) (v : Word)
  | chkFinishEffect (d : Die) (c : ChkUnit) (now : Now)
  | chkContextWrite (p : Party) (d : Die) (c : ChkUnit) (r : ChkCtx) (v : Word)
  -- events
  | eventAssert (n : Source) (detail : Nat) (level : Bool)
  | msixUnmask (n : HostPort)
  | evcClaim (p : Party) (t : Target)
  | evcComplete (p : Party) (t : Target) (v : Word)
  | claimTimeout (n : Source) (now : Now)
  | evcFifoPop (p : Party) (t : Target) (parityBad : Bool)
  | evcFifoPush (p : Party) (t : Target) (v : Word)
  | evcSwSet (p : Party) (v : Word)
  | evcSwClr (p : Party) (v : Word)
  | evcSrcCfgWrite (p : Party) (n : Source) (v : Word)
  | evcTgtCtrlWrite (p : Party) (t : Target) (v : Word)
  -- Ostler nanoword operations
  | ostAdd (d : Die) (w : Nano) (imm : Fin 1024)
  | ostSub (d : Die) (w : Nano) (imm : Fin 1024)
  | ostAnd (d : Die) (w : Nano) (imm : Fin 1024)
  | ostOr (d : Die) (w : Nano) (imm : Fin 1024)
  | ostXor (d : Die) (w : Nano) (imm : Fin 1024)
  | ostShl (d : Die) (w : Nano) (imm : Fin 1024)
  | ostShr (d : Die) (w : Nano) (imm : Fin 1024)
  | ostSar (d : Die) (w : Nano) (imm : Fin 1024)
  | ostMin (d : Die) (w : Nano) (imm : Fin 1024)
  | ostMax (d : Die) (w : Nano) (imm : Fin 1024)
  | ostMov (d : Die) (w : Nano) (imm : Fin 1024)
  | ostLdlc (d : Die) (w : Nano) (imm : Fin 1024)
  | ostCrc32c (d : Die) (w : Nano) (imm : Fin 1024)
  | ostLoad (d : Die) (w : Nano) (poisoned : Bool)
  | ostStore (d : Die) (w : Nano)
  | ostRdreg (d : Die) (w : Nano) (poisoned : Bool)
  | ostWrreg (d : Die) (w : Nano)
  | ostPop (d : Die) (w : Nano) (parityBad : Bool)
  | ostPush (d : Die) (w : Nano) (tagged : Bool)
  | ostLimm (d : Die) (w : Nano)
  -- Ostler next-address operations
  | ostCont (d : Die) (opnd : Fin 1024)
  | ostJmp (d : Die) (opnd : Fin 1024)
  | ostBrt (d : Die) (opnd : Fin 1024)
  | ostBrf (d : Die) (opnd : Fin 1024)
  | ostCall (d : Die) (opnd : Fin 1024)
  | ostRet (d : Die) (opnd : Fin 1024)
  | ostYield (d : Die) (opnd : Fin 1024) (now : Now)
  | ostEnd (d : Die) (opnd : Fin 1024) (now : Now)
  | shedClear (d : Die) (now : Now)
  | ostlerWatchdog (d : Die) (now : Now)
  -- host ports
  | registerWrite (p : Party) (addr : Fin 67108864) (v : Word) (be : Fin 16) (dwords : Nat)
  | counterLoRead (p : Party) (addr : Fin 67108864)
  | stirrupTake (n : Stirrup) (takers : List Party)
  | stirrupRelease (p : Party) (n : Stirrup) (v : Word)
  | stirrupForce (p : Party) (n : Stirrup) (v : Word)
  | lease (n : Stirrup) (now : Now)
  | hirSel (p : Party) (n : HostPort) (v : Word)
  | portReset (n : HostPort)
  | quoteGo (p : Party) (n : HostPort) (v : Word)
  | quoteComplete (ok : Bool) (now : Now)
  | tetherQuoteRequest (l : Link) (nonce : List Byte)
  -- field update
  | fwuOpen (p : Party) (v : Word)
  | fwuClose (p : Party) (v : Word)
  | fwuSubmit (p : Party) (v : Word)
  | blockChecked (now : Now)
  | slotReadback (now : Now)
  | flashOpTimeout (now : Now)
  | xferTimeout (now : Now)
  | fwuActivate (p : Party) (v : Word)
  | preparationEnd (now : Now)
  | ostlerQuiesce (now : Now)
  | bundleSwitch (now : Now)
  | trialConfirm (now : Now)
  | fwuRevert (p : Party) (v : Word)
  | actTimeout (now : Now)
  | farrierTimeout (now : Now)
  | tetherRecoveryBlock (l : Link) (block : Nat) (crc : Word) (bytes : List Byte)
  -- seasons
  | winter (p : Party) (v : Word)
  | winterQuiesce (now : Now)
  | winterDrained (now : Now)
  | spring (p : Party) (v : Word)
  | springComplete (now : Now)
  | clusterGate (c : ClusterIx) (now : Now)
  | autumnEnWrite (p : Party) (v : Word)
  -- links
  | tetherLinkUp (l : Link) (major minor : Nat) (modNo : Nat)
  | tetherKeepaliveTimeout (l : Link) (w : Waited)
  | linkCreditTimeout (w : Waited)
  | linkRetrainRetry (now : Now)
  | followUpReceived (port : NetPort) (m : PtpTiming) (now : Now)
  | delayRespReceived (port : NetPort) (r : DelayResp) (now : Now)
  | ref10InChange (present : Bool)
  | planeDown (d : Die) (m : Pair) (planeB : Bool) (now : Now)
  | ostlerOverload (d : Die) (o : Overload)
  | storeReloadDone (d : Die) (parityOk : Bool) (now : Now)
  | vinLowEnd (mv : Nat)
  | linkRetrainDone (now : Now)
  | hostLinkUp (n : HostPort) (speed width : Nat)
  deriving DecidableEq, Repr

end Sys2Proof
end

