-- ==== Sys2Proof/Decode.lean ====
section
/-!
DEFINITION. The words of the command table. No row of spec/opcode_table.json has bits: a command of the E48 is an event
or an access, not a word. So no word spells a command.
-/

namespace Sys2Proof

/-- The command that a table word spells: none.
DESIGN CHOICE, log 2. -/
def decodeTableWord (_nbits _w : Nat) : Option Instr := none

end Sys2Proof
end

