-- ==== Sys2Proof/Config.lean ====
section
/-!
DEFINITION. What one unit or one implementation fixes, and the values that the spec leaves open. Each is a constant
without a body: nothing can evaluate it, so a claim about the model holds whatever it is.
-/

namespace Sys2Proof

/-- A value that the spec leaves open, drawn afresh for each number of `State.freeCtr` (log 5).
DESIGN CHOICE, log 5. -/
opaque Config.free : Nat → Nat

/-- `MID_TYPE.GRADE` of this unit, from its fuses (R1, R15).
DESIGN CHOICE, log 7. -/
opaque Config.fuseGrade : Bool

/-- `MID_TYPE.STEPPING` of this unit, from its fuses.
DESIGN CHOICE, log 7. -/
opaque Config.fuseStepping : BitVec 8

/-- The serial number of this unit, from its fuses.
DESIGN CHOICE, log 7. -/
opaque Config.fuseSerial : BitVec 64

/-- SHA-384 of a byte string (R428); FIPS 180-4 is not in the spec.
DESIGN CHOICE, log 7. -/
opaque Config.sha384 : List Byte → BitVec 384

/-- The ECDSA P-384 signature r ‖ s of this unit's key over a digest (R430, R432).
DESIGN CHOICE, log 7. -/
opaque Config.sign : BitVec 384 → BitVec 768

/-- Whether a signature over a digest verifies under one of Belnal's four bundle-signing keys (R437).
DESIGN CHOICE, log 7. -/
opaque Config.verify : Nat → BitVec 384 → BitVec 768 → Bool

/-- Whether the fuses of this unit mark a bundle-signing key as revoked (R437).
DESIGN CHOICE, log 7. -/
opaque Config.keyRevoked : Nat → Bool

/-- Node `n` of the rule set that a PARSER_DEFAULTS component holds (R238, R436); the spec does not give its format.
DESIGN CHOICE, log 8. -/
opaque Config.parserNode : List Byte → Nat → Nat

/-- The root of tree `t` of root set `g` in that rule set: bit 16 VALID, bits 15 to 0 the node.
DESIGN CHOICE, log 8. -/
opaque Config.parserRoot : List Byte → Nat → Nat → Nat

/-- The first tree and default leaf of interface `i` in that rule set, as a word of `PRS_IFSET`.
DESIGN CHOICE, log 8. -/
opaque Config.parserIfset : List Byte → Nat → Nat

/-- The spares of a kind (1 row, 2 column) of a macro of a die that the fuse map has used (R328).
DESIGN CHOICE, log 7. -/
opaque Config.fuseSpares : Nat → Nat → Nat → Nat

/-- Functions of their operands that the spec leaves to the implementation, by number and operands (log 6).
DESIGN CHOICE, log 6. -/
opaque Config.fn : Nat → List Nat → Nat

/-- The fixed PHY latency of a network port, in ps (R45).
DESIGN CHOICE, log 7. -/
opaque Config.phyPs : Nat → Nat

/-- The PTP port identity of a network port, as the 80-bit number that its delay requests carry (R42).
DESIGN CHOICE, log 7. -/
opaque Config.ptpIdentity : Nat → Nat

/-- The digest of the Farrier ROM, fixed at manufacture (R428).
DESIGN CHOICE, log 7. -/
opaque Config.farrierDigest : BitVec 384

end Sys2Proof
end

