-- ==== Sys2Proof/Machine/Assoc.lean ====
section
/-!
DEFINITION. Association lists in one canonical form: keys strictly rising. The register store and the
byte memories of the model are built on them, so that equal contents are equal data.
-/

namespace Sys2Proof.Machine

/-- The value that a list gives a key, if the key is listed. -/
def assocGet {α β : Type} [DecidableEq α] : List (α × β) → α → Option β
  | [], _ => none
  | (x, y) :: t, a => if x = a then some y else assocGet t a

/-- The list without one key. -/
def assocErase {α β : Type} [DecidableEq α] (l : List (α × β)) (a : α) : List (α × β) :=
  l.filter (fun p => decide (p.1 ≠ a))

/-- The list with one key set to a value, in its place in the order. -/
def assocInsert {α β : Type} [DecidableEq α] (lt : α → α → Bool) :
    List (α × β) → α → β → List (α × β)
  | [], a, b => [(a, b)]
  | (x, y) :: t, a, b =>
    if lt a x then (a, b) :: (x, y) :: t
    else if x = a then (a, b) :: t
    else (x, y) :: assocInsert lt t a b

/-- The canonical order: every key before every later key. -/
abbrev AssocSorted {α β : Type} (lt : α → α → Bool) (l : List (α × β)) : Prop :=
  l.Pairwise (fun p q => lt p.1 q.1 = true)

/-- What the canonical form needs of the comparison of keys. -/
structure KeyOrder {α : Type} (lt : α → α → Bool) : Prop where
  trans : ∀ a b c, lt a b = true → lt b c = true → lt a c = true
  irrefl : ∀ a, lt a a = false
  total : ∀ a b, lt a b = false → a ≠ b → lt b a = true

section
variable {α β : Type} [DecidableEq α] {lt : α → α → Bool}

theorem assocGet_erase_same (l : List (α × β)) (a : α) : assocGet (assocErase l a) a = none := by
  induction l with
  | nil => rfl
  | cons p t ih =>
    obtain ⟨x, y⟩ := p
    by_cases h : x = a
    · simpa [assocErase, h] using ih
    · simpa [assocErase, h, assocGet] using ih

theorem assocGet_erase_other (l : List (α × β)) {a b : α} (h : b ≠ a) :
    assocGet (assocErase l a) b = assocGet l b := by
  induction l with
  | nil => rfl
  | cons p t ih =>
    obtain ⟨x, y⟩ := p
    by_cases hx : x = a
    · subst hx
      simpa [assocErase, assocGet, Ne.symm h] using ih
    · simp only [assocErase, List.filter_cons, hx, ne_eq, not_false_eq_true, decide_true, if_true,
        assocGet]
      simp only [assocErase, ne_eq] at ih
      rw [ih]

theorem assocGet_insert_same (l : List (α × β)) (a : α) (b : β) :
    assocGet (assocInsert lt l a b) a = some b := by
  induction l with
  | nil => simp [assocInsert, assocGet]
  | cons p t ih =>
    obtain ⟨x, y⟩ := p
    unfold assocInsert
    split
    · simp [assocGet]
    · split
      · simp [assocGet]
      · rename_i h
        simp [assocGet, h, ih]

theorem assocGet_insert_other (l : List (α × β)) {a c : α} (b : β) (h : c ≠ a) :
    assocGet (assocInsert lt l a b) c = assocGet l c := by
  induction l with
  | nil => simp [assocInsert, assocGet, Ne.symm h]
  | cons p t ih =>
    obtain ⟨x, y⟩ := p
    unfold assocInsert
    split
    · simp [assocGet, Ne.symm h]
    · split
      · rename_i hx
        subst hx
        simp [assocGet, Ne.symm h]
      · simp [assocGet, ih]

theorem assocSorted_erase {l : List (α × β)} (h : AssocSorted lt l) (a : α) :
    AssocSorted lt (assocErase l a) := List.Pairwise.filter _ h

theorem assocInsert_mem {l : List (α × β)} {a : α} {b : β} {p : α × β}
    (h : p ∈ assocInsert lt l a b) : p = (a, b) ∨ p ∈ l := by
  induction l with
  | nil => simpa [assocInsert] using h
  | cons q t ih =>
    obtain ⟨x, y⟩ := q
    unfold assocInsert at h
    split at h
    · simpa using h
    · split at h
      · simp only [List.mem_cons] at h
        rcases h with h | h
        · exact .inl h
        · exact .inr (List.mem_cons_of_mem _ h)
      · simp only [List.mem_cons] at h
        rcases h with h | h
        · exact .inr (by simp [h])
        · rcases ih h with h | h
          · exact .inl h
          · exact .inr (List.mem_cons_of_mem _ h)

theorem assocSorted_insert (o : KeyOrder lt) {l : List (α × β)} (h : AssocSorted lt l) (a : α) (b : β) :
    AssocSorted lt (assocInsert lt l a b) := by
  induction l with
  | nil => simp [assocInsert, AssocSorted]
  | cons q t ih =>
    obtain ⟨x, y⟩ := q
    have hh := List.pairwise_cons.1 h
    unfold assocInsert
    split
    · rename_i hlt
      refine List.pairwise_cons.2 ⟨?_, h⟩
      intro p hp
      rcases List.mem_cons.1 hp with rfl | hp
      · exact hlt
      · exact o.trans _ _ _ hlt (hh.1 p hp)
    · split
      · rename_i hx
        subst hx
        exact List.pairwise_cons.2 ⟨fun p hp => hh.1 p hp, hh.2⟩
      · rename_i hlt hx
        refine List.pairwise_cons.2 ⟨?_, ih hh.2⟩
        intro p hp
        rcases assocInsert_mem hp with rfl | hp
        · exact o.total _ _ (by simpa using hlt) (fun e => hx e.symm)
        · exact hh.1 p hp

/-- Two canonical lists that give every key the same value are equal. -/
theorem assoc_ext (o : KeyOrder lt) : ∀ {l m : List (α × β)}, AssocSorted lt l → AssocSorted lt m →
    (∀ a, assocGet l a = assocGet m a) → l = m := by
  have below : ∀ {l : List (α × β)} {a : α}, (∀ p ∈ l, lt a p.1 = true) → assocGet l a = none := by
    intro l a
    induction l with
    | nil => intro _; rfl
    | cons p t ih =>
      intro h
      obtain ⟨x, y⟩ := p
      have hx : x ≠ a := by
        rintro rfl
        have := h (x, y) (by simp)
        simp [o.irrefl] at this
      simp only [assocGet, hx, if_false]
      exact ih (fun p hp => h p (List.mem_cons_of_mem _ hp))
  intro l
  induction l with
  | nil =>
    intro m _ _ h
    cases m with
    | nil => rfl
    | cons q t => have := h q.1; simp [assocGet] at this
  | cons p t ih =>
    intro m hl hm h
    obtain ⟨x, y⟩ := p
    cases m with
    | nil => have := h x; simp [assocGet] at this
    | cons q u =>
      obtain ⟨z, w⟩ := q
      have hl' := List.pairwise_cons.1 hl
      have hm' := List.pairwise_cons.1 hm
      have hxz : x = z := by
        by_contra hne
        cases hlt : lt x z with
        | true =>
          have h1 := h x
          have : assocGet ((z, w) :: u) x = none := by
            apply below
            intro p hp
            rcases List.mem_cons.1 hp with rfl | hp
            · exact hlt
            · exact o.trans _ _ _ hlt (hm'.1 p hp)
          rw [this] at h1
          simp [assocGet] at h1
        | false =>
          have hlt' := o.total _ _ hlt hne
          have h1 := h z
          have : assocGet ((x, y) :: t) z = none := by
            apply below
            intro p hp
            rcases List.mem_cons.1 hp with rfl | hp
            · exact hlt'
            · exact o.trans _ _ _ hlt' (hl'.1 p hp)
          rw [this] at h1
          simp [assocGet] at h1
      subst hxz
      have hyw : y = w := by
        have := h x
        simpa [assocGet] using this
      subst hyw
      have : t = u := by
        apply ih hl'.2 hm'.2
        intro a
        by_cases ha : x = a
        · subst ha
          rw [below (fun p hp => hl'.1 p hp), below (fun p hp => hm'.1 p hp)]
        · have := h a
          simpa [assocGet, ha] using this
      rw [this]

end

theorem natOrder : KeyOrder Nat.blt where
  trans a b c h1 h2 := by
    rw [Nat.blt_eq] at *
    omega
  irrefl a := by
    cases h : Nat.blt a a with
    | false => rfl
    | true => rw [Nat.blt_eq] at h; omega
  total a b h1 h2 := by
    have h : ¬ a < b := fun hh => by
      rw [← Nat.blt_eq] at hh
      simp [h1] at hh
    rw [Nat.blt_eq]
    omega

end Sys2Proof.Machine
end

