-- ==== Sys2Proof/Machine/Mem.lean ====
section
/-!
DEFINITION. Byte memories: the DRAM of the lockstep groups, the flash, and host memory as the module sees it.
A memory lists only the bytes that differ from what an unlisted address reads as (R312: unwritten DRAM lines
read as zero; R420: erased flash reads 0xFF), with the addresses strictly rising.
-/

namespace Sys2Proof.Machine

/-- The canonical form of a memory's list: addresses strictly rising, and no listed byte equal to what an
unlisted address reads as. -/
def Mem.wf (dflt : Byte) (l : List Host.Cell) : Bool :=
  decide (AssocSorted Nat.blt l) && l.all (fun c => decide (c.2 ≠ dflt))

/-- A byte memory in canonical form, whose unlisted addresses read as `dflt`. -/
structure Mem (dflt : Byte) where
  cells : List Host.Cell
  ok    : Mem.wf dflt cells = true
  deriving DecidableEq, Repr

theorem Mem.wf_iff {dflt : Byte} {l : List Host.Cell} :
    Mem.wf dflt l = true ↔ AssocSorted Nat.blt l ∧ ∀ c ∈ l, c.2 ≠ dflt := by
  simp [Mem.wf, List.all_eq_true]

theorem Mem.wf_erase {dflt : Byte} {l : List Host.Cell} (h : Mem.wf dflt l = true) (a : Nat) :
    Mem.wf dflt (assocErase l a) = true := by
  rw [Mem.wf_iff] at *
  exact ⟨assocSorted_erase h.1 a, fun c hc => h.2 c (List.mem_of_mem_filter hc)⟩

theorem Mem.wf_insert {dflt : Byte} {l : List Host.Cell} (h : Mem.wf dflt l = true) (a : Nat) {v : Byte}
    (hv : v ≠ dflt) : Mem.wf dflt (assocInsert Nat.blt l a v) = true := by
  rw [Mem.wf_iff] at *
  refine ⟨assocSorted_insert natOrder h.1 a v, fun c hc => ?_⟩
  rcases assocInsert_mem hc with rfl | hc
  · exact hv
  · exact h.2 c hc

theorem Mem.wf_filter {dflt : Byte} {l : List Host.Cell} (h : Mem.wf dflt l = true) (p : Host.Cell → Bool) :
    Mem.wf dflt (l.filter p) = true := by
  rw [Mem.wf_iff] at *
  exact ⟨List.Pairwise.filter _ h.1, fun c hc => h.2 c (List.mem_of_mem_filter hc)⟩

/-- The memory with nothing listed.
PRESUMED, log 4. -/
def Mem.empty (dflt : Byte) : Mem dflt := ⟨[], by simp [Mem.wf]⟩

/-- The byte at an address. -/
def Mem.get {dflt : Byte} (m : Mem dflt) (a : Nat) : Byte := (assocGet m.cells a).getD dflt

/-- The memory with one byte written. -/
def Mem.set {dflt : Byte} (m : Mem dflt) (a : Nat) (v : Byte) : Mem dflt :=
  if hv : v = dflt then ⟨assocErase m.cells a, Mem.wf_erase m.ok a⟩
  else ⟨assocInsert Nat.blt m.cells a v, Mem.wf_insert m.ok a hv⟩

/-- The memory with every byte of the addresses that fail `p` back at what an unlisted address reads as. -/
def Mem.keep {dflt : Byte} (m : Mem dflt) (p : Nat → Bool) : Mem dflt :=
  ⟨m.cells.filter (fun c => p c.1), Mem.wf_filter m.ok _⟩

/-- `n` bytes from an address upward. -/
def Mem.read {dflt : Byte} (m : Mem dflt) (a n : Nat) : List Byte := (List.range n).map (fun i => m.get (a + i))

/-- A list of bytes written from an address upward. -/
def Mem.write {dflt : Byte} : Mem dflt → Nat → List Byte → Mem dflt
  | m, _, [] => m
  | m, a, b :: t => Mem.write (m.set a b) (a + 1) t

@[simp] theorem Mem.get_empty (dflt : Byte) (a : Nat) : (Mem.empty dflt).get a = dflt := rfl

@[simp] theorem Mem.get_set_same {dflt : Byte} (m : Mem dflt) (a : Nat) (v : Byte) : (m.set a v).get a = v := by
  unfold Mem.set Mem.get
  split
  · rename_i h; simp [assocGet_erase_same, h]
  · simp [assocGet_insert_same]

theorem Mem.get_set_other {dflt : Byte} (m : Mem dflt) {a b : Nat} (v : Byte) (h : b ≠ a) :
    (m.set a v).get b = m.get b := by
  unfold Mem.set Mem.get
  split
  · simp [assocGet_erase_other _ h]
  · simp [assocGet_insert_other _ _ h]

theorem Mem.get_write_outside {dflt : Byte} (bs : List Byte) : ∀ (m : Mem dflt) (a b : Nat),
    (b < a ∨ a + bs.length ≤ b) → (m.write a bs).get b = m.get b := by
  induction bs with
  | nil => intros; rfl
  | cons x t ih =>
    intro m a b h
    simp only [List.length_cons] at h
    rw [Mem.write, ih _ _ _ (by omega), Mem.get_set_other _ _ (by omega)]

theorem Mem.get_write_inside {dflt : Byte} (bs : List Byte) : ∀ (m : Mem dflt) (a i : Nat) (h : i < bs.length),
    (m.write a bs).get (a + i) = bs[i] := by
  induction bs with
  | nil => intro m a i h; simp at h
  | cons x t ih =>
    intro m a i h
    cases i with
    | zero => rw [Mem.write, Mem.get_write_outside _ _ _ _ (by omega)]; simp
    | succ j =>
      have := ih (m.set a x) (a + 1) j (by simpa using h)
      simpa [Mem.write, Nat.add_assoc, Nat.add_comm 1 j] using this

/-- What is read inside bytes just written. -/
theorem Mem.read_write_inside {dflt : Byte} (m : Mem dflt) (a i n : Nat) (bs : List Byte) (h : i + n ≤ bs.length) :
    (m.write a bs).read (a + i) n = (bs.drop i).take n := by
  apply List.ext_getElem
  · simp [Mem.read]; omega
  · intro k h1 h2
    simp only [Mem.read, List.length_map, List.length_range] at h1
    simp only [Mem.read, List.getElem_map, List.getElem_range, List.getElem_take, List.getElem_drop]
    rw [Nat.add_assoc, Mem.get_write_inside _ _ _ _ (by omega)]

/-- What is read outside bytes just written is as before. -/
theorem Mem.read_write_outside {dflt : Byte} (m : Mem dflt) (a b n : Nat) (bs : List Byte)
    (h : b + n ≤ a ∨ a + bs.length ≤ b) : (m.write a bs).read b n = m.read b n := by
  apply List.map_congr_left
  intro k hk
  have := List.mem_range.1 hk
  exact Mem.get_write_outside _ _ _ _ (by omega)

/-- Memories that read alike at every address are equal data. -/
theorem Mem.ext_get {dflt : Byte} {m n : Mem dflt} (h : ∀ a, m.get a = n.get a) : m = n := by
  have hm := Mem.wf_iff.1 m.ok
  have hn := Mem.wf_iff.1 n.ok
  have key : ∀ (l : List Host.Cell), (∀ c ∈ l, c.2 ≠ dflt) → ∀ a, assocGet l a ≠ some dflt := by
    intro l
    induction l with
    | nil => intro _ a; simp [assocGet]
    | cons p t ih =>
      obtain ⟨x, y⟩ := p
      intro hl a
      unfold assocGet
      split
      · simpa using hl (x, y) (by simp)
      · exact ih (fun c hc => hl c (List.mem_cons_of_mem _ hc)) a
  have : m.cells = n.cells := by
    apply assoc_ext natOrder hm.1 hn.1
    intro a
    have h1 := h a
    have h2 := key _ hm.2 a
    have h3 := key _ hn.2 a
    unfold Mem.get at h1
    cases e1 : assocGet m.cells a <;> cases e2 : assocGet n.cells a <;> simp_all
  cases m; cases n; simp_all

end Sys2Proof.Machine
end

