-- ==== Sys2Proof/Machine/Fields.lean ====
section
/-!
DEFINITION. The register fields of the E48 and the state that its registers imply: one name for each field of
the register tables (R68, R183, R207, R209, R239, R265, R283, R300, R331, R356, R357, R381, R396, R434, R455,
R476, R505, R512 and chapter 17), its width and its value at reset. A name that begins with `x` is state that a rule gives
the block and no register shows. `i`, `j` and `k` are the indexes of a replicated field; in a shadow-banked
register (R61) the last index is the bank: 0 the shadow bank, which registers show, and 1 the active bank.
A width of 0 means that the value has no fixed width.
-/

namespace Sys2Proof.Machine

/-- The default count of a size class in a group (R284). -/
def pdkDefaultCount (c : Nat) : Nat :=
  match c with
  | 0 => 8192 | 1 => 2048 | 2 => 1024 | 3 => 512 | 4 => 128 | 5 => 64 | 6 => 32 | _ => 46

/-- The seed offset of an activity class until configured (R147). -/
def qrcSeedOfs (c : Nat) : Nat :=
  match c with
  | 0 => 0 | 1 => 0 | 2 => 1 | 3 => 2 | 4 => 3 | 5 => 4 | 6 => 5 | _ => 6

/-- The seed of the expected bits of an activity class until configured (R147). -/
def qrcSeedBpb (c : Nat) : Nat :=
  match c with
  | 0 => 60 | 1 => 150 | 2 => 280 | 3 => 450 | 4 => 650 | 5 => 900 | 6 => 1250 | _ => 1700

/-- The fields of the MID block. -/
inductive Mid where
  /-- `MID_TYPE.TYPE` -/
  | TYPE_TYPE
  /-- `MID_TYPE.GRADE` -/
  | TYPE_GRADE
  /-- `MID_TYPE.STEPPING` -/
  | TYPE_STEPPING
  /-- `MID_SERIAL_LO.SERIAL_LO` -/
  | SERIAL_LO_SERIAL_LO
  /-- `MID_SERIAL_HI.SERIAL_HI` -/
  | SERIAL_HI_SERIAL_HI
  /-- `MID_HIR.MINOR_MAX` -/
  | HIR_MINOR_MAX
  /-- `MID_HIR.MAJOR` -/
  | HIR_MAJOR
  /-- `MID_SCHEMA.MINOR` -/
  | SCHEMA_MINOR
  /-- `MID_SCHEMA.MAJOR` -/
  | SCHEMA_MAJOR
  /-- `MID_SCHEMA.SCHEMA_BAD` -/
  | SCHEMA_SCHEMA_BAD
  /-- `MID_SCHEMA.SCHEMA_NEWER` -/
  | SCHEMA_SCHEMA_NEWER
  /-- `MID_STATUS.DIE_UP` -/
  | STATUS_DIE_UP
  /-- `MID_STATUS.MODULE` -/
  | STATUS_MODULE
  /-- `MID_STATUS.BUNDLE_SLOT` -/
  | STATUS_BUNDLE_SLOT
  /-- `MID_TTH_LOCAL.MINOR_MAX` -/
  | TTH_LOCAL_MINOR_MAX
  /-- `MID_TTH_LOCAL.MAJOR` -/
  | TTH_LOCAL_MAJOR
  /-- `MID_BOOT.STEP` -/
  | BOOT_STEP
  /-- `MID_BOOT.RECOVERY` -/
  | BOOT_RECOVERY
  /-- `MID_BOOT.BOOT_COPY` -/
  | BOOT_BOOT_COPY
  /-- `MID_BOOT.REPAIR_NONE` -/
  | BOOT_REPAIR_NONE
  /-- `MID_BOOT.FIRST_PIC` -/
  | BOOT_FIRST_PIC
  /-- `MID_STRAP.RECOVERY` -/
  | STRAP_RECOVERY
  /-- `MID_STRAP.FLASH_CLK` -/
  | STRAP_FLASH_CLK
  /-- `MID_STRAP.NO_CFG` -/
  | STRAP_NO_CFG
  /-- `MID_STRAP.HA_EN` -/
  | STRAP_HA_EN
  /-- `MID_STRAP.HB_EN` -/
  | STRAP_HB_EN
  /-- `MID_STRAP.TETHER_RCV` -/
  | STRAP_TETHER_RCV
  /-- `MID_STRAP.SLOT_SWAP` -/
  | STRAP_SLOT_SWAP
  /-- `MID_STRAP.RSVD` -/
  | STRAP_RSVD
  /-- `MID_CFG_IMG.COPY` -/
  | CFG_IMG_COPY
  /-- `MID_CFG_IMG.NONE` -/
  | CFG_IMG_NONE
  /-- `MID_CFG_IMG.COPY_BAD` -/
  | CFG_IMG_COPY_BAD
  /-- `MID_CFG_IMG.SKIPPED` -/
  | CFG_IMG_SKIPPED
  /-- `MID_CFG_SEQ.SEQ` -/
  | CFG_SEQ_SEQ
  /-- `MID_EARLY.EARLY_WRITE` -/
  | EARLY_EARLY_WRITE
  /-- `MID_MLOG_STATUS.COUNT` -/
  | MLOG_STATUS_COUNT
  /-- `MID_MLOG_STATUS.LOG_FULL` -/
  | MLOG_STATUS_LOG_FULL
  /-- `MID_CERT_LEN.LEN` -/
  | CERT_LEN_LEN
  /-- `MID_TTH_REV.MINOR` -/
  | TTH_REV_MINOR
  /-- `MID_TTH_REV.MAJOR` -/
  | TTH_REV_MAJOR
  /-- `MID_TTH_REV.UP` -/
  | TTH_REV_UP
  /-- `MID_MLOG_AGG.AGG` -/
  | MLOG_AGG_AGG
  /-- `MID_QUOTE_NONCE.NONCE` -/
  | QUOTE_NONCE_NONCE
  /-- `MID_QUOTE_CTRL.GO` -/
  | QUOTE_CTRL_GO
  /-- `MID_QUOTE_CTRL.BUSY` -/
  | QUOTE_CTRL_BUSY
  /-- `MID_QUOTE_CTRL.VALID` -/
  | QUOTE_CTRL_VALID
  /-- `MID_QUOTE_CTRL.FAILED` -/
  | QUOTE_CTRL_FAILED
  /-- `MID_QUOTE_DATA.DATA` -/
  | QUOTE_DATA_DATA
  /-- `MID_CERT.CERT` -/
  | CERT_CERT
  /-- `MID_MLOG_ENTRY.ENTRY` -/
  | MLOG_ENTRY_ENTRY
  /-- Channel `i` is named in a START record (R423): 1 with WAIT_LOCK 0, 2 with WAIT_LOCK 1 -/
  | xSTART
  /-- One more than the module number of the partner on link `i` (R25) -/
  | xTTH_MOD
  /-- The local-oscillator edge at which the keepalive of link `i` times out (R66) -/
  | xKA_DUE
  /-- Failed retrains of the inter-die link (R67) -/
  | xLINK_RETRY
  /-- The inter-die link is retraining (R67) -/
  | xLINK_DOWN
  /-- One more than the TAI time in ns from which video flows of raster domain `i` that cross between the dies wait for a picture boundary (R37); 0 before any stop -/
  | xX_HOLD
  /-- The local-oscillator edge of the last retrain attempt -/
  | xLINK_AT
  deriving DecidableEq, Repr

/-- The width of a field of the MID block. -/
def Mid.width (f : Mid) : Nat :=
  match f with
  | .TYPE_TYPE => 16
  | .TYPE_GRADE => 1
  | .TYPE_STEPPING => 8
  | .SERIAL_LO_SERIAL_LO => 32
  | .SERIAL_HI_SERIAL_HI => 32
  | .HIR_MINOR_MAX => 8
  | .HIR_MAJOR => 8
  | .SCHEMA_MINOR => 8
  | .SCHEMA_MAJOR => 8
  | .SCHEMA_SCHEMA_BAD => 1
  | .SCHEMA_SCHEMA_NEWER => 1
  | .STATUS_DIE_UP => 2
  | .STATUS_MODULE => 2
  | .STATUS_BUNDLE_SLOT => 1
  | .TTH_LOCAL_MINOR_MAX => 8
  | .TTH_LOCAL_MAJOR => 8
  | .BOOT_STEP => 4
  | .BOOT_RECOVERY => 1
  | .BOOT_BOOT_COPY => 1
  | .BOOT_REPAIR_NONE => 1
  | .BOOT_FIRST_PIC => 16
  | .STRAP_RECOVERY => 1
  | .STRAP_FLASH_CLK => 1
  | .STRAP_NO_CFG => 1
  | .STRAP_HA_EN => 1
  | .STRAP_HB_EN => 1
  | .STRAP_TETHER_RCV => 1
  | .STRAP_SLOT_SWAP => 1
  | .STRAP_RSVD => 1
  | .CFG_IMG_COPY => 1
  | .CFG_IMG_NONE => 1
  | .CFG_IMG_COPY_BAD => 1
  | .CFG_IMG_SKIPPED => 16
  | .CFG_SEQ_SEQ => 32
  | .EARLY_EARLY_WRITE => 16
  | .MLOG_STATUS_COUNT => 9
  | .MLOG_STATUS_LOG_FULL => 1
  | .CERT_LEN_LEN => 16
  | .TTH_REV_MINOR => 8
  | .TTH_REV_MAJOR => 8
  | .TTH_REV_UP => 1
  | .MLOG_AGG_AGG => 32
  | .QUOTE_NONCE_NONCE => 32
  | .QUOTE_CTRL_GO => 1
  | .QUOTE_CTRL_BUSY => 1
  | .QUOTE_CTRL_VALID => 1
  | .QUOTE_CTRL_FAILED => 1
  | .QUOTE_DATA_DATA => 32
  | .CERT_CERT => 32
  | .MLOG_ENTRY_ENTRY => 32
  | .xSTART => 2
  | .xTTH_MOD => 3
  | .xKA_DUE => 64
  | .xLINK_RETRY => 16
  | .xLINK_DOWN => 1
  | .xX_HOLD => 0
  | .xLINK_AT => 64

/-- The value of a field of the MID block at reset. -/
def Mid.reset (f : Mid) (_ _ : Nat) : Nat :=
  match f with
  | .TYPE_TYPE => 3656
  | .TTH_LOCAL_MINOR_MAX => 2
  | .TTH_LOCAL_MAJOR => 1
  | _ => 0

/-- The fields of the HPT block. -/
inductive Hpt where
  /-- `HPT_CPL_TO.TO` -/
  | CPL_TO_TO
  /-- `HPT_PORT_STATUS.SPEED` -/
  | PORT_STATUS_SPEED
  /-- `HPT_PORT_STATUS.WIDTH` -/
  | PORT_STATUS_WIDTH
  /-- `HPT_PORT_STATUS.HIR_OK` -/
  | PORT_STATUS_HIR_OK
  /-- `HPT_PORT_STATUS.HIR_REFUSED` -/
  | PORT_STATUS_HIR_REFUSED
  /-- `HPT_PORT_STATUS.PORT_RESET` -/
  | PORT_STATUS_PORT_RESET
  /-- `HPT_PORT_STATUS.MINOR` -/
  | PORT_STATUS_MINOR
  /-- `HPT_PORT_STATUS.MAJOR` -/
  | PORT_STATUS_MAJOR
  /-- `HPT_ERR.BAD_ACCESS` -/
  | ERR_BAD_ACCESS
  /-- `HPT_ERR.UNNEG_WRITE` -/
  | ERR_UNNEG_WRITE
  /-- `HPT_STR_LEASE.MS` -/
  | STR_LEASE_MS
  /-- `HPT_STR_STATUS.OWNER` -/
  | STR_STATUS_OWNER
  /-- `HPT_STR_STATUS.HELD` -/
  | STR_STATUS_HELD
  /-- `HPT_STR_STATUS.REL_ERR` -/
  | STR_STATUS_REL_ERR
  /-- `HPT_STR_STATUS.GEN` -/
  | STR_STATUS_GEN
  /-- `HPT_MSIX.WORD` -/
  | MSIX_WORD
  /-- `HPT_PBA.WORD` -/
  | PBA_WORD
  /-- The latch of party `i` for the 64-bit pair whose lo register lies at `j` (R403) -/
  | xLATCH
  /-- MSI-X Enable of port `i` in its configuration space, 0 after reset as PCI Express specifies (R399, R511) -/
  | xMSIX_EN
  /-- The local-oscillator edge at which the lease of Stirrup `i` expires; 0 with no lease (R66, R408) -/
  | xLEASE_DUE
  /-- The round-robin pointer of Stirrup `i` (R409) -/
  | xRR
  /-- Subsystem vendor ID (i = 0) and subsystem ID (i = 1) of both ports (R423) -/
  | xSUBSYS
  deriving DecidableEq, Repr

/-- The width of a field of the HPT block. -/
def Hpt.width (f : Hpt) : Nat :=
  match f with
  | .CPL_TO_TO => 16
  | .PORT_STATUS_SPEED => 4
  | .PORT_STATUS_WIDTH => 4
  | .PORT_STATUS_HIR_OK => 1
  | .PORT_STATUS_HIR_REFUSED => 1
  | .PORT_STATUS_PORT_RESET => 1
  | .PORT_STATUS_MINOR => 8
  | .PORT_STATUS_MAJOR => 8
  | .ERR_BAD_ACCESS => 16
  | .ERR_UNNEG_WRITE => 16
  | .STR_LEASE_MS => 14
  | .STR_STATUS_OWNER => 3
  | .STR_STATUS_HELD => 1
  | .STR_STATUS_REL_ERR => 1
  | .STR_STATUS_GEN => 8
  | .MSIX_WORD => 32
  | .PBA_WORD => 32
  | .xLATCH => 64
  | .xMSIX_EN => 1
  | .xLEASE_DUE => 64
  | .xRR => 2
  | .xSUBSYS => 16

/-- The value of a field of the HPT block at reset. -/
def Hpt.reset (f : Hpt) (_ j : Nat) : Nat :=
  match f with
  | .CPL_TO_TO => 10000
  | .STR_LEASE_MS => 1000
  | .STR_STATUS_OWNER => 7
  | .MSIX_WORD => (if j = 3 then 1 else 0)
  | _ => 0

/-- The fields of the EVC block. -/
inductive Evc where
  /-- `EVC_STATUS.READY` -/
  | STATUS_READY
  /-- `EVC_CLAIM_TO.TO` -/
  | CLAIM_TO_TO
  /-- `EVC_TGT_CTRL.EN` -/
  | TGT_CTRL_EN
  /-- `EVC_TGT_CTRL.STREAM_EN` -/
  | TGT_CTRL_STREAM_EN
  /-- `EVC_TGT_CTRL.BINPOINT` -/
  | TGT_CTRL_BINPOINT
  /-- `EVC_TGT_STATUS.RUN_LEVEL` -/
  | TGT_STATUS_RUN_LEVEL
  /-- `EVC_TGT_STATUS.SIGNAL` -/
  | TGT_STATUS_SIGNAL
  /-- `EVC_TGT_STATUS.COMP_ERR` -/
  | TGT_STATUS_COMP_ERR
  /-- `EVC_TGT_STATUS.CFG_BUSY` -/
  | TGT_STATUS_CFG_BUSY
  /-- `EVC_TGT_STATUS.ACTIVE_CNT` -/
  | TGT_STATUS_ACTIVE_CNT
  /-- `EVC_FIFO_CFG.THR` -/
  | FIFO_CFG_THR
  /-- `EVC_FIFO_STAT.LEVEL` -/
  | FIFO_STAT_LEVEL
  /-- `EVC_FIFO_STAT.FULL` -/
  | FIFO_STAT_FULL
  /-- `EVC_FIFO_STAT.LOST_PEND` -/
  | FIFO_STAT_LOST_PEND
  /-- `EVC_FIFO_STAT.THR_HIT` -/
  | FIFO_STAT_THR_HIT
  /-- `EVC_CNT_LO` and `_HI`, one 64-bit value -/
  | CNT
  /-- `EVC_SRC_CFG.EN` -/
  | SRC_CFG_EN
  /-- `EVC_SRC_CFG.FIFO_EN` -/
  | SRC_CFG_FIFO_EN
  /-- `EVC_SRC_CFG.TARGET` -/
  | SRC_CFG_TARGET
  /-- `EVC_SRC_CFG.PRIO` -/
  | SRC_CFG_PRIO
  /-- `EVC_SRC_CFG.PENDING` -/
  | SRC_CFG_PENDING
  /-- `EVC_SRC_CFG.ACTIVE` -/
  | SRC_CFG_ACTIVE
  /-- `EVC_SRC_CFG.ASSERTED` -/
  | SRC_CFG_ASSERTED
  /-- `EVC_SRC_CFG.CFG_BUSY` -/
  | SRC_CFG_CFG_BUSY
  /-- `EVC_FLOW_MAP.HANDLE` -/
  | FLOW_MAP_HANDLE
  /-- `EVC_FLOW_MAP.DIE` -/
  | FLOW_MAP_DIE
  /-- `EVC_FLOW_MAP.KINDS` -/
  | FLOW_MAP_KINDS
  /-- `EVC_FLOW_MAP.VALID` -/
  | FLOW_MAP_VALID
  /-- The claim count of target `i`, modulo 16 (R364) -/
  | xCLAIM_CNT
  deriving DecidableEq, Repr

/-- The width of a field of the EVC block. -/
def Evc.width (f : Evc) : Nat :=
  match f with
  | .STATUS_READY => 1
  | .CLAIM_TO_TO => 16
  | .TGT_CTRL_EN => 1
  | .TGT_CTRL_STREAM_EN => 1
  | .TGT_CTRL_BINPOINT => 3
  | .TGT_STATUS_RUN_LEVEL => 9
  | .TGT_STATUS_SIGNAL => 1
  | .TGT_STATUS_COMP_ERR => 1
  | .TGT_STATUS_CFG_BUSY => 1
  | .TGT_STATUS_ACTIVE_CNT => 9
  | .FIFO_CFG_THR => 10
  | .FIFO_STAT_LEVEL => 10
  | .FIFO_STAT_FULL => 1
  | .FIFO_STAT_LOST_PEND => 1
  | .FIFO_STAT_THR_HIT => 1
  | .CNT => 64
  | .SRC_CFG_EN => 1
  | .SRC_CFG_FIFO_EN => 1
  | .SRC_CFG_TARGET => 2
  | .SRC_CFG_PRIO => 8
  | .SRC_CFG_PENDING => 1
  | .SRC_CFG_ACTIVE => 1
  | .SRC_CFG_ASSERTED => 1
  | .SRC_CFG_CFG_BUSY => 1
  | .FLOW_MAP_HANDLE => 12
  | .FLOW_MAP_DIE => 1
  | .FLOW_MAP_KINDS => 8
  | .FLOW_MAP_VALID => 1
  | .xCLAIM_CNT => 4

/-- The value of a field of the EVC block at reset. -/
def Evc.reset (f : Evc) (_ _ : Nat) : Nat :=
  match f with
  | .CLAIM_TO_TO => 500
  | .TGT_CTRL_STREAM_EN => 1
  | .TGT_CTRL_BINPOINT => 4
  | .TGT_STATUS_RUN_LEVEL => 511
  | .SRC_CFG_PRIO => 128
  | _ => 0

/-- The fields of the FLT block. -/
inductive Flt where
  /-- `FLT_STATUS.SAFE` -/
  | STATUS_SAFE
  /-- `FLT_STATUS.UNLOCKED` -/
  | STATUS_UNLOCKED
  /-- `FLT_STATUS.DIE_DOWN` -/
  | STATUS_DIE_DOWN
  /-- `FLT_STATUS.DIE_HELD` -/
  | STATUS_DIE_HELD
  /-- `FLT_STATUS.LAND_P` -/
  | STATUS_LAND_P
  /-- `FLT_STATUS.LAND_N` -/
  | STATUS_LAND_N
  /-- `FLT_STATUS.GRAVE_CODE` -/
  | STATUS_GRAVE_CODE
  /-- `FLT_CFG.UNLOCK_ACT` -/
  | CFG_UNLOCK_ACT
  /-- `FLT_CFG.SAFE_LINK_DOWN` -/
  | CFG_SAFE_LINK_DOWN
  /-- `FLT_CFG.FAILOVER` -/
  | CFG_FAILOVER
  /-- `FLT_CFG.HOLD_COUNT` -/
  | CFG_HOLD_COUNT
  /-- `FLT_CFG.HOLD_WIN` -/
  | CFG_HOLD_WIN
  /-- `FLT_DIE_CTRL.RESTART0` -/
  | DIE_CTRL_RESTART0
  /-- `FLT_DIE_CTRL.RESTART1` -/
  | DIE_CTRL_RESTART1
  /-- `FLT_RING.HEAD` -/
  | RING_HEAD
  /-- `FLT_RING.TOTAL` -/
  | RING_TOTAL
  /-- `FLT_INJECT.CODE` -/
  | INJECT_CODE
  /-- `FLT_INJECT.WIRE` -/
  | INJECT_WIRE
  /-- `FLT_INJECT.DIE` -/
  | INJECT_DIE
  /-- `FLT_INJECT.GO` -/
  | INJECT_GO
  /-- `FLT_CNT_LO` and `_HI`, one 64-bit value -/
  | CNT
  /-- `FLT_FIRST.WORD` -/
  | FIRST_WORD
  /-- `FLT_REC.WORD` -/
  | REC_WORD
  /-- The collector self-test has passed: the FAULT lands are driven to RUN outside the safe state (R467) -/
  | xRUN
  deriving DecidableEq, Repr

/-- The width of a field of the FLT block. -/
def Flt.width (f : Flt) : Nat :=
  match f with
  | .STATUS_SAFE => 1
  | .STATUS_UNLOCKED => 1
  | .STATUS_DIE_DOWN => 2
  | .STATUS_DIE_HELD => 2
  | .STATUS_LAND_P => 1
  | .STATUS_LAND_N => 1
  | .STATUS_GRAVE_CODE => 8
  | .CFG_UNLOCK_ACT => 1
  | .CFG_SAFE_LINK_DOWN => 1
  | .CFG_FAILOVER => 1
  | .CFG_HOLD_COUNT => 4
  | .CFG_HOLD_WIN => 8
  | .DIE_CTRL_RESTART0 => 1
  | .DIE_CTRL_RESTART1 => 1
  | .RING_HEAD => 8
  | .RING_TOTAL => 16
  | .INJECT_CODE => 8
  | .INJECT_WIRE => 1
  | .INJECT_DIE => 1
  | .INJECT_GO => 1
  | .CNT => 64
  | .FIRST_WORD => 32
  | .REC_WORD => 32
  | .xRUN => 1

/-- The value of a field of the FLT block at reset. -/
def Flt.reset (f : Flt) (_ _ : Nat) : Nat :=
  match f with
  | .STATUS_LAND_N => 1
  | .CFG_HOLD_COUNT => 3
  | .CFG_HOLD_WIN => 60
  | _ => 0

/-- The fields of the TRS block. -/
inductive Trs where
  /-- `TRS_CTRL.HOLD_SRC` -/
  | CTRL_HOLD_SRC
  /-- `TRS_CTRL.FREE_START` -/
  | CTRL_FREE_START
  /-- `TRS_CTRL.REALIGN` -/
  | CTRL_REALIGN
  /-- `TRS_CTRL.SLEW_MAX` -/
  | CTRL_SLEW_MAX
  /-- `TRS_CTRL.HOLD_TO` -/
  | CTRL_HOLD_TO
  /-- `TRS_CTRL.FIRSTLOCK_TO` -/
  | CTRL_FIRSTLOCK_TO
  /-- `TRS_STATUS.STATE` -/
  | STATUS_STATE
  /-- `TRS_STATUS.ACTIVE_PORT` -/
  | STATUS_ACTIVE_PORT
  /-- `TRS_STATUS.REF10_OK` -/
  | STATUS_REF10_OK
  /-- `TRS_STATUS.PPS_OK` -/
  | STATUS_PPS_OK
  /-- `TRS_STATUS.OFFSET_LARGE` -/
  | STATUS_OFFSET_LARGE
  /-- `TRS_STATUS.REALIGN_BUSY` -/
  | STATUS_REALIGN_BUSY
  /-- `TRS_STATUS.FIRSTLOCK_EXPIRED` -/
  | STATUS_FIRSTLOCK_EXPIRED
  /-- `TRS_STATUS.BUSIEST_DOM` -/
  | STATUS_BUSIEST_DOM
  /-- `TRS_STATUS.SLOWEST_DOM` -/
  | STATUS_SLOWEST_DOM
  /-- `TRS_STATUS.HOLD_ELAPSED` -/
  | STATUS_HOLD_ELAPSED
  /-- `TRS_OFFSET.OFFSET` -/
  | OFFSET_OFFSET
  /-- `TRS_PTP_CFG.DOMAIN` -/
  | PTP_CFG_DOMAIN
  /-- `TRS_PTP_CFG.DELAY_MECH` -/
  | PTP_CFG_DELAY_MECH
  /-- `TRS_PTP_CFG.SYNC_LOG` -/
  | PTP_CFG_SYNC_LOG
  /-- `TRS_PTP_CFG.ANN_LOG` -/
  | PTP_CFG_ANN_LOG
  /-- `TRS_PTP_CFG.ANN_RCPT` -/
  | PTP_CFG_ANN_RCPT
  /-- `TRS_PTP_CFG.SYNC_RCPT` -/
  | PTP_CFG_SYNC_RCPT
  /-- `TRS_PTP_CFG.IPV6` -/
  | PTP_CFG_IPV6
  /-- `TRS_NOW_LO` and `_HI`, one 64-bit value -/
  | NOW
  /-- `TRS_PPS_TS_LO` and `_HI`, one 64-bit value -/
  | PPS_TS
  /-- `TRS_PORT_CFG.PTP_EN` -/
  | PORT_CFG_PTP_EN
  /-- `TRS_PORT_CFG.SUBPORT` -/
  | PORT_CFG_SUBPORT
  /-- `TRS_PORT_CFG.ASYM` -/
  | PORT_CFG_ASYM
  /-- `TRS_DOM_FMT.TOTAL_LINES` -/
  | DOM_FMT_TOTAL_LINES
  /-- `TRS_DOM_FMT.ACTIVE_LINES` -/
  | DOM_FMT_ACTIVE_LINES
  /-- `TRS_DOM_FMT.CFG_ERR` -/
  | DOM_FMT_CFG_ERR
  /-- `TRS_DOM_FMT.INUSE` -/
  | DOM_FMT_INUSE
  /-- `TRS_DOM_FMT.ENABLE` -/
  | DOM_FMT_ENABLE
  /-- `TRS_DOM_RATE.NUM` -/
  | DOM_RATE_NUM
  /-- `TRS_DOM_RATE.NTSC` -/
  | DOM_RATE_NTSC
  /-- `TRS_DOM_RATE.FIRST_ACTIVE` -/
  | DOM_RATE_FIRST_ACTIVE
  /-- `TRS_DOM_POS_LO` and `_HI`, one 64-bit value -/
  | DOM_POS
  /-- `TRS_HO_TGT_LO.TICK` -/
  | HO_TGT_LO_TICK
  /-- `TRS_HO_TGT_LO.LINE` -/
  | HO_TGT_LO_LINE
  /-- `TRS_HO_TGT_HI.PICTURE` -/
  | HO_TGT_HI_PICTURE
  /-- `TRS_HO_CTRL.DOMAIN` -/
  | HO_CTRL_DOMAIN
  /-- `TRS_HO_CTRL.ARM` -/
  | HO_CTRL_ARM
  /-- `TRS_HO_CTRL.DISARM` -/
  | HO_CTRL_DISARM
  /-- `TRS_HO_CTRL.FIRED` -/
  | HO_CTRL_FIRED
  /-- `TRS_HO_CTRL.LATE` -/
  | HO_CTRL_LATE
  /-- `TRS_HO_CTRL.FIRE_COUNT` -/
  | HO_CTRL_FIRE_COUNT
  /-- Port `i` has a qualified master (R44, R47) -/
  | xMASTER
  /-- Port `i` has received an Announce message that still holds -/
  | xANN_OK
  /-- The local-oscillator edge at which the Sync receipt of port `i` times out (R47, R66) -/
  | xSYNC_DUE
  /-- The local-oscillator edge at which its Announce receipt times out -/
  | xANN_DUE
  /-- The target of armed handover slot `i`, in raster ticks of its domain since the epoch (R63) -/
  | xHO_AT
  /-- Member `j` of the dataset of the master of port `i`, plus 1; 0 past its end (R44) -/
  | xDATASET
  /-- Consecutive Sync messages with the offset at or below 100 ns (R47) -/
  | xGOOD
  /-- Consecutive Sync messages with the offset above 1 us (R47) -/
  | xBAD
  /-- In HOLDOVER, the local-oscillator edge of entry less the edges spent there before; otherwise those edges (R68) -/
  | xHOLD_AT
  /-- The edge at which HOLD_TO expires (R66) -/
  | xHOLD_DUE
  /-- The local-oscillator edge from which the first-lock timeout runs (R52) -/
  | xFIRST_AT
  /-- The path delay of port `i` in ns, two's complement (R42) -/
  | xDELAY
  /-- logMinDelayReqInterval of the master of port `i`, two's complement -/
  | xMIN_LOG
  /-- One more than the local-oscillator edge of the last delay request of port `i`; 0 before the first -/
  | xREQ_AT
  /-- A delay request of port `i` waits for its interface (R276) -/
  | xDREQ
  /-- Port `i` has a two-step Sync that waits for its Follow_Up -/
  | xSYNC_PEND
  /-- The sequence number of that Sync -/
  | xSYNC_SEQ
  /-- Twice the receive time of that Sync plus its correction, in ns (plus 1 where negative) -/
  | xSYNC_RX
  /-- One more than the local-oscillator edge of the last PPS_IN edge; 0 before the first -/
  | xPPS_AT
  /-- One more than the last whole second at which PPS_OUT rose -/
  | xPPS_SEC
  /-- The module started free under R52 -/
  | xFREE_T0
  /-- The time base gained, in 2^-16 ns, over the last interval in which the servo steered it (R47); 0 before one -/
  | xF_TB
  /-- The local-oscillator edges of that interval -/
  | xF_OSC
  /-- The time base at the entry to HOLDOVER or UNLOCKED, with what phase trims have moved it since (R50, R51) -/
  | xH_TB
  /-- The local-oscillator edge of that entry -/
  | xH_OSC
  /-- The phase error that REF10_PPS still has to trim, in 2^-16 ns, as twice its size (plus 1 where the time base is ahead) (R50) -/
  | xTRIM
  /-- The time of the active master at its last measurement, in 2^-16 ns, as twice its size (plus 1 where negative) (R49) -/
  | xM_TB
  /-- The local-oscillator edge of that measurement -/
  | xM_OSC
  /-- PPS_OUT is high (R53) -/
  | xPPS
  /-- The local-oscillator edge at which it rose -/
  | xPPS_RISE
  /-- The sequence number of the last delay request of port `i` -/
  | xREQ_SEQ
  /-- Its departure time in ns, as twice its size (plus 1 where negative) (R45) -/
  | xREQ_TX
  /-- The receive time of the last measured Sync of port `i` less its origin time and correction, in ns, as twice its size (plus 1 where negative) -/
  | xMS_DIFF
  /-- One more than the sequence number of a Pdelay_Resp of port `i` that waits for its Follow_Up; 0 without one -/
  | xPD_SEQ
  /-- What that exchange has measured so far, in ns, as twice its size (plus 1 where negative) -/
  | xPD_DIFF
  /-- The value that timeout setting `i` of die `j` held before its last write (R66) -/
  | xTO_PREV
  /-- The local-oscillator edge of that write -/
  | xTO_AT
  /-- The time base at which FREE ended, in TAI ns (R256) -/
  | xLEFT_TAI
  deriving DecidableEq, Repr

/-- The width of a field of the TRS block. -/
def Trs.width (f : Trs) : Nat :=
  match f with
  | .CTRL_HOLD_SRC => 2
  | .CTRL_FREE_START => 1
  | .CTRL_REALIGN => 1
  | .CTRL_SLEW_MAX => 8
  | .CTRL_HOLD_TO => 6
  | .CTRL_FIRSTLOCK_TO => 10
  | .STATUS_STATE => 3
  | .STATUS_ACTIVE_PORT => 2
  | .STATUS_REF10_OK => 1
  | .STATUS_PPS_OK => 1
  | .STATUS_OFFSET_LARGE => 1
  | .STATUS_REALIGN_BUSY => 1
  | .STATUS_FIRSTLOCK_EXPIRED => 1
  | .STATUS_BUSIEST_DOM => 3
  | .STATUS_SLOWEST_DOM => 3
  | .STATUS_HOLD_ELAPSED => 8
  | .OFFSET_OFFSET => 32
  | .PTP_CFG_DOMAIN => 7
  | .PTP_CFG_DELAY_MECH => 1
  | .PTP_CFG_SYNC_LOG => 4
  | .PTP_CFG_ANN_LOG => 4
  | .PTP_CFG_ANN_RCPT => 4
  | .PTP_CFG_SYNC_RCPT => 4
  | .PTP_CFG_IPV6 => 1
  | .NOW => 64
  | .PPS_TS => 64
  | .PORT_CFG_PTP_EN => 1
  | .PORT_CFG_SUBPORT => 2
  | .PORT_CFG_ASYM => 16
  | .DOM_FMT_TOTAL_LINES => 13
  | .DOM_FMT_ACTIVE_LINES => 13
  | .DOM_FMT_CFG_ERR => 1
  | .DOM_FMT_INUSE => 1
  | .DOM_FMT_ENABLE => 1
  | .DOM_RATE_NUM => 17
  | .DOM_RATE_NTSC => 1
  | .DOM_RATE_FIRST_ACTIVE => 13
  | .DOM_POS => 64
  | .HO_TGT_LO_TICK => 16
  | .HO_TGT_LO_LINE => 16
  | .HO_TGT_HI_PICTURE => 32
  | .HO_CTRL_DOMAIN => 3
  | .HO_CTRL_ARM => 1
  | .HO_CTRL_DISARM => 1
  | .HO_CTRL_FIRED => 1
  | .HO_CTRL_LATE => 1
  | .HO_CTRL_FIRE_COUNT => 16
  | .xMASTER => 1
  | .xANN_OK => 1
  | .xSYNC_DUE => 64
  | .xANN_DUE => 64
  | .xHO_AT => 0
  | .xDATASET => 0
  | .xGOOD => 5
  | .xBAD => 3
  | .xHOLD_AT => 64
  | .xHOLD_DUE => 64
  | .xFIRST_AT => 64
  | .xDELAY => 64
  | .xMIN_LOG => 8
  | .xREQ_AT => 64
  | .xDREQ => 1
  | .xSYNC_PEND => 1
  | .xSYNC_SEQ => 16
  | .xSYNC_RX => 0
  | .xPPS_AT => 64
  | .xPPS_SEC => 64
  | .xFREE_T0 => 1
  | .xF_TB => 0
  | .xF_OSC => 0
  | .xH_TB => 0
  | .xH_OSC => 64
  | .xTRIM => 0
  | .xM_TB => 0
  | .xM_OSC => 64
  | .xPPS => 1
  | .xPPS_RISE => 64
  | .xREQ_SEQ => 16
  | .xREQ_TX => 0
  | .xMS_DIFF => 0
  | .xPD_SEQ => 17
  | .xPD_DIFF => 0
  | .xTO_PREV => 32
  | .xTO_AT => 64
  | .xLEFT_TAI => 0

/-- The value of a field of the TRS block at reset. -/
def Trs.reset (f : Trs) (_ _ : Nat) : Nat :=
  match f with
  | .CTRL_SLEW_MAX => 20
  | .CTRL_HOLD_TO => 60
  | .CTRL_FIRSTLOCK_TO => 30
  | .PTP_CFG_DOMAIN => 127
  | .PTP_CFG_SYNC_LOG => 13
  | .PTP_CFG_ANN_LOG => 14
  | .PTP_CFG_ANN_RCPT => 3
  | .PTP_CFG_SYNC_RCPT => 4
  | .PORT_CFG_PTP_EN => 1
  | .DOM_FMT_TOTAL_LINES => 1125
  | .DOM_FMT_ACTIVE_LINES => 1080
  | .DOM_RATE_NUM => 60000
  | .DOM_RATE_FIRST_ACTIVE => 41
  | _ => 0

/-- The fields of the FWU block. -/
inductive Fwu where
  /-- `FWU_CTRL.OPEN` -/
  | CTRL_OPEN
  /-- `FWU_CTRL.CLOSE` -/
  | CTRL_CLOSE
  /-- `FWU_CTRL.ACTIVATE` -/
  | CTRL_ACTIVATE
  /-- `FWU_CTRL.REVERT` -/
  | CTRL_REVERT
  /-- `FWU_CTRL.KIND` -/
  | CTRL_KIND
  /-- `FWU_CTRL.SLOT` -/
  | CTRL_SLOT
  /-- `FWU_STATUS.STATE` -/
  | STATUS_STATE
  /-- `FWU_STATUS.OWNER` -/
  | STATUS_OWNER
  /-- `FWU_STATUS.REASON` -/
  | STATUS_REASON
  /-- `FWU_STATUS.REFUSED` -/
  | STATUS_REFUSED
  /-- `FWU_STATUS.REVERTED` -/
  | STATUS_REVERTED
  /-- `FWU_BLK_OFS.BLOCK` -/
  | BLK_OFS_BLOCK
  /-- `FWU_BLK_LEN.LEN` -/
  | BLK_LEN_LEN
  /-- `FWU_BLK_CRC.CRC` -/
  | BLK_CRC_CRC
  /-- `FWU_BLK_CMD.SUBMIT` -/
  | BLK_CMD_SUBMIT
  /-- `FWU_BLK_RES.BLOCK` -/
  | BLK_RES_BLOCK
  /-- `FWU_BLK_RES.STATUS` -/
  | BLK_RES_STATUS
  /-- `FWU_BLK_RES.VALID` -/
  | BLK_RES_VALID
  /-- `FWU_XFER_TO.S` -/
  | XFER_TO_S
  /-- `FWU_ACT_TO.S` -/
  | ACT_TO_S
  /-- `FWU_FARRIER_TO.S` -/
  | FARRIER_TO_S
  /-- `FWU_FLASH_TO.MS` -/
  | FLASH_TO_MS
  /-- `FWU_SLOT.STATE` -/
  | SLOT_STATE
  /-- `FWU_SLOT_VER.VERSION` -/
  | SLOT_VER_VERSION
  /-- `FWU_MAP.MAP` -/
  | MAP_MAP
  /-- `FWU_BLK_DATA.DATA` -/
  | BLK_DATA_DATA
  /-- The KIND of the open session (R438) -/
  | xKIND
  /-- The target of the open session: a bundle slot, or a records copy (R438, R443) -/
  | xTGT
  /-- The local-oscillator edge at which the session times out (R66, R438) -/
  | xXFER_DUE
  /-- Who submitted the block: 0 HA, 1 HB, 3 an Ostler, 4 + l Tether link l (R440, R454) -/
  | xSUB_BY
  /-- The local-oscillator edge at which the flash operation of that block times out (R66, R440) -/
  | xSUB_DUE
  /-- The local-oscillator edge of a switch for which no raster position is armed (R446); 0 with none -/
  | xSW_DUE
  /-- The local-oscillator edge at which the trial times out (R66, R450) -/
  | xACT_DUE
  /-- The local-oscillator edge at which a trial failed (R450) -/
  | xREV_AT
  /-- The time base at which it failed, in TAI ns -/
  | xREV_TAI
  /-- An activation has armed slot 15 and waits for its position (R446) -/
  | xARM15
  /-- The local-oscillator edge at which the download wait of recovery mode expires (R66, R453) -/
  | xFAR_DUE
  deriving DecidableEq, Repr

/-- The width of a field of the FWU block. -/
def Fwu.width (f : Fwu) : Nat :=
  match f with
  | .CTRL_OPEN => 1
  | .CTRL_CLOSE => 1
  | .CTRL_ACTIVATE => 1
  | .CTRL_REVERT => 1
  | .CTRL_KIND => 1
  | .CTRL_SLOT => 1
  | .STATUS_STATE => 3
  | .STATUS_OWNER => 2
  | .STATUS_REASON => 4
  | .STATUS_REFUSED => 1
  | .STATUS_REVERTED => 1
  | .BLK_OFS_BLOCK => 10
  | .BLK_LEN_LEN => 17
  | .BLK_CRC_CRC => 32
  | .BLK_CMD_SUBMIT => 1
  | .BLK_RES_BLOCK => 10
  | .BLK_RES_STATUS => 3
  | .BLK_RES_VALID => 1
  | .XFER_TO_S => 12
  | .ACT_TO_S => 6
  | .FARRIER_TO_S => 10
  | .FLASH_TO_MS => 10
  | .SLOT_STATE => 8
  | .SLOT_VER_VERSION => 32
  | .MAP_MAP => 32
  | .BLK_DATA_DATA => 32
  | .xKIND => 1
  | .xTGT => 1
  | .xXFER_DUE => 64
  | .xSUB_BY => 3
  | .xSUB_DUE => 64
  | .xSW_DUE => 64
  | .xACT_DUE => 64
  | .xREV_AT => 64
  | .xREV_TAI => 0
  | .xARM15 => 1
  | .xFAR_DUE => 64

/-- The value of a field of the FWU block at reset. -/
def Fwu.reset (f : Fwu) (_ _ : Nat) : Nat :=
  match f with
  | .XFER_TO_S => 300
  | .ACT_TO_S => 10
  | .FARRIER_TO_S => 60
  | .FLASH_TO_MS => 200
  | _ => 0

/-- The fields of the PWR block. -/
inductive Pwr where
  /-- `PWR_STATUS.SEASON` -/
  | STATUS_SEASON
  /-- `PWR_STATUS.WINTER_PENDING` -/
  | STATUS_WINTER_PENDING
  /-- `PWR_STATUS.VIN_LOW` -/
  | STATUS_VIN_LOW
  /-- `PWR_STATUS.WINTER_REFUSED` -/
  | STATUS_WINTER_REFUSED
  /-- `PWR_STATUS.HB_OK` -/
  | STATUS_HB_OK
  /-- `PWR_STATUS.CASE_HI` -/
  | STATUS_CASE_HI
  /-- `PWR_STATUS.CASE_LO` -/
  | STATUS_CASE_LO
  /-- `PWR_STATUS.TJ_WARN` -/
  | STATUS_TJ_WARN
  /-- `PWR_STATUS.GATED` -/
  | STATUS_GATED
  /-- `PWR_CTRL.AUTUMN_EN` -/
  | CTRL_AUTUMN_EN
  /-- `PWR_CTRL.WINTER` -/
  | CTRL_WINTER
  /-- `PWR_CTRL.SPRING` -/
  | CTRL_SPRING
  /-- `PWR_HB_TO.MS` -/
  | HB_TO_MS
  /-- `PWR_THR.TJ_WARN` -/
  | THR_TJ_WARN
  /-- `PWR_INPUT.VIN` -/
  | INPUT_VIN
  /-- `PWR_INPUT.IIN` -/
  | INPUT_IIN
  /-- `PWR_POWER.PIN` -/
  | POWER_PIN
  /-- `PWR_POWER.PEAK` -/
  | POWER_PEAK
  /-- `PWR_ENERGY_LO` and `_HI`, one 64-bit value -/
  | ENERGY
  /-- `PWR_DIPS.DIPS` -/
  | DIPS_DIPS
  /-- `PWR_GATE.CLUSTERS` -/
  | GATE_CLUSTERS
  /-- `PWR_GATE.REGIONS` -/
  | GATE_REGIONS
  /-- `PWR_TEMP.TEMP` -/
  | TEMP_TEMP
  /-- `PWR_TEMP.WARN` -/
  | TEMP_WARN
  /-- `PWR_TEMP.VALID` -/
  | TEMP_VALID
  /-- `PWR_RAIL.MV` -/
  | RAIL_MV
  /-- `PWR_RAIL.IN_WINDOW` -/
  | RAIL_IN_WINDOW
  /-- The time base at the acceptance of Winter, in TAI ns (R487) -/
  | xWIN_TAI
  /-- The module has no power or RESET_N is low (R415, R480) -/
  | xDOWN
  /-- How far an accepted Winter entry has come (R487): 0 none, 1 accepted, 2 after E, 4 drained -/
  | xWIN_STEP
  /-- The local-oscillator edge at which the state became WINTER (R488) -/
  | xWINTER_AT
  /-- The local-oscillator edge of the acceptance of Winter (R487) -/
  | xWIN_AT
  /-- SPRING was written between E and WINTER (R490) -/
  | xSPRING_PEND
  /-- The local-oscillator edge at which Spring began (R489) -/
  | xSPRING_AT
  /-- Consecutive samples of sensor `i` at or above 125 degrees (R494) -/
  | xTRIP
  /-- One more than the local-oscillator edge from which group `i` has read beyond its 4x range (R494); 0 while it does not -/
  | xMR4_AT
  /-- Farrier holds step 1 (R495) -/
  | xCASE_HOLD
  /-- One more than the edge from which cluster `i` may be gated (R484); 0 while it may not -/
  | xGATE_AT
  /-- The input is below the stop threshold or disconnected (R481) -/
  | xRAILS_OFF
  deriving DecidableEq, Repr

/-- The width of a field of the PWR block. -/
def Pwr.width (f : Pwr) : Nat :=
  match f with
  | .STATUS_SEASON => 2
  | .STATUS_WINTER_PENDING => 1
  | .STATUS_VIN_LOW => 1
  | .STATUS_WINTER_REFUSED => 1
  | .STATUS_HB_OK => 1
  | .STATUS_CASE_HI => 1
  | .STATUS_CASE_LO => 1
  | .STATUS_TJ_WARN => 1
  | .STATUS_GATED => 6
  | .CTRL_AUTUMN_EN => 1
  | .CTRL_WINTER => 1
  | .CTRL_SPRING => 1
  | .HB_TO_MS => 7
  | .THR_TJ_WARN => 7
  | .INPUT_VIN => 16
  | .INPUT_IIN => 16
  | .POWER_PIN => 16
  | .POWER_PEAK => 16
  | .ENERGY => 64
  | .DIPS_DIPS => 16
  | .GATE_CLUSTERS => 16
  | .GATE_REGIONS => 4
  | .TEMP_TEMP => 12
  | .TEMP_WARN => 1
  | .TEMP_VALID => 1
  | .RAIL_MV => 16
  | .RAIL_IN_WINDOW => 1
  | .xWIN_TAI => 0
  | .xDOWN => 1
  | .xWIN_STEP => 3
  | .xWINTER_AT => 64
  | .xWIN_AT => 64
  | .xSPRING_PEND => 1
  | .xSPRING_AT => 64
  | .xTRIP => 2
  | .xMR4_AT => 64
  | .xCASE_HOLD => 1
  | .xGATE_AT => 64
  | .xRAILS_OFF => 1

/-- The value of a field of the PWR block at reset. -/
def Pwr.reset (f : Pwr) (_ _ : Nat) : Nat :=
  match f with
  | .HB_TO_MS => 10
  | .THR_TJ_WARN => 105
  | _ => 0

/-- The fields of the TTH block. -/
inductive Tth where
  /-- `TTH_KA_TO.MS` -/
  | KA_TO_MS
  /-- `TTH_HO_TO.MS` -/
  | HO_TO_MS
  deriving DecidableEq, Repr

/-- The width of a field of the TTH block. -/
def Tth.width (f : Tth) : Nat :=
  match f with
  | .KA_TO_MS => 10
  | .HO_TO_MS => 10

/-- The value of a field of the TTH block at reset. -/
def Tth.reset (f : Tth) (_ _ : Nat) : Nat :=
  match f with
  | .KA_TO_MS => 10
  | .HO_TO_MS => 50

/-- The fields of the CCH block. -/
inductive Cch where
  /-- `CCH_CTRL.START` -/
  | CTRL_START
  /-- `CCH_CTRL.STOP` -/
  | CTRL_STOP
  /-- `CCH_CTRL.MOVE_DIE` -/
  | CTRL_MOVE_DIE
  /-- `CCH_CTRL.HANDOVER` -/
  | CTRL_HANDOVER
  /-- `CCH_CTRL.HO_MODULE` -/
  | CTRL_HO_MODULE
  /-- `CCH_CTRL.HO_SLOT` -/
  | CTRL_HO_SLOT
  /-- `CCH_CTRL.HOME_DIE` -/
  | CTRL_HOME_DIE
  /-- `CCH_CTRL.ALT_DIE` -/
  | CTRL_ALT_DIE
  /-- `CCH_CTRL.PRIORITY` -/
  | CTRL_PRIORITY
  /-- `CCH_FMT.WORK` -/
  | FMT_WORK
  /-- `CCH_FMT.DOMAIN` -/
  | FMT_DOMAIN
  /-- `CCH_FMT.CHROMA` -/
  | FMT_CHROMA
  /-- `CCH_FMT.DEPTH` -/
  | FMT_DEPTH
  /-- `CCH_FMT.WIDTH` -/
  | FMT_WIDTH
  /-- `CCH_TIME.OFS` -/
  | TIME_OFS
  /-- `CCH_TIME.REL_WIN` -/
  | TIME_REL_WIN
  /-- `CCH_TIME.TILE_GRP` -/
  | TIME_TILE_GRP
  /-- `CCH_TIME.TILE_IDX` -/
  | TIME_TILE_IDX
  /-- `CCH_TIME.TILE_CNT_M1` -/
  | TIME_TILE_CNT_M1
  /-- `CCH_FLOW.IN_FLOW` -/
  | FLOW_IN_FLOW
  /-- `CCH_FLOW.OUT_FLOW` -/
  | FLOW_OUT_FLOW
  /-- `CCH_RTP.ELC_PT` -/
  | RTP_ELC_PT
  /-- `CCH_RTP.HEVC_PT` -/
  | RTP_HEVC_PT
  /-- `CCH_RTP.PAYLOAD_MAX` -/
  | RTP_PAYLOAD_MAX
  /-- `CCH_RTP.HDR_REPEAT` -/
  | RTP_HDR_REPEAT
  /-- `CCH_RTP.FB_EN` -/
  | RTP_FB_EN
  /-- `CCH_SSRC.SSRC` -/
  | SSRC_SSRC
  /-- `CCH_FB.FB_PORT` -/
  | FB_FB_PORT
  /-- `CCH_FB.FB_HOLD` -/
  | FB_FB_HOLD
  /-- `CCH_FB.FULL_HOLD` -/
  | FB_FULL_HOLD
  /-- `CCH_HEVC.HEVC_PROFILE` -/
  | HEVC_HEVC_PROFILE
  /-- `CCH_HEVC.HEVC_TIER` -/
  | HEVC_HEVC_TIER
  /-- `CCH_HEVC.PS_REPEAT` -/
  | HEVC_PS_REPEAT
  /-- `CCH_HEVC.HASH_SEI` -/
  | HEVC_HASH_SEI
  /-- `CCH_HEVC.HEVC_LEVEL` -/
  | HEVC_HEVC_LEVEL
  /-- `CCH_HEVC.IDR_PERIOD` -/
  | HEVC_IDR_PERIOD
  /-- `CCH_DON.MAX_DON_DIFF` -/
  | DON_MAX_DON_DIFF
  /-- `CCH_STATUS.STATE` -/
  | STATUS_STATE
  /-- `CCH_STATUS.HOMED` -/
  | STATUS_HOMED
  /-- `CCH_STATUS.CFG_REFUSED` -/
  | STATUS_CFG_REFUSED
  /-- `CCH_STATUS.TILE_MISMATCH` -/
  | STATUS_TILE_MISMATCH
  /-- `CCH_STATUS.REASON` -/
  | STATUS_REASON
  /-- `CCH_STATUS.STRIPES_M1` -/
  | STATUS_STRIPES_M1
  /-- `CCH_STATUS.COST` -/
  | STATUS_COST
  /-- `CCH_OUT.OUT_PT` -/
  | OUT_OUT_PT
  /-- `CCH_OUT_SSRC.OUT_SSRC` -/
  | OUT_SSRC_OUT_SSRC
  /-- `CCH_UNIT.UNIT` -/
  | UNIT_UNIT
  /-- `CCH_UNIT.OFS` -/
  | UNIT_OFS
  /-- `CCH_CNT_LO` and `_HI`, one 64-bit value -/
  | CNT
  /-- One more than the picture whose settings bank `k` of channel `i` holds (R193) -/
  | xSNAP
  /-- Stripes of the layout of channel `i` (R189): bank 0 planned, 1 in force, from 2 on that of a sampled picture -/
  | xL_N
  /-- Width of its stripes but the last, in units of 8 block columns -/
  | xL_G
  /-- The unit of its stripe `j` (R192) -/
  | xL_UNIT
  /-- The slot offset of its stripe `j` in multiples of 256 ticks (R190) -/
  | xL_OFS
  /-- The die that codes it -/
  | xL_DIE
  /-- A planned layout of channel `i` waits for its next picture boundary (R193) -/
  | xP_NEW
  /-- The local-oscillator edge from which a boundary may apply that layout (R485) -/
  | xP_AT
  /-- The picture of its domain at whose boundary channel `i` may start (R207) -/
  | xWAIT
  /-- The next picture boundary of channel `i` brings a new plan (R200, R201) -/
  | xREPLAN
  /-- The local-oscillator edge at which a die move of channel `i` was armed (R204) -/
  | xMOVE_AT
  /-- Module handover of channel `i` (R205): 0 none, 1 offered, 2 armed as sender, 3 armed as receiver -/
  | xHO
  /-- Its target picture -/
  | xHO_PIC
  /-- The local-oscillator edge at which its acknowledgement times out (R66, R67) -/
  | xHO_DUE
  /-- The next extended sequence number that the receiver continues from -/
  | xHO_SEQ
  /-- The link of the handover -/
  | xHO_LINK
  /-- The domain of the channel at its handover -/
  | xHO_DOM
  /-- One more than the output flow of the channel at its handover -/
  | xHO_FLOW
  /-- One more than the state that channel `i` takes after its last picture (R207, R201); 0 while it goes on -/
  | xSTOP
  /-- The output of channel `i` is muted (R469) -/
  | xMUTE
  /-- Row `j` of the picture of parity `k` of channel `i`: 0 waits, 1 ready or past its deadline, 2 committed -/
  | xROW
  /-- Stripe `j` % 8 of row `j` / 8 of that picture: 0 not coded, 1 coded, 2 passed or decoded, 3 failed, 4 withheld or concealed -/
  | xSTR
  /-- Blocks of that stripe that the shadow decoder has passed (R194) -/
  | xCHKD
  /-- That stripe is a dependent (R195) -/
  | xDEP
  /-- One more than the unit that re-executes that stripe (R196) -/
  | xRX
  /-- Re-executions of that stripe that have failed (R198) -/
  | xRXN
  /-- Source sample `j` = (plane * 4096 + line) * 4096 + column of the picture of parity `k` of channel `i` (R186) -/
  | xSRC
  /-- Block `j` of that picture holds poisoned source samples (R175) -/
  | xSRCP
  /-- One more than the last picture of channel `i` whose store point has passed (R166) -/
  | xDONE
  /-- The next picture of channel `i` is its first since a channel start (R167) -/
  | xFIRST
  /-- One more than the picture at whose boundary channel `i` last sampled (R193) -/
  | xPIC
  /-- The picture at which channel `i` last started (R147) -/
  | xSTART_PIC
  /-- The bank that channel `i` sampled at its last picture boundary (R193); 0 before the first, when its active bank stands for it -/
  | xBANK
  /-- A configuration pair has given the home die of channel `i` (R424) -/
  | xHOME_SET
  /-- Channel `i` starts again after a die restart: 1 on its die at step 6 of R470, 2 on the other die under R472 -/
  | xRESUME
  /-- The local-oscillator edge at which the die of channel `i` went down (R472) -/
  | xDOWN_AT
  /-- The TAI time in ns at which the die of channel `i` went down (R472) -/
  | xDOWN_TAI
  /-- What belongs to one run of channel `i` is renewed before its next picture is coded: it has started on the boundary after one that still runs (R193, R204) -/
  | xRENEW
  /-- 1 + the first block of that stripe at which the shadow decoder, decoding its bytes as the unit writes them, differs from the unit (R114, R194) -/
  | xSHAD
  deriving DecidableEq, Repr

/-- The width of a field of the CCH block. -/
def Cch.width (f : Cch) : Nat :=
  match f with
  | .CTRL_START => 1
  | .CTRL_STOP => 1
  | .CTRL_MOVE_DIE => 1
  | .CTRL_HANDOVER => 1
  | .CTRL_HO_MODULE => 2
  | .CTRL_HO_SLOT => 4
  | .CTRL_HOME_DIE => 1
  | .CTRL_ALT_DIE => 1
  | .CTRL_PRIORITY => 4
  | .FMT_WORK => 2
  | .FMT_DOMAIN => 3
  | .FMT_CHROMA => 2
  | .FMT_DEPTH => 2
  | .FMT_WIDTH => 12
  | .TIME_OFS => 11
  | .TIME_REL_WIN => 4
  | .TIME_TILE_GRP => 6
  | .TIME_TILE_IDX => 2
  | .TIME_TILE_CNT_M1 => 2
  | .FLOW_IN_FLOW => 12
  | .FLOW_OUT_FLOW => 12
  | .RTP_ELC_PT => 7
  | .RTP_HEVC_PT => 7
  | .RTP_PAYLOAD_MAX => 14
  | .RTP_HDR_REPEAT => 1
  | .RTP_FB_EN => 1
  | .SSRC_SSRC => 32
  | .FB_FB_PORT => 16
  | .FB_FB_HOLD => 6
  | .FB_FULL_HOLD => 8
  | .HEVC_HEVC_PROFILE => 2
  | .HEVC_HEVC_TIER => 1
  | .HEVC_PS_REPEAT => 1
  | .HEVC_HASH_SEI => 1
  | .HEVC_HEVC_LEVEL => 8
  | .HEVC_IDR_PERIOD => 11
  | .DON_MAX_DON_DIFF => 15
  | .STATUS_STATE => 3
  | .STATUS_HOMED => 1
  | .STATUS_CFG_REFUSED => 1
  | .STATUS_TILE_MISMATCH => 1
  | .STATUS_REASON => 4
  | .STATUS_STRIPES_M1 => 3
  | .STATUS_COST => 16
  | .OUT_OUT_PT => 7
  | .OUT_SSRC_OUT_SSRC => 32
  | .UNIT_UNIT => 8
  | .UNIT_OFS => 16
  | .CNT => 64
  | .xSNAP => 0
  | .xL_N => 4
  | .xL_G => 9
  | .xL_UNIT => 8
  | .xL_OFS => 16
  | .xL_DIE => 1
  | .xP_NEW => 1
  | .xP_AT => 64
  | .xWAIT => 0
  | .xREPLAN => 1
  | .xMOVE_AT => 64
  | .xHO => 2
  | .xHO_PIC => 0
  | .xHO_DUE => 64
  | .xHO_SEQ => 32
  | .xHO_LINK => 2
  | .xHO_DOM => 3
  | .xHO_FLOW => 13
  | .xSTOP => 4
  | .xMUTE => 1
  | .xROW => 3
  | .xSTR => 3
  | .xCHKD => 20
  | .xDEP => 1
  | .xRX => 8
  | .xRXN => 4
  | .xSRC => 16
  | .xSRCP => 1
  | .xDONE => 0
  | .xFIRST => 1
  | .xPIC => 0
  | .xSTART_PIC => 0
  | .xBANK => 6
  | .xHOME_SET => 1
  | .xRESUME => 2
  | .xDOWN_AT => 64
  | .xDOWN_TAI => 64
  | .xRENEW => 1
  | .xSHAD => 20

/-- The value of a field of the CCH block at reset. -/
def Cch.reset (f : Cch) (_ _ : Nat) : Nat :=
  match f with
  | .CTRL_PRIORITY => 8
  | .FMT_WIDTH => 3840
  | .TIME_OFS => 42
  | .TIME_REL_WIN => 8
  | .RTP_ELC_PT => 96
  | .RTP_HEVC_PT => 98
  | .RTP_PAYLOAD_MAX => 1432
  | .RTP_HDR_REPEAT => 1
  | .RTP_FB_EN => 1
  | .FB_FB_HOLD => 4
  | .FB_FULL_HOLD => 8
  | .HEVC_HEVC_PROFILE => 2
  | .HEVC_HEVC_TIER => 1
  | .HEVC_PS_REPEAT => 1
  | .HEVC_HASH_SEI => 1
  | .HEVC_HEVC_LEVEL => 153
  | .HEVC_IDR_PERIOD => 60
  | .OUT_OUT_PT => 96
  | .UNIT_UNIT => 255
  | .xL_UNIT => 255
  | _ => 0

/-- The fields of the CUS block. -/
inductive Cus where
  /-- `CUS_STALL_TO.UNIT` -/
  | STALL_TO_UNIT
  /-- `CUS_STALL_TO.CLUSTER` -/
  | STALL_TO_CLUSTER
  /-- `CUS_CFG.RETIRE_WIN` -/
  | CFG_RETIRE_WIN
  /-- `CUS_CFG.PERSIST` -/
  | CFG_PERSIST
  /-- `CUS_CAP.BOOKABLE` -/
  | CAP_BOOKABLE
  /-- `CUS_CAP.IN_SERVICE` -/
  | CAP_IN_SERVICE
  /-- `CUS_CAP.SPARES` -/
  | CAP_SPARES
  /-- `CUS_BOOKED.BOOKED` -/
  | BOOKED_BOOKED
  /-- `CUS_UNIT.STATE` -/
  | UNIT_STATE
  /-- `CUS_UNIT.PERSISTED` -/
  | UNIT_PERSISTED
  /-- `CUS_UNIT.FAILS` -/
  | UNIT_FAILS
  /-- `CUS_UNIT.LOAD` -/
  | UNIT_LOAD
  /-- `CUS_UNIT.DOMAIN` -/
  | UNIT_DOMAIN
  /-- `CUS_UNIT.HEVC` -/
  | UNIT_HEVC
  /-- `CUS_UNIT.REEXEC` -/
  | UNIT_REEXEC
  /-- `CUS_UNIT.RETIRE` -/
  | UNIT_RETIRE
  /-- `CUS_CLUSTER.SHADOW_OK` -/
  | CLUSTER_SHADOW_OK
  /-- `CUS_CLUSTER.CABAC_OK` -/
  | CLUSTER_CABAC_OK
  /-- `CUS_CLUSTER.LINEBUF_OK` -/
  | CLUSTER_LINEBUF_OK
  /-- `CUS_CLUSTER.SPARE_IDLE` -/
  | CLUSTER_SPARE_IDLE
  /-- `CUS_CLUSTER.SPARE` -/
  | CLUSTER_SPARE
  /-- `CUS_CLUSTER.CABAC_LOAD` -/
  | CLUSTER_CABAC_LOAD
  /-- `CUS_CNT_LO` and `_HI`, one 64-bit value -/
  | CNT
  /-- One more than the picture of its domain at which unit `i` last failed (R199) -/
  | xFAIL_AT
  /-- Unit `i` is retired and its slots wait for the spare (R200) -/
  | xSLOTS
  /-- The domain whose pictures count since unit `i` last failed (R199) -/
  | xFAIL_DOM
  deriving DecidableEq, Repr

/-- The width of a field of the CUS block. -/
def Cus.width (f : Cus) : Nat :=
  match f with
  | .STALL_TO_UNIT => 14
  | .STALL_TO_CLUSTER => 14
  | .CFG_RETIRE_WIN => 16
  | .CFG_PERSIST => 1
  | .CAP_BOOKABLE => 17
  | .CAP_IN_SERVICE => 7
  | .CAP_SPARES => 5
  | .BOOKED_BOOKED => 17
  | .UNIT_STATE => 3
  | .UNIT_PERSISTED => 1
  | .UNIT_FAILS => 4
  | .UNIT_LOAD => 8
  | .UNIT_DOMAIN => 3
  | .UNIT_HEVC => 1
  | .UNIT_REEXEC => 1
  | .UNIT_RETIRE => 1
  | .CLUSTER_SHADOW_OK => 1
  | .CLUSTER_CABAC_OK => 1
  | .CLUSTER_LINEBUF_OK => 1
  | .CLUSTER_SPARE_IDLE => 1
  | .CLUSTER_SPARE => 3
  | .CLUSTER_CABAC_LOAD => 10
  | .CNT => 64
  | .xFAIL_AT => 0
  | .xSLOTS => 1
  | .xFAIL_DOM => 4

/-- The value of a field of the CUS block at reset. -/
def Cus.reset (f : Cus) (i _ : Nat) : Nat :=
  match f with
  | .STALL_TO_UNIT => 2000
  | .STALL_TO_CLUSTER => 4000
  | .CFG_RETIRE_WIN => 600
  | .CFG_PERSIST => 1
  | .UNIT_STATE => (if i % 5 = 4 then 0 else 1)
  | .CLUSTER_SPARE => 4
  | _ => 0

/-- The fields of the QRC block. -/
inductive Qrc where
  /-- `QRC_CFG.QI` -/
  | CFG_QI
  /-- `QRC_CFG.QP_MIN` -/
  | CFG_QP_MIN
  /-- `QRC_CFG.QP_MAX` -/
  | CFG_QP_MAX
  /-- `QRC_CFG.CAP_ROWS_M1` -/
  | CFG_CAP_ROWS_M1
  /-- `QRC_CFG.MASK_EN` -/
  | CFG_MASK_EN
  /-- `QRC_CAP.CAP_KBPS` -/
  | CAP_CAP_KBPS
  /-- `QRC_MASK.MASK_K` -/
  | MASK_MASK_K
  /-- `QRC_MASK.MASK_MIN` -/
  | MASK_MASK_MIN
  /-- `QRC_TUNE.CHROMA_W` -/
  | TUNE_CHROMA_W
  /-- `QRC_TUNE.REPAY_MAX` -/
  | TUNE_REPAY_MAX
  /-- `QRC_STATUS.QI_ACT` -/
  | STATUS_QI_ACT
  /-- `QRC_STATUS.RUNG_PEAK` -/
  | STATUS_RUNG_PEAK
  /-- `QRC_STATUS.SEEDED` -/
  | STATUS_SEEDED
  /-- `QRC_STATUS.MODEL_LATE` -/
  | STATUS_MODEL_LATE
  /-- `QRC_STATUS.DEBT_POISONED` -/
  | STATUS_DEBT_POISONED
  /-- `QRC_STATUS.BPB_AVG` -/
  | STATUS_BPB_AVG
  /-- `QRC_DEBT.DEBT_BLOCKS` -/
  | DEBT_DEBT_BLOCKS
  /-- `QRC_SEED.OFS` -/
  | SEED_OFS
  /-- `QRC_SEED.BPB` -/
  | SEED_BPB
  /-- `QRC_MODEL.OFS` -/
  | MODEL_OFS
  /-- `QRC_MODEL.BPB` -/
  | MODEL_BPB
  /-- `QRC_CNT_LO` and `_HI`, one 64-bit value -/
  | CNT
  /-- A model update of channel `i` waits for its Ostler (R148, R392) -/
  | xMODEL
  /-- Bits charged to stripe `j` of channel `i` in the cap window (R151) -/
  | xCHG
  /-- The floor F of that stripe (R154) -/
  | xFLR
  /-- A unit of that stripe has been truncated in the window (R155) -/
  | xTRN
  /-- Blocks that that stripe has repaid in the picture of parity `k` (R158) -/
  | xREPAID
  /-- The highest rung so far in a picture that channel `i` codes (R154), by the parity `k` of its number -/
  | xPEAK
  /-- Blocks of class `j` of channel `i` that count for the model (R148): `k` 0 and 1 of a picture being coded, by the parity of its number, 2 of the last one ended -/
  | xM_N
  /-- The sum of their quantisers -/
  | xM_Q
  /-- The sum of their bits -/
  | xM_B
  /-- Bits of all blocks of that picture -/
  | xT_B
  /-- All blocks of that picture -/
  | xT_N
  /-- QI of that picture -/
  | xM_QI
  /-- What the commit of block `j` of the picture of parity `k` of channel `i` does to its debt: 1 sets, 2 clears (R157, R158) -/
  | xBF
  /-- One more than the handle of the debt slab of channel `i` (R157) -/
  | xSLAB
  /-- Bits charged to CTU row `j` of the HEVC picture of parity `k` of channel `i` (R161) -/
  | xROWB
  /-- A refresh that channel `i` owes in the picture of number `j` modulo 8: 0 none, 1 rows, 2 all (R91) -/
  | xRQ
  /-- One more than that picture -/
  | xRQ_PIC
  /-- Slice row `j` is asked for in that picture, of number `k` modulo 8 -/
  | xRQ_ROW
  /-- One more than the last full refresh picture of channel `i` (R91) -/
  | xFULL
  /-- One more than the picture before which no picture may be read at slice row `j` by channel `i` (R91) -/
  | xBAN
  /-- Row `j` of the picture of parity `k` of channel `i` is coded intra for a refresh (R91) -/
  | xBAND
  deriving DecidableEq, Repr

/-- The width of a field of the QRC block. -/
def Qrc.width (f : Qrc) : Nat :=
  match f with
  | .CFG_QI => 6
  | .CFG_QP_MIN => 6
  | .CFG_QP_MAX => 6
  | .CFG_CAP_ROWS_M1 => 3
  | .CFG_MASK_EN => 1
  | .CAP_CAP_KBPS => 25
  | .MASK_MASK_K => 16
  | .MASK_MASK_MIN => 12
  | .TUNE_CHROMA_W => 13
  | .TUNE_REPAY_MAX => 16
  | .STATUS_QI_ACT => 6
  | .STATUS_RUNG_PEAK => 3
  | .STATUS_SEEDED => 1
  | .STATUS_MODEL_LATE => 1
  | .STATUS_DEBT_POISONED => 1
  | .STATUS_BPB_AVG => 16
  | .DEBT_DEBT_BLOCKS => 16
  | .SEED_OFS => 7
  | .SEED_BPB => 16
  | .MODEL_OFS => 7
  | .MODEL_BPB => 16
  | .CNT => 64
  | .xMODEL => 1
  | .xCHG => 0
  | .xFLR => 7
  | .xTRN => 1
  | .xREPAID => 0
  | .xPEAK => 3
  | .xM_N => 0
  | .xM_Q => 0
  | .xM_B => 0
  | .xT_B => 0
  | .xT_N => 0
  | .xM_QI => 6
  | .xBF => 2
  | .xSLAB => 0
  | .xROWB => 0
  | .xRQ => 2
  | .xRQ_PIC => 0
  | .xRQ_ROW => 1
  | .xFULL => 0
  | .xBAN => 0
  | .xBAND => 1

/-- The value of a field of the QRC block at reset. -/
def Qrc.reset (f : Qrc) (_ j : Nat) : Nat :=
  match f with
  | .CFG_QI => 40
  | .CFG_QP_MAX => 63
  | .CFG_CAP_ROWS_M1 => 3
  | .CFG_MASK_EN => 1
  | .CAP_CAP_KBPS => 2400000
  | .MASK_MASK_K => 2048
  | .MASK_MASK_MIN => 1024
  | .TUNE_CHROMA_W => 2048
  | .SEED_OFS => (qrcSeedOfs j)
  | .SEED_BPB => (qrcSeedBpb j)
  | _ => 0

/-- The fields of the REF block. -/
inductive Ref where
  /-- `REF_CFG.KEEP_LT` -/
  | CFG_KEEP_LT
  /-- `REF_CFG.FLAG_EXT_ID` -/
  | CFG_FLAG_EXT_ID
  /-- `REF_CFG.FLAG_ALL` -/
  | CFG_FLAG_ALL
  /-- `REF_STATUS.NO_BUFFER` -/
  | STATUS_NO_BUFFER
  /-- `REF_STATUS.FLAGGED` -/
  | STATUS_FLAGGED
  /-- `REF_STATUS.SB_BAD` -/
  | STATUS_SB_BAD
  /-- `REF_STATUS.POOL_BUFS` -/
  | STATUS_POOL_BUFS
  /-- `REF_OUT_FLAGS.LOSS` -/
  | OUT_FLAGS_LOSS
  /-- `REF_OUT_FLAGS.POISON` -/
  | OUT_FLAGS_POISON
  /-- `REF_OUT_FLAGS.SUBST` -/
  | OUT_FLAGS_SUBST
  /-- `REF_OUT_FLAGS.GREY` -/
  | OUT_FLAGS_GREY
  /-- `REF_OUT_FLAGS.TRUNC` -/
  | OUT_FLAGS_TRUNC
  /-- `REF_OUT_FLAGS.HASH` -/
  | OUT_FLAGS_HASH
  /-- `REF_OUT_FLAGS.HDR_LOST` -/
  | OUT_FLAGS_HDR_LOST
  /-- `REF_OUT_FLAGS.SRC_POISON` -/
  | OUT_FLAGS_SRC_POISON
  /-- `REF_OUT_FLAGS.INHERITED` -/
  | OUT_FLAGS_INHERITED
  /-- `REF_OUT_FLAGS.PIC_ID` -/
  | OUT_FLAGS_PIC_ID
  /-- `REF_POISON.LINES` -/
  | POISON_LINES
  /-- `REF_CTRL.DROP_LT` -/
  | CTRL_DROP_LT
  /-- `REF_SLOT.MARK` -/
  | SLOT_MARK
  /-- `REF_SLOT.COMPLETE` -/
  | SLOT_COMPLETE
  /-- `REF_SLOT.POISONED` -/
  | SLOT_POISONED
  /-- `REF_SLOT.SUBST` -/
  | SLOT_SUBST
  /-- `REF_SLOT.GREY` -/
  | SLOT_GREY
  /-- `REF_SLOT.PIC_ID` -/
  | SLOT_PIC_ID
  /-- `REF_CNT_LO` and `_HI`, one 64-bit value -/
  | CNT
  /-- Reconstructed sample `j` = (plane * 4096 + line) * 4096 + column of the picture in work of channel `i` (R97) -/
  | xSMP
  /-- The block summary of block `j` = block row * 256 + column of that picture (R169) -/
  | xSB
  /-- pic_count of the picture in slot `j` of channel `i` (R165) -/
  | xSL_PIC
  /-- One more than the handle of its buffer -/
  | xSL_BUF
  /-- Its width -/
  | xSL_W
  /-- Its height -/
  | xSL_H
  /-- Its chroma format -/
  | xSL_C
  /-- Its bit depth -/
  | xSL_D
  /-- One more than the handle of the working buffer of the picture of parity `k` of channel `i` (R166) -/
  | xWB
  /-- The picture header of the picture of parity `k` of channel `i` (R72, R87), as one big-endian number -/
  | xHDR
  /-- That header: 0 not complete, 1 complete, 2 the picture is lost (R88) -/
  | xH_OK
  /-- That picture found no working buffer (R166) -/
  | xNOBUF
  /-- The flag word of slice row `j` of the picture of parity `k` (R182) -/
  | xROWF
  /-- The OR of its flag words so far -/
  | xPICF
  /-- That picture holds a concealed block (R165) -/
  | xCONC
  /-- One more than the lowest damaged row of that picture (R92) -/
  | xDMG_A
  /-- One more than its highest damaged row -/
  | xDMG_B
  /-- The reasons of its damage: bit r is reason r of R90 -/
  | xREAS
  /-- The rows and reasons of the damage collected during the hold-off of channel `i` (R92), in the same form -/
  | xCOL_A
  /-- Its highest row -/
  | xCOL_B
  /-- Its reasons -/
  | xCOL_R
  /-- One more than the picture of channel `i` at which its hold-off ends (R92); 0 with none -/
  | xHOLD
  /-- Requests that channel `i` has sent (R90) -/
  | xREQ_SEQ
  /-- The substitute for slot `j` in the picture of parity `k` (R176): 0 none, 1 + slot, 5 mid-grey -/
  | xSUBS
  /-- The SSRC of the flow that channel `i` last took a picture header from (R90) -/
  | xMSSRC
  /-- That picture has read a substitute (bit 0) or the mid-grey picture (bit 1) -/
  | xUSED
  /-- The sequence parameter set of number `j` that channel `i` has received, as the big-endian number of its bytes after a byte 1 (R130); 0 with none -/
  | xSPS
  /-- The picture parameter set of number `j`, in the same form -/
  | xPPS
  /-- One more than the picture parameter set of the HEVC picture of parity `k` of channel `i`; 0 before its first slice segment -/
  | xPS
  /-- The POC of that picture, as 2^32 more (R130, R168) -/
  | xPOC
  /-- The POC, as 2^32 more, from which channel `i` counts the next one; 0 before the first picture -/
  | xPREV
  /-- References of that picture that were not received: bit 0 some, bits 1 to 6 the entries that it may read (R177) -/
  | xMISS
  /-- The POC of the picture in slot `j` of channel `i`, as 2^32 more -/
  | xSL_POC
  /-- Its chroma bit depth -/
  | xSL_DC
  /-- The slots of channel `i` that the picture of parity `k` finds empty: they return once the picture before it has been stored (R166, R167) -/
  | xDROP
  /-- The blocks of stripe `j` % 8 of row `j` / 8 of the picture of parity `k` of channel `i` that a word of bad parity holds (R20), by their place in coding order -/
  | xPARB
  /-- pic_count of the last damaged picture that the hold-off of channel `i` has collected (R90, R92) -/
  | xCOL_PIC
  /-- The IP version of the flow that channel `i` last took a picture header from (R89) -/
  | xFB_VER
  /-- Its source address -/
  | xFB_SRC
  /-- Its destination address -/
  | xFB_DST
  /-- Its source port -/
  | xFB_SP
  /-- Its destination port -/
  | xFB_DP
  /-- The CRC, less its last 16 bits, of the lines of plane `j` of the HEVC picture of parity `k` of channel `i` that have committed (R130), as what it differs by from 0xFFFF -/
  | xHASH
  /-- One more than the last IDR picture of HEVC encode channel `i` (R136) -/
  | xIDR
  deriving DecidableEq, Repr

/-- The width of a field of the REF block. -/
def Ref.width (f : Ref) : Nat :=
  match f with
  | .CFG_KEEP_LT => 1
  | .CFG_FLAG_EXT_ID => 4
  | .CFG_FLAG_ALL => 1
  | .STATUS_NO_BUFFER => 1
  | .STATUS_FLAGGED => 1
  | .STATUS_SB_BAD => 1
  | .STATUS_POOL_BUFS => 8
  | .OUT_FLAGS_LOSS => 1
  | .OUT_FLAGS_POISON => 1
  | .OUT_FLAGS_SUBST => 1
  | .OUT_FLAGS_GREY => 1
  | .OUT_FLAGS_TRUNC => 1
  | .OUT_FLAGS_HASH => 1
  | .OUT_FLAGS_HDR_LOST => 1
  | .OUT_FLAGS_SRC_POISON => 1
  | .OUT_FLAGS_INHERITED => 1
  | .OUT_FLAGS_PIC_ID => 16
  | .POISON_LINES => 24
  | .CTRL_DROP_LT => 1
  | .SLOT_MARK => 2
  | .SLOT_COMPLETE => 1
  | .SLOT_POISONED => 1
  | .SLOT_SUBST => 1
  | .SLOT_GREY => 1
  | .SLOT_PIC_ID => 16
  | .CNT => 64
  | .xSMP => 16
  | .xSB => 256
  | .xSL_PIC => 32
  | .xSL_BUF => 0
  | .xSL_W => 16
  | .xSL_H => 16
  | .xSL_C => 2
  | .xSL_D => 5
  | .xWB => 0
  | .xHDR => 256
  | .xH_OK => 2
  | .xNOBUF => 1
  | .xROWF => 16
  | .xPICF => 16
  | .xCONC => 1
  | .xDMG_A => 14
  | .xDMG_B => 14
  | .xREAS => 6
  | .xCOL_A => 14
  | .xCOL_B => 14
  | .xCOL_R => 6
  | .xHOLD => 0
  | .xREQ_SEQ => 8
  | .xSUBS => 3
  | .xMSSRC => 32
  | .xUSED => 2
  | .xSPS => 0
  | .xPPS => 0
  | .xPS => 7
  | .xPOC => 0
  | .xPREV => 0
  | .xMISS => 0
  | .xSL_POC => 0
  | .xSL_DC => 5
  | .xDROP => 7
  | .xPARB => 0
  | .xCOL_PIC => 32
  | .xFB_VER => 4
  | .xFB_SRC => 128
  | .xFB_DST => 128
  | .xFB_SP => 16
  | .xFB_DP => 16
  | .xHASH => 16
  | .xIDR => 0

/-- The value of a field of the REF block at reset. -/
def Ref.reset (f : Ref) (_ _ : Nat) : Nat :=
  match f with
  | _ => 0

/-- The fields of the PRS block. -/
inductive Prs where
  /-- `PRS_STALL_TO.STALL` -/
  | STALL_TO_STALL
  /-- `PRS_PARSE_CFG.DEPTH` -/
  | PARSE_CFG_DEPTH
  /-- `PRS_PARSE_CFG.RECIRC_EN` -/
  | PARSE_CFG_RECIRC_EN
  /-- `PRS_GEN_CTRL.PUBLISH` -/
  | GEN_CTRL_PUBLISH
  /-- `PRS_GEN_CTRL.HO_EN` -/
  | GEN_CTRL_HO_EN
  /-- `PRS_GEN_CTRL.HO_SLOT` -/
  | GEN_CTRL_HO_SLOT
  /-- `PRS_GEN_STATUS.GEN` -/
  | GEN_STATUS_GEN
  /-- `PRS_GEN_STATUS.INFLIGHT_OLD` -/
  | GEN_STATUS_INFLIGHT_OLD
  /-- `PRS_GEN_STATUS.RETIRED` -/
  | GEN_STATUS_RETIRED
  /-- `PRS_GEN_STATUS.PUB_PENDING` -/
  | GEN_STATUS_PUB_PENDING
  /-- `PRS_GEN_STATUS.PUB_BUSY` -/
  | GEN_STATUS_PUB_BUSY
  /-- `PRS_GEN_STATUS.ACTIVE` -/
  | GEN_STATUS_ACTIVE
  /-- `PRS_NODE_ADDR.INDEX` -/
  | NODE_ADDR_INDEX
  /-- `PRS_NODE_ADDR.READ` -/
  | NODE_ADDR_READ
  /-- `PRS_NODE_ADDR.WRITE` -/
  | NODE_ADDR_WRITE
  /-- `PRS_NODE_LO.NODE_LO` -/
  | NODE_LO_NODE_LO
  /-- `PRS_NODE_HI.NODE_HI` -/
  | NODE_HI_NODE_HI
  /-- `PRS_MERGE_WIN.WIN` -/
  | MERGE_WIN_WIN
  /-- `PRS_RTP_KIND.KIND` -/
  | RTP_KIND_KIND
  /-- `PRS_RTP_KIND.EN` -/
  | RTP_KIND_EN
  /-- `PRS_TUN_CFG.TPID_X` -/
  | TUN_CFG_TPID_X
  /-- `PRS_TUN_CFG.VXLAN_PORT` -/
  | TUN_CFG_VXLAN_PORT
  /-- `PRS_PORT_CFG.MODE` -/
  | PORT_CFG_MODE
  /-- `PRS_PORT_CFG.EN` -/
  | PORT_CFG_EN
  /-- `PRS_PORT_CFG.LINK_UP` -/
  | PORT_CFG_LINK_UP
  /-- `PRS_PORT_CFG.MTU` -/
  | PORT_CFG_MTU
  /-- `PRS_RTP_RANGE.LO` -/
  | RTP_RANGE_LO
  /-- `PRS_RTP_RANGE.HI` -/
  | RTP_RANGE_HI
  /-- `PRS_HASH_PROF.FIELDS` -/
  | HASH_PROF_FIELDS
  /-- `PRS_HASH_PROF.SYM` -/
  | HASH_PROF_SYM
  /-- `PRS_ROOT.ROOT` -/
  | ROOT_ROOT
  /-- `PRS_ROOT.VALID` -/
  | ROOT_VALID
  /-- `PRS_IFSET.FIRST_TREE` -/
  | IFSET_FIRST_TREE
  /-- `PRS_IFSET.DEFAULT` -/
  | IFSET_DEFAULT
  /-- `PRS_CNT_LO` and `_HI`, one 64-bit value -/
  | CNT
  /-- `PRS_IND.TYPE` -/
  | IND_TYPE
  /-- `PRS_IND.TARGET` -/
  | IND_TARGET
  /-- `PRS_MERGE.FLOW_A` -/
  | MERGE_FLOW_A
  /-- `PRS_MERGE.FLOW_B` -/
  | MERGE_FLOW_B
  /-- `PRS_MERGE.SEQ` -/
  | MERGE_SEQ
  /-- `PRS_MERGE.EN` -/
  | MERGE_EN
  /-- `PRS_MERGE_STAT.SKEW_MAX` -/
  | MERGE_STAT_SKEW_MAX
  /-- `PRS_MERGE_STAT.A_OK` -/
  | MERGE_STAT_A_OK
  /-- `PRS_MERGE_STAT.B_OK` -/
  | MERGE_STAT_B_OK
  /-- `PRS_MERGE_STAT.RESYNC` -/
  | MERGE_STAT_RESYNC
  /-- Node `j` of die `i` (R226) -/
  | xNODE
  /-- Node line `j` of die `i` is marked bad (R226) -/
  | xNODE_BAD
  /-- The handover slot that a waiting publication samples (R229) -/
  | xPUB_SLOT
  /-- The inactive slot is old: frames stamped with it remain (R228) -/
  | xOLD
  /-- The expected number of merge pair `j` of die `i` (R236) -/
  | xME
  /-- Merge pair `j` of die `i` has state (R236) -/
  | xMST
  /-- The local-oscillator edge at which the merge window ends that the last copy of plane `k` of that pair began (R66, R237) -/
  | xMLAST
  deriving DecidableEq, Repr

/-- The width of a field of the PRS block. -/
def Prs.width (f : Prs) : Nat :=
  match f with
  | .STALL_TO_STALL => 13
  | .PARSE_CFG_DEPTH => 9
  | .PARSE_CFG_RECIRC_EN => 1
  | .GEN_CTRL_PUBLISH => 1
  | .GEN_CTRL_HO_EN => 1
  | .GEN_CTRL_HO_SLOT => 4
  | .GEN_STATUS_GEN => 16
  | .GEN_STATUS_INFLIGHT_OLD => 12
  | .GEN_STATUS_RETIRED => 1
  | .GEN_STATUS_PUB_PENDING => 1
  | .GEN_STATUS_PUB_BUSY => 1
  | .GEN_STATUS_ACTIVE => 1
  | .NODE_ADDR_INDEX => 16
  | .NODE_ADDR_READ => 1
  | .NODE_ADDR_WRITE => 1
  | .NODE_LO_NODE_LO => 32
  | .NODE_HI_NODE_HI => 32
  | .MERGE_WIN_WIN => 16
  | .RTP_KIND_KIND => 16
  | .RTP_KIND_EN => 8
  | .TUN_CFG_TPID_X => 16
  | .TUN_CFG_VXLAN_PORT => 16
  | .PORT_CFG_MODE => 2
  | .PORT_CFG_EN => 4
  | .PORT_CFG_LINK_UP => 4
  | .PORT_CFG_MTU => 14
  | .RTP_RANGE_LO => 16
  | .RTP_RANGE_HI => 16
  | .HASH_PROF_FIELDS => 31
  | .HASH_PROF_SYM => 1
  | .ROOT_ROOT => 16
  | .ROOT_VALID => 1
  | .IFSET_FIRST_TREE => 3
  | .IFSET_DEFAULT => 16
  | .CNT => 64
  | .IND_TYPE => 2
  | .IND_TARGET => 5
  | .MERGE_FLOW_A => 12
  | .MERGE_FLOW_B => 12
  | .MERGE_SEQ => 2
  | .MERGE_EN => 1
  | .MERGE_STAT_SKEW_MAX => 16
  | .MERGE_STAT_A_OK => 1
  | .MERGE_STAT_B_OK => 1
  | .MERGE_STAT_RESYNC => 1
  | .xNODE => 64
  | .xNODE_BAD => 1
  | .xPUB_SLOT => 4
  | .xOLD => 1
  | .xME => 32
  | .xMST => 1
  | .xMLAST => 64

/-- The value of a field of the PRS block at reset. -/
def Prs.reset (f : Prs) (_ _ : Nat) : Nat :=
  match f with
  | .STALL_TO_STALL => 1000
  | .PARSE_CFG_DEPTH => 256
  | .PARSE_CFG_RECIRC_EN => 1
  | .GEN_STATUS_GEN => 1
  | .GEN_STATUS_RETIRED => 1
  | .MERGE_WIN_WIN => 10000
  | .TUN_CFG_TPID_X => 37120
  | .TUN_CFG_VXLAN_PORT => 4789
  | .PORT_CFG_MTU => 9216
  | _ => 0

/-- The fields of the FWD block. -/
inductive Fwd where
  /-- `FWD_STATUS.READY` -/
  | STATUS_READY
  /-- `FWD_STATUS.RT_LOST` -/
  | STATUS_RT_LOST
  /-- `FWD_STATUS.SWEEP_ACTIVE` -/
  | STATUS_SWEEP_ACTIVE
  /-- `FWD_STATUS.PARITY` -/
  | STATUS_PARITY
  /-- `FWD_CMD_TO.TO` -/
  | CMD_TO_TO
  /-- `FWD_AGE_PERIOD.PERIOD` -/
  | AGE_PERIOD_PERIOD
  /-- `FWD_RT_CFG.DEF_HANDLE` -/
  | RT_CFG_DEF_HANDLE
  /-- `FWD_RT_CFG.DEF_EN` -/
  | RT_CFG_DEF_EN
  /-- `FWD_BR_CFG.LEARN_EN` -/
  | BR_CFG_LEARN_EN
  /-- `FWD_BR_CFG.VID_EN` -/
  | BR_CFG_VID_EN
  /-- `FWD_BR_FLOOD.FLOOD` -/
  | BR_FLOOD_FLOOD
  /-- `FWD_OCC_RT.V4` -/
  | OCC_RT_V4
  /-- `FWD_OCC_RT.V6` -/
  | OCC_RT_V6
  /-- `FWD_OCC_BR.ENTRIES` -/
  | OCC_BR_ENTRIES
  /-- `FWD_OCC_BR.STATIC` -/
  | OCC_BR_STATIC
  /-- `FWD_RT_CMD.OP` -/
  | RT_CMD_OP
  /-- `FWD_RT_CMD.FAMILY` -/
  | RT_CMD_FAMILY
  /-- `FWD_RT_CMD.BUSY` -/
  | RT_CMD_BUSY
  /-- `FWD_RT_CMD.LOST` -/
  | RT_CMD_LOST
  /-- `FWD_RT_CMD.STATUS` -/
  | RT_CMD_STATUS
  /-- `FWD_RT_CMD.INDEX` -/
  | RT_CMD_INDEX
  /-- `FWD_RT_KEY0.KEY0` -/
  | RT_KEY0_KEY0
  /-- `FWD_RT_KEY1.KEY1` -/
  | RT_KEY1_KEY1
  /-- `FWD_RT_DATA.HANDLE` -/
  | RT_DATA_HANDLE
  /-- `FWD_RT_DATA.MATCH_LEN` -/
  | RT_DATA_MATCH_LEN
  /-- `FWD_FL_CMD.OP` -/
  | FL_CMD_OP
  /-- `FWD_FL_CMD.BUSY` -/
  | FL_CMD_BUSY
  /-- `FWD_FL_CMD.LOST` -/
  | FL_CMD_LOST
  /-- `FWD_FL_CMD.STATUS` -/
  | FL_CMD_STATUS
  /-- `FWD_FL_CMD.INDEX` -/
  | FL_CMD_INDEX
  /-- `FWD_FL_DATA_LO.ENTRY_LO` -/
  | FL_DATA_LO_ENTRY_LO
  /-- `FWD_FL_DATA_HI.ENTRY_HI` -/
  | FL_DATA_HI_ENTRY_HI
  /-- `FWD_BR_CMD.OP` -/
  | BR_CMD_OP
  /-- `FWD_BR_CMD.BUSY` -/
  | BR_CMD_BUSY
  /-- `FWD_BR_CMD.LOST` -/
  | BR_CMD_LOST
  /-- `FWD_BR_CMD.STATUS` -/
  | BR_CMD_STATUS
  /-- `FWD_BR_CMD.INDEX` -/
  | BR_CMD_INDEX
  /-- `FWD_BR_KEY_LO.MAC_LO` -/
  | BR_KEY_LO_MAC_LO
  /-- `FWD_BR_KEY_HI.MAC_HI` -/
  | BR_KEY_HI_MAC_HI
  /-- `FWD_BR_KEY_HI.VID` -/
  | BR_KEY_HI_VID
  /-- `FWD_BR_DATA.IF` -/
  | BR_DATA_IF
  /-- `FWD_BR_DATA.STATIC` -/
  | BR_DATA_STATIC
  /-- `FWD_BR_DATA.HIT` -/
  | BR_DATA_HIT
  /-- `FWD_BR_DATA.AGE` -/
  | BR_DATA_AGE
  /-- `FWD_BR_DATA.SWEEP` -/
  | BR_DATA_SWEEP
  /-- `FWD_BR_DATA.VALID` -/
  | BR_DATA_VALID
  /-- `FWD_CNT_LO` and `_HI`, one 64-bit value -/
  | CNT
  /-- Flow entry `j` of die `i` (R246) -/
  | xFLOW
  /-- Flow line `j` of die `i` is marked bad (R262) -/
  | xFL_BAD
  /-- Trie line `j` of die `i` is marked bad (R262) -/
  | xRT_BAD
  /-- Bridge slot `j` of die `i` holds an entry (R249) -/
  | xBR_VALID
  /-- Its VID -/
  | xBR_VID
  /-- Its MAC -/
  | xBR_MAC
  /-- Its interface -/
  | xBR_IF
  /-- Its STATIC bit -/
  | xBR_STATIC
  /-- Its HIT bit -/
  | xBR_HIT
  /-- Its AGE bit -/
  | xBR_AGE
  /-- Its SWEEP bit -/
  | xBR_SWEEP
  /-- The operation that runs in table `j` of die `i` (R258) -/
  | xCMD_OP
  /-- Its FAMILY -/
  | xCMD_FAM
  /-- Its INDEX -/
  | xCMD_IX
  /-- Its first key word -/
  | xCMD_K0
  /-- Its second key word -/
  | xCMD_K1
  /-- Its first data word -/
  | xCMD_D0
  /-- Its second data word -/
  | xCMD_D1
  /-- The local-oscillator edge at which it times out (R66) -/
  | xCMD_DUE
  /-- The local-oscillator edge at which the aging period of die `i` ends (R66, R255) -/
  | xAGE_NEXT
  /-- A sweep of die `i` is due and waits for its start (R255, R256) -/
  | xAGE_DUE
  /-- Entries that the running sweep of die `i` has removed -/
  | xAGED
  /-- The time base at which the sweep of die `i` fell due, in TAI ns (R256) -/
  | xAGE_TAI
  deriving DecidableEq, Repr

/-- The width of a field of the FWD block. -/
def Fwd.width (f : Fwd) : Nat :=
  match f with
  | .STATUS_READY => 1
  | .STATUS_RT_LOST => 1
  | .STATUS_SWEEP_ACTIVE => 1
  | .STATUS_PARITY => 1
  | .CMD_TO_TO => 14
  | .AGE_PERIOD_PERIOD => 10
  | .RT_CFG_DEF_HANDLE => 12
  | .RT_CFG_DEF_EN => 1
  | .BR_CFG_LEARN_EN => 8
  | .BR_CFG_VID_EN => 1
  | .BR_FLOOD_FLOOD => 16
  | .OCC_RT_V4 => 15
  | .OCC_RT_V6 => 13
  | .OCC_BR_ENTRIES => 16
  | .OCC_BR_STATIC => 16
  | .RT_CMD_OP => 3
  | .RT_CMD_FAMILY => 1
  | .RT_CMD_BUSY => 1
  | .RT_CMD_LOST => 1
  | .RT_CMD_STATUS => 3
  | .RT_CMD_INDEX => 16
  | .RT_KEY0_KEY0 => 32
  | .RT_KEY1_KEY1 => 32
  | .RT_DATA_HANDLE => 12
  | .RT_DATA_MATCH_LEN => 7
  | .FL_CMD_OP => 3
  | .FL_CMD_BUSY => 1
  | .FL_CMD_LOST => 1
  | .FL_CMD_STATUS => 3
  | .FL_CMD_INDEX => 16
  | .FL_DATA_LO_ENTRY_LO => 32
  | .FL_DATA_HI_ENTRY_HI => 32
  | .BR_CMD_OP => 3
  | .BR_CMD_BUSY => 1
  | .BR_CMD_LOST => 1
  | .BR_CMD_STATUS => 3
  | .BR_CMD_INDEX => 16
  | .BR_KEY_LO_MAC_LO => 32
  | .BR_KEY_HI_MAC_HI => 16
  | .BR_KEY_HI_VID => 12
  | .BR_DATA_IF => 4
  | .BR_DATA_STATIC => 1
  | .BR_DATA_HIT => 1
  | .BR_DATA_AGE => 1
  | .BR_DATA_SWEEP => 1
  | .BR_DATA_VALID => 1
  | .CNT => 64
  | .xFLOW => 64
  | .xFL_BAD => 1
  | .xRT_BAD => 1
  | .xBR_VALID => 1
  | .xBR_VID => 12
  | .xBR_MAC => 48
  | .xBR_IF => 4
  | .xBR_STATIC => 1
  | .xBR_HIT => 1
  | .xBR_AGE => 1
  | .xBR_SWEEP => 1
  | .xCMD_OP => 3
  | .xCMD_FAM => 1
  | .xCMD_IX => 16
  | .xCMD_K0 => 32
  | .xCMD_K1 => 32
  | .xCMD_D0 => 32
  | .xCMD_D1 => 32
  | .xCMD_DUE => 64
  | .xAGE_NEXT => 64
  | .xAGE_DUE => 1
  | .xAGED => 16
  | .xAGE_TAI => 0

/-- The value of a field of the FWD block at reset. -/
def Fwd.reset (f : Fwd) (_ _ : Nat) : Nat :=
  match f with
  | .CMD_TO_TO => 100
  | .AGE_PERIOD_PERIOD => 300
  | .BR_CFG_LEARN_EN => 255
  | .BR_CFG_VID_EN => 1
  | _ => 0

/-- The fields of the SHP block. -/
inductive Shp where
  /-- `SHP_STATUS.READY` -/
  | STATUS_READY
  /-- `SHP_STATUS.SEQ_RESTORED` -/
  | STATUS_SEQ_RESTORED
  /-- `SHP_STATUS.TPL_BAD` -/
  | STATUS_TPL_BAD
  /-- `SHP_TPL_ADDR.WORD` -/
  | TPL_ADDR_WORD
  /-- `SHP_TPL_ADDR.PLANE` -/
  | TPL_ADDR_PLANE
  /-- `SHP_TPL_ADDR.HANDLE` -/
  | TPL_ADDR_HANDLE
  /-- `SHP_TPL_ADDR.READ` -/
  | TPL_ADDR_READ
  /-- `SHP_TPL_ADDR.WRITE` -/
  | TPL_ADDR_WRITE
  /-- `SHP_TPL_DATA.DATA` -/
  | TPL_DATA_DATA
  /-- `SHP_CNT_LO` and `_HI`, one 64-bit value -/
  | CNT
  /-- `SHP_BKT_CFG.MODE` -/
  | BKT_CFG_MODE
  /-- `SHP_BKT_CFG.RESET_FILL` -/
  | BKT_CFG_RESET_FILL
  /-- `SHP_BKT_CFG.SENDER_W` -/
  | BKT_CFG_SENDER_W
  /-- `SHP_BKT_CFG.W_GROUP_M1` -/
  | BKT_CFG_W_GROUP_M1
  /-- `SHP_BKT_CFG.HO_SLOT` -/
  | BKT_CFG_HO_SLOT
  /-- `SHP_BKT_CFG.HO_EN` -/
  | BKT_CFG_HO_EN
  /-- `SHP_BKT_CFG.OVERHEAD` -/
  | BKT_CFG_OVERHEAD
  /-- `SHP_BKT_RATE.RATE` -/
  | BKT_RATE_RATE
  /-- `SHP_BKT_BURST.BURST` -/
  | BKT_BURST_BURST
  /-- `SHP_BKT_STATUS.APPLY` -/
  | BKT_STATUS_APPLY
  /-- `SHP_BKT_STATUS.CFG_ERR` -/
  | BKT_STATUS_CFG_ERR
  /-- `SHP_BKT_STATUS.NEG` -/
  | BKT_STATUS_NEG
  /-- `SHP_BKT_STATUS.TOKENS` -/
  | BKT_STATUS_TOKENS
  /-- `SHP_TPL_CFG.L3_OFS` -/
  | TPL_CFG_L3_OFS
  /-- `SHP_TPL_CFG.IPV6` -/
  | TPL_CFG_IPV6
  /-- `SHP_TPL_CFG.L4_OFS` -/
  | TPL_CFG_L4_OFS
  /-- `SHP_TPL_CFG.RESEQ` -/
  | TPL_CFG_RESEQ
  /-- `SHP_TPL_CFG.PLANE_B` -/
  | TPL_CFG_PLANE_B
  /-- `SHP_TPL_CFG.TC` -/
  | TPL_CFG_TC
  /-- `SHP_SEQ.NEXT` -/
  | SEQ_NEXT
  /-- One more than the mirror of `SHP_SEQ[j]` of die `i`, kept on the other die (R281); 0 while no packet has started -/
  | xMIRROR
  /-- A frame is on the wire of interface `i` -/
  | xWIRE
  /-- Tokens of bucket `j` of die `i` in 2^-16 bytes, two's complement (R267) -/
  | xTOK
  /-- The tokens of bucket `j` of die `i` have been set since die start -/
  | xTOK_SET
  /-- The time of the last refill of that bucket, in TAI ns -/
  | xREFILL
  /-- The residue of that refill (R267) -/
  | xRESID
  /-- Template word `j` % 64 (plane * 32 + word) of handle `j` / 64 of die `i`, bank `k` (R270) -/
  | xTPL
  /-- The template line of handle `j` of die `i` is marked bad (R282) -/
  | xTPL_BAD
  /-- The IPv4 identification counter of handle `j` of die `i` (R280) -/
  | xIPID
  /-- The time base at the start of die `i`, in TAI ns (R282) -/
  | xSTART_TAI
  deriving DecidableEq, Repr

/-- The width of a field of the SHP block. -/
def Shp.width (f : Shp) : Nat :=
  match f with
  | .STATUS_READY => 1
  | .STATUS_SEQ_RESTORED => 1
  | .STATUS_TPL_BAD => 1
  | .TPL_ADDR_WORD => 5
  | .TPL_ADDR_PLANE => 1
  | .TPL_ADDR_HANDLE => 12
  | .TPL_ADDR_READ => 1
  | .TPL_ADDR_WRITE => 1
  | .TPL_DATA_DATA => 32
  | .CNT => 64
  | .BKT_CFG_MODE => 3
  | .BKT_CFG_RESET_FILL => 1
  | .BKT_CFG_SENDER_W => 1
  | .BKT_CFG_W_GROUP_M1 => 4
  | .BKT_CFG_HO_SLOT => 4
  | .BKT_CFG_HO_EN => 1
  | .BKT_CFG_OVERHEAD => 8
  | .BKT_RATE_RATE => 29
  | .BKT_BURST_BURST => 25
  | .BKT_STATUS_APPLY => 1
  | .BKT_STATUS_CFG_ERR => 1
  | .BKT_STATUS_NEG => 1
  | .BKT_STATUS_TOKENS => 24
  | .TPL_CFG_L3_OFS => 7
  | .TPL_CFG_IPV6 => 1
  | .TPL_CFG_L4_OFS => 7
  | .TPL_CFG_RESEQ => 1
  | .TPL_CFG_PLANE_B => 8
  | .TPL_CFG_TC => 3
  | .SEQ_NEXT => 32
  | .xMIRROR => 33
  | .xWIRE => 1
  | .xTOK => 64
  | .xTOK_SET => 1
  | .xREFILL => 64
  | .xRESID => 16
  | .xTPL => 32
  | .xTPL_BAD => 1
  | .xIPID => 16
  | .xSTART_TAI => 0

/-- The value of a field of the SHP block at reset. -/
def Shp.reset (f : Shp) (_ _ : Nat) : Nat :=
  match f with
  | .BKT_CFG_RESET_FILL => 1
  | .BKT_CFG_W_GROUP_M1 => 3
  | .BKT_CFG_HO_EN => 1
  | .BKT_CFG_OVERHEAD => 20
  | .BKT_RATE_RATE => 400000000
  | .BKT_BURST_BURST => 16384
  | .TPL_CFG_L3_OFS => 14
  | .TPL_CFG_L4_OFS => 34
  | .TPL_CFG_TC => 7
  | _ => 0

/-- The fields of the PDK block. -/
inductive Pdk where
  /-- `PDK_STATUS.CELL_READY` -/
  | STATUS_CELL_READY
  /-- `PDK_STATUS.DRAM_READY` -/
  | STATUS_DRAM_READY
  /-- `PDK_STATUS.CARVE_ERR` -/
  | STATUS_CARVE_ERR
  /-- `PDK_STATUS.RSV_ERR` -/
  | STATUS_RSV_ERR
  /-- `PDK_STATUS.HLOST` -/
  | STATUS_HLOST
  /-- `PDK_STATUS.CELL_LOW` -/
  | STATUS_CELL_LOW
  /-- `PDK_CELL.FREE` -/
  | CELL_FREE
  /-- `PDK_CELL.QUAR` -/
  | CELL_QUAR
  /-- `PDK_CELL_THR.THR` -/
  | CELL_THR_THR
  /-- `PDK_HRES.HANDLE` -/
  | HRES_HANDLE
  /-- `PDK_HRES.STATUS` -/
  | HRES_STATUS
  /-- `PDK_HRES.VALID` -/
  | HRES_VALID
  /-- `PDK_CNT_LO` and `_HI`, one 64-bit value -/
  | CNT
  /-- `PDK_OWN_CFG.GROUP` -/
  | OWN_CFG_GROUP
  /-- `PDK_OWN_CFG.MAX_UP` -/
  | OWN_CFG_MAX_UP
  /-- `PDK_OWN_CELL.RSV` -/
  | OWN_CELL_RSV
  /-- `PDK_OWN_CELL.MAX` -/
  | OWN_CELL_MAX
  /-- `PDK_OWN_CHELD.HELD` -/
  | OWN_CHELD_HELD
  /-- `PDK_OWN_CHELD.PEAK` -/
  | OWN_CHELD_PEAK
  /-- `PDK_OWN_RSV.RSV` -/
  | OWN_RSV_RSV
  /-- `PDK_OWN_RSV.HELD` -/
  | OWN_RSV_HELD
  /-- `PDK_CLS.COUNT` -/
  | CLS_COUNT
  /-- `PDK_CLS.FREE` -/
  | CLS_FREE
  /-- `PDK_CLS_THR.THR` -/
  | CLS_THR_THR
  /-- `PDK_CLS_THR.LOW` -/
  | CLS_THR_LOW
  /-- Quarantined cells of die `i` (R295) -/
  | xQUAR
  /-- The round-robin pointer of the pool of class `k` of group `j` of die `i` (R290) -/
  | xRR
  /-- The round-robin pointer of the cell pool of die `i` (R290) -/
  | xCRR
  /-- Group `i` took the default carve (R285) -/
  | xCARVE_BAD
  /-- Peak buffers of owner `j` in class `k` on die `i` (R297) -/
  | xPEAK
  /-- The local-oscillator edge from which `HRES` of port `j` of die `i` shows the result (R298) -/
  | xHRES_AT
  deriving DecidableEq, Repr

/-- The width of a field of the PDK block. -/
def Pdk.width (f : Pdk) : Nat :=
  match f with
  | .STATUS_CELL_READY => 1
  | .STATUS_DRAM_READY => 1
  | .STATUS_CARVE_ERR => 1
  | .STATUS_RSV_ERR => 1
  | .STATUS_HLOST => 1
  | .STATUS_CELL_LOW => 1
  | .CELL_FREE => 18
  | .CELL_QUAR => 14
  | .CELL_THR_THR => 17
  | .HRES_HANDLE => 22
  | .HRES_STATUS => 3
  | .HRES_VALID => 1
  | .CNT => 64
  | .OWN_CFG_GROUP => 3
  | .OWN_CFG_MAX_UP => 3
  | .OWN_CELL_RSV => 17
  | .OWN_CELL_MAX => 15
  | .OWN_CHELD_HELD => 17
  | .OWN_CHELD_PEAK => 11
  | .OWN_RSV_RSV => 16
  | .OWN_RSV_HELD => 16
  | .CLS_COUNT => 16
  | .CLS_FREE => 16
  | .CLS_THR_THR => 16
  | .CLS_THR_LOW => 1
  | .xQUAR => 17
  | .xRR => 6
  | .xCRR => 6
  | .xCARVE_BAD => 1
  | .xPEAK => 16
  | .xHRES_AT => 64

/-- The value of a field of the PDK block at reset. -/
def Pdk.reset (f : Pdk) (i j : Nat) : Nat :=
  match f with
  | .CELL_THR_THR => 8192
  | .OWN_CFG_GROUP => (4 * i)
  | .OWN_CFG_MAX_UP => 7
  | .OWN_CELL_RSV => (if 48 ≤ j ∧ j ≤ 55 then 1024 else 0)
  | .CLS_COUNT => (pdkDefaultCount j)
  | _ => 0

/-- The fields of the DMC block. -/
inductive Dmc where
  /-- `DMC_STATUS.TRAINED` -/
  | STATUS_TRAINED
  /-- `DMC_STATUS.LOST` -/
  | STATUS_LOST
  /-- `DMC_STATUS.READY` -/
  | STATUS_READY
  /-- `DMC_STATUS.RT_SAT` -/
  | STATUS_RT_SAT
  /-- `DMC_STATUS.SCRUB_PAUSED` -/
  | STATUS_SCRUB_PAUSED
  /-- `DMC_STATUS.TRAIN_FAIL` -/
  | STATUS_TRAIN_FAIL
  /-- `DMC_CFG.SCRUB_LINES` -/
  | CFG_SCRUB_LINES
  /-- `DMC_CFG.ERASE_THR` -/
  | CFG_ERASE_THR
  /-- `DMC_CFG.ERASE_PERSIST` -/
  | CFG_ERASE_PERSIST
  /-- `DMC_CFG.BE_SHARE` -/
  | CFG_BE_SHARE
  /-- `DMC_AGE_CAP.CAP` -/
  | AGE_CAP_CAP
  /-- `DMC_REF_POSTPONE.MAX` -/
  | REF_POSTPONE_MAX
  /-- `DMC_XBAR_TO.TO` -/
  | XBAR_TO_TO
  /-- `DMC_CNT_LO` and `_HI`, one 64-bit value -/
  | CNT
  /-- `DMC_GRP_STATUS.MODE` -/
  | GRP_STATUS_MODE
  /-- `DMC_GRP_STATUS.ERASED_DEV` -/
  | GRP_STATUS_ERASED_DEV
  /-- `DMC_GRP_STATUS.REF_RATE` -/
  | GRP_STATUS_REF_RATE
  /-- `DMC_GRP_STATUS.REF_DEBT` -/
  | GRP_STATUS_REF_DEBT
  /-- `DMC_GRP_STATUS.INIT_DONE` -/
  | GRP_STATUS_INIT_DONE
  /-- `DMC_GRP_STATUS.RETRAINING` -/
  | GRP_STATUS_RETRAINING
  /-- `DMC_GRP_STATUS.PASS` -/
  | GRP_STATUS_PASS
  /-- `DMC_GRP_CTRL.DEV` -/
  | GRP_CTRL_DEV
  /-- `DMC_GRP_CTRL.FORCE_ERASE` -/
  | GRP_CTRL_FORCE_ERASE
  /-- `DMC_SCRUB_POS.LINE` -/
  | SCRUB_POS_LINE
  /-- `DMC_POISON_LAST.LINE` -/
  | POISON_LAST_LINE
  /-- `DMC_POISON_LAST.MASK` -/
  | POISON_LAST_MASK
  /-- `DMC_POISON_LAST.LOG_LOST` -/
  | POISON_LAST_LOG_LOST
  /-- `DMC_PASR.KEEP` -/
  | PASR_KEEP
  /-- `DMC_DEV_ERR.PASS_ERR` -/
  | DEV_ERR_PASS_ERR
  /-- `DMC_DEV_ERR.TOTAL` -/
  | DEV_ERR_TOTAL
  /-- SEQ of line `j` of group `i` (R303) -/
  | xSEQ
  /-- POISON of line `j` of group `i` (R303) -/
  | xPOIS
  /-- The sideband of line `j` of group `i`, as one big-endian number (R169, R303) -/
  | xSIDE
  /-- Row `j` of 32 lines of group `i` is initialised (R312) -/
  | xINIT
  /-- Initialised rows of group `i` -/
  | xINIT_N
  /-- The write counter of group `i` (R305) -/
  | xWSEQ
  /-- Line `j` of group `i` has failed on device `k` in the current scrub pass (R309) -/
  | xPERR
  /-- Intervals that group `i` has refreshed in advance (R320) -/
  | xADV
  /-- The device of group `i` that is retrained; 7 means none (R326) -/
  | xRETR_DEV
  /-- Group `i` is in erasure mode only while that device retrains (R326) -/
  | xRETR_MODE
  /-- The SEQ that the write of line 0 of row `j` of group `i` took when the row was initialised (R305, R312) -/
  | xROW_SEQ
  /-- The edge, plus 1, since which the oldest real-time request of group `i` waits, as the last command that tells it says; 0 for none (R316) -/
  | xRT_OLD
  /-- POISON plus 1 that line `j` of group `i` held before the write-back of its last read; 0 where none may still wait (R307) -/
  | xWB
  /-- The sideband of the line before that write-back -/
  | xWB_SIDE
  /-- Slice `k` of the line before that write-back -/
  | xWB_SLICE
  /-- Where the current refresh interval of group `i` began, in quarter edges of the local oscillator (R318) -/
  | xREF_AT
  /-- The time of the last catch-up of group `i`, or of its training, in ns (R320) -/
  | xCATCH_TAI
  /-- The time of the last scrub credit of group `i`, or of its training, in ns (R313) -/
  | xSCRUB_TAI
  /-- What device `k` still holds of line `j` of group `i`, plus 1, where a write of the line did not reach it while it retrained; 0 where it holds what was last written (R310, R326) -/
  | xSTALE
  deriving DecidableEq, Repr

/-- The width of a field of the DMC block. -/
def Dmc.width (f : Dmc) : Nat :=
  match f with
  | .STATUS_TRAINED => 4
  | .STATUS_LOST => 4
  | .STATUS_READY => 1
  | .STATUS_RT_SAT => 1
  | .STATUS_SCRUB_PAUSED => 1
  | .STATUS_TRAIN_FAIL => 1
  | .CFG_SCRUB_LINES => 12
  | .CFG_ERASE_THR => 8
  | .CFG_ERASE_PERSIST => 1
  | .CFG_BE_SHARE => 4
  | .AGE_CAP_CAP => 5
  | .REF_POSTPONE_MAX => 4
  | .XBAR_TO_TO => 15
  | .CNT => 64
  | .GRP_STATUS_MODE => 2
  | .GRP_STATUS_ERASED_DEV => 3
  | .GRP_STATUS_REF_RATE => 2
  | .GRP_STATUS_REF_DEBT => 4
  | .GRP_STATUS_INIT_DONE => 1
  | .GRP_STATUS_RETRAINING => 1
  | .GRP_STATUS_PASS => 16
  | .GRP_CTRL_DEV => 3
  | .GRP_CTRL_FORCE_ERASE => 1
  | .SCRUB_POS_LINE => 24
  | .POISON_LAST_LINE => 24
  | .POISON_LAST_MASK => 4
  | .POISON_LAST_LOG_LOST => 1
  | .PASR_KEEP => 8
  | .DEV_ERR_PASS_ERR => 16
  | .DEV_ERR_TOTAL => 16
  | .xSEQ => 17
  | .xPOIS => 4
  | .xSIDE => 256
  | .xINIT => 1
  | .xINIT_N => 20
  | .xWSEQ => 16
  | .xPERR => 1
  | .xADV => 4
  | .xRETR_DEV => 3
  | .xRETR_MODE => 1
  | .xROW_SEQ => 16
  | .xRT_OLD => 0
  | .xWB => 5
  | .xWB_SIDE => 256
  | .xWB_SLICE => 512
  | .xREF_AT => 0
  | .xCATCH_TAI => 0
  | .xSCRUB_TAI => 0
  | .xSTALE => 513

/-- The value of a field of the DMC block at reset. -/
def Dmc.reset (f : Dmc) (_ _ : Nat) : Nat :=
  match f with
  | .STATUS_SCRUB_PAUSED => 1
  | .CFG_SCRUB_LINES => 128
  | .CFG_ERASE_THR => 16
  | .CFG_ERASE_PERSIST => 1
  | .CFG_BE_SHARE => 8
  | .AGE_CAP_CAP => 4
  | .REF_POSTPONE_MAX => 8
  | .XBAR_TO_TO => 5000
  | .GRP_STATUS_ERASED_DEV => 7
  | .xRETR_DEV => 7
  | _ => 0

/-- The fields of the DMA block. -/
inductive Dma where
  /-- `DMA_STATUS.LEVEL` -/
  | STATUS_LEVEL
  /-- `DMA_CNT_LO` and `_HI`, one 64-bit value -/
  | CNT
  /-- `DMA_Q_CFG.EN` -/
  | Q_CFG_EN
  /-- `DMA_Q_CFG.OWNER` -/
  | Q_CFG_OWNER
  /-- `DMA_Q_CFG.MODE` -/
  | Q_CFG_MODE
  /-- `DMA_Q_CFG.RING_LOG2` -/
  | Q_CFG_RING_LOG2
  /-- `DMA_Q_CFG.PRIO` -/
  | Q_CFG_PRIO
  /-- `DMA_Q_RING_LO.BASE_LO` -/
  | Q_RING_LO_BASE_LO
  /-- `DMA_Q_RING_HI.BASE_HI` -/
  | Q_RING_HI_BASE_HI
  /-- `DMA_Q_TAIL.TAIL` -/
  | Q_TAIL_TAIL
  /-- `DMA_Q_HEAD.HEAD` -/
  | Q_HEAD_HEAD
  /-- `DMA_Q_TO.TO` -/
  | Q_TO_TO
  /-- `DMA_Q_STATUS.IDLE` -/
  | Q_STATUS_IDLE
  /-- `DMA_Q_STATUS.HALTED` -/
  | Q_STATUS_HALTED
  /-- `DMA_Q_STATUS.FETCH_ERR` -/
  | Q_STATUS_FETCH_ERR
  /-- `DMA_Q_STATUS.RESTARTED` -/
  | Q_STATUS_RESTARTED
  /-- `DMA_Q_STATUS.LAST_STATUS` -/
  | Q_STATUS_LAST_STATUS
  /-- `DMA_Q_STATUS.RX_WAIT` -/
  | Q_STATUS_RX_WAIT
  /-- `DMA_Q_CTRL.RESUME` -/
  | Q_CTRL_RESUME
  /-- `DMA_Q_CTRL.RESET` -/
  | Q_CTRL_RESET
  /-- The status that the running descriptor of queue `j` of die `i` has so far (R348) -/
  | xST
  /-- Its RESULT so far -/
  | xRES
  /-- The local-oscillator edge at which it times out (R66, R348); 0 with none that runs or waits for its unit -/
  | xDUE
  /-- Its operation -/
  | xOP
  /-- Its EVT bit -/
  | xEVT
  /-- One more than the check-value unit that it holds; 0 with none (R346) -/
  | xUNIT
  /-- It finishes that unit at completion (R345) -/
  | xFIN
  /-- Its read-back: 0 none, 1 of DRAM, 2 of host memory (R339) -/
  | xRB
  /-- What it wrote last came from tagged data (R339) -/
  | xRBTAG
  /-- The address of its slot: space * 2^64 + address, space 0 DRAM of the group in [34:32], else 1 + port -/
  | xSLOT
  /-- One more than the chain of the frame that it receives; 0 with none (R349) -/
  | xCHAIN
  /-- The queue of die `i` that was last granted an engine slot (R334) -/
  | xLAST_Q
  /-- The address of the last byte that the running descriptor of queue `j` of die `i` wrote, of DRAM (R339) -/
  | xRB_LAST
  deriving DecidableEq, Repr

/-- The width of a field of the DMA block. -/
def Dma.width (f : Dma) : Nat :=
  match f with
  | .STATUS_LEVEL => 2
  | .CNT => 64
  | .Q_CFG_EN => 1
  | .Q_CFG_OWNER => 2
  | .Q_CFG_MODE => 2
  | .Q_CFG_RING_LOG2 => 4
  | .Q_CFG_PRIO => 2
  | .Q_RING_LO_BASE_LO => 26
  | .Q_RING_HI_BASE_HI => 32
  | .Q_TAIL_TAIL => 16
  | .Q_HEAD_HEAD => 16
  | .Q_TO_TO => 16
  | .Q_STATUS_IDLE => 1
  | .Q_STATUS_HALTED => 1
  | .Q_STATUS_FETCH_ERR => 1
  | .Q_STATUS_RESTARTED => 1
  | .Q_STATUS_LAST_STATUS => 8
  | .Q_STATUS_RX_WAIT => 7
  | .Q_CTRL_RESUME => 1
  | .Q_CTRL_RESET => 1
  | .xST => 8
  | .xRES => 32
  | .xDUE => 64
  | .xOP => 8
  | .xEVT => 1
  | .xUNIT => 4
  | .xFIN => 1
  | .xRB => 2
  | .xRBTAG => 1
  | .xSLOT => 0
  | .xCHAIN => 0
  | .xLAST_Q => 5
  | .xRB_LAST => 0

/-- The value of a field of the DMA block at reset. -/
def Dma.reset (f : Dma) (_ _ : Nat) : Nat :=
  match f with
  | .STATUS_LEVEL => 2
  | .Q_CFG_OWNER => 3
  | .Q_CFG_RING_LOG2 => 8
  | .Q_TO_TO => 1000
  | .Q_STATUS_IDLE => 1
  | .xLAST_Q => 31
  | _ => 0

/-- The fields of the CHK block. -/
inductive Chk where
  /-- `CHK_CFG.POLY` -/
  | CFG_POLY
  /-- `CHK_CFG.FOLD_W_M1` -/
  | CFG_FOLD_W_M1
  /-- `CHK_CFG.POISON` -/
  | CFG_POISON
  /-- `CHK_CTRL.START` -/
  | CTRL_START
  /-- `CHK_CTRL.FINISH` -/
  | CTRL_FINISH
  /-- `CHK_CTRL.HELD` -/
  | CTRL_HELD
  /-- `CHK_CTRL.LOST` -/
  | CTRL_LOST
  /-- `CHK_VAL.VAL` -/
  | VAL_VAL
  /-- `CHK_CNT.CNT` -/
  | CNT_CNT
  /-- `CHK_RES.RES` -/
  | RES_RES
  /-- `CHK_RSTAT.FIN_COUNT` -/
  | RSTAT_FIN_COUNT
  /-- `CHK_RSTAT.POISON` -/
  | RSTAT_POISON
  /-- `CHK_RSTAT.VALID` -/
  | RSTAT_VALID
  /-- The later of the FINISH write and the last feed of unit `j` of die `i`, as a local-oscillator edge (R354) -/
  | xFIN_AT
  deriving DecidableEq, Repr

/-- The width of a field of the CHK block. -/
def Chk.width (f : Chk) : Nat :=
  match f with
  | .CFG_POLY => 2
  | .CFG_FOLD_W_M1 => 2
  | .CFG_POISON => 1
  | .CTRL_START => 1
  | .CTRL_FINISH => 1
  | .CTRL_HELD => 1
  | .CTRL_LOST => 1
  | .VAL_VAL => 32
  | .CNT_CNT => 32
  | .RES_RES => 32
  | .RSTAT_FIN_COUNT => 16
  | .RSTAT_POISON => 1
  | .RSTAT_VALID => 1
  | .xFIN_AT => 64

/-- The value of a field of the CHK block at reset. -/
def Chk.reset (f : Chk) (_ _ : Nat) : Nat :=
  match f with
  | .CFG_POLY => 1
  | .CFG_FOLD_W_M1 => 3
  | _ => 0

/-- The fields of the OST block. -/
inductive Ost where
  /-- `OST_STATUS.STATE` -/
  | STATUS_STATE
  /-- `OST_STATUS.CLASS` -/
  | STATUS_CLASS
  /-- `OST_STATUS.SHED_LEVEL` -/
  | STATUS_SHED_LEVEL
  /-- `OST_STATUS.OVERLOAD` -/
  | STATUS_OVERLOAD
  /-- `OST_STATUS.DEPTH` -/
  | STATUS_DEPTH
  /-- `OST_STATUS.BUSY` -/
  | STATUS_BUSY
  /-- `OST_WDOG.MS` -/
  | WDOG_MS
  /-- `OST_SHED.LAT` -/
  | SHED_LAT
  /-- `OST_SHED.BUSY_HI` -/
  | SHED_BUSY_HI
  /-- `OST_MC.PC` -/
  | MC_PC
  /-- `OST_MC.CLASS` -/
  | MC_CLASS
  /-- `OST_MC.CAUSE` -/
  | MC_CAUSE
  /-- `OST_MC.VALID` -/
  | MC_VALID
  /-- `OST_CLASS.PENDING` -/
  | CLASS_PENDING
  /-- `OST_CLASS.SUSPENDED` -/
  | CLASS_SUSPENDED
  /-- `OST_CLASS.STEP` -/
  | CLASS_STEP
  /-- `OST_CNT_LO` and `_HI`, one 64-bit value -/
  | CNT
  /-- One more than the bundle slot whose stores the Ostler of die `i` runs (R436, R447) -/
  | xSLOT
  /-- One more than the handle of the buffer that holds a copy of the stores of die `i`: `j` = 0 in force, 1 of the other bundle (R382, R446) -/
  | xCOPY
  /-- One more than the local-oscillator edge of the last machine check of die `i` (R388); 0 before the first -/
  | xMC_AT
  /-- Items that wait in class `j` of the Ostler of die `i` (R392); the frames of class 8 are in `State.rxs` -/
  | xITEMS
  /-- PC of the Ostler of die `i` in context `j`: 0 running, 1 + c saved for class c, 11 + c the journal record of class c (R386, R389, R391) -/
  | xPC
  /-- Call-stack depth in that context (R384) -/
  | xDEPTH
  /-- Call-stack entry `j` of the Ostler of die `i` in context `k` (R384) -/
  | xSTK
  /-- Loop counter of the Ostler of die `i` in context `j` (R386) -/
  | xLC
  /-- Flags Z [0], N [1], C [2], V [3] in that context (R386) -/
  | xFLAGS
  /-- General register g`j` of the Ostler of die `i` in context `k` (R386) -/
  | xG
  /-- Journal step of the record of class `j` of the Ostler of die `i` (R391) -/
  | xSTEP
  /-- The last register or memory operation of the Ostler of die `i` returned status 0 (R385) -/
  | xACK
  /-- The last POP of the Ostler of die `i` returned NOT_VALID (R385) -/
  | xEMPTY
  /-- Class `j` of the Ostler of die `i` has a journal record (R391) -/
  | xJNL
  /-- The local-oscillator edge at which the watchdog of the Ostler of die `i` expires (R66, R388) -/
  | xWDOG_DUE
  /-- The local-oscillator edge of the last yield point of the Ostler of die `i` (R390) -/
  | xYIELD_AT
  /-- The local-oscillator edge from which the Ostler of die `i` has not been overloaded (R394) -/
  | xOVER_AT
  /-- The Ostler of die `i` starts no new routine other than IRQ (R446, R487) -/
  | xQUIET
  deriving DecidableEq, Repr

/-- The width of a field of the OST block. -/
def Ost.width (f : Ost) : Nat :=
  match f with
  | .STATUS_STATE => 3
  | .STATUS_CLASS => 4
  | .STATUS_SHED_LEVEL => 3
  | .STATUS_OVERLOAD => 1
  | .STATUS_DEPTH => 4
  | .STATUS_BUSY => 8
  | .WDOG_MS => 10
  | .SHED_LAT => 16
  | .SHED_BUSY_HI => 8
  | .MC_PC => 14
  | .MC_CLASS => 4
  | .MC_CAUSE => 5
  | .MC_VALID => 1
  | .CLASS_PENDING => 10
  | .CLASS_SUSPENDED => 1
  | .CLASS_STEP => 8
  | .CNT => 64
  | .xSLOT => 2
  | .xCOPY => 23
  | .xMC_AT => 64
  | .xITEMS => 0
  | .xPC => 14
  | .xDEPTH => 4
  | .xSTK => 14
  | .xLC => 16
  | .xFLAGS => 4
  | .xG => 64
  | .xSTEP => 10
  | .xACK => 1
  | .xEMPTY => 1
  | .xJNL => 1
  | .xWDOG_DUE => 64
  | .xYIELD_AT => 64
  | .xOVER_AT => 64
  | .xQUIET => 1

/-- The value of a field of the OST block at reset. -/
def Ost.reset (f : Ost) (_ _ : Nat) : Nat :=
  match f with
  | .WDOG_MS => 10
  | .SHED_LAT => 100
  | .SHED_BUSY_HI => 240
  | _ => 0

/-- The name of a field of the machine. -/
inductive Fld where
  | mid (f : Mid)
  | hpt (f : Hpt)
  | evc (f : Evc)
  | flt (f : Flt)
  | trs (f : Trs)
  | fwu (f : Fwu)
  | pwr (f : Pwr)
  | tth (f : Tth)
  | cch (f : Cch)
  | cus (f : Cus)
  | qrc (f : Qrc)
  | ref (f : Ref)
  | prs (f : Prs)
  | fwd (f : Fwd)
  | shp (f : Shp)
  | pdk (f : Pdk)
  | dmc (f : Dmc)
  | dma (f : Dma)
  | chk (f : Chk)
  | ost (f : Ost)
  deriving DecidableEq, Repr

/-- The width of a field. -/
def Fld.width (f : Fld) : Nat :=
  match f with
  | .mid f => f.width
  | .hpt f => f.width
  | .evc f => f.width
  | .flt f => f.width
  | .trs f => f.width
  | .fwu f => f.width
  | .pwr f => f.width
  | .tth f => f.width
  | .cch f => f.width
  | .cus f => f.width
  | .qrc f => f.width
  | .ref f => f.width
  | .prs f => f.width
  | .fwd f => f.width
  | .shp f => f.width
  | .pdk f => f.width
  | .dmc f => f.width
  | .dma f => f.width
  | .chk f => f.width
  | .ost f => f.width

/-- The value of a field at reset. -/
def Fld.reset (f : Fld) (i j : Nat) : Nat :=
  match f with
  | .mid f => f.reset i j
  | .hpt f => f.reset i j
  | .evc f => f.reset i j
  | .flt f => f.reset i j
  | .trs f => f.reset i j
  | .fwu f => f.reset i j
  | .pwr f => f.reset i j
  | .tth f => f.reset i j
  | .cch f => f.reset i j
  | .cus f => f.reset i j
  | .qrc f => f.reset i j
  | .ref f => f.reset i j
  | .prs f => f.reset i j
  | .fwd f => f.reset i j
  | .shp f => f.reset i j
  | .pdk f => f.reset i j
  | .dmc f => f.reset i j
  | .dma f => f.reset i j
  | .chk f => f.reset i j
  | .ost f => f.reset i j

/-- The place of a field in the canonical order of the register store. -/
def Fld.code (f : Fld) : Nat :=
  match f with
  | .mid f => 0 + f.ctorIdx
  | .hpt f => 1024 + f.ctorIdx
  | .evc f => 2048 + f.ctorIdx
  | .flt f => 3072 + f.ctorIdx
  | .trs f => 4096 + f.ctorIdx
  | .fwu f => 5120 + f.ctorIdx
  | .pwr f => 6144 + f.ctorIdx
  | .tth f => 7168 + f.ctorIdx
  | .cch f => 8192 + f.ctorIdx
  | .cus f => 9216 + f.ctorIdx
  | .qrc f => 10240 + f.ctorIdx
  | .ref f => 11264 + f.ctorIdx
  | .prs f => 12288 + f.ctorIdx
  | .fwd f => 13312 + f.ctorIdx
  | .shp f => 14336 + f.ctorIdx
  | .pdk f => 15360 + f.ctorIdx
  | .dmc f => 16384 + f.ctorIdx
  | .dma f => 17408 + f.ctorIdx
  | .chk f => 18432 + f.ctorIdx
  | .ost f => 19456 + f.ctorIdx

theorem Mid.ctorIdx_inj {a b : Mid} (h : a.ctorIdx = b.ctorIdx) : a = b := by
  have := congrArg Mid.ofNat h
  rwa [Mid.ofNat_ctorIdx, Mid.ofNat_ctorIdx] at this

theorem Hpt.ctorIdx_inj {a b : Hpt} (h : a.ctorIdx = b.ctorIdx) : a = b := by
  have := congrArg Hpt.ofNat h
  rwa [Hpt.ofNat_ctorIdx, Hpt.ofNat_ctorIdx] at this

theorem Evc.ctorIdx_inj {a b : Evc} (h : a.ctorIdx = b.ctorIdx) : a = b := by
  have := congrArg Evc.ofNat h
  rwa [Evc.ofNat_ctorIdx, Evc.ofNat_ctorIdx] at this

theorem Flt.ctorIdx_inj {a b : Flt} (h : a.ctorIdx = b.ctorIdx) : a = b := by
  have := congrArg Flt.ofNat h
  rwa [Flt.ofNat_ctorIdx, Flt.ofNat_ctorIdx] at this

theorem Trs.ctorIdx_inj {a b : Trs} (h : a.ctorIdx = b.ctorIdx) : a = b := by
  have := congrArg Trs.ofNat h
  rwa [Trs.ofNat_ctorIdx, Trs.ofNat_ctorIdx] at this

theorem Fwu.ctorIdx_inj {a b : Fwu} (h : a.ctorIdx = b.ctorIdx) : a = b := by
  have := congrArg Fwu.ofNat h
  rwa [Fwu.ofNat_ctorIdx, Fwu.ofNat_ctorIdx] at this

theorem Pwr.ctorIdx_inj {a b : Pwr} (h : a.ctorIdx = b.ctorIdx) : a = b := by
  have := congrArg Pwr.ofNat h
  rwa [Pwr.ofNat_ctorIdx, Pwr.ofNat_ctorIdx] at this

theorem Tth.ctorIdx_inj {a b : Tth} (h : a.ctorIdx = b.ctorIdx) : a = b := by
  have := congrArg Tth.ofNat h
  rwa [Tth.ofNat_ctorIdx, Tth.ofNat_ctorIdx] at this

theorem Cch.ctorIdx_inj {a b : Cch} (h : a.ctorIdx = b.ctorIdx) : a = b := by
  have := congrArg Cch.ofNat h
  rwa [Cch.ofNat_ctorIdx, Cch.ofNat_ctorIdx] at this

theorem Cus.ctorIdx_inj {a b : Cus} (h : a.ctorIdx = b.ctorIdx) : a = b := by
  have := congrArg Cus.ofNat h
  rwa [Cus.ofNat_ctorIdx, Cus.ofNat_ctorIdx] at this

theorem Qrc.ctorIdx_inj {a b : Qrc} (h : a.ctorIdx = b.ctorIdx) : a = b := by
  have := congrArg Qrc.ofNat h
  rwa [Qrc.ofNat_ctorIdx, Qrc.ofNat_ctorIdx] at this

theorem Ref.ctorIdx_inj {a b : Ref} (h : a.ctorIdx = b.ctorIdx) : a = b := by
  have := congrArg Ref.ofNat h
  rwa [Ref.ofNat_ctorIdx, Ref.ofNat_ctorIdx] at this

theorem Prs.ctorIdx_inj {a b : Prs} (h : a.ctorIdx = b.ctorIdx) : a = b := by
  have := congrArg Prs.ofNat h
  rwa [Prs.ofNat_ctorIdx, Prs.ofNat_ctorIdx] at this

theorem Fwd.ctorIdx_inj {a b : Fwd} (h : a.ctorIdx = b.ctorIdx) : a = b := by
  have := congrArg Fwd.ofNat h
  rwa [Fwd.ofNat_ctorIdx, Fwd.ofNat_ctorIdx] at this

theorem Shp.ctorIdx_inj {a b : Shp} (h : a.ctorIdx = b.ctorIdx) : a = b := by
  have := congrArg Shp.ofNat h
  rwa [Shp.ofNat_ctorIdx, Shp.ofNat_ctorIdx] at this

theorem Pdk.ctorIdx_inj {a b : Pdk} (h : a.ctorIdx = b.ctorIdx) : a = b := by
  have := congrArg Pdk.ofNat h
  rwa [Pdk.ofNat_ctorIdx, Pdk.ofNat_ctorIdx] at this

theorem Dmc.ctorIdx_inj {a b : Dmc} (h : a.ctorIdx = b.ctorIdx) : a = b := by
  have := congrArg Dmc.ofNat h
  rwa [Dmc.ofNat_ctorIdx, Dmc.ofNat_ctorIdx] at this

theorem Dma.ctorIdx_inj {a b : Dma} (h : a.ctorIdx = b.ctorIdx) : a = b := by
  have := congrArg Dma.ofNat h
  rwa [Dma.ofNat_ctorIdx, Dma.ofNat_ctorIdx] at this

theorem Chk.ctorIdx_inj {a b : Chk} (h : a.ctorIdx = b.ctorIdx) : a = b := by
  have := congrArg Chk.ofNat h
  rwa [Chk.ofNat_ctorIdx, Chk.ofNat_ctorIdx] at this

theorem Ost.ctorIdx_inj {a b : Ost} (h : a.ctorIdx = b.ctorIdx) : a = b := by
  have := congrArg Ost.ofNat h
  rwa [Ost.ofNat_ctorIdx, Ost.ofNat_ctorIdx] at this

theorem Mid.ctorIdx_small (a : Mid) : a.ctorIdx < 1024 := by
  cases a <;> decide

theorem Hpt.ctorIdx_small (a : Hpt) : a.ctorIdx < 1024 := by
  cases a <;> decide

theorem Evc.ctorIdx_small (a : Evc) : a.ctorIdx < 1024 := by
  cases a <;> decide

theorem Flt.ctorIdx_small (a : Flt) : a.ctorIdx < 1024 := by
  cases a <;> decide

theorem Trs.ctorIdx_small (a : Trs) : a.ctorIdx < 1024 := by
  cases a <;> decide

theorem Fwu.ctorIdx_small (a : Fwu) : a.ctorIdx < 1024 := by
  cases a <;> decide

theorem Pwr.ctorIdx_small (a : Pwr) : a.ctorIdx < 1024 := by
  cases a <;> decide

theorem Tth.ctorIdx_small (a : Tth) : a.ctorIdx < 1024 := by
  cases a <;> decide

theorem Cch.ctorIdx_small (a : Cch) : a.ctorIdx < 1024 := by
  cases a <;> decide

theorem Cus.ctorIdx_small (a : Cus) : a.ctorIdx < 1024 := by
  cases a <;> decide

theorem Qrc.ctorIdx_small (a : Qrc) : a.ctorIdx < 1024 := by
  cases a <;> decide

theorem Ref.ctorIdx_small (a : Ref) : a.ctorIdx < 1024 := by
  cases a <;> decide

theorem Prs.ctorIdx_small (a : Prs) : a.ctorIdx < 1024 := by
  cases a <;> decide

theorem Fwd.ctorIdx_small (a : Fwd) : a.ctorIdx < 1024 := by
  cases a <;> decide

theorem Shp.ctorIdx_small (a : Shp) : a.ctorIdx < 1024 := by
  cases a <;> decide

theorem Pdk.ctorIdx_small (a : Pdk) : a.ctorIdx < 1024 := by
  cases a <;> decide

theorem Dmc.ctorIdx_small (a : Dmc) : a.ctorIdx < 1024 := by
  cases a <;> decide

theorem Dma.ctorIdx_small (a : Dma) : a.ctorIdx < 1024 := by
  cases a <;> decide

theorem Chk.ctorIdx_small (a : Chk) : a.ctorIdx < 1024 := by
  cases a <;> decide

theorem Ost.ctorIdx_small (a : Ost) : a.ctorIdx < 1024 := by
  cases a <;> decide

/-- The block of a field, numbered in the order of `Fld`. -/
def Fld.blk (f : Fld) : Nat :=
  match f with
  | .mid _ => 0
  | .hpt _ => 1
  | .evc _ => 2
  | .flt _ => 3
  | .trs _ => 4
  | .fwu _ => 5
  | .pwr _ => 6
  | .tth _ => 7
  | .cch _ => 8
  | .cus _ => 9
  | .qrc _ => 10
  | .ref _ => 11
  | .prs _ => 12
  | .fwd _ => 13
  | .shp _ => 14
  | .pdk _ => 15
  | .dmc _ => 16
  | .dma _ => 17
  | .chk _ => 18
  | .ost _ => 19

theorem Fld.code_div (a : Fld) : a.code / 1024 = a.blk := by
  cases a <;> simp only [Fld.code, Fld.blk]
  case mid f => have := Mid.ctorIdx_small f; omega
  case hpt f => have := Hpt.ctorIdx_small f; omega
  case evc f => have := Evc.ctorIdx_small f; omega
  case flt f => have := Flt.ctorIdx_small f; omega
  case trs f => have := Trs.ctorIdx_small f; omega
  case fwu f => have := Fwu.ctorIdx_small f; omega
  case pwr f => have := Pwr.ctorIdx_small f; omega
  case tth f => have := Tth.ctorIdx_small f; omega
  case cch f => have := Cch.ctorIdx_small f; omega
  case cus f => have := Cus.ctorIdx_small f; omega
  case qrc f => have := Qrc.ctorIdx_small f; omega
  case ref f => have := Ref.ctorIdx_small f; omega
  case prs f => have := Prs.ctorIdx_small f; omega
  case fwd f => have := Fwd.ctorIdx_small f; omega
  case shp f => have := Shp.ctorIdx_small f; omega
  case pdk f => have := Pdk.ctorIdx_small f; omega
  case dmc f => have := Dmc.ctorIdx_small f; omega
  case dma f => have := Dma.ctorIdx_small f; omega
  case chk f => have := Chk.ctorIdx_small f; omega
  case ost f => have := Ost.ctorIdx_small f; omega

theorem Fld.code_inj {a b : Fld} (h : a.code = b.code) : a = b := by
  have hd : a.blk = b.blk := by rw [← Fld.code_div, ← Fld.code_div, h]
  cases a <;> cases b <;> simp only [Fld.blk] at hd <;> first | contradiction | (simp only [Fld.code] at h; congr 1)
  case mid.mid f g => exact Mid.ctorIdx_inj (by omega)
  case hpt.hpt f g => exact Hpt.ctorIdx_inj (by omega)
  case evc.evc f g => exact Evc.ctorIdx_inj (by omega)
  case flt.flt f g => exact Flt.ctorIdx_inj (by omega)
  case trs.trs f g => exact Trs.ctorIdx_inj (by omega)
  case fwu.fwu f g => exact Fwu.ctorIdx_inj (by omega)
  case pwr.pwr f g => exact Pwr.ctorIdx_inj (by omega)
  case tth.tth f g => exact Tth.ctorIdx_inj (by omega)
  case cch.cch f g => exact Cch.ctorIdx_inj (by omega)
  case cus.cus f g => exact Cus.ctorIdx_inj (by omega)
  case qrc.qrc f g => exact Qrc.ctorIdx_inj (by omega)
  case ref.ref f g => exact Ref.ctorIdx_inj (by omega)
  case prs.prs f g => exact Prs.ctorIdx_inj (by omega)
  case fwd.fwd f g => exact Fwd.ctorIdx_inj (by omega)
  case shp.shp f g => exact Shp.ctorIdx_inj (by omega)
  case pdk.pdk f g => exact Pdk.ctorIdx_inj (by omega)
  case dmc.dmc f g => exact Dmc.ctorIdx_inj (by omega)
  case dma.dma f g => exact Dma.ctorIdx_inj (by omega)
  case chk.chk f g => exact Chk.ctorIdx_inj (by omega)
  case ost.ost f g => exact Ost.ctorIdx_inj (by omega)

end Sys2Proof.Machine
end

