-- ==== Sys2Proof/Machine/RegMap.lean ====
section
/-!
DEFINITION. The register map (R506 to R512): which register each offset of the 64 MiB BAR holds, and which
fields lie in it, as the register tables of the chapters give them.
-/

namespace Sys2Proof.Machine

/-- The type of a field (R10). A `wo` field is in no list here: it holds nothing and reads as 0. -/
inductive Acc where
  | rw
  | ro
  | w1c
  | w1s
  deriving DecidableEq, Repr

/-- The registers, by the names of the register index. -/
inductive Reg where
  | MID_TYPE
  | MID_SERIAL_LO
  | MID_SERIAL_HI
  | MID_HIR
  | MID_SCHEMA
  | MID_STATUS
  | MID_TTH_LOCAL
  | MID_BOOT
  | MID_STRAP
  | MID_CFG_IMG
  | MID_CFG_SEQ
  | MID_EARLY
  | MID_MLOG_STATUS
  | MID_CERT_LEN
  | MID_TTH_REV
  | MID_MLOG_AGG
  | MID_QUOTE_NONCE
  | MID_QUOTE_CTRL
  | MID_QUOTE_DATA
  | MID_CERT
  | MID_MLOG_ENTRY
  | HPT_SELF
  | HPT_CPL_TO
  | HPT_PORT_STATUS
  | HPT_HIR_SEL
  | HPT_ERR
  | HPT_STR_TAKE
  | HPT_STR_REL
  | HPT_STR_LEASE
  | HPT_STR_STATUS
  | EVC_STATUS
  | EVC_CLAIM_TO
  | EVC_SW_SET
  | EVC_SW_CLR
  | EVC_TGT_CTRL
  | EVC_CLAIM
  | EVC_COMPLETE
  | EVC_TGT_STATUS
  | EVC_FIFO_POP
  | EVC_FIFO_PUSH
  | EVC_FIFO_CFG
  | EVC_FIFO_STAT
  | EVC_CNT_LO
  | EVC_CNT_HI
  | EVC_SRC_CFG
  | EVC_FLOW_MAP
  | FLT_STATUS
  | FLT_CFG
  | FLT_DIE_CTRL
  | FLT_RING
  | FLT_INJECT
  | FLT_CNT_LO
  | FLT_CNT_HI
  | FLT_FIRST
  | FLT_REC
  | TRS_CTRL
  | TRS_STATUS
  | TRS_OFFSET
  | TRS_PTP_CFG
  | TRS_NOW_LO
  | TRS_NOW_HI
  | TRS_PPS_TS_LO
  | TRS_PPS_TS_HI
  | TRS_PORT_CFG
  | TRS_DOM_FMT
  | TRS_DOM_RATE
  | TRS_DOM_POS_LO
  | TRS_DOM_POS_HI
  | TRS_HO_TGT_LO
  | TRS_HO_TGT_HI
  | TRS_HO_CTRL
  | FWU_CTRL
  | FWU_STATUS
  | FWU_BLK_OFS
  | FWU_BLK_LEN
  | FWU_BLK_CRC
  | FWU_BLK_CMD
  | FWU_BLK_RES
  | FWU_XFER_TO
  | FWU_ACT_TO
  | FWU_FARRIER_TO
  | FWU_FLASH_TO
  | FWU_SLOT
  | FWU_SLOT_VER
  | FWU_MAP
  | FWU_BLK_DATA
  | PWR_STATUS
  | PWR_CTRL
  | PWR_HB_TO
  | PWR_THR
  | PWR_INPUT
  | PWR_POWER
  | PWR_ENERGY_LO
  | PWR_ENERGY_HI
  | PWR_DIPS
  | PWR_GATE
  | PWR_TEMP
  | PWR_RAIL
  | TTH_KA_TO
  | TTH_HO_TO
  | CCH_CTRL
  | CCH_FMT
  | CCH_TIME
  | CCH_FLOW
  | CCH_RTP
  | CCH_SSRC
  | CCH_FB
  | CCH_HEVC
  | CCH_DON
  | CCH_STATUS
  | CCH_OUT
  | CCH_OUT_SSRC
  | CCH_UNIT
  | CCH_CNT_LO
  | CCH_CNT_HI
  | QRC_CFG
  | QRC_CAP
  | QRC_MASK
  | QRC_TUNE
  | QRC_STATUS
  | QRC_DEBT
  | QRC_SEED
  | QRC_MODEL
  | QRC_CNT_LO
  | QRC_CNT_HI
  | REF_CFG
  | REF_STATUS
  | REF_OUT_FLAGS
  | REF_POISON
  | REF_CTRL
  | REF_SLOT
  | REF_CNT_LO
  | REF_CNT_HI
  | CUS_STALL_TO
  | CUS_CFG
  | CUS_CAP
  | CUS_BOOKED
  | CUS_UNIT
  | CUS_CLUSTER
  | CUS_CNT_LO
  | CUS_CNT_HI
  | PRS_STALL_TO
  | PRS_PARSE_CFG
  | PRS_GEN_CTRL
  | PRS_GEN_STATUS
  | PRS_NODE_ADDR
  | PRS_NODE_LO
  | PRS_NODE_HI
  | PRS_MERGE_WIN
  | PRS_RTP_KIND
  | PRS_TUN_CFG
  | PRS_PORT_CFG
  | PRS_RTP_RANGE
  | PRS_HASH_PROF
  | PRS_ROOT
  | PRS_IFSET
  | PRS_CNT_LO
  | PRS_CNT_HI
  | PRS_IND
  | PRS_MERGE
  | PRS_MERGE_STAT
  | FWD_STATUS
  | FWD_CMD_TO
  | FWD_AGE_PERIOD
  | FWD_RT_CFG
  | FWD_BR_CFG
  | FWD_BR_FLOOD
  | FWD_OCC_RT
  | FWD_OCC_BR
  | FWD_RT_CMD
  | FWD_RT_KEY0
  | FWD_RT_KEY1
  | FWD_RT_DATA
  | FWD_FL_CMD
  | FWD_FL_DATA_LO
  | FWD_FL_DATA_HI
  | FWD_BR_CMD
  | FWD_BR_KEY_LO
  | FWD_BR_KEY_HI
  | FWD_BR_DATA
  | FWD_CNT_LO
  | FWD_CNT_HI
  | SHP_STATUS
  | SHP_TPL_ADDR
  | SHP_TPL_DATA
  | SHP_CNT_LO
  | SHP_CNT_HI
  | SHP_BKT_CFG
  | SHP_BKT_RATE
  | SHP_BKT_BURST
  | SHP_BKT_STATUS
  | SHP_TPL_CFG
  | SHP_SEQ
  | PDK_STATUS
  | PDK_CELL
  | PDK_CELL_THR
  | PDK_HREQ
  | PDK_HFREE
  | PDK_HRES
  | PDK_CNT_LO
  | PDK_CNT_HI
  | PDK_OWN_CFG
  | PDK_OWN_CELL
  | PDK_OWN_CHELD
  | PDK_OWN_RSV
  | PDK_CLS
  | PDK_CLS_THR
  | DMC_STATUS
  | DMC_CFG
  | DMC_AGE_CAP
  | DMC_REF_POSTPONE
  | DMC_XBAR_TO
  | DMC_CNT_LO
  | DMC_CNT_HI
  | DMC_GRP_STATUS
  | DMC_GRP_CTRL
  | DMC_SCRUB_POS
  | DMC_POISON_LAST
  | DMC_PASR
  | DMC_DEV_ERR
  | DMA_STATUS
  | DMA_CNT_LO
  | DMA_CNT_HI
  | DMA_Q_CFG
  | DMA_Q_RING_LO
  | DMA_Q_RING_HI
  | DMA_Q_TAIL
  | DMA_Q_HEAD
  | DMA_Q_TO
  | DMA_Q_STATUS
  | DMA_Q_CTRL
  | CHK_CFG
  | CHK_CTRL
  | CHK_DATA
  | CHK_DATA_B
  | CHK_FOLD
  | CHK_VAL
  | CHK_CNT
  | CHK_RES
  | CHK_RSTAT
  | OST_STATUS
  | OST_WDOG
  | OST_SHED
  | OST_MC
  | OST_CLASS
  | OST_CNT_LO
  | OST_CNT_HI
  | HPT_MSIX
  | HPT_PBA
  deriving DecidableEq, Repr

/-- A field of a register: bits [lo + len - 1 : lo]. `cfg` says that its Reset is cfg (R15), so that a
configuration record loads it (R424). -/
structure FieldSpec where
  lo  : Nat
  len : Nat
  fld : Fld
  acc : Acc
  cfg : Bool
  deriving DecidableEq, Repr

/-- How a register's place in the BAR gives the first index of its fields: a module block, a channel of the
per-channel blocks, the die of the window, or a linear index that runs on over the dies, `n` to a die (R508). -/
inductive RegMode where
  | glob
  | chan
  | die
  | lin (n : Nat)
  deriving DecidableEq, Repr

/-- What a register shows: fields, or one half of a 64-bit pair (R14). -/
inductive RegKind where
  | plain
  | lo (f : Fld)
  | hi (f : Fld)
  deriving DecidableEq, Repr

/-- One register of the map: its offset in its block, its strides with their counts, and its fields. -/
structure RegDef where
  reg     : Reg
  mode    : RegMode
  off     : Nat
  strides : List (Nat × Nat)
  kind    : RegKind
  shadow  : Bool
  fields  : List FieldSpec
  deriving DecidableEq, Repr

/-- The registers of the MID block. -/
def midRegs : List RegDef :=
  [
   ⟨.MID_TYPE, .glob, 0x0, [], .plain, false,
    [⟨0, 16, .mid .TYPE_TYPE, .ro, false⟩, ⟨16, 1, .mid .TYPE_GRADE, .ro, false⟩, ⟨24, 8, .mid .TYPE_STEPPING, .ro, false⟩]⟩,
   ⟨.MID_SERIAL_LO, .glob, 0x4, [], .plain, false,
    [⟨0, 32, .mid .SERIAL_LO_SERIAL_LO, .ro, false⟩]⟩,
   ⟨.MID_SERIAL_HI, .glob, 0x8, [], .plain, false,
    [⟨0, 32, .mid .SERIAL_HI_SERIAL_HI, .ro, false⟩]⟩,
   ⟨.MID_HIR, .glob, 0xC, [], .plain, false,
    [⟨0, 8, .mid .HIR_MINOR_MAX, .ro, false⟩, ⟨8, 8, .mid .HIR_MAJOR, .ro, false⟩]⟩,
   ⟨.MID_SCHEMA, .glob, 0x10, [], .plain, false,
    [⟨0, 8, .mid .SCHEMA_MINOR, .ro, false⟩, ⟨8, 8, .mid .SCHEMA_MAJOR, .ro, false⟩, ⟨16, 1, .mid .SCHEMA_SCHEMA_BAD, .w1c, false⟩, ⟨17, 1, .mid .SCHEMA_SCHEMA_NEWER, .w1c, false⟩]⟩,
   ⟨.MID_STATUS, .glob, 0x14, [], .plain, false,
    [⟨0, 2, .mid .STATUS_DIE_UP, .ro, false⟩, ⟨4, 2, .mid .STATUS_MODULE, .ro, true⟩, ⟨8, 1, .mid .STATUS_BUNDLE_SLOT, .ro, false⟩]⟩,
   ⟨.MID_TTH_LOCAL, .glob, 0x1C, [], .plain, false,
    [⟨0, 8, .mid .TTH_LOCAL_MINOR_MAX, .ro, false⟩, ⟨8, 8, .mid .TTH_LOCAL_MAJOR, .ro, false⟩]⟩,
   ⟨.MID_BOOT, .glob, 0x100, [], .plain, false,
    [⟨0, 4, .mid .BOOT_STEP, .ro, false⟩, ⟨4, 1, .mid .BOOT_RECOVERY, .ro, false⟩, ⟨5, 1, .mid .BOOT_BOOT_COPY, .ro, false⟩, ⟨6, 1, .mid .BOOT_REPAIR_NONE, .w1c, false⟩, ⟨16, 16, .mid .BOOT_FIRST_PIC, .ro, false⟩]⟩,
   ⟨.MID_STRAP, .glob, 0x104, [], .plain, false,
    [⟨0, 1, .mid .STRAP_RECOVERY, .ro, false⟩, ⟨1, 1, .mid .STRAP_FLASH_CLK, .ro, false⟩, ⟨2, 1, .mid .STRAP_NO_CFG, .ro, false⟩, ⟨3, 1, .mid .STRAP_HA_EN, .ro, false⟩, ⟨4, 1, .mid .STRAP_HB_EN, .ro, false⟩, ⟨5, 1, .mid .STRAP_TETHER_RCV, .ro, false⟩, ⟨6, 1, .mid .STRAP_SLOT_SWAP, .ro, false⟩, ⟨7, 1, .mid .STRAP_RSVD, .ro, false⟩]⟩,
   ⟨.MID_CFG_IMG, .glob, 0x108, [], .plain, false,
    [⟨0, 1, .mid .CFG_IMG_COPY, .ro, false⟩, ⟨1, 1, .mid .CFG_IMG_NONE, .ro, false⟩, ⟨2, 1, .mid .CFG_IMG_COPY_BAD, .w1c, false⟩, ⟨16, 16, .mid .CFG_IMG_SKIPPED, .ro, false⟩]⟩,
   ⟨.MID_CFG_SEQ, .glob, 0x10C, [], .plain, false,
    [⟨0, 32, .mid .CFG_SEQ_SEQ, .ro, false⟩]⟩,
   ⟨.MID_EARLY, .glob, 0x110, [], .plain, false,
    [⟨0, 16, .mid .EARLY_EARLY_WRITE, .ro, false⟩]⟩,
   ⟨.MID_MLOG_STATUS, .glob, 0x200, [], .plain, false,
    [⟨0, 9, .mid .MLOG_STATUS_COUNT, .ro, false⟩, ⟨9, 1, .mid .MLOG_STATUS_LOG_FULL, .ro, false⟩]⟩,
   ⟨.MID_CERT_LEN, .glob, 0x300, [], .plain, false,
    [⟨0, 16, .mid .CERT_LEN_LEN, .ro, false⟩]⟩,
   ⟨.MID_TTH_REV, .glob, 0x20, [(0x4, 3)], .plain, false,
    [⟨0, 8, .mid .TTH_REV_MINOR, .ro, false⟩, ⟨8, 8, .mid .TTH_REV_MAJOR, .ro, false⟩, ⟨16, 1, .mid .TTH_REV_UP, .ro, false⟩]⟩,
   ⟨.MID_MLOG_AGG, .glob, 0x240, [(0x4, 12)], .plain, false,
    [⟨0, 32, .mid .MLOG_AGG_AGG, .ro, false⟩]⟩,
   ⟨.MID_QUOTE_NONCE, .glob, 0x400, [(0x200, 2), (0x4, 8)], .plain, false,
    [⟨0, 32, .mid .QUOTE_NONCE_NONCE, .rw, false⟩]⟩,
   ⟨.MID_QUOTE_CTRL, .glob, 0x420, [(0x200, 2)], .plain, false,
    [⟨0, 1, .mid .QUOTE_CTRL_GO, .w1s, false⟩, ⟨1, 1, .mid .QUOTE_CTRL_BUSY, .ro, false⟩, ⟨2, 1, .mid .QUOTE_CTRL_VALID, .ro, false⟩, ⟨3, 1, .mid .QUOTE_CTRL_FAILED, .w1c, false⟩]⟩,
   ⟨.MID_QUOTE_DATA, .glob, 0x440, [(0x200, 2), (0x4, 52)], .plain, false,
    [⟨0, 32, .mid .QUOTE_DATA_DATA, .ro, false⟩]⟩,
   ⟨.MID_CERT, .glob, 0x2000, [(0x4, 1024)], .plain, false,
    [⟨0, 32, .mid .CERT_CERT, .ro, false⟩]⟩,
   ⟨.MID_MLOG_ENTRY, .glob, 0x4000, [(0x40, 256), (0x4, 16)], .plain, false,
    [⟨0, 32, .mid .MLOG_ENTRY_ENTRY, .ro, false⟩]⟩]

/-- The registers of the HPT block. -/
def hptRegs : List RegDef :=
  [
   ⟨.HPT_SELF, .glob, 0x0, [], .plain, false,
    []⟩,
   ⟨.HPT_CPL_TO, .glob, 0x4, [], .plain, false,
    [⟨0, 16, .hpt .CPL_TO_TO, .rw, true⟩]⟩,
   ⟨.HPT_PORT_STATUS, .glob, 0x10, [(0x10, 2)], .plain, false,
    [⟨0, 4, .hpt .PORT_STATUS_SPEED, .ro, false⟩, ⟨4, 4, .hpt .PORT_STATUS_WIDTH, .ro, false⟩, ⟨8, 1, .hpt .PORT_STATUS_HIR_OK, .ro, false⟩, ⟨9, 1, .hpt .PORT_STATUS_HIR_REFUSED, .w1c, false⟩, ⟨10, 1, .hpt .PORT_STATUS_PORT_RESET, .w1c, false⟩, ⟨16, 8, .hpt .PORT_STATUS_MINOR, .ro, false⟩, ⟨24, 8, .hpt .PORT_STATUS_MAJOR, .ro, false⟩]⟩,
   ⟨.HPT_HIR_SEL, .glob, 0x14, [(0x10, 2)], .plain, false,
    []⟩,
   ⟨.HPT_ERR, .glob, 0x18, [(0x10, 2)], .plain, false,
    [⟨0, 16, .hpt .ERR_BAD_ACCESS, .ro, false⟩, ⟨16, 16, .hpt .ERR_UNNEG_WRITE, .ro, false⟩]⟩,
   ⟨.HPT_STR_TAKE, .glob, 0x1000, [(0x10, 64)], .plain, false,
    []⟩,
   ⟨.HPT_STR_REL, .glob, 0x1004, [(0x10, 64)], .plain, false,
    []⟩,
   ⟨.HPT_STR_LEASE, .glob, 0x1008, [(0x10, 64)], .plain, false,
    [⟨0, 14, .hpt .STR_LEASE_MS, .rw, true⟩]⟩,
   ⟨.HPT_STR_STATUS, .glob, 0x100C, [(0x10, 64)], .plain, false,
    [⟨0, 3, .hpt .STR_STATUS_OWNER, .ro, false⟩, ⟨3, 1, .hpt .STR_STATUS_HELD, .ro, false⟩, ⟨4, 1, .hpt .STR_STATUS_REL_ERR, .w1c, false⟩, ⟨16, 8, .hpt .STR_STATUS_GEN, .ro, false⟩]⟩,
   ⟨.HPT_MSIX, .glob, 0x8000, [(0x4, 4)], .plain, false,
    [⟨0, 32, .hpt .MSIX_WORD, .rw, false⟩]⟩,
   ⟨.HPT_PBA, .glob, 0x8800, [(0x4, 2)], .plain, false,
    [⟨0, 32, .hpt .PBA_WORD, .ro, false⟩]⟩]

/-- The registers of the EVC block. -/
def evcRegs : List RegDef :=
  [
   ⟨.EVC_STATUS, .glob, 0x0, [], .plain, false,
    [⟨0, 1, .evc .STATUS_READY, .ro, false⟩]⟩,
   ⟨.EVC_CLAIM_TO, .glob, 0x4, [], .plain, false,
    [⟨0, 16, .evc .CLAIM_TO_TO, .rw, true⟩]⟩,
   ⟨.EVC_SW_SET, .glob, 0x8, [], .plain, false,
    []⟩,
   ⟨.EVC_SW_CLR, .glob, 0xC, [], .plain, false,
    []⟩,
   ⟨.EVC_TGT_CTRL, .glob, 0x200, [(0x80, 4)], .plain, false,
    [⟨0, 1, .evc .TGT_CTRL_EN, .rw, true⟩, ⟨1, 1, .evc .TGT_CTRL_STREAM_EN, .rw, true⟩, ⟨4, 3, .evc .TGT_CTRL_BINPOINT, .rw, true⟩]⟩,
   ⟨.EVC_CLAIM, .glob, 0x204, [(0x80, 4)], .plain, false,
    []⟩,
   ⟨.EVC_COMPLETE, .glob, 0x208, [(0x80, 4)], .plain, false,
    []⟩,
   ⟨.EVC_TGT_STATUS, .glob, 0x20C, [(0x80, 4)], .plain, false,
    [⟨0, 9, .evc .TGT_STATUS_RUN_LEVEL, .ro, false⟩, ⟨9, 1, .evc .TGT_STATUS_SIGNAL, .ro, false⟩, ⟨10, 1, .evc .TGT_STATUS_COMP_ERR, .w1c, false⟩, ⟨11, 1, .evc .TGT_STATUS_CFG_BUSY, .w1c, false⟩, ⟨16, 9, .evc .TGT_STATUS_ACTIVE_CNT, .ro, false⟩]⟩,
   ⟨.EVC_FIFO_POP, .glob, 0x210, [(0x80, 4)], .plain, false,
    []⟩,
   ⟨.EVC_FIFO_PUSH, .glob, 0x214, [(0x80, 4)], .plain, false,
    []⟩,
   ⟨.EVC_FIFO_CFG, .glob, 0x218, [(0x80, 4)], .plain, false,
    [⟨0, 10, .evc .FIFO_CFG_THR, .rw, true⟩]⟩,
   ⟨.EVC_FIFO_STAT, .glob, 0x21C, [(0x80, 4)], .plain, false,
    [⟨0, 10, .evc .FIFO_STAT_LEVEL, .ro, false⟩, ⟨10, 1, .evc .FIFO_STAT_FULL, .ro, false⟩, ⟨11, 1, .evc .FIFO_STAT_LOST_PEND, .ro, false⟩, ⟨12, 1, .evc .FIFO_STAT_THR_HIT, .w1c, false⟩]⟩,
   ⟨.EVC_CNT_LO, .glob, 0x240, [(0x80, 4), (0x8, 8)], (.lo (.evc .CNT)), false,
    []⟩,
   ⟨.EVC_CNT_HI, .glob, 0x244, [(0x80, 4), (0x8, 8)], (.hi (.evc .CNT)), false,
    []⟩,
   ⟨.EVC_SRC_CFG, .glob, 0x1000, [(0x4, 1024)], .plain, false,
    [⟨0, 1, .evc .SRC_CFG_EN, .rw, true⟩, ⟨1, 1, .evc .SRC_CFG_FIFO_EN, .rw, true⟩, ⟨4, 2, .evc .SRC_CFG_TARGET, .rw, true⟩, ⟨8, 8, .evc .SRC_CFG_PRIO, .rw, true⟩, ⟨16, 1, .evc .SRC_CFG_PENDING, .ro, false⟩, ⟨17, 1, .evc .SRC_CFG_ACTIVE, .ro, false⟩, ⟨18, 1, .evc .SRC_CFG_ASSERTED, .ro, false⟩, ⟨19, 1, .evc .SRC_CFG_CFG_BUSY, .w1c, false⟩]⟩,
   ⟨.EVC_FLOW_MAP, .glob, 0x2000, [(0x4, 384)], .plain, false,
    [⟨0, 12, .evc .FLOW_MAP_HANDLE, .rw, true⟩, ⟨12, 1, .evc .FLOW_MAP_DIE, .rw, true⟩, ⟨16, 8, .evc .FLOW_MAP_KINDS, .rw, true⟩, ⟨31, 1, .evc .FLOW_MAP_VALID, .rw, true⟩]⟩]

/-- The registers of the FLT block. -/
def fltRegs : List RegDef :=
  [
   ⟨.FLT_STATUS, .glob, 0x0, [], .plain, false,
    [⟨0, 1, .flt .STATUS_SAFE, .ro, false⟩, ⟨1, 1, .flt .STATUS_UNLOCKED, .ro, false⟩, ⟨2, 2, .flt .STATUS_DIE_DOWN, .ro, false⟩, ⟨4, 2, .flt .STATUS_DIE_HELD, .ro, false⟩, ⟨6, 1, .flt .STATUS_LAND_P, .ro, false⟩, ⟨7, 1, .flt .STATUS_LAND_N, .ro, false⟩, ⟨16, 8, .flt .STATUS_GRAVE_CODE, .ro, false⟩]⟩,
   ⟨.FLT_CFG, .glob, 0x4, [], .plain, false,
    [⟨0, 1, .flt .CFG_UNLOCK_ACT, .rw, true⟩, ⟨1, 1, .flt .CFG_SAFE_LINK_DOWN, .rw, true⟩, ⟨2, 1, .flt .CFG_FAILOVER, .rw, true⟩, ⟨8, 4, .flt .CFG_HOLD_COUNT, .rw, true⟩, ⟨16, 8, .flt .CFG_HOLD_WIN, .rw, true⟩]⟩,
   ⟨.FLT_DIE_CTRL, .glob, 0x8, [], .plain, false,
    [⟨0, 1, .flt .DIE_CTRL_RESTART0, .w1s, false⟩, ⟨1, 1, .flt .DIE_CTRL_RESTART1, .w1s, false⟩]⟩,
   ⟨.FLT_RING, .glob, 0xC, [], .plain, false,
    [⟨0, 8, .flt .RING_HEAD, .ro, false⟩, ⟨16, 16, .flt .RING_TOTAL, .ro, false⟩]⟩,
   ⟨.FLT_INJECT, .glob, 0x10, [], .plain, false,
    [⟨0, 8, .flt .INJECT_CODE, .rw, false⟩, ⟨8, 1, .flt .INJECT_WIRE, .rw, false⟩, ⟨9, 1, .flt .INJECT_DIE, .rw, false⟩, ⟨31, 1, .flt .INJECT_GO, .w1s, false⟩]⟩,
   ⟨.FLT_CNT_LO, .glob, 0x100, [(0x8, 8)], (.lo (.flt .CNT)), false,
    []⟩,
   ⟨.FLT_CNT_HI, .glob, 0x104, [(0x8, 8)], (.hi (.flt .CNT)), false,
    []⟩,
   ⟨.FLT_FIRST, .glob, 0x200, [(0x20, 5), (0x4, 8)], .plain, false,
    [⟨0, 32, .flt .FIRST_WORD, .ro, false⟩]⟩,
   ⟨.FLT_REC, .glob, 0x1000, [(0x20, 240), (0x4, 8)], .plain, false,
    [⟨0, 32, .flt .REC_WORD, .ro, false⟩]⟩]

/-- The registers of the TRS block. -/
def trsRegs : List RegDef :=
  [
   ⟨.TRS_CTRL, .glob, 0x0, [], .plain, false,
    [⟨0, 2, .trs .CTRL_HOLD_SRC, .rw, true⟩, ⟨2, 1, .trs .CTRL_FREE_START, .rw, true⟩, ⟨3, 1, .trs .CTRL_REALIGN, .w1s, false⟩, ⟨8, 8, .trs .CTRL_SLEW_MAX, .rw, true⟩, ⟨16, 6, .trs .CTRL_HOLD_TO, .rw, true⟩, ⟨22, 10, .trs .CTRL_FIRSTLOCK_TO, .rw, true⟩]⟩,
   ⟨.TRS_STATUS, .glob, 0x4, [], .plain, false,
    [⟨0, 3, .trs .STATUS_STATE, .ro, false⟩, ⟨4, 2, .trs .STATUS_ACTIVE_PORT, .ro, false⟩, ⟨6, 1, .trs .STATUS_REF10_OK, .ro, false⟩, ⟨7, 1, .trs .STATUS_PPS_OK, .ro, false⟩, ⟨8, 1, .trs .STATUS_OFFSET_LARGE, .ro, false⟩, ⟨9, 1, .trs .STATUS_REALIGN_BUSY, .w1c, false⟩, ⟨10, 1, .trs .STATUS_FIRSTLOCK_EXPIRED, .w1c, false⟩, ⟨12, 3, .trs .STATUS_BUSIEST_DOM, .ro, false⟩, ⟨16, 3, .trs .STATUS_SLOWEST_DOM, .ro, false⟩, ⟨24, 8, .trs .STATUS_HOLD_ELAPSED, .ro, false⟩]⟩,
   ⟨.TRS_OFFSET, .glob, 0x8, [], .plain, false,
    [⟨0, 32, .trs .OFFSET_OFFSET, .ro, false⟩]⟩,
   ⟨.TRS_PTP_CFG, .glob, 0xC, [], .plain, false,
    [⟨0, 7, .trs .PTP_CFG_DOMAIN, .rw, true⟩, ⟨7, 1, .trs .PTP_CFG_DELAY_MECH, .rw, true⟩, ⟨8, 4, .trs .PTP_CFG_SYNC_LOG, .rw, true⟩, ⟨12, 4, .trs .PTP_CFG_ANN_LOG, .rw, true⟩, ⟨16, 4, .trs .PTP_CFG_ANN_RCPT, .rw, true⟩, ⟨20, 4, .trs .PTP_CFG_SYNC_RCPT, .rw, true⟩, ⟨24, 1, .trs .PTP_CFG_IPV6, .rw, true⟩]⟩,
   ⟨.TRS_NOW_LO, .glob, 0x10, [], (.lo (.trs .NOW)), false,
    []⟩,
   ⟨.TRS_NOW_HI, .glob, 0x14, [], (.hi (.trs .NOW)), false,
    []⟩,
   ⟨.TRS_PPS_TS_LO, .glob, 0x18, [], (.lo (.trs .PPS_TS)), false,
    []⟩,
   ⟨.TRS_PPS_TS_HI, .glob, 0x1C, [], (.hi (.trs .PPS_TS)), false,
    []⟩,
   ⟨.TRS_PORT_CFG, .glob, 0x20, [(0x4, 4)], .plain, false,
    [⟨0, 1, .trs .PORT_CFG_PTP_EN, .rw, true⟩, ⟨1, 2, .trs .PORT_CFG_SUBPORT, .rw, true⟩, ⟨16, 16, .trs .PORT_CFG_ASYM, .rw, true⟩]⟩,
   ⟨.TRS_DOM_FMT, .glob, 0x100, [(0x10, 8)], .plain, false,
    [⟨0, 13, .trs .DOM_FMT_TOTAL_LINES, .rw, true⟩, ⟨13, 13, .trs .DOM_FMT_ACTIVE_LINES, .rw, true⟩, ⟨29, 1, .trs .DOM_FMT_CFG_ERR, .ro, false⟩, ⟨30, 1, .trs .DOM_FMT_INUSE, .ro, false⟩, ⟨31, 1, .trs .DOM_FMT_ENABLE, .rw, true⟩]⟩,
   ⟨.TRS_DOM_RATE, .glob, 0x104, [(0x10, 8)], .plain, false,
    [⟨0, 17, .trs .DOM_RATE_NUM, .rw, true⟩, ⟨17, 1, .trs .DOM_RATE_NTSC, .rw, true⟩, ⟨18, 13, .trs .DOM_RATE_FIRST_ACTIVE, .rw, true⟩]⟩,
   ⟨.TRS_DOM_POS_LO, .glob, 0x108, [(0x10, 8)], (.lo (.trs .DOM_POS)), false,
    []⟩,
   ⟨.TRS_DOM_POS_HI, .glob, 0x10C, [(0x10, 8)], (.hi (.trs .DOM_POS)), false,
    []⟩,
   ⟨.TRS_HO_TGT_LO, .glob, 0x200, [(0x10, 16)], .plain, false,
    [⟨0, 16, .trs .HO_TGT_LO_TICK, .rw, false⟩, ⟨16, 16, .trs .HO_TGT_LO_LINE, .rw, false⟩]⟩,
   ⟨.TRS_HO_TGT_HI, .glob, 0x204, [(0x10, 16)], .plain, false,
    [⟨0, 32, .trs .HO_TGT_HI_PICTURE, .rw, false⟩]⟩,
   ⟨.TRS_HO_CTRL, .glob, 0x208, [(0x10, 16)], .plain, false,
    [⟨0, 3, .trs .HO_CTRL_DOMAIN, .rw, false⟩, ⟨8, 1, .trs .HO_CTRL_ARM, .w1s, false⟩, ⟨9, 1, .trs .HO_CTRL_DISARM, .w1s, false⟩, ⟨12, 1, .trs .HO_CTRL_FIRED, .w1c, false⟩, ⟨13, 1, .trs .HO_CTRL_LATE, .w1c, false⟩, ⟨16, 16, .trs .HO_CTRL_FIRE_COUNT, .ro, false⟩]⟩]

/-- The registers of the FWU block. -/
def fwuRegs : List RegDef :=
  [
   ⟨.FWU_CTRL, .glob, 0x0, [], .plain, false,
    [⟨0, 1, .fwu .CTRL_OPEN, .w1s, false⟩, ⟨1, 1, .fwu .CTRL_CLOSE, .w1s, false⟩, ⟨2, 1, .fwu .CTRL_ACTIVATE, .w1s, false⟩, ⟨3, 1, .fwu .CTRL_REVERT, .w1s, false⟩, ⟨4, 1, .fwu .CTRL_KIND, .rw, false⟩, ⟨5, 1, .fwu .CTRL_SLOT, .rw, false⟩]⟩,
   ⟨.FWU_STATUS, .glob, 0x4, [], .plain, false,
    [⟨0, 3, .fwu .STATUS_STATE, .ro, false⟩, ⟨4, 2, .fwu .STATUS_OWNER, .ro, false⟩, ⟨8, 4, .fwu .STATUS_REASON, .ro, false⟩, ⟨12, 1, .fwu .STATUS_REFUSED, .w1c, false⟩, ⟨13, 1, .fwu .STATUS_REVERTED, .w1c, false⟩]⟩,
   ⟨.FWU_BLK_OFS, .glob, 0x10, [], .plain, false,
    [⟨0, 10, .fwu .BLK_OFS_BLOCK, .rw, false⟩]⟩,
   ⟨.FWU_BLK_LEN, .glob, 0x14, [], .plain, false,
    [⟨0, 17, .fwu .BLK_LEN_LEN, .rw, false⟩]⟩,
   ⟨.FWU_BLK_CRC, .glob, 0x18, [], .plain, false,
    [⟨0, 32, .fwu .BLK_CRC_CRC, .rw, false⟩]⟩,
   ⟨.FWU_BLK_CMD, .glob, 0x1C, [], .plain, false,
    [⟨0, 1, .fwu .BLK_CMD_SUBMIT, .w1s, false⟩]⟩,
   ⟨.FWU_BLK_RES, .glob, 0x20, [], .plain, false,
    [⟨0, 10, .fwu .BLK_RES_BLOCK, .ro, false⟩, ⟨16, 3, .fwu .BLK_RES_STATUS, .ro, false⟩, ⟨31, 1, .fwu .BLK_RES_VALID, .ro, false⟩]⟩,
   ⟨.FWU_XFER_TO, .glob, 0x60, [], .plain, false,
    [⟨0, 12, .fwu .XFER_TO_S, .rw, true⟩]⟩,
   ⟨.FWU_ACT_TO, .glob, 0x64, [], .plain, false,
    [⟨0, 6, .fwu .ACT_TO_S, .rw, true⟩]⟩,
   ⟨.FWU_FARRIER_TO, .glob, 0x68, [], .plain, false,
    [⟨0, 10, .fwu .FARRIER_TO_S, .rw, false⟩]⟩,
   ⟨.FWU_FLASH_TO, .glob, 0x6C, [], .plain, false,
    [⟨0, 10, .fwu .FLASH_TO_MS, .rw, true⟩]⟩,
   ⟨.FWU_SLOT, .glob, 0x40, [(0x4, 2)], .plain, false,
    [⟨0, 8, .fwu .SLOT_STATE, .ro, false⟩]⟩,
   ⟨.FWU_SLOT_VER, .glob, 0x48, [(0x4, 2)], .plain, false,
    [⟨0, 32, .fwu .SLOT_VER_VERSION, .ro, false⟩]⟩,
   ⟨.FWU_MAP, .glob, 0x80, [(0x4, 24)], .plain, false,
    [⟨0, 32, .fwu .MAP_MAP, .ro, false⟩]⟩,
   ⟨.FWU_BLK_DATA, .glob, 0x10000, [(0x4, 16384)], .plain, false,
    [⟨0, 32, .fwu .BLK_DATA_DATA, .rw, false⟩]⟩]

/-- The registers of the PWR block. -/
def pwrRegs : List RegDef :=
  [
   ⟨.PWR_STATUS, .glob, 0x0, [], .plain, false,
    [⟨0, 2, .pwr .STATUS_SEASON, .ro, false⟩, ⟨2, 1, .pwr .STATUS_WINTER_PENDING, .ro, false⟩, ⟨3, 1, .pwr .STATUS_VIN_LOW, .ro, false⟩, ⟨4, 1, .pwr .STATUS_WINTER_REFUSED, .w1c, false⟩, ⟨5, 1, .pwr .STATUS_HB_OK, .ro, false⟩, ⟨6, 1, .pwr .STATUS_CASE_HI, .ro, false⟩, ⟨7, 1, .pwr .STATUS_CASE_LO, .ro, false⟩, ⟨8, 1, .pwr .STATUS_TJ_WARN, .ro, false⟩, ⟨16, 6, .pwr .STATUS_GATED, .ro, false⟩]⟩,
   ⟨.PWR_CTRL, .glob, 0x4, [], .plain, false,
    [⟨0, 1, .pwr .CTRL_AUTUMN_EN, .rw, true⟩, ⟨1, 1, .pwr .CTRL_WINTER, .w1s, false⟩, ⟨2, 1, .pwr .CTRL_SPRING, .w1s, false⟩]⟩,
   ⟨.PWR_HB_TO, .glob, 0x8, [], .plain, false,
    [⟨0, 7, .pwr .HB_TO_MS, .rw, true⟩]⟩,
   ⟨.PWR_THR, .glob, 0xC, [], .plain, false,
    [⟨0, 7, .pwr .THR_TJ_WARN, .rw, true⟩]⟩,
   ⟨.PWR_INPUT, .glob, 0x10, [], .plain, false,
    [⟨0, 16, .pwr .INPUT_VIN, .ro, false⟩, ⟨16, 16, .pwr .INPUT_IIN, .ro, false⟩]⟩,
   ⟨.PWR_POWER, .glob, 0x14, [], .plain, false,
    [⟨0, 16, .pwr .POWER_PIN, .ro, false⟩, ⟨16, 16, .pwr .POWER_PEAK, .rw, false⟩]⟩,
   ⟨.PWR_ENERGY_LO, .glob, 0x18, [], (.lo (.pwr .ENERGY)), false,
    []⟩,
   ⟨.PWR_ENERGY_HI, .glob, 0x1C, [], (.hi (.pwr .ENERGY)), false,
    []⟩,
   ⟨.PWR_DIPS, .glob, 0x20, [], .plain, false,
    [⟨0, 16, .pwr .DIPS_DIPS, .ro, false⟩]⟩,
   ⟨.PWR_GATE, .glob, 0x40, [(0x4, 2)], .plain, false,
    [⟨0, 16, .pwr .GATE_CLUSTERS, .ro, false⟩, ⟨16, 4, .pwr .GATE_REGIONS, .ro, false⟩]⟩,
   ⟨.PWR_TEMP, .glob, 0x100, [(0x4, 12)], .plain, false,
    [⟨0, 12, .pwr .TEMP_TEMP, .ro, false⟩, ⟨16, 1, .pwr .TEMP_WARN, .ro, false⟩, ⟨31, 1, .pwr .TEMP_VALID, .ro, false⟩]⟩,
   ⟨.PWR_RAIL, .glob, 0x200, [(0x4, 9)], .plain, false,
    [⟨0, 16, .pwr .RAIL_MV, .ro, false⟩, ⟨16, 1, .pwr .RAIL_IN_WINDOW, .ro, false⟩]⟩]

/-- The registers of the TTH block. -/
def tthRegs : List RegDef :=
  [
   ⟨.TTH_KA_TO, .glob, 0x0, [], .plain, false,
    [⟨0, 10, .tth .KA_TO_MS, .rw, true⟩]⟩,
   ⟨.TTH_HO_TO, .glob, 0x4, [], .plain, false,
    [⟨0, 10, .tth .HO_TO_MS, .rw, true⟩]⟩]

/-- The registers of the CCH block. -/
def cchRegs : List RegDef :=
  [
   ⟨.CCH_CTRL, .chan, 0x0, [], .plain, false,
    [⟨0, 1, .cch .CTRL_START, .w1s, false⟩, ⟨1, 1, .cch .CTRL_STOP, .w1s, false⟩, ⟨2, 1, .cch .CTRL_MOVE_DIE, .w1s, false⟩, ⟨3, 1, .cch .CTRL_HANDOVER, .w1s, false⟩, ⟨4, 2, .cch .CTRL_HO_MODULE, .rw, false⟩, ⟨8, 4, .cch .CTRL_HO_SLOT, .rw, true⟩, ⟨12, 1, .cch .CTRL_HOME_DIE, .ro, true⟩, ⟨13, 1, .cch .CTRL_ALT_DIE, .rw, true⟩, ⟨16, 4, .cch .CTRL_PRIORITY, .rw, true⟩]⟩,
   ⟨.CCH_FMT, .chan, 0x4, [], .plain, true,
    [⟨0, 2, .cch .FMT_WORK, .rw, true⟩, ⟨2, 3, .cch .FMT_DOMAIN, .rw, true⟩, ⟨5, 2, .cch .FMT_CHROMA, .rw, true⟩, ⟨7, 2, .cch .FMT_DEPTH, .rw, true⟩, ⟨12, 12, .cch .FMT_WIDTH, .rw, true⟩]⟩,
   ⟨.CCH_TIME, .chan, 0x8, [], .plain, true,
    [⟨0, 11, .cch .TIME_OFS, .rw, true⟩, ⟨12, 4, .cch .TIME_REL_WIN, .rw, true⟩, ⟨16, 6, .cch .TIME_TILE_GRP, .rw, true⟩, ⟨22, 2, .cch .TIME_TILE_IDX, .rw, true⟩, ⟨24, 2, .cch .TIME_TILE_CNT_M1, .rw, true⟩]⟩,
   ⟨.CCH_FLOW, .chan, 0xC, [], .plain, true,
    [⟨0, 12, .cch .FLOW_IN_FLOW, .rw, true⟩, ⟨16, 12, .cch .FLOW_OUT_FLOW, .rw, true⟩]⟩,
   ⟨.CCH_RTP, .chan, 0x10, [], .plain, true,
    [⟨0, 7, .cch .RTP_ELC_PT, .rw, true⟩, ⟨8, 7, .cch .RTP_HEVC_PT, .rw, true⟩, ⟨16, 14, .cch .RTP_PAYLOAD_MAX, .rw, true⟩, ⟨30, 1, .cch .RTP_HDR_REPEAT, .rw, true⟩, ⟨31, 1, .cch .RTP_FB_EN, .rw, true⟩]⟩,
   ⟨.CCH_SSRC, .chan, 0x14, [], .plain, true,
    [⟨0, 32, .cch .SSRC_SSRC, .rw, true⟩]⟩,
   ⟨.CCH_FB, .chan, 0x18, [], .plain, true,
    [⟨0, 16, .cch .FB_FB_PORT, .rw, true⟩, ⟨16, 6, .cch .FB_FB_HOLD, .rw, true⟩, ⟨22, 8, .cch .FB_FULL_HOLD, .rw, true⟩]⟩,
   ⟨.CCH_HEVC, .chan, 0x1C, [], .plain, true,
    [⟨0, 2, .cch .HEVC_HEVC_PROFILE, .rw, true⟩, ⟨2, 1, .cch .HEVC_HEVC_TIER, .rw, true⟩, ⟨3, 1, .cch .HEVC_PS_REPEAT, .rw, true⟩, ⟨4, 1, .cch .HEVC_HASH_SEI, .rw, true⟩, ⟨5, 8, .cch .HEVC_HEVC_LEVEL, .rw, true⟩, ⟨13, 11, .cch .HEVC_IDR_PERIOD, .rw, true⟩]⟩,
   ⟨.CCH_DON, .chan, 0x20, [], .plain, true,
    [⟨0, 15, .cch .DON_MAX_DON_DIFF, .rw, true⟩]⟩,
   ⟨.CCH_STATUS, .chan, 0x24, [], .plain, false,
    [⟨0, 3, .cch .STATUS_STATE, .ro, false⟩, ⟨3, 1, .cch .STATUS_HOMED, .ro, false⟩, ⟨4, 1, .cch .STATUS_CFG_REFUSED, .w1c, false⟩, ⟨5, 1, .cch .STATUS_TILE_MISMATCH, .w1c, false⟩, ⟨8, 4, .cch .STATUS_REASON, .ro, false⟩, ⟨12, 3, .cch .STATUS_STRIPES_M1, .ro, false⟩, ⟨16, 16, .cch .STATUS_COST, .ro, false⟩]⟩,
   ⟨.CCH_OUT, .chan, 0x28, [], .plain, true,
    [⟨0, 7, .cch .OUT_OUT_PT, .rw, true⟩]⟩,
   ⟨.CCH_OUT_SSRC, .chan, 0x2C, [], .plain, true,
    [⟨0, 32, .cch .OUT_SSRC_OUT_SSRC, .rw, true⟩]⟩,
   ⟨.CCH_UNIT, .chan, 0x40, [(0x4, 8)], .plain, false,
    [⟨0, 8, .cch .UNIT_UNIT, .ro, false⟩, ⟨16, 16, .cch .UNIT_OFS, .ro, false⟩]⟩,
   ⟨.CCH_CNT_LO, .chan, 0x80, [(0x8, 5)], (.lo (.cch .CNT)), false,
    []⟩,
   ⟨.CCH_CNT_HI, .chan, 0x84, [(0x8, 5)], (.hi (.cch .CNT)), false,
    []⟩]

/-- The registers of the CUS block. -/
def cusRegs : List RegDef :=
  [
   ⟨.CUS_STALL_TO, .die, 0x0, [], .plain, false,
    [⟨0, 14, .cus .STALL_TO_UNIT, .rw, true⟩, ⟨16, 14, .cus .STALL_TO_CLUSTER, .rw, true⟩]⟩,
   ⟨.CUS_CFG, .die, 0x4, [], .plain, false,
    [⟨0, 16, .cus .CFG_RETIRE_WIN, .rw, true⟩, ⟨16, 1, .cus .CFG_PERSIST, .rw, true⟩]⟩,
   ⟨.CUS_CAP, .die, 0x8, [], .plain, false,
    [⟨0, 17, .cus .CAP_BOOKABLE, .ro, false⟩, ⟨17, 7, .cus .CAP_IN_SERVICE, .ro, false⟩, ⟨24, 5, .cus .CAP_SPARES, .ro, false⟩]⟩,
   ⟨.CUS_BOOKED, .die, 0xC, [], .plain, false,
    [⟨0, 17, .cus .BOOKED_BOOKED, .ro, false⟩]⟩,
   ⟨.CUS_UNIT, (.lin 80), 0x100, [(0x4, 80)], .plain, false,
    [⟨0, 3, .cus .UNIT_STATE, .ro, true⟩, ⟨3, 1, .cus .UNIT_PERSISTED, .ro, false⟩, ⟨4, 4, .cus .UNIT_FAILS, .ro, false⟩, ⟨8, 8, .cus .UNIT_LOAD, .ro, false⟩, ⟨16, 3, .cus .UNIT_DOMAIN, .ro, false⟩, ⟨19, 1, .cus .UNIT_HEVC, .ro, false⟩, ⟨20, 1, .cus .UNIT_REEXEC, .ro, false⟩, ⟨31, 1, .cus .UNIT_RETIRE, .w1s, false⟩]⟩,
   ⟨.CUS_CLUSTER, (.lin 16), 0x300, [(0x4, 16)], .plain, false,
    [⟨0, 1, .cus .CLUSTER_SHADOW_OK, .ro, false⟩, ⟨1, 1, .cus .CLUSTER_CABAC_OK, .ro, false⟩, ⟨2, 1, .cus .CLUSTER_LINEBUF_OK, .ro, false⟩, ⟨3, 1, .cus .CLUSTER_SPARE_IDLE, .ro, false⟩, ⟨4, 3, .cus .CLUSTER_SPARE, .ro, false⟩, ⟨8, 10, .cus .CLUSTER_CABAC_LOAD, .ro, false⟩]⟩,
   ⟨.CUS_CNT_LO, .die, 0x400, [(0x8, 8)], (.lo (.cus .CNT)), false,
    []⟩,
   ⟨.CUS_CNT_HI, .die, 0x404, [(0x8, 8)], (.hi (.cus .CNT)), false,
    []⟩]

/-- The registers of the QRC block. -/
def qrcRegs : List RegDef :=
  [
   ⟨.QRC_CFG, .chan, 0x0, [], .plain, true,
    [⟨0, 6, .qrc .CFG_QI, .rw, true⟩, ⟨8, 6, .qrc .CFG_QP_MIN, .rw, true⟩, ⟨16, 6, .qrc .CFG_QP_MAX, .rw, true⟩, ⟨24, 3, .qrc .CFG_CAP_ROWS_M1, .rw, true⟩, ⟨27, 1, .qrc .CFG_MASK_EN, .rw, true⟩]⟩,
   ⟨.QRC_CAP, .chan, 0x4, [], .plain, true,
    [⟨0, 25, .qrc .CAP_CAP_KBPS, .rw, true⟩]⟩,
   ⟨.QRC_MASK, .chan, 0x8, [], .plain, true,
    [⟨0, 16, .qrc .MASK_MASK_K, .rw, true⟩, ⟨16, 12, .qrc .MASK_MASK_MIN, .rw, true⟩]⟩,
   ⟨.QRC_TUNE, .chan, 0xC, [], .plain, true,
    [⟨0, 13, .qrc .TUNE_CHROMA_W, .rw, true⟩, ⟨16, 16, .qrc .TUNE_REPAY_MAX, .rw, true⟩]⟩,
   ⟨.QRC_STATUS, .chan, 0x10, [], .plain, false,
    [⟨0, 6, .qrc .STATUS_QI_ACT, .ro, false⟩, ⟨8, 3, .qrc .STATUS_RUNG_PEAK, .ro, false⟩, ⟨12, 1, .qrc .STATUS_SEEDED, .ro, false⟩, ⟨13, 1, .qrc .STATUS_MODEL_LATE, .w1c, false⟩, ⟨14, 1, .qrc .STATUS_DEBT_POISONED, .w1c, false⟩, ⟨16, 16, .qrc .STATUS_BPB_AVG, .ro, false⟩]⟩,
   ⟨.QRC_DEBT, .chan, 0x14, [], .plain, false,
    [⟨0, 16, .qrc .DEBT_DEBT_BLOCKS, .ro, false⟩]⟩,
   ⟨.QRC_SEED, .chan, 0x20, [(0x4, 8)], .plain, false,
    [⟨0, 7, .qrc .SEED_OFS, .rw, true⟩, ⟨16, 16, .qrc .SEED_BPB, .rw, true⟩]⟩,
   ⟨.QRC_MODEL, .chan, 0x40, [(0x4, 8)], .plain, false,
    [⟨0, 7, .qrc .MODEL_OFS, .ro, false⟩, ⟨16, 16, .qrc .MODEL_BPB, .ro, false⟩]⟩,
   ⟨.QRC_CNT_LO, .chan, 0x80, [(0x8, 8)], (.lo (.qrc .CNT)), false,
    []⟩,
   ⟨.QRC_CNT_HI, .chan, 0x84, [(0x8, 8)], (.hi (.qrc .CNT)), false,
    []⟩]

/-- The registers of the REF block. -/
def refRegs : List RegDef :=
  [
   ⟨.REF_CFG, .chan, 0x0, [], .plain, true,
    [⟨0, 1, .ref .CFG_KEEP_LT, .rw, true⟩, ⟨4, 4, .ref .CFG_FLAG_EXT_ID, .rw, true⟩, ⟨8, 1, .ref .CFG_FLAG_ALL, .rw, true⟩]⟩,
   ⟨.REF_STATUS, .chan, 0x4, [], .plain, false,
    [⟨0, 1, .ref .STATUS_NO_BUFFER, .w1c, false⟩, ⟨1, 1, .ref .STATUS_FLAGGED, .w1c, false⟩, ⟨2, 1, .ref .STATUS_SB_BAD, .w1c, false⟩, ⟨8, 8, .ref .STATUS_POOL_BUFS, .ro, false⟩]⟩,
   ⟨.REF_OUT_FLAGS, .chan, 0x8, [], .plain, false,
    [⟨0, 1, .ref .OUT_FLAGS_LOSS, .ro, false⟩, ⟨1, 1, .ref .OUT_FLAGS_POISON, .ro, false⟩, ⟨2, 1, .ref .OUT_FLAGS_SUBST, .ro, false⟩, ⟨3, 1, .ref .OUT_FLAGS_GREY, .ro, false⟩, ⟨4, 1, .ref .OUT_FLAGS_TRUNC, .ro, false⟩, ⟨5, 1, .ref .OUT_FLAGS_HASH, .ro, false⟩, ⟨6, 1, .ref .OUT_FLAGS_HDR_LOST, .ro, false⟩, ⟨7, 1, .ref .OUT_FLAGS_SRC_POISON, .ro, false⟩, ⟨8, 1, .ref .OUT_FLAGS_INHERITED, .ro, false⟩, ⟨16, 16, .ref .OUT_FLAGS_PIC_ID, .ro, false⟩]⟩,
   ⟨.REF_POISON, .chan, 0xC, [], .plain, false,
    [⟨0, 24, .ref .POISON_LINES, .ro, false⟩]⟩,
   ⟨.REF_CTRL, .chan, 0x28, [], .plain, false,
    [⟨0, 1, .ref .CTRL_DROP_LT, .w1s, false⟩]⟩,
   ⟨.REF_SLOT, .chan, 0x10, [(0x4, 6)], .plain, false,
    [⟨0, 2, .ref .SLOT_MARK, .ro, false⟩, ⟨2, 1, .ref .SLOT_COMPLETE, .ro, false⟩, ⟨3, 1, .ref .SLOT_POISONED, .ro, false⟩, ⟨4, 1, .ref .SLOT_SUBST, .ro, false⟩, ⟨5, 1, .ref .SLOT_GREY, .ro, false⟩, ⟨16, 16, .ref .SLOT_PIC_ID, .ro, false⟩]⟩,
   ⟨.REF_CNT_LO, .chan, 0x80, [(0x8, 16)], (.lo (.ref .CNT)), false,
    []⟩,
   ⟨.REF_CNT_HI, .chan, 0x84, [(0x8, 16)], (.hi (.ref .CNT)), false,
    []⟩]

/-- The registers of the PRS block. -/
def prsRegs : List RegDef :=
  [
   ⟨.PRS_STALL_TO, .die, 0x0, [], .plain, false,
    [⟨0, 13, .prs .STALL_TO_STALL, .rw, true⟩]⟩,
   ⟨.PRS_PARSE_CFG, .die, 0x4, [], .plain, false,
    [⟨0, 9, .prs .PARSE_CFG_DEPTH, .rw, true⟩, ⟨9, 1, .prs .PARSE_CFG_RECIRC_EN, .rw, true⟩]⟩,
   ⟨.PRS_GEN_CTRL, .die, 0x8, [], .plain, false,
    [⟨0, 1, .prs .GEN_CTRL_PUBLISH, .w1s, false⟩, ⟨1, 1, .prs .GEN_CTRL_HO_EN, .rw, false⟩, ⟨4, 4, .prs .GEN_CTRL_HO_SLOT, .rw, false⟩]⟩,
   ⟨.PRS_GEN_STATUS, .die, 0xC, [], .plain, false,
    [⟨0, 16, .prs .GEN_STATUS_GEN, .ro, false⟩, ⟨16, 12, .prs .GEN_STATUS_INFLIGHT_OLD, .ro, false⟩, ⟨28, 1, .prs .GEN_STATUS_RETIRED, .ro, false⟩, ⟨29, 1, .prs .GEN_STATUS_PUB_PENDING, .ro, false⟩, ⟨30, 1, .prs .GEN_STATUS_PUB_BUSY, .w1c, false⟩, ⟨31, 1, .prs .GEN_STATUS_ACTIVE, .ro, false⟩]⟩,
   ⟨.PRS_NODE_ADDR, .die, 0x10, [], .plain, false,
    [⟨0, 16, .prs .NODE_ADDR_INDEX, .rw, false⟩, ⟨16, 1, .prs .NODE_ADDR_READ, .w1s, false⟩, ⟨17, 1, .prs .NODE_ADDR_WRITE, .w1s, false⟩]⟩,
   ⟨.PRS_NODE_LO, .die, 0x14, [], .plain, false,
    [⟨0, 32, .prs .NODE_LO_NODE_LO, .rw, false⟩]⟩,
   ⟨.PRS_NODE_HI, .die, 0x18, [], .plain, false,
    [⟨0, 32, .prs .NODE_HI_NODE_HI, .rw, false⟩]⟩,
   ⟨.PRS_MERGE_WIN, .die, 0x1C, [], .plain, false,
    [⟨0, 16, .prs .MERGE_WIN_WIN, .rw, true⟩]⟩,
   ⟨.PRS_RTP_KIND, .die, 0x28, [], .plain, false,
    [⟨0, 16, .prs .RTP_KIND_KIND, .rw, true⟩, ⟨16, 8, .prs .RTP_KIND_EN, .rw, true⟩]⟩,
   ⟨.PRS_TUN_CFG, .die, 0x2C, [], .plain, false,
    [⟨0, 16, .prs .TUN_CFG_TPID_X, .rw, true⟩, ⟨16, 16, .prs .TUN_CFG_VXLAN_PORT, .rw, true⟩]⟩,
   ⟨.PRS_PORT_CFG, .die, 0x20, [(0x4, 2)], .plain, false,
    [⟨0, 2, .prs .PORT_CFG_MODE, .rw, true⟩, ⟨4, 4, .prs .PORT_CFG_EN, .rw, true⟩, ⟨8, 4, .prs .PORT_CFG_LINK_UP, .ro, false⟩, ⟨16, 14, .prs .PORT_CFG_MTU, .rw, true⟩]⟩,
   ⟨.PRS_RTP_RANGE, .die, 0x40, [(0x4, 8)], .plain, false,
    [⟨0, 16, .prs .RTP_RANGE_LO, .rw, true⟩, ⟨16, 16, .prs .RTP_RANGE_HI, .rw, true⟩]⟩,
   ⟨.PRS_HASH_PROF, .die, 0x60, [(0x4, 8)], .plain, false,
    [⟨0, 31, .prs .HASH_PROF_FIELDS, .rw, true⟩, ⟨31, 1, .prs .HASH_PROF_SYM, .rw, true⟩]⟩,
   ⟨.PRS_ROOT, .die, 0x80, [(0x20, 2), (0x4, 8)], .plain, false,
    [⟨0, 16, .prs .ROOT_ROOT, .rw, true⟩, ⟨31, 1, .prs .ROOT_VALID, .rw, true⟩]⟩,
   ⟨.PRS_IFSET, .die, 0xC0, [(0x20, 2), (0x4, 8)], .plain, false,
    [⟨0, 3, .prs .IFSET_FIRST_TREE, .rw, true⟩, ⟨16, 16, .prs .IFSET_DEFAULT, .rw, true⟩]⟩,
   ⟨.PRS_CNT_LO, .die, 0x100, [(0x8, 16)], (.lo (.prs .CNT)), false,
    []⟩,
   ⟨.PRS_CNT_HI, .die, 0x104, [(0x8, 16)], (.hi (.prs .CNT)), false,
    []⟩,
   ⟨.PRS_IND, .die, 0x1000, [(0x800, 2), (0x4, 512)], .plain, false,
    [⟨0, 2, .prs .IND_TYPE, .rw, true⟩, ⟨2, 5, .prs .IND_TARGET, .rw, true⟩]⟩,
   ⟨.PRS_MERGE, .die, 0x4000, [(0x4, 2048)], .plain, false,
    [⟨0, 12, .prs .MERGE_FLOW_A, .rw, true⟩, ⟨16, 12, .prs .MERGE_FLOW_B, .rw, true⟩, ⟨29, 2, .prs .MERGE_SEQ, .rw, true⟩, ⟨31, 1, .prs .MERGE_EN, .rw, true⟩]⟩,
   ⟨.PRS_MERGE_STAT, .die, 0x6000, [(0x4, 2048)], .plain, false,
    [⟨0, 16, .prs .MERGE_STAT_SKEW_MAX, .ro, false⟩, ⟨16, 1, .prs .MERGE_STAT_A_OK, .ro, false⟩, ⟨17, 1, .prs .MERGE_STAT_B_OK, .ro, false⟩, ⟨18, 1, .prs .MERGE_STAT_RESYNC, .w1c, false⟩]⟩]

/-- The registers of the FWD block. -/
def fwdRegs : List RegDef :=
  [
   ⟨.FWD_STATUS, .die, 0x0, [], .plain, false,
    [⟨0, 1, .fwd .STATUS_READY, .ro, false⟩, ⟨1, 1, .fwd .STATUS_RT_LOST, .w1c, false⟩, ⟨2, 1, .fwd .STATUS_SWEEP_ACTIVE, .ro, false⟩, ⟨3, 1, .fwd .STATUS_PARITY, .ro, false⟩]⟩,
   ⟨.FWD_CMD_TO, .die, 0x4, [], .plain, false,
    [⟨0, 14, .fwd .CMD_TO_TO, .rw, true⟩]⟩,
   ⟨.FWD_AGE_PERIOD, .die, 0x8, [], .plain, false,
    [⟨0, 10, .fwd .AGE_PERIOD_PERIOD, .rw, true⟩]⟩,
   ⟨.FWD_RT_CFG, .die, 0xC, [], .plain, false,
    [⟨0, 12, .fwd .RT_CFG_DEF_HANDLE, .rw, true⟩, ⟨12, 1, .fwd .RT_CFG_DEF_EN, .rw, true⟩]⟩,
   ⟨.FWD_BR_CFG, .die, 0x10, [], .plain, false,
    [⟨0, 8, .fwd .BR_CFG_LEARN_EN, .rw, true⟩, ⟨8, 1, .fwd .BR_CFG_VID_EN, .rw, true⟩]⟩,
   ⟨.FWD_BR_FLOOD, .die, 0x14, [], .plain, false,
    [⟨0, 16, .fwd .BR_FLOOD_FLOOD, .rw, true⟩]⟩,
   ⟨.FWD_OCC_RT, .die, 0x18, [], .plain, false,
    [⟨0, 15, .fwd .OCC_RT_V4, .ro, false⟩, ⟨16, 13, .fwd .OCC_RT_V6, .ro, false⟩]⟩,
   ⟨.FWD_OCC_BR, .die, 0x1C, [], .plain, false,
    [⟨0, 16, .fwd .OCC_BR_ENTRIES, .ro, false⟩, ⟨16, 16, .fwd .OCC_BR_STATIC, .ro, false⟩]⟩,
   ⟨.FWD_RT_CMD, .die, 0x20, [], .plain, false,
    [⟨0, 3, .fwd .RT_CMD_OP, .rw, false⟩, ⟨3, 1, .fwd .RT_CMD_FAMILY, .rw, false⟩, ⟨4, 1, .fwd .RT_CMD_BUSY, .ro, false⟩, ⟨5, 1, .fwd .RT_CMD_LOST, .w1c, false⟩, ⟨8, 3, .fwd .RT_CMD_STATUS, .ro, false⟩, ⟨16, 16, .fwd .RT_CMD_INDEX, .rw, false⟩]⟩,
   ⟨.FWD_RT_KEY0, .die, 0x24, [], .plain, false,
    [⟨0, 32, .fwd .RT_KEY0_KEY0, .rw, false⟩]⟩,
   ⟨.FWD_RT_KEY1, .die, 0x28, [], .plain, false,
    [⟨0, 32, .fwd .RT_KEY1_KEY1, .rw, false⟩]⟩,
   ⟨.FWD_RT_DATA, .die, 0x2C, [], .plain, false,
    [⟨0, 12, .fwd .RT_DATA_HANDLE, .rw, false⟩, ⟨16, 7, .fwd .RT_DATA_MATCH_LEN, .ro, false⟩]⟩,
   ⟨.FWD_FL_CMD, .die, 0x40, [], .plain, false,
    [⟨0, 3, .fwd .FL_CMD_OP, .rw, false⟩, ⟨4, 1, .fwd .FL_CMD_BUSY, .ro, false⟩, ⟨5, 1, .fwd .FL_CMD_LOST, .w1c, false⟩, ⟨8, 3, .fwd .FL_CMD_STATUS, .ro, false⟩, ⟨16, 16, .fwd .FL_CMD_INDEX, .rw, false⟩]⟩,
   ⟨.FWD_FL_DATA_LO, .die, 0x44, [], .plain, false,
    [⟨0, 32, .fwd .FL_DATA_LO_ENTRY_LO, .rw, false⟩]⟩,
   ⟨.FWD_FL_DATA_HI, .die, 0x48, [], .plain, false,
    [⟨0, 32, .fwd .FL_DATA_HI_ENTRY_HI, .rw, false⟩]⟩,
   ⟨.FWD_BR_CMD, .die, 0x60, [], .plain, false,
    [⟨0, 3, .fwd .BR_CMD_OP, .rw, false⟩, ⟨4, 1, .fwd .BR_CMD_BUSY, .ro, false⟩, ⟨5, 1, .fwd .BR_CMD_LOST, .w1c, false⟩, ⟨8, 3, .fwd .BR_CMD_STATUS, .ro, false⟩, ⟨16, 16, .fwd .BR_CMD_INDEX, .rw, false⟩]⟩,
   ⟨.FWD_BR_KEY_LO, .die, 0x64, [], .plain, false,
    [⟨0, 32, .fwd .BR_KEY_LO_MAC_LO, .rw, false⟩]⟩,
   ⟨.FWD_BR_KEY_HI, .die, 0x68, [], .plain, false,
    [⟨0, 16, .fwd .BR_KEY_HI_MAC_HI, .rw, false⟩, ⟨16, 12, .fwd .BR_KEY_HI_VID, .rw, false⟩]⟩,
   ⟨.FWD_BR_DATA, .die, 0x6C, [], .plain, false,
    [⟨0, 4, .fwd .BR_DATA_IF, .rw, false⟩, ⟨4, 1, .fwd .BR_DATA_STATIC, .rw, false⟩, ⟨5, 1, .fwd .BR_DATA_HIT, .rw, false⟩, ⟨6, 1, .fwd .BR_DATA_AGE, .rw, false⟩, ⟨7, 1, .fwd .BR_DATA_SWEEP, .rw, false⟩, ⟨31, 1, .fwd .BR_DATA_VALID, .rw, false⟩]⟩,
   ⟨.FWD_CNT_LO, .die, 0x100, [(0x8, 16)], (.lo (.fwd .CNT)), false,
    []⟩,
   ⟨.FWD_CNT_HI, .die, 0x104, [(0x8, 16)], (.hi (.fwd .CNT)), false,
    []⟩]

/-- The registers of the SHP block. -/
def shpRegs : List RegDef :=
  [
   ⟨.SHP_STATUS, .die, 0x0, [], .plain, false,
    [⟨0, 1, .shp .STATUS_READY, .ro, false⟩, ⟨1, 1, .shp .STATUS_SEQ_RESTORED, .ro, false⟩, ⟨2, 1, .shp .STATUS_TPL_BAD, .w1c, false⟩]⟩,
   ⟨.SHP_TPL_ADDR, .die, 0x4, [], .plain, false,
    [⟨0, 5, .shp .TPL_ADDR_WORD, .rw, false⟩, ⟨5, 1, .shp .TPL_ADDR_PLANE, .rw, false⟩, ⟨6, 12, .shp .TPL_ADDR_HANDLE, .rw, false⟩, ⟨30, 1, .shp .TPL_ADDR_READ, .w1s, false⟩, ⟨31, 1, .shp .TPL_ADDR_WRITE, .w1s, false⟩]⟩,
   ⟨.SHP_TPL_DATA, .die, 0x8, [], .plain, false,
    [⟨0, 32, .shp .TPL_DATA_DATA, .rw, false⟩]⟩,
   ⟨.SHP_CNT_LO, .die, 0x100, [(0x8, 10)], (.lo (.shp .CNT)), false,
    []⟩,
   ⟨.SHP_CNT_HI, .die, 0x104, [(0x8, 10)], (.hi (.shp .CNT)), false,
    []⟩,
   ⟨.SHP_BKT_CFG, .die, 0x10000, [(0x10, 4160)], .plain, true,
    [⟨0, 3, .shp .BKT_CFG_MODE, .rw, true⟩, ⟨3, 1, .shp .BKT_CFG_RESET_FILL, .rw, true⟩, ⟨4, 1, .shp .BKT_CFG_SENDER_W, .rw, true⟩, ⟨5, 4, .shp .BKT_CFG_W_GROUP_M1, .rw, true⟩, ⟨16, 4, .shp .BKT_CFG_HO_SLOT, .rw, true⟩, ⟨20, 1, .shp .BKT_CFG_HO_EN, .rw, true⟩, ⟨24, 8, .shp .BKT_CFG_OVERHEAD, .rw, true⟩]⟩,
   ⟨.SHP_BKT_RATE, .die, 0x10004, [(0x10, 4160)], .plain, true,
    [⟨0, 29, .shp .BKT_RATE_RATE, .rw, true⟩]⟩,
   ⟨.SHP_BKT_BURST, .die, 0x10008, [(0x10, 4160)], .plain, true,
    [⟨0, 25, .shp .BKT_BURST_BURST, .rw, true⟩]⟩,
   ⟨.SHP_BKT_STATUS, .die, 0x1000C, [(0x10, 4160)], .plain, false,
    [⟨0, 1, .shp .BKT_STATUS_APPLY, .w1s, false⟩, ⟨1, 1, .shp .BKT_STATUS_CFG_ERR, .w1c, false⟩, ⟨2, 1, .shp .BKT_STATUS_NEG, .ro, false⟩, ⟨8, 24, .shp .BKT_STATUS_TOKENS, .ro, false⟩]⟩,
   ⟨.SHP_TPL_CFG, .die, 0x30000, [(0x4, 4096)], .plain, true,
    [⟨0, 7, .shp .TPL_CFG_L3_OFS, .rw, true⟩, ⟨7, 1, .shp .TPL_CFG_IPV6, .rw, true⟩, ⟨8, 7, .shp .TPL_CFG_L4_OFS, .rw, true⟩, ⟨15, 1, .shp .TPL_CFG_RESEQ, .rw, true⟩, ⟨16, 8, .shp .TPL_CFG_PLANE_B, .rw, true⟩, ⟨24, 3, .shp .TPL_CFG_TC, .rw, true⟩]⟩,
   ⟨.SHP_SEQ, .die, 0x34000, [(0x4, 4096)], .plain, false,
    [⟨0, 32, .shp .SEQ_NEXT, .rw, true⟩]⟩]

/-- The registers of the PDK block. -/
def pdkRegs : List RegDef :=
  [
   ⟨.PDK_STATUS, .die, 0x0, [], .plain, false,
    [⟨0, 1, .pdk .STATUS_CELL_READY, .ro, false⟩, ⟨1, 1, .pdk .STATUS_DRAM_READY, .ro, false⟩, ⟨2, 1, .pdk .STATUS_CARVE_ERR, .w1c, false⟩, ⟨3, 1, .pdk .STATUS_RSV_ERR, .w1c, false⟩, ⟨4, 1, .pdk .STATUS_HLOST, .w1c, false⟩, ⟨5, 1, .pdk .STATUS_CELL_LOW, .ro, false⟩]⟩,
   ⟨.PDK_CELL, .die, 0x4, [], .plain, false,
    [⟨0, 18, .pdk .CELL_FREE, .ro, false⟩, ⟨18, 14, .pdk .CELL_QUAR, .ro, false⟩]⟩,
   ⟨.PDK_CELL_THR, .die, 0x8, [], .plain, false,
    [⟨0, 17, .pdk .CELL_THR_THR, .rw, true⟩]⟩,
   ⟨.PDK_HREQ, .die, 0x10, [(0x10, 2)], .plain, false,
    []⟩,
   ⟨.PDK_HFREE, .die, 0x14, [(0x10, 2)], .plain, false,
    []⟩,
   ⟨.PDK_HRES, .die, 0x18, [(0x10, 2)], .plain, false,
    [⟨0, 22, .pdk .HRES_HANDLE, .ro, false⟩, ⟨24, 3, .pdk .HRES_STATUS, .ro, false⟩, ⟨31, 1, .pdk .HRES_VALID, .ro, false⟩]⟩,
   ⟨.PDK_CNT_LO, .die, 0x100, [(0x8, 10)], (.lo (.pdk .CNT)), false,
    []⟩,
   ⟨.PDK_CNT_HI, .die, 0x104, [(0x8, 10)], (.hi (.pdk .CNT)), false,
    []⟩,
   ⟨.PDK_OWN_CFG, .die, 0x400, [(0x4, 64)], .plain, false,
    [⟨0, 3, .pdk .OWN_CFG_GROUP, .rw, true⟩, ⟨4, 3, .pdk .OWN_CFG_MAX_UP, .rw, true⟩]⟩,
   ⟨.PDK_OWN_CELL, .die, 0x500, [(0x8, 64)], .plain, false,
    [⟨0, 17, .pdk .OWN_CELL_RSV, .rw, true⟩, ⟨17, 15, .pdk .OWN_CELL_MAX, .rw, true⟩]⟩,
   ⟨.PDK_OWN_CHELD, .die, 0x504, [(0x8, 64)], .plain, false,
    [⟨0, 17, .pdk .OWN_CHELD_HELD, .ro, false⟩, ⟨17, 11, .pdk .OWN_CHELD_PEAK, .rw, false⟩]⟩,
   ⟨.PDK_OWN_RSV, .die, 0x1000, [(0x20, 64), (0x4, 8)], .plain, false,
    [⟨0, 16, .pdk .OWN_RSV_RSV, .rw, true⟩, ⟨16, 16, .pdk .OWN_RSV_HELD, .ro, false⟩]⟩,
   ⟨.PDK_CLS, (.lin 4), 0x1800, [(0x40, 4), (0x8, 8)], .plain, false,
    [⟨0, 16, .pdk .CLS_COUNT, .ro, true⟩, ⟨16, 16, .pdk .CLS_FREE, .ro, false⟩]⟩,
   ⟨.PDK_CLS_THR, (.lin 4), 0x1804, [(0x40, 4), (0x8, 8)], .plain, false,
    [⟨0, 16, .pdk .CLS_THR_THR, .rw, true⟩, ⟨16, 1, .pdk .CLS_THR_LOW, .ro, false⟩]⟩]

/-- The registers of the DMC block. -/
def dmcRegs : List RegDef :=
  [
   ⟨.DMC_STATUS, .die, 0x0, [], .plain, false,
    [⟨0, 4, .dmc .STATUS_TRAINED, .ro, false⟩, ⟨4, 4, .dmc .STATUS_LOST, .ro, false⟩, ⟨8, 1, .dmc .STATUS_READY, .ro, false⟩, ⟨9, 1, .dmc .STATUS_RT_SAT, .ro, false⟩, ⟨10, 1, .dmc .STATUS_SCRUB_PAUSED, .ro, false⟩, ⟨11, 1, .dmc .STATUS_TRAIN_FAIL, .w1c, false⟩]⟩,
   ⟨.DMC_CFG, .die, 0x4, [], .plain, false,
    [⟨0, 12, .dmc .CFG_SCRUB_LINES, .rw, true⟩, ⟨12, 8, .dmc .CFG_ERASE_THR, .rw, true⟩, ⟨20, 1, .dmc .CFG_ERASE_PERSIST, .rw, true⟩, ⟨21, 4, .dmc .CFG_BE_SHARE, .rw, true⟩]⟩,
   ⟨.DMC_AGE_CAP, .die, 0x8, [], .plain, false,
    [⟨0, 5, .dmc .AGE_CAP_CAP, .rw, true⟩]⟩,
   ⟨.DMC_REF_POSTPONE, .die, 0xC, [], .plain, false,
    [⟨0, 4, .dmc .REF_POSTPONE_MAX, .rw, true⟩]⟩,
   ⟨.DMC_XBAR_TO, .die, 0x10, [], .plain, false,
    [⟨0, 15, .dmc .XBAR_TO_TO, .rw, true⟩]⟩,
   ⟨.DMC_CNT_LO, .die, 0x100, [(0x8, 12)], (.lo (.dmc .CNT)), false,
    []⟩,
   ⟨.DMC_CNT_HI, .die, 0x104, [(0x8, 12)], (.hi (.dmc .CNT)), false,
    []⟩,
   ⟨.DMC_GRP_STATUS, (.lin 4), 0x200, [(0x40, 4)], .plain, false,
    [⟨0, 2, .dmc .GRP_STATUS_MODE, .ro, false⟩, ⟨2, 3, .dmc .GRP_STATUS_ERASED_DEV, .ro, false⟩, ⟨5, 2, .dmc .GRP_STATUS_REF_RATE, .ro, false⟩, ⟨7, 4, .dmc .GRP_STATUS_REF_DEBT, .ro, false⟩, ⟨11, 1, .dmc .GRP_STATUS_INIT_DONE, .ro, false⟩, ⟨12, 1, .dmc .GRP_STATUS_RETRAINING, .ro, false⟩, ⟨16, 16, .dmc .GRP_STATUS_PASS, .ro, false⟩]⟩,
   ⟨.DMC_GRP_CTRL, (.lin 4), 0x204, [(0x40, 4)], .plain, false,
    [⟨0, 3, .dmc .GRP_CTRL_DEV, .rw, false⟩, ⟨3, 1, .dmc .GRP_CTRL_FORCE_ERASE, .w1s, false⟩]⟩,
   ⟨.DMC_SCRUB_POS, (.lin 4), 0x208, [(0x40, 4)], .plain, false,
    [⟨0, 24, .dmc .SCRUB_POS_LINE, .ro, false⟩]⟩,
   ⟨.DMC_POISON_LAST, (.lin 4), 0x20C, [(0x40, 4)], .plain, false,
    [⟨0, 24, .dmc .POISON_LAST_LINE, .ro, false⟩, ⟨24, 4, .dmc .POISON_LAST_MASK, .ro, false⟩, ⟨31, 1, .dmc .POISON_LAST_LOG_LOST, .w1c, false⟩]⟩,
   ⟨.DMC_PASR, (.lin 4), 0x210, [(0x40, 4)], .plain, false,
    [⟨0, 8, .dmc .PASR_KEEP, .ro, false⟩]⟩,
   ⟨.DMC_DEV_ERR, (.lin 4), 0x220, [(0x40, 4), (0x4, 6)], .plain, false,
    [⟨0, 16, .dmc .DEV_ERR_PASS_ERR, .ro, false⟩, ⟨16, 16, .dmc .DEV_ERR_TOTAL, .ro, false⟩]⟩]

/-- The registers of the DMA block. -/
def dmaRegs : List RegDef :=
  [
   ⟨.DMA_STATUS, .die, 0x0, [], .plain, false,
    [⟨0, 2, .dma .STATUS_LEVEL, .ro, false⟩]⟩,
   ⟨.DMA_CNT_LO, .die, 0x100, [(0x8, 7)], (.lo (.dma .CNT)), false,
    []⟩,
   ⟨.DMA_CNT_HI, .die, 0x104, [(0x8, 7)], (.hi (.dma .CNT)), false,
    []⟩,
   ⟨.DMA_Q_CFG, .die, 0x1000, [(0x20, 32)], .plain, false,
    [⟨0, 1, .dma .Q_CFG_EN, .rw, true⟩, ⟨1, 2, .dma .Q_CFG_OWNER, .rw, true⟩, ⟨3, 2, .dma .Q_CFG_MODE, .rw, true⟩, ⟨8, 4, .dma .Q_CFG_RING_LOG2, .rw, true⟩, ⟨12, 2, .dma .Q_CFG_PRIO, .rw, true⟩]⟩,
   ⟨.DMA_Q_RING_LO, .die, 0x1004, [(0x20, 32)], .plain, false,
    [⟨6, 26, .dma .Q_RING_LO_BASE_LO, .rw, true⟩]⟩,
   ⟨.DMA_Q_RING_HI, .die, 0x1008, [(0x20, 32)], .plain, false,
    [⟨0, 32, .dma .Q_RING_HI_BASE_HI, .rw, true⟩]⟩,
   ⟨.DMA_Q_TAIL, .die, 0x100C, [(0x20, 32)], .plain, false,
    [⟨0, 16, .dma .Q_TAIL_TAIL, .rw, false⟩]⟩,
   ⟨.DMA_Q_HEAD, .die, 0x1010, [(0x20, 32)], .plain, false,
    [⟨0, 16, .dma .Q_HEAD_HEAD, .ro, false⟩]⟩,
   ⟨.DMA_Q_TO, .die, 0x1014, [(0x20, 32)], .plain, false,
    [⟨0, 16, .dma .Q_TO_TO, .rw, true⟩]⟩,
   ⟨.DMA_Q_STATUS, .die, 0x1018, [(0x20, 32)], .plain, false,
    [⟨0, 1, .dma .Q_STATUS_IDLE, .ro, false⟩, ⟨1, 1, .dma .Q_STATUS_HALTED, .ro, false⟩, ⟨2, 1, .dma .Q_STATUS_FETCH_ERR, .w1c, false⟩, ⟨3, 1, .dma .Q_STATUS_RESTARTED, .w1c, false⟩, ⟨4, 8, .dma .Q_STATUS_LAST_STATUS, .ro, false⟩, ⟨16, 7, .dma .Q_STATUS_RX_WAIT, .ro, false⟩]⟩,
   ⟨.DMA_Q_CTRL, .die, 0x101C, [(0x20, 32)], .plain, false,
    [⟨0, 1, .dma .Q_CTRL_RESUME, .w1s, false⟩, ⟨1, 1, .dma .Q_CTRL_RESET, .w1s, false⟩]⟩]

/-- The registers of the CHK block. -/
def chkRegs : List RegDef :=
  [
   ⟨.CHK_CFG, .die, 0x100, [(0x40, 8)], .plain, false,
    [⟨0, 2, .chk .CFG_POLY, .rw, true⟩, ⟨2, 2, .chk .CFG_FOLD_W_M1, .rw, true⟩, ⟨8, 1, .chk .CFG_POISON, .rw, false⟩]⟩,
   ⟨.CHK_CTRL, .die, 0x104, [(0x40, 8)], .plain, false,
    [⟨0, 1, .chk .CTRL_START, .w1s, false⟩, ⟨1, 1, .chk .CTRL_FINISH, .w1s, false⟩, ⟨2, 1, .chk .CTRL_HELD, .ro, false⟩, ⟨3, 1, .chk .CTRL_LOST, .w1c, false⟩]⟩,
   ⟨.CHK_DATA, .die, 0x108, [(0x40, 8)], .plain, false,
    []⟩,
   ⟨.CHK_DATA_B, .die, 0x10C, [(0x40, 8)], .plain, false,
    []⟩,
   ⟨.CHK_FOLD, .die, 0x110, [(0x40, 8)], .plain, false,
    []⟩,
   ⟨.CHK_VAL, .die, 0x114, [(0x40, 8)], .plain, false,
    [⟨0, 32, .chk .VAL_VAL, .rw, false⟩]⟩,
   ⟨.CHK_CNT, .die, 0x118, [(0x40, 8)], .plain, false,
    [⟨0, 32, .chk .CNT_CNT, .rw, false⟩]⟩,
   ⟨.CHK_RES, .die, 0x11C, [(0x40, 8)], .plain, false,
    [⟨0, 32, .chk .RES_RES, .ro, false⟩]⟩,
   ⟨.CHK_RSTAT, .die, 0x120, [(0x40, 8)], .plain, false,
    [⟨0, 16, .chk .RSTAT_FIN_COUNT, .ro, false⟩, ⟨30, 1, .chk .RSTAT_POISON, .ro, false⟩, ⟨31, 1, .chk .RSTAT_VALID, .ro, false⟩]⟩]

/-- The registers of the OST block. -/
def ostRegs : List RegDef :=
  [
   ⟨.OST_STATUS, .die, 0x0, [], .plain, false,
    [⟨0, 3, .ost .STATUS_STATE, .ro, false⟩, ⟨4, 4, .ost .STATUS_CLASS, .ro, false⟩, ⟨8, 3, .ost .STATUS_SHED_LEVEL, .ro, false⟩, ⟨11, 1, .ost .STATUS_OVERLOAD, .ro, false⟩, ⟨16, 4, .ost .STATUS_DEPTH, .ro, false⟩, ⟨24, 8, .ost .STATUS_BUSY, .ro, false⟩]⟩,
   ⟨.OST_WDOG, .die, 0x4, [], .plain, false,
    [⟨0, 10, .ost .WDOG_MS, .rw, true⟩]⟩,
   ⟨.OST_SHED, .die, 0x8, [], .plain, false,
    [⟨0, 16, .ost .SHED_LAT, .rw, true⟩, ⟨16, 8, .ost .SHED_BUSY_HI, .rw, true⟩]⟩,
   ⟨.OST_MC, .die, 0xC, [], .plain, false,
    [⟨0, 14, .ost .MC_PC, .ro, false⟩, ⟨14, 4, .ost .MC_CLASS, .ro, false⟩, ⟨18, 5, .ost .MC_CAUSE, .ro, false⟩, ⟨31, 1, .ost .MC_VALID, .w1c, false⟩]⟩,
   ⟨.OST_CLASS, .die, 0x40, [(0x4, 10)], .plain, false,
    [⟨0, 10, .ost .CLASS_PENDING, .ro, false⟩, ⟨16, 1, .ost .CLASS_SUSPENDED, .ro, false⟩, ⟨24, 8, .ost .CLASS_STEP, .ro, false⟩]⟩,
   ⟨.OST_CNT_LO, .die, 0x100, [(0x8, 12)], (.lo (.ost .CNT)), false,
    []⟩,
   ⟨.OST_CNT_HI, .die, 0x104, [(0x8, 12)], (.hi (.ost .CNT)), false,
    []⟩]


/-- The blocks of the BAR (R506, R507), and the space that no block holds (R509). -/
inductive Blk where
  | mid | hpt | evc | flt | trs | fwu | pwr | tth
  | cch | cus | qrc | ref | prs | fwd | shp | pdk | dmc | dma | chk | ost
  | empty
  deriving DecidableEq, Repr

/-- The registers of a block. -/
def Blk.regs (b : Blk) : List RegDef :=
  match b with
  | .mid => midRegs
  | .hpt => hptRegs
  | .evc => evcRegs
  | .flt => fltRegs
  | .trs => trsRegs
  | .fwu => fwuRegs
  | .pwr => pwrRegs
  | .tth => tthRegs
  | .cch => cchRegs
  | .cus => cusRegs
  | .qrc => qrcRegs
  | .ref => refRegs
  | .prs => prsRegs
  | .fwd => fwdRegs
  | .shp => shpRegs
  | .pdk => pdkRegs
  | .dmc => dmcRegs
  | .dma => dmaRegs
  | .chk => chkRegs
  | .ost => ostRegs
  | .empty => []

/-- A place in the BAR: the block, the die of its window if it lies in one, and the offset in the block. -/
structure Place where
  blk : Blk
  die : Option Nat
  off : Nat
  deriving DecidableEq, Repr

/-- The blocks of a die window with their offsets (R507), last first. -/
def dieBlocks : List (Nat × Blk) :=
  [(0x100000, .ost), (0xF0000, .chk), (0xE0000, .dma), (0xD0000, .dmc), (0xC0000, .pdk), (0x80000, .shp),
   (0x50000, .fwd), (0x40000, .prs), (0x30000, .ref), (0x20000, .qrc), (0x10000, .cus), (0, .cch)]

/-- The module blocks with their bases (R506), last first; nothing lies from 0x0010_0000 to the die windows. -/
def globBlocks : List (Nat × Blk) :=
  [(0x3000000, .tth), (0x100000, .empty), (0xC0000, .pwr), (0x80000, .fwu), (0x40000, .trs), (0x30000, .flt),
   (0x20000, .evc), (0x10000, .hpt), (0, .mid)]

/-- The entry of a block list that holds an offset. -/
def blockAt (l : List (Nat × Blk)) (off : Nat) : Nat × Blk := (l.find? (fun p => p.1 ≤ off)).getD (0, .empty)

/-- The place that a BAR offset names (R506 to R509). -/
def placeOf (addr : Nat) : Place :=
  if 0x1000000 ≤ addr ∧ addr < 0x3000000 then
    let d := addr / 0x1000000 - 1
    let off := addr % 0x1000000
    let b := blockAt dieBlocks off
    ⟨b.2, some d, off - b.1⟩
  else
    let b := blockAt globBlocks addr
    ⟨b.2, none, addr - b.1⟩

/-- The indexes at which a register with these strides holds an offset past its base. -/
def strideIndex (st : List (Nat × Nat)) (x : Nat) : Option (Nat × Nat) :=
  match st with
  | [] => if x = 0 then some (0, 0) else none
  | [(s, c)] => if x % s = 0 ∧ x / s < c then some (x / s, 0) else none
  | (s, c) :: (t, e) :: _ =>
    if x / s < c ∧ x % s % t = 0 ∧ x % s / t < e then some (x / s, x % s / t) else none

/-- A register found at an address, with the indexes of its fields. -/
structure Loc where
  rd  : RegDef
  die : Option Nat
  i   : Nat
  j   : Nat
  k   : Nat
  deriving DecidableEq, Repr

/-- The register, if any, of a list at a place of the BAR. -/
def findIn (l : List RegDef) (p : Place) : Option Loc :=
  match l with
  | [] => none
  | r :: t =>
    let off := match r.mode with
      | .chan => p.off % 0x100
      | _ => p.off
    let ix := if r.off ≤ off then strideIndex r.strides (off - r.off) else none
    match ix with
    | none => findIn t p
    | some (a, b) =>
      match r.mode with
      | .glob => some ⟨r, p.die, a, b, 0⟩
      | .chan => if p.off / 0x100 < 48 then some ⟨r, p.die, p.off / 0x100, a, 0⟩ else none
      | .die => some ⟨r, p.die, p.die.getD 0, a, b⟩
      | .lin n => some ⟨r, p.die, n * p.die.getD 0 + a, b, 0⟩

/-- The register at a BAR offset, if one lies there (R508, R509). -/
def findReg (addr : Nat) : Option Loc :=
  if addr % 4 = 0 then findIn (placeOf addr).blk.regs (placeOf addr) else none

end Sys2Proof.Machine
end

