-- ==== Sys2Proof/Machine/Store.lean ====
section
/-!
DEFINITION. The register store: one list of (key, value) pairs in canonical form that holds every register field
and every hidden scalar of the machine. A key that is not listed reads as its reset value, so the store of the
machine right after reset is empty.
-/

namespace Sys2Proof.Machine

/-- The name of one stored value: a field and its indexes. -/
structure Key where
  fld : Fld
  i   : Nat := 0
  j   : Nat := 0
  k   : Nat := 0
  deriving DecidableEq, Repr

/-- The value of a key at reset.
DESIGN CHOICE, log 3. -/
def Key.reset (k : Key) : Nat := k.fld.reset k.i k.j

/-- A value as the field of a key can hold it: cut to the field's width, where it has one. -/
def Key.cut (k : Key) (v : Nat) : Nat := if k.fld.width = 0 then v else v % 2 ^ k.fld.width

/-- The order of the store: by field, then by the indexes. -/
def Key.lt (a b : Key) : Bool :=
  if a.fld.code ≠ b.fld.code then Nat.blt a.fld.code b.fld.code
  else if a.i ≠ b.i then Nat.blt a.i b.i
  else if a.j ≠ b.j then Nat.blt a.j b.j
  else Nat.blt a.k b.k

theorem Key.lt_iff (a b : Key) : Key.lt a b = true ↔
    a.fld.code < b.fld.code ∨ a.fld.code = b.fld.code ∧ (a.i < b.i ∨ a.i = b.i ∧
      (a.j < b.j ∨ a.j = b.j ∧ a.k < b.k)) := by
  unfold Key.lt
  split
  · rw [Nat.blt_eq]; omega
  · split
    · rw [Nat.blt_eq]; omega
    · split
      · rw [Nat.blt_eq]; omega
      · rw [Nat.blt_eq]; omega

theorem keyOrder : KeyOrder Key.lt where
  trans a b c h1 h2 := by
    rw [Key.lt_iff] at *
    omega
  irrefl a := by
    cases h : Key.lt a a with
    | false => rfl
    | true => rw [Key.lt_iff] at h; omega
  total a b h1 h2 := by
    have h : ¬ Key.lt a b = true := by simp [h1]
    rw [Key.lt_iff] at *
    by_contra h3
    apply h2
    have hc : a.fld = b.fld := Fld.code_inj (by omega)
    have hi : a.i = b.i := by omega
    have hj : a.j = b.j := by omega
    have hk : a.k = b.k := by omega
    cases a; cases b; simp_all

/-- The canonical form of the store's list: keys rising, and no listed value equal to the key's reset value. -/
def Store.wf (l : List (Key × Nat)) : Bool :=
  decide (AssocSorted Key.lt l) && l.all (fun c => decide (c.2 ≠ c.1.reset))

/-- The register store. -/
structure Store where
  cells : List (Key × Nat)
  ok    : Store.wf cells = true
  deriving DecidableEq, Repr

theorem Store.wf_iff {l : List (Key × Nat)} :
    Store.wf l = true ↔ AssocSorted Key.lt l ∧ ∀ c ∈ l, c.2 ≠ c.1.reset := by
  simp [Store.wf, List.all_eq_true]

theorem Store.wf_erase {l : List (Key × Nat)} (h : Store.wf l = true) (a : Key) :
    Store.wf (assocErase l a) = true := by
  rw [Store.wf_iff] at *
  exact ⟨assocSorted_erase h.1 a, fun c hc => h.2 c (List.mem_of_mem_filter hc)⟩

theorem Store.wf_insert {l : List (Key × Nat)} (h : Store.wf l = true) (a : Key) {v : Nat}
    (hv : v ≠ a.reset) : Store.wf (assocInsert Key.lt l a v) = true := by
  rw [Store.wf_iff] at *
  refine ⟨assocSorted_insert keyOrder h.1 a v, fun c hc => ?_⟩
  rcases assocInsert_mem hc with rfl | hc
  · exact hv
  · exact h.2 c hc

theorem Store.wf_filter {l : List (Key × Nat)} (h : Store.wf l = true) (p : Key × Nat → Bool) :
    Store.wf (l.filter p) = true := by
  rw [Store.wf_iff] at *
  exact ⟨List.Pairwise.filter _ h.1, fun c hc => h.2 c (List.mem_of_mem_filter hc)⟩

/-- The store right after reset. -/
def Store.empty : Store := ⟨[], by decide⟩

/-- The value of a key. -/
def Store.get (m : Store) (a : Key) : Nat := (assocGet m.cells a).getD a.reset

/-- The store with one key set, cut to its width. -/
def Store.set (m : Store) (a : Key) (v : Nat) : Store :=
  if hv : a.cut v = a.reset then ⟨assocErase m.cells a, Store.wf_erase m.ok a⟩
  else ⟨assocInsert Key.lt m.cells a (a.cut v), Store.wf_insert m.ok a hv⟩

/-- The store with every key that fails `p` back at its reset value. -/
def Store.keep (m : Store) (p : Key → Bool) : Store :=
  ⟨m.cells.filter (fun c => p c.1), Store.wf_filter m.ok _⟩

/-- The keys of one field that are not at their reset value, in order. -/
def Store.keysOf (m : Store) (f : Fld) : List Key :=
  (m.cells.filter (fun c => decide (c.1.fld = f))).map (·.1)

@[simp] theorem Store.get_empty (a : Key) : Store.empty.get a = a.reset := rfl

@[simp] theorem Store.get_set_same (m : Store) (a : Key) (v : Nat) : (m.set a v).get a = a.cut v := by
  unfold Store.set Store.get
  split
  · rename_i h; simp [assocGet_erase_same, h]
  · simp [assocGet_insert_same]

theorem Store.get_set_other (m : Store) {a b : Key} (v : Nat) (h : b ≠ a) : (m.set a v).get b = m.get b := by
  unfold Store.set Store.get
  split
  · simp [assocGet_erase_other _ h]
  · simp [assocGet_insert_other _ _ h]

theorem assocGet_filter {α β : Type} [DecidableEq α] (l : List (α × β)) (p : α → Bool) (a : α) :
    assocGet (l.filter (fun c => p c.1)) a = if p a then assocGet l a else none := by
  induction l with
  | nil => simp [assocGet]
  | cons q t ih =>
    obtain ⟨x, y⟩ := q
    by_cases hx : x = a
    · subst hx
      cases h : p x
      · simpa [List.filter_cons, h] using ih
      · simp [h, assocGet]
    · cases h : p x
      · simpa [List.filter_cons, h, assocGet, hx] using ih
      · simpa [List.filter_cons, h, assocGet, hx] using ih

theorem Store.get_keep (m : Store) (p : Key → Bool) (a : Key) :
    (m.keep p).get a = if p a then m.get a else a.reset := by
  unfold Store.keep Store.get
  rw [assocGet_filter]
  split <;> simp

end Sys2Proof.Machine
end

