-- ==== Sys2Proof/Machine/State.lean ====
section
/-!
DEFINITION. The state of the E48 as plain data: the queue of waiting commands, the clock, the register store, the
byte memories, the ordered lists that the rules give the machine, and what the last command sent out of the module.
-/

namespace Sys2Proof.Machine

/-- An entry of a target's event FIFO (R372, R374): its 24 data bits, its poison tag and its LOST mark. -/
structure FifoEntry where
  tgt    : Nat
  data   : Nat
  poison : Bool
  lost   : Bool
  deriving DecidableEq, Repr

/-- An active claim (R364): the source, the target that claimed it, its SEQ, and the local-oscillator edge on
which its timeout expires (R370). -/
structure Claim where
  src : Nat
  tgt : Nat
  seq : Nat
  due : Nat
  deriving DecidableEq, Repr

/-- What the parser leaves with a frame for its later stages (R214, R215, R217): the offset of its RTP header, the RTP
kind, the offset of the ST 2110-20 or ELC payload header, the parse flags, the version, source and destination of the
last IP header, and the ports of the last UDP header. -/
structure Meta where
  rtp   : Option Nat
  kind  : Nat
  ext   : Option Nat
  flags : Nat
  ver   : Nat
  src   : Nat
  dst   : Nat
  sport : Nat
  dport : Nat
  deriving DecidableEq, Repr

/-- A chain of cells (R293): the frame it holds, its holder, and the number of copies that refer to it. `data` is the
frame without its FCS; `poison` lists its poisoned bytes; `mark` tells that policing marked it drop-eligible (R234);
`ts` is the ingress timestamp of R45, `arr` the local oscillator at arrival. -/
structure Chain where
  id     : Nat
  die    : Nat
  holder : Nat
  refs   : Nat
  cells  : Nat
  data   : List Byte
  iface  : Nat
  ts     : Nat
  arr    : Nat
  poison : List Nat
  mark   : Bool
  info   : Meta
  deriving DecidableEq, Repr

/-- A copy on its way to an interface (R268, R276): it waits for its per-flow bucket (`wait`), for its raster release
(`raster` without `due`), or for its interface. `out` marks a channel's output packet, whose chain holds it from the
RTP header on, with its numbers (R281), and `dom` the domain in which its flow is paced (R56). `host` marks a frame of a DMA queue or of the Ostler. -/
structure Copy where
  chain  : Nat
  die    : Nat
  iface  : Nat
  tc     : Nat
  handle : Option Nat
  wait   : Bool
  raster : Bool
  due    : Bool
  relAt  : Nat
  ch     : Nat
  dom    : Nat
  row    : Nat
  ix     : Nat
  out    : Bool
  host   : Bool
  seq    : Nat
  ipid   : Nat
  own    : Nat
  deriving DecidableEq, Repr

/-- A copy that crosses the inter-die link to die `dst`, to be delivered there under a flow handle, or for a bridged or
spread frame to the interfaces of a mask (R248, R250). -/
structure Cross where
  dst    : Nat
  handle : Option Nat
  mask   : Nat
  tc     : Nat
  data   : List Byte
  iface  : Nat
  ts     : Nat
  arr    : Nat
  poison : List Nat
  mark   : Bool
  info   : Meta
  raster : Bool
  due    : Bool
  relAt  : Nat
  ch     : Nat
  dom    : Nat
  row    : Nat
  ix     : Nat
  out    : Bool
  seq    : Nat
  ipid   : Nat
  own    : Nat
  deriving DecidableEq, Repr

/-- A copy that a merge pair holds (R236), with the local-oscillator edge at which its window ends (R66). -/
structure MHeld where
  die   : Nat
  pair  : Nat
  seq   : Nat
  planeB : Bool
  ts    : Nat
  arr   : Nat
  due   : Nat
  chain : Nat
  tc    : Nat
  crossed : Bool
  deriving DecidableEq, Repr

/-- A number that a merge pair has released (`rel`), or of which a copy came too late, with the plane and timestamp of the
copy (R236, R237). -/
structure MDone where
  die    : Nat
  pair   : Nat
  seq    : Nat
  planeB : Bool
  ts     : Nat
  rel    : Bool
  deriving DecidableEq, Repr

/-- A learn request of a bridge (R251). -/
structure Learn where
  die   : Nat
  vid   : Nat
  mac   : Nat
  iface : Nat
  deriving DecidableEq, Repr

/-- An inserted prefix of a route trie (R242): family 0 is IPv4, 1 is IPv6; `pfx` holds the family's address bits. -/
structure Route where
  die    : Nat
  fam    : Nat
  len    : Nat
  pfx    : Nat
  handle : Nat
  deriving DecidableEq, Repr

/-- A held class buffer (R284, R287): module-wide group, class, index and owner. -/
structure Buf where
  grp   : Nat
  cls   : Nat
  ix    : Nat
  owner : Nat
  deriving DecidableEq, Repr

/-- A frame in a recirculation queue (R220): its chain, the slot it is stamped with, where its second pass starts and
with which header (0 Ethernet, 1 IPv4, 2 IPv6), its tunnel type and its tunnel identifier. -/
structure Recirc where
  die    : Nat
  chain  : Nat
  slot   : Nat
  ofs    : Nat
  start  : Nat
  tunTyp : Nat
  tunId  : Nat
  deriving DecidableEq, Repr

/-- A frame that waits for a DMA queue (queue 0 to 31) or for the Ostler (32) of a die (R349, R224), with the flow
handle under which it was delivered, if any. -/
structure Rx where
  die    : Nat
  q      : Nat
  chain  : Nat
  handle : Option Nat
  deriving DecidableEq, Repr

/-- A packet that a channel has received and not yet consumed (R247, R186, R187): its chain and the offset of its RTP
header. -/
structure Inp where
  ch    : Nat
  chain : Nat
  rtp   : Nat
  deriving DecidableEq, Repr

/-- A coded stripe unit, or the slice segment of a CTU row, that waits for its row to commit (R194): its channel, picture,
row and stripe, and its bytes. -/
structure SUnit where
  ch     : Nat
  pic    : Nat
  row    : Nat
  stripe : Nat
  bytes  : List Byte
  deriving DecidableEq, Repr

/-- What a piece of a running descriptor's destination held before the descriptor wrote it: space (0 DRAM, else 1 + port),
address and bytes. A descriptor that halts its queue leaves a mix of old and new bytes (R348). -/
structure DmaUndo where
  die  : Nat
  q    : Nat
  sp   : Nat
  addr : Nat
  old  : List Byte
  deriving DecidableEq, Repr

/-- An entry of a group's poison log (R308): the line and its mask. -/
structure PLog where
  grp  : Nat
  la   : Nat
  mask : Nat
  deriving DecidableEq, Repr

/-- A quote request that the signing engine has not yet served (R431): 0 HA, 1 HB, 2 + l link l. -/
structure QuoteReq where
  who   : Nat
  nonce : List Byte
  agg   : Nat
  deriving DecidableEq, Repr

/-- What leaves the module. A read completion carries the party and the value; a frame carries its interface, its
bytes without FCS and whether its FCS is good. -/
inductive Out where
  /-- A register read completes with a value (R404). -/
  | read (party : Nat) (addr : Nat) (value : Nat)
  /-- A request completes with Unsupported Request (R400). -/
  | unsupported (party : Nat)
  /-- The event interrupt message of a host port (R399). -/
  | msix (port : Nat)
  /-- A configuration request is answered, with retry status or normally (R417). -/
  | config (port : Nat) (retry : Bool)
  /-- A frame leaves an interface (R276, R279); `good` is false for a frame cut short (R295, R468). -/
  | frame (iface : Nat) (bytes : List Byte) (good : Bool)
  /-- A frame in flight on an interface is cut (R465, R470). -/
  | cut (iface : Nat)
  /-- A Delay_Req, or under peer-to-peer a Pdelay_Req, leaves a port, with its sequence number (R42). -/
  | delayReq (port : Nat) (p2p : Bool) (seqId : Nat)
  /-- PPS_OUT rises at a whole TAI second, or falls after it (R53). -/
  | pps (second : Nat) (high : Bool)
  /-- An RTCP refresh request leaves for the sender of a channel's flow, from the address and port of the flow's
  receiving interface to the back-channel port (R89, R90, R92). -/
  | rtcp (ch ver src dst sport dport : Nat) (bytes : List Byte)
  /-- The levels driven on the FAULT lands (R467). -/
  | faultLands (p n : Bool)
  /-- A handover offer, reply or sequence number over Tether (R205, R473). -/
  | hoOffer (module : Nat) (o : Offer)
  | hoReply (link ch : Nat) (accept : Bool)
  | hoSeq (ch next : Nat)
  /-- The digest of a tile group over Tether (R206). -/
  | tileDigest (grp digest : Nat)
  /-- A quote for a Tether partner (R431). -/
  | quote (link : Nat) (bytes : List Byte)
  /-- The result of a block that a Tether partner sent (R440, R454). -/
  | blockResult (link block status : Nat)
  /-- A Tether link goes up or down (R25, R413, R465). -/
  | tetherLink (link : Nat) (up : Bool)
  /-- Every network lane stops transmitting (R465). -/
  | lanesOff
  /-- Rails come up or stop (R480, R481). -/
  | rails (on : Bool)
  /-- A DMA write into host memory (R339); `ep` tells that it carries poisoned bytes (R347). -/
  | dmaWrite (port addr : Nat) (bytes : List Byte) (ep : Bool)
  deriving DecidableEq, Repr

/-- Something that leaves by a lane, a Tether link or a DMA engine: none of it starts while the safe state holds (R465). -/
def Out.stopped (o : Out) : Bool :=
  match o with
  | .frame .. | .delayReq .. | .rtcp .. | .hoOffer .. | .hoReply .. | .hoSeq .. | .tileDigest .. | .quote ..
  | .blockResult .. | .dmaWrite .. => true
  | _ => false

/-- The machine's state. -/
structure State where
  /-- The commands that wait, first in, first out. -/
  pending : List Instr
  /-- Core-clock edges of the local oscillator since power good (R66). -/
  osc : Nat
  /-- The time base, in units of 2^-16 ns (R47). -/
  tb : Nat
  /-- The safe state holds (R465); `FLT_STATUS.SAFE`. -/
  safe : Bool
  /-- The model's own counter of free values taken. -/
  freeCtr : Nat
  /-- Every register field and hidden scalar. -/
  store : Store
  /-- The payload bytes of the lockstep groups: group * 2^32 + offset (R303). -/
  dram : Mem 0
  /-- The flash (R420). -/
  flash : Mem 0xFF
  /-- The Ostler stores as loaded: die * 2^20 + the byte of the microstore, from 2^16 on that of the nanostore (R382). -/
  stores : Mem 0
  /-- Host memory as the DMA engines see it: port * 2^64 + address (R335). -/
  host : Mem 0
  /-- The event FIFOs of the four targets, oldest first (R372). -/
  fifo : List FifoEntry
  /-- The active claims, oldest first (R364). -/
  claims : List Claim
  /-- The restarts of each die: the die and the local-oscillator edge (R471). -/
  restarts : List (Nat × Nat)
  /-- The configuration image in force (R426), and whether records loaded at all is `MID_CFG_IMG.NONE`. -/
  image : List Byte
  /-- The next free chain number. -/
  nextId : Nat
  /-- The cell chains of both dies (R293), oldest first. -/
  chains : List Chain
  /-- The copies that wait for egress (R276), in the order in which they were delivered. -/
  copies : List Copy
  /-- The copies on the inter-die link (R248), oldest first. -/
  cross : List Cross
  /-- What the merge pairs hold and have released (R236). -/
  mheld : List MHeld
  mdone : List MDone
  /-- The learn queues (R251), oldest first. -/
  learns : List Learn
  /-- The prefix lists (R242). -/
  routes : List Route
  /-- The held class buffers (R287). -/
  bufs : List Buf
  /-- The recirculation queues (R220), oldest first. -/
  recircs : List Recirc
  /-- The frames that wait for DMA queues and Ostlers (R349). -/
  rxs : List Rx
  /-- The packets that channels have received and not consumed, in order of delivery (R247). -/
  inputs : List Inp
  /-- The coded stripe units whose rows have not committed (R194). -/
  units : List SUnit
  /-- What running descriptors have overwritten (R348). -/
  undo : List DmaUndo
  /-- The poison logs of the lockstep groups, oldest first (R308). -/
  plog : List PLog
  /-- The quote requests in order of arrival (R431). -/
  quotes : List QuoteReq
  /-- What the last command sent out of the module. -/
  outs : List Out
  deriving DecidableEq, Repr

/-- Why a command stops the machine. No command of the table stops it: the spec gives each an effect. -/
inductive Fault where
  /-- A command that its table row's operand ranges do not admit (raised by nothing that the table issues; safe). -/
  | illFormed
  deriving DecidableEq, Repr

/-- Why a command has no meaning. -/
inductive Refusal where
  /-- The command has no meaning yet; raised by the dispatch arm of that command alone (safe: nothing can be
  proved about what it does). -/
  | notModelled (mnemonic : String)
  deriving DecidableEq, Repr

/-- The machine right after reset: power is good, RESET_N is high, Farrier has not started, and nothing is
written, queued or sent.
DESIGN CHOICE, log 2; DESIGN CHOICE, log 3; PRESUMED, log 4. -/
def State.reset : State where
  pending := []
  osc := 0
  tb := 0
  safe := false
  freeCtr := 0
  store := Store.empty
  dram := Mem.empty 0
  flash := Mem.empty 0xFF
  stores := Mem.empty 0
  host := Mem.empty 0
  fifo := []
  claims := []
  restarts := []
  image := []
  nextId := 0
  chains := []
  copies := []
  cross := []
  mheld := []
  mdone := []
  learns := []
  routes := []
  bufs := []
  recircs := []
  rxs := []
  inputs := []
  units := []
  undo := []
  plog := []
  quotes := []
  outs := []

end Sys2Proof.Machine
end

