-- ==== Sys2Proof/Machine/Ops.lean ====
section
/-!
DEFINITION. The named operations that every meaning is made of: reading and writing a field, counting, the
clock and its timeouts, what leaves the module, free values, and the form that every command's meaning has.
-/

namespace Sys2Proof.Machine

/-- The value of a field. -/
def State.get (s : State) (f : Fld) (i : Nat := 0) (j : Nat := 0) (k : Nat := 0) : Nat :=
  s.store.get ⟨f, i, j, k⟩

/-- The state with one field set. -/
def State.put (s : State) (f : Fld) (v : Nat) (i : Nat := 0) (j : Nat := 0) (k : Nat := 0) : State :=
  { s with store := s.store.set ⟨f, i, j, k⟩ v }

/-- A field read as a flag. -/
def State.flag (s : State) (f : Fld) (i : Nat := 0) (j : Nat := 0) (k : Nat := 0) : Bool :=
  s.get f i j k != 0

/-- The state with a flag set or cleared. -/
def State.putB (s : State) (f : Fld) (b : Bool) (i : Nat := 0) (j : Nat := 0) (k : Nat := 0) : State :=
  s.put f (if b then 1 else 0) i j k

/-- A count that wraps at the field's width. -/
def State.bump (s : State) (f : Fld) (i : Nat := 0) (j : Nat := 0) (k : Nat := 0) (n : Nat := 1) : State :=
  s.put f (s.get f i j k + n) i j k

/-- A count that saturates at the field's width. -/
def State.bumpSat (s : State) (f : Fld) (i : Nat := 0) (j : Nat := 0) (k : Nat := 0) (n : Nat := 1) : State :=
  s.put f (min (s.get f i j k + n) (2 ^ f.width - 1)) i j k

/-- A field read as a two's complement number of its width. -/
def State.int (s : State) (f : Fld) (i : Nat := 0) (j : Nat := 0) (k : Nat := 0) : Int :=
  signedOf f.width (s.get f i j k)

/-- A field set to a two's complement number of its width. -/
def State.putInt (s : State) (f : Fld) (v : Int) (i : Nat := 0) (j : Nat := 0) (k : Nat := 0) : State :=
  s.put f (toSigned f.width v) i j k

/-- Something leaves the module. -/
def State.emit (s : State) (o : Out) : State := { s with outs := s.outs ++ [o] }

/-- A value that the spec leaves open.
DESIGN CHOICE, log 5. -/
def State.free (s : State) : Nat × State := (Config.free s.freeCtr, { s with freeCtr := s.freeCtr + 1 })

/-- The state with every key that fails `p` back at its reset value. -/
def State.keepKeys (s : State) (p : Key → Bool) : State := { s with store := s.store.keep p }

/-- A step over a list of items. -/
def forEach {α : Type} (l : List α) (f : α → State → State) (s : State) : State := l.foldl (fun t a => f a t) s

/-- A step taken only under a condition. -/
def State.when (s : State) (b : Bool) (f : State → State) : State := if b then f s else s

/-- A value forced into a range, as R66 takes a value outside it: the nearest end. -/
def clampTo (lo hi v : Nat) : Nat := if v < lo then lo else if hi < v then hi else v

/-- The local oscillator has run `ns` nanoseconds since edge `start`: the core clock has 1.5 edges to the ns (R66).
DEDUCED, log 99. -/
def elapsedNs (start now ns : Nat) : Bool := decide (3 * ns ≤ 2 * (now - start))

/-- The local-oscillator edge at which a timeout of `ns` nanoseconds that starts now expires (R66). A timeout keeps
this edge, so a value written while it runs applies from its next start.
DEDUCED, log 99. -/
def State.dueIn (s : State) (ns : Nat) : Nat := s.osc + (3 * ns + 1) / 2

/-- A timeout whose edge is kept has expired; 0 stands for a timeout that does not run.
DEDUCED, log 99. -/
def State.expired (s : State) (f : Fld) (i : Nat := 0) (j : Nat := 0) : Bool :=
  s.get f i j != 0 && decide (s.get f i j ≤ s.osc)

/-- Nanoseconds in a microsecond, a millisecond and a second. -/
def usNs : Nat := 1000
def msNs : Nat := 1000000
def secNs : Nat := 1000000000

/-- Nanoseconds since power good. -/
def State.nsUp (s : State) : Nat := s.osc * 2 / 3

/-- The time base in whole TAI ns (R55). -/
def State.tai (s : State) : Nat := s.tb / 65536

/-- The time-base states (R47). -/
def tbFREE : Nat := 0
def tbLOCKING : Nat := 1
def tbLOCKED : Nat := 2
def tbHOLDOVER : Nat := 3
def tbUNLOCKED : Nat := 4

/-- `TRS_STATUS.STATE` (R47). -/
def State.tbState (s : State) : Nat := s.get (.trs .STATUS_STATE)

/-- The steering limit in ppm, taken into 1 to 200.
DEDUCED, log 10. -/
def State.slewMax (s : State) : Nat := clampTo 1 200 (s.get (.trs .CTRL_SLEW_MAX))

/-- The time base after the oscillator has run from edge `a` to edge `b`, when the command says that it stands at
`want`. In FREE it counts ns since power good; otherwise it is steered by frequency alone, by at most SLEW_MAX ppm of
the time elapsed (R48).
DEDUCED, log 10. -/
def steer (free : Bool) (slew tb a b want : Nat) : Nat :=
  if free then b * 2 / 3 * 65536
  else
    let e := (b - a) * 2 * 65536 / 3
    let d := e * slew / 1000000
    clampTo (tb + (e - d)) (tb + e + d) want

/-- An integer kept as a natural number. -/
def intCode (v : Int) : Nat := if v < 0 then 2 * (-v).toNat + 1 else 2 * v.toNat
def intDecode (n : Nat) : Int := if n % 2 = 1 then -((n / 2 : Nat) : Int) else ((n / 2 : Nat) : Int)

/-- The units of 2^-16 ns that `n` oscillator edges last at the nominal rate. -/
def oscUnits (n : Nat) : Nat := n * 2 * 65536 / 3

/-- The state runs with REF10 as its holdover source: REF10 or REF10_PPS chosen, or AUTO, with a reference present
(R50).
DESIGN CHOICE, log 108. -/
def State.ref10Holds (s : State) : Bool := s.get (.trs .CTRL_HOLD_SRC) != 1 && s.flag (.trs .STATUS_REF10_OK)

/-- The units that `n` oscillator edges last at the held frequency: that of the last interval in which the servo steered
the time base (R47), nominal before one.
DEDUCED, log 29. -/
def State.heldUnits (s : State) (n : Nat) : Nat :=
  let o := s.get (.trs .xF_OSC)
  if o = 0 then oscUnits n else n * s.get (.trs .xF_TB) / o

/-- The time base on the held frequency at an edge of the local oscillator (R47, R51). -/
def State.heldLine (s : State) (o : Nat) : Nat := s.get (.trs .xH_TB) + s.heldUnits (o - s.get (.trs .xH_OSC))

/-- What a trim of the phase moves by up to edge `o`: at most SLEW_MAX ppm of the time elapsed (R50). -/
def State.trimBy (s : State) (o : Nat) : Int :=
  let d : Int := (oscUnits (o - s.osc) * s.slewMax / 1000000 : Nat)
  max (-d) (min d (intDecode (s.get (.trs .xTRIM))))

/-- Where the time base stands at edge `o` when the command of that moment says `want`: steered by the servo in LOCKING
and LOCKED, on the held frequency in HOLDOVER and UNLOCKED; a 10 MHz reference keeps it within 1 us of that in HOLDOVER
(R47, R50, R51).
DEDUCED, log 29. -/
def State.tbWant (s : State) (o want : Nat) : Nat :=
  if s.tbState = tbUNLOCKED then s.heldLine o
  else if s.tbState = tbHOLDOVER then
    let line := ((s.heldLine o : Int) + s.trimBy o).toNat
    if s.ref10Holds then clampTo (line - 1000 * 65536) (line + 1000 * 65536) want else line
  else want

/-- What the clock's move keeps for a holdover: the frequency of the interval just steered, or the rest of a phase trim
(R47, R50).
DEDUCED, log 29. -/
def noteRate (o tb : Nat) (s : State) : State :=
  if s.tbState = tbLOCKING ∨ s.tbState = tbLOCKED then
    if s.osc < o then (s.put (.trs .xF_TB) (tb - s.tb)).put (.trs .xF_OSC) (o - s.osc) else s
  else if s.tbState = tbHOLDOVER ∧ s.get (.trs .xTRIM) ≠ 0 then
    let m := s.trimBy o
    (s.put (.trs .xTRIM) (intCode (intDecode (s.get (.trs .xTRIM)) - m))).put (.trs .xH_TB)
      ((s.get (.trs .xH_TB) : Int) + m).toNat
  else s

/-- The clock moved on to the moment of a time-driven command. It never runs backwards.
DEDUCED, log 10. -/
def State.clock (s : State) (n : Now) : State :=
  let o := max s.osc n.osc
  let tb := steer (s.tbState == tbFREE) s.slewMax s.tb s.osc o (s.tbWant o n.tb)
  { noteRate o tb s with osc := o, tb := tb }

/-- The module has power and RESET_N is high. -/
def State.live (s : State) : Bool := !s.flag (.pwr .xDOWN)

/-- What every command keeps of the state before it: the queue belongs to `step`; the safe state, once entered, is
left only by a power cycle or RESET_N (R459), and while it holds nothing starts on a lane or a Tether link (R465); and
the clock never runs back.
DEDUCED, log 9. -/
def State.commit (s t : State) : State :=
  { t with pending := s.pending, safe := s.safe || t.safe, osc := max s.osc t.osc,
           outs := if s.safe then t.outs.filter (fun o => !o.stopped) else t.outs }

/-- The form of a command's meaning. With no power or in reset nothing happens; otherwise the command has its
effect, and what it sends is `outs`.
DEDUCED, log 9. -/
def State.run (s : State) (f : State → State) : Host.Outcome State Fault Refusal :=
  .next (s.commit (if s.live then f { s with outs := [] } else { s with outs := [] }))

/-- The form of a command that acts on the supply or on RESET_N: it may end the safe state (R459).
DEDUCED, log 9. -/
def State.runPower (s : State) (f : State → State) : Host.Outcome State Fault Refusal :=
  .next { f { s with outs := [] } with pending := s.pending }

/-- The place of a work class in the shed order SCRUB, STAGE, SWEEP, FRAMES, MODEL (R394); 6 for a class that is never
shed. -/
def shedRank (c : Nat) : Nat :=
  match c with
  | 9 => 1
  | 7 => 2
  | 6 => 3
  | 8 => 4
  | 5 => 5
  | _ => 6

/-- The Ostler of a die sheds a class (R394). -/
def State.ostSheds (s : State) (d c : Nat) : Bool := decide (shedRank c ≤ s.get (.ost .STATUS_SHED_LEVEL) d)

/-- An item of work for a class of a die's Ostler (R392): discarded and counted where the class is shed, except STAGE,
whose item is counted and waits (R394). -/
def ostPost (d c : Nat) (s : State) : State :=
  let shed := s.ostSheds d c
  let s := s.when shed (fun s => s.bump (.ost .CNT) d (5 + shedRank c))
  if shed && c != 7 then s else s.bump (.ost .xITEMS) d c

end Sys2Proof.Machine
end

