-- ==== Sys2Proof/Machine/Evc.lean ====
section
/-!
DEFINITION. The event controller (chapter 15): sources, targets, delivery, claims and the event FIFOs. The operations
here are shared by every block that raises an event; the commands of the event family stand in Events.lean.
-/

namespace Sys2Proof.Machine

/-- A source of the stream class: 0 to 767 (R358). -/
def isStream (n : Nat) : Bool := decide (n < 768)

/-- The level sources: CELL_LOW, CLASS_LOW and THERMAL (R360). -/
def isLevelSrc (n : Nat) : Bool :=
  decide (n = 901) || decide (832 ≤ n ∧ n < 848 ∧ (n - 832) % 8 < 5)

/-- The reserved sources of the management class, which never assert (R360). -/
def isReservedSrc (n : Nat) : Bool :=
  decide (838 ≤ n ∧ n < 840) || decide (846 ≤ n ∧ n < 848) || decide (n = 883) || decide (n = 894) ||
  decide (n = 895) || decide (n = 897) || decide (904 ≤ n ∧ n < 912) || decide (1024 ≤ n)

/-- The software sources (R360). -/
def isSoftware (n : Nat) : Bool := decide (912 ≤ n ∧ n < 1024)

/-- The target that a source is routed to (R358). -/
def State.srcTarget (s : State) (n : Nat) : Nat := s.get (.evc .SRC_CFG_TARGET) n

/-- GROUP of a source at its target: PRIO >> BINPOINT (R363). -/
def State.srcGroup (s : State) (t n : Nat) : Nat :=
  s.get (.evc .SRC_CFG_PRIO) n / 2 ^ s.get (.evc .TGT_CTRL_BINPOINT) t

/-- SUB of a source at its target: the low BINPOINT bits of PRIO (R363). -/
def State.srcSub (s : State) (t n : Nat) : Nat :=
  s.get (.evc .SRC_CFG_PRIO) n % 2 ^ s.get (.evc .TGT_CTRL_BINPOINT) t

/-- The sources that a target has claimed and not completed. -/
def State.activeOf (s : State) (t : Nat) : List Nat := (s.claims.filter (fun c => c.tgt == t)).map (·.src)

/-- A source is claimed and not completed. -/
def State.srcActive (s : State) (n : Nat) : Bool := s.claims.any (fun c => c.src == n)

/-- The running level of a target (R363): the lowest GROUP among its active management sources, 256 for STREAM,
511 for IDLE. -/
def State.runLevel (s : State) (t : Nat) : Nat :=
  let act := s.activeOf t
  let man := (act.filter (fun n => !isStream n)).map (s.srcGroup t)
  match man with
  | [] => if act.isEmpty then 511 else 256
  | g :: l => l.foldl min g

/-- A pending source with EN 1 that is routed to a target is deliverable (R363). -/
def State.deliverable (s : State) (t n : Nat) : Bool :=
  s.flag (.evc .SRC_CFG_EN) n && s.srcTarget n == t &&
  if isStream n then s.flag (.evc .TGT_CTRL_STREAM_EN) t && s.runLevel t == 511
  else decide (s.srcGroup t n < s.runLevel t)

/-- The pending sources, in increasing number. -/
def State.pendingSrcs (s : State) : List Nat := (s.store.keysOf (.evc .SRC_CFG_PENDING)).map (·.i)

/-- `a` is claimed before `b` (R364). -/
def State.claimsBefore (s : State) (t a b : Nat) : Bool :=
  if isStream a != isStream b then !isStream a
  else if isStream a then decide (a < b)
  else if s.srcGroup t a ≠ s.srcGroup t b then decide (s.srcGroup t a < s.srcGroup t b)
  else if s.srcSub t a ≠ s.srcSub t b then decide (s.srcSub t a < s.srcSub t b)
  else decide (a < b)

/-- The source that a claim of a target would return, if any (R364). -/
def State.bestSrc (s : State) (t : Nat) : Option Nat :=
  if s.flag (.evc .TGT_CTRL_EN) t then
    (s.pendingSrcs.filter (s.deliverable t)).foldl
      (fun b n => match b with
        | none => some n
        | some m => if s.claimsBefore t n m then some n else some m) none
  else none

/-- The vector of a port is masked, or its MSI-X is disabled (R399). -/
def State.msixMasked (s : State) (n : Nat) : Bool :=
  s.get (.hpt .MSIX_WORD) n 3 % 2 == 1 || !s.flag (.hpt .xMSIX_EN) n

/-- The event interrupt message of a port: sent, or made pending while the vector is masked (R399). -/
def sendMsix (n : Nat) (s : State) : State :=
  if s.msixMasked n then s.put (.hpt .PBA_WORD) 1 n else s.emit (.msix n)

/-- A message that is pending is sent, once, when the vector may send it (R399).
PRESUMED, log 113. -/
def msixRelease (n : Nat) (s : State) : State :=
  s.when (s.flag (.hpt .PBA_WORD) n && !s.msixMasked n) (fun s => (s.put (.hpt .PBA_WORD) 0 n).emit (.msix n))

/-- A target's signal follows its deliverable sources, and a host port sends one message each time it rises
(R362, R368). -/
def settleTarget (t : Nat) (s : State) : State :=
  let up := (s.bestSrc t).isSome
  let was := s.flag (.evc .TGT_STATUS_SIGNAL) t
  let s := s.putB (.evc .TGT_STATUS_SIGNAL) up t
  if up && !was && decide (t < 2) then sendMsix t s else s

/-- Every target's signal, after a change of what is pending, active or enabled. -/
def settle (s : State) : State := settleTarget 3 (settleTarget 2 (settleTarget 1 (settleTarget 0 s)))

/-- The entries that a target's FIFO holds. -/
def State.fifoLevel (s : State) (t : Nat) : Nat := (s.fifo.filter (fun e => e.tgt == t)).length

/-- The threshold of a target's FIFO: values above 512 are taken as 512 (R376). -/
def State.fifoThr (s : State) (t : Nat) : Nat := min 512 (s.get (.evc .FIFO_CFG_THR) t)

/-- An entry written to a target's FIFO, or dropped and marked where the FIFO is full (R372, R374). -/
def fifoWrite (t data : Nat) (poison : Bool) (s : State) : State :=
  if s.fifoLevel t < 512 then
    let lost := s.flag (.evc .FIFO_STAT_LOST_PEND) t
    ({ s with fifo := s.fifo ++ [⟨t, data % 2 ^ 24, poison, lost⟩] } : State).put (.evc .FIFO_STAT_LOST_PEND) 0 t
  else (s.bump (.evc .CNT) t 5).put (.evc .FIFO_STAT_LOST_PEND) 1 t

/-- The entry that a hardware source writes at an assertion (R372): its number and its detail. -/
def srcEntry (n detail : Nat) (s : State) : State :=
  s.when (s.flag (.evc .SRC_CFG_FIFO_EN) n) (fifoWrite (s.srcTarget n) (n * 2 ^ 14 + detail % 2 ^ 14) false)

/-- PENDING of a pulse source sets, or the assertion merges into it and is counted (R361). -/
def srcPend (n : Nat) (s : State) : State :=
  if s.flag (.evc .SRC_CFG_PENDING) n then s.bump (.evc .CNT) (s.srcTarget n) 7
  else s.put (.evc .SRC_CFG_PENDING) 1 n

/-- The level of a target's FIFO has risen to its threshold since a state (R376). -/
def crossed (before after : State) (t : Nat) : Bool :=
  let thr := after.fifoThr t
  decide (1 ≤ thr ∧ before.fifoLevel t < thr ∧ thr ≤ after.fifoLevel t)

/-- FIFO_THR of a target pulses when its level crosses the threshold upward; the pulse writes its own entry and
may so bring another target's FIFO to its threshold, hence one pass for each target (R376, R360).
DESIGN CHOICE, log 39. -/
def thrPulse (before : State) (t : Nat) (s : State) : State :=
  if crossed before s t then
    srcPend (884 + t) (srcEntry (884 + t) (s.fifoLevel t) (s.put (.evc .FIFO_STAT_THR_HIT) 1 t))
  else s

/-- The FIFO thresholds after FIFO writes on an edge.
DESIGN CHOICE, log 39. -/
def thrAll (before s : State) : State :=
  let s1 := forEach [0, 1, 2, 3] (thrPulse before) s
  let again (t : Nat) (u : State) : State := if crossed before s t then u else thrPulse before t u
  forEach [0, 1, 2, 3] again s1

/-- A pulse source asserts with its FIFO detail (R361, R372). -/
def evPulse (n detail : Nat) (s : State) : State :=
  if isReservedSrc n then s
  else settle (thrAll s (srcPend n (srcEntry n detail s)))

/-- A level source is asserted or not (R361, R372): one entry on the edge on which it rises, and PENDING while it is
asserted and neither pending nor active. -/
def evLevel (n : Nat) (on : Bool) (detail : Nat) (s : State) : State :=
  let was := s.flag (.evc .SRC_CFG_ASSERTED) n
  let s1 := s.putB (.evc .SRC_CFG_ASSERTED) on n
  let s2 := if on && !was then thrAll s (srcEntry n detail s1) else s1
  let s3 := if on && !s2.flag (.evc .SRC_CFG_PENDING) n && !s2.srcActive n
    then s2.put (.evc .SRC_CFG_PENDING) 1 n else s2
  settle s3

/-- The level sources that are asserted and neither pending nor active pend (R361). -/
def levelRepend (n : Nat) (s : State) : State :=
  s.when (s.flag (.evc .SRC_CFG_ASSERTED) n && !s.flag (.evc .SRC_CFG_PENDING) n && !s.srcActive n)
    (fun s => s.put (.evc .SRC_CFG_PENDING) 1 n)

/-- The value of a claim or pop read that returns nothing (R364, R375). -/
def notValid : Nat := 2 ^ 31

/-- A claim read by the party that is the target, and the value it returns (R364). -/
def claimRead (t : Nat) (s : State) : Nat × State :=
  match s.bestSrc t with
  | none => (notValid, s.bump (.evc .CNT) t 1)
  | some n =>
    let seq := s.get (.evc .xCLAIM_CNT) t
    let nested := !(s.activeOf t).isEmpty
    let s := (s.put (.evc .SRC_CFG_PENDING) 0 n).bump (.evc .xCLAIM_CNT) t
    let s : State := { s with claims := s.claims ++ [⟨n, t, seq, s.dueIn (max 1 (s.get (.evc .CLAIM_TO_TO)) * usNs)⟩] }
    let s := s.bump (.evc .CNT) t 0
    let s := s.when nested (fun s => s.bump (.evc .CNT) t 2)
    (seq * 2 ^ 16 + n, settle s)

/-- A completion of a target: it ends the claim with its SOURCE and SEQ, and a host port with a deliverable source
left sends a new message (R365, R367). -/
def completeWrite (t src seq : Nat) (s : State) : State :=
  if s.claims.any (fun c => c.src == src && c.tgt == t && c.seq == seq) then
    let was := s.flag (.evc .TGT_STATUS_SIGNAL) t
    let s : State := { s with claims := s.claims.filter (fun c => !(c.src == src && c.tgt == t && c.seq == seq)) }
    let s := settle (levelRepend src s)
    s.when (was && decide (t < 2) && s.flag (.evc .TGT_STATUS_SIGNAL) t) (sendMsix t)
  else (s.put (.evc .TGT_STATUS_COMP_ERR) 1 t).bump (.evc .CNT) t 4

/-- A pop read by the party that is the target, and the value it returns (R375, R377). -/
def popRead (t : Nat) (parityBad : Bool) (s : State) : Nat × State :=
  match s.fifo.find? (fun e => e.tgt == t) with
  | none => (notValid, s)
  | some e =>
    let bad := e.poison || parityBad
    let s : State := { s with fifo := s.fifo.eraseP (fun x => x.tgt == t) }
    let s := s.when bad (fun s => s.bump (.evc .CNT) t 6)
    (e.data + (if bad then 2 ^ 24 else 0) + (if e.lost then 2 ^ 25 else 0), s)

/-- A push of data into a target's FIFO (R372). -/
def pushWrite (t data : Nat) (poison : Bool) (s : State) : State :=
  settle (thrAll s (fifoWrite t data poison s))

/-- A software source is set (R360, `EVC_SW_SET`). -/
def swSet (n : Nat) (s : State) : State := s.when (isSoftware n) (evPulse n 0)

/-- A software source that is not active is cleared (`EVC_SW_CLR`). -/
def swClr (n : Nat) (s : State) : State :=
  s.when (isSoftware n && !s.srcActive n) (fun s => settle (s.put (.evc .SRC_CFG_PENDING) 0 n))

/-- A flow event of a kind for a handle of a die asserts every slot that maps it (R359). -/
def flowEvent (d h kind : Nat) (s : State) : State :=
  let slots := ((s.store.keysOf (.evc .FLOW_MAP_VALID)).map (·.i)).filter (fun m =>
    s.get (.evc .FLOW_MAP_HANDLE) m == h && s.get (.evc .FLOW_MAP_DIE) m == d &&
    bitOf (s.get (.evc .FLOW_MAP_KINDS) m) kind)
  forEach slots (fun m => evPulse (384 + m) kind) s

/-- The die that a source belongs to, if it is a die source (R358): a channel's home die, the die of a flow slot,
or the die in the number of sources 768 to 863. -/
def State.srcDie (s : State) (n : Nat) : Option Nat :=
  if n < 384 then some (s.get (.cch .CTRL_HOME_DIE) (n / 8))
  else if n < 768 then some (s.get (.evc .FLOW_MAP_DIE) (n - 384))
  else if n < 832 then some ((n - 768) / 32)
  else if n < 848 then some ((n - 832) / 8)
  else if n < 864 then some ((n - 848) / 8)
  else none

end Sys2Proof.Machine
end

