-- ==== Sys2Proof/Machine/Operands.lean ====
section
/-!
DEFINITION. How bytes and bits make the values that the rules speak of: big-endian and little-endian numbers (R7), the
cyclic checks of the streams and structures (R72, R75), and comparison under the half-range rule (R55).
-/

namespace Sys2Proof.Machine

/-- The big-endian number that a list of bytes spells (R7). -/
def beNat (l : List Byte) : Nat := l.foldl (fun a b => a * 256 + b.toNat) 0

/-- The little-endian number that a list of bytes spells. -/
def leNat : List Byte → Nat
  | [] => 0
  | b :: t => b.toNat + 256 * leNat t

/-- `n` bytes of a number, most significant first. -/
def beBytes : Nat → Nat → List Byte
  | 0, _ => []
  | n + 1, v => BitVec.ofNat 8 (v / 256 ^ n) :: beBytes n v

/-- `n` bytes of a number, least significant first. -/
def leBytes : Nat → Nat → List Byte
  | 0, _ => []
  | n + 1, v => BitVec.ofNat 8 v :: leBytes n (v / 256)

/-- `n` bytes of a list from an offset. -/
def slice (l : List Byte) (off n : Nat) : List Byte := (l.drop off).take n

/-- The byte of a list at an offset, 0 past its end. -/
def byteAt (l : List Byte) (off : Nat) : Nat := ((l.drop off).headD 0).toNat

/-- The big-endian number of `n` bytes at an offset. -/
def beAt (l : List Byte) (off n : Nat) : Nat := beNat (slice l off n)

/-- The little-endian number of `n` bytes at an offset. -/
def leAt (l : List Byte) (off n : Nat) : Nat := leNat (slice l off n)

/-- A list cut or filled with zero bytes to a length. -/
def fit (n : Nat) (l : List Byte) : List Byte := l.take n ++ List.replicate (n - l.length) 0

/-- A list with the bytes at an offset replaced. -/
def overlay (l : List Byte) (off : Nat) (b : List Byte) : List Byte :=
  if off + b.length ≤ l.length then l.take off ++ b ++ l.drop (off + b.length) else l

/-- One shift of a reflected CRC of width `w`. -/
def crcStepR (poly v : Nat) : Nat := if v % 2 == 1 then Nat.xor (v / 2) poly else v / 2

/-- `n` shifts of a reflected CRC. -/
def crcShiftR (poly : Nat) : Nat → Nat → Nat
  | 0, v => v
  | n + 1, v => crcShiftR poly n (crcStepR poly v)

/-- The running value of a reflected CRC over bytes. -/
def crcR (poly : Nat) (init : Nat) (l : List Byte) : Nat :=
  l.foldl (fun v b => crcShiftR poly 8 (Nat.xor v b.toNat)) init

/-- CRC-32C as stripe_crc takes it (R75): Castagnoli, reflected, initial value and final XOR 0xFFFF_FFFF. -/
def crc32c (l : List Byte) : Nat := Nat.xor (crcR 0x82F63B78 0xFFFFFFFF l) 0xFFFFFFFF

/-- One shift of a CRC of width `w` that is not reflected. -/
def crcStepL (w poly v : Nat) : Nat :=
  if bitOf v (w - 1) then Nat.xor (v * 2 % 2 ^ w) poly else v * 2 % 2 ^ w

/-- `n` shifts of a CRC that is not reflected. -/
def crcShiftL (w poly : Nat) : Nat → Nat → Nat
  | 0, v => v
  | n + 1, v => crcShiftL w poly n (crcStepL w poly v)

/-- The running value of a CRC that is not reflected, over bytes. -/
def crcL (w poly : Nat) (init : Nat) (l : List Byte) : Nat :=
  l.foldl (fun v b => crcShiftL w poly 8 (Nat.xor v (b.toNat * 2 ^ (w - 8)))) init

/-- CRC-16 CCITT as hdr_crc takes it (R72): polynomial 0x1021, initial value 0xFFFF, no final XOR. -/
def crc16 (l : List Byte) : Nat := crcL 16 0x1021 0xFFFF l

/-- `a` lies before `b` under the half-range rule: the difference modulo 2^w is 2^(w-1) or more (R55). -/
def seqBefore (w a b : Nat) : Bool :=
  decide (2 ^ (w - 1) ≤ (a % 2 ^ w + 2 ^ w - b % 2 ^ w) % 2 ^ w)

/-- Rounded-up division. -/
def ceilDiv (a b : Nat) : Nat := if b = 0 then 0 else (a + b - 1) / b

/-- The low bits of a mask that are set, in increasing order. -/
def bitsSet (n v : Nat) : List Nat := (List.range n).filter (bitOf v)

-- Bit strings (R116)

/-- The bits of a byte string, most significant first. -/
def bytesBits (l : List Byte) : List Bool := l.flatMap (fun b => (List.range 8).map (fun i => bitOf b.toNat (7 - i)))

/-- The `n` low bits of a number, most significant first. -/
def natBits (n v : Nat) : List Bool := (List.range n).map (fun i => bitOf v (n - 1 - i))

/-- The number that bits spell, most significant first. -/
def bitsNat (l : List Bool) : Nat := l.foldl (fun a b => 2 * a + b.toNat) 0

/-- Bits packed into bytes, with zero bits up to a byte boundary. -/
def packBits : Nat → List Bool → List Byte
  | 0, _ => []
  | n + 1, l => if l = [] then [] else
      BitVec.ofNat 8 (bitsNat ((l.take 8) ++ List.replicate (8 - l.length) false)) :: packBits n (l.drop 8)

end Sys2Proof.Machine
end

