-- ==== Sys2Proof/Machine/RegAccess.lean ====
section
/-!
DEFINITION. The generic part of register access (R10 to R15, R403, R411, R424): how a value lands in the fields of a
register, how fields make up the value read, and how a configuration pair loads.
-/

namespace Sys2Proof.Machine

/-- The HIR minor at which a field was introduced (R411). -/
def Fld.hirMinor (f : Fld) : Nat :=
  match f with
  | .shp .BKT_CFG_SENDER_W => 1
  | .shp .BKT_CFG_W_GROUP_M1 => 1
  | .shp .TPL_CFG_RESEQ => 2
  | .ref .CFG_FLAG_EXT_ID => 3
  | .ref .CFG_FLAG_ALL => 3
  | _ => 0

/-- The minor that a party has agreed: an Ostler runs with the bundle itself, so every field exists for it. -/
def State.minorOf (s : State) (p : Party) : Nat :=
  match p.port with
  | some n => if s.flag (.hpt .PORT_STATUS_HIR_OK) n then s.get (.hpt .PORT_STATUS_MINOR) n else 0
  | none => 255

/-- A field exists for a party (R411). A port that has not negotiated reads every field. -/
def State.fieldFor (s : State) (p : Party) (f : Fld) : Bool :=
  match p.port with
  | some n => !s.flag (.hpt .PORT_STATUS_HIR_OK) n || decide (f.hirMinor ≤ s.get (.hpt .PORT_STATUS_MINOR) n)
  | none => true

/-- The indexes of a register's fields for a party: the MSI-X table and PBA of the accessing port (R399). -/
def Loc.ofParty (l : Loc) (p : Party) : Loc :=
  match l.rd.reg with
  | .HPT_MSIX => { l with i := p.num, j := l.i }
  | .HPT_PBA => { l with i := p.num, j := l.i }
  | _ => l

/-- The timeout settings whose timeouts begin at moments that the state does not show, by number (R66, R67). -/
def Fld.timeoutIx (f : Fld) : Option Nat :=
  match f with
  | .cus .STALL_TO_UNIT => some 0
  | .cus .STALL_TO_CLUSTER => some 1
  | .prs .STALL_TO_STALL => some 2
  | .dmc .XBAR_TO_TO => some 3
  | .dmc .AGE_CAP_CAP => some 4
  | .hpt .CPL_TO_TO => some 5
  | .pwr .HB_TO_MS => some 6
  | .tth .KA_TO_MS => some 7
  | _ => none

/-- A timeout setting about to be written keeps its value for the timeouts that run (R66). -/
def noteTimeout (f : Fld) (i : Nat) (s : State) : State :=
  match f.timeoutIx with
  | some n => (s.put (.trs .xTO_PREV) (s.get f i) n i).put (.trs .xTO_AT) s.osc n i
  | none => s

/-- The value that a timeout setting held at the edge at which a timeout began (R66): a new value applies from the next
start.
DEDUCED, log 99. -/
def State.timeoutAt (s : State) (f : Fld) (i since : Nat) : Nat :=
  match f.timeoutIx with
  | some n => if since < s.get (.trs .xTO_AT) n i then s.get (.trs .xTO_PREV) n i else s.get f i
  | none => s.get f i

/-- What began at edge `since` has waited its timeout out: `unit` ns for each step of the setting, taken into its range
(R66, R67). -/
def State.waitedOut (s : State) (f : Fld) (i since lo hi unit : Nat) : Bool :=
  elapsedNs since s.osc (clampTo lo hi (s.timeoutAt f i since) * unit)

/-- One field of a register takes its bits of a written value (R10, R13).
DESIGN CHOICE, log 13. -/
def writeField (l : Loc) (v : Nat) (f : FieldSpec) (s : State) : State :=
  match f.acc with
  | .rw => (noteTimeout f.fld l.i s).put f.fld (bitsOf v f.lo f.len) l.i l.j l.k
  | .w1c => s.when (bitOf v f.lo) (fun s => s.put f.fld 0 l.i l.j l.k)
  | .ro => s
  | .w1s => s

/-- Every field of a register that exists for the party takes its bits of a written value.
DESIGN CHOICE, log 13. -/
def writeFields (p : Party) (l : Loc) (v : Nat) (s : State) : State :=
  forEach (l.rd.fields.filter (fun f => s.fieldFor p f.fld)) (writeField l v) s

/-- The fields of a register that pass `q` take their bits of a written value. -/
def writeSome (p : Party) (l : Loc) (v : Nat) (q : FieldSpec → Bool) (s : State) : State :=
  forEach (l.rd.fields.filter (fun f => q f && s.fieldFor p f.fld)) (writeField l v) s

/-- The number by which a pair's latch is kept: the address of its lo register is the hi register's less 4. -/
def latchKey (p : Party) (addrLo : Nat) : Key := ⟨.hpt .xLATCH, p.num, addrLo, 0⟩

/-- Host reserve writes that the pool manager sets by itself for the channels' owners (R287, R291).
DESIGN CHOICE, log 13. -/
def cfgRefused (l : Loc) (v : Nat) (f : FieldSpec) : Bool :=
  match f.fld with
  | .pdk .OWN_CFG_GROUP => decide (l.j < 48) || decide (bitsOf v 0 3 / 4 ≠ l.i)
  | .pdk .OWN_RSV_RSV => decide (l.j < 48)
  | _ => false

/-- A configuration pair loads one cfg field, a shadow-banked one into both banks (R424). The home die of a channel is
the one that the first pair of its `CCH_CTRL` gives. -/
def loadField (l : Loc) (v : Nat) (f : FieldSpec) (s : State) : State :=
  if !f.cfg || cfgRefused l v f then s
  else
    let x := bitsOf v f.lo f.len
    if f.fld = .cch .CTRL_HOME_DIE then
      if s.flag (.cch .xHOME_SET) l.i then s else (s.put f.fld x l.i).put (.cch .xHOME_SET) 1 l.i
    else if l.rd.shadow then (s.put f.fld x l.i l.j 0).put f.fld x l.i l.j 1
    else s.put f.fld x l.i l.j l.k

/-- A configuration pair loads the cfg fields of the register it names, or is skipped and counted (R424). -/
def loadPair (addr v : Nat) (s : State) : State :=
  match findReg addr with
  | none => s.bumpSat (.mid .CFG_IMG_SKIPPED)
  | some l =>
    if l.rd.fields.any (·.cfg) then forEach l.rd.fields (loadField l v) s
    else s.bumpSat (.mid .CFG_IMG_SKIPPED)

end Sys2Proof.Machine
end

