-- ==== Sys2Proof/Machine/Flt.lean ====
section
/-!
DEFINITION. The fault collector (chapter 20): classes, records and their events, the safe state, and the first three
steps of a die restart. Every block raises its occurrences through `raise`.
-/

namespace Sys2Proof.Machine

/-- The class of a fault code (R459, R461), none for a reserved code. -/
def faultClass (code : Nat) : Option Nat :=
  if 0x01 ≤ code ∧ code ≤ 0x0D then some 0
  else if 0x20 ≤ code ∧ code ≤ 0x22 then some 1
  else if 0x40 ≤ code ∧ code ≤ 0x49 then some 2
  else if 0x60 ≤ code ∧ code ≤ 0x67 then some 3
  else if 0x80 ≤ code ∧ code ≤ 0x89 then some 4
  else none

/-- The die of an occurrence (R461), none for a module fault. REPAIR_NOTICE is a die fault for DETAIL 1 alone.
SECDED_SINGLE is a module fault under R457; an occurrence of it that names no die of the module is one. -/
def faultDie (o : Occ) : Option Nat :=
  match o.code with
  | 0x04 => if o.detail = 1 then some (o.die % 2) else none
  | 0x05 | 0x08 | 0x09 | 0x0D | 0x20 | 0x21 => some (o.die % 2)
  | 0x22 => if o.die < 2 then some o.die else none
  | 0x40 | 0x41 | 0x42 | 0x43 | 0x44 | 0x45 | 0x46 | 0x47 | 0x48 => some (o.die % 2)
  | 0x60 | 0x61 | 0x62 | 0x63 | 0x64 | 0x65 | 0x66 | 0x67 => some (o.die % 2)
  | _ => none

/-- The time that a record carries (R463): TAI ns, or ns since power good while the time base is FREE. -/
def State.recTime (s : State) : Nat := if s.tbState = tbFREE then s.nsUp else s.tai

/-- Word 0 of a record (R463). -/
def recWord0 (code cls : Nat) (wire inj : Bool) (die : Option Nat) (free : Bool) (seq : Nat) : Nat :=
  code + cls * 2 ^ 8 + (if wire then 2 ^ 11 else 0) + (if inj then 2 ^ 12 else 0) +
  (match die with
   | some d => 2 ^ 13 + d * 2 ^ 14
   | none => 0) +
  (if free then 2 ^ 15 else 0) + seq % 2 ^ 16 * 2 ^ 16

/-- Record `i` of the ring, as its eight words. -/
def State.recWord (s : State) (i w : Nat) : Nat := s.get (.flt .REC_WORD) i w

/-- Among the 8 most recently written records, the newest whose CODE, LOC and die equal an occurrence's (R462). -/
def State.mergeTarget (s : State) (o : Occ) (die : Option Nat) : Option Nat :=
  let dieBits := match die with
    | some d => 1 + 2 * d
    | none => 0
  ((List.range 8).map (fun n => (s.get (.flt .RING_HEAD) + 240 - 1 - n) % 240)).find? (fun i =>
    s.recWord i 3 != 0 && bitsOf (s.recWord i 0) 0 8 == o.code && bitsOf (s.recWord i 0) 13 2 == dieBits &&
    s.recWord i 1 == o.loc % 2 ^ 32)

/-- The event source of a class (R360). -/
def classSource (cls : Nat) (die : Option Nat) : Nat :=
  match cls with
  | 0 => 888
  | 1 => 889
  | 2 => 890
  | 3 => 891 + die.getD 0
  | _ => 893

/-- The words of a new record (R463). LAST is the time of the last merged occurrence: what it holds before any has merged is the
value `last`, free.
DESIGN CHOICE, log 26. -/
def recWords (s : State) (o : Occ) (cls : Nat) (wire inj : Bool) (die : Option Nat) (last : Nat) : List Nat :=
  let t := s.recTime
  [recWord0 o.code cls wire inj die (s.tbState == tbFREE) (s.get (.flt .RING_TOTAL)), o.loc, o.detail, 1,
   t % 2 ^ 32, t / 2 ^ 32, last, 0]

/-- The words written to one record of the ring, or to the first record of a class. -/
def writeRec (f : Fld) (i : Nat) (ws : List Nat) (s : State) : State :=
  forEach (List.range 8) (fun w s => s.put f (ws.getD w 0) i w) s

/-- An occurrence is counted, recorded or merged, and asserts the source of its class (R462, R463, R477). Its
reaction is not taken here. -/
def record (o : Occ) (wire inj : Bool) (s : State) : State :=
  match faultClass o.code with
  | none => s
  | some cls =>
    let die := faultDie o
    let s := s.bump (.flt .CNT) cls
    let merged := if cls ≤ 1 then s.mergeTarget o die else none
    match merged with
    | some i =>
      let c := s.recWord i 3
      let s := (s.put (.flt .REC_WORD) (min (c + 1) (2 ^ 32 - 1)) i 3).put (.flt .REC_WORD) s.recTime i 6
      evPulse (classSource cls die) i s
    | none =>
      let i := s.get (.flt .RING_HEAD)
      let (last, s) := s.free
      let ws := recWords s o cls wire inj die last
      let s := writeRec (.flt .REC_WORD) i ws s
      let s := s.when (s.get (.flt .FIRST_WORD) cls 3 == 0) (writeRec (.flt .FIRST_WORD) cls ws)
      let s := (s.put (.flt .RING_HEAD) ((i + 1) % 240)).bump (.flt .RING_TOTAL)
      evPulse (classSource cls die) i s

/-- A channel's STATE changes, and its STATE source asserts (R359). -/
def setChState (ch st : Nat) (s : State) : State :=
  if s.get (.cch .STATUS_STATE) ch = st then s
  else evPulse (8 * ch + 1) st (s.put (.cch .STATUS_STATE) st ch)

/-- A refusal of a channel's request: CFG_REFUSED, its REASON and the REFUSED source (R207, R359). -/
def chRefuse (ch reason : Nat) (s : State) : State :=
  evPulse (8 * ch + 2) reason ((s.put (.cch .STATUS_CFG_REFUSED) 1 ch).put (.cch .STATUS_REASON) reason ch)

/-- Die `d` is running. -/
def State.dieUp (s : State) (d : Nat) : Bool := bitOf (s.get (.mid .STATUS_DIE_UP)) d

/-- Die `d` is restarting or held. -/
def State.dieOff (s : State) (d : Nat) : Bool := bitOf (s.get (.flt .STATUS_DIE_DOWN)) d

/-- Die `d` is held down (R471). -/
def State.dieHeld (s : State) (d : Nat) : Bool := bitOf (s.get (.flt .STATUS_DIE_HELD)) d

/-- A mask field with one bit set or cleared. -/
def State.putBit (s : State) (f : Fld) (b : Nat) (on : Bool) (i : Nat := 0) : State :=
  let v := s.get f i
  s.put f (if on then (if bitOf v b then v else v + 2 ^ b) else (if bitOf v b then v - 2 ^ b else v)) i

/-- A Stirrup that is held becomes FREE, and its GEN increments (R407, R408, R410). -/
def freeStirrup (n : Nat) (s : State) : State :=
  (s.put (.hpt .STR_STATUS_OWNER) 7 n).put (.hpt .STR_STATUS_GEN) (s.get (.hpt .STR_STATUS_GEN) n + 1) n

/-- Every Stirrup of a party is freed, each with a Notice (R410). -/
def freeStirrupsOf (p : Nat) (s : State) : State :=
  forEach (List.range 64) (fun n s =>
    s.when (s.get (.hpt .STR_STATUS_OWNER) n == p) (fun s => record ⟨0x07, 2, n, 3⟩ false false (freeStirrup n s))) s

/-- The die that a key of a per-die block belongs to. -/
def Key.dieOf (k : Key) : Option Nat :=
  match k.fld with
  | .cus f => match f with
    | .xFAIL_AT | .xFAIL_DOM | .xSLOTS | .UNIT_STATE | .UNIT_PERSISTED | .UNIT_FAILS | .UNIT_LOAD | .UNIT_DOMAIN | .UNIT_HEVC | .UNIT_REEXEC
    | .UNIT_RETIRE => some (k.i / 80)
    | .CLUSTER_SHADOW_OK | .CLUSTER_CABAC_OK | .CLUSTER_LINEBUF_OK | .CLUSTER_SPARE_IDLE | .CLUSTER_SPARE
    | .CLUSTER_CABAC_LOAD => some (k.i / 16)
    | _ => some k.i
  | .pdk f => match f with
    | .CLS_COUNT | .CLS_FREE | .CLS_THR_THR | .CLS_THR_LOW | .xCARVE_BAD => some (k.i / 4)
    | _ => some k.i
  | .dmc f => match f with
    | .GRP_STATUS_MODE | .GRP_STATUS_ERASED_DEV | .GRP_STATUS_REF_RATE | .GRP_STATUS_REF_DEBT | .GRP_STATUS_INIT_DONE
    | .GRP_STATUS_RETRAINING | .GRP_STATUS_PASS | .GRP_CTRL_DEV | .GRP_CTRL_FORCE_ERASE | .SCRUB_POS_LINE
    | .POISON_LAST_LINE | .POISON_LAST_MASK | .POISON_LAST_LOG_LOST | .PASR_KEEP | .DEV_ERR_PASS_ERR
    | .DEV_ERR_TOTAL | .xSEQ | .xROW_SEQ | .xRT_OLD | .xPOIS | .xSIDE | .xINIT | .xINIT_N | .xWSEQ | .xPERR | .xADV | .xRETR_DEV
    | .xRETR_MODE | .xWB | .xWB_SIDE | .xWB_SLICE | .xSTALE | .xREF_AT | .xCATCH_TAI | .xSCRUB_TAI => some (k.i / 4)
    | _ => some k.i
  | .shp .xWIRE => some (k.i / 8)
  | .prs _ | .fwd _ | .shp _ | .dma _ | .chk _ | .ost _ => some k.i
  | _ => none

/-- The channel that a key of a per-channel block belongs to. -/
def Key.chOf (k : Key) : Option Nat :=
  match k.fld with
  | .cch _ | .qrc _ | .ref _ => some k.i
  | _ => none

/-- A key outlives a restart of die `d` (R426, R470): the keys of the other die, the channel keys of channels of the
other die, and of a channel of die `d` its home and the marks by which it resumes. The mirror of die `d` lies on the
other die, and the mirror of the other die lies on die `d` (R281). -/
def keepAtRestart (d : Nat) (homeOf : Nat → Nat) (k : Key) : Bool :=
  match k.fld with
  | .cch .CTRL_HOME_DIE | .cch .xHOME_SET | .cch .xRESUME | .cch .xDOWN_AT | .cch .xDOWN_TAI => true
  | .cch .xHO | .cch .xHO_PIC | .cch .xHO_DUE | .cch .xHO_LINK | .cch .xHO_FLOW | .cch .xHO_DOM => true
  | .shp .xMIRROR => k.i == d
  | _ =>
    match k.dieOf with
    | some e => e != d
    | none =>
      match k.chOf with
      | some ch => homeOf ch != d
      | none => true

/-- The channels homed on a die. -/
def State.chansOf (s : State) (d : Nat) : List Nat :=
  (List.range 48).filter (fun ch => s.get (.cch .CTRL_HOME_DIE) ch == d)

/-- The channel states of R207. -/
def chSTOPPED : Nat := 0
def chWAITING : Nat := 1
def chRUNNING : Nat := 2
def chLEAVING : Nat := 3

/-- A channel of a die that goes down. A RUNNING or WAITING one, and one whose die move is thereby cancelled, is marked to
start again: on the other die where FAILOVER and ALT_DIE allow it, otherwise on its own (R470, R472, R473). A module
handover that is armed stays armed, and one that is only offered is given up. -/
def markResume (ch : Nat) (s : State) : State :=
  let st := s.get (.cch .STATUS_STATE) ch
  if (st = chRUNNING ∨ st = chWAITING ∨ st = chLEAVING) ∧ s.get (.cch .xHO) ch ≠ 2 then
    let alt := s.flag (.flt .CFG_FAILOVER) && s.flag (.cch .CTRL_ALT_DIE) ch
    (((s.put (.cch .xHO) 0 ch).put (.cch .xRESUME) (if alt then 2 else 1) ch).put (.cch .xDOWN_AT) s.osc ch).put (.cch .xDOWN_TAI) s.tai ch
  else s

/-- The numbering of R379: sources of the die lose PENDING, and its Ostler's target is reset whole. -/
def evcDieDown (d : Nat) (s : State) : State :=
  let gone := ((s.store.keysOf (.evc .SRC_CFG_PENDING)) ++ (s.store.keysOf (.evc .SRC_CFG_ASSERTED))).map (·.i)
  let mine := gone.filter (fun n => s.srcDie n == some d)
  let s := forEach mine (fun n s => (s.put (.evc .SRC_CFG_PENDING) 0 n).put (.evc .SRC_CFG_ASSERTED) 0 n) s
  let s : State := { s with claims := s.claims.filter (fun c => c.tgt != 2 + d),
                            fifo := s.fifo.filter (fun e => e.tgt != 2 + d) }
  let s := forEach [.xCLAIM_CNT, .FIFO_STAT_LOST_PEND, .FIFO_STAT_THR_HIT, .TGT_STATUS_COMP_ERR, .TGT_STATUS_CFG_BUSY]
    (fun f s => s.put (.evc f) 0 (2 + d)) s
  settle s

/-- Every frame on the wire of an interface of a list is cut (R465, R470). -/
def cutWires (l : List Nat) (s : State) : State :=
  forEach l (fun i s => s.when (s.flag (.shp .xWIRE) i) (fun s => (s.put (.shp .xWIRE) 0 i).emit (.cut i))) s

/-- The packet memory of a die that goes down is gone. A copy that has not wholly crossed is dropped, and SHAPE_DROP of
the surviving die counts it (R37, R470). -/
def packetsDieDown (d : Nat) (s : State) : State :=
  let n := s.cross.length
  let s : State := { s with
    chains := s.chains.filter (fun c => c.die != d), copies := s.copies.filter (fun c => c.die != d), cross := [],
    mheld := s.mheld.filter (fun c => c.die != d), mdone := s.mdone.filter (fun c => c.die != d),
    learns := s.learns.filter (fun c => c.die != d), routes := s.routes.filter (fun c => c.die != d),
    bufs := s.bufs.filter (fun b => b.grp / 4 != d), recircs := s.recircs.filter (fun c => c.die != d),
    rxs := s.rxs.filter (fun c => c.die != d),
    inputs := s.inputs.filter (fun i => s.chains.any (fun c => c.id == i.chain && c.die != d)),
    units := s.units.filter (fun u => s.get (.cch .CTRL_HOME_DIE) u.ch != d),
    undo := s.undo.filter (fun u => u.die != d), plog := s.plog.filter (fun p => p.grp / 4 != d) }
  s.bump (.shp .CNT) (1 - d) 1 0 n

/-- The FWU state returns to IDLE, and a Winter request that waited for it is taken up (R451, R486). -/
def fwuIdle (s : State) : State :=
  let s := s.put (.fwu .STATUS_STATE) 0
  s.when (s.flag (.pwr .STATUS_WINTER_PENDING) && s.get (.pwr .xWIN_STEP) == 0) (fun s =>
    (((s.put (.pwr .xWIN_STEP) 1).put (.pwr .xWIN_AT) s.osc).put (.pwr .xWIN_TAI) s.tai).put (.pwr .CTRL_WINTER) 0)

/-- An update session ends with its target left EMPTY, and FWU_DONE asserts with ABANDONED (R438). -/
def abandonSession (reason : Nat) (s : State) : State :=
  evPulse 898 7 ((fwuIdle s).put (.fwu .STATUS_REASON) reason)

/-- A trial fails: the state becomes REVERTING, and the switch back follows (R450). -/
def trialFail (s : State) : State :=
  s.when (s.get (.fwu .STATUS_STATE) == 6) (fun s =>
    ((s.put (.fwu .STATUS_STATE) 7).put (.fwu .xREV_AT) s.osc).put (.fwu .xREV_TAI) s.tai)

/-- A die restart ends an update session when the die is die 0 (R438), and fails a trial (R450). -/
def fwuDieDown (d : Nat) (s : State) : State :=
  let st := s.get (.fwu .STATUS_STATE)
  if d = 0 ∧ (st = 1 ∨ st = 2) then abandonSession 8 s else trialFail s

/-- An Uncontained occurrence between the acceptance of Winter and its step 5 abandons the entry (R490); the Ostlers may start
routines again. -/
def winterAbandon (s : State) : State :=
  s.when (s.get (.pwr .xWIN_STEP) != 0) (fun s =>
    let s := ((s.put (.pwr .xWIN_STEP) 0).put (.pwr .STATUS_WINTER_PENDING) 0).put (.pwr .STATUS_WINTER_REFUSED) 1
    let s := (s.put (.pwr .xSPRING_PEND) 0).put (.pwr .CTRL_SPRING) 0
    forEach [0, 1] (fun d s => s.put (.ost .xQUIET) 0 d) s)

/-- Die `d` goes down: steps 1 to 3 of R470, held or not (R471).
DEDUCED, log 27. -/
def dieDown (d : Nat) (held : Bool) (s : State) : State :=
  let s := cutWires ((List.range 8).map (· + 8 * d)) s
  let s := packetsDieDown d s
  let s := freeStirrupsOf (2 + d) (evcDieDown d s)
  let s := forEach (s.chansOf d) markResume s
  let homeOf := fun ch => s.get (.cch .CTRL_HOME_DIE) ch
  let s := s.keepKeys (keepAtRestart d homeOf)
  let s := forEach (List.range 32) (fun q s => s.put (.dma .Q_STATUS_RESTARTED) 1 d q) s
  let s := winterAbandon (fwuDieDown d s)
  let s := s.putBit (.flt .STATUS_DIE_HELD) d held
  (s.putBit (.flt .STATUS_DIE_DOWN) d true).putBit (.mid .STATUS_DIE_UP) d false

/-- HOLD_COUNT and HOLD_WIN as R471 takes them. -/
def State.holdCount (s : State) : Nat := max 2 (s.get (.flt .CFG_HOLD_COUNT))
def State.holdWin (s : State) : Nat := max 1 (s.get (.flt .CFG_HOLD_WIN))

/-- The restarts of a die within the last HOLD_WIN seconds. -/
def State.recentRestarts (s : State) (d : Nat) : Nat :=
  (s.restarts.filter (fun r => r.1 == d && !elapsedNs r.2 s.osc (s.holdWin * 1000000000 + 1))).length

/-- A die is not restarted by a further Uncontained occurrence (R471). -/
def State.wouldHold (s : State) (d : Nat) : Bool :=
  s.dieHeld d || decide (s.holdCount ≤ s.recentRestarts d + 1)

/-- The safe state is entered (R465): GRAVE_CODE keeps the first code (R474), the FAULT lands go to SAFE (R467), every
frame on the wire is cut, and every Tether link goes down. -/
def enterSafe (code : Nat) (s : State) : State :=
  if s.safe then s
  else
    let s := cutWires (List.range 16) s
    let s := forEach [0, 1, 2] (fun l s => s.when (s.flag (.mid .TTH_REV_UP) l)
      (fun s => (s.put (.mid .TTH_REV_UP) 0 l).emit (.tetherLink l false))) s
    let s := s.when (s.flag (.flt .CFG_SAFE_LINK_DOWN)) (·.emit .lanesOff)
    let s := ((s.put (.flt .STATUS_LAND_P) 0).put (.flt .STATUS_LAND_N) 1).emit (.faultLands false true)
    let s := (s.put (.flt .STATUS_SAFE) 1).put (.flt .STATUS_GRAVE_CODE) code
    { s with safe := true }

/-- `a` is recorded before `b` when they fall on one edge (R464). -/
def occBefore (a b : Occ) : Bool :=
  let ca := (faultClass a.code).getD 0
  let cb := (faultClass b.code).getD 0
  if ca ≠ cb then decide (cb < ca)
  else if a.code ≠ b.code then decide (a.code < b.code)
  else decide ((faultDie a).getD 0 ≤ (faultDie b).getD 0)

/-- An occurrence put in its place among those of its edge. -/
def occInsert (o : Occ) : List Occ → List Occ
  | [] => [o]
  | x :: t => if occBefore o x then o :: x :: t else x :: occInsert o t

/-- The occurrences of one edge in the order of R464. -/
def occSort (l : List Occ) : List Occ := l.foldl (fun acc o => occInsert o acc) []

/-- The die that an occurrence restarts, if it is Uncontained. -/
def restartDie (o : Occ) : Option Nat := if faultClass o.code = some 3 then faultDie o else none

/-- An Uncontained occurrence whose die is not restarted again is recorded as DIE_HELD (R471); where a Grave one stops
every restart, it is recorded under its own code (R474). -/
def asHeld (s : State) (o : Occ) : Occ :=
  match restartDie o with
  | some d => if s.wouldHold d then ⟨0x67, d, s.recentRestarts d, o.code⟩ else o
  | none => o

/-- The reaction to Uncontained occurrences on a die: one restart (R474), or the die is held (R471). -/
def restartOrHold (d : Nat) (s : State) : State :=
  if s.dieHeld d then s
  else if s.wouldHold d then dieDown d true s
  else
    let s : State := { s with restarts := s.restarts ++ [(d, s.osc)] }
    dieDown d false (s.bump (.flt .CNT) (6 + d))

/-- Occurrences that fall on one edge: each is recorded (R464), and the reaction of the highest class follows (R474):
the safe state, or a restart of each die with an Uncontained occurrence. -/
def raiseAll (os : List Occ) (wire inj : Bool) (s : State) : State :=
  let l := (occSort os).filter (fun o => (faultClass o.code).isSome)
  let held := if s.safe || l.any (fun o => faultClass o.code == some 4) then l else l.map (asHeld s)
  let s := forEach held (fun o s => record o wire inj s) s
  match l.find? (fun o => faultClass o.code == some 4) with
  | some g => enterSafe g.code s
  | none =>
    if s.safe then s
    else forEach ([0, 1].filter (fun d => l.any (fun o => restartDie o == some d))) restartOrHold s

/-- One occurrence with its reaction. -/
def raise (code die loc detail : Nat) (s : State) : State := raiseAll [⟨code, die, loc, detail⟩] false false s

end Sys2Proof.Machine
end

