-- ==== Sys2Proof/Machine/Raster.lean ====
section
/-!
DEFINITION. Raster positions (R54 to R60): a domain's position as a function of the time base, and which domains are
enabled, in use, busiest and slowest.
-/

namespace Sys2Proof.Machine

/-- D of R54. -/
def domDen (ntsc : Bool) : Nat := if ntsc then 1001 else 1000

/-- The pairs of NUM and NTSC that R54 admits. -/
def rateOk (num : Nat) (ntsc : Bool) : Bool :=
  if ntsc then [24000, 30000, 48000, 60000, 120000].contains num
  else [24000, 25000, 30000, 48000, 50000, 60000, 100000, 120000].contains num

def State.domTotal (s : State) (d : Nat) : Nat := s.get (.trs .DOM_FMT_TOTAL_LINES) d
def State.domActive (s : State) (d : Nat) : Nat := s.get (.trs .DOM_FMT_ACTIVE_LINES) d
def State.domFirst (s : State) (d : Nat) : Nat := s.get (.trs .DOM_RATE_FIRST_ACTIVE) d
def State.domNum (s : State) (d : Nat) : Nat := s.get (.trs .DOM_RATE_NUM) d
def State.domDenOf (s : State) (d : Nat) : Nat := domDen (s.flag (.trs .DOM_RATE_NTSC) d)

/-- The settings of a domain keep R54. -/
def State.domCfgOk (s : State) (d : Nat) : Bool :=
  rateOk (s.domNum d) (s.flag (.trs .DOM_RATE_NTSC) d) && decide (100 ≤ s.domTotal d) && decide (s.domTotal d ≤ 8191) &&
  decide (s.domFirst d + s.domActive d ≤ s.domTotal d)

/-- A domain is enabled: ENABLE is set and its settings keep R54. -/
def State.domOn (s : State) (d : Nat) : Bool := s.flag (.trs .DOM_FMT_ENABLE) d && s.domCfgOk d

/-- Raster ticks of one picture of a domain. -/
def State.picTicks (s : State) (d : Nat) : Nat := s.domTotal d * 65536

/-- The raster ticks of a domain from the epoch to TAI time `t` in ns: the position of R55 as one number, picture,
line and tick together. -/
def State.ticksAt (s : State) (d t : Nat) : Nat :=
  if s.domDenOf d = 0 then 0 else t * s.domNum d * s.picTicks d / (s.domDenOf d * 1000000000)

/-- The raster ticks of a domain at the time base. -/
def State.ticksNow (s : State) (d : Nat) : Nat := s.ticksAt d s.tai

/-- Whole pictures of a domain since the epoch. -/
def State.picNow (s : State) (d : Nat) : Nat := if s.picTicks d = 0 then 0 else s.ticksNow d / s.picTicks d

/-- The first time in ns at which a domain's position reaches a number of ticks. -/
def State.timeOfTicks (s : State) (d k : Nat) : Nat :=
  ceilDiv (k * (s.domDenOf d * 1000000000)) (s.domNum d * s.picTicks d)

/-- No raster event fires in FREE (R47), nor for a domain that is not enabled. -/
def State.rasterRuns (s : State) (d : Nat) : Bool := s.tbState != tbFREE && s.domOn d

/-- A channel is started: WAITING, RUNNING or LEAVING. -/
def State.chStarted (s : State) (ch : Nat) : Bool :=
  let st := s.get (.cch .STATUS_STATE) ch
  st == chWAITING || st == chRUNNING || st == chLEAVING

/-- The bank from which a channel takes its settings: the one sampled at its last picture boundary (R193), or its active
bank before it has one. -/
def State.chBank (s : State) (ch : Nat) : Nat := max 1 (s.get (.cch .xBANK) ch)

/-- A banked setting of a channel as it runs with it. -/
def State.chGet (s : State) (f : Fld) (ch : Nat) : Nat := s.get f ch 0 (s.chBank ch)

/-- The domain that a channel refers to. -/
def State.chDom (s : State) (ch : Nat) : Nat := s.chGet (.cch .FMT_DOMAIN) ch

/-- A domain is in use (R56): a channel, a paced flow or an armed handover refers to it. A channel refers to the domain of
its settings while it is WAITING, RUNNING or LEAVING; a paced flow to that of its copies that still wait for release, on
their die or on the way to the other one.
DESIGN CHOICE, log 33. -/
def State.domInUse (s : State) (d : Nat) : Bool :=
  (List.range 48).any (fun ch => s.chStarted ch && s.chDom ch == d) ||
  s.copies.any (fun c => c.raster && c.dom == d) || s.cross.any (fun c => c.raster && c.dom == d) ||
  (List.range 16).any (fun n => s.flag (.trs .HO_CTRL_ARM) n && s.get (.trs .HO_CTRL_DOMAIN) n == d)

/-- The total credit cost of a domain's channels (R57). -/
def State.domCost (s : State) (d : Nat) : Nat :=
  ((List.range 48).filter (fun ch => s.chStarted ch && s.chDom ch == d)).foldl
    (fun a ch => a + s.get (.cch .STATUS_COST) ch) 0

/-- Some domain is in use and enabled. -/
def State.anyDomInUse (s : State) : Bool := (List.range 8).any (fun d => s.domOn d && s.domInUse d)

/-- The first of a list of domains that beats every earlier one. -/
def pickDom (better : Nat → Nat → Bool) (l : List Nat) : Nat :=
  (l.foldl (fun b d => match b with
    | none => some d
    | some e => if better d e then some d else some e) (none : Option Nat)).getD 0

/-- The busiest domain (R57). -/
def State.busiest (s : State) : Nat :=
  if s.anyDomInUse then
    pickDom (fun d e => decide (s.domCost e < s.domCost d)) ((List.range 8).filter s.domOn)
  else 0

/-- A picture boundary of the busiest domain has come since a time, and since FREE ended. -/
def State.boundarySince (s : State) (t : Nat) : Bool :=
  let b := s.busiest
  decide (s.ticksAt b (max t (s.get (.trs .xLEFT_TAI))) / s.picTicks b < s.picNow b)

/-- The slowest domain (R57). -/
def State.slowest (s : State) : Nat :=
  pickDom (fun d e => decide (s.domNum d * s.domDenOf e < s.domNum e * s.domDenOf d))
    ((List.range 8).filter (fun d => s.domOn d && s.domInUse d))

/-- The tick count of the first picture boundary of a domain at or after a TAI time. -/
def State.boundaryFrom (s : State) (d t : Nat) : Nat := ceilDiv (s.ticksAt d t) (s.picTicks d) * s.picTicks d

/-- The value of `TRS_DOM_POS` (R55): 0 in FREE (R47), and for a domain that is not enabled.
DESIGN CHOICE, log 33. -/
def State.domPos (s : State) (d : Nat) : Nat :=
  if s.rasterRuns d then
    let k := s.ticksNow d
    let r := k % s.picTicks d
    (k / s.picTicks d) % 2 ^ 32 * 2 ^ 32 + r / 65536 * 2 ^ 16 + r % 65536
  else 0

end Sys2Proof.Machine
end

