-- ==== Sys2Proof/Machine/Banks.lean ====
section
/-!
DEFINITION. Shadow banks and the handovers that switch them (R59 to R62, R229, R266 to R271): token buckets, rule-set
slots and channel settings, the firing of a handover slot, and the form of a time-driven command, before whose effect
every handover that has come due takes effect.
-/

namespace Sys2Proof.Machine

/-- The sub-ports of a port in each mode (R210); mode 3 holds the port down. -/
def subPorts (mode : Nat) : Nat := [1, 2, 4].getD mode 0

/-- The die of a module-wide interface. -/
def ifaceDie (iface : Nat) : Nat := iface / 8

/-- A sub-port is usable (R269): its die runs, its port's mode has it, and EN and LINK_UP are set. -/
def State.ifaceUp (s : State) (iface : Nat) : Bool :=
  let d := ifaceDie iface
  let pp := iface / 4 % 2
  s.dieUp d && decide (iface % 4 < subPorts (s.get (.prs .PORT_CFG_MODE) d pp)) &&
    bitOf (s.get (.prs .PORT_CFG_EN) d pp) (iface % 4) && bitOf (s.get (.prs .PORT_CFG_LINK_UP) d pp) (iface % 4)

/-- The mode in which a bucket runs (R266): reserved modes, and POLICE or RASTER on a port-class bucket, are taken as
OFF. -/
def bktModeOf (n raw : Nat) : Nat :=
  if n < 4096 then (if raw < 4 then raw else 0) else (if raw < 2 then raw else 0)

/-- A mode that sets CFG_ERR (R266). -/
def bktModeBad (n raw : Nat) : Bool := bktModeOf n raw != raw

def bktOFF : Nat := 0
def bktSHAPE : Nat := 1
def bktPOLICE : Nat := 2
def bktRASTER : Nat := 3

/-- The active settings of a bucket, as taken. -/
def State.bktMode (s : State) (d n : Nat) : Nat := bktModeOf n (s.get (.shp .BKT_CFG_MODE) d n 1)
def State.bktRate (s : State) (d n : Nat) : Nat := clampTo 1 400000000 (s.get (.shp .BKT_RATE_RATE) d n 1)
def State.bktBurst (s : State) (d n : Nat) : Nat := clampTo 64 16777216 (s.get (.shp .BKT_BURST_BURST) d n 1)
def State.bktOver (s : State) (d n : Nat) : Nat := s.get (.shp .BKT_CFG_OVERHEAD) d n 1

/-- One byte of tokens. -/
def tokUnit : Int := 65536

/-- The tokens of a bucket, in 2^-16 bytes: from die start they stand at BURST or 0 as RESET_FILL says (R282). -/
def State.tokens (s : State) (d n : Nat) : Int :=
  if s.flag (.shp .xTOK_SET) d n then s.int (.shp .xTOK) d n
  else if s.flag (.shp .BKT_CFG_RESET_FILL) d n 1 then (s.bktBurst d n : Int) * tokUnit else 0

/-- The tokens of a bucket set. -/
def setTokens (d n : Nat) (v : Int) (s : State) : State :=
  (s.putInt (.shp .xTOK) v d n).put (.shp .xTOK_SET) 1 d n

/-- The time of a bucket's last refill, in TAI ns: that of die start before one (R267, R282). -/
def State.lastRefill (s : State) (d n : Nat) : Nat := max (s.get (.shp .xREFILL) d n) (s.get (.shp .xSTART_TAI) d)

/-- The refill of a bucket up to a time in ns (R267). -/
def refill (d n t : Nat) (s : State) : State :=
  let last := s.lastRefill d n
  if t ≤ last then s
  else
    let sum := s.bktRate d n * (t - last) * 65536 + s.get (.shp .xRESID) d n
    let tok := min ((s.bktBurst d n : Int) * tokUnit) (s.tokens d n + (sum / 8000 : Nat))
    (((setTokens d n tok s).put (.shp .xRESID) (sum % 8000) d n).put (.shp .xREFILL) t d n)

/-- The counted length of a frame of `len` bytes with its FCS (R267). -/
def State.counted (s : State) (d n len : Nat) : Int := ((len + s.bktOver d n : Nat) : Int) * tokUnit

/-- A counted length deducted; tokens never fall below -16 MiB (R276). -/
def deduct (d n len : Nat) (s : State) : State :=
  setTokens d n (max (-(16777216 : Int) * tokUnit) (s.tokens d n - s.counted d n len)) s

/-- The handover slot of a bank: 15 is taken as 14. -/
def slotOf (v : Nat) : Nat := min 14 v

/-- The fields of a bucket's banks. -/
def bktFields : List Fld := [.shp .BKT_CFG_MODE, .shp .BKT_CFG_RESET_FILL, .shp .BKT_CFG_SENDER_W, .shp .BKT_CFG_W_GROUP_M1,
  .shp .BKT_CFG_HO_SLOT, .shp .BKT_CFG_HO_EN, .shp .BKT_CFG_OVERHEAD, .shp .BKT_RATE_RATE, .shp .BKT_BURST_BURST]

/-- The fields of a template's banks (R270). -/
def tplFields : List Fld := [.shp .TPL_CFG_L3_OFS, .shp .TPL_CFG_IPV6, .shp .TPL_CFG_L4_OFS, .shp .TPL_CFG_RESEQ,
  .shp .TPL_CFG_PLANE_B, .shp .TPL_CFG_TC]

/-- A shadow field copied to its active bank. -/
def bankCopy (f : Fld) (i j : Nat) (s : State) : State := s.put f (s.get f i j 0) i j 1

/-- The shadow bank of a bucket, with the templates of its handle, becomes the active bank (R270); where MODE, RATE,
BURST or OVERHEAD changes, the tokens are set, otherwise they stay as they are (R271). The time of the last refill only
moves forward (R267). -/
def switchBucket (d n : Nat) (s : State) : State :=
  let changed := ([.shp .BKT_CFG_MODE, .shp .BKT_RATE_RATE, .shp .BKT_BURST_BURST, .shp .BKT_CFG_OVERHEAD] : List Fld).any
    (fun f => s.get f d n 0 != s.get f d n 1)
  let s := s.when (!s.flag (.shp .xTOK_SET) d n) (fun s => setTokens d n (s.tokens d n) s)
  let s := forEach bktFields (fun f s => bankCopy f d n s) s
  let s := s.when (decide (n < 4096)) (fun s =>
    let s := forEach tplFields (fun f s => bankCopy f d n s) s
    forEach (List.range 64) (fun w s => bankCopy (.shp .xTPL) d (n * 64 + w) s) s)
  let s := s.when changed (fun s =>
    let full : Int := if s.flag (.shp .BKT_CFG_RESET_FILL) d n 1 then (s.bktBurst d n : Int) * tokUnit else 0
    ((setTokens d n full s).put (.shp .xREFILL) (max s.tai (s.lastRefill d n)) d n).put (.shp .xRESID) 0 d n)
  s.when (bktModeBad n (s.get (.shp .BKT_CFG_MODE) d n 1)) (fun s => s.put (.shp .BKT_STATUS_CFG_ERR) 1 d n)

/-- The buckets of a die whose banks are not both at reset: the only ones that a handover can change. -/
def State.bktTouched (s : State) (d : Nat) : List Nat :=
  let ks := s.store.cells.filterMap (fun c => match c.1.fld with
    | .shp .BKT_CFG_MODE | .shp .BKT_CFG_RESET_FILL | .shp .BKT_CFG_SENDER_W | .shp .BKT_CFG_W_GROUP_M1
    | .shp .BKT_CFG_HO_SLOT | .shp .BKT_CFG_HO_EN | .shp .BKT_CFG_OVERHEAD | .shp .BKT_RATE_RATE | .shp .BKT_BURST_BURST
    | .shp .TPL_CFG_L3_OFS | .shp .TPL_CFG_IPV6 | .shp .TPL_CFG_L4_OFS | .shp .TPL_CFG_RESEQ | .shp .TPL_CFG_PLANE_B
    | .shp .TPL_CFG_TC => if c.1.i = d then some c.1.j else none
    | .shp .xTPL => if c.1.i = d then some (c.1.j / 64) else none
    | _ => none)
  ks.eraseDups

/-- A handover slot fires: every bucket attached to it switches, on both dies that run (R61, R270). -/
def fireBuckets (slot : Nat) (s : State) : State :=
  forEach [0, 1] (fun d s => s.when (s.dieUp d) (fun s =>
    forEach ((s.bktTouched d).filter (fun n => s.flag (.shp .BKT_CFG_HO_EN) d n &&
      slotOf (s.get (.shp .BKT_CFG_HO_SLOT) d n) == slot)) (switchBucket d) s)) s

/-- The active rule-set slot of a die (R228). -/
def State.ruleSlot (s : State) (d : Nat) : Nat := s.get (.prs .GEN_STATUS_ACTIVE) d

/-- Frames of a die stamped with the slot that is not active, which have not left classification (R231): those that wait
for their second pass. -/
def State.inflightOld (s : State) (d : Nat) : Nat :=
  (s.recircs.filter (fun r => r.die == d && r.slot != s.ruleSlot d)).length

/-- The other slot of a die is old while frames stamped with it remain, and retired otherwise (R228, R231). -/
def State.slotOld (s : State) (d : Nat) : Bool := s.inflightOld d != 0

/-- The old slot retires once no frame stamped with it is left (R231, R360): `xOLD` marks a slot whose retirement has not
been signalled.
DEDUCED, log 43. -/
def retireSlot (d : Nat) (s : State) : State :=
  if s.flag (.prs .xOLD) d && !s.slotOld d then
    evPulse (852 + 8 * d) (s.get (.prs .GEN_STATUS_GEN) d % 2 ^ 14) (s.put (.prs .xOLD) 0 d)
  else s

/-- A publication takes effect, or is refused while the other slot is old (R229, R360).
DEDUCED, log 43. -/
def publishNow (d : Nat) (s : State) : State :=
  let s := (s.put (.prs .GEN_CTRL_PUBLISH) 0 d).put (.prs .GEN_STATUS_PUB_PENDING) 0 d
  let s := if s.slotOld d then s.put (.prs .GEN_STATUS_PUB_BUSY) 1 d
    else (((retireSlot d s).put (.prs .xOLD) 1 d).bump (.prs .GEN_STATUS_GEN) d).put (.prs .GEN_STATUS_ACTIVE) (1 - s.ruleSlot d) d
  evPulse (851 + 8 * d) (s.get (.prs .GEN_STATUS_GEN) d % 2 ^ 14) s

/-- The shadow-banked fields of a channel: those of CCH, QRC and REF (R209, R146, R184). -/
def chanBankFields : List Fld :=
  ((cchRegs ++ qrcRegs ++ refRegs).filter (·.shadow)).flatMap (fun r => r.fields.map (·.fld))

/-- The shadow bank of a channel becomes its active bank (R61). -/
def switchChan (ch : Nat) (s : State) : State := forEach chanBankFields (fun f s => bankCopy f ch 0 s) s

/-- The channels whose banks are attached to a handover slot, on dies that run. -/
def State.chansAt (s : State) (slot : Nat) : List Nat :=
  (List.range 48).filter (fun ch => slotOf (s.get (.cch .CTRL_HO_SLOT) ch) == slot && s.dieUp (s.get (.cch .CTRL_HOME_DIE) ch))

/-- The waiting publications of a slot take effect (R229). -/
def firePublish (slot : Nat) (s : State) : State :=
  forEach [0, 1] (fun d s => s.when (s.dieUp d && s.flag (.prs .GEN_STATUS_PUB_PENDING) d &&
    s.get (.prs .xPUB_SLOT) d == slot) (publishNow d)) s

/-- The digest of the settings in which the tiles of a group agree (R206). The spec does not give the digest's function.
DESIGN CHOICE, log 6. -/
def State.tileDigestOf (s : State) (ch : Nat) : Nat :=
  Config.fn 2 (([.FMT_DOMAIN, .TIME_OFS, .TIME_REL_WIN, .FMT_WORK, .FMT_CHROMA, .FMT_DEPTH, .FMT_WIDTH] : List Cch).map
    (fun f => s.get (.cch f) ch 0 1))

/-- The digests of the tile groups whose slot fires leave over Tether (R206). -/
def sendDigests (slot : Nat) (s : State) : State :=
  forEach ((List.range 63).map (· + 1)) (fun g s =>
    match (s.chansAt slot).find? (fun ch => s.get (.cch .TIME_TILE_GRP) ch 0 1 == g) with
    | some ch => s.when ([0, 1, 2].any (fun l => s.flag (.mid .TTH_REV_UP) l)) (·.emit (.tileDigest g (s.tileDigestOf ch)))
    | none => s) s

/-- The time in ns at which the position of an armed slot is reached (R58). -/
def State.handoverNs (s : State) (n : Nat) : Nat :=
  s.timeOfTicks (s.get (.trs .HO_CTRL_DOMAIN) n) (s.get (.trs .xHO_AT) n)

/-- A slot fires (R61): every attached bank switches on one edge, and FIRED, FIRE_COUNT and the slot's source follow.
Slot 15 has no bank of its own: it serves bundle activation (R65). -/
def fireSlot (n : Nat) (s : State) : State :=
  let s := if n < 15 then firePublish n (fireBuckets n (sendDigests n (forEach (s.chansAt n) switchChan s))) else s
  let s := (s.put (.trs .HO_CTRL_ARM) 0 n).put (.trs .HO_CTRL_FIRED) 1 n
  let s := s.bump (.trs .HO_CTRL_FIRE_COUNT) n
  evPulse (864 + n) (s.get (.trs .HO_CTRL_FIRE_COUNT) n % 2 ^ 14) s

/-- An armed slot's position is reached (R58, R60). -/
def State.slotReached (s : State) (n : Nat) : Bool :=
  let dom := s.get (.trs .HO_CTRL_DOMAIN) n
  s.rasterRuns dom && decide (s.get (.trs .xHO_AT) n ≤ s.ticksNow dom)

/-- The armed slot whose position was reached first: the next handover to take effect (R59, R60). -/
def State.nextHandover (s : State) : Option Nat :=
  ((List.range 16).filter (fun n => s.flag (.trs .HO_CTRL_ARM) n && s.slotReached n)).foldl (fun b n => match b with
    | none => some n
    | some m => if s.handoverNs n < s.handoverNs m then some n else some m) none

/-- Every handover that has come due takes effect, the earliest first (R59). No more than the 16 slots can be armed.
DEDUCED, log 107. -/
def fireDue (s : State) : State :=
  forEach (List.range 16) (fun _ s => match s.nextHandover with
    | some n => fireSlot n s
    | none => s) s

/-- The state at the moment of a time-driven command: the clock moved on, then the handovers that have come due, so that
the command sees the configuration that is active after them (R59).
DEDUCED, log 10. -/
def State.tick (s : State) (n : Now) : State := fireDue (s.clock n)

/-- The form of a time-driven command's meaning: the clock first moves to its moment, and due handovers fire.
DEDUCED, log 9. -/
def State.runAt (s : State) (n : Now) (f : State → State) : Host.Outcome State Fault Refusal :=
  s.run (fun t => f (t.tick n))

end Sys2Proof.Machine
end

