-- ==== Sys2Proof/Machine/Time.lean ====
section
/-!
DEFINITION. The time base and its servo (chapter 2): PTP on the ports, the states of R47, realignment, PPS, and the
arming of handover slots. The firing of a slot stands in Handover.lean.
-/

namespace Sys2Proof.Machine

/-- The time-base state changes, and TIME_STATE asserts (R360); LOCKED ends step 8 of start-up (R415). HOLDOVER and
UNLOCKED go on from where the time base stands (R47, R51). Entry to UNLOCKED and exit from it each raise TIME_UNLOCKED,
and `FLT_STATUS.UNLOCKED` follows (R469). -/
def setTb (st : Nat) (s : State) : State :=
  let was := s.tbState
  if was = st then s
  else
    let s := s.put (.trs .STATUS_STATE) st
    let s := s.when (st == tbUNLOCKED) (fun s => raise 0x02 2 0 1 (s.put (.flt .STATUS_UNLOCKED) 1))
    let s := s.when (was == tbUNLOCKED) (fun s => raise 0x02 2 0 0 (s.put (.flt .STATUS_UNLOCKED) 0))
    let s := s.when (was == tbHOLDOVER) (fun s =>
      let n := s.osc - s.get (.trs .xHOLD_AT)
      (s.put (.trs .STATUS_HOLD_ELAPSED) (min 255 (n / 1500000000))).put (.trs .xHOLD_AT) n)
    let s := s.when (st == tbHOLDOVER || st == tbUNLOCKED) (fun s =>
      ((s.put (.trs .xH_TB) s.tb).put (.trs .xH_OSC) s.osc).put (.trs .xTRIM) 0)
    let s := s.when (was == tbFREE) (fun s => s.put (.trs .xLEFT_TAI) s.tai)
    let s := s.when (st == tbLOCKED) (fun s => (s.put (.trs .STATUS_HOLD_ELAPSED) 0).put (.trs .xHOLD_AT) 0)
    let s := s.when (st == tbHOLDOVER) (fun s =>
      (s.put (.trs .xHOLD_AT) (s.osc - s.get (.trs .xHOLD_AT))).put (.trs .xHOLD_DUE)
        (s.dueIn (clampTo 1 60 (s.get (.trs .CTRL_HOLD_TO)) * secNs)))
    let s := s.when (st == tbLOCKED && s.get (.mid .BOOT_STEP) == 7) (fun s => s.put (.mid .BOOT_STEP) 8)
    evPulse 880 st s

/-- The interface that carries a port's PTP instance (R43): SUBPORT chooses it where the port is split. -/
def State.ptpIface (s : State) (p : Nat) : Nat :=
  4 * p + (if 1 < subPorts (s.get (.prs .PORT_CFG_MODE) (p / 2) (p % 2)) then s.get (.trs .PORT_CFG_SUBPORT) p else 0)

/-- A port's PTP instance takes a message (R42, R43): it is enabled, the message came on its sub-port by multicast over
a supported transport, and it carries the E48's domain number. -/
def State.ptpOn (s : State) (p : Nat) (m : PtpPath) : Bool :=
  s.flag (.trs .PORT_CFG_PTP_EN) p && s.ptpIface p == 4 * p + m.sub.val && s.get (.trs .PTP_CFG_DOMAIN) == m.domain &&
  !m.unicast && (match m.transport with
    | .udp4 => true
    | .udp6 => s.flag (.trs .PTP_CFG_IPV6)
    | .ethernet => false)

/-- An expected message interval in ns: 2^log seconds, with `log` taken into its range (R42, R66). -/
def intervalNs (lo hi log : Int) : Nat :=
  let l := max lo (min hi log)
  if l < 0 then secNs / 2 ^ (-l).toNat else secNs * 2 ^ l.toNat

/-- The receipt timeouts (R67). -/
def State.syncToNs (s : State) : Nat :=
  clampTo 2 15 (s.get (.trs .PTP_CFG_SYNC_RCPT)) * intervalNs (-7) 1 (s.int (.trs .PTP_CFG_SYNC_LOG))
def State.annToNs (s : State) : Nat :=
  clampTo 2 10 (s.get (.trs .PTP_CFG_ANN_RCPT)) * intervalNs (-3) 1 (s.int (.trs .PTP_CFG_ANN_LOG))

/-- A port has a qualified master. -/
def State.hasMaster (s : State) (p : Nat) : Bool := s.flag (.trs .xMASTER) p

/-- Some port has a qualified master. -/
def State.anyMaster (s : State) : Bool := [0, 1, 2, 3].any s.hasMaster

/-- The dataset of a port's master, up to the sixteenth member.
DEDUCED, log 30. -/
def State.dataset (s : State) (p : Nat) : List Nat :=
  ((List.range 16).map (fun j => s.get (.trs .xDATASET) p j)).takeWhile (· != 0)

/-- One dataset is better than another: the lexicographically lower (R44).
DEDUCED, log 30. -/
def dsBetter : List Nat → List Nat → Bool
  | [], [] => false
  | [], _ :: _ => true
  | _ :: _, [] => false
  | a :: x, b :: y => if a = b then dsBetter x y else decide (a < b)

/-- The active port follows the best-master-clock algorithm (R44): it changes only when its master is lost or another
port offers a better dataset, and among equals the lower port number wins.
DEDUCED, log 30. -/
def elect (s : State) : State :=
  let cand := [0, 1, 2, 3].filter s.hasMaster
  let cur := s.get (.trs .STATUS_ACTIVE_PORT)
  let start := if s.hasMaster cur then some cur else none
  let best := cand.foldl (fun b p => match b with
    | none => some p
    | some q => if dsBetter (s.dataset p) (s.dataset q) then some p else some q) start
  match best with
  | none => s
  | some p => s.put (.trs .STATUS_ACTIVE_PORT) p

/-- The offset is recorded, and above 1 ms OFFSET_LARGE reads 1 with one Notice (R48).
DEDUCED, log 31. -/
def setOffset (off : Int) (s : State) : State :=
  let sat : Int := max (-2147483648) (min 2147483647 off)
  let s := s.putInt (.trs .OFFSET_OFFSET) sat
  let large := decide (1000000 < off ∨ off < -1000000)
  let was := s.flag (.trs .STATUS_OFFSET_LARGE)
  let s := s.putB (.trs .STATUS_OFFSET_LARGE) large
  s.when (large && !was) (raise 0x01 2 0 1)

/-- The time base moved by a number of ns, towards the master's time. -/
def stepTb (off : Int) (s : State) : State := { s with tb := (s.tb - off * 65536 : Int).toNat }

/-- The master's time as the active port measures it: the time base less the offset (R49). -/
def noteMaster (off : Int) (s : State) : State :=
  (s.put (.trs .xM_TB) (intCode (s.tb - off * 65536))).put (.trs .xM_OSC) s.osc

/-- The master's time now, by the local oscillator since it was measured (R49).
DEDUCED, log 31. -/
def State.masterTb (s : State) : Nat :=
  (intDecode (s.get (.trs .xM_TB)) + (oscUnits (s.osc - s.get (.trs .xM_OSC)) : Nat)).toNat

/-- One Sync measurement of the active port and the state changes of R47. After the one step at first lock TRS_OFFSET
reads 0.
DEDUCED, log 31; DESIGN CHOICE, log 33. -/
def servo (off : Int) (s : State) : State :=
  let small := decide (-100 ≤ off ∧ off ≤ 100)
  let far := decide (1000 < off ∨ off < -1000)
  let st := s.tbState
  let s := noteMaster off s
  if st = tbFREE then setTb tbLOCKING (setOffset 0 ((stepTb off s).put (.trs .xGOOD) 0))
  else
    let s := setOffset off s
    if st = tbLOCKED then
      let n := if far then s.get (.trs .xBAD) + 1 else 0
      if n = 4 then setTb tbLOCKING ((s.put (.trs .xBAD) 0).put (.trs .xGOOD) 0) else s.put (.trs .xBAD) n
    else
      let s := if st = tbLOCKING then s else setTb tbLOCKING (s.put (.trs .xGOOD) 0)
      let n := if small then s.get (.trs .xGOOD) + 1 else 0
      if n = 16 then setTb tbLOCKED ((s.put (.trs .xGOOD) 0).put (.trs .xBAD) 0) else s.put (.trs .xGOOD) n

/-- The timestamp in ns of an event message that a port receives now: the time base, corrected for the port's PHY latency
and its link asymmetry (R45). -/
def State.rxNs (s : State) (p : Nat) : Int :=
  ((s.tb * 1000 / 65536 : Nat) - (Config.phyPs p : Int) - s.int (.trs .PORT_CFG_ASYM) p) / 1000

/-- The timestamp in ns of an event message that a port sends now (R45). -/
def State.txNs (s : State) (p : Nat) : Int := ((s.tb * 1000 / 65536 : Nat) + (Config.phyPs p : Int)) / 1000

/-- A complete Sync measurement on a port, from the difference between its receive timestamp and the origin time and
correction: less the path delay it is the offset. A master qualifies with its first complete measurement while an Announce
message of it holds; the active port is then chosen, and the servo takes the measurement of the active port.
DEDUCED, log 31; DESIGN CHOICE, log 33. -/
def syncMeasured (p : Nat) (diff : Int) (s : State) : State :=
  let off := diff - s.int (.trs .xDELAY) p
  let s := s.put (.trs .xMS_DIFF) (intCode diff) p
  let s := s.when (s.flag (.trs .xANN_OK) p) (fun s => elect (s.put (.trs .xMASTER) 1 p))
  s.when (s.hasMaster p && s.get (.trs .STATUS_ACTIVE_PORT) == p) (servo off)

/-- A Sync message arrives (R42, R47): a two-step one waits for its Follow_Up. -/
def syncMsg (p : Nat) (m : PtpTiming) (s : State) : State :=
  if s.ptpOn p m.path then
    let s := s.put (.trs .xSYNC_DUE) (s.dueIn s.syncToNs) p
    if m.twoStep then
      ((s.put (.trs .xSYNC_SEQ) m.seqId p).put (.trs .xSYNC_RX) (intCode (s.rxNs p - m.corr)) p).put (.trs .xSYNC_PEND) 1 p
    else syncMeasured p (s.rxNs p - m.corr - m.origin) s
  else s

/-- The Follow_Up of a two-step Sync arrives and completes its measurement. -/
def followUpMsg (p : Nat) (m : PtpTiming) (s : State) : State :=
  if s.ptpOn p m.path && s.flag (.trs .xSYNC_PEND) p && s.get (.trs .xSYNC_SEQ) p == m.seqId % 65536 then
    syncMeasured p (intDecode (s.get (.trs .xSYNC_RX) p) - m.corr - m.origin) (s.put (.trs .xSYNC_PEND) 0 p)
  else s

/-- An Announce message arrives (R44). -/
def announceMsg (p : Nat) (a : Announce) (s : State) : State :=
  if s.ptpOn p a.path then
    let s := forEach (List.range 16) (fun j s =>
      s.put (.trs .xDATASET) (match a.dataset[j]? with | some v => v + 1 | none => 0) p j) s
    elect ((s.put (.trs .xANN_DUE) (s.dueIn s.annToNs) p).put (.trs .xANN_OK) 1 p)
  else s

/-- A port loses its master (R47): with no qualified master left, LOCKING and LOCKED become HOLDOVER.
DEDUCED, log 29. -/
def masterLost (p : Nat) (s : State) : State :=
  let s := s.put (.trs .xMASTER) 0 p
  if s.anyMaster then elect s
  else if s.tbState = tbLOCKING ∨ s.tbState = tbLOCKED then setTb tbHOLDOVER s
  else s

/-- The state of the time base when it starts free (R52): TAI 0 plus the time since power good. It then holds the nominal
frequency (R51). -/
def startFree (s : State) : State := setTb tbUNLOCKED (({ s with tb := s.nsUp * 65536 } : State).put (.trs .xF_OSC) 0)

/-- The value of the first-lock timeout on an edge, in ns (R52). -/
def State.firstLockNs (s : State) : Nat := clampTo 1 600 (s.get (.trs .CTRL_FIRSTLOCK_TO)) * secNs

/-- A flow has raster pacing enabled: some per-flow bucket is in RASTER mode.
DESIGN CHOICE, log 33. -/
def State.rasterPaced (s : State) : Bool :=
  (s.store.keysOf (.shp .BKT_CFG_MODE)).any (fun k => k.k == 1 && decide (k.j < 4096) && s.store.get k == 3)

/-- A realignment request (R49): the time base steps to the active master's time, and TRS_OFFSET then reads 0. A
handover whose position the step reaches or passes fires (R60).
DESIGN CHOICE, log 33. -/
def realignReq (s : State) : State :=
  let ok := (s.tbState == tbLOCKING || s.tbState == tbLOCKED) &&
    !(List.range 48).any (fun ch => s.get (.cch .STATUS_STATE) ch == chRUNNING || s.get (.cch .STATUS_STATE) ch == chLEAVING)
    && !s.rasterPaced
  if ok then fireDue (setOffset 0 { s with tb := s.masterTb })
  else s.put (.trs .STATUS_REALIGN_BUSY) 1

/-- An activation holds slot 15, and host writes to it are ignored (R65). -/
def State.slot15Held (s : State) : Bool := decide (4 ≤ s.get (.fwu .STATUS_STATE))

/-- The target of a handover slot as ticks since the epoch: none where it lies in the past (R55, R63). A target line at or
above TOTAL_LINES counts on into later pictures.
DESIGN CHOICE, log 32. -/
def State.hoTarget (s : State) (n dom : Nat) : Option Nat :=
  let cur := s.picNow dom
  let diff := (s.get (.trs .HO_TGT_HI_PICTURE) n + 2 ^ 32 - cur % 2 ^ 32) % 2 ^ 32
  if 2 ^ 31 ≤ diff then none
  else
    some ((cur + diff) * s.picTicks dom + s.get (.trs .HO_TGT_LO_LINE) n * 65536 + s.get (.trs .HO_TGT_LO_TICK) n)

/-- The position of a domain at a number of ticks lies at least 1 us ahead (R63). -/
def State.armLead (s : State) (dom k : Nat) : Bool := decide (s.tb + 1000 * 65536 ≤ s.timeOfTicks dom k * 65536)

/-- An ARM request (R63): the slot arms, or LATE is set.
DESIGN CHOICE, log 32. -/
def armSlot (n : Nat) (s : State) : State :=
  let dom := s.get (.trs .HO_CTRL_DOMAIN) n
  match (if s.rasterRuns dom then s.hoTarget n dom else none) with
  | none => s.put (.trs .HO_CTRL_LATE) 1 n
  | some k =>
    if s.armLead dom k then (s.put (.trs .xHO_AT) k n).put (.trs .HO_CTRL_ARM) 1 n
    else s.put (.trs .HO_CTRL_LATE) 1 n

/-- A write of `TRS_HO_CTRL[n]` (R63 to R65). DISARM acts on a slot armed before the write, unless its position is
reached, when the handover wins (R64); the DOMAIN field is ignored while the slot is armed. While an activation holds slot
15, writes of it are ignored, those of the Ostlers as those of the hosts.
DESIGN CHOICE, log 32. -/
def hoCtrlWrite (n v : Nat) (s : State) : State :=
  if n = 15 ∧ s.slot15Held then s
  else
    let s := s.when (bitOf v 12) (fun s => s.put (.trs .HO_CTRL_FIRED) 0 n)
    let s := s.when (bitOf v 13) (fun s => s.put (.trs .HO_CTRL_LATE) 0 n)
    if s.flag (.trs .HO_CTRL_ARM) n then
      if s.slotReached n then fireSlot n s else s.when (bitOf v 9) (fun s => s.put (.trs .HO_CTRL_ARM) 0 n)
    else
      let s := s.put (.trs .HO_CTRL_DOMAIN) (v % 8) n
      s.when (bitOf v 8 && !bitOf v 9) (armSlot n)

/-- Writes of the target registers of a slot are ignored while it is armed (R64), and of slot 15 while an activation
holds it (R65). -/
def State.hoTgtLocked (s : State) (n : Nat) : Bool := s.flag (.trs .HO_CTRL_ARM) n || (n == 15 && s.slot15Held)

/-- SYNC_RECEIVED (R47). -/
def execSyncReceived (port : NetPort) (m : PtpTiming) (now : Now) (s : State) : Host.Outcome State Fault Refusal :=
  s.runAt now (syncMsg port m)

/-- FOLLOW_UP_RECEIVED (R42). -/
def execFollowUpReceived (port : NetPort) (m : PtpTiming) (now : Now) (s : State) :
    Host.Outcome State Fault Refusal := s.runAt now (followUpMsg port m)

/-- ANNOUNCE_RECEIVED (R44). -/
def execAnnounceReceived (port : NetPort) (a : Announce) (now : Now) (s : State) :
    Host.Outcome State Fault Refusal := s.runAt now (announceMsg port a)

/-- A delay response arrives, of the mechanism that DELAY_MECH chooses: the path delay and the rate of requests (R42). -/
def delayRespMsg (p : Nat) (r : DelayResp) (s : State) : State :=
  s.when (s.ptpOn p r.path && r.p2p == s.flag (.trs .PTP_CFG_DELAY_MECH)) (fun s =>
    (s.putInt (.trs .xDELAY) r.delay p).putInt (.trs .xMIN_LOG) r.minLog p)

/-- DELAY_RESP_RECEIVED (R42). -/
def execDelayRespReceived (port : NetPort) (r : DelayResp) (now : Now) (s : State) :
    Host.Outcome State Fault Refusal := s.runAt now (delayRespMsg port r)

/-- A delay request starts on its interface: it takes the next sequence number and its departure timestamp (R45), and is a
Delay_Req or a Pdelay_Req as DELAY_MECH says (R42). -/
def emitDelayReq (p : Nat) (s : State) : State :=
  let s := (s.bump (.trs .xREQ_SEQ) p).put (.trs .xREQ_TX) (intCode (s.txNs p)) p
  s.emit (.delayReq p (s.flag (.trs .PTP_CFG_DELAY_MECH)) (s.get (.trs .xREQ_SEQ) p))

/-- A delay request leaves when the master's rate lets it (R42): at once on an idle interface, otherwise at its next
frame boundary (R276). Nothing is sent in the safe state (R465), nor on a sub-port that is not usable (R269). -/
def delayReq (p : Nat) (s : State) : State :=
  let due := s.get (.trs .xREQ_AT) p == 0 ||
    elapsedNs (s.get (.trs .xREQ_AT) p - 1) s.osc (intervalNs (-7) 5 (s.int (.trs .xMIN_LOG) p))
  if s.flag (.trs .PORT_CFG_PTP_EN) p && s.hasMaster p && due && !s.safe && s.ifaceUp (s.ptpIface p) then
    let s := s.put (.trs .xREQ_AT) (s.osc + 1) p
    if s.flag (.shp .xWIRE) (s.ptpIface p) then s.put (.trs .xDREQ) 1 p else emitDelayReq p s
  else s

/-- DELAY_REQ_SEND (R42). -/
def execDelayReqSend (port : NetPort) (now : Now) (s : State) : Host.Outcome State Fault Refusal :=
  s.runAt now (delayReq port)

/-- The Sync receipt timeout of a port (R47, R67). -/
def syncTimeout (p : Nat) (s : State) : State :=
  s.when (s.expired (.trs .xSYNC_DUE) p) (fun s => masterLost p (s.put (.trs .xSYNC_DUE) 0 p))

/-- SYNC_RECEIPT_TIMEOUT (R47). -/
def execSyncReceiptTimeout (port : NetPort) (now : Now) (s : State) : Host.Outcome State Fault Refusal :=
  s.runAt now (syncTimeout port)

/-- The Announce receipt timeout of a port (R47, R67). -/
def annTimeout (p : Nat) (s : State) : State :=
  s.when (s.expired (.trs .xANN_DUE) p) (fun s =>
    masterLost p ((s.put (.trs .xANN_DUE) 0 p).put (.trs .xANN_OK) 0 p))

/-- ANNOUNCE_RECEIPT_TIMEOUT (R47). -/
def execAnnounceReceiptTimeout (port : NetPort) (now : Now) (s : State) : Host.Outcome State Fault Refusal :=
  s.runAt now (annTimeout port)

/-- Holdover has lasted HOLD_TO (R47). -/
def holdTimeout (s : State) : State :=
  s.when (s.tbState == tbHOLDOVER && s.expired (.trs .xHOLD_DUE)) (setTb tbUNLOCKED)

/-- HOLDOVER_TIMEOUT (R47). -/
def execHoldoverTimeout (now : Now) (s : State) : Host.Outcome State Fault Refusal := s.runAt now holdTimeout

/-- The first-lock timeout (R52): a Notice, FIRSTLOCK_EXPIRED and the FIRSTLOCK source, and with FREE_START the time
base starts free. -/
def firstLock (s : State) : State :=
  if s.tbState == tbFREE && !s.flag (.trs .xFREE_T0) && elapsedNs (s.get (.trs .xFIRST_AT)) s.osc s.firstLockNs then
    let s := raise 0x01 2 0 2 ((s.put (.trs .xFREE_T0) 1).put (.trs .STATUS_FIRSTLOCK_EXPIRED) 1)
    let s := evPulse 882 0 s
    s.when (s.flag (.trs .CTRL_FREE_START)) startFree
  else s

/-- FIRST_LOCK_TIMEOUT (R52). -/
def execFirstLockTimeout (now : Now) (s : State) : Host.Outcome State Fault Refusal := s.runAt now firstLock

/-- What the time base has to move by to reach the nearest whole second, in 2^-16 ns. -/
def State.toSecond (s : State) : Int :=
  let u := secNs * 65536
  let r := s.tb % u
  if 2 * r < u then -(r : Int) else ((u - r : Nat) : Int)

/-- A PPS_IN edge is timestamped, and PPS_OK follows the spacing of the edges: 1 s within 1 us (R53, R68). In HOLDOVER with
source REF10_PPS the phase is to be trimmed toward the edge (R50). -/
def ppsIn (s : State) : State :=
  let last := s.get (.trs .xPPS_AT)
  let ok := last != 0 && elapsedNs (last - 1) s.osc (secNs - usNs) && !elapsedNs (last - 1) s.osc (secNs + usNs + 1)
  let s := evPulse 881 0 ((s.put (.trs .xPPS_AT) (s.osc + 1)).putB (.trs .STATUS_PPS_OK) ok)
  let s := s.when (s.tbState == tbHOLDOVER && s.get (.trs .CTRL_HOLD_SRC) == 3) (fun s =>
    s.put (.trs .xTRIM) (intCode s.toSecond))
  s.put (.trs .PPS_TS) s.tai

/-- PPS_IN_EDGE (R53). -/
def execPpsInEdge (now : Now) (s : State) : Host.Outcome State Fault Refusal := s.runAt now ppsIn

/-- The whole second within 10 ns of which the time base stands, if any (R53). -/
def State.ppsSecond (s : State) : Option Nat :=
  let t := s.tai + 10
  if t % secNs ≤ 20 then some (t / secNs) else none

/-- PPS_OUT rises within 10 ns of a whole second of the time base, once for each, and falls 1 ms later; it is low in FREE
(R53).
DEDUCED, log 31. -/
def ppsOutEdge (s : State) : State :=
  if s.flag (.trs .xPPS) then
    if s.tbState == tbFREE || elapsedNs (s.get (.trs .xPPS_RISE)) s.osc msNs then
      (s.put (.trs .xPPS) 0).emit (.pps (s.get (.trs .xPPS_SEC) - 1) false)
    else s
  else match s.ppsSecond with
    | some sec =>
      if s.tbState != tbFREE && s.get (.trs .xPPS_SEC) != sec + 1 then
        (((s.put (.trs .xPPS_SEC) (sec + 1)).put (.trs .xPPS) 1).put (.trs .xPPS_RISE) s.osc).emit (.pps sec true)
      else s
    | none => s

/-- PPS_OUT (R53). -/
def execPpsOut (now : Now) (s : State) : Host.Outcome State Fault Refusal := s.runAt now ppsOutEdge

/-- REF10_IN_CHANGE (R68): a 10 MHz reference within its range appears or goes. -/
def execRef10InChange (present : Bool) (s : State) : Host.Outcome State Fault Refusal :=
  s.run (fun s => s.putB (.trs .STATUS_REF10_OK) present)

end Sys2Proof.Machine
end

