-- ==== Sys2Proof/Machine/Pool.lean ====
section
/-!
DEFINITION. The buffer pool manager (Paddock, chapter 12): availability, grants and frees of cells and class buffers,
cell chains with their holders and reference counts, and the thresholds.
-/

namespace Sys2Proof.Machine

/-- Cells of a die (R284). -/
def cellTotal : Nat := 131072

/-- Cells that an owner holds on a die. -/
def State.cellsHeld (s : State) (d o : Nat) : Nat :=
  (s.chains.filter (fun c => c.die == d && c.holder == o)).foldl (fun a c => a + c.cells) 0

/-- F of the cell pool. -/
def State.cellFree (s : State) (d : Nat) : Nat :=
  cellTotal - s.get (.pdk .xQUAR) d - (s.chains.filter (fun c => c.die == d)).foldl (fun a c => a + c.cells) 0

/-- The cell reserve and limit of an owner (R288); MAX counts units of 8 cells, and values above the pool are taken as
the pool. -/
def State.cellRsv (s : State) (d o : Nat) : Nat := s.get (.pdk .OWN_CELL_RSV) d o
def State.cellMax (s : State) (d o : Nat) : Nat := 8 * min 16384 (s.get (.pdk .OWN_CELL_MAX) d o)

/-- The unmet cell reserve of an owner. -/
def State.cellUnmet (s : State) (d o : Nat) : Nat := s.cellRsv d o - s.cellsHeld d o

/-- The unmet cell reserves of every owner but one: U of R288. -/
def State.cellU (s : State) (d o : Nat) : Nat :=
  ((List.range 64).filter (· != o)).foldl (fun a x => a + s.cellUnmet d x) 0

/-- `n` cells, taken one at a time, are available to an owner (R288, R293). -/
def State.availCells (s : State) (d o n : Nat) : Bool :=
  let f := s.cellFree d
  let u := s.cellU d o
  let h := s.cellsHeld d o
  let mx := s.cellMax d o
  (List.range n).all (fun k =>
    (decide (h + k < s.cellRsv d o) && decide (k + 1 ≤ f)) ||
    (decide (k + 1 + u ≤ f) && (mx == 0 || decide (h + k < mx))))

/-- Cells that a frame of `len` bytes with its FCS occupies. -/
def cellsFor (len : Nat) : Nat := ceilDiv len 256

/-- The peak of an owner's held cells, in units of 64 cells, saturating (R297). -/
def notePeak (d o : Nat) (s : State) : State :=
  let p := min 2047 (s.cellsHeld d o / 64)
  s.when (s.get (.pdk .OWN_CHELD_PEAK) d o < p) (fun s => s.put (.pdk .OWN_CHELD_PEAK) p d o)

/-- The size of a class in bytes (R284). -/
def classSize (c : Nat) : Nat := 4096 * 4 ^ c

/-- The default count of a class per group (R284). -/
def defaultCount (c : Nat) : Nat := [8192, 2048, 1024, 512, 128, 64, 32, 46].getD c 0

/-- Buffers that an owner holds in a pool, and F of the pool. -/
def State.bufsHeld (s : State) (g c o : Nat) : Nat :=
  (s.bufs.filter (fun b => b.grp == g && b.cls == c && b.owner == o)).length
def State.classFree (s : State) (g c : Nat) : Nat :=
  s.get (.pdk .CLS_COUNT) g c - (s.bufs.filter (fun b => b.grp == g && b.cls == c)).length

/-- The home group of an owner on a die (R287). -/
def State.homeGroup (s : State) (d o : Nat) : Nat := 4 * d + s.get (.pdk .OWN_CFG_GROUP) d o % 4

/-- The unmet class reserve of an owner in a pool: only its home group counts. -/
def State.classUnmet (s : State) (d g c o : Nat) : Nat :=
  if s.homeGroup d o = g then s.get (.pdk .OWN_RSV_RSV) d o c - s.bufsHeld g c o else 0

/-- U of a class pool (R288). -/
def State.classU (s : State) (d g c o : Nat) : Nat :=
  ((List.range 64).filter (· != o)).foldl (fun a x => a + s.classUnmet d g c x) 0

/-- An owner is inside its reserve in a pool. -/
def State.insideRsv (s : State) (d g c o : Nat) : Bool :=
  s.homeGroup d o == g && decide (s.bufsHeld g c o < s.get (.pdk .OWN_RSV_RSV) d o c)

/-- One buffer of a pool is available to an owner (R288). -/
def State.availBuf (s : State) (d g c o : Nat) : Bool :=
  (s.insideRsv d g c o && decide (1 ≤ s.classFree g c)) || decide (s.classU d g c o + 1 ≤ s.classFree g c)

/-- The `k`-th index that a list of held indexes leaves free.
DESIGN CHOICE, log 50. -/
def nthFree (held : List Nat) : Nat → Nat → Nat → Nat
  | 0, _, i => i
  | n + 1, k, i =>
    let j := k + (held.filter (fun h => decide (h ≤ i))).length
    if j = i then i else nthFree held n k j

/-- The handle of a class buffer (R286). -/
def Buf.handle (b : Buf) : Nat := b.ix + b.cls * 2 ^ 16 + b.grp * 2 ^ 19

/-- A buffer of a pool is granted to an owner. Which free buffer it is, the spec leaves open.
DESIGN CHOICE, log 50. -/
def grantBuf (d g c o : Nat) (s : State) : Buf × State :=
  let (v, s) := s.free
  let held := (s.bufs.filter (fun b => b.grp == g && b.cls == c)).map (·.ix)
  let k := v % max 1 (s.classFree g c)
  let b : Buf := ⟨g, c, nthFree held (held.length + 1) k k, o⟩
  let s : State := { s with bufs := s.bufs ++ [b] }
  let s := s.when (s.get (.pdk .xPEAK) d o c < s.bufsHeld g c o) (fun s => s.put (.pdk .xPEAK) (s.bufsHeld g c o) d o c)
  (b, s.bump (.pdk .CNT) d 0)

/-- MAX_UP of an owner (R289). -/
def State.maxUp (s : State) (d o : Nat) : Nat := s.get (.pdk .OWN_CFG_MAX_UP) d o

/-- The smallest class that holds a size, 8 where none does (R289). -/
def classFor (bytes : Nat) : Nat := ((List.range 8).find? (fun c => decide (bytes ≤ classSize c))).getD 8

/-- A class request on its way through the pools: its owner, the class it first asked for and the class it now asks. -/
structure ClassReq where
  owner : Nat
  first : Nat
  cls   : Nat
  deriving DecidableEq, Repr

/-- The distance of an owner from a pool's round-robin pointer (R290). -/
def rrDist (ptr o : Nat) : Nat := (o + 64 - ptr) % 64

/-- Requests in the order in which a pool's round robin serves them. -/
def rrInsert (ptr : Nat) (r : ClassReq) : List ClassReq → List ClassReq
  | [] => [r]
  | q :: t => if rrDist ptr r.owner < rrDist ptr q.owner then r :: q :: t else q :: rrInsert ptr r t
def rrSort (ptr : Nat) (l : List ClassReq) : List ClassReq := l.foldl (fun a r => rrInsert ptr r a) []

/-- What a pool grants: each request with its buffer. -/
abbrev Grants := List (ClassReq × Buf)

/-- A grant among the requests is one for this request. -/
def Grants.has (a : Grants) (r : ClassReq) : Bool := a.any (fun g => g.1 == r)

/-- Each request of a list in turn takes a buffer where one is available to its owner. -/
def grantEach (d g c : Nat) (l : List ClassReq) (s : State) : Grants × State :=
  l.foldl (fun p r =>
    if p.2.availBuf d g c r.owner then
      let (b, t) := grantBuf d g c r.owner p.2
      (p.1 ++ [(r, b)], t)
    else p) (([] : Grants), s)

/-- One pool's edge (R290): the requests inside their reserve, then the others by round robin. Where one of those goes
unserved beside a grant, the grants are contested. The second part tells whether the round robin granted anything. -/
def servePool (d g c : Nat) (l : List ClassReq) (s : State) : Grants × Bool × State :=
  let (inside, s) := grantEach d g c (l.filter (fun r => s.insideRsv d g c r.owner)) s
  let rest := rrSort (s.get (.pdk .xRR) d (g % 4) c) (l.filter (fun r => !inside.has r))
  let (won, s) := grantEach d g c rest s
  let s := match won.getLast? with
    | some w => s.when (decide (won.length < rest.length)) (fun s =>
        (s.put (.pdk .xRR) ((w.1.owner + 1) % 64) d (g % 4) c).bump (.pdk .CNT) d 3 0 won.length)
    | none => s
  (inside ++ won, !won.isEmpty, s)

/-- The requests of an edge on the pools of a group: those that fall back to the class that comes next, those that ask
again on the next edge, and what is granted. -/
structure EdgeReqs where
  here : List ClassReq
  next : List ClassReq
  got  : List (Nat × Buf)
  deriving DecidableEq, Repr

/-- The next larger class, within the owner's MAX_UP (R289). -/
def State.mayGrow (s : State) (d : Nat) (r : ClassReq) : Bool :=
  decide (r.cls < 7) && decide (r.cls < r.first + s.maxUp d r.owner)

/-- One class pool of a group on an edge. A request that no other contests falls back within the edge, one that loses the
round robin on the next; a request that may not grow fails (R289, R290). -/
def edgeClass (d g : Nat) (l : List ClassReq) (p : EdgeReqs × State) (c : Nat) : EdgeReqs × State :=
  let mine := p.1.here ++ l.filter (fun r => r.cls == c)
  if mine.isEmpty then p
  else
    let (got, lostRr, s) := servePool d g c mine p.2
    let left := mine.filter (fun r => !got.has r)
    let grow := (left.filter (s.mayGrow d)).map (fun r => { r with cls := r.cls + 1 })
    let s := s.bump (.pdk .CNT) d 2 0 (got.filter (fun a => decide (a.1.first < a.1.cls))).length
    let s := s.bump (.pdk .CNT) d 1 0 (left.filter (fun r => !s.mayGrow d r)).length
    let gave := p.1.got ++ got.map (fun a => (a.1.owner, a.2))
    (if lostRr then ⟨[], p.1.next ++ grow, gave⟩ else ⟨grow, p.1.next, gave⟩, s)

/-- Requests that fall on one edge on a die, and the edges after it on which those that lost ask again. -/
def allocRounds (d : Nat) : Nat → List ClassReq → List (Nat × Buf) → State → List (Nat × Buf) × State
  | 0, _, acc, s => (acc, s)
  | n + 1, l, acc, s =>
    let (e, s) := (List.range 4).foldl (fun (p : EdgeReqs × State) r =>
      let mine := l.filter (fun q => p.2.homeGroup d q.owner == 4 * d + r)
      (List.range 8).foldl (edgeClass d (4 * d + r) mine) ({ p.1 with here := [] }, p.2)) ((⟨[], [], acc⟩ : EdgeReqs), s)
    allocRounds d n e.next e.got s

/-- Class requests of one edge; a request for more than the largest class fails at once. -/
def allocEdge (d : Nat) (l : List (Nat × Nat)) (s : State) : List (Nat × Buf) × State :=
  let bad := l.filter (fun r => decide (8 ≤ r.2))
  let s := forEach bad (fun _ s => s.bump (.pdk .CNT) d 1) s
  allocRounds d 8 ((l.filter (fun r => decide (r.2 < 8))).map (fun r => ⟨r.1, r.2, r.2⟩)) [] s

/-- One class request of an owner. -/
def allocOne (d o c : Nat) (s : State) : Option Buf × State :=
  let (got, s) := allocEdge d [(o, c)] s
  ((got.head?).map (·.2), s)

/-- The statuses of a host request (R300). -/
def stOK : Nat := 0
def stEMPTY : Nat := 1
def stDOUBLE : Nat := 2
def stFOREIGN : Nat := 3
def stBADHANDLE : Nat := 4
def stNOTREADY : Nat := 5

/-- What a free of a handle by an owner on a die comes to (R292). -/
def State.freeStatus (s : State) (d o h : Nat) : Nat :=
  let g := bitsOf h 19 3
  let c := bitsOf h 16 3
  let i := bitsOf h 0 16
  if g / 4 ≠ d ∨ s.get (.pdk .CLS_COUNT) g c ≤ i then stBADHANDLE
  else match s.bufs.find? (fun b => b.grp == g && b.cls == c && b.ix == i) with
    | none => stDOUBLE
    | some b => if b.owner = o then stOK else stFOREIGN

/-- The LOW bits and the level sources of a die's pools (R297, R360). -/
def poolSettle (d : Nat) (s : State) : State :=
  let f := s.cellFree d
  let thr := s.get (.pdk .CELL_THR_THR) d
  let low := decide (f < thr)
  let s := s.when (s.flag (.pdk .STATUS_CELL_LOW) d != low) (fun s => s.putB (.pdk .STATUS_CELL_LOW) low d)
  let s := s.when (s.flag (.evc .SRC_CFG_ASSERTED) (832 + 8 * d) != low) (evLevel (832 + 8 * d) low (f / 8))
  forEach (List.range 4) (fun r s =>
    let g := 4 * d + r
    let lows := (List.range 8).filter (fun c => decide (s.classFree g c < s.get (.pdk .CLS_THR_THR) g c))
    let s := forEach (List.range 8) (fun c s =>
      s.when (s.flag (.pdk .CLS_THR_LOW) g c != lows.contains c) (fun s => s.putB (.pdk .CLS_THR_LOW) (lows.contains c) g c)) s
    s.when (s.flag (.evc .SRC_CFG_ASSERTED) (833 + 8 * d + r) == lows.isEmpty)
      (evLevel (833 + 8 * d + r) (!lows.isEmpty) (lows.headD 0))) s

/-- Both dies' pools settle their LOW bits and sources, where a die runs (R297). -/
def poolsSettle (s : State) : State := forEach [0, 1] (fun d s => s.when (s.dieUp d) (poolSettle d)) s

/-- A free by an owner is applied, or refused with its counter, a Notice and BAD_FREE (R292, R360). -/
def freeBuf (d o h : Nat) (s : State) : Nat × State :=
  let st := s.freeStatus d o h
  if st = stOK then
    (st, { s with bufs := s.bufs.filter (fun b => b.handle != h % 2 ^ 22) })
  else
    let s := s.bump (.pdk .CNT) d (if st = stDOUBLE then 4 else 5)
    (st, evPulse (837 + 8 * d) o (raise 0x08 d o st s))

/-- The first cell of a chain in a list of chains. -/
def State.chain? (s : State) (id : Nat) : Option Chain := s.chains.find? (fun c => c.id == id)

/-- A chain changed in place. -/
def State.mapChain (s : State) (id : Nat) (f : Chain → Chain) : State :=
  { s with chains := s.chains.map (fun c => if c.id == id then f c else c) }

/-- What a frame that no parser has seen carries. -/
def noMeta : Meta := ⟨none, 0, none, 0, 0, 0, 0, 0, 0⟩

/-- A new chain with no copy yet, charged to a holder; its cells count as granted. -/
def newChain (d holder : Nat) (data : List Byte) (iface ts : Nat) (poison : List Nat) (info : Meta) (s : State) :
    Nat × State :=
  let n := cellsFor (data.length + 4)
  let c : Chain := ⟨s.nextId, d, holder, 0, n, data, iface, ts, s.osc, poison, false, info⟩
  let s : State := { s with chains := s.chains ++ [c], nextId := s.nextId + 1 }
  (c.id, notePeak d holder (s.bump (.pdk .CNT) d 0 0 n))

/-- The unmet cell reserves of a die beyond its free cells, after a quarantine. -/
def State.cellDeficit (s : State) (d : Nat) : Nat :=
  ((List.range 64).foldl (fun a x => a + s.cellUnmet d x) 0) - s.cellFree d

/-- The reserves of owners 48 to 55 fall, in increasing owner number, until the free cells cover the unmet reserves
(R295). -/
def lowerReserves (d : Nat) (s : State) : State :=
  if s.cellDeficit d = 0 then s
  else
    let s := forEach ((List.range 8).map (· + 48)) (fun o s =>
      let cut := min (s.cellDeficit d) (s.cellUnmet d o)
      s.when (cut != 0) (fun s => s.put (.pdk .OWN_CELL_RSV) (s.cellRsv d o - cut) d o)) s
    s.put (.pdk .STATUS_RSV_ERR) 1 d

/-- The cells of a chain return to the pool. Each cell of a chain that carried poison is written and read back; how many
fail and are quarantined, the spec leaves to the hardware (R295).
DESIGN CHOICE, log 52. -/
def returnChain (c : Chain) (s : State) : State :=
  let s : State := { s with chains := s.chains.filter (fun x => x.id != c.id) }
  if c.poison.isEmpty then s
  else
    let (v, s) := s.free
    let q := v % (c.cells + 1)
    if q = 0 then s
    else lowerReserves c.die ((s.put (.pdk .xQUAR) (s.get (.pdk .xQUAR) c.die + q) c.die).bump (.pdk .CNT) c.die 7 0 q)

/-- One copy of a chain leaves, is consumed or is dropped; the chain returns when its count reaches 0 (R293). -/
def dropRef (id : Nat) (s : State) : State :=
  match s.chain? id with
  | none => s
  | some c => if c.refs ≤ 1 then returnChain c s else s.mapChain id (fun c => { c with refs := c.refs - 1 })

/-- A chain with no copy returns. -/
def freeIfUnused (id : Nat) (s : State) : State :=
  match s.chain? id with
  | none => s
  | some c => if c.refs = 0 then returnChain c s else s

/-- One more copy of a chain. -/
def addRef (id : Nat) (s : State) : State := s.mapChain id (fun c => { c with refs := c.refs + 1 })

/-- A chain passes to a new holder, if the whole chain is available to it with its own cells taken as released
(R294). -/
def moveHolder (id o : Nat) (s : State) : Option State :=
  match s.chain? id with
  | none => none
  | some c =>
    let out : State := { s with chains := s.chains.filter (fun x => x.id != id) }
    if c.holder = o ∨ out.availCells c.die o c.cells then
      some (notePeak c.die o (s.mapChain id (fun c => { c with holder := o })))
    else none

/-- The sum of the unmet cell reserves with one owner's reserve changed. -/
def State.cellCovers (s : State) (d o v : Nat) : Bool :=
  let t := s.put (.pdk .OWN_CELL_RSV) v d o
  decide ((List.range 64).foldl (fun a x => a + t.cellUnmet d x) 0 ≤ t.cellFree d)

/-- The same of a class pool. -/
def State.classCovers (s : State) (d o c v : Nat) : Bool :=
  let t := s.put (.pdk .OWN_RSV_RSV) v d o c
  let g := s.homeGroup d o
  decide ((List.range 64).foldl (fun a x => a + t.classUnmet d g c x) 0 ≤ t.classFree g c)

/-- A reserve write that is refused keeps the old value (R291). -/
def rsvRefused (d : Nat) (s : State) : State := (s.put (.pdk .STATUS_RSV_ERR) 1 d).bump (.pdk .CNT) d 9

/-- A write of a cell reserve (R291). -/
def setCellRsv (d o v : Nat) (s : State) : State :=
  let v := v % 2 ^ 17
  if v ≤ s.cellRsv d o ∨ s.cellCovers d o v then s.put (.pdk .OWN_CELL_RSV) v d o else rsvRefused d s

/-- A write of a class reserve of an owner above 47 (R291). Before the class pools exist it is not checked (R299). -/
def setClassRsv (d o c v : Nat) (s : State) : State :=
  let v := v % 2 ^ 16
  if !s.flag (.pdk .STATUS_DRAM_READY) d || decide (v ≤ s.get (.pdk .OWN_RSV_RSV) d o c) || s.classCovers d o c v
  then s.put (.pdk .OWN_RSV_RSV) v d o c else rsvRefused d s

/-- A write of `PDK_OWN_CFG` (R287): GROUP of a channel is set by hardware, and a group of the other die is ignored. -/
def ownCfgWrite (d o v : Nat) (s : State) : State :=
  let g := v % 8
  let s := s.when (decide (48 ≤ o) && g / 4 == d) (fun s => s.put (.pdk .OWN_CFG_GROUP) g d o)
  s.put (.pdk .OWN_CFG_MAX_UP) (bitsOf v 4 3) d o

/-- A write of `PDK_OWN_CELL` (R291).
DESIGN CHOICE, log 14. -/
def ownCellWrite (d o v : Nat) (s : State) : State :=
  setCellRsv d o (v % 2 ^ 17) (s.put (.pdk .OWN_CELL_MAX) (bitsOf v 17 15) d o)

/-- A write of `PDK_OWN_RSV` (R291). -/
def ownRsvWrite (d o c v : Nat) (s : State) : State := if o < 48 then s else setClassRsv d o c v s

/-- The owner of a host port (R287). -/
def hostOwner (n : Nat) : Nat := 56 + n

/-- A request or free of a host port on a die has not completed (R298). -/
def State.hostBusy (s : State) (d n : Nat) : Bool := decide (s.osc < s.get (.pdk .xHRES_AT) d n)

/-- The result of a host request or free (R298): HRES shows it after at most 1 us, 1,500 edges of the local oscillator.
DESIGN CHOICE, log 51. -/
def hostResult (d n st h : Nat) (s : State) : State :=
  let (v, s) := s.free
  let s := s.put (.pdk .xHRES_AT) (s.osc + v % 1501) d n
  ((s.put (.pdk .HRES_HANDLE) h d n).put (.pdk .HRES_STATUS) st d n).put (.pdk .HRES_VALID) 1 d n

/-- A request or free while an earlier one of the port has not completed is ignored and sets HLOST (R298). -/
def unlessBusy (d n : Nat) (f : State → State) (s : State) : State :=
  if s.hostBusy d n then s.put (.pdk .STATUS_HLOST) 1 d else f s

/-- An allocation by a host port, among the rivals of its edge (R290, R298).
DESIGN CHOICE, log 51. -/
def hostAllocReq (d n v : Nat) (rivals : List (Nat × Nat)) (s : State) : State :=
  if v % 4 ≠ 1 then s
  else unlessBusy d n (fun s =>
    if !s.flag (.pdk .STATUS_DRAM_READY) d then hostResult d n stNOTREADY 0 (s.bump (.pdk .CNT) d 1)
    else
      let c := if bitOf v 2 then bitsOf v 4 3 else classFor (bitsOf v 4 28 * 1024)
      let o := hostOwner n
      let (got, s) := allocEdge d ((o, c) :: rivals.filter (fun r => decide (r.1 ≠ o ∧ r.1 < 64))) s
      let s := poolSettle d s
      match got.find? (fun a => a.1 == o) with
      | some a => hostResult d n stOK a.2.handle s
      | none => hostResult d n stEMPTY 0 s) s

/-- A free by a host port (R292, R298). -/
def hostFreeReq (d n h : Nat) (s : State) : State :=
  unlessBusy d n (fun s =>
    let (st, s) := freeBuf d (hostOwner n) h s
    hostResult d n st (if st = stOK then h % 2 ^ 22 else 0) (poolSettle d s)) s

/-- A group whose carve exceeds its payload takes the default carve (R285). -/
def carveCheck (d : Nat) (s : State) : State :=
  forEach (List.range 4) (fun r s =>
    let g := 4 * d + r
    let total := (List.range 8).foldl (fun a c => a + s.get (.pdk .CLS_COUNT) g c * classSize c) 0
    s.when (decide (2 ^ 32 < total)) (fun s =>
      let s := forEach (List.range 8) (fun c s => s.put (.pdk .CLS_COUNT) (defaultCount c) g c) s
      (s.put (.pdk .xCARVE_BAD) 1 g).put (.pdk .STATUS_CARVE_ERR) 1 d)) s

/-- The class pools become ready, and each loaded class reserve is checked: in increasing owner number and class, one
that the pool cannot cover is set to 0 (R299). -/
def dramReady (d : Nat) (s : State) : State :=
  let s := s.put (.pdk .STATUS_DRAM_READY) 1 d
  let keys := (s.store.keysOf (.pdk .OWN_RSV_RSV)).filter (fun k => k.i == d)
  let want := keys.map (fun k => (k.j, k.k, s.store.get k))
  let s := forEach keys (fun k s => s.put (.pdk .OWN_RSV_RSV) 0 k.i k.j k.k) s
  forEach want (fun w s => if s.classCovers d w.1 w.2.1 w.2.2 then s.put (.pdk .OWN_RSV_RSV) w.2.2 d w.1 w.2.1
    else rsvRefused d s) s

/-- The payload address of a buffer in its group (R285). -/
def State.bufAddr (s : State) (b : Buf) : Nat :=
  (List.range b.cls).foldl (fun a c => a + s.get (.pdk .CLS_COUNT) b.grp c * classSize c) 0 + b.ix * classSize b.cls

end Sys2Proof.Machine
end

