-- ==== Sys2Proof/Machine/Bridle.lean ====
section
/-!
DEFINITION. The egress shaper (Bridle, chapter 11): token buckets and their banks, the header templates and sequence
numbers, and what happens to a copy from the moment it is queued until it is on the wire.
-/

namespace Sys2Proof.Machine

/-- The number of the port-class bucket of a module-wide interface and a class (R266). -/
def classBkt (iface tc : Nat) : Nat := 4096 + 8 * (iface % 8) + tc

/-- A bucket fed by several tests may let a frame start (R268): OFF, or 0 or more tokens after the refill. -/
def State.bktOpen (s : State) (d n : Nat) : Bool :=
  s.bktMode d n != bktSHAPE || decide (0 ≤ (refill d n s.tai s).tokens d n)

/-- MTU of a port (R211). -/
def State.mtu (s : State) (iface : Nat) : Nat :=
  clampTo 1518 9216 (s.get (.prs .PORT_CFG_MTU) (ifaceDie iface) (iface / 4 % 2))

/-- A copy of a handle is dropped under R269 and counted (R359). -/
def shapeDrop (d : Nat) (handle : Option Nat) (cnt : Nat) (s : State) : State :=
  let s := s.bump (.shp .CNT) d cnt
  match handle with
  | some h => flowEvent d h 5 s
  | none => s

/-- An APPLY write (R270): ignored with CFG_ERR while HO_EN is 1. -/
def bktStatusWrite (d n v : Nat) (s : State) : State :=
  let s := s.when (bitOf v 1) (fun s => s.put (.shp .BKT_STATUS_CFG_ERR) 0 d n)
  if bitOf v 0 then
    if s.flag (.shp .BKT_CFG_HO_EN) d n then s.put (.shp .BKT_STATUS_CFG_ERR) 1 d n else switchBucket d n s
  else s

/-- The staged access to a template word (R283). A write to a template clears the mark of its line (R282).
DEDUCED, log 48. -/
def tplAddrWrite (d v : Nat) (s : State) : State :=
  let s := ((s.put (.shp .TPL_ADDR_WORD) v d).put (.shp .TPL_ADDR_PLANE) (v / 32) d).put (.shp .TPL_ADDR_HANDLE) (v / 64) d
  let ix := bitsOf v 6 12 * 64 + v % 64
  let s := s.when (bitOf v 31) (fun s =>
    (s.put (.shp .xTPL) (s.get (.shp .TPL_DATA_DATA) d) d ix).put (.shp .xTPL_BAD) 0 d (bitsOf v 6 12) (bitsOf v 5 1))
  s.when (bitOf v 30) (fun s => s.put (.shp .TPL_DATA_DATA) (s.get (.shp .xTPL) d ix) d)

/-- A channel whose output flow is a handle of a die and that runs (R281). -/
def State.outChan (s : State) (d h : Nat) : Option Nat :=
  (List.range 48).find? (fun ch => s.get (.cch .CTRL_HOME_DIE) ch == d && s.chGet (.cch .FLOW_OUT_FLOW) ch == h &&
    (s.get (.cch .STATUS_STATE) ch == chRUNNING || s.get (.cch .STATUS_STATE) ch == chLEAVING))

/-- A write of a sequence counter (R281). -/
def seqWrite (d h v : Nat) (s : State) : State :=
  if (s.outChan d h).isSome then s else s.put (.shp .SEQ_NEXT) v d h

/-- The next sequence number of a handle, taken from its counter (R281).
DEDUCED, log 98. -/
def takeSeq (d h : Nat) (s : State) : Nat × State :=
  (s.get (.shp .SEQ_NEXT) d h, s.bump (.shp .SEQ_NEXT) d h)

/-- SEQ_MIRROR_UPDATE (R281): a message brings the number after the one that has started. The mirror never goes
back. -/
def mirrorMsg (d h next : Nat) (s : State) : State :=
  let cur := s.get (.shp .xMIRROR) d h
  if cur ≠ 0 ∧ seqBefore 32 next (cur - 1) then s else s.put (.shp .xMIRROR) (next % 2 ^ 32 + 1) d h

/-- The mirror of a counter after a packet with a number has started (R281). -/
def mirrorStart (d h seq : Nat) (s : State) : State := mirrorMsg d h ((seq + 1) % 2 ^ 32) s

/-- The ones' complement sum of 16-bit words, folded (RFC 791). -/
def sum16 (l : List Byte) : Nat :=
  match l with
  | [] => 0
  | [a] => a.toNat * 256
  | a :: b :: t => a.toNat * 256 + b.toNat + sum16 t

/-- The Internet checksum of a byte string. -/
def inetSum (l : List Byte) : Nat :=
  let x := sum16 l
  let y := x % 65536 + x / 65536
  65535 - (y % 65536 + y / 65536) % 65536

/-- The bytes of a template's active bank. -/
def State.tplBytes (s : State) (d h plane n : Nat) : List Byte :=
  ((List.range 32).map (fun w => beBytes 4 (s.get (.shp .xTPL) d (h * 64 + plane * 32 + w) 1))).flatten.take n

/-- A template is usable (R280). -/
def State.tplOk (s : State) (d h : Nat) : Bool :=
  let l3 := s.get (.shp .TPL_CFG_L3_OFS) d h 1
  let l4 := s.get (.shp .TPL_CFG_L4_OFS) d h 1
  decide (l3 + 19 < l4) && decide (l4 + 8 ≤ 128)

/-- An output packet with its headers (R280). `rtp` is the packet from its RTP header on. -/
def State.outFrame (s : State) (d h iface ipid : Nat) (rtp : List Byte) : List Byte :=
  let l3 := s.get (.shp .TPL_CFG_L3_OFS) d h 1
  let l4 := s.get (.shp .TPL_CFG_L4_OFS) d h 1
  let plane := if bitOf (s.get (.shp .TPL_CFG_PLANE_B) d h 1) (iface % 8) then 1 else 0
  let t := s.tplBytes d h plane (l4 + 8)
  let n := rtp.length
  let t := overlay t (l4 + 4) (beBytes 2 (8 + n))
  let t := overlay t (l4 + 6) [0, 0]
  if s.flag (.shp .TPL_CFG_IPV6) d h 1 then
    let t := overlay t (l3 + 4) (beBytes 2 (l4 + 8 - l3 - 40 + n))
    let pseudo := slice t (l3 + 8) 32 ++ beBytes 4 (8 + n) ++ [0, 0, 0, 17]
    let c := inetSum (pseudo ++ t.drop l4 ++ rtp)
    overlay t (l4 + 6) (beBytes 2 (if c = 0 then 65535 else c)) ++ rtp
  else
    let t := overlay t (l3 + 2) (beBytes 2 (l4 + 8 - l3 + n))
    let t := overlay (overlay t (l3 + 4) (beBytes 2 ipid)) (l3 + 10) [0, 0]
    overlay t (l3 + 10) (beBytes 2 (inetSum (slice t l3 (min (l4 - l3) (4 * (byteAt t l3 % 16)))))) ++ rtp

/-- A forwarded frame with its numbers overwritten (R281). -/
def reseqFrame (data : List Byte) (info : Meta) (seq : Nat) : List Byte :=
  match info.rtp with
  | none => data
  | some r =>
    let data := overlay data (r + 2) (beBytes 2 (seq % 65536))
    match info.ext with
    | some e => if info.kind = 1 then overlay data e (beBytes 2 (seq / 65536)) else data
    | none => data

/-- The bytes with which a copy leaves: an output packet under its template (R280), a forwarded frame as received or
renumbered (R279, R281). -/
def State.copyBytes (s : State) (c : Copy) (ch : Chain) : List Byte :=
  if c.out then s.outFrame c.die (c.handle.getD 0) c.iface c.ipid ch.data
  else if c.own ≠ 0 then reseqFrame ch.data ch.info c.seq
  else ch.data

/-- The bytes before the point at which a poisoned frame is cut (R295). -/
def cutAt (p : Nat) : Nat := 8 * ceilDiv (max 64 (p + 1)) 8

/-- The first packet of a channel's output that leaves a port ends step 9 of start-up, and `MID_BOOT.FIRST_PIC` takes the time since
power good in 10 ms (R415, R434).
DEDUCED, log 98. -/
def firstPicture (s : State) : State :=
  let s := s.when (s.get (.mid .BOOT_STEP) == 8) (fun s => s.put (.mid .BOOT_STEP) 9)
  s.when (s.get (.mid .BOOT_FIRST_PIC) == 0) (fun s =>
    s.put (.mid .BOOT_FIRST_PIC) (min 65535 (s.nsUp / (10 * msNs))))

/-- A copy starts on its interface: its port-class bucket is charged, for a RASTER copy in every mode (R276), the mirror follows its number, and it leaves.
DEDUCED, log 98. -/
def startCopy (c : Copy) (s : State) : State :=
  match s.chain? c.chain with
  | none => { s with copies := s.copies.filter (· != c) }
  | some ch =>
    let d := c.die
    let b := classBkt c.iface c.tc
    let bytes := s.copyBytes c ch
    let s := s.when (c.raster || s.bktMode d b == bktSHAPE) (fun s => deduct d b (bytes.length + 4) (refill d b s.tai s))
    let late := c.raster && decide (c.relAt + 2000 * 65536 < s.tb)
    let s := s.when late (fun s =>
      let s := s.bump (.shp .CNT) d 3
      match c.handle with
      | some h => flowEvent d h 2 s
      | none => s)
    let s := s.when (c.own != 0) (fun s => mirrorStart ((c.own - 1) / 4096) ((c.own - 1) % 4096) c.seq s)
    let good := ch.poison.isEmpty
    let out := match ch.poison.min? with
      | none => bytes
      | some p => bytes.take (cutAt (p + (bytes.length - ch.data.length)))
    let s := dropRef c.chain { s with copies := s.copies.filter (· != c) }
    let s := s.when c.out firstPicture
    ((s.bump (.shp .CNT) d 0).put (.shp .xWIRE) 1 c.iface).emit (.frame c.iface out good)

/-- A copy may be chosen at a frame boundary: it does not wait for its per-flow bucket or its raster release. -/
def State.copyReady (s : State) (c : Copy) : Bool :=
  (!c.wait || s.bktMode c.die (c.handle.getD 0) != bktSHAPE) && (!c.raster || c.due)

/-- `a` is chosen before `b` among due RASTER copies: the earlier release time, then the lower handle (R276). -/
def rasterBefore (a b : Copy) : Bool :=
  if a.relAt ≠ b.relAt then decide (a.relAt < b.relAt) else decide (a.handle.getD 0 < b.handle.getD 0)

/-- The due RASTER copy that an interface takes next.
DESIGN CHOICE, log 49. -/
def State.pickRaster (s : State) (i : Nat) : Option Copy :=
  (s.copies.filter (fun c => c.iface == i && c.raster && c.due)).foldl (fun b c => match b with
    | none => some c
    | some a => if rasterBefore c a then some c else some a) none

/-- No copy of the same flow on the same interface was delivered before a copy and still waits (R277). -/
def State.flowFirst (s : State) (c : Copy) : Bool :=
  c.handle.isNone || !(s.copies.takeWhile (· != c)).any (fun x =>
    x.iface == c.iface && x.handle == c.handle && !x.raster && !x.host)

/-- The copy that an interface's class queues give next: the highest eligible class, first in first out (R276), the copies
of a flow in the order of their delivery (R277).
DESIGN CHOICE, log 49. -/
def State.pickClass (s : State) (i : Nat) : Option Copy :=
  ([7, 6, 5, 4, 3, 2, 1, 0] : List Nat).findSome? (fun tc =>
    if s.bktOpen (ifaceDie i) (classBkt i tc) then
      s.copies.find? (fun c => c.iface == i && c.tc == tc && !c.raster && !c.host && s.copyReady c && s.flowFirst c)
    else none)

/-- The frame of a DMA queue or of the Ostler that an interface takes next.
DESIGN CHOICE, log 49. -/
def State.pickHost (s : State) (i : Nat) : Option Copy :=
  if s.bktOpen (ifaceDie i) (classBkt i 0) then s.copies.find? (fun c => c.iface == i && c.host) else none

/-- No frame starts in the safe state (R465), nor after the entry to Winter has drained the Bridle (R487). -/
def State.txStopped (s : State) : Bool := s.safe || s.get (.pwr .STATUS_SEASON) == 2

/-- The port, if any, whose delay request waits for an interface. -/
def State.ptpWaits (s : State) (i : Nat) : Bool :=
  s.flag (.trs .xDREQ) (i / 4) && s.ptpIface (i / 4) == i

/-- The next frame of an idle interface, in the strict order of R276.
DESIGN CHOICE, log 49. -/
def nextFrame (i : Nat) (s : State) : State :=
  if s.txStopped || !s.ifaceUp i then s
  else if s.ptpWaits i then emitDelayReq (i / 4) ((s.put (.trs .xDREQ) 0 (i / 4)).put (.shp .xWIRE) 1 i)
  else match s.pickRaster i with
    | some c => startCopy c s
    | none => match s.pickClass i with
      | some c => startCopy c s
      | none => match s.pickHost i with
        | some c => startCopy c s
        | none => s

/-- The frame on the wire of an interface ends, and the next one is chosen (R276). -/
def frameBoundary (i : Nat) (s : State) : State :=
  let s := nextFrame i (s.put (.shp .xWIRE) 0 i)
  poolSettle (ifaceDie i) s

/-- INTERFACE_FRAME_BOUNDARY (R276). -/
def execInterfaceFrameBoundary (i : Iface) (now : Now) (s : State) : Host.Outcome State Fault Refusal :=
  s.runAt now (frameBoundary i)

/-- A frame that a bucket in SHAPE mode holds may start (R268). A per-flow bucket tests a frame once, for all its
copies, and lets them enter their port-class queues behind what stands there (R276); a port-class bucket lets its interface choose, if it is idle. -/
def shapedStart (d n : Nat) (s : State) : State :=
  if n < 4096 then
    match s.copies.find? (fun c => c.die == d && c.wait && c.handle == some n) with
    | none => s
    | some c =>
      let s := refill d n s.tai s
      if s.tokens d n < 0 then s
      else
        let len := match s.chain? c.chain with
          | some ch => (s.copyBytes c ch).length + 4
          | none => 0
        let s := deduct d n len s
        let mine := fun (x : Copy) => x.die == d && x.chain == c.chain && x.handle == some n && x.wait
        { s with copies := s.copies.filter (fun x => !mine x) ++
            (s.copies.filter mine).map (fun x => { x with wait := false }) }
  else
    let i := 8 * d + (n - 4096) / 8
    let s := refill d n s.tai s
    if s.flag (.shp .xWIRE) i then s else poolSettle d (nextFrame i s)

/-- SHAPED_FRAME_START (R268). -/
def execShapedFrameStart (d : Die) (n : Bucket) (now : Now) (s : State) : Host.Outcome State Fault Refusal :=
  s.runAt now (fun s => s.when (!s.txStopped) (shapedStart d n))

/-- The copies queued on an interface are dropped, each counted in SHAPE_DROP (R269).
DEDUCED, log 48. -/
def dropQueued (i : Nat) (s : State) : State :=
  let gone := s.copies.filter (fun c => c.iface == i)
  let s : State := { s with copies := s.copies.filter (fun c => c.iface != i) }
  forEach gone (fun c s => shapeDrop c.die c.handle 1 (dropRef c.chain s)) s

/-- A sub-port gains or loses link (R269, R239).
DEDUCED, log 48. -/
def linkUpDown (i : Nat) (up : Bool) (s : State) : State :=
  let d := ifaceDie i
  let pp := i / 4 % 2
  let f : Fld := .prs .PORT_CFG_LINK_UP
  let v := s.get f d pp
  let b := i % 4
  let w := if up then (if bitOf v b then v else v + 2 ^ b) else (if bitOf v b then v - 2 ^ b else v)
  let s := s.when (!up) (fun s => poolSettle d ((dropQueued i s).put (.shp .xWIRE) 0 i))
  s.put f w d pp

/-- LINK_CHANGE (R269). -/
def execLinkChange (i : Iface) (up : Bool) (s : State) : Host.Outcome State Fault Refusal :=
  s.run (linkUpDown i up)

/-- A copy of a frame is queued for an interface, or dropped (R269, R274, R282). The caller has counted RASTER orphans;
`len` is the frame's length with its FCS as it leaves. -/
def queueCopy (c : Copy) (len : Nat) (s : State) : State :=
  if !s.flag (.shp .STATUS_READY) c.die then s.bump (.shp .CNT) c.die 1
  else if s.mtu c.iface < len then shapeDrop c.die c.handle 2 s
  else if !s.ifaceUp c.iface then shapeDrop c.die c.handle 1 s
  else addRef c.chain { s with copies := s.copies ++ [c] }

/-- SEQ_MIRROR_UPDATE (R281). -/
def execSeqMirrorUpdate (d : Die) (h : Handle) (next : Word) (s : State) : Host.Outcome State Fault Refusal :=
  s.run (mirrorMsg d h next.toNat)

/-- A template line whose CRC failed is refetched; one that stays bad drops the handle's packets (R282). A line is one
template of 128 bytes: `plane` 0 is A, 1 is B. -/
def tplRefetch (d h plane : Nat) (good : Bool) (s : State) : State :=
  let s := s.bump (.shp .CNT) d 8
  if good then s
  else
    let s := flowEvent d h 6 (evPulse (855 + 8 * d) 2 (raise 0x46 d h 2 s))
    (s.put (.shp .STATUS_TPL_BAD) 1 d).put (.shp .xTPL_BAD) 1 d h plane

/-- A template of a handle is marked bad (R282). -/
def State.tplBad (s : State) (d h : Nat) : Bool := s.flag (.shp .xTPL_BAD) d h 0 || s.flag (.shp .xTPL_BAD) d h 1

/-- TEMPLATE_REFETCH (R282). -/
def execTemplateRefetch (d : Die) (h : Handle) (l : TplLine) (s : State) : Host.Outcome State Fault Refusal :=
  s.run (tplRefetch d h l.plane l.good)

/-- `SHP_BKT_STATUS.TOKENS` in units of 64 bytes, saturating in 24 bits (R283). -/
def State.tokensField (s : State) (d n : Nat) : Nat :=
  toSigned 24 (max (-8388608) (min 8388607 (s.tokens d n / (64 * tokUnit))))

end Sys2Proof.Machine
end

