-- ==== Sys2Proof/Machine/Gate.lean ====
section
/-!
DEFINITION. Whether a register write by a party takes effect (R513, R401, R411, R417, R453, R465, R488): the cases of R513
after the first, which is decided from the request's form.
-/

namespace Sys2Proof.Machine

/-- What becomes of a write that is well formed. -/
inductive Gate where
  | pass
  | ignore
  | early
  | unneg
  deriving DecidableEq, Repr

/-- A block that the safe state leaves open to writes (R465). -/
def Blk.safeOpen (b : Blk) : Bool :=
  match b with
  | .mid | .hpt | .evc | .flt => true
  | _ => false

/-- The season is Winter (R483). -/
def State.inWinter (s : State) : Bool := s.get (.pwr .STATUS_SEASON) == 2

/-- A die window does not take writes: its die is restarting or held (R401), or it is Winter, which silences TTH too
(R488). -/
def State.windowShut (s : State) (b : Blk) (die : Option Nat) : Bool :=
  match die with
  | some d => s.dieOff d || s.inWinter
  | none => s.inWinter && b == .tth

/-- A block beside MID and HPT that recovery mode opens, with no negotiation (R453). -/
def State.recoveryOpen (s : State) (b : Blk) : Bool := s.flag (.mid .BOOT_RECOVERY) && (b == .flt || b == .fwu)

/-- A write to a block finds it not yet loaded (R417). -/
def State.earlyFor (s : State) (b : Blk) : Bool :=
  match b with
  | .mid | .hpt => false
  | .prs | .fwd | .shp | .pdk => decide (s.get (.mid .BOOT_STEP) < 7)
  | _ => decide (s.get (.mid .BOOT_STEP) < 6)

/-- A party may not address a die window: an Ostler reaches only its own (R396). -/
def foreignWindow (p : Party) (die : Option Nat) : Bool :=
  match p.ostDie, die with
  | some o, some d => o != d
  | _, _ => false

/-- The port of a party has not negotiated (R411). -/
def State.unnegotiated (s : State) (p : Party) : Bool :=
  match p.port with
  | some n => !s.flag (.hpt .PORT_STATUS_HIR_OK) n
  | none => false

/-- The outcome of R513 for a write of a party to a block.
DESIGN CHOICE, log 11. -/
def State.gateOf (s : State) (p : Party) (b : Blk) (die : Option Nat) : Gate :=
  if s.safe && !b.safeOpen then .ignore
  else if s.windowShut b die || foreignWindow p die then .ignore
  else if s.recoveryOpen b then .pass
  else if p.port.isSome && s.earlyFor b then .early
  else if s.unnegotiated p && b != .mid && b != .hpt then .unneg
  else if s.flag (.mid .BOOT_RECOVERY) && b != .mid && b != .hpt then .ignore
  else .pass

/-- A write takes effect, or is ignored and counted in at most one place (R513); in recovery mode every block but four ignores
writes (R453).
DESIGN CHOICE, log 11. -/
def gated (p : Party) (b : Blk) (die : Option Nat) (f : State → State) (s : State) : State :=
  match s.gateOf p b die with
  | .pass => f s
  | .ignore => s
  | .early => s.bumpSat (.mid .EARLY_EARLY_WRITE)
  | .unneg => s.bumpSat (.hpt .ERR_UNNEG_WRITE) p.num

/-- The value of a written word with some of its bits taken as given by the command.
DESIGN CHOICE, log 11. -/
def withBits (v lo len x : Nat) : Nat := v - bitsOf v lo len * 2 ^ lo + x * 2 ^ lo

end Sys2Proof.Machine
end

