-- ==== Sys2Proof/Machine/Memory.lean ====
section
/-!
DEFINITION. The lockstep groups and their line protection (chapter 13): reading and writing lines with their poison and
sidebands, failed devices, scrub, refresh and training.
-/

namespace Sys2Proof.Machine

/-- Lines and rows of a group (R302). -/
def grpLines : Nat := 2 ^ 24
def grpRows : Nat := 2 ^ 19

/-- Where a line lies in each of the six devices of its group (R302). -/
structure DevAddr where
  burst     : Nat
  bankGroup : Nat
  bank      : Nat
  row       : Nat
  deriving DecidableEq, Repr

/-- The device address of a line address: the bank field spreads consecutive rows over all 16 banks (R302). -/
def devAddr (la : Nat) : DevAddr :=
  { burst := bitsOf la 0 5
    bankGroup := Nat.xor (bitsOf la 5 2) (bitsOf la 9 2)
    bank := Nat.xor (bitsOf la 7 2) (bitsOf la 11 2)
    row := bitsOf la 9 15 }

/-- The PASR segment of a line (R302). -/
def segOf (la : Nat) : Nat := bitsOf la 21 3

/-- The address of a payload byte of a group in `State.dram`. -/
def dramAddr (g off : Nat) : Nat := g * 2 ^ 32 + off

/-- The modes of a group (R331). -/
def State.grpMode (s : State) (g : Nat) : Nat := s.get (.dmc .GRP_STATUS_MODE) g
def State.grpLost (s : State) (g : Nat) : Bool := s.grpMode g == 2

/-- The failed device of a group; 7 means none. -/
def State.erasedDev (s : State) (g : Nat) : Nat := s.get (.dmc .GRP_STATUS_ERASED_DEV) g

/-- The mask of a line in its group's poison log (R308). -/
def State.logMask (s : State) (g la : Nat) : Nat :=
  ((s.plog.filter (fun p => p.grp == g && p.la == la)).map (·.mask)).getLastD 0

/-- The poisoned slices with which a line reads (R308, R310, R311). -/
def State.linePoison (s : State) (g la : Nat) : Nat :=
  if s.grpLost g then 15
  else if s.grpMode g = 1 ∧ s.erasedDev g = 5 then s.logMask g la
  else s.get (.dmc .xPOIS) g la

/-- The sideband with which a line reads: 0 where the check device has failed (R310). -/
def State.lineSide (s : State) (g la : Nat) : Nat :=
  if s.grpLost g ∨ (s.grpMode g = 1 ∧ s.erasedDev g = 5) then 0 else s.get (.dmc .xSIDE) g la

/-- Bytes of a group's payload as they read. -/
def State.dramRead (s : State) (g off n : Nat) : List Byte := s.dram.read (dramAddr g off) n

/-- A payload byte reads poisoned. -/
def State.bytePoisoned (s : State) (g off : Nat) : Bool := bitOf (s.linePoison g (off / 256)) (off / 64 % 4)

/-- The offset of the first poisoned byte of a range of a group, relative to its start. -/
def State.firstPoison (s : State) (g off n : Nat) : Option Nat :=
  let slices := (List.range ((off % 64 + n + 63) / 64)).map (64 * ·)
  (slices.find? (fun i => s.bytePoisoned g (off / 64 * 64 + i) && decide (off / 64 * 64 + i < off + n))).map
    (fun i => i - off % 64)

/-- A line enters the poison log, which holds the last 256 lines of its group (R308). -/
def logPoison (g la mask : Nat) (s : State) : State :=
  let mine := s.plog.filter (fun p => p.grp == g && p.la != la)
  let keep := if 256 ≤ mine.length then mine.drop (mine.length - 255) else mine
  let s : State := { s with plog := s.plog.filter (fun p => p.grp != g) ++ keep ++ [⟨g, la, mask⟩] }
  ((s.put (.dmc .POISON_LAST_LINE) la g).put (.dmc .POISON_LAST_MASK) mask g)

/-- A line leaves the poison log. -/
def unlogPoison (g la : Nat) (s : State) : State :=
  { s with plog := s.plog.filter (fun p => !(p.grp == g && p.la == la)) }

/-- The device of a group to which writes are not issued while it retrains (R310, R326).
DESIGN CHOICE, log 110. -/
def State.awayDev (s : State) (g : Nat) : Option Nat :=
  if s.flag (.dmc .xRETR_MODE) g then some (s.get (.dmc .xRETR_DEV) g) else none

/-- The lines of a row whose first writes a retraining device does not get: what it holds of them is free.
DESIGN CHOICE, log 110. -/
def staleRow (g row : Nat) (s : State) : State :=
  match s.awayDev g with
  | none => s
  | some k => forEach (List.range 32) (fun i s =>
      let (v, s) := s.free
      s.put (.dmc .xSTALE) (v % 2 ^ 512 + 1) g (32 * row + i) k) s

/-- The row of a line is initialised by its first write (R312): its 32 lines are written, and take SEQ in their order.
DESIGN CHOICE, log 54. -/
def initRow (g row : Nat) (s : State) : State :=
  if s.flag (.dmc .xINIT) g row then s
  else
    let s := staleRow g row s
    let s := (s.put (.dmc .xINIT) 1 g row).bump (.dmc .xINIT_N) g
    let s := ((s.put (.dmc .xROW_SEQ) (s.get (.dmc .xWSEQ) g) g row).bump (.dmc .xWSEQ) g 0 0 32).bump (.dmc .CNT) (g / 4) 6
    s.when (decide (grpRows ≤ s.get (.dmc .xINIT_N) g)) (fun s => s.put (.dmc .GRP_STATUS_INIT_DONE) 1 g)

/-- A line write takes SEQ from the group's write counter (R305). -/
def takeLineSeq (g la : Nat) (s : State) : State :=
  (s.put (.dmc .xSEQ) (s.get (.dmc .xWSEQ) g + 1) g la).bump (.dmc .xWSEQ) g

/-- SEQ of a line (R303): that of its last write, or of the write that initialised its row.
DESIGN CHOICE, log 54. -/
def State.lineSeq (s : State) (g la : Nat) : Nat :=
  match s.get (.dmc .xSEQ) g la with
  | 0 => (s.get (.dmc .xROW_SEQ) g (la / 32) + la % 32) % 65536
  | n + 1 => n

/-- POISON of a line after a write of `n` bytes at `off` in it, from data whose slices of `tags` are tagged (R308). -/
def poisonAfter (old off n tags : Nat) : Nat :=
  (List.range 4).foldl (fun a k =>
    let lo := 64 * k
    let hi := lo + 64
    let b :=
      if off + n ≤ lo ∨ hi ≤ off then bitOf old k
      else if off ≤ lo ∧ hi ≤ off + n then bitOf tags k
      else bitOf old k || bitOf tags k
    if b then a + 2 ^ k else a) 0

/-- The slices of a line that a write touches. -/
def slicesOf (off n : Nat) : List Nat := (List.range 4).filter (fun k => decide (64 * k < off + n ∧ off < 64 * k + 64))

/-- The four payload slices of a line (R301). -/
def State.slices (s : State) (g la : Nat) : List (List Byte) :=
  (List.range 4).map (fun k => s.dramRead g (la * 256 + 64 * k) 64)

/-- A read has found something to write back (R307): the line as it stood before is kept until a write meets the write-back. -/
def noteWriteBack (g la : Nat) (s : State) : State :=
  let t := (s.put (.dmc .xWB) (s.get (.dmc .xPOIS) g la + 1) g la).put (.dmc .xWB_SIDE) (s.get (.dmc .xSIDE) g la) g la
  forEach (List.range 4) (fun k t => t.put (.dmc .xWB_SLICE) (beAt ((s.slices g la).getD k []) 0 64) g la k) t

/-- The line as it stood before a write-back that is dropped, with the poison log as that write-back never reached it (R307, R308). -/
def undoWriteBack (g la : Nat) (s : State) : State :=
  let old := s.get (.dmc .xWB) g la - 1
  let t := (s.put (.dmc .xPOIS) old g la).put (.dmc .xSIDE) (s.get (.dmc .xWB_SIDE) g la) g la
  let t := forEach (List.range 4) (fun k t =>
    { t with dram := t.dram.write (dramAddr g (la * 256 + 64 * k)) (beBytes 64 (s.get (.dmc .xWB_SLICE) g la k)) }) t
  let t := if old = 0 then unlogPoison g la t
    else { t with plog := t.plog.map (fun p => if p.grp == g && p.la == la then { p with mask := old } else p) }
  t.bump (.dmc .CNT) (g / 4) 3

/-- A write to a line is accepted: the write-back of a read before it is dropped and counted, if it still waits (R307). Whether it
does is free.
DESIGN CHOICE, log 55. -/
def meetWriteBack (g la : Nat) (s : State) : State :=
  if s.get (.dmc .xWB) g la = 0 then s
  else
    let (v, s) := s.free
    let s := s.when (v % 2 == 1) (undoWriteBack g la)
    let s := (s.put (.dmc .xWB) 0 g la).put (.dmc .xWB_SIDE) 0 g la
    forEach (List.range 4) (fun k s => s.put (.dmc .xWB_SLICE) 0 g la k) s

/-- A group becomes LOST by a second device failure (R311). -/
def groupLost (g k : Nat) (s : State) : State :=
  let s := (s.put (.dmc .GRP_STATUS_MODE) 2 g).putBit (.dmc .STATUS_LOST) (g % 4) true (g / 4)
  raise 0x64 (g / 4) g k s

/-- A device of a group is declared failed (R309): erasure mode for it, or the group is LOST (R311). Entry to erasure
mode is a Corrected fault, and where ERASE_PERSIST asks for it and the repair map does not know of the device, it is work of
class FLASH for the Ostler (R392). -/
def declareFailed (g k : Nat) (known : Bool) (s : State) : State :=
  if s.grpLost g then s
  else
    let s := s.bump (.dmc .CNT) (g / 4) 11
    if s.grpMode g = 1 ∧ s.erasedDev g ≠ k then groupLost g k s
    else
      let s := (s.put (.dmc .xRETR_MODE) 0 g).put (.dmc .GRP_CTRL_FORCE_ERASE) 0 g
      let s := (s.put (.dmc .GRP_STATUS_MODE) 1 g).put (.dmc .GRP_STATUS_ERASED_DEV) k g
      raise 0x21 (g / 4) g k (s.when (!known && s.flag (.dmc .CFG_ERASE_PERSIST) (g / 4)) (ostPost (g / 4) 4))

/-- ERASE_THR of a die, 0 taken as 1. -/
def State.eraseThr (s : State) (d : Nat) : Nat := max 1 (s.get (.dmc .CFG_ERASE_THR) d)

/-- A slice failure is attributed to a device (R306, R309): once for each distinct line of a pass.
DESIGN CHOICE, log 55. -/
def slideErr (g la k : Nat) (s : State) : State :=
  let s := s.bumpSat (.dmc .DEV_ERR_TOTAL) g k
  if s.flag (.dmc .xPERR) g la k then s
  else
    let s := (s.put (.dmc .xPERR) 1 g la k).bumpSat (.dmc .DEV_ERR_PASS_ERR) g k
    s.when (decide (s.eraseThr (g / 4) ≤ s.get (.dmc .DEV_ERR_PASS_ERR) g k) && s.erasedDev g != k) (declareFailed g k false)

/-- The byte-wise XOR of bursts (R301). -/
def xorBytes (a b : List Byte) : List Byte := List.zipWith (fun x y => x ^^^ y) a b

/-- The prefix of every CRC of a line (R304). -/
def crcPrefix (g la seq k : Nat) : List Byte := beBytes 1 g ++ beBytes 3 la ++ beBytes 2 seq ++ beBytes 1 k ++ [0]

/-- Bytes 0 to 27 of a check line: the slice CRCs, POISON, LAYOUT, SEQ and LA (R303, R304). -/
def checkHead (g la seq poison : Nat) (data : List (List Byte)) (x : List Byte) : List Byte :=
  ((data.zipIdx.map (fun p => beBytes 4 (crc32c (crcPrefix g la seq p.2 ++ p.1)))).flatten) ++
    beBytes 4 (crc32c (crcPrefix g la seq 4 ++ x)) ++ beBytes 1 poison ++ [0x10] ++ beBytes 2 seq ++ beBytes 3 la ++ [0]

/-- The check line (R303): its first 28 bytes, LCRC over them and the sideband, and the sideband. -/
def checkLine (g la seq poison side : Nat) (data : List (List Byte)) (x : List Byte) : List Byte :=
  let h := checkHead g la seq poison data x
  let sb := beBytes 32 side
  h ++ beBytes 4 (crc32c (crcPrefix g la seq 5 ++ h ++ sb)) ++ sb

/-- The six bursts of a line as it was last written (R301, R303, R304). -/
def State.burstsGiven (s : State) (g la : Nat) : List (List Byte) :=
  let d := s.slices g la
  let x := d.foldl xorBytes (List.replicate 64 0)
  d ++ [x, checkLine g la (s.lineSeq g la) (s.get (.dmc .xPOIS) g la) (s.get (.dmc .xSIDE) g la) d x]

/-- What the six devices of a group hold of a line: what was last written, or in a device that missed it while it retrained what
it held before (R310, R326). -/
def State.bursts (s : State) (g la : Nat) : List (List Byte) :=
  (s.burstsGiven g la).zipIdx.map (fun p => match s.get (.dmc .xSTALE) g la p.2 with
    | 0 => p.1
    | v + 1 => beBytes 64 v)

/-- A device of the group holds an old burst of a line. -/
def State.lineStale (s : State) (g la : Nat) : Bool := (List.range 6).any (fun k => s.get (.dmc .xSTALE) g la k != 0)

/-- A write of a line has been issued to every device but the one that retrains, which keeps the burst that it held in `old`
(R310, R326). -/
def issued (g la : Nat) (old s : State) : State :=
  forEach (List.range 6) (fun k s =>
    s.put (.dmc .xSTALE) (if s.awayDev g = some k then beAt ((old.bursts g la).getD k []) 0 64 + 1 else 0) g la k) s

/-- A burst of a device as it is read. -/
def flipBurst (flips : List Flip) (k : Nat) (l : List Byte) : List Byte :=
  (flips.filter (fun f => f.dev.val == k)).foldl
    (fun l f => l.set f.byte (l.getD f.byte 0 ^^^ f.bits)) l

/-- The six bursts of a line as they are read. -/
def State.burstsRead (s : State) (g la : Nat) (flips : List Flip) : List (List Byte) :=
  (s.bursts g la).zipIdx.map (fun p => flipBurst flips p.2 p.1)

/-- A slice formed as the XOR of the other four data and XOR slices (R306). -/
def rebuildSlice (b : List (List Byte)) (k : Nat) : List Byte :=
  ((List.range 5).filter (· != k)).foldl (fun a i => xorBytes a (b.getD i [])) (List.replicate 64 0)

/-- What the checks of a line find (R306): which of the five slices (bit k: data slice k, bit 4: the XOR slice) fail
their CRC, which of them fail it after a rebuild, whether LCRC is good, and whether the five slices are
XOR-consistent. -/
structure LineErr where
  bad      : Nat
  rebuilt  : Nat
  lcrcGood : Bool
  xorGood  : Bool
  deriving DecidableEq, Repr

/-- A number whose bit `k` tells whether `p k`, for `k` below `n`. -/
def maskOf (n : Nat) (p : Nat → Bool) : Nat := ((List.range n).filter p).foldl (fun a k => a + 2 ^ k) 0

/-- The checks of a line over its six bursts as they are read, with the group, the address asked for and the SEQ of the
check line as read (R304, R306). -/
def checksOf (g la : Nat) (b : List (List Byte)) : LineErr :=
  let c := b.getD 5 []
  let seq := beAt c 22 2
  let fails := fun (k : Nat) (l : List Byte) => crc32c (crcPrefix g la seq k ++ l) != beAt c (4 * k) 4
  { bad := maskOf 5 (fun k => fails k (b.getD k []))
    rebuilt := maskOf 5 (fun k => fails k (rebuildSlice b k))
    lcrcGood := crc32c (crcPrefix g la seq 5 ++ c.take 28 ++ c.drop 32) == beAt c 28 4
    xorGood := rebuildSlice b 4 == b.getD 4 [] }

/-- The checks of a read of a line whose devices return these bits flipped (R304, R306). -/
def State.lineChecks (s : State) (g la : Nat) (flips : List Flip) : LineErr := checksOf g la (s.burstsRead g la flips)

/-- What a read of a line comes to. -/
inductive ReadFate where
  /-- Data returned; nothing to correct. -/
  | clean
  /-- Corrected (R306). -/
  | corrected
  /-- The check line is rebuilt with a new SEQ (R306). -/
  | rebuilt
  /-- These data slices are poisoned. -/
  | poisoned (mask : Nat)
  deriving DecidableEq, Repr

/-- The data slices of a mask of five. -/
def dataBits (m : Nat) : Nat := m % 16

/-- The fate of a read in normal mode (R306). -/
def fateNormal (e : LineErr) : ReadFate :=
  let d := dataBits e.bad
  if d = 15 ∧ e.xorGood then .rebuilt
  else if !e.lcrcGood then .poisoned 15
  else if d = 0 then (if bitOf e.bad 4 then .corrected else .clean)
  else if !bitOf e.bad 4 && (bitsSet 4 d).length == 1 && !((bitsSet 4 d).any (bitOf e.rebuilt)) then .corrected
  else .poisoned d

/-- The fate of a read in erasure mode for device `k` (R310). -/
def fateErasure (k : Nat) (e : LineErr) : ReadFate :=
  if k < 4 then
    let other := (List.range 5).any (fun i => i != k && bitOf e.bad i)
    let d := (List.range 4).foldl (fun a i => if i ≠ k ∧ bitOf e.bad i then a + 2 ^ i else a) 0
    if !e.lcrcGood then .poisoned 15
    else if other || bitOf e.rebuilt k then .poisoned (d + 2 ^ k)
    else .clean
  else if k = 4 then
    if !e.lcrcGood then .poisoned 15
    else if dataBits e.bad = 0 then .clean else .poisoned (dataBits e.bad)
  else if e.xorGood then .clean else .poisoned 15

/-- The fate of a read of a line of a group. -/
def State.readFate (s : State) (g la : Nat) (flips : List Flip) : ReadFate :=
  let e := s.lineChecks g la flips
  if s.grpMode g = 1 then fateErasure (s.erasedDev g) e else fateNormal e

/-- The devices to which a read's failures are attributed (R306): those whose slice failed, or the check device where the
check line itself is at fault. -/
def errDevs (f : ReadFate) (e : LineErr) : List Nat :=
  match f with
  | .clean => []
  | .rebuilt => [5]
  | _ => if e.lcrcGood then bitsSet 5 e.bad else [5]

/-- A slice of a line as a read has it: rebuilt where its device has failed, otherwise as its device returns it (R306,
R310). -/
def State.sliceRead (s : State) (g la : Nat) (flips : List Flip) (k : Nat) : List Byte :=
  let b := s.burstsRead g la flips
  if s.grpMode g = 1 ∧ s.erasedDev g = k then rebuildSlice b k else b.getD k []

/-- The line is written back as it was read, in the slices of a mask (R307).
DESIGN CHOICE, log 55. -/
def writeBack (g la mask : Nat) (flips : List Flip) (s : State) : State :=
  forEach ((List.range 4).filter (bitOf mask)) (fun k t =>
    { t with dram := t.dram.write (dramAddr g (la * 256 + 64 * k)) (s.sliceRead g la flips k) }) s

/-- A read poisons slices of a line: the mark is written back and logged, and the poisoning is counted (R306, R308). -/
def poisonLine (g la mask : Nat) (s : State) : State :=
  let m := Nat.lor (s.linePoison g la) mask
  let s := logPoison g la m (s.put (.dmc .xPOIS) m g la)
  raise 0x45 (g / 4) g la (s.bump (.dmc .CNT) (g / 4) 1)

/-- The check line of a line is rebuilt over its slices as read, with a new SEQ, POISON 0 and sideband 0; the poison log
records the loss of its marks (R306). -/
def rebuildCheck (g la : Nat) (s : State) : State :=
  let s := s.when (s.linePoison g la != 0) (fun s => s.put (.dmc .POISON_LAST_LOG_LOST) 1 g)
  let s := takeLineSeq g la (unlogPoison g la ((s.put (.dmc .xPOIS) 0 g la).put (.dmc .xSIDE) 0 g la))
  raise 0x20 (g / 4) g la ((s.bump (.dmc .CNT) (g / 4) 0).bump (.dmc .CNT) (g / 4) 2)

/-- What the fate of a read does to the line and its counters (R306, R308). -/
def readAct (g la : Nat) (flips : List Flip) (f : ReadFate) (s : State) : State :=
  match f with
  | .clean => s
  | .corrected => raise 0x20 (g / 4) g la (s.bump (.dmc .CNT) (g / 4) 0)
  | .rebuilt => rebuildCheck g la (writeBack g la 15 flips s)
  | .poisoned m => poisonLine g la m (writeBack g la m flips s)

/-- A read of a line finds nothing (R306): its devices return what was last written, or its checks pass. -/
def State.readsClean (s : State) (g la : Nat) (flips : List Flip) : Bool :=
  (flips.isEmpty && !s.lineStale g la) || s.readFate g la flips == .clean

/-- What a read of a line finds is mended, and its failures are attributed to their devices (R306, R307). -/
def lineCheck (g la : Nat) (flips : List Flip) (s : State) : State :=
  if s.readsClean g la flips then s
  else
    let f := s.readFate g la flips
    forEach (errDevs f (s.lineChecks g la flips)) (fun k s => slideErr g la k s) (issued g la s (readAct g la flips f s))

/-- A read of one line whose devices return these bits flipped (R306, R310 to R312). A row that nothing has written reads
as zeros with no check. -/
def lineRead (g la : Nat) (flips : List Flip) (s : State) : State :=
  if s.grpLost g || !s.flag (.dmc .xINIT) g (la / 32) || s.readsClean g la flips then s
  else lineCheck g la flips (noteWriteBack g la s)

/-- A write of one line, whole or as a read-modify-write whose read the devices answer with these bits flipped (R305, R308,
R312). A LOST group drops it (R311). -/
def lineWriteWith (flips : List Flip) (g la off : Nat) (bytes : List Byte) (tags : Nat) (side : Option Nat) (s : State) :
    State :=
  if s.grpLost g ∨ bytes = [] then s
  else
    let n := bytes.length
    let full := off == 0 && n == 256
    let s := meetWriteBack g la s
    let s := s.when (!full) (·.bump (.dmc .CNT) (g / 4) 4)
    let fresh := !s.flag (.dmc .xINIT) g (la / 32)
    let s := s.when (!full && !fresh) (lineCheck g la flips)
    let s := if fresh then initRow g (la / 32) s else takeLineSeq g la s
    let held := s
    let old := s.linePoison g la
    let new := poisonAfter old off n tags
    let sb := match side with
      | some v => v
      | none => if full then 0 else s.get (.dmc .xSIDE) g la
    let s := (s.put (.dmc .xPOIS) new g la).put (.dmc .xSIDE) sb g la
    let tagged := (slicesOf off n).any (bitOf tags)
    let s := if tagged then logPoison g la new s else s.when (new == 0 && old != 0) (unlogPoison g la)
    issued g la held { s with dram := s.dram.write (dramAddr g (la * 256 + off)) bytes }

/-- A write of one line in which a read finds nothing but what the devices hold.
DESIGN CHOICE, log 54. -/
def lineWrite (g la off : Nat) (bytes : List Byte) (tags : Nat) (side : Option Nat) (s : State) : State :=
  lineWriteWith [] g la off bytes tags side s

/-- A write of any range of a group, line by line. `tag` says which 64-byte slices of the group, by their number, come
from tagged data. -/
def dramWrite (g : Nat) : Nat → Nat → List Byte → (Nat → Bool) → State → State
  | 0, _, _, _, s => s
  | _ + 1, _, [], _, s => s
  | n + 1, off, bytes, tag, s =>
    let la := off / 256
    let o := off % 256
    let take := min (256 - o) bytes.length
    let tags := (List.range 4).foldl (fun a k => if tag (4 * la + k) then a + 2 ^ k else a) 0
    dramWrite g n (off + take) (bytes.drop take) tag (lineWrite g la o (bytes.take take) tags none s)

/-- A write of untagged bytes.
DESIGN CHOICE, log 54. -/
def dramStore (g off : Nat) (bytes : List Byte) (s : State) : State :=
  dramWrite g (bytes.length / 256 + 2) off bytes (fun _ => false) s

/-- DRAM_READ (R306). -/
def execDramRead (g : Group) (la : Fin 16777216) (flips : List Flip) (s : State) : Host.Outcome State Fault Refusal :=
  s.run (fun s => s.when (!s.safe && s.dieUp (g / 4)) (lineRead g la flips))

/-- DRAM_WRITE (R305): `flips` are the bits that the devices return flipped to the read of a write of fewer than 256 bytes. -/
def execDramWrite (g : Group) (la : Fin 16777216) (off : Fin 256) (bytes : List Byte) (tags : Nat)
    (x : LineSide) (s : State) : Host.Outcome State Fault Refusal :=
  s.run (fun s => s.when (!s.safe && s.dieUp (g / 4)) (lineWriteWith x.flips g la off (bytes.take (256 - off)) tags x.sideband))

/-- A write of `DMC_GRP_CTRL` (R309): FORCE_ERASE is ignored while MODE is not 0. -/
def grpCtrlWrite (g v : Nat) (s : State) : State :=
  let s := s.put (.dmc .GRP_CTRL_DEV) v g
  s.when (bitOf v 3 && s.grpMode g == 0 && decide (v % 8 < 6)) (declareFailed g (v % 8) false)

/-- FORCE_ERASE (R309). -/
def execForceErase (p : Party) (g : Group) (v : Word) (s : State) : Host.Outcome State Fault Refusal :=
  s.run (gated p .dmc (some (g / 4)) (grpCtrlWrite g (withBits v.toNat 3 1 1)))

/-- The controller of a group serves it: its die has trained and does not stand in Winter. -/
def State.grpServes (s : State) (g : Nat) : Bool := !s.safe && s.flag (.dmc .STATUS_READY) (g / 4) && !s.inWinter

/-- Scrub is paused while the busiest domain is not enabled or the time base is FREE (R313). -/
def State.scrubPaused (s : State) : Bool := s.tbState == tbFREE || !s.domOn s.busiest

/-- Rows that the lines of a scrub credit touch. -/
def scrubRows (pos n : Nat) : List Nat :=
  (List.range (n / 32 + 2)).filterMap (fun i =>
    let la := pos / 32 * 32 + 32 * i
    if la < pos + n then some (la / 32 % grpRows) else none)

/-- The lines among `n` from `pos` on which the devices return bits flipped, in increasing LA, each once. -/
def scrubHits (pos n : Nat) (errs : List (Nat × List Flip)) : List Nat :=
  (((errs.map (fun p => p.1 % grpLines)).filter (fun la => decide (pos ≤ la ∧ la < pos + n))).dedup).insertionSort (· ≤ ·)

/-- The bits that the devices return flipped on a line. -/
def flipsOn (errs : List (Nat × List Flip)) (la : Nat) : List Flip :=
  (errs.filter (fun p => p.1 % grpLines == la)).flatMap (·.2)

/-- `n` lines from `pos` are scrubbed, none of them past the last of the group (R313). A LOST group reads nothing. -/
def scrubLines (g pos n : Nat) (errs : List (Nat × List Flip)) (s : State) : State :=
  if s.grpLost g then s
  else
    let s := forEach (scrubHits pos n errs) (fun la s => lineRead g la (flipsOn errs la) s) s
    forEach (scrubRows pos n) (initRow g) s

/-- The wrap from the last line ends the scrub pass (R313): PASS counts, and the failure counts of R309 start again. -/
def passEnd (g : Nat) (s : State) : State :=
  let s := forEach (List.range 6) (fun k s => s.put (.dmc .DEV_ERR_PASS_ERR) 0 g k) s
  let s := s.keepKeys (fun k => !(k.fld == .dmc .xPERR && k.i == g))
  s.bump (.dmc .GRP_STATUS_PASS) g

/-- A scrub credit of a group, once at each picture boundary of the busiest domain (R313). -/
def scrub (g : Nat) (errs : List (Nat × List Flip)) (s : State) : State :=
  let d := g / 4
  let n := s.get (.dmc .CFG_SCRUB_LINES) d
  if s.scrubPaused || !s.boundarySince (s.get (.dmc .xSCRUB_TAI) g) then s
  else if n == 0 then s.put (.dmc .xSCRUB_TAI) s.tai g
  else
    let s := s.put (.dmc .xSCRUB_TAI) s.tai g
    let pos := s.get (.dmc .SCRUB_POS_LINE) g
    let s := s.bump (.dmc .CNT) d 5 0 n
    let s :=
      if pos + n < grpLines then scrubLines g pos n errs s
      else scrubLines g 0 (pos + n - grpLines) errs (passEnd g (scrubLines g pos (grpLines - pos) errs s))
    s.put (.dmc .SCRUB_POS_LINE) ((pos + n) % grpLines) g

/-- SCRUB_CREDIT (R313). -/
def execScrubCredit (g : Group) (errs : List (Nat × List Flip)) (now : Now) (s : State) :
    Host.Outcome State Fault Refusal :=
  s.runAt now (fun s => s.when (s.grpServes g) (scrub g errs))

/-- A real-time request of a group has waited since edge `since` for as long as DMC_AGE_CAP says (R67, R315). -/
def State.ageCapped (s : State) (g since : Nat) : Bool := s.waitedOut (.dmc .AGE_CAP_CAP) (g / 4) since 1 16 500

/-- The oldest real-time request of a group that still waits, by the edge since which it waits (R316).
DESIGN CHOICE, log 100. -/
def rtWaits (g : Nat) (since : Option Nat) (s : State) : State :=
  s.put (.dmc .xRT_OLD) (match since with | none => 0 | some e => e + 1) g

/-- The real-time class of a die is saturated while a request of one of its groups has waited longer than DMC_AGE_CAP
(R316).
DESIGN CHOICE, log 100. -/
def State.rtSat (s : State) (d : Nat) : Bool :=
  (List.range 4).any (fun r =>
    let o := s.get (.dmc .xRT_OLD) (4 * d + r)
    o != 0 && decide (o ≤ s.osc) && s.ageCapped (4 * d + r) (o - 1))

/-- `DMC_REF_POSTPONE` of a die, values above 8 taken as 8. -/
def State.postpone (s : State) (d : Nat) : Nat := min 8 (s.get (.dmc .REF_POSTPONE_MAX) d)

/-- tREFI at 1×, 3,906 ns, in quarter edges of the local oscillator (R318). -/
def tRefi : Nat := 23436

/-- A refresh interval of a group at its rate, in quarter edges (R318). A readout beyond the 4× range calls for 4×.
DEDUCED, log 53. -/
def State.refi (s : State) (g : Nat) : Nat := tRefi / 2 ^ min 2 (s.get (.dmc .GRP_STATUS_REF_RATE) g)

/-- The current refresh interval of a group has ended (R318). -/
def State.intervalDue (s : State) (g : Nat) : Bool := decide (s.get (.dmc .xREF_AT) g + s.refi g ≤ 4 * s.osc)

/-- A refresh interval comes due (R318, R319): one refreshed in advance is owed nothing; with real-time requests near
their deadline it is postponed, or forced where the debt stands at its limit; otherwise it is issued, and one interval of
debt is repaid.
DEDUCED, log 53. -/
def refreshDue (g : Nat) (busy : Bool) (s : State) : State :=
  let debt := s.get (.dmc .GRP_STATUS_REF_DEBT) g
  let adv := s.get (.dmc .xADV) g
  let s := s.put (.dmc .xREF_AT) (s.get (.dmc .xREF_AT) g + s.refi g) g
  if adv ≠ 0 then s.put (.dmc .xADV) (adv - 1) g
  else if busy then
    if s.postpone (g / 4) ≤ debt then s.bump (.dmc .CNT) (g / 4) 8
    else s.put (.dmc .GRP_STATUS_REF_DEBT) (debt + 1) g
  else s.put (.dmc .GRP_STATUS_REF_DEBT) (debt - 1) g

/-- REFRESH_INTERVAL (R318). With no real-time request near its deadline none is left waiting (R319).
DESIGN CHOICE, log 100. -/
def execRefreshInterval (g : Group) (rtBusy : Bool) (now : Now) (s : State) : Host.Outcome State Fault Refusal :=
  s.runAt now (fun s => s.when (s.grpServes g) (fun s =>
    (s.when (s.intervalDue g) (refreshDue g rtBusy)).when (!rtBusy) (rtWaits g none)))

/-- The MR4 readouts of a group set its refresh rate (R318); a readout beyond range starts or ends the time of R494. -/
def mr4 (g rate : Nat) (s : State) : State :=
  let s := s.put (.dmc .GRP_STATUS_REF_RATE) rate g
  if rate = 3 then s.when (!s.flag (.pwr .xMR4_AT) g) (fun s => s.put (.pwr .xMR4_AT) (s.osc + 1) g)
  else s.put (.pwr .xMR4_AT) 0 g

/-- How many vertical blankings of a domain have begun up to a time: at line FIRST_ACTIVE + ACTIVE_LINES, modulo TOTAL_LINES (R320). -/
def State.blanksAt (s : State) (dom t : Nat) : Nat :=
  (s.ticksAt dom t + s.picTicks dom - (s.domFirst dom + s.domActive dom) % s.domTotal dom * 65536) / s.picTicks dom

/-- The busiest domain has begun a vertical blanking since the group's last catch-up, and since FREE ended (R320). -/
def State.blankBegun (s : State) (g : Nat) : Bool :=
  let b := s.busiest
  decide (s.blanksAt b (max (s.get (.dmc .xCATCH_TAI) g) (s.get (.trs .xLEFT_TAI))) < s.blanksAt b s.tai)

/-- The busiest domain is in its vertical blanking (R326). -/
def State.inBlank (s : State) : Bool :=
  let b := s.busiest
  let line := s.ticksNow b % s.picTicks b / 65536
  decide (line < s.domFirst b ∨ s.domFirst b + s.domActive b ≤ line)

/-- A catch-up (R320), once in each vertical blanking of the busiest domain: every interval of debt is repaid, and up to the limit is
refreshed in advance. None runs while the busiest domain is not enabled or the time base is FREE.
DEDUCED, log 53. -/
def catchup (g rate : Nat) (s : State) : State :=
  if s.scrubPaused || !s.blankBegun g then s
  else
    let s := (mr4 g rate (s.put (.dmc .xCATCH_TAI) s.tai g)).put (.dmc .GRP_STATUS_REF_DEBT) 0 g
    (s.put (.dmc .xADV) (s.postpone (g / 4)) g).bump (.dmc .CNT) (g / 4) 9

/-- REFRESH_CATCHUP (R320). -/
def execRefreshCatchup (g : Group) (rate : Fin 4) (now : Now) (s : State) : Host.Outcome State Fault Refusal :=
  s.runAt now (fun s => s.when (s.grpServes g) (catchup g rate))

/-- MR4_READ (R318). -/
def execMr4Read (g : Group) (rate : Fin 4) (now : Now) (s : State) : Host.Outcome State Fault Refusal :=
  s.runAt now (fun s => s.when (s.grpServes g) (mr4 g rate))

/-- A device is retrained alone, in a vertical blanking of the busiest domain; its group runs in erasure mode for it meanwhile (R326). A
group that is in erasure mode already stays in it. With catch-ups stopped no interval oscillator is read.
DEDUCED, log 53. -/
def driftStart (g k : Nat) (s : State) : State :=
  if s.flag (.dmc .GRP_STATUS_RETRAINING) g || s.grpLost g || s.scrubPaused || !s.inBlank then s
  else
    let s := (s.bump (.dmc .CNT) (g / 4) 10).put (.dmc .xRETR_DEV) k g
    let s := s.when (s.grpMode g == 0) (fun s =>
      ((s.put (.dmc .xRETR_MODE) 1 g).put (.dmc .GRP_STATUS_MODE) 1 g).put (.dmc .GRP_STATUS_ERASED_DEV) k g)
    s.put (.dmc .GRP_STATUS_RETRAINING) 1 g

/-- DRIFT_RETRAIN (R326). -/
def execDriftRetrain (g : Group) (k : Device) (now : Now) (s : State) : Host.Outcome State Fault Refusal :=
  s.runAt now (fun s => s.when (s.grpServes g) (driftStart g k))

/-- A drift retrain ends (R326): its group returns to normal mode, or the device is declared failed. -/
def driftDone (g : Nat) (ok : Bool) (s : State) : State :=
  if s.flag (.dmc .GRP_STATUS_RETRAINING) g then
    let k := s.get (.dmc .xRETR_DEV) g
    let was := s.flag (.dmc .xRETR_MODE) g
    let s := (s.put (.dmc .GRP_STATUS_RETRAINING) 0 g).put (.dmc .xRETR_DEV) 7 g
    if ok then
      s.when was (fun s =>
        ((s.put (.dmc .xRETR_MODE) 0 g).put (.dmc .GRP_STATUS_MODE) 0 g).put (.dmc .GRP_STATUS_ERASED_DEV) 7 g)
    else declareFailed g k false s
  else s

/-- DRIFT_RETRAIN_DONE (R326). -/
def execDriftRetrainDone (g : Group) (ok : Bool) (now : Now) (s : State) : Host.Outcome State Fault Refusal :=
  s.runAt now (fun s => s.when (s.grpServes g) (driftDone g ok))

/-- XBAR_GRANT_TIMEOUT (R67, R314): a crossbar request that began to wait for its grant at edge `w.since` has waited
DMC_XBAR_TO out. -/
def execXbarGrantTimeout (g : Group) (cluster : Fin 4) (w : Waited) (s : State) : Host.Outcome State Fault Refusal :=
  s.runAt w.now (fun s => s.when (!s.safe && s.dieUp (g / 4) && s.waitedOut (.dmc .XBAR_TO_TO) (g / 4) w.since 200 20000 1)
    (raise 0x61 (g / 4) g (4 * g + cluster)))

/-- AGE_CAP_HIT (R315): the request whose age has reached the cap is served and counted. `a.waiting` is the edge since which
the oldest of the group's other real-time requests waits (R316). -/
def execAgeCapHit (g : Group) (a : AgeCap) (s : State) : Host.Outcome State Fault Refusal :=
  s.runAt a.now (fun s => s.when (!s.safe && s.dieUp (g / 4) && s.ageCapped g a.since) (fun s =>
    rtWaits g a.waiting (s.bump (.dmc .CNT) (g / 4) 7)))

/-- The groups of a die train (R323 to R325): the init map clears, and the devices that fail put their group in erasure
mode or make it LOST. A device erasure of the repair map stands from the start (R309). `READY` sets.
DEDUCED, log 23. -/
def trainGroups (d : Nat) (failed : List (Nat × Nat)) (erased : List (Nat × Nat)) (s : State) : State :=
  let s := s.keepKeys (fun k => match k.fld with
    | .dmc .xINIT | .dmc .xINIT_N | .dmc .xROW_SEQ | .dmc .xRT_OLD | .dmc .xWB | .dmc .xWB_SIDE | .dmc .xWB_SLICE | .dmc .xSTALE | .dmc .xPOIS | .dmc .xSEQ | .dmc .xSIDE | .dmc .xPERR | .dmc .GRP_STATUS_INIT_DONE =>
      k.i / 4 != d
    | _ => true)
  let s : State := { s with dram := s.dram.keep (fun a => a / 2 ^ 32 / 4 != d),
                            plog := s.plog.filter (fun p => p.grp / 4 != d) }
  let s := forEach (List.range 4) (fun r s =>
    let g := 4 * d + r
    let bad := (List.range 6).filter (fun k => failed.contains (r, k) || erased.contains (g, k))
    let s := ((s.put (.dmc .xREF_AT) (4 * s.osc) g).put (.dmc .xCATCH_TAI) s.tai g).put (.dmc .xSCRUB_TAI) s.tai g
    let s := s.when (failed.any (fun p => p.1 == r)) (fun s => s.put (.dmc .STATUS_TRAIN_FAIL) 1 d)
    match bad with
    | [] => s.putBit (.dmc .STATUS_TRAINED) r true d
    | [k] => declareFailed g k (erased.contains (g, k)) s
    | k :: _ =>
      let s := (s.put (.dmc .GRP_STATUS_MODE) 2 g).put (.dmc .GRP_STATUS_ERASED_DEV) k g
      (s.putBit (.dmc .STATUS_LOST) r true d).bump (.dmc .CNT) d 11 0 bad.length) s
  s.put (.dmc .STATUS_READY) 1 d

end Sys2Proof.Machine
end

