-- ==== Sys2Proof/Machine/Tables.lean ====
section
/-!
DEFINITION. The forwarding tables (chapter 10): the route trie, the flow table and the learning bridge with its aging,
their commands and their line protection.
-/

namespace Sys2Proof.Machine

/-- The cumulative strides of a family's levels (R241). -/
def trieCum (fam : Nat) : List Nat := if fam = 0 then [8, 14, 20, 26, 32] else [16, 24, 32, 40, 48, 56, 64]

/-- The address bits that a family uses (R241). -/
def famBits (fam : Nat) : Nat := if fam = 0 then 32 else 64

/-- The top `n` bits of a family's address. -/
def topBits (fam a n : Nat) : Nat := a / 2 ^ (famBits fam - n)

/-- A prefix covers an address. -/
def Route.covers (r : Route) (a : Nat) : Bool := topBits r.fam r.pfx r.len == topBits r.fam a r.len

/-- The routes of a die and family. -/
def State.routesOf (s : State) (d fam : Nat) : List Route := s.routes.filter (fun r => r.die == d && r.fam == fam)

/-- The longest prefix that covers an address (R242). -/
def State.lpm (s : State) (d fam a : Nat) : Option Route :=
  (s.routesOf d fam).foldl (fun b r => if r.covers a then (match b with
    | none => some r
    | some q => if q.len < r.len then some r else some q) else b) none

/-- The level in which a prefix of a length ends (R242). -/
def endLevel (fam len : Nat) : Nat := ((trieCum fam).filter (· < len)).length

/-- The nodes that a prefix needs at the levels below the root: level and path (R243). -/
def routeNodes (r : Route) : List (Nat × Nat) :=
  (List.range (endLevel r.fam r.len)).map (fun l => (l + 1, topBits r.fam r.pfx ((trieCum r.fam).getD l 0)))

/-- The nodes of a pool (R243). -/
def poolNodes (fam level : Nat) : Nat := if fam = 0 then (if level = 1 then 256 else 8192) else 1024

/-- The prefixes of a family fit its pools and its count (R241, R243). -/
def trieFits (fam : Nat) (l : List Route) : Bool :=
  let nodes := (l.map routeNodes).flatten.eraseDups
  decide (l.length ≤ (if fam = 0 then 16384 else 4096)) &&
  (trieCum fam).length.fold (fun lv _ ok => ok && decide ((nodes.filter (fun n => n.1 == lv)).length ≤ poolNodes fam lv)) true

/-- The line of 64 slots that a lookup of an address reads at a level: the model's numbering of trie lines, by family,
level and the slot's place in its level. -/
def trieLine (fam level a : Nat) : Nat :=
  (fam * 8 + level) * 2 ^ 64 + topBits fam a ((trieCum fam).getD level 0) / 64

/-- The levels that a lookup reads: it goes on while a longer prefix shares the bits so far (R242). -/
def State.lookupLevels (s : State) (d fam a : Nat) : Nat :=
  let rs := s.routesOf d fam
  ((trieCum fam).takeWhile (fun c => rs.any (fun r => decide (c < r.len) && topBits fam r.pfx c == topBits fam a c))).length + 1

/-- A lookup reaches a line that is marked bad (R262). -/
def State.trieBad (s : State) (d fam a : Nat) : Bool :=
  (List.range (s.lookupLevels d fam a)).any (fun l => s.flag (.fwd .xRT_BAD) d (trieLine fam l a))

/-- A route lookup of a frame (R244): the handle of the longest prefix, the default handle, or nothing; with its
counter. -/
def routeLookup (d fam a : Nat) (s : State) : Option Nat × State :=
  match (if s.trieBad d fam a then none else s.lpm d fam a) with
  | some r => (some r.handle, s.bump (.fwd .CNT) d 0)
  | none =>
    let s := s.bump (.fwd .CNT) d 1
    (if s.flag (.fwd .RT_CFG_DEF_EN) d then some (s.get (.fwd .RT_CFG_DEF_HANDLE) d) else none, s)

/-- A flow entry, with a bad line read as an entry that is not valid (R262). -/
def State.flowEntry (s : State) (d h : Nat) : Nat :=
  if s.flag (.fwd .xFL_BAD) d (h / 16) then 0 else s.get (.fwd .xFLOW) d h

/-- A flow entry that may be written: no reserved bit, and no interface of the other die (R246). -/
def flowOk (d e : Nat) : Bool :=
  bitsOf e 45 18 == 0 && bitsOf e 16 8 == 0 && bitsOf e (8 * (1 - d)) 8 == 0

/-- A flow entry written whole; writing any entry of a bad line rebuilds it (R262). -/
def flowPut (d h e : Nat) (s : State) : State := (s.put (.fwd .xFLOW) e d h).put (.fwd .xFL_BAD) 0 d (h / 16)

/-- A bridge entry (R249, R255). -/
structure BrEntry where
  valid  : Bool
  vid    : Nat
  mac    : Nat
  iface  : Nat
  static : Bool
  hit    : Bool
  age    : Bool
  sweep  : Bool
  deriving DecidableEq, Repr

/-- The empty entry. -/
def brNone : BrEntry := ⟨false, 0, 0, 0, false, false, false, false⟩

/-- The entry of a bridge slot. -/
def State.br (s : State) (d n : Nat) : BrEntry :=
  ⟨s.flag (.fwd .xBR_VALID) d n, s.get (.fwd .xBR_VID) d n, s.get (.fwd .xBR_MAC) d n, s.get (.fwd .xBR_IF) d n,
   s.flag (.fwd .xBR_STATIC) d n, s.flag (.fwd .xBR_HIT) d n, s.flag (.fwd .xBR_AGE) d n, s.flag (.fwd .xBR_SWEEP) d n⟩

/-- A bridge slot written whole (R253). -/
def brPut (d n : Nat) (e : BrEntry) (s : State) : State :=
  let s := ((s.put (.fwd .xBR_VID) e.vid d n).put (.fwd .xBR_MAC) e.mac d n).put (.fwd .xBR_IF) e.iface d n
  let s := (s.putB (.fwd .xBR_STATIC) e.static d n).putB (.fwd .xBR_HIT) e.hit d n
  ((s.putB (.fwd .xBR_AGE) e.age d n).putB (.fwd .xBR_SWEEP) e.sweep d n).putB (.fwd .xBR_VALID) e.valid d n

/-- The two buckets of a key (R249). -/
def brBuckets (vid mac : Nat) : Nat × Nat :=
  let h := crc32c (beBytes 2 vid ++ beBytes 6 mac)
  let b1 := h % 8192
  let b2 := h / 8192 % 8192
  (b1, if b2 = b1 then Nat.xor b1 1 else b2)

/-- The slots of a bucket. -/
def brWays (b : Nat) : List Nat := (List.range 4).map (· + 4 * b)

/-- The slot that holds a key. -/
def State.brFind (s : State) (d vid mac : Nat) : Option Nat :=
  let (b1, b2) := brBuckets vid mac
  (brWays b1 ++ brWays b2).find? (fun n => s.flag (.fwd .xBR_VALID) d n && s.get (.fwd .xBR_VID) d n == vid &&
    s.get (.fwd .xBR_MAC) d n == mac)

/-- A free way of a bucket. -/
def State.brFree (s : State) (d b : Nat) : Option Nat :=
  (brWays b).find? (fun n => !s.flag (.fwd .xBR_VALID) d n)

/-- The bucket other than its own in which an entry may lie. -/
def State.brOther (s : State) (d n : Nat) : Nat :=
  let e := s.br d n
  let (b1, b2) := brBuckets e.vid e.mac
  if n / 4 = b1 then b2 else b1

/-- The breadth-first search of R252: a path is the list of the slots to move, first the slot that the new key takes. -/
def brSearch (s : State) (d : Nat) : Nat → List (Nat × List Nat) → Option (List Nat × Nat)
  | 0, _ => none
  | n + 1, frontier =>
    let steps := (frontier.map (fun p => (brWays p.1).map (fun w => (s.brOther d w, p.2 ++ [w])))).flatten
    match steps.findSome? (fun p => (s.brFree d p.1).map (fun f => (p.2, f))) with
    | some r => some r
    | none => brSearch s d n steps

/-- The moves of a path carried out from its end back toward the new key (R252). -/
def brMoves (d : Nat) : List Nat → Nat → State → State
  | [], _, s => s
  | w :: t, target, s => brMoves d t w (brPut d w brNone (brPut d target (s.br d w) s))

/-- An insertion under R252: a free way of b1, then of b2, then a path of at most three relocations. None where no path
exists. -/
def brInsert (d : Nat) (e : BrEntry) (s : State) : Option State :=
  let (b1, b2) := brBuckets e.vid e.mac
  match s.brFree d b1 with
  | some n => some (brPut d n e s)
  | none => match s.brFree d b2 with
    | some n => some (brPut d n e s)
    | none => match brSearch s d 3 [(b1, []), (b2, [])] with
      | some (w :: path, f) => some (brPut d w e (brMoves d ((w :: path).reverse) f s))
      | _ => none

/-- The valid bridge slots of a die. -/
def State.brSlots (s : State) (d : Nat) : List Nat :=
  ((s.store.keysOf (.fwd .xBR_VALID)).filter (fun k => k.i == d)).map (·.j)

/-- Bridge data as `FWD_BR_DATA` spells it (R265). -/
def brData (e : BrEntry) : Nat :=
  e.iface + (if e.static then 16 else 0) + (if e.hit then 32 else 0) + (if e.age then 64 else 0) +
  (if e.sweep then 128 else 0) + (if e.valid then 2 ^ 31 else 0)

/-- The entry that a key and a data word spell. -/
def brOf (vid mac data : Nat) : BrEntry :=
  ⟨bitOf data 31, vid, mac, data % 16, bitOf data 4, bitOf data 5, bitOf data 6, bitOf data 7⟩

/-- The bridge staging registers. -/
def State.brStage (s : State) (d : Nat) : Nat :=
  s.get (.fwd .BR_DATA_IF) d + (if s.flag (.fwd .BR_DATA_STATIC) d then 16 else 0) +
  (if s.flag (.fwd .BR_DATA_HIT) d then 32 else 0) + (if s.flag (.fwd .BR_DATA_AGE) d then 64 else 0) +
  (if s.flag (.fwd .BR_DATA_SWEEP) d then 128 else 0) + (if s.flag (.fwd .BR_DATA_VALID) d then 2 ^ 31 else 0)

/-- A data word loaded into the bridge staging registers. -/
def loadBrData (d v : Nat) (s : State) : State :=
  ((((((s.put (.fwd .BR_DATA_IF) v d).putB (.fwd .BR_DATA_STATIC) (bitOf v 4) d).putB (.fwd .BR_DATA_HIT) (bitOf v 5) d)
    ).putB (.fwd .BR_DATA_AGE) (bitOf v 6) d).putB (.fwd .BR_DATA_SWEEP) (bitOf v 7) d).putB (.fwd .BR_DATA_VALID) (bitOf v 31) d

/-- A key loaded into the bridge staging registers. -/
def loadBrKey (d vid mac : Nat) (s : State) : State :=
  ((s.put (.fwd .BR_KEY_LO_MAC_LO) mac d).put (.fwd .BR_KEY_HI_MAC_HI) (mac / 2 ^ 32) d).put (.fwd .BR_KEY_HI_VID) vid d

/-- The number of a table: its staging index, and its CMD_DONE source (R360). -/
def tblIx (t : TableId) : Nat :=
  match t with
  | .route => 0
  | .flow => 1
  | .bridge => 2

/-- The fields of a table's command register. -/
def cmdOP (t : TableId) : Fld := match t with
  | .route => .fwd .RT_CMD_OP
  | .flow => .fwd .FL_CMD_OP
  | .bridge => .fwd .BR_CMD_OP
def cmdBUSY (t : TableId) : Fld := match t with
  | .route => .fwd .RT_CMD_BUSY
  | .flow => .fwd .FL_CMD_BUSY
  | .bridge => .fwd .BR_CMD_BUSY
def cmdLOST (t : TableId) : Fld := match t with
  | .route => .fwd .RT_CMD_LOST
  | .flow => .fwd .FL_CMD_LOST
  | .bridge => .fwd .BR_CMD_LOST
def cmdSTATUS (t : TableId) : Fld := match t with
  | .route => .fwd .RT_CMD_STATUS
  | .flow => .fwd .FL_CMD_STATUS
  | .bridge => .fwd .BR_CMD_STATUS
def cmdINDEX (t : TableId) : Fld := match t with
  | .route => .fwd .RT_CMD_INDEX
  | .flow => .fwd .FL_CMD_INDEX
  | .bridge => .fwd .BR_CMD_INDEX

/-- The key and data words that a command takes on its start edge (R258). -/
def State.stageWords (s : State) (d : Nat) (t : TableId) : Nat × Nat × Nat × Nat :=
  match t with
  | .route => (s.get (.fwd .RT_KEY0_KEY0) d, s.get (.fwd .RT_KEY1_KEY1) d, s.get (.fwd .RT_DATA_HANDLE) d, 0)
  | .flow => (0, 0, s.get (.fwd .FL_DATA_LO_ENTRY_LO) d, s.get (.fwd .FL_DATA_HI_ENTRY_HI) d)
  | .bridge => (s.get (.fwd .BR_KEY_LO_MAC_LO) d,
      s.get (.fwd .BR_KEY_HI_MAC_HI) d + s.get (.fwd .BR_KEY_HI_VID) d * 2 ^ 16, s.brStage d, 0)

/-- A write of a command register (R258): with OP not 0 it starts a command, unless one runs (LOST) or the tables have
not loaded (R264). -/
def cmdWrite (d : Nat) (t : TableId) (v : Nat) (s : State) : State :=
  let s := s.when (bitOf v 5) (fun s => s.put (cmdLOST t) 0 d)
  if v % 8 = 0 then
    let s := (s.put (cmdOP t) 0 d).put (cmdINDEX t) (v / 2 ^ 16) d
    s.when (t == .route) (fun s => s.putB (.fwd .RT_CMD_FAMILY) (bitOf v 3) d)
  else if !s.flag (.fwd .STATUS_READY) d then s
  else if s.flag (cmdBUSY t) d then s.put (cmdLOST t) 1 d
  else
    let i := tblIx t
    let (k0, k1, d0, d1) := s.stageWords d t
    let s := (s.put (cmdOP t) v d).put (cmdINDEX t) (v / 2 ^ 16) d
    let s := s.when (t == .route) (fun s => s.putB (.fwd .RT_CMD_FAMILY) (bitOf v 3) d)
    let s := ((s.put (.fwd .xCMD_OP) v d i).putB (.fwd .xCMD_FAM) (t == .route && bitOf v 3) d i).put (.fwd .xCMD_IX) (v / 2 ^ 16) d i
    let s := ((s.put (.fwd .xCMD_K0) k0 d i).put (.fwd .xCMD_K1) k1 d i).put (.fwd .xCMD_D0) d0 d i
    let s := s.put (.fwd .xCMD_D1) d1 d i
    (s.put (.fwd .xCMD_DUE) (s.dueIn (clampTo 10 10000 (s.get (.fwd .CMD_TO_TO) d) * usNs)) d i).put (cmdBUSY t) 1 d

/-- The statuses of a table command (R260). -/
def tsOK : Nat := 0
def tsNOT_FOUND : Nat := 1
def tsEXISTS : Nat := 2
def tsFULL : Nat := 3
def tsBADENTRY : Nat := 4
def tsTIMEOUT : Nat := 5
def tsUNSUPPORTED : Nat := 6
def tsPOISON : Nat := 7

/-- The route data staging set. -/
def stageRoute (d handle len : Nat) (s : State) : State :=
  (s.put (.fwd .RT_DATA_HANDLE) handle d).put (.fwd .RT_DATA_MATCH_LEN) len d

/-- An address key of a family from the two key words. -/
def routeKey (fam k0 k1 : Nat) : Nat := if fam = 0 then k0 else k0 * 2 ^ 32 + k1

/-- A prefix that may be inserted: its length fits the family and no host bit is set (R260). -/
def prefixOk (fam len a : Nat) : Bool :=
  decide (len ≤ famBits fam) && decide (a % 2 ^ (famBits fam - len) = 0)

/-- The insertion of a prefix: its status and the state (R243, R260). -/
def routeInsert (d fam len a handle : Nat) (s : State) : Nat × State :=
  if !prefixOk fam len a then (tsBADENTRY, s)
  else
    let same := fun r : Route => r.die == d && r.fam == fam && r.len == len && r.pfx == a
    if s.routes.any same then
      (tsOK, { s with routes := s.routes.map (fun r => if same r then { r with handle := handle } else r) })
    else if trieFits fam (⟨d, fam, len, a, handle⟩ :: s.routesOf d fam) then
      (tsOK, { s with routes := s.routes ++ [⟨d, fam, len, a, handle⟩] })
    else (tsFULL, s)

/-- A route command (R260): the result status and the state with its effects and its staging loaded. SEARCH sees the trie as
a frame does, bad lines included (R262). -/
def routeCmd (d op fam ix k0 k1 d0 : Nat) (s : State) : Nat × State :=
  let a := routeKey fam k0 k1
  let len := ix % 128
  let same := fun r : Route => r.die == d && r.fam == fam && r.len == len && r.pfx == a
  match op with
  | 1 =>
    if !prefixOk fam len a then (tsBADENTRY, s)
    else match s.routes.find? same with
      | some r => (tsOK, stageRoute d r.handle (s.get (.fwd .RT_DATA_MATCH_LEN) d) s)
      | none => (tsNOT_FOUND, stageRoute d 0 0 s)
  | 3 => routeInsert d fam len a (d0 % 4096) s
  | 4 =>
    if !prefixOk fam len a then (tsBADENTRY, s)
    else if s.routes.any same then (tsOK, { s with routes := s.routes.filter (fun r => !same r) })
    else (tsNOT_FOUND, stageRoute d 0 0 s)
  | 5 =>
    match (if s.trieBad d fam a then none else s.lpm d fam a) with
    | some r => (tsOK, stageRoute d r.handle r.len s)
    | none => (tsNOT_FOUND, stageRoute d 0 0 s)
  | _ => (tsUNSUPPORTED, s)

/-- The flow data staging set. -/
def stageFlow (d e : Nat) (s : State) : State :=
  (s.put (.fwd .FL_DATA_LO_ENTRY_LO) e d).put (.fwd .FL_DATA_HI_ENTRY_HI) (e / 2 ^ 32) d

/-- A flow command (R260). -/
def flowCmd (d op ix d0 d1 : Nat) (s : State) : Nat × State :=
  let h := ix % 4096
  let e := d0 + d1 * 2 ^ 32
  match op with
  | 1 => (tsOK, stageFlow d (s.get (.fwd .xFLOW) d h) s)
  | 2 => if flowOk d e then (tsOK, flowPut d h e s) else (tsBADENTRY, s)
  | 3 =>
    if !flowOk d e then (tsBADENTRY, s)
    else if bitOf (s.get (.fwd .xFLOW) d h) 63 then (tsEXISTS, s)
    else (tsOK, flowPut d h e s)
  | 4 => (tsOK, flowPut d h 0 s)
  | 5 => (tsOK, stageFlow d (s.get (.fwd .xFLOW) d h) s)
  | _ => (tsUNSUPPORTED, s)

/-- A flush removes dynamic entries, of one interface or of all, from the buckets below a limit (R260). -/
def brFlush (d ix limit : Nat) (s : State) : State :=
  let gone := (s.brSlots d).filter (fun n => decide (n / 4 < limit) && !s.flag (.fwd .xBR_STATIC) d n &&
    (!bitOf ix 15 || s.get (.fwd .xBR_IF) d n == ix % 16))
  forEach gone (fun n s => brPut d n brNone s) s

/-- A bridge command (R260). -/
def bridgeCmd (d op ix k0 k1 d0 : Nat) (s : State) : Nat × State :=
  let mac := k0 + k1 % 65536 * 2 ^ 32
  let vid := bitsOf k1 16 12
  let slot := ix % 32768
  match op with
  | 1 =>
    let e := s.br d slot
    if e.valid then (tsOK, loadBrData d (brData e) (loadBrKey d e.vid e.mac s))
    else (tsNOT_FOUND, loadBrData d 0 (loadBrKey d 0 0 s))
  | 2 =>
    let (b1, b2) := brBuckets vid mac
    if slot / 4 = b1 ∨ slot / 4 = b2 then
      let e := brOf vid mac d0
      (tsOK, brPut d slot (if e.valid then e else brNone) s)
    else (tsBADENTRY, s)
  | 3 =>
    if (s.brFind d vid mac).isSome then (tsEXISTS, s)
    else match brInsert d { brOf vid mac d0 with valid := true } s with
      | some t => (tsOK, t)
      | none => (tsFULL, s)
  | 4 =>
    match s.brFind d vid mac with
    | some n => (tsOK, brPut d n brNone s)
    | none => (tsNOT_FOUND, loadBrData d 0 s)
  | 5 =>
    match s.brFind d vid mac with
    | some n => (tsOK, (loadBrData d (brData (s.br d n)) s).put (.fwd .BR_CMD_INDEX) n d)
    | none => (tsNOT_FOUND, loadBrData d 0 s)
  | 6 => (tsOK, brFlush d ix 8192 s)
  | _ => (tsUNSUPPORTED, s)

/-- The slots that a bridge command reads: READ its own, INSERT and FLUSH any, DELETE and SEARCH the two buckets of the key. -/
def brReads (op ix k0 k1 n : Nat) : Bool :=
  let (b1, b2) := brBuckets (bitsOf k1 16 12) (k0 + k1 % 65536 * 2 ^ 32)
  match op with
  | 1 => n == ix % 32768
  | 3 | 6 => decide (n < 32768)
  | 4 | 5 => n / 4 == b1 || n / 4 == b2
  | _ => false

/-- A bridge command reads entries with parity errors: each is treated as absent and removed, and BR_PARITY counts it; the
command goes on without them, and READ of such a slot returns POISON (R263). `slots` are the slots whose parity fails.
DEDUCED, log 106. -/
def bridgeCmdBad (d op ix k0 k1 d0 : Nat) (slots : List Nat) (s : State) : Nat × State :=
  let bad := slots.eraseDups.filter (fun n => brReads op ix k0 k1 n && s.flag (.fwd .xBR_VALID) d n)
  let s := forEach bad (fun n s => (brPut d n brNone s).bump (.fwd .CNT) d 13) s
  if op = 1 ∧ bad ≠ [] then (tsPOISON, loadBrData d 0 (loadBrKey d 0 0 s)) else bridgeCmd d op ix k0 k1 d0 s

/-- A route or flow command whose master copy is poisoned (R260). -/
def cmdPoisoned (d : Nat) (t : TableId) (s : State) : Nat × State :=
  match t with
  | .route => (tsPOISON, stageRoute d 0 0 s)
  | _ => (tsPOISON, stageFlow d 0 s)

/-- A command ends: STATUS, BUSY and CMD_DONE change on one edge (R258, R360). -/
def cmdEnd (d : Nat) (t : TableId) (st : Nat) (s : State) : State :=
  let s := evPulse (848 + 8 * d + tblIx t) st s
  (s.put (cmdSTATUS t) st d).put (cmdBUSY t) 0 d

/-- A command completes (R258). `poisoned` tells that the master copy that it reads is poisoned, `slots` which bridge slots
fail their parity (R260, R263). -/
def cmdComplete (d : Nat) (t : TableId) (poisoned : Bool) (slots : List Nat) (s : State) : State :=
  if s.flag (cmdBUSY t) d then
    let i := tblIx t
    let op := s.get (.fwd .xCMD_OP) d i
    let fam := s.get (.fwd .xCMD_FAM) d i
    let ix := s.get (.fwd .xCMD_IX) d i
    let k0 := s.get (.fwd .xCMD_K0) d i
    let k1 := s.get (.fwd .xCMD_K1) d i
    let d0 := s.get (.fwd .xCMD_D0) d i
    let d1 := s.get (.fwd .xCMD_D1) d i
    let (st, s) :=
      if poisoned && op != 7 && t != .bridge then cmdPoisoned d t s
      else match t with
        | .route => routeCmd d op fam ix k0 k1 d0 s
        | .flow => flowCmd d op ix d0 d1 s
        | .bridge => bridgeCmdBad d op ix k0 k1 d0 slots s
    cmdEnd d t st s
  else s

/-- TABLE_CMD_COMPLETE (R258). -/
def execTableCmdComplete (d : Die) (t : TableId) (r : TableReads) (now : Now) (s : State) :
    Host.Outcome State Fault Refusal := s.runAt now (cmdComplete d t r.poisoned r.slots)

/-- A command outlasts its timeout (R261): its entry is unchanged; a flush keeps the removals already made, up to a
bucket that the spec leaves to time, and INDEX[12:0] returns that bucket. -/
def cmdTimeout (d : Nat) (t : TableId) (s : State) : State :=
  if s.flag (cmdBUSY t) d && s.expired (.fwd .xCMD_DUE) d (tblIx t) then
    let s := s.when (t == .bridge && s.get (.fwd .xCMD_OP) d 2 == 6) (fun s =>
      let (v, s) := s.free
      let b := v % 8192
      (brFlush d (s.get (.fwd .xCMD_IX) d 2) b s).put (.fwd .BR_CMD_INDEX) (s.get (.fwd .BR_CMD_INDEX) d / 8192 * 8192 + b) d)
    cmdEnd d t tsTIMEOUT (s.bump (.fwd .CNT) d 15)
  else s

/-- TABLE_CMD_TIMEOUT (R261). -/
def execTableCmdTimeout (d : Die) (t : TableId) (now : Now) (s : State) : Host.Outcome State Fault Refusal :=
  s.runAt now (cmdTimeout d t)

/-- A dynamic entry that has just been heard. -/
def brLearned (l : Learn) : BrEntry := ⟨true, l.vid, l.mac, l.iface, false, true, false, false⟩

/-- A learned entry enters with the sweep parity of its die, so a running sweep does not examine it (R255). -/
def learnOne (d : Nat) (s : State) : State :=
  match s.learns.find? (fun l => l.die == d) with
  | none => s
  | some l =>
    let s : State := { s with learns := s.learns.eraseP (fun x => x.die == d) }
    match s.brFind d l.vid l.mac with
    | some n => s.put (.fwd .xBR_HIT) 1 d n
    | none => match brInsert d { brLearned l with sweep := s.flag (.fwd .STATUS_PARITY) d } s with
      | some t => t.bump (.fwd .CNT) d 6
      | none => s.bump (.fwd .CNT) d 9

/-- LEARN_INSERT (R251). -/
def execLearnInsert (d : Die) (now : Now) (s : State) : Host.Outcome State Fault Refusal :=
  s.runAt now (fun s => s.when (!s.safe && s.dieUp d) (learnOne d))

/-- The aging period of a die (R67). -/
def State.agePeriodNs (s : State) (d : Nat) : Nat := clampTo 1 1000 (s.get (.fwd .AGE_PERIOD_PERIOD) d) * secNs

/-- The aging period passes, and a sweep falls due (R255). -/
def ageExpiry (d : Nat) (s : State) : State :=
  if s.expired (.fwd .xAGE_NEXT) d then
    ((s.put (.fwd .xAGE_NEXT) (s.dueIn (s.agePeriodNs d)) d).put (.fwd .xAGE_DUE) 1 d).put (.fwd .xAGE_TAI)
      (if s.tbState = tbFREE then 0 else s.tai) d
  else s

/-- AGE_PERIOD_EXPIRY (R256). -/
def execAgePeriodExpiry (d : Die) (now : Now) (s : State) : Host.Outcome State Fault Refusal :=
  s.runAt now (ageExpiry d)

/-- One slot of a sweep (R255, R257). -/
def sweepSlot (d : Nat) (parity : Bool) (n : Nat) (s : State) : State :=
  let e := s.br d n
  if e.valid && !e.static && e.sweep != parity then
    if e.hit then brPut d n { e with sweep := parity, hit := false, age := false } s
    else if !e.age then brPut d n { e with sweep := parity, age := true } s
    else ((brPut d n brNone s).bump (.fwd .CNT) d 10).bumpSat (.fwd .xAGED) d
  else s

/-- A sweep that fell due may start (R256): a picture boundary of the busiest domain has come since then and since FREE
ended, or with that domain not enabled the next whole second. -/
def State.sweepMayStart (s : State) (d : Nat) : Bool :=
  let t := s.get (.fwd .xAGE_TAI) d
  s.tbState != tbFREE && (if s.domOn s.busiest then s.boundarySince t
    else decide (max t (s.get (.trs .xLEFT_TAI)) / secNs < s.tai / secNs))

/-- A sweep that is due starts, at a picture boundary of the busiest domain and not in FREE: it inverts the parity and
visits every slot. A shed sweep visits nothing and is counted (R255, R256, R394). -/
def agingSweep (d : Nat) (s : State) : State :=
  if s.flag (.fwd .xAGE_DUE) d && s.sweepMayStart d && !s.flag (.fwd .STATUS_SWEEP_ACTIVE) d then
    let s := s.put (.fwd .xAGE_DUE) 0 d
    if 3 ≤ s.get (.ost .STATUS_SHED_LEVEL) d then (s.bump (.fwd .CNT) d 14).bump (.ost .CNT) d 8
    else
      let parity := !s.flag (.fwd .STATUS_PARITY) d
      let s := s.put (.fwd .xAGED) 0 d
      let s := forEach (s.brSlots d) (fun n s => sweepSlot d parity n s) s
      (s.putB (.fwd .STATUS_PARITY) parity d).put (.fwd .STATUS_SWEEP_ACTIVE) 1 d
  else s

/-- AGING_SWEEP (R255). -/
def execAgingSweep (d : Die) (now : Now) (s : State) : Host.Outcome State Fault Refusal :=
  s.runAt now (fun s => s.when (!s.safe && s.dieUp d) (agingSweep d))

/-- A sweep ends, and SWEEP_DONE asserts (R360). -/
def sweepEnd (d : Nat) (s : State) : State :=
  if s.flag (.fwd .STATUS_SWEEP_ACTIVE) d then
    (evPulse (853 + 8 * d) (min 16383 (s.get (.fwd .xAGED) d)) s).put (.fwd .STATUS_SWEEP_ACTIVE) 0 d
  else s

/-- AGING_SWEEP_END (R255). -/
def execAgingSweepEnd (d : Die) (now : Now) (s : State) : Host.Outcome State Fault Refusal :=
  s.runAt now (fun s => s.when (!s.safe && s.dieUp d) (sweepEnd d))

/-- A line whose CRC failed is refetched or marked bad (R262); for the bridge, an entry whose parity failed is removed
(R263). -/
def lineRefetch (d : Nat) (t : TableId) (line : Nat) (good : Bool) (s : State) : State :=
  match t with
  | .bridge => (brPut d (line % 32768) brNone s).bump (.fwd .CNT) d 13
  | _ =>
    let s := s.bump (.fwd .CNT) d 11
    if good then s
    else
      let s := evPulse (855 + 8 * d) (if t = .flow then 0 else 1)
        (raise 0x46 d line (if t = .flow then 0 else 1) (s.bump (.fwd .CNT) d 12))
      if t = .flow then s.put (.fwd .xFL_BAD) 1 d (line % 256) else s.put (.fwd .xRT_BAD) 1 d line

/-- TABLE_LINE_REFETCH (R262). -/
def execTableLineRefetch (d : Die) (t : TableId) (line : Nat) (good : Bool) (s : State) :
    Host.Outcome State Fault Refusal := s.run (fun s => s.when (!s.safe && s.dieUp d) (lineRefetch d t line good))

/-- A bad trie line is rebuilt from the prefix list, or RT_LOST sets where the list itself is poisoned (R262). -/
def trieRebuild (d line : Nat) (listOk : Bool) (s : State) : State :=
  if listOk then s.put (.fwd .xRT_BAD) 0 d line else s.put (.fwd .STATUS_RT_LOST) 1 d

/-- TRIE_LINE_REBUILD (R262). -/
def execTrieLineRebuild (d : Die) (line : Nat) (listOk : Bool) (s : State) : Host.Outcome State Fault Refusal :=
  s.run (fun s => s.when (!s.safe && s.dieUp d) (trieRebuild d line listOk))

/-- The counts of `FWD_OCC_RT` and `FWD_OCC_BR` (R265). -/
def State.occRoutes (s : State) (d fam : Nat) : Nat := (s.routesOf d fam).length
def State.occBridge (s : State) (d : Nat) : Nat := (s.brSlots d).length
def State.occStatic (s : State) (d : Nat) : Nat :=
  ((s.brSlots d).filter (fun n => s.flag (.fwd .xBR_STATIC) d n)).length

end Sys2Proof.Machine
end

