-- ==== Sys2Proof/Machine/Boot.lean ====
section
/-!
DEFINITION. What the flash holds and how it is read and written: the boot area with its directory and repair map (R420,
R421, R444), bundle manifests and components (R435 to R437), configuration images and their records (R422 to R427), and
the measurement log (R428, R429).
-/

namespace Sys2Proof.Machine

/-- Bytes of the flash. -/
def State.flashAt (s : State) (a n : Nat) : List Byte := s.flash.read a n

/-- Bytes written to the flash. -/
def flashPut (a : Nat) (b : List Byte) (s : State) : State := { s with flash := s.flash.write a b }

/-- Flash that is erased (R420). -/
def flashErase (a n : Nat) (s : State) : State :=
  { s with flash := s.flash.keep (fun x => !(decide (a ≤ x) && decide (x < a + n))) }

/-- The offset of a boot-area copy (R420). -/
def bootBase (c : Nat) : Nat := c * 0x10000

/-- The directory of a boot area (R421): SEQ, PREF_SLOT and the two slot states. -/
structure Dir where
  seq  : Nat
  pref : Nat
  sa   : Nat
  sb   : Nat
  deriving DecidableEq, Repr

/-- A slot state as R444 takes it. -/
def slotTaken (v : Nat) : Nat := if v < 5 then v else 0

/-- The state of slot 0 (A) or 1 (B). -/
def Dir.slot (d : Dir) (x : Nat) : Nat := slotTaken (if x = 0 then d.sa else d.sb)

/-- A directory with one slot state changed. -/
def Dir.setSlot (d : Dir) (x v : Nat) : Dir := if x = 0 then { d with sa := v } else { d with sb := v }

/-- The slot states of R444. -/
def slEMPTY : Nat := 0
def slSTAGED : Nat := 1
def slTRIAL : Nat := 2
def slGOOD : Nat := 3
def slBAD : Nat := 4

/-- A boot-area copy is valid (R421).
DESIGN CHOICE, log 21. -/
def State.bootValid (s : State) (c : Nat) : Bool :=
  let d := s.flashAt (bootBase c) 4096
  let m := s.flashAt (bootBase c + 4096) 32768
  let n := beAt m 4 2
  beAt d 0 4 == 0x45544452 && beAt d 4 2 == 1 && beAt d 4092 4 == crc32c (d.take 4092) && beAt m 0 4 == 0x4554524D &&
  decide (n ≤ 4094) && beAt m 8 4 == crc32c (m.take 8 ++ slice m 16 (8 * n))

/-- SEQ of a boot-area copy. -/
def State.bootSeq (s : State) (c : Nat) : Nat := beAt (s.flashAt (bootBase c) 12) 8 4

/-- The copy that step 2 uses: the valid one with the later SEQ, copy 0 where they are equal (R421). -/
def State.bootChoice (s : State) : Option Nat :=
  match s.bootValid 0, s.bootValid 1 with
  | true, true => some (if seqBefore 32 (s.bootSeq 0) (s.bootSeq 1) then 1 else 0)
  | true, false => some 0
  | false, true => some 1
  | false, false => none

/-- The directory in use. Where no copy is valid there is none, and every slot is EMPTY. -/
def State.dir (s : State) : Dir :=
  let c := s.get (.mid .BOOT_BOOT_COPY)
  if s.bootValid c then
    let d := s.flashAt (bootBase c) 16
    ⟨beAt d 8 4, byteAt d 12, byteAt d 13, byteAt d 14⟩
  else ⟨0, 0, 0, 0⟩

/-- The entries of the repair map in use, in the order written (R330).
DESIGN CHOICE, log 21. -/
def State.repairMap (s : State) : List RepairEntry :=
  let c := s.get (.mid .BOOT_BOOT_COPY)
  if s.bootValid c then
    let m := s.flashAt (bootBase c + 4096) 32768
    (List.range (beAt m 4 2)).map (fun i =>
      let e := slice m (16 + 8 * i) 8
      ⟨byteAt e 0, byteAt e 1, beAt e 2 2, beAt e 4 2, byteAt e 6⟩)
  else []

/-- The eight bytes of a repair-map entry (R330). -/
def repairBytes (e : RepairEntry) : List Byte :=
  beBytes 1 e.kind ++ beBytes 1 e.die ++ beBytes 2 e.target ++ beBytes 2 e.index ++ beBytes 1 e.spare ++ [0]

/-- The version of a slot's manifest, 0 when the slot is EMPTY (R455). -/
def slotBase (x : Nat) : Nat := if x = 0 then 0x2000000 else 0x5000000

/-- `FWU_SLOT` and `FWU_SLOT_VER` follow the directory. -/
def slotsShow (s : State) : State :=
  forEach [0, 1] (fun x s =>
    let st := s.dir.slot x
    (s.put (.fwu .SLOT_STATE) st x).put (.fwu .SLOT_VER_VERSION)
      (if st = slEMPTY then 0 else beAt (s.flashAt (slotBase x) 28) 24 4) x) s

/-- A boot area written whole into the copy not in use, with SEQ one above the copy in use (R421). The bytes of the map's
head that R421 does not name are free values.
DESIGN CHOICE, log 20. -/
def bootWrite (d : Dir) (map : List RepairEntry) (s : State) : State :=
  let c := s.get (.mid .BOOT_BOOT_COPY)
  let new := if s.bootValid c then 1 - c else c
  let (f1, s) := s.free
  let (f2, s) := s.free
  let head := beBytes 4 0x45544452 ++ beBytes 2 1 ++ [0, 0] ++ beBytes 4 ((s.dir.seq + 1) % 2 ^ 32) ++ beBytes 1 d.pref ++
    beBytes 1 (d.slot 0) ++ beBytes 1 (d.slot 1) ++ List.replicate 4077 0
  let entries := map.flatMap repairBytes
  let mhead := beBytes 4 0x4554524D ++ beBytes 2 map.length ++ beBytes 2 f1
  let whole := head ++ beBytes 4 (crc32c head) ++ mhead ++ beBytes 4 (crc32c (mhead ++ entries)) ++ beBytes 4 f2 ++ entries
  let s := flashPut (bootBase new) whole (flashErase (bootBase new) 0x10000 s)
  slotsShow (s.put (.mid .BOOT_BOOT_COPY) new)

/-- A slot state changes (R444). -/
def setSlot (x st : Nat) (s : State) : State := bootWrite (s.dir.setSlot x st) s.repairMap s

/-- A slot is confirmed: it becomes GOOD and the preferred slot (R449). -/
def confirmSlot (x : Nat) (s : State) : State := bootWrite { s.dir.setSlot x slGOOD with pref := x } s.repairMap s

/-- The Ostler appends a repair entry (R329, R330, R421): a full map takes none and raises a Notice.
DESIGN CHOICE, log 21. -/
def appendRepair (e : RepairEntry) (s : State) : State :=
  if s.repairMap.length < 4094 then
    bootWrite s.dir (s.repairMap ++ [e]) (s.when (e.kind == 3) (fun s => s.put (.cus .UNIT_PERSISTED) 1 e.target))
  else raise 0x04 2 e.target 2 s

/-- The Ostler has this entry to append (R199, R309, R329): a retired unit or a failed device whose die asks for its record and
whose record is not in the map yet. Of a row or a column of a macro the command itself says that its error has recurred.
DEDUCED, log 112. -/
def State.repairDue (s : State) (e : RepairEntry) : Bool :=
  match e.kind with
  | 1 | 2 => true
  | 3 => s.flag (.cus .CFG_PERSIST) (e.target / 80) && s.get (.cus .UNIT_STATE) e.target == 3 &&
      !s.flag (.cus .UNIT_PERSISTED) e.target && !s.grpLost (e.target / 20)
  | 4 =>
    let g := e.target / 6
    s.flag (.dmc .CFG_ERASE_PERSIST) (g / 4) && (s.grpLost g || s.grpMode g == 1) && s.erasedDev g == e.target % 6 &&
      !s.flag (.dmc .xRETR_MODE) g && !s.repairMap.any (fun x => x.kind == 4 && x.target == e.target)
  | _ => false

/-- REPAIR_MAP_APPEND (R421). -/
def execRepairMapAppend (e : RepairEntry) (s : State) : Host.Outcome State Fault Refusal :=
  s.run (fun s => s.when (!s.safe && s.repairDue e) (appendRepair e))

/-- A component entry of a manifest (R436). -/
structure Comp where
  id  : Nat
  ofs : Nat
  len : Nat
  dig : Nat
  deriving DecidableEq, Repr

/-- Component entry `i` of a manifest. -/
def compOf (m : List Byte) (i : Nat) : Comp :=
  let e := slice m (64 + 64 * i) 64
  ⟨beAt e 0 2, beAt e 4 4, beAt e 8 4, beAt e 16 48⟩

/-- The eight component entries of a manifest, in its order. -/
def compsOf (m : List Byte) : List Comp := (List.range 8).map (compOf m)

/-- TOTAL_LEN of a manifest. -/
def manTotal (m : List Byte) : Nat := beAt m 12 4

/-- Two components share no byte. -/
def Comp.apart (a b : Comp) : Bool := decide (a.ofs + a.len ≤ b.ofs ∨ b.ofs + b.len ≤ a.ofs)

/-- The component entries keep R436. -/
def compsOk (m : List Byte) : Bool :=
  let l := compsOf m
  [1, 2, 3, 4, 5, 6, 7, 8].all (fun i => (l.filter (fun c => c.id == i)).length == 1) &&
  l.all (fun c => decide (c.ofs + c.len ≤ manTotal m)) &&
  (List.range 8).all (fun i => (List.range 8).all (fun j => i == j || (compOf m i).apart (compOf m j)))

/-- Every reserved field of a manifest is 0 (R435, R436). -/
def manReserved (m : List Byte) : Bool :=
  byteAt m 8 / 2 == 0 && byteAt m 11 == 0 &&
  (List.range 8).all (fun i => beAt m (64 + 64 * i + 2) 2 == 0 && beAt m (64 + 64 * i + 12) 4 == 0)

/-- The signature of a manifest holds (R437). -/
def manSigned (m : List Byte) : Bool :=
  let k := byteAt m 9
  decide (k < 4) && !Config.keyRevoked k &&
  Config.verify k (Config.sha384 (m.take 576)) (BitVec.ofNat 768 (beAt m 576 96))

/-- A manifest is valid (R437). -/
def manValid (m : List Byte) : Bool :=
  beAt m 0 4 == 0x4554424D && beAt m 4 2 == 1 && beAt m 6 2 == 0x0E48 && byteAt m 10 == 8 && byteAt m 28 == 1 &&
  manReserved m && compsOk m && (byteAt m 8 % 2 == 0 || beAt m 16 8 == Config.fuseSerial.toNat) && manSigned m

/-- The manifest of a slot: its 672 bytes. -/
def State.manifest (s : State) (x : Nat) : List Byte := s.flashAt (slotBase x) 672

/-- The bytes of a component of a slot. -/
def State.compBytes (s : State) (x : Nat) (c : Comp) : List Byte := s.flashAt (slotBase x + c.ofs) c.len

/-- A component matches its DIGEST. -/
def State.compGood (s : State) (x : Nat) (c : Comp) : Bool := (Config.sha384 (s.compBytes x c)).toNat == c.dig

/-- A slot holds a good image (R437). -/
def State.slotGood (s : State) (x : Nat) : Bool :=
  manValid (s.manifest x) && (compsOf (s.manifest x)).all (s.compGood x)

/-- The component of a slot with an ID. -/
def State.component (s : State) (x id : Nat) : List Byte :=
  match (compsOf (s.manifest x)).find? (fun c => c.id == id) with
  | some c => s.compBytes x c
  | none => []

/-- A measurement (R428, R429): AGG is extended, and the entry is appended while the log has room. -/
def measure (kind slot comp len : Nat) (dig : BitVec 384) (ms : Nat) (s : State) : State :=
  let e := beBytes 1 kind ++ beBytes 1 slot ++ beBytes 2 comp ++ beBytes 4 len ++ beBytes 48 dig.toNat
  let agg := (List.range 12).flatMap (fun i => beBytes 4 (s.get (.mid .MLOG_AGG_AGG) i))
  let new := beBytes 48 (Config.sha384 (agg ++ e)).toNat
  let s := forEach (List.range 12) (fun i s => s.put (.mid .MLOG_AGG_AGG) (beAt new (4 * i) 4) i) s
  let n := s.get (.mid .MLOG_STATUS_COUNT)
  if n < 256 then
    let w := e ++ beBytes 4 ms ++ beBytes 4 0
    let s := forEach (List.range 16) (fun i s => s.put (.mid .MLOG_ENTRY_ENTRY) (beAt w (4 * i) 4) n i) s
    s.put (.mid .MLOG_STATUS_COUNT) (n + 1)
  else s.put (.mid .MLOG_STATUS_LOG_FULL) 1

/-- The manifest and the components of a slot are measured, in manifest order, the first as `kind` (R428, R452).
PRESUMED, log 19. -/
def measureBundle (kind ckind x ms : Nat) (s : State) : State :=
  let m := s.manifest x
  let s := measure kind x 0 672 (Config.sha384 m) ms s
  forEach (compsOf m) (fun c s => measure ckind x c.id c.len (Config.sha384 (s.compBytes x c)) ms s) s

/-- The offset of a records copy (R420). -/
def recBase (c : Nat) : Nat := if c = 0 then 0x100000 else 0x900000

/-- A record (R423). -/
structure Record where
  typ   : Nat
  flags : Nat
  body  : List Byte
  deriving DecidableEq, Repr

/-- The records from an offset of an image of `len` bytes, up to an END record that ends exactly there; `fuel` bounds their
number. None where the image does not end so, or its ICRC fails (R423, R425). -/
def recordsFrom (img : List Byte) (len : Nat) : Nat → Nat → Option (List Record)
  | 0, _ => none
  | fuel + 1, at' =>
    if len < at' + 8 then none
    else
      let typ := beAt img at' 2
      let n := beAt img (at' + 4) 4
      if typ = 0xFFFF then
        if n = 4 ∧ at' + 12 = len ∧ beAt img (at' + 8) 4 = crc32c (img.take (at' + 8)) then some [] else none
      else
        (recordsFrom img len fuel (at' + 8 + (n + 3) / 4 * 4)).map (fun l => ⟨typ, beAt img (at' + 2) 2, slice img (at' + 8) n⟩ :: l)

/-- The records of an image. -/
def recordsOf (img : List Byte) : Option (List Record) := recordsFrom img (beAt img 8 4) (img.length / 8 + 1) 64

/-- What a header alone shows of an image but its schema (R422, R425). -/
def headerOk (h : List Byte) : Bool :=
  beAt h 0 4 == 0x45544352 && beAt h 60 4 == crc32c (h.take 60) && decide (beAt h 8 4 ≤ 0x800000) &&
  (beAt h 16 8 == 0 || beAt h 16 8 == Config.fuseSerial.toNat)

/-- SCHEMA_MAJOR lies in the active bundle's range (R414, R425). -/
def State.schemaOk (s : State) (slot : Nat) (h : List Byte) : Bool :=
  let m := s.manifest slot
  decide (byteAt m 31 ≤ byteAt h 4) && decide (byteAt h 4 ≤ byteAt m 32)

/-- The header of a records copy, and the whole image that it heads. -/
def State.recHeader (s : State) (c : Nat) : List Byte := s.flashAt (recBase c) 64
def State.recImage (s : State) (c : Nat) : List Byte := s.flashAt (recBase c) (min 0x800000 (beAt (s.recHeader c) 8 4))

/-- The active bundle slot. -/
def State.activeSlot (s : State) : Nat := s.get (.mid .STATUS_BUNDLE_SLOT)

/-- A records copy is valid (R425). -/
def State.recValid (s : State) (c : Nat) : Bool :=
  headerOk (s.recHeader c) && s.schemaOk s.activeSlot (s.recHeader c) && (recordsOf (s.recImage c)).isSome

/-- A copy fails on its schema major alone (R425).
DESIGN CHOICE, log 22. -/
def State.recMajorBad (s : State) (c : Nat) : Bool :=
  headerOk (s.recHeader c) && !s.schemaOk s.activeSlot (s.recHeader c) && (recordsOf (s.recImage c)).isSome

/-- The copy with the later SEQ, copy 0 where they are equal. -/
def State.recLater (s : State) : Nat :=
  match headerOk (s.recHeader 0), headerOk (s.recHeader 1) with
  | false, true => 1
  | true, true => if seqBefore 32 (beAt (s.recHeader 0) 12 4) (beAt (s.recHeader 1) 12 4) then 1 else 0
  | _, _ => 0

/-- The copy that step 6 loads (R425).
DESIGN CHOICE, log 22. -/
def State.recChoice (s : State) : Option Nat :=
  let c := s.recLater
  if s.recValid c then some c else if s.recValid (1 - c) then some (1 - c) else none

/-- One configuration pair loads (R424). A cell reserve is checked as it loads (R299). -/
def bootPair (addr v : Nat) (s : State) : State :=
  match findReg addr with
  | some l => if l.rd.reg = .PDK_OWN_CELL then ownCellWrite l.i l.j v s else loadPair addr v s
  | none => loadPair addr v s

/-- The pairs of a REGS or RUN record, in order (R423). -/
def Record.pairs (r : Record) : List (Nat × Nat) :=
  if r.typ = 1 then (List.range (r.body.length / 8)).map (fun i => (beAt r.body (8 * i) 4, beAt r.body (8 * i + 4) 4))
  else if r.typ = 2 then
    (List.range (min (beAt r.body 8 4) (r.body.length / 4))).map (fun i =>
      (beAt r.body 0 4 + i * beAt r.body 4 4, beAt r.body (12 + 4 * i) 4))
  else []

/-- A number of entries is skipped and counted (R424). -/
def skipped (n : Nat) (s : State) : State := s.bumpSat (.mid .CFG_IMG_SKIPPED) 0 0 0 n

/-- The channels of a START record (R427). -/
def startRecord (r : Record) (s : State) : State :=
  forEach (List.range (byteAt r.body 1)) (fun i s =>
    let ch := byteAt r.body (2 + i)
    if ch < 48 then s.put (.mid .xSTART) (1 + byteAt r.body 0 % 2) ch else skipped 1 s) s

/-- A record of step 6 applies (R423, R424). -/
def applyRecord (r : Record) (s : State) : State :=
  match r.typ with
  | 1 | 2 => forEach r.pairs (fun p s => bootPair p.1 p.2 s) s
  | 8 => (s.put (.hpt .xSUBSYS) (beAt r.body 0 2) 0).put (.hpt .xSUBSYS) (beAt r.body 2 2) 1
  | 9 => startRecord r s
  | 3 | 4 | 5 | 6 | 7 => s
  | _ => skipped 1 s

/-- An entry that its table refuses is skipped and counted (R424). -/
def tableEntry (r : Nat × State) (s : State) : State := if r.1 = tsOK then r.2 else skipped 1 s

/-- Entry `i` of a table record, of `n` bytes. -/
def Record.entry (r : Record) (n i : Nat) : List Byte := slice r.body (n * i) n

/-- A NODES record: nodes past the end of node memory are not loaded (R423).
DESIGN CHOICE, log 8. -/
def nodesRecord (d : Nat) (r : Record) (s : State) : State :=
  forEach (List.range (beAt r.body 2 2)) (fun i s =>
    let ix := beAt r.body 0 2 + i
    if ix < 65536 then s.put (.prs .xNODE) (beAt r.body (4 + 8 * i) 8) d ix else skipped 1 s) s

/-- A TEMPLATE record, loaded into both banks (R423, R424). -/
def templateRecord (d : Nat) (r : Record) (s : State) : State :=
  let h := beAt r.body 0 2 % 4096
  let plane := byteAt r.body 2 % 2
  let bytes := fit 128 (slice r.body 4 (min 128 (byteAt r.body 3)))
  forEach (List.range 32) (fun w s =>
    let ix := h * 64 + plane * 32 + w
    let v := beAt bytes (4 * w) 4
    (s.put (.shp .xTPL) v d ix 0).put (.shp .xTPL) v d ix 1) s

/-- A table record loads into a die (R423, R424).
DESIGN CHOICE, log 24. -/
def loadRecord (d : Nat) (r : Record) (s : State) : State :=
  if !bitOf r.flags d then s
  else
    match r.typ with
    | 3 => forEach (List.range (r.body.length / 12)) (fun i s =>
        let e := r.entry 12 i
        tableEntry (flowCmd d 2 (beAt e 0 2) (beAt e 8 4) (beAt e 4 4) s) s) s
    | 4 => forEach (List.range (r.body.length / 20)) (fun i s =>
        let e := r.entry 20 i
        let fam := byteAt e 0
        let a := if fam = 0 then beAt e 4 4 else beAt e 4 8
        if fam < 2 then tableEntry (routeInsert d fam (byteAt e 1) a (beAt e 2 2 % 4096) s) s else skipped 1 s) s
    | 5 => forEach (List.range (r.body.length / 12)) (fun i s =>
        let e := r.entry 12 i
        let mac := beAt e 2 6
        tableEntry (bridgeCmd d 3 0 (mac % 2 ^ 32) (mac / 2 ^ 32 + beAt e 0 2 % 4096 * 2 ^ 16)
          (byteAt e 8 % 16 + 16 + 2 ^ 31) s) s) s
    | 6 => nodesRecord d r s
    | 7 => templateRecord d r s
    | _ => s

/-- The records of the image in force. -/
def State.records (s : State) : List Record := (recordsOf s.image).getD []

/-- A buffer of an owner of a die is filled with bytes from its start: the copies that a die keeps (R287, R426, R382).
DESIGN CHOICE, log 24. -/
def keepBytes (d o : Nat) (bytes : List Byte) (s : State) : State :=
  match allocOne d o (classFor bytes.length) s with
  | (some b, s) => dramStore b.grp (s.bufAddr b) bytes s
  | (none, s) => s

/-- The buffer of an owner and class that a die holds.
DESIGN CHOICE, log 24. -/
def State.ownBuf (s : State) (d o c : Nat) : Option Buf :=
  s.bufs.find? (fun b => b.grp / 4 == d && b.owner == o && b.cls == c)

/-- The copy of the image that a die keeps is whole (R426).
DESIGN CHOICE, log 24. -/
def State.imageHeld (s : State) (d : Nat) : Bool :=
  match s.ownBuf d 63 (classFor s.image.length) with
  | some b => !s.grpLost b.grp && (s.firstPoison b.grp (s.bufAddr b) s.image.length).isNone
  | none => false

end Sys2Proof.Machine
end

