-- ==== Sys2Proof/Machine/Rtp.lean ====
section
/-!
DEFINITION. RTP and the ELC payload header as received (R83, R84, R87).
-/

namespace Sys2Proof.Machine

/-- The RTP timestamp of a picture: its alignment point on the 90 kHz media clock (R83).
DEDUCED, log 77. -/
def State.rtpTime (s : State) (dom n : Nat) : Nat :=
  if s.domNum dom = 0 then 0 else n * s.domDenOf dom * 90000 / s.domNum dom % 2 ^ 32

/-- An RTP packet as received: its payload type, marker, sequence number, timestamp, SSRC, payload, and the offset of the
payload in its frame. -/
structure Rtp where
  pt   : Nat
  mark : Bool
  seq  : Nat
  ts   : Nat
  ssrc : Nat
  body : List Byte
  ofs  : Nat
  deriving DecidableEq, Repr

/-- The RTP packet at an offset of a frame: CSRC entries and a header extension are skipped (R83), and the UDP length
before it ends it. -/
def readRtp (data : List Byte) (r : Nat) : Rtp :=
  let b0 := byteAt data r
  let o := r + 12 + 4 * (b0 % 16)
  let o := if bitOf b0 4 then o + 4 + 4 * beAt data (o + 2) 2 else o
  let stop := min data.length (r - 8 + beAt data (r - 4) 2)
  let stop := if bitOf b0 5 then stop - byteAt data (stop - 1) else stop
  ⟨byteAt data (r + 1) % 128, bitOf (byteAt data (r + 1)) 7, beAt data (r + 2) 2, beAt data (r + 4) 4, beAt data (r + 8) 4,
   slice data o (stop - o), o⟩

/-- What a packet carries of a stripe unit or picture header (R84). -/
structure Frag where
  hdr    : Bool
  start  : Bool
  stop   : Bool
  trunc  : Bool
  last   : Bool
  row    : Nat
  stripe : Nat
  ofs    : Nat
  picId  : Nat
  body   : List Byte
  deriving DecidableEq, Repr

/-- The payload of an ELC packet as received; none where R95 discards it. -/
def readFrag (b : List Byte) : Option Frag :=
  let u := byteAt b
  if b.length < 8 ∨ u 0 / 64 ≠ 1 ∨ 2 ≤ bitsOf (u 0) 4 2 then none
  else some ⟨bitsOf (u 0) 4 2 == 1, bitOf (u 0) 3, bitOf (u 0) 2, bitOf (u 0) 1, bitOf (u 0) 0, u 1, u 2 / 32,
    beAt b 2 3 % 2 ^ 21, u 7, b.drop 8⟩

/-- A timestamp lies before another in time, under the half-range rule. -/
def tsBefore (a b : Nat) : Bool := seqBefore 32 a b

end Sys2Proof.Machine
end

