-- ==== Sys2Proof/Machine/Hevc.lean ====
section
/-!
DEFINITION. HEVC as a bit stream (R130, R132, R136 to R138): NAL units and the packets that carry them, the parameter sets
and the slice segment headers. The rules name the elements and take their layout from ITU-T H.265 clauses 7.3 and 9.2.
PRESUMED, log 101.
-/

namespace Sys2Proof.Machine

-- NAL units

/-- nal_unit_type, and nuh_layer_id. -/
def nalType (b : List Byte) : Nat := byteAt b 0 / 2 % 64
def nalLayer (b : List Byte) : Nat := byteAt b 0 % 2 * 32 + byteAt b 1 / 8

/-- The payload of a NAL unit without its emulation prevention bytes; `z` counts the zero bytes just before. -/
def unescape : Nat → List Byte → List Byte
  | _, [] => []
  | z, b :: t =>
    if 2 ≤ z ∧ b.toNat = 3 then unescape 0 t else b :: unescape (if b.toNat = 0 then z + 1 else 0) t

/-- A payload with its emulation prevention bytes. -/
def escape : Nat → List Byte → List Byte
  | _, [] => []
  | z, b :: t =>
    let next := fun z => if b.toNat = 0 then z + 1 else 0
    if 2 ≤ z ∧ b.toNat ≤ 3 then 3 :: b :: escape (next 0) t else b :: escape (next z) t

/-- The bits of a NAL unit after its header. -/
def nalBits (b : List Byte) : List Bool := bytesBits (unescape 0 (b.drop 2))

/-- A NAL unit of layer 0 from the bits of its payload, which end with the stop bit. -/
def nalOf (t : Nat) (l : List Bool) : List Byte :=
  beBytes 1 (2 * t) ++ [1] ++ escape 0 (packBits (l.length + 1) (l ++ [true]))

-- Reading and writing elements

/-- Elements read from the front of a bit string; none where it ends or an element is not one that the syntax admits. -/
abbrev Rd (α : Type) : Type := StateT (List Bool) Option α

/-- u(n). -/
def rdU (n : Nat) : Rd Nat := fun l => if l.length < n then none else some (bitsNat (l.take n), l.drop n)

/-- A flag. -/
def rdF : Rd Bool := do
  let v ← rdU 1
  return v == 1

/-- The zero bits before the first one bit, at most `n`. -/
def zerosRun : Nat → List Bool → Option (Nat × List Bool)
  | _, [] => none
  | _, true :: t => some (0, t)
  | 0, false :: _ => none
  | n + 1, false :: t => (zerosRun n t).map (fun r => (r.1 + 1, r.2))

/-- ue(v). -/
def rdUe : Rd Nat := fun l =>
  match zerosRun 32 l with
  | none => none
  | some (k, t) => (rdU k t).map (fun r => (2 ^ k - 1 + r.1, r.2))

/-- se(v). -/
def rdSe : Rd Int := do
  let v ← rdUe
  return if v % 2 = 1 then ((v + 1) / 2 : Nat) else -((v / 2 : Nat) : Int)

/-- `n` elements of one kind. -/
def rdMany {α : Type} (f : Rd α) : Nat → Rd (List α)
  | 0 => return []
  | n + 1 => do
    let x ← f
    let t ← rdMany f n
    return x :: t

/-- An element that is there only under a condition. -/
def rdIf {α : Type} (c : Bool) (d : α) (f : Rd α) : Rd α := if c then f else return d

/-- ue(v) and se(v) as written. -/
def ueBits (v : Nat) : List Bool := List.replicate (Nat.log2 (v + 1)) false ++ natBits (Nat.log2 (v + 1) + 1) (v + 1)
def seBits (v : Int) : List Bool := ueBits (if 0 < v then 2 * v.toNat - 1 else 2 * (-v).toNat)

/-- The bits that number one of `n` things, and their count: Ceil(Log2(n)). -/
def ceilLog2 (n : Nat) : Nat := if n ≤ 1 then 0 else Nat.log2 (n - 1) + 1

-- Reference picture sets

/-- A short-term reference picture set: the POC differences with whether the current picture may refer to each, those before
it and those after it. -/
structure Rps where
  neg : List (Int × Bool)
  pos : List (Int × Bool)
  deriving DecidableEq, Repr

/-- POC differences read one after the other, in steps away from the current picture. -/
def rdDeltas (sign : Int) : Nat → Int → Rd (List (Int × Bool))
  | 0, _ => return []
  | n + 1, at' => do
    let d ← rdUe
    let u ← rdF
    let p := at' + sign * ((d : Int) + 1)
    let t ← rdDeltas sign n p
    return (p, u) :: t

/-- A set predicted from another: `use` holds, for each picture of it and for the picture it belongs to, whether it is kept
and whether it is used. -/
def predictRps (r : Rps) (d : Int) (use : List (Bool × Bool)) : Rps :=
  let at' := fun i => use.getD i (false, false)
  let one := fun (p : Int) (i : Nat) => if (at' i).1 then [(p, (at' i).2)] else []
  let nn := r.neg.length
  let neg := r.neg.zipIdx.flatMap (fun x => one (x.1.1 + d) x.2)
  let pos := r.pos.zipIdx.flatMap (fun x => one (x.1.1 + d) (nn + x.2))
  let own := one d (nn + r.pos.length)
  ⟨((pos.reverse ++ own ++ neg).filter (fun x => decide (x.1 < 0))), ((neg.reverse ++ own ++ pos).filter (fun x => decide (0 < x.1)))⟩

/-- st_ref_pic_set(idx) after the sets `before`; `inSlice` tells that it stands in a slice segment header. -/
def rdRps (before : List Rps) (inSlice : Bool) : Rd Rps := do
  let idx := before.length
  let inter ← rdIf (idx != 0) false rdF
  if inter then
    let back ← rdIf inSlice 0 rdUe
    let sign ← rdF
    let mag ← rdUe
    if idx ≤ back then failure
    let r := before.getD (idx - 1 - back) ⟨[], []⟩
    let d : Int := (if sign then -1 else 1) * ((mag : Int) + 1)
    let use ← rdMany (do
      let u ← rdF
      let k ← rdIf (!u) true rdF
      return (k, u)) (r.neg.length + r.pos.length + 1)
    return predictRps r d use
  else
    let nn ← rdUe
    let np ← rdUe
    if 16 < nn + np then failure
    let neg ← rdDeltas (-1) nn 0
    let pos ← rdDeltas 1 np 0
    return ⟨neg, pos⟩

/-- The sets of an SPS. -/
def rdRpsList : Nat → List Rps → Rd (List Rps)
  | 0, l => return l
  | n + 1, l => do
    let r ← rdRps l false
    rdRpsList n (l ++ [r])

-- Parameter sets

/-- What an SPS says of a stream, as far as R130 and the slice headers need it: profile (none where it is none of those of
R130), level, chroma_format_idc, width and height in luma samples, coded and after the conformance window, whose corner comes next, bit depths,
log2_max_pic_order_cnt_lsb, pictures of reorder, log2 of the CTB size, field_seq_flag, the short-term sets, whether long-term
pictures are signalled, and the POC lsb and use of those that the SPS lists. -/
structure Sps where
  profile : Option Nat
  level  : Nat
  chroma : Nat
  cw     : Nat
  chh    : Nat
  w      : Nat
  h      : Nat
  ox     : Nat
  oy     : Nat
  dy     : Nat
  dc     : Nat
  poc    : Nat
  reorder : Nat
  ctb    : Nat
  field  : Bool
  rps    : List Rps
  lt     : Bool
  ltSps  : List (Nat × Bool)
  deriving DecidableEq, Repr

/-- general_profile_idc and its flags as a profile of R130: 0 Main, 1 Main 10, 2 Main 4:2:2 10. `flags` are the nine constraint
flags from general_max_12bit_constraint_flag on. -/
def profileOf (idc flags : Nat) : Option Nat :=
  if idc = 1 then some 0 else if idc = 2 then some 1 else if idc = 4 ∧ flags = 0x1A1 then some 2 else none

/-- profile_tier_level: the profile and the level. -/
def rdPtl (subs : Nat) : Rd (Option Nat × Nat) := do
  let _ ← rdU 3
  let idc ← rdU 5
  let _ ← rdU 36
  let flags ← rdU 9
  let _ ← rdU 35
  let level ← rdU 8
  let has ← rdMany (do
    let p ← rdF
    let l ← rdF
    return (p, l)) subs
  let _ ← rdU (if subs = 0 then 0 else 2 * (8 - subs))
  let _ ← rdU ((has.map (fun x => 88 * x.1.toNat + 8 * x.2.toNat)).sum)
  return (profileOf idc flags, level)

/-- scaling_list_data, passed over. -/
def rdScaling : Rd Unit := do
  let one := fun (size : Nat) => (do
    let mode ← rdF
    if mode then
      let _ ← rdIf (1 < size) 0 rdSe
      let _ ← rdMany rdSe (min 64 (2 ^ (4 + 2 * size)))
      return ()
    else
      let _ ← rdUe
      return () : Rd Unit)
  let _ ← rdMany (one 0) 6
  let _ ← rdMany (one 1) 6
  let _ ← rdMany (one 2) 6
  let _ ← rdMany (one 3) 2
  return ()

/-- vui_parameters as far as field_seq_flag. -/
def rdVui : Rd Bool := do
  let ar ← rdF
  let idc ← rdIf ar 0 (rdU 8)
  let _ ← rdU (if ar && idc == 255 then 32 else 0)
  let os ← rdF
  let _ ← rdU (if os then 1 else 0)
  let vs ← rdF
  let cd ← rdIf vs false (do
    let _ ← rdU 4
    rdF)
  let _ ← rdU (if cd then 24 else 0)
  let cl ← rdF
  let _ ← rdIf cl 0 rdUe
  let _ ← rdIf cl 0 rdUe
  let _ ← rdU 1
  rdF

/-- seq_parameter_set_rbsp: its number and what it says. -/
def rdSps : Rd (Nat × Sps) := do
  let _ ← rdU 4
  let subs ← rdU 3
  let _ ← rdU 1
  let (profile, level) ← rdPtl subs
  let id ← rdUe
  let chroma ← rdUe
  let _ ← rdU (if chroma = 3 then 1 else 0)
  let cw ← rdUe
  let chh ← rdUe
  let conf ← rdF
  let l ← rdIf conf 0 rdUe
  let r ← rdIf conf 0 rdUe
  let t ← rdIf conf 0 rdUe
  let b ← rdIf conf 0 rdUe
  let dy ← rdUe
  let dc ← rdUe
  let poc ← rdUe
  let all ← rdF
  let subL ← rdMany (do
    let _ ← rdUe
    let n ← rdUe
    let _ ← rdUe
    return n) (if all then subs + 1 else 1)
  let minCb ← rdUe
  let diff ← rdUe
  let _ ← rdMany rdUe 4
  let sc ← rdF
  let scd ← rdIf sc false rdF
  rdIf scd () rdScaling
  let _ ← rdU 2
  let pcm ← rdF
  let _ ← rdU (if pcm then 8 else 0)
  let _ ← rdMany rdUe (if pcm then 2 else 0)
  let _ ← rdU (if pcm then 1 else 0)
  let n ← rdUe
  if 64 < n ∨ 15 < id ∨ 12 < poc ∨ 8 < dy ∨ 8 < dc ∨ 3 < minCb + diff then failure
  let rps ← rdRpsList n []
  let lt ← rdF
  let nlt ← rdIf lt 0 rdUe
  if 32 < nlt then failure
  let ltSps ← rdMany (do
    let p ← rdU (poc + 4)
    let u ← rdF
    return (p, u)) nlt
  let _ ← rdU 2
  let vui ← rdF
  let field ← rdIf vui false rdVui
  let sx := if chroma = 1 ∨ chroma = 2 then 2 else 1
  let sy := if chroma = 1 then 2 else 1
  return (id, ⟨profile, level, chroma, cw, chh, cw - sx * (l + r), chh - sy * (t + b), sx * l, sy * t, dy + 8, dc + 8, poc + 4, subL.getLastD 0,
    minCb + diff + 3, field, rps, lt, ltSps⟩)

/-- What a PPS says of a stream: its SPS, whether dependent slice segments and pic_output_flag occur, the extra bits of slice
headers, and whether the stream carries tiles, with their column widths and row heights where these are not uniform, and WPP
substreams. -/
structure Pps where
  sps   : Nat
  dep   : Bool
  out   : Bool
  extra : Nat
  tiles : Bool
  wpp   : Bool
  cols  : Nat
  rows  : Nat
  uni   : Bool
  colW  : List Nat
  rowH  : List Nat
  deriving DecidableEq, Repr

/-- pic_parameter_set_rbsp as far as the tiles: its number and what it says. -/
def rdPps : Rd (Nat × Pps) := do
  let id ← rdUe
  let sps ← rdUe
  let dep ← rdF
  let out ← rdF
  let extra ← rdU 3
  let _ ← rdU 2
  let _ ← rdUe
  let _ ← rdUe
  let _ ← rdSe
  let _ ← rdU 2
  let cuQp ← rdF
  let _ ← rdIf cuQp 0 rdUe
  let _ ← rdSe
  let _ ← rdSe
  let _ ← rdU 4
  let tiles ← rdF
  let wpp ← rdF
  let c ← rdIf tiles 0 rdUe
  let r ← rdIf tiles 0 rdUe
  let uni ← rdIf tiles true rdF
  if 63 < id ∨ 15 < sps ∨ 64 < c ∨ 64 < r then failure
  let cs ← rdMany rdUe (if uni then 0 else c)
  let rs ← rdMany rdUe (if uni then 0 else r)
  return (id, ⟨sps, dep, out, extra, tiles, wpp, c + 1, r + 1, uni, cs.map (· + 1), rs.map (· + 1)⟩)

-- Coding tree blocks

/-- The columns and rows of coding tree blocks of a picture. -/
def Sps.ctbW (q : Sps) : Nat := ceilDiv q.cw (2 ^ q.ctb)
def Sps.ctbH (q : Sps) : Nat := ceilDiv q.chh (2 ^ q.ctb)

/-- The sizes of `n` tiles over `total` blocks: even, or as given with the rest for the last. -/
def tileSizes (uni : Bool) (n total : Nat) (given : List Nat) : List Nat :=
  if uni then (List.range n).map (fun i => (i + 1) * total / n - i * total / n) else given ++ [total - given.sum]

/-- Ranges that follow one another, from their sizes. -/
def runs : Nat → List Nat → List (List Nat)
  | _, [] => []
  | a, n :: t => (List.range n).map (· + a) :: runs (a + n) t

/-- The coding tree blocks of a picture in decoding order, each by its number in raster order. -/
def tileScan (q : Sps) (p : Pps) : List Nat :=
  let cols := runs 0 (tileSizes p.uni p.cols q.ctbW p.colW)
  let rows := runs 0 (tileSizes p.uni p.rows q.ctbH p.rowH)
  rows.flatMap (fun ys => cols.flatMap (fun xs => ys.flatMap (fun y => xs.map (fun x => y * q.ctbW + x))))

-- Slice segment headers

/-- What a slice segment header says: its NAL unit type, PPS, whether it is the first of its picture, whether it depends on the
one before, its address, and for an independent one its slice_type (0 B, 1 P, 2 I), slice_pic_order_cnt_lsb, short-term set, and the long-term pictures: POC lsb, or the whole difference
where its high part is signalled, and its use. -/
structure Slice where
  typ   : Nat
  pps   : Nat
  first : Bool
  dep   : Bool
  addr  : Nat
  kind  : Nat
  poc   : Nat
  rps   : Rps
  lts   : List (Nat × Option Nat × Bool)
  deriving DecidableEq, Repr

/-- An IRAP picture's NAL unit type, and an IDR picture's. -/
def isIrap (t : Nat) : Bool := decide (16 ≤ t ∧ t ≤ 23)
def isIdr (t : Nat) : Bool := t == 19 || t == 20

/-- The long-term pictures of a slice header: those of the SPS first. `last` is the difference of the one before. -/
def rdLts (q : Sps) (nSps : Nat) : Nat → Nat → Nat → Rd (List (Nat × Option Nat × Bool))
  | 0, _, _ => return []
  | n + 1, i, last => do
    let own := decide (i < nSps)
    let ix ← rdIf own 0 (rdU (ceilLog2 q.ltSps.length))
    let lsb ← rdIf (!own) 0 (rdU q.poc)
    let used ← rdIf (!own) false rdF
    let (lsb, used) := if own then q.ltSps.getD ix (0, false) else (lsb, used)
    let full ← rdF
    let d ← rdIf full 0 rdUe
    let d := if i = 0 ∨ i = nSps then d else d + last
    let t ← rdLts q nSps n (i + 1) d
    return (lsb, if full then some d else none, used) :: t

/-- slice_segment_header as far as its reference picture sets. `psets` gives a PPS with its SPS. -/
def rdSlice (t : Nat) (psets : Nat → Option (Pps × Sps)) : Rd Slice := do
  let first ← rdF
  let _ ← rdU (if isIrap t then 1 else 0)
  let id ← rdUe
  match psets id with
  | none => failure
  | some (p, q) =>
    let dep ← rdIf (!first && p.dep) false rdF
    let addr ← rdIf (!first) 0 (rdU (ceilLog2 (q.ctbW * q.ctbH)))
    if dep then return ⟨t, id, first, true, addr, 0, 0, ⟨[], []⟩, []⟩
    else
      let _ ← rdU p.extra
      let kind ← rdUe
      let _ ← rdU (if p.out then 1 else 0)
      if 2 < kind then failure
      if isIdr t then return ⟨t, id, first, false, addr, kind, 0, ⟨[], []⟩, []⟩
      else
        let poc ← rdU q.poc
        let sel ← rdF
        let ix ← rdIf sel 0 (rdU (ceilLog2 q.rps.length))
        let own ← rdIf (!sel) ⟨[], []⟩ (rdRps q.rps true)
        let rps := if sel then q.rps.getD ix ⟨[], []⟩ else own
        let nSps ← rdIf (q.lt && !q.ltSps.isEmpty) 0 rdUe
        let nPic ← rdIf q.lt 0 rdUe
        if 33 < nSps + nPic then failure
        let lts ← rdLts q nSps (nSps + nPic) 0 0
        return ⟨t, id, first, false, addr, kind, poc, rps, lts⟩

-- What the encoder writes (R130, R132, R136)

/-- The settings of an encode channel that its parameter sets carry: profile, tier, level, width, height, and num and den of its
domain; and its colour description, which no setting gives. -/
structure EncSets where
  profile : Nat
  tier  : Nat
  level : Nat
  w     : Nat
  h     : Nat
  num   : Nat
  den   : Nat
  colour : Nat
  deriving DecidableEq, Repr

/-- The bit depth of a profile, and its chroma_format_idc. -/
def profileDepth (p : Nat) : Nat := if p = 0 then 8 else 10
def profileChroma (p : Nat) : Nat := if p = 2 then 2 else 1

/-- profile_tier_level as sent: progressive, frames only, with the compatibility and constraint flags of the profile. -/
def ptlBits (e : EncSets) : List Bool :=
  let idc := if e.profile = 2 then 4 else e.profile + 1
  natBits 2 0 ++ natBits 1 e.tier ++ natBits 5 idc ++
  (List.range 32).map (fun i => i == idc || (idc == 1 && i == 2)) ++
  [true, false, true, true] ++ natBits 9 (if e.profile = 2 then 0x1A1 else 0) ++ natBits 35 0 ++ natBits 8 e.level

/-- The numbers of decoded pictures, of reorder and of latency of the one sub-layer. -/
def orderBits : List Bool := [true] ++ ueBits 4 ++ ueBits 0 ++ ueBits 0

/-- video_parameter_set_rbsp as sent. -/
def vpsNal (e : EncSets) : List Byte :=
  nalOf 32 (natBits 4 0 ++ [true, true] ++ natBits 6 0 ++ natBits 3 0 ++ [true] ++ natBits 16 0xFFFF ++ ptlBits e ++ orderBits ++
    natBits 6 0 ++ ueBits 0 ++ [false, false])

/-- vui_parameters as sent: the colour description, chroma_sample_loc_type 0, and the timing of the raster domain. -/
def vuiBits (e : EncSets) : List Bool :=
  [false, false, true] ++ natBits 3 5 ++ [false, true] ++ natBits 24 e.colour ++ [true] ++ ueBits 0 ++ ueBits 0 ++
  [false, false, false, false, true] ++ natBits 32 e.den ++ natBits 32 e.num ++ [false, false, false]

/-- seq_parameter_set_rbsp as sent: CTB 32, CB from 8, transforms 4 to 32 of depth 2, 16 bits of POC, SAO, temporal vector
prediction and strong intra smoothing, long-term pictures, no reordering. -/
def spsNal (e : EncSets) : List Byte :=
  let d := profileDepth e.profile - 8
  nalOf 33 (natBits 4 0 ++ natBits 3 0 ++ [true] ++ ptlBits e ++ ueBits 0 ++ ueBits (profileChroma e.profile) ++ ueBits e.w ++
    ueBits e.h ++ [false] ++ ueBits d ++ ueBits d ++ ueBits 12 ++ orderBits ++ ueBits 0 ++ ueBits 2 ++ ueBits 0 ++ ueBits 3 ++
    ueBits 2 ++ ueBits 2 ++ [false, false, true, false] ++ ueBits 0 ++ [true] ++ ueBits 0 ++ [true, true, true] ++ vuiBits e ++
    [false])

/-- pic_parameter_set_rbsp as sent: dependent slice segments, sign data hiding, QP differences of depth 1 (R161), and WPP. -/
def ppsNal : List Byte :=
  nalOf 34 (ueBits 0 ++ ueBits 0 ++ [true, false] ++ natBits 3 0 ++ [true, false] ++ ueBits 0 ++ ueBits 0 ++ seBits 0 ++
    [false, false, true] ++ ueBits 1 ++ seBits 0 ++ seBits 0 ++ [false, false, false, false, false, true, true, false, false,
    false] ++ ueBits 0 ++ [false, false])

/-- What a slice segment of a picture is sent with: whether the picture is an IDR picture, its POC lsb, the differences of its
short-term pictures (those before it nearest first, then those after), the POC lsb of its long-term pictures and whether it may read
them, the number of pictures that it refers to, and its QP. -/
structure SliceSets where
  idr  : Bool
  poc  : Nat
  st   : Rps
  lt   : List (Nat × Bool)
  refs : Nat
  qp   : Int
  deriving DecidableEq, Repr

/-- The POC differences of one side as written. -/
def deltaBits (sign : Int) : Int → List (Int × Bool) → List Bool
  | _, [] => []
  | at', (d, u) :: t => ueBits (sign * (d - at') - 1).toNat ++ [u] ++ deltaBits sign d t

/-- slice_segment_header as sent (R130, R132): the first CTU row begins the independent segment, each later one a dependent
segment. An IDR picture is of I slices, another of P slices where it refers to pictures. -/
def sliceBits (a : SliceSets) (ctbW ctbs row : Nat) : List Bool :=
  let dep := row != 0
  [!dep] ++ (if a.idr then [false] else []) ++ ueBits 0 ++ (if dep then [true] ++ natBits (ceilLog2 ctbs) (row * ctbW) else []) ++
  (if dep then []
   else
    let p := !a.idr && a.refs != 0
    ueBits (if p then 1 else 2) ++
    (if a.idr then [] else natBits 16 a.poc ++ [false] ++ ueBits a.st.neg.length ++ ueBits a.st.pos.length ++
      deltaBits (-1) 0 a.st.neg ++ deltaBits 1 0 a.st.pos ++ ueBits a.lt.length ++
      a.lt.flatMap (fun l => natBits 16 l.1 ++ [l.2, false]) ++ [true]) ++
    [true, true] ++
    (if p then [true] ++ ueBits (a.refs - 1) ++ (if 1 < a.refs then ueBits 0 else []) ++ ueBits 0 else []) ++
    seBits (a.qp - 26) ++ [true]) ++
  ueBits 0

/-- A slice segment NAL unit: its header, byte aligned, and its data. -/
def sliceNal (a : SliceSets) (ctbW ctbs row : Nat) (data : List Byte) : List Byte :=
  let h := sliceBits a ctbW ctbs row
  beBytes 1 (2 * (if a.idr then 19 else 1)) ++ [1] ++ escape 0 (packBits (h.length + 1) (h ++ [true]) ++ data)

-- Packets (R137, R138)

/-- A NAL unit as received: its bytes, its decoding order number, and whether data is missing just before it. -/
structure Nal where
  bytes : List Byte
  don   : Nat
  gap   : Bool
  deriving DecidableEq, Repr

/-- Packets put together so far: the NAL units, the one of fragmentation units that is open (bytes, DON and the sequence number
that must follow), whether the end of one that is lost is still awaited, those lost, whether data is missing since the last NAL
unit, and the last sequence number. -/
structure NalAcc where
  out  : List Nal
  cur  : Option (List Byte × Nat × Nat)
  bad  : Bool
  lost : Nat
  gap  : Bool
  last : Option Nat
  deriving DecidableEq, Repr

/-- NAL units complete. -/
def NalAcc.add (a : NalAcc) (l : List (List Byte × Nat)) : NalAcc :=
  { a with out := a.out ++ l.zipIdx.map (fun x => ⟨x.1.1, x.1.2, a.gap && x.2 == 0⟩), gap := a.gap && l.isEmpty }

/-- The open NAL unit ends lost. -/
def NalAcc.close (a : NalAcc) : NalAcc :=
  if a.cur.isSome then { a with cur := none, lost := a.lost + 1, gap := true, bad := false } else { a with bad := false }

/-- The NAL units of an aggregation packet; the first carries a decoding order number, each later one a difference. -/
def apUnits (donl : Bool) : Nat → Option Nat → List Byte → List (List Byte × Nat)
  | 0, _, _ => []
  | n + 1, don, l =>
    let (d, l) := if !donl then (0, l) else match don with
      | none => (beAt l 0 2, l.drop 2)
      | some p => ((p + byteAt l 0 + 1) % 65536, l.drop 1)
    if l.length < 4 then [] else (slice l 2 (beAt l 0 2), d) :: apUnits donl n (some d) (l.drop (2 + beAt l 0 2))

/-- One more packet, in the order of sequence numbers (R138): sequence number and payload. -/
def NalAcc.packet (donl : Bool) (a : NalAcc) (p : Nat × List Byte) : NalAcc :=
  let (seq, b) := p
  let t := nalType b
  let o := if donl then 2 else 0
  let skip := a.last.any (fun l => (l + 1) % 65536 != seq)
  let a := { a with last := some seq, gap := a.gap || skip }
  let next := (seq + 1) % 65536
  if t = 49 then
    let fu := byteAt b 2
    if bitOf fu 7 then
      let h := [BitVec.ofNat 8 (byteAt b 0 / 128 * 128 + fu % 64 * 2 + byteAt b 0 % 2)] ++ slice b 1 1
      { a.close with cur := some (h ++ b.drop (3 + o), if donl then beAt b 3 2 else 0, next) }
    else match a.cur with
      | some (l, d, q) =>
        if q ≠ seq then { a.close with bad := !bitOf fu 6 }
        else if bitOf fu 6 then { a with cur := none }.add [(l ++ b.drop 3, d)]
        else { a with cur := some (l ++ b.drop 3, d, next) }
      | none => { a with lost := a.lost + (if a.bad then 0 else 1), bad := !bitOf fu 6, gap := true }
  else
    let a := a.close
    if t = 48 then a.add (apUnits donl b.length none (b.drop 2))
    else a.add [(slice b 0 2 ++ b.drop (2 + o), if donl then beAt b 2 2 else 0)]

/-- The NAL units that packets make, in decoding order, and those that are lost (R138). -/
def nalsOf (donl : Bool) (l : List (Nat × List Byte)) : NalAcc :=
  l.foldl (NalAcc.packet donl) ⟨[], none, false, 0, false, none⟩

end Sys2Proof.Machine
end

