-- ==== Sys2Proof/Machine/Nals.lean ====
section
/-!
DEFINITION. What a channel holds of its stream (R87, R130, R138, R186): the packets that it has received, and of an HEVC
stream the parameter sets with what they are refused for.
-/

namespace Sys2Proof.Machine

/-- A packet that a channel has received: its place in the queue and what RTP makes of it. -/
def State.received (s : State) (ch : Nat) : List (Inp × Rtp) :=
  (s.inputs.filter (fun i => i.ch == ch)).filterMap (fun i => (s.chain? i.chain).map (fun c => (i, readRtp c.data i.rtp)))

/-- Packets in the order of their sequence numbers: one is put in before the first that follows it. -/
def bySeq (l : List Rtp) : List Rtp :=
  l.foldl (fun acc x => acc.takeWhile (fun y => !seqBefore 16 x.seq y.seq) ++ x :: acc.dropWhile (fun y => !seqBefore 16 x.seq y.seq)) []

/-- Decoding order numbers stand in the packets of a channel (R136). -/
def State.hasDon (s : State) (ch : Nat) : Bool := s.chGet (.cch .DON_MAX_DON_DIFF) ch != 0

-- Parameter sets (R130, R133, R208)

/-- A parameter set as it is held: the number of its bytes after a byte 1; and its bytes. -/
def setNum (b : List Byte) : Nat := beNat (1 :: b)
def setBytes (v : Nat) : List Byte := beBytes (Nat.log2 v / 8) v

/-- The sets that a channel has received. -/
def State.spsOf (s : State) (ch id : Nat) : Option Sps :=
  match s.get (.ref .xSPS) ch id with
  | 0 => none
  | v => (rdSps (nalBits (setBytes v))).map (·.1.2)
def State.ppsOf (s : State) (ch id : Nat) : Option Pps :=
  match s.get (.ref .xPPS) ch id with
  | 0 => none
  | v => (rdPps (nalBits (setBytes v))).map (·.1.2)

/-- A picture parameter set with its sequence parameter set. -/
def State.psets (s : State) (ch id : Nat) : Option (Pps × Sps) :=
  (s.ppsOf ch id).bind (fun p => (s.spsOf ch p.sps).map (fun q => (p, q)))

/-- What a channel's settings say of the pictures that it takes: width and height, and num and den of its domain. -/
structure Raster where
  w   : Nat
  h   : Nat
  num : Nat
  den : Nat
  deriving DecidableEq, Repr

/-- The raster of a channel as it runs. -/
def State.chRaster (s : State) (ch : Nat) : Raster :=
  let dom := s.chDom ch
  ⟨s.chGet (.cch .FMT_WIDTH) ch, s.domActive dom, s.domNum dom, s.domDenOf dom⟩

/-- The reason for which a channel refuses an SPS (R130, R208): a level above 156 is a matter of LEVEL, the rest of FORMAT. A
picture larger than the channel's raster is refused as well.
DEDUCED, log 105. -/
def State.spsWhy (s : State) (ch : Nat) (q : Sps) : Option Nat :=
  let r := s.chRaster ch
  let deep := if s.chGet (.cch .FMT_DEPTH) ch = 3 then 8 else 10
  if 156 < q.level then some 6
  else if q.profile.isNone ∨ q.field ∨ 3840 < q.w ∨ 2160 < q.h ∨ r.w < q.w ∨ r.h < q.h ∨ q.w = 0 ∨ q.h = 0 ∨
      497664000 * r.den < q.w * q.h * r.num ∨ (q.chroma ≠ 1 ∧ q.chroma ≠ 2) ∨
      (q.chroma = 2 ∧ s.chGet (.cch .FMT_CHROMA) ch = 2) ∨ deep < q.dy ∨ deep < q.dc ∨ q.ctb < 4 ∨ 6 < q.ctb then some 7
  else none

/-- The reason for which a channel refuses a PPS (R133): neither WPP substreams nor tiles, above 133.3 Mpixel/s.
DEDUCED, log 105. -/
def State.ppsWhy (s : State) (ch : Nat) (p : Pps) : Option Nat :=
  let r := s.chRaster ch
  if !p.wpp && !p.tiles && decide (133300000 * r.den < r.w * r.h * r.num) then some 7 else none

/-- A picture parameter set that is not refused, with its sequence parameter set. -/
def State.goodSets (s : State) (ch id : Nat) : Option (Pps × Sps) :=
  (s.psets ch id).filter (fun x => (s.ppsWhy ch x.1).isNone && (s.spsWhy ch x.2).isNone)

-- Slice segments

/-- The header of a slice segment NAL unit, under the sets that the channel holds. -/
def State.sliceOf (s : State) (ch : Nat) (b : List Byte) : Option Slice :=
  if nalType b < 32 ∧ nalLayer b = 0 then (rdSlice (nalType b) (s.psets ch) (nalBits b)).map (·.1) else none

/-- The row of 32 lines in which a slice segment begins. -/
def State.sliceRow (s : State) (ch : Nat) (x : Slice) : Option Nat :=
  (s.psets ch x.pps).map (fun p => x.addr / max 1 p.2.ctbW * 2 ^ p.2.ctb / 32)

/-- The first packet of the fragmentation unit that a packet goes on, from those received: `seq` is sought. -/
def fuHead (l : List Rtp) : Nat → Nat → Option Rtp
  | 0, _ => none
  | n + 1, seq =>
    match l.find? (fun p => p.seq == seq && nalType p.body == 49) with
    | none => none
    | some p => if bitOf (byteAt p.body 2) 7 then some p else fuHead l n ((seq + 65535) % 65536)

/-- The row in which the slice segment of an HEVC packet begins, where what has been received tells it. -/
def State.packetRow (s : State) (ch : Nat) (p : Rtp) : Option Nat :=
  let don := s.hasDon ch
  let l := ((s.received ch).map (·.2)).filter (fun q => q.ts == p.ts)
  let head := if nalType p.body = 49 ∧ !bitOf (byteAt p.body 2) 7 then fuHead l (l.length + 1) ((p.seq + 65535) % 65536) else some p
  head.bind (fun h =>
    let a := nalsOf don [(h.seq, h.body)]
    match a.cur, a.out with
    | some c, _ => (s.sliceOf ch c.1).bind (s.sliceRow ch)
    | none, [n] => (s.sliceOf ch n.bytes).bind (s.sliceRow ch)
    | _, _ => none)

end Sys2Proof.Machine
end

