-- ==== Sys2Proof/Machine/Elc.lean ====
section
/-!
DEFINITION. The ELC codec as arithmetic (chapters 3 to 5): picture geometry, the Golomb-Rice code with its contexts, block
syntax, intra and temporal prediction, dequantisation and the inverse transforms, and the block summary of a line's
sideband.
-/

namespace Sys2Proof.Machine

/-- The format of a coded picture (R69, R72, R130): active width and height, whether its chroma is 4:4:4, the bit depth of
luma, whether its chroma is the 4:2:0 of HEVC, and the bit depth of chroma. -/
structure Fmt where
  w   : Nat
  h   : Nat
  c44 : Bool
  d   : Nat
  c420 : Bool
  dc  : Nat
  deriving DecidableEq, Repr

/-- Block columns and slice rows (R69). -/
def Fmt.cols (f : Fmt) : Nat := ceilDiv f.w 16
def Fmt.rows (f : Fmt) : Nat := ceilDiv f.h 16

/-- The columns and lines that a block has in a plane (R69): 0 is luma. -/
def Fmt.bw (f : Fmt) (pl : Nat) : Nat := if pl = 0 ∨ f.c44 then 16 else 8
def Fmt.bh (f : Fmt) (pl : Nat) : Nat := if pl = 0 ∨ !f.c420 then 8 else 4

/-- The coded width and height of a plane (R97). -/
def Fmt.planeW (f : Fmt) (pl : Nat) : Nat := f.bw pl * f.cols
def Fmt.planeH (f : Fmt) (pl : Nat) : Nat := f.bh pl * (2 * f.rows)

/-- Transform blocks of a block (R77) and lines of a block (R163). -/
def Fmt.numTb (f : Fmt) : Nat := if f.c44 then 6 else 4
def Fmt.linesPer (f : Fmt) : Nat := if f.c44 then 3 else 2

/-- The bit depth of a plane, and its mid value. -/
def Fmt.dep (f : Fmt) (pl : Nat) : Nat := if pl = 0 then f.d else f.dc
def Fmt.mid (f : Fmt) (pl : Nat) : Nat := 2 ^ (f.dep pl - 1)

/-- The chroma format as `CCH_FMT` numbers it (R207). -/
def Fmt.chroma (f : Fmt) : Nat := if f.c44 then 1 else if f.c420 then 2 else 0

/-- clip3 of R98. -/
def clip3 (lo hi v : Int) : Int := if v < lo then lo else if hi < v then hi else v

/-- clip24 and clipd of R98. -/
def clip24 (v : Int) : Int := clip3 (-8388608) 8388607 v
def Fmt.clipd (f : Fmt) (pl : Nat) (v : Int) : Nat := (clip3 0 (2 ^ f.dep pl - 1) v).toNat

-- Bits of the entropy data (R116)

/-- An entropy lane: the bits still to read, or those written, and the contexts (A, N) of R119 in the order of R122. -/
structure Ent where
  bits : List Bool
  ctx  : List (Nat × Nat)
  deriving DecidableEq, Repr

/-- The contexts of R122, in the order of its table. -/
def cBT (c : Nat) : Nat := c
def cIM : Nat := 3
def cRI : Nat := 4
def cMVX : Nat := 5
def cMVY : Nat := 6
def cCBF (chroma : Bool) : Nat := if chroma then 8 else 7
def cQPD : Nat := 9
def cSPL : Nat := 10
def cCB4 : Nat := 11
def cLast (n4 chroma : Bool) : Nat := (if n4 then 14 else 12) + chroma.toNat
def cLV (chroma : Bool) (band : Nat) : Nat := (if chroma then 21 else 16) + band

/-- The initial state of every context (R121, R122). -/
def ctxInit : List (Nat × Nat) :=
  ([1, 1, 1, 2, 1, 4, 2, 1, 1, 1, 1, 1, 16, 16, 4, 4, 16, 8, 4, 2, 1, 16, 8, 4, 2, 1] : List Nat).map (fun a => (a, 1))

/-- The largest coded value of a context and its escape width (R122). -/
def ctxMax (c : Nat) : Nat :=
  ([3, 3, 3, 7, 3, 1024, 192, 1, 1, 126, 1, 1, 63, 63, 15, 15] : List Nat).getD c 131071
def ctxEsc (c : Nat) : Nat := ([2, 2, 2, 3, 2, 11, 8, 1, 1, 7, 1, 1, 6, 6, 4, 4] : List Nat).getD c 17

/-- The parameter of the next value of a context (R119). -/
def grParam (a n : Nat) : Nat := ((List.range 16).find? (fun k => decide (a ≤ n * 2 ^ k))).getD 16

/-- The update of a context after a value (R120). -/
def grUpdate (c v : Nat) (l : List (Nat × Nat)) : List (Nat × Nat) :=
  let (a, n) := l.getD c (0, 1)
  l.set c (if n + 1 = 64 then ((a + v) / 2, 32) else (a + v, n + 1))

/-- One bits of a code, counted up to 24 (R117): the count, and what follows the zero bit that ends them or the 24th. -/
def grOnes : Nat → List Bool → Option (Nat × List Bool)
  | 0, l => some (0, l)
  | _ + 1, [] => none
  | _ + 1, false :: t => some (0, t)
  | n + 1, true :: t => (grOnes n t).map (fun r => (r.1 + 1, r.2))

/-- `n` raw bits; none where the data ends (R126). -/
def takeBits (n : Nat) (e : Ent) : Option (Nat × Ent) :=
  if e.bits.length < n then none else some (bitsNat (e.bits.take n), { e with bits := e.bits.drop n })

/-- A value of a context (R117, R120); none where the data ends inside it or it lies outside its range (R126). -/
def getGr (c : Nat) (e : Ent) : Option (Nat × Ent) :=
  let (a, n) := e.ctx.getD c (0, 1)
  let k := grParam a n
  match grOnes 24 e.bits with
  | none => none
  | some (q, rest) =>
    match takeBits (if q = 24 then ctxEsc c else k) { e with bits := rest } with
    | none => none
    | some (r, e) =>
      let v := if q = 24 then r else q * 2 ^ k + r
      if ctxMax c < v then none else some (v, { e with ctx := grUpdate c v e.ctx })

/-- The code of a value in a context (R117), with the context's update. -/
def putGr (c v : Nat) (e : Ent) : Ent :=
  let (a, n) := e.ctx.getD c (0, 1)
  let k := grParam a n
  let q := v / 2 ^ k
  let code := if q < 24 then List.replicate q true ++ [false] ++ natBits k v
    else List.replicate 24 true ++ natBits (ctxEsc c) v
  ⟨e.bits ++ code, grUpdate c v e.ctx⟩

/-- The signed mapping of R118, both ways. -/
def mapSigned (v : Int) : Nat := if 0 ≤ v then 2 * v.toNat else 2 * (-v).toNat - 1
def unmapSigned (v : Nat) : Int := if v % 2 = 0 then (v / 2 : Nat) else -(((v + 1) / 2 : Nat) : Int)

-- Block syntax (R76, R77, R125)

/-- The residual of a transform block: unsplit, one list of 64 levels in scan order; split, four lists of 16 of which an
empty one has cbf4 0. No list at all: cbf is 0. -/
structure TbEl where
  split : Bool
  lv    : List (List Int)
  deriving DecidableEq, Repr

/-- The elements of a block (R76): block_type, intra_mode, one or two predictions (ref_idx, mvd_x, mvd_y), qp_delta and
the transform blocks. -/
structure BlkEl where
  typ  : Nat
  mode : Nat
  prd  : List (Nat × Int × Int)
  qpd  : Int
  tbs  : List TbEl
  deriving DecidableEq, Repr

/-- The scan of R124 for an N x N transform block: scan index to (u, v). -/
def scan (n : Nat) : List (Nat × Nat) :=
  (List.range (2 * n - 1)).flatMap (fun s =>
    ((List.range (s + 1)).map (fun j => if s % 2 = 1 then (s - j, j) else (j, s - j))).filter
      (fun p => decide (p.1 < n ∧ p.2 < n)))

/-- band(i) of R125. -/
def lvBand (i : Nat) : Nat := if i = 0 then 0 else if i ≤ 2 then 1 else if i ≤ 9 then 2 else if i ≤ 27 then 3 else 4

/-- The levels of a residual from scan index `i` down to 0 (R125); `acc` holds those above it. -/
def getLevels (chroma : Bool) (last : Nat) : Nat → List Int → Ent → Option (List Int × Ent)
  | 0, acc, e => some (acc, e)
  | i + 1, acc, e =>
    match getGr (cLV chroma (lvBand i)) e with
    | none => none
    | some (v, e) =>
      if i = last ∧ v = 131071 then none
      else
        let m := if i = last then v + 1 else v
        if m = 0 then getLevels chroma last i (0 :: acc) e
        else match takeBits 1 e with
          | none => none
          | some (sg, e) => getLevels chroma last i ((if sg = 1 then -(m : Int) else m) :: acc) e

/-- A residual of N x N (R125), padded to all its positions. -/
def getResidual (n4 chroma : Bool) (e : Ent) : Option (List Int × Ent) :=
  match getGr (cLast n4 chroma) e with
  | none => none
  | some (last, e) =>
    let n := if n4 then 16 else 64
    if n ≤ last then none
    else (getLevels chroma last (last + 1) [] e).map (fun r => (r.1 ++ List.replicate (n - 1 - last) 0, r.2))

/-- The code of levels from scan index `i` down (R125). -/
def putLevels (chroma : Bool) (last : Nat) (lv : List Int) : Nat → Ent → Ent
  | 0, e => e
  | i + 1, e =>
    let l := lv.getD i 0
    let m := l.natAbs
    let e := putGr (cLV chroma (lvBand i)) (if i = last then m - 1 else m) e
    putLevels chroma last lv i (if m = 0 then e else { e with bits := e.bits ++ [decide (l < 0)] })

/-- The scan index of the last level that is not zero. -/
def lastPos (lv : List Int) : Nat := ((List.range lv.length).filter (fun i => lv.getD i 0 != 0)).getLastD 0

/-- The code of a residual (R125). -/
def putResidual (n4 chroma : Bool) (lv : List Int) (e : Ent) : Ent :=
  let last := lastPos lv
  putLevels chroma last lv (last + 1) (putGr (cLast n4 chroma) last e)

/-- A list of elements read one after the other. -/
def getList {α : Type} (f : Nat → Ent → Option (α × Ent)) : List Nat → Ent → Option (List α × Ent)
  | [], e => some ([], e)
  | t :: l, e =>
    match f t e with
    | none => none
    | some (x, e) => (getList f l e).map (fun r => (x :: r.1, r.2))

/-- A transform block whose cbf is 1 (R76). -/
def getTb (chroma : Bool) (e : Ent) : Option (TbEl × Ent) :=
  match getGr cSPL e with
  | none => none
  | some (0, e) => (getResidual false chroma e).map (fun r => (⟨false, [r.1]⟩, r.2))
  | some (_, e) =>
    (getList (fun _ e => match getGr cCB4 e with
      | none => none
      | some (0, e) => some ([], e)
      | some (_, e) => getResidual true chroma e) [0, 1, 2, 3] e).map (fun r => (⟨true, r.1⟩, r.2))

/-- The code of a transform block whose cbf is 1. -/
def putTb (chroma : Bool) (t : TbEl) (e : Ent) : Ent :=
  if t.split then t.lv.foldl (fun e lv => if lv = [] then putGr cCB4 0 e else putResidual true chroma lv (putGr cCB4 1 e))
      (putGr cSPL 1 e)
  else putResidual false chroma (t.lv.headD []) (putGr cSPL 0 e)

/-- One prediction's elements (R76): ref_idx, mvd_x and mvd_y. -/
def getPrd (_ : Nat) (e : Ent) : Option ((Nat × Int × Int) × Ent) :=
  match getGr cRI e with
  | none => none
  | some (r, e) => match getGr cMVX e with
    | none => none
    | some (x, e) => (getGr cMVY e).map (fun y => ((r, unmapSigned x, unmapSigned y.1), y.2))

/-- The code of one prediction's elements. -/
def putPrd (e : Ent) (p : Nat × Int × Int) : Ent :=
  putGr cMVY (mapSigned p.2.2) (putGr cMVX (mapSigned p.2.1) (putGr cRI p.1 e))

/-- The elements of a block (R76). `c` selects the context of block_type (R123). In an I picture types 2 and 3 lose the
stripe unit (R95). -/
def getBlock (ntb c : Nat) (isP : Bool) (e : Ent) : Option (BlkEl × Ent) :=
  match getGr (cBT c) e with
  | none => none
  | some (typ, e) =>
    if !isP && decide (2 ≤ typ) then none
    else if typ = 0 then some (⟨0, 0, [], 0, []⟩, e)
    else
      match (if typ = 1 then getGr cIM e else some (0, e)) with
      | none => none
      | some (mode, e) => match getList getPrd (List.range (typ - 1)) e with
        | none => none
        | some (prd, e) => match getList (fun t e => getGr (cCBF (decide (2 ≤ t))) e) (List.range ntb) e with
          | none => none
          | some (cbf, e) =>
            match (if cbf.any (· != 0) then getGr cQPD e else some (0, e)) with
            | none => none
            | some (q, e) =>
              (getList (fun t e => if cbf.getD t 0 = 0 then some (⟨false, []⟩, e) else getTb (decide (2 ≤ t)) e)
                (List.range ntb) e).map (fun r => (⟨typ, mode, prd, unmapSigned q, r.1⟩, r.2))

/-- A transform block has cbf 1. -/
def TbEl.cbf (t : TbEl) : Bool := !t.lv.isEmpty

/-- The code of a block (R76). -/
def putBlock (c : Nat) (b : BlkEl) (e : Ent) : Ent :=
  let e := putGr (cBT c) b.typ e
  if b.typ = 0 then e
  else
    let e := if b.typ = 1 then putGr cIM b.mode e else e
    let e := b.prd.foldl putPrd e
    let ix := b.tbs.zipIdx
    let e := ix.foldl (fun e t => putGr (cCBF (decide (2 ≤ t.2))) t.1.cbf.toNat e) e
    let e := if b.tbs.any TbEl.cbf then putGr cQPD (mapSigned b.qpd) e else e
    ix.foldl (fun e t => if t.1.cbf then putTb (decide (2 ≤ t.2)) t.1 e else e) e

-- Residual (R109 to R112)

/-- A transform matrix of R110 and R111, row k, column i. -/
def t8 : List (List Int) :=
  [[45, 45, 45, 45, 45, 45, 45, 45], [65, 51, 34, 13, -13, -34, -51, -65], [59, 24, -24, -59, -59, -24, 24, 59],
   [51, -13, -65, -34, 34, 65, 13, -51], [45, -45, -45, 45, 45, -45, -45, 45], [34, -65, 13, 51, -51, -13, 65, -34],
   [24, -59, 59, -24, -24, 59, -59, 24], [13, -34, 51, -65, 65, -51, 34, -13]]
def t4 : List (List Int) := [[32, 32, 32, 32], [42, 17, -17, -42], [32, -32, -32, 32], [17, -42, 42, -17]]

/-- An entry of a matrix. -/
def mat (m : List (List Int)) (a b : Nat) : Int := (m.getD a []).getD b 0

/-- The sum of a function over 0 to n - 1. -/
def sumTo (n : Nat) (f : Nat → Int) : Int := (List.range n).foldl (fun a i => a + f i) 0

/-- Dequantisation of one level (R109). -/
def dequant (qe : Nat) (l : Int) : Int :=
  clip24 ((l * (([64, 72, 81, 91, 102, 114] : List Int).getD (qe % 6) 0) * 2 ^ (qe / 6) + 128) / 256)

/-- The inverse transform of R112 over coefficients c[u][v]: res[x][y]. -/
def invTransform (n : Nat) (c : List (List Int)) : List (List Int) :=
  let t := if n = 8 then t8 else t4
  let s := if n = 8 then 7 else 6
  let rnd := fun a : Int => clip24 ((a + 2 ^ (s - 1)) / 2 ^ s)
  let e := (List.range n).map (fun u => (List.range n).map (fun y => rnd (sumTo n (fun v => mat t v y * mat c u v))))
  (List.range n).map (fun x => (List.range n).map (fun y => rnd (sumTo n (fun u => mat t u x * mat e u y))))

/-- Levels in scan order dequantised into c[u][v] (R109, R124). -/
def coeffs (n qe : Nat) (lv : List Int) : List (List Int) :=
  let at' := fun u v => dequant qe (lv.getD ((scan n).findIdx (· == (u, v))) 0)
  (List.range n).map (fun u => (List.range n).map (fun v => at' u v))

/-- The residual of a transform block (R112): res[x][y] over 8 x 8. -/
def TbEl.residual (t : TbEl) (qe : Nat) : List (List Int) :=
  if t.lv.isEmpty then []
  else if t.split then
    let qs := t.lv.map (fun lv => if lv = [] then [] else invTransform 4 (coeffs 4 qe lv))
    (List.range 8).map (fun x => (List.range 8).map (fun y => mat (qs.getD (2 * (y / 4) + x / 4) []) (x % 4) (y % 4)))
  else invTransform 8 (coeffs 8 qe (t.lv.headD []))

/-- The effective quantiser of a transform block (R76, R109). -/
def effQ (f : Fmt) (chroma : Bool) (q : Nat) (off : Int) (reduce : Bool) : Nat :=
  (if chroma then (clip3 0 63 ((q : Int) + off + (if reduce then 6 else 0))).toNat else q) + 6 * (f.d - 10)

-- Intra prediction (R100 to R102)

/-- The reference samples of a transform block after R101: top[-1..15] with the corner first, and left[0..7]. `a`, `r`,
`c` and `l` tell which groups are available; `tp` and `lf` read samples. -/
def refSamples (mid : Nat) (a r c l : Bool) (tp : Int → Nat) (lf : Nat → Nat) : List Nat × List Nat :=
  if !a && !l then (List.replicate 17 mid, List.replicate 8 mid)
  else
    let left := (List.range 8).map lf
    if !a then (List.replicate 17 (left.headD 0), left)
    else
      let t7 := tp 7
      let top := (List.range 16).map (fun (i : Nat) => if i < 8 then tp i else if r then tp i else t7)
      let corner := if c then tp (-1) else if l then left.headD 0 else tp 0
      (corner :: top, if l then left else List.replicate 8 corner)

/-- The eight modes of R102: the predicted sample at (x, y). -/
def intraPred (mode : Nat) (top left : List Nat) (x y : Nat) : Nat :=
  let t := fun i : Int => top.getD (i + 1).toNat 0
  let l := fun j : Int => if j < 0 then top.getD 0 0 else left.getD j.toNat 0
  let X : Int := x
  let Y : Int := y
  match mode with
  | 0 => (((List.range 8).map (fun i => top.getD (i + 1) 0 + left.getD i 0)).sum + 8) / 16
  | 1 => l Y
  | 2 => t X
  | 3 => ((7 - x) * l Y + (x + 1) * t 8 + (7 - y) * t X + (y + 1) * l 7 + 8) / 16
  | 4 => if x = 7 ∧ y = 7 then (t 14 + 3 * t 15 + 2) / 4 else (t (X + Y) + 2 * t (X + Y + 1) + t (X + Y + 2) + 2) / 4
  | 5 =>
    if y < x then (t (X - Y - 2) + 2 * t (X - Y - 1) + t (X - Y) + 2) / 4
    else if x < y then (l (Y - X - 2) + 2 * l (Y - X - 1) + l (Y - X) + 2) / 4
    else (t 0 + 2 * t (-1) + l 0 + 2) / 4
  | 6 =>
    let z := 2 * X - Y
    let k := X - Y / 2
    if 0 ≤ z ∧ z % 2 = 0 then (t (k - 1) + t k + 1) / 2
    else if 0 ≤ z then (t (k - 2) + 2 * t (k - 1) + t k + 2) / 4
    else if z = -1 then (l 0 + 2 * t (-1) + t 0 + 2) / 4
    else (l (Y - 2 * X - 1) + 2 * l (Y - 2 * X - 2) + l (Y - 2 * X - 3) + 2) / 4
  | _ =>
    let z := 2 * Y - X
    let k := Y - X / 2
    if 0 ≤ z ∧ z % 2 = 0 then (l (k - 1) + l k + 1) / 2
    else if 0 ≤ z then (l (k - 2) + 2 * l (k - 1) + l k + 2) / 4
    else if z = -1 then (l 0 + 2 * t (-1) + t 0 + 2) / 4
    else (t (X - 2 * Y - 1) + 2 * t (X - 2 * Y - 2) + t (X - 2 * Y - 3) + 2) / 4

-- Temporal prediction (R104 to R107)

/-- The four-tap filter of R105. -/
def tap4 (a b c e : Int) : Int := -a + 9 * b + 9 * c - e

/-- The intermediate prediction of a luma or 4:4:4 sample at 16 times sample scale (R105). -/
def interLuma (r : Int → Int → Int) (px py mvx mvy : Int) : Int :=
  let ix := px + mvx / 2
  let iy := py + mvy / 2
  let fx := mvx % 2 ≠ 0
  let fy := mvy % 2 ≠ 0
  let hor := fun j : Int => tap4 (r (ix - 1) (iy + j)) (r ix (iy + j)) (r (ix + 1) (iy + j)) (r (ix + 2) (iy + j))
  if fx ∧ fy then
    let g := fun j : Int => (hor j + 2) / 4
    (tap4 (g (-1)) (g 0) (g 1) (g 2) + 2) / 4
  else if fx then hor 0
  else if fy then tap4 (r ix (iy - 1)) (r ix iy) (r ix (iy + 1)) (r ix (iy + 2))
  else 16 * r ix iy

/-- The intermediate prediction of a 4:2:2 chroma sample (R106); `sv` is the vertical positions to the chroma line, 2, or 4 in
the 4:2:0 of HEVC.
DEDUCED, log 105. -/
def interChroma (r : Int → Int → Int) (px py mvx mvy sv : Int) : Int :=
  let cx := px + mvx / 4
  let gx := mvx % 4
  let cy := py + mvy / sv
  let gy := mvy % sv
  4 / sv * ((4 - gx) * (sv - gy) * r cx cy + gx * (sv - gy) * r (cx + 1) cy + (4 - gx) * gy * r cx (cy + 1) +
    gx * gy * r (cx + 1) (cy + 1))

/-- The columns or lines, among `n` samples from `p0`, that a prediction reads along one axis, clamped to a plane of `lim` (R104):
a vector of `den` positions to the sample, and a filter that, off the whole sample, takes `lo` samples before and `hi` after. -/
def reach (p0 n : Nat) (mv den : Int) (lo hi lim : Nat) : List Nat :=
  let a : Int := p0 + mv / den
  let start := if mv % den = 0 then a else a - lo
  let k := if mv % den = 0 then n else n + lo + hi
  ((List.range k).map (fun i => (clip3 0 (lim - 1 : Nat) (start + i)).toNat)).eraseDups

/-- Things counted in samples, counted in blocks of `k`. -/
def inBlocks (k : Nat) (l : List Nat) : List Nat := (l.map (· / k)).eraseDups

/-- The lines that hold the blocks of some block columns and rows, of luma and of chroma: line within the block, block column
and block row (R163). -/
def linesOf (f : Fmt) (xs ys cx cy : List Nat) : List (Nat × Nat × Nat) :=
  let prod := fun (k : Nat) (xs ys : List Nat) => xs.flatMap (fun bx => ys.map (fun by' => (k, bx, by')))
  if f.c44 then prod 0 xs ys ++ prod 1 xs ys ++ prod 2 xs ys else prod 0 xs ys ++ prod 1 cx cy

/-- The lines of a reference that the prediction of the block at column `x`, block row `b` reads (R104 to R106). -/
def linesRead (f : Fmt) (x b : Nat) (mvx mvy : Int) : List (Nat × Nat × Nat) :=
  linesOf f (inBlocks 16 (reach (16 * x) 16 mvx 2 1 2 (f.planeW 0))) (inBlocks 8 (reach (8 * b) 8 mvy 2 1 2 (f.planeH 0)))
    (inBlocks 8 (reach (8 * x) 8 mvx 4 0 1 (f.planeW 1)))
    (inBlocks (f.bh 1) (reach (f.bh 1 * b) (f.bh 1) mvy (if f.c420 then 4 else 2) 0 1 (f.planeH 1)))

/-- The same for HEVC, whose vectors are in quarter samples and whose filters have 8 taps, 4 in chroma (ITU-T H.265).
PRESUMED, log 101. -/
def linesReadH (f : Fmt) (x b : Nat) (mvx mvy : Int) : List (Nat × Nat × Nat) :=
  linesOf f (inBlocks 16 (reach (16 * x) 16 mvx 4 3 4 (f.planeW 0))) (inBlocks 8 (reach (8 * b) 8 mvy 4 3 4 (f.planeH 0)))
    (inBlocks 8 (reach (8 * x) 8 mvx 8 1 2 (f.planeW 1)))
    (inBlocks (f.bh 1) (reach (f.bh 1 * b) (f.bh 1) mvy (if f.c420 then 8 else 4) 1 2 (f.planeH 1)))

-- The block summary (R169)

/-- The summary of a block: what its sideband holds but for the means, which go with its samples, and sb_crc. -/
structure Sum where
  kind : Nat
  typ  : Nat
  mode : Nat
  taint : Bool
  r0   : Nat
  r1   : Nat
  act  : Nat
  x0   : Int
  y0   : Int
  x1   : Int
  y1   : Int
  qp   : Nat
  cbf  : Bool
  pois : Bool
  age0 : Nat
  age1 : Nat
  pic  : Nat
  deriving DecidableEq, Repr

/-- `len` bits of a sideband from bit `off`, counted from the first bit of byte 0. -/
def sideBits (v off len : Nat) : Nat := v / 2 ^ (256 - off - len) % 2 ^ len

/-- The summary that a sideband holds. -/
def sumOf (v : Nat) : Sum :=
  ⟨sideBits v 0 2, sideBits v 2 2, sideBits v 4 3, sideBits v 7 1 == 1, sideBits v 8 2, sideBits v 10 2, sideBits v 12 3,
   signedOf 16 (sideBits v 16 16), signedOf 16 (sideBits v 32 16), signedOf 16 (sideBits v 48 16),
   signedOf 16 (sideBits v 64 16), sideBits v 80 6, sideBits v 86 1 == 1, sideBits v 87 1 == 1, sideBits v 88 8,
   sideBits v 96 8, sideBits v 104 32⟩

/-- The mean of a plane in a sideband (R169). -/
def sideMean (v pl : Nat) : Nat := sideBits v (136 + 16 * pl) 16

/-- Fields of given widths joined, the first on top. -/
def joinBits (l : List (Nat × Nat)) : Nat := l.foldl (fun a p => a * 2 ^ p.1 + p.2 % 2 ^ p.1) 0

/-- The sideband of a summary with its means and sb_crc (R169). -/
def Sum.side (b : Sum) (my mcb mcr : Nat) : Nat :=
  let body := joinBits [(2, b.kind), (2, b.typ), (3, b.mode), (1, b.taint.toNat), (2, b.r0), (2, b.r1), (3, b.act), (1, 0),
    (16, toSigned 16 b.x0), (16, toSigned 16 b.y0), (16, toSigned 16 b.x1), (16, toSigned 16 b.y1), (6, b.qp),
    (1, b.cbf.toNat), (1, b.pois.toNat), (8, b.age0), (8, b.age1), (32, b.pic), (16, my), (16, mcb), (16, mcr), (56, 0)]
  body * 2 ^ 16 + crc16 (beBytes 30 body)

/-- A sideband is valid for a picture (R170). -/
def sideValid (v pic : Nat) : Bool :=
  crc16 (beBytes 30 (v / 2 ^ 16)) == v % 2 ^ 16 && (sideBits v 0 2 == 1 || sideBits v 0 2 == 2) &&
  sideBits v 104 32 == pic % 2 ^ 32

/-- The vector that a block offers for reference slot `r` (R80). -/
def Sum.vecFor (b : Sum) (isP : Bool) (r : Nat) : Int × Int :=
  if 2 ≤ b.typ then
    if b.r0 = r then (b.x0, b.y0) else if b.typ = 3 ∧ b.r1 = r then (b.x1, b.y1) else (0, 0)
  else if b.typ = 0 ∧ isP ∧ r = 0 then (b.x0, b.y0)
  else (0, 0)

/-- The median of three numbers. -/
def median (a b c : Int) : Int := max (min a b) (min (max a b) c)

/-- Which neighbours R79 makes available to the block at column `x`, block row `b` of a stripe of columns [c0, c1). -/
structure Avail where
  left  : Bool
  above : Bool
  right : Bool
  corner : Bool
  deriving DecidableEq, Repr

/-- R79. -/
def avail (cols c0 c1 x b : Nat) : Avail :=
  let l := decide (c0 < x)
  if b % 2 = 0 then ⟨l, decide (0 < b), decide (0 < b ∧ x + 1 < cols), decide (0 < b ∧ 1 ≤ x)⟩
  else ⟨l, true, decide (x + 1 < c1), l⟩

/-- The vector predictor of R80, from the summaries of the neighbours. -/
def mvPred (v : Avail) (isP : Bool) (r : Nat) (l a ar al : Sum) : Int × Int :=
  let o := fun (on : Bool) (b : Sum) => if on then b.vecFor isP r else (0, 0)
  let p := o v.left l
  let q := o v.above a
  let c := if v.right then o true ar else o v.corner al
  (median p.1 q.1 c.1, median p.2 q.2 c.2)

/-- The context of block_type (R123): the available neighbours, left and above, whose type is not 0. -/
def btCtx (v : Avail) (l a : Sum) : Nat := (v.left && l.typ != 0).toNat + (v.above && a.typ != 0).toNat

-- Headers (R72, R75)

/-- A picture header (R72). -/
structure PicHdr where
  isP   : Bool
  mark  : Nat
  slot  : Nat
  c44   : Bool
  depth : Nat
  prim  : Nat
  trans : Nat
  valid : Nat
  w     : Nat
  h     : Nat
  count : Nat
  refId : List Nat
  units : List Nat
  qi    : Nat
  deriving DecidableEq, Repr

/-- The bytes of a picture header (R72). -/
def PicHdr.bytes (p : PicHdr) : List Byte :=
  let body := joinBits ([(16, 0xE1C0), (4, 1), (2, p.isP.toNat), (2, p.mark), (2, p.slot), (2, p.c44.toNat), (2, p.depth),
    (2, p.prim), (3, p.trans), (4, p.valid), (1, 0), (16, p.w), (16, p.h), (32, p.count)] ++
    (List.range 4).map (fun k => (16, p.refId.getD k 0)) ++ [(3, p.units.length), (5, 0)] ++
    (List.range 7).map (fun k => (8, p.units.getD k 0)) ++ [(6, p.qi), (2, 0)])
  let b := beBytes 30 body
  b ++ beBytes 2 (crc16 b)

/-- A copy of a picture header that counts as one (R87, R95): all of it, with its sync, version and hdr_crc. -/
def hdrWhole (b : List Byte) : Bool :=
  decide (b.length = 32 ∧ beAt b 0 2 = 0xE1C0 ∧ byteAt b 2 / 16 = 1 ∧ crc16 (b.take 30) = beAt b 30 2)

/-- A picture header as received: none where it is not whole, or a reserved value, its size or its layout makes it lost (R95). `fw`
and `fh` are the configured format; a chroma_format or bit_depth other than the configured one is accepted.
DESIGN CHOICE, log 102. -/
def readHdr (b : List Byte) (fw fh : Nat) : Option PicHdr :=
  let u := byteAt b
  let ptype := bitsOf (u 2) 2 2
  let n := u 21 / 32
  let units := (List.range n).map (fun k => u (22 + k))
  let p : PicHdr := ⟨ptype == 1, u 2 % 4, u 3 / 64, bitsOf (u 3) 4 2 == 1, bitsOf (u 3) 2 2, u 3 % 4, u 4 / 32,
    bitsOf (u 4) 1 4, beAt b 5 2, beAt b 7 2, beAt b 9 4, (List.range 4).map (fun k => beAt b (13 + 2 * k) 2), units, u 29 / 4⟩
  let cols := ceilDiv p.w 16
  let used := 8 * units.sum
  if hdrWhole b ∧ ptype < 2 ∧ p.mark < 3 ∧
      bitsOf (u 3) 4 2 < 2 ∧ p.depth < 3 ∧ 16 ≤ p.w ∧ p.w ≤ min 3840 fw ∧ 16 ≤ p.h ∧ p.h ≤ min 2160 fh ∧
      (p.c44 ∨ p.w % 2 = 0) ∧ units.all (fun x => decide (1 ≤ x ∧ x ≤ 30)) ∧ used + 1 ≤ cols ∧ cols ≤ used + 256
  then some p else none

/-- The bit depth that a bit_depth code names (R72). -/
def depthOf (c : Nat) : Nat := [10, 12, 16].getD c 8

/-- The format of a header's picture. -/
def PicHdr.fmt (p : PicHdr) : Fmt := ⟨p.w, p.h, p.c44, depthOf p.depth, false, depthOf p.depth⟩

/-- The columns [c0, c1) of stripe `i` of a layout (R70). -/
def stripeCols (cols : Nat) (units : List Nat) (i : Nat) : Nat × Nat :=
  let c0 := 8 * (units.take i).sum
  (c0, if i < units.length then c0 + 8 * units.getD i 0 else cols)

/-- A stripe header (R75). -/
structure StrHdr where
  row    : Nat
  stripe : Nat
  trunc  : Bool
  reduce : Bool
  qpBase : Nat
  cOff   : Int
  picId  : Nat
  len    : Nat
  blocks : Nat
  deriving DecidableEq, Repr

/-- A stripe unit: header, entropy data and stripe_crc (R75). -/
def StrHdr.unit (h : StrHdr) (data : List Byte) : List Byte :=
  let b := beBytes 12 (joinBits [(8, h.row), (3, h.stripe), (1, h.trunc.toNat), (1, h.reduce.toNat), (3, 0), (6, h.qpBase),
    (2, 0), (5, toSigned 5 h.cOff), (3, 0), (16, h.picId), (24, data.length), (16, h.blocks), (8, 0)]) ++ data
  b ++ beBytes 4 (crc32c b)

/-- The header of a stripe unit as received. -/
def readStr (b : List Byte) : StrHdr :=
  ⟨byteAt b 0, byteAt b 1 / 32, bitOf (byteAt b 1) 4, bitOf (byteAt b 1) 3, byteAt b 2 / 4, signedOf 5 (byteAt b 3 / 8),
   beAt b 4 2, beAt b 6 3, beAt b 9 2⟩

end Sys2Proof.Machine
end

