-- ==== Sys2Proof/Machine/Harness.lean ====
section
/-!
DEFINITION. The Harness (chapter 8): the cost of a channel, its row grid, the layout of its slice rows into stripes, and
the plan that gives every stripe of a die a unit and a slot.
-/

namespace Sys2Proof.Machine

/-- A list sorted by a strict order, equal items in their order. -/
def insSort {α : Type} (lt : α → α → Bool) (l : List α) : List α :=
  l.foldl (fun acc x => (acc.takeWhile (fun y => !lt x y)) ++ x :: (acc.dropWhile (fun y => !lt x y))) []

/-- A rational taken modulo a positive one. -/
def ratMod (a m : Rat) : Rat := a - m * ((a / m).floor : Int)

/-- A channel as the Harness sees it under the settings of one of its banks. -/
structure Work where
  ch   : Nat
  kind : Nat
  dom  : Nat
  chroma : Nat
  depth : Nat
  w    : Nat
  h    : Nat
  ofs  : Nat
  num  : Nat
  den  : Nat
  tot  : Nat
  stall : Nat
  deriving DecidableEq, Repr

/-- The settings of a channel in a bank. -/
def State.work (s : State) (ch bank : Nat) : Work :=
  let g := fun f => s.get f ch 0 bank
  let dom := g (.cch .FMT_DOMAIN)
  ⟨ch, g (.cch .FMT_WORK), dom, g (.cch .FMT_CHROMA), g (.cch .FMT_DEPTH), g (.cch .FMT_WIDTH), s.domActive dom,
   g (.cch .TIME_OFS), s.domNum dom, s.domDenOf dom, s.domTotal dom,
   clampTo 100 10000 (s.get (.cus .STALL_TO_UNIT) (s.get (.cch .CTRL_HOME_DIE) ch))⟩

/-- HEVC work; encode work. -/
def Work.hevc (w : Work) : Bool := decide (2 ≤ w.kind)
def Work.enc (w : Work) : Bool := w.kind % 2 == 0

/-- Block columns, and rows of the coded picture: slice rows, or CTU rows (R185). -/
def Work.cols (w : Work) : Nat := ceilDiv w.w 16
def Work.rowLines (w : Work) : Nat := if w.hevc then 32 else 16
def Work.rows (w : Work) : Nat := ceilDiv w.h w.rowLines

/-- The coded format of a channel; of an HEVC decode channel the largest that it accepts (R208). -/
def Work.fmt (w : Work) : Fmt := ⟨w.w, w.h, w.chroma == 1, depthOf w.depth, w.chroma == 2, depthOf w.depth⟩

/-- The format on the uncompressed side (R208). -/
def Work.rawFmt (w : Work) : Fmt := if w.hevc then ⟨w.w, w.h, false, 10, false, 10⟩ else w.fmt

/-- The multiplier W * C * D of R30, in 1/100,000. -/
def Work.mult (w : Work) : Nat :=
  ([10, 8, 30, 15] : List Nat).getD w.kind 0 * (if w.chroma = 1 then 133 else 100) *
    ([100, 110, 125] : List Nat).getD w.depth 100

/-- Luma samples per second, as a fraction (R30). -/
def Work.rate (w : Work) : Rat := if w.den = 0 then 0 else (w.w * w.h * w.num : Nat) / (w.den : Nat)

/-- The credit cost in 0.1 credits, rounded up (R30). -/
def Work.cost (w : Work) : Nat := (w.rate * (w.mult : Nat) / 10000000000).ceil.toNat

/-- The row period in lines (R185), and a line period in us. -/
def Work.rowPeriod (w : Work) : Rat := (w.tot : Nat) / (w.rows : Nat)
def Work.lineUs (w : Work) : Rat := (1000000 * w.den : Nat) / (w.num * w.tot : Nat)

/-- The time to code `n` samples of a row, in lines (R188, R191). -/
def Work.time (w : Work) (n : Nat) : Rat := (n * w.rowLines * w.mult : Nat) / (20000000 * w.lineUs)

/-- The coding window in lines (R188). -/
def Work.win (w : Work) : Rat :=
  if w.enc || w.hevc then w.rowPeriod else min w.rowPeriod (63 / 4)

/-- The layout of class `j`: stripes and stripe width in units of 8 columns (R189). -/
def Work.layout (w : Work) (j : Nat) : Option (Nat × Nat) :=
  let part := w.win / (j : Nat)
  let lim := min part (15 / 2 * (3 - (4 + (w.stall : Nat) / 1000) / w.lineUs))
  let n0 := (w.time (16 * w.cols) / part).ceil.toNat
  ((List.range 9).filter (fun n => decide (max 1 n0 ≤ n))).findSome? (fun n =>
    let g := ceilDiv w.cols (8 * n)
    if (n = 1 ∨ 8 * g * (n - 1) < w.cols) ∧ w.time (128 * g) ≤ lim ∧ 128 * g ≤ 2048 then some (n, g) else none)

/-- The width in samples of stripe `i` of a layout of `n` stripes of `g` units. -/
def Work.stripeW (w : Work) (n g i : Nat) : Nat := if i + 1 < n then 128 * g else 16 * (w.cols - 8 * g * (n - 1))

/-- A slot length in multiples of 256 ticks (R188). -/
def Work.slotLen (w : Work) (width : Nat) : Nat := (w.time width * 256).ceil.toNat

/-- The units that an HEVC channel takes (R191). -/
def Work.hevcUnits (w : Work) : Nat := (w.time w.w / w.rowPeriod).ceil.toNat

/-- A slot of a plan: channel, stripe or rotation index, unit, offset and length in multiples of 256 ticks, whether it is
HEVC, its domain and the grid offset of its channel (R190). -/
structure Slot where
  ch   : Nat
  ix   : Nat
  unit : Nat
  ofs  : Nat
  len  : Nat
  hevc : Bool
  dom  : Nat
  grid : Nat
  per  : Rat
  deriving DecidableEq

/-- The phase of a slot in ticks of its row period. -/
def Slot.phase (x : Slot) : Rat := ((x.grid * 65536 + x.ofs * 256 : Nat) : Rat)

/-- Two slots of a unit do not overlap modulo the row period (R190). -/
def Slot.clear (a b : Slot) : Bool :=
  let per := a.per * 65536
  let d := ratMod (b.phase - a.phase) per
  decide ((a.len * 256 : Nat) ≤ d ∧ d + (b.len * 256 : Nat) ≤ per)

/-- A unit is in service: FREE or BOOKED (R18). -/
def State.inService (s : State) (u : Nat) : Bool := s.get (.cus .UNIT_STATE) u == 1 || s.get (.cus .UNIT_STATE) u == 2

/-- A unit may take new work of a kind: its cluster's shadow decoder for encode, its CABAC engine for HEVC, and its line
buffer stay in service (R19, R128). -/
def State.unitFor (s : State) (w : Work) (u : Nat) : Bool :=
  let c := u / 5
  s.inService u && s.flag (.cus .CLUSTER_LINEBUF_OK) c && (!w.enc || s.flag (.cus .CLUSTER_SHADOW_OK) c) &&
  (!w.hevc || s.flag (.cus .CLUSTER_CABAC_OK) c)

/-- The units of a die. -/
def dieUnits (d : Nat) : List Nat := (List.range 80).map (· + 80 * d)

/-- The CABAC share of each unit of an HEVC channel in 0.1 credits, as a fraction (R191). -/
def Work.share (w : Work) : Rat := (w.cost : Nat) / (w.hevcUnits : Nat)

/-- The units of one HEVC channel, in increasing index, skipping a cluster that would pass 560 credits (R192, step 2).
`load` gives each cluster's load so far. -/
def pickHevc (s : State) (w : Work) (used : List Nat) : Nat → List Nat → List (Nat × Rat) → Option (List Nat × List (Nat × Rat))
  | 0, _, load => some ([], load)
  | _ + 1, [], _ => none
  | n + 1, u :: t, load =>
    let c := u / 5
    let have' := ((load.find? (fun p => p.1 == c)).map (·.2)).getD 0
    if s.unitFor w u && !used.contains u && decide (have' + w.share ≤ 5600) then
      (pickHevc s w used n t ((c, have' + w.share) :: load.filter (fun p => p.1 != c))).map (fun r => (u :: r.1, r.2))
    else pickHevc s w used (n + 1) t load

/-- Every HEVC channel placed, in decreasing cost (R192, step 2). -/
def placeHevc (s : State) (d : Nat) : List Work → List Slot → List (Nat × Rat) → Option (List Slot)
  | [], acc, _ => some acc
  | w :: t, acc, load =>
    match pickHevc s w (acc.map (·.unit)) w.hevcUnits (dieUnits d) load with
    | none => none
    | some (us, load) =>
      let new := us.zipIdx.map (fun p => (⟨w.ch, p.2, p.1, 0, w.slotLen w.w, true, w.dom, w.ofs, w.rowPeriod⟩ : Slot))
      placeHevc s d t (acc ++ new) load

/-- The first slot that fits on a unit, by its offset (R190). -/
def fitUnit (w : Work) (x : Slot) (here : List Slot) : Option Slot :=
  let per := x.per * 65536
  let ends := here.map (fun y => ((ratMod (y.phase + (y.len * 256 : Nat) - x.phase) per) / 256).ceil.toNat)
  let ok := fun o => let y := { x with ofs := o }
    decide (((o + x.len) * 256 : Nat) ≤ w.win * 65536) && here.all (fun z => y.clear z)
  ((insSort (fun a b : Nat => decide (a < b)) (0 :: ends)).find? ok).map (fun o => { x with ofs := o })

/-- A stripe to place: its work, index and slot length. -/
structure ToPlace where
  w   : Work
  ix  : Nat
  len : Nat
  deriving DecidableEq

/-- The units in the order in which a channel tries them: those of the region of its buffers first (R192, step 3). -/
def State.unitOrder (s : State) (d : Nat) (w : Work) (l : List Nat) : List Nat :=
  let g := s.get (.pdk .OWN_CFG_GROUP) d w.ch
  let near := fun u => s.chStarted w.ch && s.get (.cch .STATUS_STATE) w.ch != chWAITING && u / 20 == g
  l.filter near ++ l.filter (fun u => !near u)

/-- One stripe placed by first fit: units bound to its domain, then FREE ones (R192, step 3). -/
def placeStripe (s : State) (d : Nat) (p : ToPlace) (acc : List Slot) : Option Slot :=
  let l := (dieUnits d).filter (s.unitFor p.w)
  let on := fun u => acc.filter (fun x => x.unit == u)
  let bound := l.filter (fun u => (on u).any (fun x => !x.hevc && x.dom == p.w.dom))
  let free := l.filter (fun u => (on u).isEmpty)
  (s.unitOrder d p.w bound ++ s.unitOrder d p.w free).findSome? (fun u =>
    fitUnit p.w ⟨p.w.ch, p.ix, u, 0, p.len, false, p.w.dom, p.w.ofs, p.w.rowPeriod⟩ (on u))

/-- Every stripe placed in decreasing slot length; otherwise the channel of the first that cannot be (R192). -/
def placeElc (s : State) (d : Nat) : List ToPlace → List Slot → Except Nat (List Slot)
  | [], acc => .ok acc
  | p :: t, acc =>
    match placeStripe s d p acc with
    | some x => placeElc s d t (acc ++ [x])
    | none => .error p.w.ch

/-- The order of placement: longer slots first, then the lower channel and stripe. -/
def placeBefore (a b : ToPlace) : Bool :=
  if a.len ≠ b.len then decide (b.len < a.len)
  else if a.w.ch ≠ b.w.ch then decide (a.w.ch < b.w.ch) else decide (a.ix < b.ix)

/-- A channel with the class it is planned in. -/
structure Classed where
  w : Work
  j : Nat
  deriving DecidableEq

/-- The next class that exists for a channel. -/
def Work.classFrom (w : Work) (j : Nat) : Option Nat :=
  ([1, 2, 3] : List Nat).find? (fun k => decide (j ≤ k) && (w.layout k).isSome)

/-- The stripes of a channel in its class. -/
def Classed.stripes (c : Classed) : List ToPlace :=
  match c.w.layout c.j with
  | none => []
  | some (n, g) => (List.range n).map (fun i => ⟨c.w, i, c.w.slotLen (c.w.stripeW n g i)⟩)

/-- The channel whose class is raised when one of `ch` cannot be placed (R192, step 4). -/
def raiseClass (ch : Nat) (l : List Classed) : Option (List Classed) :=
  let up := fun c : Classed => c.w.classFrom (c.j + 1)
  let bump := fun n => l.map (fun c => if c.w.ch = n then { c with j := (up c).getD c.j } else c)
  match l.find? (fun c => c.w.ch == ch) with
  | none => none
  | some c =>
    if (up c).isSome then some (bump ch)
    else
      let m := l.filter (fun x => x.w.dom == c.w.dom && (up x).isSome)
      (m.foldl (fun b x => match b with
        | none => some x
        | some y => if y.w.cost < x.w.cost then some x else some y) none).map (fun x => bump x.w.ch)

/-- Rounds of R192: the slots and the classes, or none. -/
def planRounds (s : State) (d : Nat) (hevc : List Slot) : Nat → List Classed → Option (List Classed × List Slot)
  | 0, _ => none
  | n + 1, l =>
    match placeElc s d (insSort placeBefore (l.flatMap Classed.stripes)) hevc with
    | .ok slots => some (l, slots)
    | .error ch => match raiseClass ch l with
      | some l => planRounds s d hevc n l
      | none => none

/-- A plan of a die for a set of channels (R192): the ELC channels with their classes, and every slot. -/
def State.plan (s : State) (d : Nat) (ws : List Work) : Option (List Classed × List Slot) :=
  let elc := ws.filter (fun w => !w.hevc)
  let hv := insSort (fun a b : Work => decide (b.cost < a.cost)) (ws.filter Work.hevc)
  match placeHevc s d hv [] [] with
  | none => none
  | some hevc =>
    if elc.all (fun w => (w.classFrom 1).isSome) then
      planRounds s d hevc (3 * elc.length + 1) (elc.map (fun w => ⟨w, (w.classFrom 1).getD 1⟩))
    else none

/-- The channels that run on a die, and those that a plan of it must hold besides. -/
def State.planned (s : State) (d : Nat) : List Nat :=
  (s.chansOf d).filter (fun ch => s.get (.cch .STATUS_STATE) ch == chRUNNING || s.get (.cch .STATUS_STATE) ch == chLEAVING)

/-- The planned layout of a channel differs from the one in force. -/
def State.planDiffers (s : State) (ch : Nat) : Bool :=
  let two := fun (f : Fld) (j : Nat) => s.get f ch j 0 != s.get f ch j 1
  two (.cch .xL_N) 0 || two (.cch .xL_G) 0 || two (.cch .xL_DIE) 0 ||
  (List.range 8).any (fun j => two (.cch .xL_UNIT) j || two (.cch .xL_OFS) j)

/-- A planned layout is written beside the one in force, to be applied at the channel's next boundary (R193).
`from'` is the local-oscillator edge from which a boundary may apply it (R485). -/
def writePlan (d from' : Nat) (p : List Classed × List Slot) (chs : List Work) (s : State) : State :=
  forEach chs (fun w s =>
    let mine := p.2.filter (fun x => x.ch == w.ch)
    let (n, g) := match p.1.find? (fun c => c.w.ch == w.ch) with
      | some c => (c.w.layout c.j).getD (1, 1)
      | none => (mine.length, 1)
    let s := ((s.put (.cch .xL_N) n w.ch).put (.cch .xL_G) g w.ch).put (.cch .xL_DIE) d w.ch
    let s := forEach (List.range 8) (fun i s =>
      let x := mine.find? (fun x => x.ix == i)
      (s.put (.cch .xL_UNIT) ((x.map (·.unit)).getD 255) w.ch i).put (.cch .xL_OFS) ((x.map (·.ofs)).getD 0) w.ch i) s
    (s.putB (.cch .xP_NEW) (s.planDiffers w.ch) w.ch).put (.cch .xP_AT) from' w.ch) s

/-- A bank of a layout is copied to another. -/
def copyLayout (ch a b : Nat) (s : State) : State :=
  let cp := fun (f : Fld) (j : Nat) (s : State) => s.put f (s.get f ch j a) ch j b
  let s := cp (.cch .xL_N) 0 (cp (.cch .xL_G) 0 (cp (.cch .xL_DIE) 0 s))
  forEach (List.range 8) (fun j s => cp (.cch .xL_UNIT) j (cp (.cch .xL_OFS) j s)) s

/-- The registers show the layout in force (R207). -/
def showLayout (ch : Nat) (s : State) : State :=
  let s := s.put (.cch .STATUS_STRIPES_M1) (s.get (.cch .xL_N) ch 0 1 - 1) ch
  forEach (List.range 8) (fun j s =>
    (s.put (.cch .UNIT_UNIT) (s.get (.cch .xL_UNIT) ch j 1) ch j).put (.cch .UNIT_OFS) (s.get (.cch .xL_OFS) ch j 1) ch j) s

/-- The slots of the layouts in force on a die. -/
def State.slotsInForce (s : State) (d : Nat) : List Slot :=
  (s.planned d).flatMap (fun ch =>
    let w := s.work ch (s.chBank ch)
    let n := s.get (.cch .xL_N) ch 0 1
    let g := s.get (.cch .xL_G) ch 0 1
    (List.range n).map (fun i => ⟨ch, i, s.get (.cch .xL_UNIT) ch i 1, s.get (.cch .xL_OFS) ch i 1,
      if w.hevc then w.slotLen w.w else w.slotLen (w.stripeW n g i), w.hevc, w.dom, w.ofs, w.rowPeriod⟩))

/-- The picture of a channel whose number has a parity, among the last two sampled. -/
def State.picOf (s : State) (ch k : Nat) : Nat :=
  let n := s.get (.cch .xPIC) ch - 1
  if n % 2 = k then n else n - 1

-- Gating (R483 to R485)

/-- The power state changes, and SEASON asserts (R483). -/
def setSeason (v : Nat) (s : State) : State :=
  s.when (s.get (.pwr .STATUS_SEASON) != v) (fun s => evPulse 900 v (s.put (.pwr .STATUS_SEASON) v))

/-- Cluster `c` is gated. -/
def State.gatedC (s : State) (c : Nat) : Bool := bitOf (s.get (.pwr .GATE_CLUSTERS) (c / 16)) (c % 16)

/-- What R484 asks of a cluster before it is gated: no unit booked, on HEVC work or re-executing, and no stripe of its units
still to check. -/
def State.gateIdle (s : State) (c : Nat) : Bool :=
  (List.range 5).all (fun i => let u := 5 * c + i
                               s.get (.cus .UNIT_STATE) u != 2 && !s.flag (.cus .UNIT_HEVC) u && !s.flag (.cus .UNIT_REEXEC) u) &&
  !(s.store.keysOf (.cch .xSTR)).any (fun k => s.store.get k == 1 &&
    s.get (.cch .xL_UNIT) k.i (k.j % 8) (2 + s.picOf k.i k.k % 32) / 5 == c)

/-- The time from which a cluster may be gated starts, goes on, or ends (R484). -/
def gateTouch (c : Nat) (s : State) : State :=
  if s.gateIdle c then s.when (s.get (.pwr .xGATE_AT) c == 0) (fun s => s.put (.pwr .xGATE_AT) (s.osc + 1) c)
  else s.put (.pwr .xGATE_AT) 0 c

/-- A unit starts or ends a re-execution. -/
def putRex (u v : Nat) (s : State) : State := gateTouch (u / 5) (s.put (.cus .UNIT_REEXEC) v u)

/-- Clusters are gated or ungated, and the regions, the count and the season follow (R484). -/
def setGates (l : List Nat) (on : Bool) (s : State) : State :=
  let s := forEach l (fun c s => s.putBit (.pwr .GATE_CLUSTERS) (c % 16) on (c / 16)) s
  let s := forEach [0, 1] (fun d s => forEach (List.range 4) (fun r s =>
    s.putBit (.pwr .GATE_REGIONS) r ((List.range 4).all (fun k => s.gatedC (16 * d + 4 * r + k))) d) s) s
  let n := ((List.range 32).filter s.gatedC).length
  let s := s.put (.pwr .STATUS_GATED) n
  s.when (decide (s.get (.pwr .STATUS_SEASON) ≤ 1)) (setSeason (if n = 0 then 0 else 1))

/-- The units and clusters of a die show what they hold (R190, R191, R209). The slot of an HEVC unit comes once in as many row
periods as the channel has units. -/
def cusRefresh (d : Nat) (s : State) : State :=
  let all := s.slotsInForce d
  let s := forEach (dieUnits d) (fun u s =>
    let mine := all.filter (fun x => x.unit == u)
    let st := s.get (.cus .UNIT_STATE) u
    let s := s.when (st == 1 || st == 2) (fun s => s.put (.cus .UNIT_STATE) (if mine.isEmpty then 1 else 2) u)
    let turns := fun x : Slot => if x.hevc then max 1 (s.work x.ch (s.chBank x.ch)).hevcUnits else 1
    let fill := mine.foldl (fun a x => a + ((x.len : Nat) : Rat) / (x.per * (turns x : Nat))) (0 : Rat)
    let s := s.put (.cus .UNIT_LOAD) (min 255 fill.floor.toNat) u
    let s := s.put (.cus .UNIT_DOMAIN) ((mine.head?.map (·.dom)).getD 0) u
    s.putB (.cus .UNIT_HEVC) (mine.any (·.hevc)) u) s
  let s := forEach ((List.range 16).map (· + 16 * d)) gateTouch s
  forEach ((List.range 16).map (· + 16 * d)) (fun c s =>
    let load := (all.filter (fun x => x.hevc && x.unit / 5 == c)).foldl
      (fun a x => a + (s.work x.ch (s.chBank x.ch)).share) (0 : Rat)
    s.put (.cus .CLUSTER_CABAC_LOAD) (load / 10).ceil.toNat c) s

/-- Bookable capacity of a die in 0.1 credits: 95% of 200 credits for each unit in service (R31, R34). -/
def State.bookable (s : State) (d : Nat) : Nat := 1900 * ((dieUnits d).filter s.inService).length

/-- The booked cost of a die's channels in 0.1 credits. -/
def State.booked (s : State) (d : Nat) : Nat := (s.planned d).foldl (fun a ch => a + s.get (.cch .STATUS_COST) ch) 0

-- The row grid (R185)

/-- The pictures of a channel whose settings are held: bank and number. -/
def picBank (n : Nat) : Nat := 2 + n % 32

/-- The settings of picture `n` of a channel are held. -/
def State.hasPic (s : State) (ch n : Nat) : Bool := s.get (.cch .xSNAP) ch 0 (picBank n) == n + 1

/-- The work of picture `n`. -/
def State.picWork (s : State) (ch n : Nat) : Work := s.work ch (picBank n)

/-- The ticks of the grid position of row `r` of picture `n` (R185). -/
def State.rowTicks (s : State) (ch n r : Nat) : Nat :=
  let w := s.picWork ch n
  n * s.picTicks w.dom + w.ofs * 65536 + (r + 1) * w.tot * 65536 / w.rows

/-- The guard between the row period and the release of a row, in lines: 3, or for HEVC that of R194.
DEDUCED, log 84. -/
def Work.guard (w : Work) : Rat :=
  if w.hevc then ((w.time w.w / (15 / 2) + (4 + (w.stall : Nat) / 1000) / w.lineUs).ceil : Int) else 3

/-- The ticks of REL(r) of picture `n` (R194): for HEVC the time to code the row stands in place of the row period (R203).
DEDUCED, log 84. -/
def State.relTicks (s : State) (ch n r : Nat) : Nat :=
  let w := s.picWork ch n
  s.rowTicks ch n r + (((if w.hevc then w.time w.w else w.rowPeriod) + w.guard) * 65536).ceil.toNat

/-- The picture for which row `r` has reached a position most lately, if its settings are held. `at'` gives the position
of a picture's row in ticks. -/
def State.picAt (s : State) (ch : Nat) (at' : Nat → Nat) : Option Nat :=
  let now := s.picNow (s.chDom ch)
  ((List.range 32).map (fun a => now - a)).find? (fun n => s.hasPic ch n && s.rasterRuns (s.picWork ch n).dom &&
    decide (at' n ≤ s.ticksNow (s.picWork ch n).dom))

/-- The picture whose row `r` is ready, or past its deadline, most lately. -/
def State.rowPic (s : State) (ch r : Nat) : Option Nat :=
  (s.picAt ch (fun n => s.rowTicks ch n r)).filter (fun n => decide (r < (s.picWork ch n).rows))

/-- The picture whose row `r` has reached its release most lately. -/
def State.relPic (s : State) (ch r : Nat) : Option Nat :=
  (s.picAt ch (fun n => s.relTicks ch n r)).filter (fun n => decide (r < (s.picWork ch n).rows))

end Sys2Proof.Machine
end

