-- ==== Sys2Proof/Machine/Refs.lean ====
section
/-!
DEFINITION. Frame buffers and reference slots (R163 to R172): where a block's lines lie, what a slot holds, the samples
and sidebands that prediction reads, the picture in work, and the reconstruction of a block (R99 to R114).
-/

namespace Sys2Proof.Machine

/-- The lockstep group and payload offset of a frame buffer by its handle (R285). -/
def State.bufAt (s : State) (h : Nat) : Nat × Nat :=
  let b : Buf := ⟨bitsOf h 19 3, bitsOf h 16 3, bitsOf h 0 16, 0⟩
  (b.grp, s.bufAddr b)

/-- The group and line number of line `k` of the block at column `x`, block row `b` of a buffer (R163). -/
def State.lineAt (s : State) (f : Fmt) (h x b k : Nat) : Nat × Nat :=
  let (g, o) := s.bufAt h
  (g, o / 256 + f.linesPer * (b * f.cols + x) + k)

/-- The lines of a buffer (R163). -/
def Fmt.bufLines (f : Fmt) : Nat := f.linesPer * f.cols * (2 * f.rows)

/-- The class of the buffers of a format (R164). -/
def Fmt.bufClass (f : Fmt) : Nat := classFor (256 * f.bufLines)

/-- Line and byte within a block at which a sample of a plane lies, from its place in the block (R163). -/
def sampleAt (f : Fmt) (pl dx dy : Nat) : Nat × Nat :=
  if pl = 0 then (0, 2 * (16 * dy + dx))
  else if f.c44 then (pl, 2 * (16 * dy + dx))
  else (1, 128 * (pl - 1) + 2 * (8 * dy + dx))

/-- A picture that prediction reads (R73, R176): the buffer that holds it, none for the mid-grey picture; its pic_count,
and whether it is a substitute. -/
structure RefPic where
  buf   : Option Nat
  pic   : Nat
  subst : Bool
  deriving DecidableEq, Repr

/-- What slot `k` of a channel holds. -/
def State.slotPic (s : State) (ch k : Nat) : Option RefPic :=
  if s.get (.ref .SLOT_MARK) ch k = 0 ∨ s.get (.ref .xSL_BUF) ch k = 0 then none
  else some ⟨some (s.get (.ref .xSL_BUF) ch k - 1), s.get (.ref .xSL_PIC) ch k, false⟩

/-- The format of the picture in a slot is that of the current picture (R104). -/
def State.slotFits (s : State) (ch k : Nat) (f : Fmt) : Bool :=
  s.get (.ref .xSL_W) ch k == f.w && s.get (.ref .xSL_H) ch k == f.h && s.get (.ref .xSL_C) ch k == f.chroma &&
  s.get (.ref .xSL_D) ch k == f.d && s.get (.ref .xSL_DC) ch k == f.dc

/-- A sample of a reference, clamped to the coded plane (R104). -/
def State.refSmp (s : State) (f : Fmt) (r : RefPic) (pl : Nat) (x y : Int) : Nat :=
  match r.buf with
  | none => f.mid pl
  | some h =>
    let X := (clip3 0 (f.planeW pl - 1 : Nat) x).toNat
    let Y := (clip3 0 (f.planeH pl - 1 : Nat) y).toNat
    let (k, o) := sampleAt f pl (X % f.bw pl) (Y % f.bh pl)
    let (g, la) := s.lineAt f h (X / f.bw pl) (Y / f.bh pl) k
    beNat (s.dramRead g (256 * la + o) 2)

/-- The sideband of a block of a reference as it reads; the mid-grey picture has none (R176). -/
def State.refSide (s : State) (f : Fmt) (r : RefPic) (x b : Nat) : Option Nat :=
  r.buf.map (fun h => let (g, la) := s.lineAt f h x b 0
                      s.lineSide g la)

/-- The summary that a reference gives a block, if its sideband is valid (R170). -/
def State.refSum (s : State) (f : Fmt) (r : RefPic) (x b : Nat) : Option Sum :=
  match s.refSide f r x b with
  | some v => if sideValid v r.pic then some (sumOf v) else none
  | none => none

/-- The block rows of the poisoned lines among those that a prediction reads (R172 to R174). -/
def State.poisonIn (s : State) (f : Fmt) (r : RefPic) (lines : List (Nat × Nat × Nat)) : List Nat :=
  match r.buf with
  | none => []
  | some h => (lines.filter (fun l =>
      let (g, la) := s.lineAt f h l.2.1 l.2.2 l.1
      s.linePoison g la != 0)).map (fun l => l.2.2)

/-- The blocks that lines belong to.
DEDUCED, log 79. -/
def blocksOf (lines : List (Nat × Nat × Nat)) : List (Nat × Nat) := (lines.map (fun l => (l.2.1, l.2.2))).eraseDups

/-- A prediction reads a tainted block (R171).
DEDUCED, log 79. -/
def State.taintIn (s : State) (f : Fmt) (r : RefPic) (lines : List (Nat × Nat × Nat)) : Bool :=
  (blocksOf lines).any (fun p => match s.refSum f r p.1 p.2 with
    | some m => m.taint
    | none => false)

/-- A sideband among those that a prediction reads is invalid (R170).
DEDUCED, log 79. -/
def State.badIn (s : State) (f : Fmt) (r : RefPic) (lines : List (Nat × Nat × Nat)) : Bool :=
  r.buf.isSome && (blocksOf lines).any (fun p => (s.refSum f r p.1 p.2).isNone)

/-- The block rows of the poisoned lines that the prediction of an ELC block reads. -/
def State.poisonRead (s : State) (f : Fmt) (r : RefPic) (x b : Nat) (v : Int × Int) : List Nat :=
  s.poisonIn f r (linesRead f x b v.1 v.2)

/-- The temporal prediction of a sample (R105 to R107): one prediction, or two. -/
def State.interPred (s : State) (f : Fmt) (refs : List (RefPic × Int × Int)) (pl px py : Nat) : Nat :=
  let i := fun (r : RefPic × Int × Int) =>
    let rd := fun (x y : Int) => ((s.refSmp f r.1 pl x y : Nat) : Int)
    if pl = 0 ∨ f.c44 then interLuma rd px py r.2.1 r.2.2 else interChroma rd px py r.2.1 r.2.2 (if f.c420 then 4 else 2)
  match refs with
  | [a] => f.clipd pl ((i a + 8) / 16)
  | [a, b] => f.clipd pl ((i a + i b + 16) / 32)
  | _ => f.mid pl

-- The picture in work

/-- The number of a sample in the store of the picture in work. -/
def smpIx (pl x y : Nat) : Nat := (pl * 4096 + y) * 4096 + x

/-- A reconstructed sample of the picture in work. -/
def State.smp (s : State) (ch pl x y : Nat) : Nat := s.get (.ref .xSMP) ch (smpIx pl x y)

/-- A reconstructed sample written. -/
def putSmp (ch pl x y v : Nat) (s : State) : State := s.put (.ref .xSMP) v ch (smpIx pl x y)

/-- The number of a block among the block summaries of the picture in work. -/
def blkIx (x b : Nat) : Nat := b * 256 + x

/-- The summary of a block of the picture in work. -/
def State.sum (s : State) (ch x b : Nat) : Sum := sumOf (s.get (.ref .xSB) ch (blkIx x b))

/-- The samples of a block in a plane, in raster order. -/
def State.blockSmp (s : State) (ch : Nat) (f : Fmt) (pl x b : Nat) : List Nat :=
  (List.range (f.bh pl)).flatMap (fun dy => (List.range (f.bw pl)).map (fun dx => s.smp ch pl (f.bw pl * x + dx) (f.bh pl * b + dy)))

/-- The rounded mean of samples (R169). -/
def meanOf (l : List Nat) : Nat := if l.length = 0 then 0 else (l.sum + l.length / 2) / l.length

/-- Samples in their containers (R163). -/
def smpBytes (l : List Nat) : List Byte := l.flatMap (beBytes 2)

/-- The lines of a block (R163); a 4:2:0 block of HEVC leaves the second half of each chroma array 0.
DEDUCED, log 105. -/
def State.blockLines (s : State) (ch : Nat) (f : Fmt) (x b : Nat) : List (List Byte) :=
  let y := smpBytes (s.blockSmp ch f 0 x b)
  let u := smpBytes (s.blockSmp ch f 1 x b)
  let v := smpBytes (s.blockSmp ch f 2 x b)
  if f.c44 then [y, u, v] else [y, fit 128 u ++ fit 128 v]

/-- A block of the picture of parity `p` is written with its summary: to the block summaries, and line by line with their
sidebands to the working buffer, where the picture has one (R163, R170). -/
def setBlock (ch p : Nat) (f : Fmt) (x b : Nat) (m : Sum) (s : State) : State :=
  let side := m.side (meanOf (s.blockSmp ch f 0 x b)) (meanOf (s.blockSmp ch f 1 x b)) (meanOf (s.blockSmp ch f 2 x b))
  let s := s.put (.ref .xSB) side ch (blkIx x b)
  match s.get (.ref .xWB) ch 0 p with
  | 0 => s
  | h + 1 => forEach (s.blockLines ch f x b).zipIdx (fun l s =>
      let (g, la) := s.lineAt f h x b l.2
      lineWrite g la 0 l.1 0 (some side) s) s

-- Reconstruction (R99, R100, R113)

/-- Plane, left column and half of transform block `t` of the block at column `x`. -/
def tbPlace (f : Fmt) (x t : Nat) : Nat × Nat × Bool :=
  if f.c44 ∨ t < 2 then (t / 2, 16 * x + 8 * (t % 2), t % 2 == 1) else (t - 1, 8 * x, false)

/-- The reference samples of transform block `t` of an intra block (R100, R101). -/
def State.intraRef (s : State) (ch : Nat) (f : Fmt) (v : Avail) (x b t : Nat) : List Nat × List Nat :=
  let (pl, x0, right) := tbPlace f x t
  let half := f.c44 || decide (t < 2)
  let (r, c, l) := if right then (v.right, v.above, true)
    else if half then (v.above, v.corner, v.left) else (v.right, v.corner, v.left)
  refSamples (f.mid pl) v.above r c l (fun i => s.smp ch pl ((x0 : Int) + i).toNat (8 * b - 1)) (fun j => s.smp ch pl (x0 - 1) (8 * b + j))

/-- How a block is predicted: an intra mode, or one or two references with their vectors. -/
inductive Pred where
  | intra (mode : Nat)
  | inter (refs : List (RefPic × Int × Int))
  deriving DecidableEq, Repr

/-- Transform block `t` is reconstructed (R99): prediction plus residual, clipped, written into the picture. -/
def recTb (ch : Nat) (f : Fmt) (v : Avail) (x b : Nat) (p : Pred) (t : Nat) (e : TbEl) (qe : Nat) (s : State) : State :=
  let (pl, x0, _) := tbPlace f x t
  let pred : Nat → Nat → Nat := match p with
    | .intra mode => let rs := s.intraRef ch f v x b t
                     fun i j => intraPred mode rs.1 rs.2 i j
    | .inter refs => fun i j => s.interPred f refs pl (x0 + i) (8 * b + j)
  let res := e.residual qe
  let out := (List.range 8).flatMap (fun j => (List.range 8).map (fun i => (i, j, f.clipd pl ((pred i j : Nat) + mat res i j))))
  forEach out (fun o s => putSmp ch pl (x0 + o.1) (8 * b + o.2.1) o.2.2 s) s

/-- A whole block is reconstructed (R99). `qy` and `qc` are the effective quantisers. -/
def recBlock (ch : Nat) (f : Fmt) (v : Avail) (x b : Nat) (p : Pred) (tbs : List TbEl) (qy qc : Nat) (s : State) : State :=
  forEach (List.range f.numTb) (fun t s => recTb ch f v x b p t (tbs.getD t ⟨false, []⟩) (if t < 2 then qy else qc) s) s

-- Slots (R165 to R167)

/-- A buffer that a channel holds returns to the Paddock. -/
def giveBack (h : Nat) (s : State) : State := { s with bufs := s.bufs.filter (fun b => b.handle != h) }

/-- A slot is emptied. -/
def emptySlot (ch k : Nat) (s : State) : State :=
  let b := s.get (.ref .xSL_BUF) ch k
  let s := s.when (b != 0) (giveBack (b - 1))
  let s := ((s.put (.ref .SLOT_MARK) 0 ch k).put (.ref .SLOT_COMPLETE) 0 ch k).put (.ref .SLOT_PIC_ID) 0 ch k
  ((s.put (.ref .xSL_BUF) 0 ch k).put (.ref .SLOT_SUBST) 0 ch k).put (.ref .SLOT_GREY) 0 ch k

/-- No picture of a channel is in progress. -/
def State.picsDone (s : State) (ch : Nat) : Bool := s.get (.cch .xPIC) ch == s.get (.cch .xDONE) ch

/-- Slots of a channel that picture `n` is to find empty (R104, R166, R167): they are emptied at once, or, while the picture before
still reads them, at its end. `start` marks those that a channel start empties, which takes in what that picture stores. -/
def dropSlots (ch n : Nat) (l : List Nat) (start : Bool) (s : State) : State :=
  if s.picsDone ch then forEach l (emptySlot ch) s
  else s.put (.ref .xDROP) (Nat.lor (s.get (.ref .xDROP) ch 0 (n % 2)) (l.foldl (fun a k => a + 2 ^ k) (if start then 64 else 0))) ch 0 (n % 2)

/-- The working buffer of picture `n` of a channel returns (R166, R167). -/
def dropWork (ch n : Nat) (s : State) : State :=
  let b := s.get (.ref .xWB) ch 0 (n % 2)
  s.when (b != 0) (fun s => (giveBack (b - 1) s).put (.ref .xWB) 0 ch 0 (n % 2))

/-- A working buffer for picture `n` is taken from the channel's home group (R164, R166), if the Paddock has one. -/
def takeWork (ch n : Nat) (f : Fmt) (s : State) : Bool × State :=
  let d := s.get (.cch .CTRL_HOME_DIE) ch
  if s.get (.ref .xWB) ch 0 (n % 2) ≠ 0 then (true, s)
  else
    let (b, s) := allocOne d ch f.bufClass s
    match b with
    | some b => (true, s.put (.ref .xWB) (b.handle + 1) ch 0 (n % 2))
    | none => (false, s)

/-- The working buffer of picture `n` becomes the content of a slot (R166). -/
def storePic (ch n slot mark pic : Nat) (f : Fmt) (complete : Bool) (s : State) : State :=
  let wb := s.get (.ref .xWB) ch 0 (n % 2)
  if mark = 0 ∨ wb = 0 then s
  else
    let s := emptySlot ch slot s
    let s := ((s.put (.ref .xWB) 0 ch 0 (n % 2)).put (.ref .xSL_BUF) wb ch slot).put (.ref .SLOT_MARK) mark ch slot
    let s := (s.put (.ref .xSL_PIC) pic ch slot).put (.ref .SLOT_PIC_ID) pic ch slot
    let s := ((s.put (.ref .xSL_W) f.w ch slot).put (.ref .xSL_H) f.h ch slot).put (.ref .xSL_C) f.chroma ch slot
    let s := (s.put (.ref .xSL_DC) f.dc ch slot).put (.ref .xSL_POC) (s.get (.ref .xPOC) ch 0 (n % 2)) ch slot
    (s.put (.ref .xSL_D) f.d ch slot).putB (.ref .SLOT_COMPLETE) complete ch slot

/-- The slots that picture `n + 1` is to find empty are emptied, before picture `n` is stored (R166, R167). -/
def storeDrop (ch n : Nat) (s : State) : State :=
  let v := s.get (.ref .xDROP) ch 0 ((n + 1) % 2)
  forEach ((List.range 6).filter (bitOf v)) (emptySlot ch) (s.put (.ref .xDROP) (if bitOf v 6 then 64 else 0) ch 0 ((n + 1) % 2))

/-- The slot, among some, that holds the most recent picture under the half-range rule (R55, R176, R179). -/
def State.latest (s : State) (ch : Nat) (l : List Nat) : Option Nat :=
  l.foldl (fun b k => match b with
    | none => some k
    | some a => if seqBefore 32 (s.get (.ref .xSL_PIC) ch a) (s.get (.ref .xSL_PIC) ch k) then some k else some a) none

/-- The slots of a channel that hold a picture of a format. -/
def State.fitting (s : State) (ch : Nat) (f : Fmt) : List Nat :=
  (List.range 6).filter (fun k => (s.slotPic ch k).isSome && s.slotFits ch k f)

-- Concealment (R179, R180)

/-- The start and end columns of a stripe in a plane. -/
def planeCols (f : Fmt) (pl c0 c1 : Nat) : Nat × Nat := if pl = 0 ∨ f.c44 then (16 * c0, 16 * c1) else (8 * c0, 8 * c1)

/-- A sample under the spatial rule (R179). `hl` and `hr` tell whether the stripes beside the lost one are decoded. -/
def State.spatialSmp (s : State) (ch : Nat) (f : Fmt) (src : Option RefPic) (c0 c1 : Nat) (hl hr : Bool) (x b pl X Y : Nat) : Nat :=
  let (a, e) := planeCols f pl c0 c1
  let l := s.smp ch pl (a - 1) Y
  let r := s.smp ch pl e Y
  if hl && hr then ((e - X) * l + (X - a + 1) * r + (e - a + 1) / 2) / (e - a + 1)
  else if 2 ≤ b then s.smp ch pl X (2 * f.bh pl * (b / 2) - 1)
  else if hl then l
  else if hr then r
  else match src with
    | some p => match s.refSide f p x b with
      | some v => if sideValid v p.pic then sideMean v pl else f.mid pl
      | none => f.mid pl
    | none => f.mid pl

/-- The samples of a block in every plane: plane and place. -/
def blockPlaces (f : Fmt) (x b : Nat) : List (Nat × Nat × Nat) :=
  [0, 1, 2].flatMap (fun pl =>
    (List.range (f.bh pl)).flatMap (fun dy => (List.range (f.bw pl)).map (fun dx => (pl, f.bw pl * x + dx, f.bh pl * b + dy))))

/-- Samples of a block set from a function of the picture in work as it stands. -/
def fillBlock (ch : Nat) (f : Fmt) (x b : Nat) (v : Nat → Nat → Nat → Nat) (s : State) : State :=
  forEach ((blockPlaces f x b).map (fun p => (p, v p.1 p.2.1 p.2.2))) (fun p s => putSmp ch p.1.1 p.1.2.1 p.1.2.2 p.2 s) s

/-- A vector scaled to one picture (R179): the magnitude divided by the age, rounded. -/
def scaleMv (v : Int) (age : Nat) : Int :=
  let m : Int := ((v.natAbs + age / 2) / age : Nat)
  if v < 0 then -m else m

/-- Which picture in work a block belongs to, as concealment needs it; `enc` marks the picture of an encode channel, which
writes taint 0 (R171) and counts no concealed blocks (R183). -/
structure Lost where
  ch  : Nat
  par : Nat
  f   : Fmt
  pic : Nat
  isI : Bool
  c0  : Nat
  c1  : Nat
  hl  : Bool
  hr  : Bool
  enc : Bool
  deriving DecidableEq, Repr

/-- A block is concealed by the spatial rule (R179, R180). -/
def concealSpatial (l : Lost) (src : Option RefPic) (x b : Nat) (pois : Bool) (s : State) : State :=
  let reads := !(l.hl && l.hr) && decide (b < 2) && !l.hl && !l.hr
  let s := s.when (reads && src.any (fun p => p.buf.isSome && (s.refSum l.f p x b).isNone)) (fun s =>
    s.put (.ref .STATUS_SB_BAD) 1 l.ch)
  let s := fillBlock l.ch l.f x b (fun pl X Y => s.spatialSmp l.ch l.f src l.c0 l.c1 l.hl l.hr x b pl X Y) s
  setBlock l.ch l.par l.f x b ⟨2, 1, 0, !l.enc, 0, 0, 0, 0, 0, 0, 0, 0, false, pois, 0, 0, l.pic⟩ s

/-- A block is concealed (R179, R180). `pois` records that its prediction read poison (R173).
DEDUCED, log 79. -/
def concealBlock (l : Lost) (x b : Nat) (pois : Bool) (s : State) : State :=
  let s := (s.when (!l.enc) (fun s => s.bump (.ref .CNT) l.ch 6)).put (.ref .xCONC) 1 l.ch 0 l.par
  let slot := s.latest l.ch (s.fitting l.ch l.f)
  let src := slot.bind (s.slotPic l.ch)
  match slot, src with
  | some k, some r =>
    if l.isI then concealSpatial l src x b pois s
    else
      let sb := s.refSum l.f r x b
      let s := s.when sb.isNone (fun s => s.put (.ref .STATUS_SB_BAD) 1 l.ch)
      let a := avail l.f.cols l.c0 l.c1 x b
      let up := s.sum l.ch x (b - 1)
      let ofAbove := if a.above && up.kind == 1 && decide (2 ≤ up.typ) && up.r0 == k then (up.x0, up.y0) else ((0 : Int), (0 : Int))
      let v := match sb with
        | some m => if m.typ ≠ 1 ∧ 0 < m.age0 then (scaleMv m.x0 m.age0, scaleMv m.y0 m.age0) else ofAbove
        | none => ofAbove
      let v := (clip3 (-256) 256 v.1, clip3 (-48) 48 v.2)
      if (s.poisonRead l.f r x b v) = [] then
        let s := fillBlock l.ch l.f x b (fun pl X Y => s.interPred l.f [(r, v.1, v.2)] pl X Y) s
        setBlock l.ch l.par l.f x b ⟨2, 2, 0, !l.enc, k, 0, 0, v.1, v.2, 0, 0, 0, false, pois, 1, 0, l.pic⟩ s
      else concealSpatial l src x b pois s
  | _, _ => concealSpatial l none x b pois s

/-- The blocks of a stripe in coding order (R76): column and block row. -/
def codingOrder (row c0 c1 : Nat) : List (Nat × Nat) :=
  [2 * row, 2 * row + 1].flatMap (fun b => (List.range (c1 - c0)).map (fun i => (c0 + i, b)))

/-- Every block of a stripe is concealed in coding order (R179). -/
def concealStripe (l : Lost) (row : Nat) (s : State) : State :=
  forEach (codingOrder row l.c0 l.c1) (fun p s => concealBlock l p.1 p.2 false s) s

-- Output flags and damage (R182, R92)

/-- Bits of a slice row's flag word. -/
def flLOSS : Nat := 0
def flPOISON : Nat := 1
def flSUBST : Nat := 2
def flGREY : Nat := 3
def flTRUNC : Nat := 4
def flHASH : Nat := 5
def flHDR_LOST : Nat := 6
def flSRC_POISON : Nat := 7
def flINHERITED : Nat := 8

/-- A flag of row `row` of the picture of parity `k`: the row's word, the picture's, `FLAGGED` and its source (R182,
R359). -/
def flagRow (ch row k bit pic : Nat) (s : State) : State :=
  let w := s.get (.ref .xROWF) ch row k
  let set := fun v : Nat => if bitOf v bit then v else v + 2 ^ bit
  let s := (s.put (.ref .xROWF) (set w) ch row k).put (.ref .xPICF) (set (s.get (.ref .xPICF) ch 0 k)) ch 0 k
  s.when (w == 0) (fun s => evPulse (8 * ch + 3) (pic % 2 ^ 14) (s.put (.ref .STATUS_FLAGGED) 1 ch))

/-- Damage of a row for a reason of R90, gathered for the picture's request (R92). -/
def noteDamage (ch row k reason : Nat) (s : State) : State :=
  let a := s.get (.ref .xDMG_A) ch 0 k
  let r := s.get (.ref .xREAS) ch 0 k
  let s := s.put (.ref .xDMG_A) (if a = 0 then row + 1 else min a (row + 1)) ch 0 k
  let s := s.put (.ref .xDMG_B) (max (s.get (.ref .xDMG_B) ch 0 k) (row + 1)) ch 0 k
  s.put (.ref .xREAS) (if bitOf r reason then r else r + 2 ^ reason) ch 0 k

/-- `REF_OUT_FLAGS` takes the words of a completed picture (R182).
DEDUCED, log 80. -/
def publishFlags (ch pic k : Nat) (s : State) : State :=
  let w := s.get (.ref .xPICF) ch 0 k
  let fs : List Ref := [.OUT_FLAGS_LOSS, .OUT_FLAGS_POISON, .OUT_FLAGS_SUBST, .OUT_FLAGS_GREY, .OUT_FLAGS_TRUNC,
    .OUT_FLAGS_HASH, .OUT_FLAGS_HDR_LOST, .OUT_FLAGS_SRC_POISON, .OUT_FLAGS_INHERITED]
  let s := forEach fs.zipIdx (fun f s => s.putB (.ref f.1) (bitOf w f.2) ch) s
  s.put (.ref .OUT_FLAGS_PIC_ID) pic ch

end Sys2Proof.Machine
end

