-- ==== Sys2Proof/Machine/Hdr.lean ====
section
/-!
DEFINITION. The picture header of a decode channel (R72, R87, R88, R95, R166): the copies that arrive, which of them is taken,
and the format and references that it gives the picture.
-/

namespace Sys2Proof.Machine

-- Reassembly (R87)

/-- The byte at an offset among the fragments received, from the first that holds it. -/
def fragByte (l : List Frag) (i : Nat) : Option Byte :=
  l.findSome? (fun f => if f.ofs ≤ i ∧ i < f.ofs + f.body.length then f.body[i - f.ofs]? else none)

/-- Every element of a list, if all are there. -/
def allSome {α : Type} : List (Option α) → Option (List α)
  | [] => some []
  | none :: _ => none
  | some a :: t => (allSome t).map (a :: ·)

/-- The bytes that fragments make, if they are all there and agree where they overlap (R87). -/
def assemble (l : List Frag) : Option (List Byte) :=
  match l.find? (·.stop) with
  | none => none
  | some e =>
    match allSome ((List.range (e.ofs + e.body.length)).map (fragByte l)) with
    | none => none
    | some b => if l.all (fun f => slice b f.ofs f.body.length == f.body) then some b else none

/-- The packets of a picture by its timestamp, with their ELC payloads. -/
def State.fragsOf (s : State) (ch ts : Nat) : List (Inp × Rtp × Frag) :=
  (s.received ch).filterMap (fun p => if p.2.ts = ts then (readFrag p.2.body).map (fun f => (p.1, p.2, f)) else none)

/-- The copies of the picture header among a picture's packets, in one packet or assembled of several, each with its PIC_ID and
SSRC (R87). -/
def hdrCopies (l : List (Inp × Rtp × Frag)) : List (List Byte × Nat × Nat) :=
  let h := l.filter (fun p => p.2.2.hdr)
  let whole := h.filter (fun p => p.2.2.start && p.2.2.stop)
  let parts := h.filter (fun p => !(p.2.2.start && p.2.2.stop))
  whole.map (fun p => (p.2.2.body, p.2.2.picId, p.2.1.ssrc)) ++
  (match parts with
   | [] => []
   | p :: _ => match assemble ((parts.filter (fun q => q.2.2.picId == p.2.2.picId)).map (·.2.2)) with
     | some b => [(b, p.2.2.picId, p.2.1.ssrc)]
     | none => [])

/-- The complete copies: those that are whole and whose pic_count agrees with the PIC_ID of their packets (R84, R87). -/
def hdrComplete (l : List (Inp × Rtp × Frag)) : List (List Byte × Nat × Nat) :=
  (hdrCopies l).filter (fun c => hdrWhole c.1 && beAt c.1 9 4 % 256 == c.2.1)

-- The header of the picture in work

/-- The configured format of a channel's picture. -/
def State.cfgFmt (s : State) (ch n : Nat) : Fmt := (s.picWork ch n).fmt

/-- The header in force for picture `n` of an ELC channel; none where the picture is lost (R88). -/
def State.hdrOf (s : State) (ch n : Nat) : Option PicHdr :=
  if s.get (.ref .xH_OK) ch 0 (n % 2) = 1 then
    let w := s.picWork ch n
    readHdr (beBytes 32 (s.get (.ref .xHDR) ch 0 (n % 2))) w.w w.h
  else none

/-- The parameter sets of an HEVC picture, if its slice segments have named some that are not refused. -/
def State.picSets (s : State) (ch n : Nat) : Option (Pps × Sps) :=
  match s.get (.ref .xPS) ch 0 (n % 2) with
  | 0 => none
  | p + 1 => s.goodSets ch p

/-- The format of a picture after its conformance window, as an SPS gives it (R130). -/
def Sps.fmt (q : Sps) : Fmt := ⟨q.w, q.h, false, q.dy, q.chroma == 1, q.dc⟩

/-- The format, layout and pic_count with which picture `n` is coded, decoded or concealed. -/
def State.picFmt (s : State) (ch n : Nat) : Fmt × List Nat × Nat :=
  if (s.picWork ch n).hevc then
    (match s.picSets ch n with
     | some x => if (s.picWork ch n).enc then s.cfgFmt ch n else x.2.fmt
     | none => s.cfgFmt ch n, [], n % 2 ^ 32)
  else match s.hdrOf ch n with
    | some h => (h.fmt, h.units, h.count)
    | none => (s.cfgFmt ch n, [], n % 2 ^ 32)

/-- The substitute of R176. -/
def State.substitute (s : State) (ch : Nat) (f : Fmt) : RefPic :=
  match s.latest ch ((s.fitting ch f).filter (fun k => s.flag (.ref .SLOT_COMPLETE) ch k)) with
  | some k => ⟨some (s.get (.ref .xSL_BUF) ch k - 1), s.get (.ref .xSL_PIC) ch k, true⟩
  | none => ⟨none, 0, true⟩

/-- What a reference slot gives the current picture (R74, R104, R176): its content, or a substitute with the reason of
R177. -/
def State.refFor (s : State) (ch : Nat) (h : PicHdr) (r : Nat) : RefPic × Option Nat :=
  match s.slotPic ch r with
  | some p =>
    if bitOf h.valid r && s.slotFits ch r h.fmt && p.pic % 65536 == h.refId.getD r 0 then (p, none)
    else (s.substitute ch h.fmt, some 2)
  | none => (s.substitute ch h.fmt, some 4)

/-- A complete copy of the header of picture `n` is taken (R87, R166): one with a reserved value, or a size or a layout that the
channel does not take, loses the picture; otherwise the header is kept, its defects that only count are counted (R95), and a
working buffer is taken where the picture is stored. -/
def takeHdr (ch n : Nat) (b : List Byte) (ssrc : Nat) (s : State) : State :=
  let k := n % 2
  let w := s.picWork ch n
  match readHdr b w.w w.h with
  | none => s.put (.ref .xH_OK) 2 ch 0 k
  | some h =>
    let s := ((s.put (.ref .xHDR) (beNat b) ch 0 k).put (.ref .xH_OK) 1 ch 0 k).put (.ref .xMSSRC) ssrc ch
    let s := s.bump (.ref .CNT) ch 11 0 ((if 2 ≤ h.prim then 1 else 0) + (if 4 ≤ h.trans then 1 else 0) +
      (if !h.isP && h.valid != 0 then 1 else 0))
    if h.mark = 0 then s
    else
      let (ok, s) := takeWork ch n h.fmt s
      if ok then s else (s.put (.ref .STATUS_NO_BUFFER) 1 ch).put (.ref .xNOBUF) 1 ch 0 k

/-- The first complete copy of the header of picture `n` is taken as soon as it is there (R87). -/
def tryHdr (ch n : Nat) (s : State) : State :=
  let w := s.picWork ch n
  if s.get (.ref .xH_OK) ch 0 (n % 2) ≠ 0 then s
  else match hdrComplete (s.fragsOf ch (s.rtpTime w.dom n)) with
    | [] => s
    | c :: _ => takeHdr ch n c.1 c.2.2 s

/-- A packet of a picture header has arrived (R87): it may complete the first copy, or make a later one that differs from it, which
is counted. -/
def hdrArrives (ch n : Nat) (i : Inp) (f : Frag) (s : State) : State :=
  if s.get (.ref .xH_OK) ch 0 (n % 2) = 0 then tryHdr ch n s
  else
    let w := s.picWork ch n
    let l := s.fragsOf ch (s.rtpTime w.dom n)
    let mine := if f.start && f.stop then l.filter (fun p => p.1 == i)
      else l.filter (fun p => p.2.2.hdr && !(p.2.2.start && p.2.2.stop))
    s.when ((hdrComplete mine).any (fun c => beNat c.1 != s.get (.ref .xHDR) ch 0 (n % 2)) &&
      s.get (.ref .xH_OK) ch 0 (n % 2) == 1) (fun s => s.bump (.ref .CNT) ch 2)

end Sys2Proof.Machine
end

