-- ==== Sys2Proof/Machine/Parser.lean ====
section
/-!
DEFINITION. The ingress parser (R214 to R222): the headers of a pass, the fields that they give, the flags, and the
point at which a second tunnel level is recirculated.
-/

namespace Sys2Proof.Machine

/-- The header that the parser meets next. -/
inductive Hdr where
  | eth
  | mpls
  | ip4
  | ip6
  | afterMpls
  | udp
  | gre
  | vxlan
  | rtp
  | ptp
  | stop
  deriving DecidableEq, Repr

/-- Where a second tunnel level sends a frame (R219): the offset at which pass 2 starts, its first header, and the
second tunnel's type and identifier. -/
structure Recur where
  ofs    : Nat
  start  : Nat
  tunTyp : Nat
  tunId  : Nat
  deriving DecidableEq, Repr

/-- A parse in progress. `fields` lists the catalogue fields of R222 whose header was parsed; `poison` lists the
frame's poisoned bytes; `ver`, `src` and `dst` are those of the last IP header, `sport` and `dport` of the last UDP
header. -/
structure Parse where
  data   : List Byte
  start  : Nat
  depth  : Nat
  pass   : Nat
  pos    : Nat
  hdr    : Hdr
  fields : List (Nat × Nat)
  flags  : Nat
  tuns   : Nat
  ips    : Nat
  first  : Bool
  inner  : Bool
  proto  : Nat
  kind   : Nat
  rtpAt  : Option Nat
  extAt  : Option Nat
  ptpAt  : Option Nat
  ver    : Nat
  src    : Nat
  dst    : Nat
  sport  : Nat
  dport  : Nat
  recur  : Option Recur
  poison : List Nat
  deriving DecidableEq, Repr

/-- What the parser is configured with (R216, R217, R219, R239). Each range is its lowest and highest port and its
kind; only enabled ranges are listed, the lowest number first. -/
structure ParseCfg where
  depth   : Nat
  recirc  : Bool
  tpidX   : Nat
  vxlan   : Nat
  ranges  : List (Nat × Nat × Nat)
  deriving DecidableEq, Repr

/-- The parser settings of a die. -/
def State.parseCfg (s : State) (d : Nat) : ParseCfg where
  depth := clampTo 64 256 (s.get (.prs .PARSE_CFG_DEPTH) d)
  recirc := s.flag (.prs .PARSE_CFG_RECIRC_EN) d
  tpidX := s.get (.prs .TUN_CFG_TPID_X) d
  vxlan := s.get (.prs .TUN_CFG_VXLAN_PORT) d
  ranges := ((List.range 8).filter (bitOf (s.get (.prs .RTP_KIND_EN) d))).map (fun n =>
    (s.get (.prs .RTP_RANGE_LO) d n, s.get (.prs .RTP_RANGE_HI) d n, bitsOf (s.get (.prs .RTP_KIND_KIND) d) (2 * n) 2))

/-- A field given its value, unless an earlier header of the pass has given it. -/
def Parse.take (p : Parse) (f v : Nat) : Parse :=
  if p.fields.any (fun x => x.1 == f) then p else { p with fields := p.fields ++ [(f, v)] }

/-- A flag set (R215). -/
def Parse.flag (p : Parse) (b : Nat) : Parse := if bitOf p.flags b then p else { p with flags := p.flags + 2 ^ b }

/-- Parsing ends. -/
def Parse.stop (p : Parse) : Parse := { p with hdr := .stop }

/-- Parsing goes on with a header `n` bytes further. -/
def Parse.next (p : Parse) (n : Nat) (h : Hdr) : Parse := { p with pos := p.pos + n, hdr := h }

/-- The byte and the 16-bit number at an offset from the present header. -/
def Parse.u8 (p : Parse) (o : Nat) : Nat := byteAt p.data (p.pos + o)
def Parse.u16 (p : Parse) (o : Nat) : Nat := beAt p.data (p.pos + o) 2

/-- A poisoned byte lies among `n` bytes from the present position (R215). -/
def Parse.bad (p : Parse) (n : Nat) : Bool := p.poison.any (fun b => decide (p.pos ≤ b ∧ b < p.pos + n))

/-- A header of `n` bytes that ends beyond the depth sets TRUNC; one that ends within it but beyond the frame sets SHORT
(R216). Parsing ends there, and at a header that holds a poisoned byte (R215).
DEDUCED, log 45. -/
def Parse.need (p : Parse) (n : Nat) (k : Parse → Parse) : Parse :=
  if p.start + p.depth < p.pos + n then (p.flag 0).stop
  else if p.data.length < p.pos + n then (p.flag 7).stop
  else if p.bad n then p.stop
  else k p

/-- The header that an EtherType announces (R214). -/
def etherHdr (e : Nat) : Hdr :=
  if e = 0x8847 ∨ e = 0x8848 then .mpls
  else if e = 0x0800 then .ip4
  else if e = 0x86DD then .ip6
  else .stop

/-- The tags after an Ethernet header (R214): `n` have been parsed, and the EtherType `e` stands before the position. -/
def parseTags (cfg : ParseCfg) (main : Bool) : Nat → Nat → Nat → Parse → Parse
  | 0, _, e, p => { (if main then p.take 3 e else p) with hdr := etherHdr e }
  | f + 1, n, e, p =>
    if e = 0x8100 ∨ e = 0x88A8 ∨ (cfg.tpidX ≠ 0 ∧ e = cfg.tpidX) then
      if 3 ≤ n then ((if main then p.take 3 e else p).flag 1).stop
      else
        let q := p.need 4 (fun p =>
          let p := if main && n == 0 then (p.take 4 (p.u16 0 % 4096)).take 6 (p.u16 0 / 8192) else p
          let p := if main && n == 1 then p.take 5 (p.u16 0 % 4096) else p
          p)
        if q.hdr = .stop then (if main then q.take 3 e else q)
        else parseTags cfg main f (n + 1) (q.u16 2) (q.next 4 .eth)
    else { (if main then p.take 3 e else p) with hdr := etherHdr e }

/-- An Ethernet header with its tags. Only the first one of a pass gives fields 1 to 6 (R222). -/
def parseEth (cfg : ParseCfg) (p : Parse) : Parse :=
  p.need 14 (fun p =>
    let main := !p.fields.any (fun x => x.1 == 1)
    let e := p.u16 12
    let p := if main then (p.take 1 (beAt p.data p.pos 6)).take 2 (beAt p.data (p.pos + 6) 6) else p
    parseTags cfg main 4 0 e (p.next 14 .eth))

/-- A label stack (R214): `n` labels have been parsed. -/
def parseMpls (main : Bool) : Nat → Nat → Parse → Parse
  | 0, _, p => (p.flag 2).stop
  | f + 1, n, p =>
    p.need 4 (fun p =>
      let w := beAt p.data p.pos 4
      let p := if main && n == 0 then p.take 7 (w / 4096) else p
      if bitOf w 8 then (if main then p.take 8 (w / 4096) else p).next 4 .afterMpls
      else parseMpls main f (n + 1) (p.next 4 .mpls))

/-- The ones' complement sum of an IPv4 header is right (RFC 791). -/
def ipSumOk (h : List Byte) : Bool := inetSum h == 0

/-- An IPv4 address as field 10 gives it (R222). -/
def mapped4 (a : Nat) : Nat := 0xFFFF * 2 ^ 32 + a

/-- The fields of an IP header (R222): 9 to 13 from the first of the pass, 25 and 26 from the first after the first
tunnel header in pass 1.
PRESUMED, log 44. -/
def ipFields (ver src dst proto dscp : Nat) (p : Parse) : Parse :=
  let first := p.ips == 0
  let inner := p.pass == 0 && p.tuns != 0 && !p.fields.any (fun x => x.1 == 25)
  let q := if first then ((((p.take 9 ver).take 10 src).take 11 dst).take 12 proto).take 13 dscp else p
  let q := if inner then (q.take 25 src).take 26 dst else q
  { q with ips := q.ips + 1, first := first, inner := inner, ver := ver, src := src, dst := dst }

/-- The protocol that follows an IP header (R214). A tunnel level of IP in IP has no header of its own (R219). -/
def protoHdr (n : Nat) : Hdr :=
  match n with
  | 17 => .udp
  | 47 => .gre
  | 4 => .ip4
  | 41 => .ip6
  | _ => .stop

/-- A tunnel level (R219, R221): the first of pass 1 gives fields 23 and 24; a second one is recirculated, or sets TUNNEL2;
one of pass 2 sets TUNNEL3. `known` tells whether the parser recognises the header it carries. -/
def tunnel (cfg : ParseCfg) (typ ident len : Nat) (h : Hdr) (p : Parse) : Parse :=
  let known := h != .stop
  if p.pass ≠ 0 then (p.flag 9).stop
  else if p.tuns = 0 then { ((p.take 23 typ).take 24 ident).next len h with tuns := 1 }
  else if !known then p.stop
  else if cfg.recirc then
    let st := match h with
      | .ip4 => 1
      | .ip6 => 2
      | _ => 0
    { p.stop with recur := some ⟨p.pos + len, st, typ, ident⟩ }
  else (p.flag 8).stop

/-- What follows an IP header whose protocol is `n`, `len` bytes further. -/
def afterIp (cfg : ParseCfg) (n len : Nat) (p : Parse) : Parse :=
  let h := protoHdr n
  if h = .ip4 ∨ h = .ip6 then tunnel cfg 3 0 0 h (p.next len h) else p.next len h

/-- An IPv4 header (R214, R215). -/
def parseIp4 (cfg : ParseCfg) (p : Parse) : Parse :=
  p.need 1 (fun p =>
    let len := 4 * (p.u8 0 % 16)
    if len < 20 then (p.flag 7).stop
    else p.need len (fun p =>
      let frag := p.u16 6
      let p := ipFields 4 (mapped4 (beAt p.data (p.pos + 12) 4)) (mapped4 (beAt p.data (p.pos + 16) 4)) (p.u8 9) (p.u8 1 / 4) p
      let p := if ipSumOk (slice p.data p.pos len) then p else p.flag 5
      let p := if 20 < len then p.flag 6 else p
      let p := if frag % 16384 = 0 then p else p.flag 4
      if frag % 8192 = 0 then afterIp cfg (p.u8 9) len p else p.stop))

/-- The extension headers of IPv6 (R214): 0, 43 and 60 with a length field, 44 of 8 bytes. -/
def ext6 (n : Nat) : Bool := n == 0 || n == 43 || n == 44 || n == 60

/-- An extension header of another type (R215): those of the IANA registry.
PRESUMED, log 44. -/
def ext6Other (n : Nat) : Bool := [50, 51, 135, 139, 140, 253, 254].contains n

/-- The extension headers: `k` have been skipped, `nh` is the next header, and the position is at it.
PRESUMED, log 44. -/
def parseExt (cfg : ParseCfg) : Nat → Nat → Nat → Parse → Parse
  | 0, _, nh, p => afterIp cfg nh 0 p
  | f + 1, k, nh, p =>
    if ext6Other nh then (p.flag 3).stop
    else if !ext6 nh then afterIp cfg nh 0 p
    else if 2 ≤ k then (p.flag 3).stop
    else
      let q := p.need 8 (fun p =>
        p.need (if nh = 44 then 8 else 8 + 8 * p.u8 1) (fun p =>
          if nh = 44 ∧ (p.u16 2 / 8 ≠ 0 ∨ p.u16 2 % 2 = 1) then
            let p := p.flag 4
            if p.u16 2 / 8 ≠ 0 then p.stop else p
          else p))
      if q.hdr = .stop then q
      else parseExt cfg f (k + 1) (q.u8 0) (q.next (if nh = 44 then 8 else 8 + 8 * q.u8 1) .ip6)

/-- An IPv6 header with its extension headers. -/
def parseIp6 (cfg : ParseCfg) (p : Parse) : Parse :=
  p.need 40 (fun p =>
    let nh := p.u8 6
    let p := ipFields 6 (beAt p.data (p.pos + 8) 16) (beAt p.data (p.pos + 24) 16) nh (p.u16 0 / 16 % 256 / 4) p
    parseExt cfg 3 0 nh (p.next 40 .ip6))

/-- After a label stack the first nibble tells IPv4 from IPv6 (R214). -/
def parseNibble (p : Parse) : Parse :=
  p.need 1 (fun p =>
    let v := p.u8 0 / 16
    { p with hdr := if v = 4 then .ip4 else if v = 6 then .ip6 else .stop })

/-- The byte that recognises a header lies within the frame and the depth, and is not poisoned. -/
def Parse.sees (p : Parse) (o : Nat) : Bool :=
  decide (p.pos + o < p.start + p.depth ∧ p.pos + o < p.data.length) && !p.bad (o + 1)

/-- The kind of the lowest enabled range that holds a port (R217). -/
def rtpKind (cfg : ParseCfg) (port : Nat) : Option Nat :=
  (cfg.ranges.find? (fun r => decide (r.1 ≤ port ∧ port ≤ r.2.1))).map (·.2.2)

/-- A UDP header, and what its destination port announces (R214). -/
def parseUdp (cfg : ParseCfg) (p : Parse) : Parse :=
  p.need 8 (fun p =>
    let port := p.u16 2
    let p := if p.first then (p.take 14 (p.u16 0)).take 15 port else p
    let p := if p.inner then p.take 27 port else p
    let p := { p.next 8 .stop with sport := p.u16 0, dport := port }
    if port = cfg.vxlan ∧ (!p.sees 0 ∨ bitOf (p.u8 0) 3) then { p with hdr := .vxlan }
    else if port = 319 ∨ port = 320 then { p with hdr := .ptp }
    else match rtpKind cfg port with
      | some k => if p.sees 0 && p.u8 0 / 64 != 2 then p.flag 11 else { p with hdr := .rtp, kind := k }
      | none => p)

/-- The header that a GRE protocol type announces. -/
def greHdr (t : Nat) : Hdr :=
  if t = 0x6558 then .eth else if t = 0x0800 then .ip4 else if t = 0x86DD then .ip6 else .stop

/-- A GRE header (R214): version 0 with routing-present 0. -/
def parseGre (cfg : ParseCfg) (p : Parse) : Parse :=
  p.need 4 (fun p =>
    let w := p.u16 0
    if w % 8 ≠ 0 ∨ bitOf w 14 then p.stop
    else
      let c := if bitOf w 15 then 4 else 0
      let k := if bitOf w 13 then 4 else 0
      let q := if bitOf w 12 then 4 else 0
      p.need (4 + c + k + q) (fun p =>
        tunnel cfg 2 (if k = 4 then beAt p.data (p.pos + 4 + c) 4 else 0) (4 + c + k + q) (greHdr (p.u16 2)) p))

/-- A VXLAN header. -/
def parseVxlan (cfg : ParseCfg) (p : Parse) : Parse :=
  p.need 8 (fun p => tunnel cfg 1 (beAt p.data (p.pos + 4) 3) 8 .eth p)

/-- The length of an ST 2110-20 payload header: SRD headers follow one another while the continuation bit is set, up to
three (R214). -/
def srdLen (p : Parse) : Nat := if !bitOf (p.u16 6) 15 then 8 else if !bitOf (p.u16 12) 15 then 14 else 20

/-- The payload header of an RTP packet of kind 1 or 2. -/
def parsePayload (seq : Nat) (p : Parse) : Parse :=
  if p.kind = 1 then
    p.need 8 (fun p => p.need (srdLen p) (fun p =>
      let p := ((p.take 18 (p.u16 0 * 65536 + seq)).take 19 (p.u16 4 % 32768)).take 20 (p.u16 6 % 32768)
      { p.stop with extAt := some p.pos }))
  else if p.kind = 2 then
    p.need 8 (fun p => { (p.take 18 (p.u16 5 * 65536 + seq)).stop with extAt := some p.pos })
  else p.stop

/-- An RTP header with its CSRC entries and its extension (R214, R217).
DEDUCED, log 45. -/
def parseRtp (p : Parse) : Parse :=
  p.need 12 (fun p =>
    let a := 12 + 4 * (p.u8 0 % 16)
    let x := bitOf (p.u8 0) 4
    p.need (if x then a + 4 else a) (fun p =>
      let n := if x then a + 4 + 4 * p.u16 (a + 2) else a
      p.need n (fun p =>
        let seq := p.u16 2
        let p := (((p.take 16 (p.u8 1 % 128)).take 17 (beAt p.data (p.pos + 8) 4)).take 30 p.kind).flag 10
        let p := { p with rtpAt := some p.pos }
        let q := parsePayload seq (p.next n .rtp)
        (q.take 18 seq).stop)))

/-- A PTP header. -/
def parsePtp (p : Parse) : Parse :=
  p.need 34 (fun p => { (((p.take 21 (p.u8 0 % 16)).take 22 (p.u8 4)).flag 12).stop with ptpAt := some p.pos })

/-- One header. -/
def parseOne (cfg : ParseCfg) (p : Parse) : Parse :=
  match p.hdr with
  | .eth => parseEth cfg p
  | .mpls => parseMpls (!p.fields.any (fun x => x.1 == 7)) 4 0 p
  | .ip4 => parseIp4 cfg p
  | .ip6 => parseIp6 cfg p
  | .afterMpls => parseNibble p
  | .udp => parseUdp cfg p
  | .gre => parseGre cfg p
  | .vxlan => parseVxlan cfg p
  | .rtp => parseRtp p
  | .ptp => parsePtp p
  | .stop => p

/-- The headers of a pass, one after the other. Each takes at least a byte of the depth or is one of the few that take
none, so 24 steps end every pass. -/
def parseLoop (cfg : ParseCfg) : Nat → Parse → Parse
  | 0, p => p
  | n + 1, p => if p.hdr = .stop then p else parseLoop cfg n (parseOne cfg p)

/-- A pass over a frame: from byte `start` with the header `h`, on local interface `i` (R214, R219, R222). `tun` is the
second tunnel's type and identifier for pass 2, and `poison` the frame's poisoned bytes. -/
def parsePass (cfg : ParseCfg) (data : List Byte) (start : Nat) (h : Hdr) (pass i : Nat) (tun : Option (Nat × Nat))
    (poison : List Nat) : Parse :=
  let p : Parse := ⟨data, start, cfg.depth, pass, start, h, [], 0, 0, 0, false, false, 0, 0, none, none, none, 0, 0, 0, 0,
    0, none, poison⟩
  let p := match tun with
    | some t => (p.take 23 t.1).take 24 t.2
    | none => p
  let p := parseLoop cfg 24 p
  let p := if poison.any (fun b => decide (start ≤ b ∧ b < start + cfg.depth)) then p.flag 13 else p
  (((p.take 0 i).take 28 p.flags).take 29 pass)

/-- The catalogue field that a node reads: in pass 2 fields 25 to 27 are fields 10, 11 and 15 (R222). -/
def Parse.fieldId (p : Parse) (f : Nat) : Nat :=
  if p.pass = 0 then f else if f = 25 then 10 else if f = 26 then 11 else if f = 27 then 15 else f

/-- The header that carries a field was parsed.
DEDUCED, log 41. -/
def Parse.has (p : Parse) (f : Nat) : Bool := p.fields.any (fun x => x.1 == p.fieldId f)

/-- The value of a field, 0 where its header was not parsed (R222). -/
def Parse.val (p : Parse) (f : Nat) : Nat :=
  match p.fields.find? (fun x => x.1 == p.fieldId f) with
  | some x => x.2
  | none => 0

/-- What stays with the frame after the parser. -/
def Parse.info (p : Parse) : Meta := ⟨p.rtpAt, p.kind, p.extAt, p.flags, p.ver, p.src, p.dst, p.sport, p.dport⟩

/-- A frame with any flag that PARSE_LIMIT counts (R215). -/
def Parse.limited (p : Parse) : Bool := p.flags % 16 != 0 || bitOf p.flags 8 || bitOf p.flags 9

end Sys2Proof.Machine
end

