-- ==== Sys2Proof/Machine/Ptp.lean ====
section
/-!
DEFINITION. PTP messages in frames (R42, R218): a message parsed on the interface of a port's PTP instance is copied to the
time base, which reads it as IEEE 1588-2019 lays it out.
-/

namespace Sys2Proof.Machine

/-- The multicast addresses of PTP over UDP (R42), as the parser gives an address. -/
def ptpGroups : List Nat :=
  [mapped4 0xE0000181, mapped4 0xE000006B, 0xFF0E * 2 ^ 112 + 0x181, 0xFF02 * 2 ^ 112 + 0x6B]

/-- The path of a PTP message that a frame carries. -/
def ptpPath (iface : Nat) (i : Meta) (domain : Nat) : PtpPath :=
  ⟨if i.ver = 4 then .udp4 else .udp6, !ptpGroups.contains i.dst, Fin.ofNat 4 iface, domain⟩

/-- A PTP timestamp of 10 bytes, in ns.
PRESUMED, log 104. -/
def ptpStamp (b : List Byte) (o : Nat) : Int := ((beAt b o 6 * 1000000000 + beAt b (o + 6) 4 : Nat) : Int)

/-- The correctionField, in ns.
PRESUMED, log 104. -/
def ptpCorr (b : List Byte) : Int := signedOf 64 (beAt b 8 8) / 65536

/-- A message answers the last delay request of a port.
PRESUMED, log 104. -/
def State.answersReq (s : State) (p : Nat) (b : List Byte) : Bool :=
  s.get (.trs .xREQ_SEQ) p == beAt b 30 2 && beAt b 44 10 == Config.ptpIdentity p % 2 ^ 80

/-- A Delay_Resp measures the path delay as half of both directions together.
PRESUMED, log 104. -/
def ptpDelayResp (p : Nat) (path : PtpPath) (b : List Byte) (s : State) : State :=
  let d := intDecode (s.get (.trs .xMS_DIFF) p) + (ptpStamp b 34 - intDecode (s.get (.trs .xREQ_TX) p) - ptpCorr b)
  s.when (s.answersReq p b) (delayRespMsg p ⟨path, false, d / 2, signedOf 8 (byteAt b 33)⟩)

/-- A Pdelay_Resp: the turnaround of a one-step peer lies in its correction; a two-step peer sends it in a Follow_Up.
PRESUMED, log 104. -/
def ptpPdelayResp (p : Nat) (path : PtpPath) (b : List Byte) (s : State) : State :=
  let d := s.rxNs p - intDecode (s.get (.trs .xREQ_TX) p) - ptpCorr b
  s.when (s.answersReq p b) (fun s =>
    if bitOf (byteAt b 6) 1 then
      (s.put (.trs .xPD_SEQ) (beAt b 30 2 + 1) p).put (.trs .xPD_DIFF) (intCode (d + ptpStamp b 34)) p
    else delayRespMsg p ⟨path, true, d / 2, s.int (.trs .xMIN_LOG) p⟩ s)

/-- The Follow_Up of a Pdelay_Resp.
PRESUMED, log 104. -/
def ptpPdelayFollowUp (p : Nat) (path : PtpPath) (b : List Byte) (s : State) : State :=
  let d := intDecode (s.get (.trs .xPD_DIFF) p) - ptpStamp b 34 - ptpCorr b
  s.when (s.get (.trs .xPD_SEQ) p == beAt b 30 2 + 1 && s.answersReq p b) (fun s =>
    delayRespMsg p ⟨path, true, d / 2, s.int (.trs .xMIN_LOG) p⟩ (s.put (.trs .xPD_SEQ) 0 p))

/-- The dataset of an Announce message, most significant member first.
PRESUMED, log 104. -/
def ptpDataset (b : List Byte) : List Nat :=
  [byteAt b 47, byteAt b 48, byteAt b 49, beAt b 50 2, byteAt b 52, beAt b 53 8, beAt b 61 2]

/-- A PTP message copied to the time base (R218): it acts as its command does. A message of another type, or one that the
frame cuts short, is ignored, as management messages are (R42).
PRESUMED, log 104. -/
def ptpMessage (p : Nat) (path : PtpPath) (b : List Byte) (s : State) : State :=
  let m : PtpTiming := ⟨path, bitOf (byteAt b 6) 1, beAt b 30 2, ptpStamp b 34, ptpCorr b⟩
  let t := byteAt b 0 % 16
  if !s.ptpOn p path || decide (b.length < 44) then s
  else if t = 0 then syncMsg p m s
  else if t = 8 then followUpMsg p m s
  else if t = 11 then (if 64 ≤ b.length then announceMsg p ⟨path, ptpDataset b⟩ s else s)
  else if b.length < 54 then s
  else if t = 9 then ptpDelayResp p path b s
  else if t = 3 then ptpPdelayResp p path b s
  else if t = 10 then ptpPdelayFollowUp p path b s
  else s

/-- The PTP message that pass 1 of a frame finds is copied to the time base with the ingress timestamp (R45, R218), unless
the frame carries poison.
DEDUCED, log 109. -/
def ptpCopy (iface : Nat) (q : Parse) (s : State) : State :=
  match q.ptpAt with
  | some a => if q.poison.isEmpty then ptpMessage (iface / 4) (ptpPath iface q.info (byteAt q.data (a + 4))) (q.data.drop a) s
    else s
  | none => s

end Sys2Proof.Machine
end

