-- ==== Sys2Proof/Machine/Deliver.lean ====
section
/-!
DEFINITION. Delivery (R246 to R251, R274, R281, R294, R349): the targets of a frame, the owner that comes to hold its
cells, and the copies that it makes. The frame of every delivery is a chain of cells on its die.
-/

namespace Sys2Proof.Machine

/-- The work of a channel: 0 ELC encode, 1 ELC decode, 2 HEVC encode, 3 HEVC decode (R208). -/
def State.chWork (s : State) (ch : Nat) : Nat := s.chGet (.cch .FMT_WORK) ch

/-- A decode channel. -/
def State.chDecodes (s : State) (ch : Nat) : Bool := s.chWork ch % 2 == 1

/-- Data of a channel is discarded as late (R87, R294). A source line that so goes missing is counted when its row is
taken (R186). -/
def chanLate (ch : Nat) (s : State) : State := s.when (s.chDecodes ch) (fun s => s.bump (.ref .CNT) ch 1)

/-- The picture of a channel that a timestamp names, among the last 32: its number, if its settings are held.
DEDUCED, log 77. -/
def State.tsPic (s : State) (ch ts : Nat) : Option Nat :=
  let now := s.picNow (s.chDom ch)
  ((List.range 32).map (fun a => now - a)).find? (fun n =>
    s.get (.cch .xSNAP) ch 0 (2 + n % 32) == n + 1 && s.rtpTime (s.get (.cch .FMT_DOMAIN) ch 0 (2 + n % 32)) n == ts)

/-- Row `r` of picture `n` of a channel is past its deadline: it is marked so, or the marks are those of a later picture. -/
def State.rowPast (s : State) (ch n r : Nat) : Bool :=
  decide (n + 2 < s.get (.cch .xPIC) ch) || s.flag (.cch .xROW) ch r (n % 2)

/-- An HEVC packet that the receiver discards (R138): a reserved or PACI type, a forbidden bit, or a fragmentation unit that
both starts and ends. -/
def hevcBad (b : List Byte) : Bool :=
  let t := byteAt b 0 / 2 % 64
  decide (b.length < 2) || decide (50 ≤ t) || bitOf (byteAt b 0) 7 || (t == 49 && decide (192 ≤ byteAt b 2))

/-- What becomes of a packet for a decode channel: kept, discarded and counted (counter 0), or late (counter 1) (R87, R88,
R95, R138, R187). An HEVC packet is late once the deadline of the row in which its slice segment begins has passed, and one
that begins no slice segment once that of the last row has.
DEDUCED, log 105. -/
def State.rxFate (s : State) (ch : Nat) (p : Rtp) : Option Nat :=
  let hevc := s.chWork ch == 3
  let pt := clampTo 96 127 (s.chGet (if hevc then .cch .RTP_HEVC_PT else .cch .RTP_ELC_PT) ch)
  let ssrc := s.chGet (.cch .SSRC_SSRC) ch
  if p.pt ≠ pt ∨ (ssrc ≠ 0 ∧ p.ssrc ≠ ssrc) then some 0
  else if hevc then
    if hevcBad p.body then some 0
    else match s.tsPic ch p.ts with
      | some n =>
        let rows := ceilDiv (s.domActive (s.get (.cch .FMT_DOMAIN) ch 0 (2 + n % 32))) 32
        let row := (s.packetRow ch p).getD (rows - 1)
        if s.rowPast ch n (min row (rows - 1)) then some 1 else none
      | none => if tsBefore p.ts (s.rtpTime (s.chDom ch) (s.picNow (s.chDom ch))) then some 1 else none
  else match readFrag p.body with
    | none => some 0
    | some f => match s.tsPic ch p.ts with
      | some n =>
        if s.get (.ref .xH_OK) ch 0 (n % 2) = 2 ∧ s.rowPast ch n 0 then some 0
        else if s.rowPast ch n (if f.hdr then 0 else f.row) then some 1 else none
      | none => if tsBefore p.ts (s.rtpTime (s.chDom ch) (s.picNow (s.chDom ch))) then some 1 else none

/-- A channel receives a frame: its packet waits in the chain's cells until the channel consumes it (R186, R187, R247). A
frame without an RTP header carries nothing for a channel. A decode channel discards what R87, R88, R95 and R138 discard, and
takes a picture header that is complete (R166). -/
def chanTake (ch id : Nat) (s : State) : State :=
  match s.chain? id with
  | some c => match c.info.rtp with
    | some r =>
      match (if s.chDecodes ch then s.rxFate ch (readRtp c.data r) else none) with
      | some k => s.bump (.ref .CNT) ch k
      | none =>
        let s := addRef id { s with inputs := s.inputs ++ [⟨ch, id, r⟩] }
        let p := readRtp c.data r
        match (if s.chWork ch = 1 then readFrag p.body else none), s.tsPic ch p.ts with
        | some f, some n => s.when f.hdr (hdrArrives ch n ⟨ch, id, r⟩ f)
        | _, _ => s
    | none => s
  | none => s

/-- The channels of a die that receive frames of a handle (R247): those that run with it as IN_FLOW. -/
def State.receivers (s : State) (d h : Nat) : List Nat :=
  (List.range 48).filter (fun ch => s.get (.cch .CTRL_HOME_DIE) ch == d && s.chGet (.cch .FLOW_IN_FLOW) ch == h &&
    (s.get (.cch .STATUS_STATE) ch == chRUNNING || s.get (.cch .STATUS_STATE) ch == chLEAVING))

/-- The owner that a DMA queue's frames are charged to (R287, R294); none where the queue is disabled (R332). -/
def State.queueOwner (s : State) (d q : Nat) : Option Nat :=
  match s.get (.dma .Q_CFG_OWNER) d q with
  | 0 => some 56
  | 1 => some 57
  | 2 => some 58
  | _ => none

/-- The frames that wait for a queue of a die. -/
def State.rxWaiting (s : State) (d q : Nat) : Nat := (s.rxs.filter (fun r => r.die == d && r.q == q)).length

/-- A DMA queue may take a frame (R349). -/
def State.rxOpen (s : State) (d q : Nat) : Bool :=
  s.flag (.dma .Q_CFG_EN) d q && s.get (.dma .Q_CFG_MODE) d q == 1 && !s.flag (.dma .Q_STATUS_HALTED) d q &&
  (s.queueOwner d q).isSome && decide (s.rxWaiting d q < 64)

/-- A frame for a DMA queue waits there, or is dropped (R349). -/
def rxAssign (d q : Nat) (h : Option Nat) (id : Nat) (s : State) : State :=
  if s.rxOpen d q then addRef id { s with rxs := s.rxs ++ [⟨d, q, id, h⟩] } else s.bump (.dma .CNT) d 4

/-- A frame for the Ostler waits as an item of class FRAMES, or is shed (R392, R394). -/
def ostFrame (d : Nat) (h : Option Nat) (id : Nat) (s : State) : State :=
  if s.ostSheds d 8 then s.bump (.ost .CNT) d 9 else addRef id { s with rxs := s.rxs ++ [⟨d, 32, id, h⟩] }

/-- How a frame is being delivered: its chain, its traffic class, and for a copy that carries them from its sender the
raster release with its domain and the numbers (R248, R277, R280). `out` marks a channel's output packet. -/
structure Dlv where
  chain  : Nat
  tc     : Nat
  raster : Bool
  due    : Bool
  relAt  : Nat
  ch     : Nat
  dom    : Nat
  row    : Nat
  ix     : Nat
  out    : Bool
  seq    : Nat
  ipid   : Nat
  own    : Nat
  deriving DecidableEq, Repr

/-- A frame that a leaf delivers. -/
def Dlv.plain (id tc : Nat) : Dlv := ⟨id, tc, false, false, 0, 0, 0, 0, 0, false, 0, 0, 0⟩

/-- The targets of a delivery on its die. -/
structure Targets where
  chans  : List Nat
  host   : Option Nat
  ostler : Bool
  outs   : List Nat
  deriving DecidableEq, Repr

/-- The owners that may come to hold the chain, in the order of R294. -/
def State.holders (s : State) (d : Nat) (t : Targets) : List Nat :=
  (t.chans ++ (match t.host with
    | some q => (s.queueOwner d q).toList
    | none => []) ++ (if t.ostler then [58] else []) ++ ((t.outs.head?).map (fun i => 49 + 2 * (i / 4))).toList).eraseDups

/-- The chain passes to the first owner that has room; each owner skipped counts in TRANSFER_DROP (R294). -/
def passHolder (d id : Nat) : List Nat → List Nat → State → List Nat × State
  | [], lost, s => (lost, s)
  | o :: t, lost, s =>
    match moveHolder id o s with
    | some s => (lost, s)
    | none => passHolder d id t (lost ++ [o]) (s.bump (.pdk .CNT) d 8)

/-- A frame delivered under a handle in RASTER mode that is not the output of its channel is dropped (R274). -/
def orphan (d h : Nat) (s : State) : State := flowEvent d h 4 (s.bump (.shp .CNT) d 4)

/-- A copy of the same flow waits for its per-flow bucket on an interface: a later one waits behind it (R277). -/
def State.flowWaits (s : State) (d : Nat) (h : Option Nat) (i : Nat) : Bool :=
  h.isSome && s.copies.any (fun c => c.die == d && c.iface == i && c.handle == h && c.wait)

/-- The interface copies of a frame. An output packet drops where its template is not usable (R280) or is marked bad
(R282). A handle paces them by its per-flow bucket where PACE is set (R246, R266), but for those that carry a raster
release (R274); the caller clears `pace` for a copy that has crossed (R277). -/
def queueOuts (d : Nat) (h : Option Nat) (pace : Bool) (v : Dlv) (outs : List Nat) (len : Nat) (s : State) : State :=
  let mode := match h with
    | some h => if pace && !v.raster then s.bktMode d h else bktOFF
    | none => bktOFF
  let hd := h.getD 0
  if v.out && !outs.isEmpty && !s.tplOk d hd then s.bump (.shp .CNT) d 5
  else if v.out && !outs.isEmpty && s.tplBad d hd then s.bump (.shp .CNT) d 9
  else forEach outs (fun i s =>
    let s := s.when (mode == bktPOLICE) (fun s => s.bump (.shp .CNT) d 5)
    queueCopy ⟨v.chain, d, i, v.tc, h, mode == bktSHAPE || s.flowWaits d h i && s.bktMode d (h.getD 0) == bktSHAPE,
      v.raster, v.due, v.relAt, v.ch, v.dom, v.row, v.ix, v.out, false,
      v.seq, v.ipid, v.own⟩ len s) s

/-- A forwarded frame of a handle with RESEQ takes its number, one for all its copies (R281). -/
def reseq (d h : Nat) (v : Dlv) (s : State) : Dlv × State :=
  let rtp := match s.chain? v.chain with
    | some c => c.info.rtp.isSome
    | none => false
  if s.flag (.shp .TPL_CFG_RESEQ) d h 1 && rtp && v.own == 0 && !v.out then
    let (n, s) := takeSeq d h s
    ({ v with seq := n, own := 1 + d * 4096 + h }, s.bump (.shp .CNT) d 6)
  else (v, s)

/-- The length with which a frame leaves, FCS included: an output packet gains its template (R280). -/
def State.outLen (s : State) (d : Nat) (h : Option Nat) (v : Dlv) : Nat :=
  match s.chain? v.chain with
  | some c => c.data.length + 4 + (if v.out then s.get (.shp .TPL_CFG_L4_OFS) d (h.getD 0) 1 + 8 else 0)
  | none => 0

/-- A frame served to its targets: the chain finds its holder, the targets of every holder skipped are dropped, and the
others take their copies (R294). -/
def serve (d : Nat) (h : Option Nat) (pace : Bool) (v : Dlv) (t : Targets) (s : State) : State :=
  let (lost, s) := passHolder d v.chain (s.holders d t) [] s
  let len := s.outLen d h v
  let s := forEach t.chans (fun ch s => if lost.contains ch then chanLate ch s else chanTake ch v.chain s) s
  let s := match t.host with
    | some q => match s.queueOwner d q with
      | some o => if lost.contains o then s.bump (.dma .CNT) d 4 else rxAssign d q h v.chain s
      | none => s.bump (.dma .CNT) d 4
    | none => s
  let s := s.when (t.ostler && !lost.contains 58) (ostFrame d h v.chain)
  let gone := match t.outs.head? with
    | some i => lost.contains (49 + 2 * (i / 4))
    | none => false
  let s := if gone then forEach t.outs (fun _ s => shapeDrop d h 1 s) s else queueOuts d h pace v t.outs len s
  freeIfUnused v.chain s

/-- The flows that cross between the dies are suspended after a restart or a link retrain: all of them while the link
is down, then those of a raster domain until its next picture boundary (R37). Domain 8 stands for flows of no channel, which
resume at once. -/
def State.crossHeld (s : State) (dom : Nat) : Bool :=
  let x := s.get (.mid .xX_HOLD) dom
  s.flag (.mid .xLINK_DOWN) || !s.dieUp 0 || !s.dieUp 1 ||
  (x != 0 && s.rasterRuns dom && s.ticksAt dom (x - 1) / s.picTicks dom == s.picNow dom)

/-- An enabled merge pair. -/
structure MPair where
  m   : Nat
  a   : Nat
  b   : Nat
  sel : Nat
  deriving DecidableEq, Repr

/-- The enabled merge pairs of a die (R235). -/
def State.mergePairs (s : State) (d : Nat) : List MPair :=
  let all := ((s.store.keysOf (.prs .MERGE_EN)).filter (fun k => k.i == d)).map (fun k =>
    (⟨k.j, s.get (.prs .MERGE_FLOW_A) d k.j, s.get (.prs .MERGE_FLOW_B) d k.j, s.get (.prs .MERGE_SEQ) d k.j⟩ : MPair))
  all.foldl (fun on p =>
    if p.sel = 3 ∨ p.a = p.b ∨ on.any (fun q => q.a == p.a || q.b == p.a || q.a == p.b || q.b == p.b) then on
    else on ++ [p]) []

/-- The handle under which frames of a handle of a die are delivered after the merge (R235). -/
def State.mergedTo (s : State) (d h : Nat) : Nat :=
  match (s.mergePairs d).find? (fun p => p.b == h) with
  | some p => p.a
  | none => h

/-- The domain of a video flow that crosses from die `d` under handle `h` to handle `xh` of the other die: that of a channel
whose IN_FLOW or OUT_FLOW the handle of its die is (R37). -/
def State.flowDom (s : State) (d : Nat) (h xh : Option Nat) : Nat :=
  match (List.range 48).find? (fun ch => s.chStarted ch &&
      (if s.get (.cch .CTRL_HOME_DIE) ch = d then
        h == some (s.chGet (.cch .FLOW_IN_FLOW) ch) || h == some (s.chGet (.cch .FLOW_OUT_FLOW) ch)
      else xh.map (s.mergedTo (1 - d)) == some (s.chGet (.cch .FLOW_IN_FLOW) ch))) with
  | some ch => s.chDom ch
  | none => 8

/-- A copy starts to cross to the other die, or is dropped and counted on the sending die while its flow is stopped
(R37, R248). -/
def sendCross (d : Nat) (h : Option Nat) (xh : Option Nat) (mask : Nat) (v : Dlv) (s : State) : State :=
  if s.crossHeld (s.flowDom d h xh) then s.bump (.shp .CNT) d 1
  else match s.chain? v.chain with
    | some c => { s with cross := s.cross ++ [⟨1 - d, xh, mask, v.tc, c.data, c.iface, c.ts, c.arr, c.poison, c.mark,
        c.info, v.raster, v.due, v.relAt, v.ch, v.dom, v.row, v.ix, v.out, v.seq, v.ipid, v.own⟩] }
    | none => s

/-- The targets that an entry names on its die (R246, R247). -/
def entryTargets (d e : Nat) (chans : List Nat) : Targets :=
  if bitOf e 63 then
    ⟨chans, if bitOf e 29 then some (bitsOf e 24 5) else none, bitOf e 30, (bitsSet 16 e).filter (fun i => ifaceDie i == d)⟩
  else ⟨chans, none, false, []⟩

/-- A frame delivered under a handle of a die (R247, R248). `crossed` marks a copy that has crossed: its entry's XDIE is
not followed again, and the mode of its handle's bucket is not applied to it (R277). Every other frame that is not the
output of its channel is dropped under a handle in RASTER mode (R274).
DEDUCED, log 42. -/
def deliver (d h : Nat) (crossed : Bool) (v : Dlv) (s : State) : State :=
  let e := s.flowEntry d h
  let chans := if v.out then [] else s.receivers d h
  if chans.isEmpty && !bitOf e 63 then freeIfUnused v.chain (s.bump (.fwd .CNT) d 2)
  else
    let t := entryTargets d e chans
    let x := bitOf e 63 && bitOf e 31
    if !v.out && !crossed && s.bktMode d h == bktRASTER then freeIfUnused v.chain (orphan d h s)
    else
      let (v, s) := if t.outs.isEmpty && !x then (v, s) else reseq d h v s
      let s := if !x then s
        else if crossed then s.bump (.fwd .CNT) d 2
        else sendCross d (some h) (some (bitsOf e 32 12)) 0 v s
      serve d (some h) (bitOf e 44 && !crossed) v t s

/-- A frame sent to the interfaces of a mask, by the bridge or by load spreading: each copy is paced by its port-class
bucket, and copies for the other die cross together (R233, R250). -/
def forward (d mask tc id : Nat) (s : State) : State :=
  let outs := bitsSet 16 mask
  let away := outs.filter (fun i => ifaceDie i != d)
  let v := Dlv.plain id tc
  let s := if away.isEmpty then s else sendCross d none none (away.foldl (fun a i => a + 2 ^ i) 0) v s
  serve d none false v ⟨[], none, false, outs.filter (fun i => ifaceDie i == d)⟩ s

end Sys2Proof.Machine
end

