-- ==== Sys2Proof/Machine/Ingress.lean ====
section
/-!
DEFINITION. Ingress (chapter 9): the checks of a received frame, the decision trees and their generations, load
spreading, policing, the ST 2022-7 merge, recirculation, and the copies that cross between the dies.
-/

namespace Sys2Proof.Machine

/-- The end of a walk: a leaf word, or the counter of the case that leads to the default leaf (R225, R226). -/
inductive Walk where
  | leaf (w : Nat)
  | err (cnt : Nat)
  deriving DecidableEq, Repr

def cntTREE_ERR : Nat := 7
def cntNODE_BAD : Nat := 9

/-- The test of a compare node, none for a reserved one (R223). -/
def compareNode (p : Parse) (w : Nat) : Option Bool :=
  let f := bitsOf w 56 6
  let x := Nat.land (bitsOf (p.val f) (16 * bitsOf w 53 3) 16) (bitsOf w 16 16)
  let v := Nat.land (bitsOf w 32 16) (bitsOf w 16 16)
  match bitsOf w 50 3 with
  | 0 => some (x == v)
  | 1 => some (x != v)
  | 2 => some (decide (x < v))
  | 3 => some (decide (v ≤ x))
  | 4 => some (x != 0)
  | 5 => some (p.has f)
  | _ => none

/-- The action of a leaf (R224). -/
def leafAction (w : Nat) : Nat := bitsOf w 58 4

/-- The walk of a pass from a node of a tree (R225). The first argument counts the node visits that are left. -/
def walk (s : State) (d g : Nat) (p : Parse) : Nat → Nat → Nat → Walk
  | 0, _, _ => .err cntTREE_ERR
  | f + 1, tree, ix =>
    if 65535 < ix then .err cntTREE_ERR
    else if s.flag (.prs .xNODE_BAD) d (ix / 4) then .err cntNODE_BAD
    else
      let w := s.get (.prs .xNODE) d ix
      match bitsOf w 62 2 with
      | 0 => match compareNode p w with
        | some true => walk s d g p f tree (w % 65536)
        | some false => walk s d g p f tree (ix + 1)
        | none => .err cntTREE_ERR
      | 1 =>
        if leafAction w = 7 then
          let t := bitsOf w 46 3
          if t ≤ tree ∨ !s.flag (.prs .ROOT_VALID) d g t then .err cntTREE_ERR
          else walk s d g p f t (s.get (.prs .ROOT_ROOT) d g t)
        else if 7 < leafAction w then .err cntTREE_ERR
        else .leaf w
      | _ => .err cntTREE_ERR

/-- The word of a leaf that discards. -/
def dropLeaf : Nat := 2 ^ 62

/-- The default leaf of an interface (R225): one that is no leaf, that continues or that has a reserved action drops.
DEDUCED, log 41. -/
def State.defaultLeaf (s : State) (d g i : Nat) : Nat :=
  let ix := s.get (.prs .IFSET_DEFAULT) d g i
  let w := s.get (.prs .xNODE) d ix
  if s.flag (.prs .xNODE_BAD) d (ix / 4) || bitsOf w 62 2 != 1 || decide (7 ≤ leafAction w) then dropLeaf else w

/-- The leaf that a pass takes under the rule set of a slot, with the counter of its case (R225). -/
def classify (d g i : Nat) (p : Parse) (s : State) : Nat × State :=
  let t := s.get (.prs .IFSET_FIRST_TREE) d g i
  let w := if s.flag (.prs .ROOT_VALID) d g t then walk s d g p 64 t (s.get (.prs .ROOT_ROOT) d g t) else .err cntTREE_ERR
  match w with
  | .leaf w => (w, s)
  | .err k => (s.defaultLeaf d g i, s.bump (.prs .CNT) d k)

/-- The bits of each catalogue field (R222). -/
def fieldBits : List Nat :=
  [4, 48, 48, 16, 12, 12, 3, 20, 20, 4, 128, 128, 8, 6, 16, 16] ++ [7, 32, 32, 15, 15, 4, 8, 2, 32, 128, 128, 16, 16, 1, 2]

/-- A field's value for the hash: with SYM each pair stands with its smaller value first (R232). -/
def hashVal (p : Parse) (sym : Bool) (f : Nat) : Nat :=
  let other := match f with
    | 1 => some 2
    | 2 => some 1
    | 10 => some 11
    | 11 => some 10
    | 14 => some 15
    | 15 => some 14
    | 25 => some 26
    | 26 => some 25
    | _ => none
  match other with
  | some g => if sym then (if f < g then min (p.val f) (p.val g) else max (p.val f) (p.val g)) else p.val f
  | none => p.val f

/-- The hash of a profile (R232). -/
def spreadHash (fields : Nat) (sym : Bool) (p : Parse) : Nat :=
  crc32c ((bitsSet 31 fields).map (fun f => beBytes (ceilDiv (fieldBits.getD f 0) 8) (hashVal p sym f))).flatten

/-- A frame is discarded: a chain that no copy refers to returns. -/
def discard (id : Nat) (s : State) : State := freeIfUnused id s

/-- The numbers of a received frame by which its plane pair merges (R235).
DESIGN CHOICE, log 47. -/
def Chain.mergeSeq (c : Chain) (sel : Nat) : Option Nat :=
  match c.info.rtp with
  | none => none
  | some r =>
    let low := beAt c.data (r + 2) 2
    match sel, c.info.ext with
    | 0, _ => some low
    | 1, some e => if c.info.kind = 1 then some (beAt c.data e 2 * 65536 + low) else none
    | 2, some e => if c.info.kind = 2 then some (beAt c.data (e + 5) 2 * 65536 + low) else none
    | _, _ => none

/-- The bits of a pair's sequence numbers. -/
def MPair.bits (p : MPair) : Nat := if p.sel = 0 then 16 else 32

/-- The skew of a number received on both planes (R237): `t` is the timestamp of the plane that comes now.
The 48-bit timestamps are compared around their wrap (R45). -/
def noteSkew (d m seq : Nat) (planeB : Bool) (t : Nat) (s : State) : State :=
  let other := match s.mheld.find? (fun h => h.die == d && h.pair == m && h.seq == seq && h.planeB != planeB) with
    | some h => some h.ts
    | none => (s.mdone.find? (fun h => h.die == d && h.pair == m && h.seq == seq && h.planeB != planeB)).map (·.ts)
  match other with
  | some o =>
    let a := (t + 2 ^ 48 - o % 2 ^ 48) % 2 ^ 48
    let skew := min 65535 (min a (2 ^ 48 - a) / 1000)
    s.when (s.get (.prs .MERGE_STAT_SKEW_MAX) d m < skew) (fun s => s.put (.prs .MERGE_STAT_SKEW_MAX) skew d m)
  | none => s

/-- A held copy is released: its number counts as released, and its frame is delivered under FLOW_A (R235, R236). -/
def mergeRelease (d : Nat) (p : MPair) (h : MHeld) (s : State) : State :=
  let s : State := { s with mheld := s.mheld.filter (fun x => x != h), mdone := s.mdone ++ [⟨d, p.m, h.seq, h.planeB, h.ts, true⟩] }
  deliver d p.a h.crossed (Dlv.plain h.chain h.tc) s

/-- Held copies are released from the expected number on (R236). -/
def releaseRun (d : Nat) (p : MPair) : Nat → State → State
  | 0, s => s
  | n + 1, s =>
    let e := s.get (.prs .xME) d p.m
    match s.mheld.find? (fun h => h.die == d && h.pair == p.m && h.seq == e) with
    | some h => releaseRun d p n ((mergeRelease d p h s).put (.prs .xME) ((e + 1) % 2 ^ p.bits) d p.m)
    | none => s

/-- The held copies of a pair. -/
def State.heldOf (s : State) (d m : Nat) : List MHeld := s.mheld.filter (fun h => h.die == d && h.pair == m)

/-- The distance of a number from the expected one, modulo the width. -/
def seqDist (w e x : Nat) : Nat := (x % 2 ^ w + 2 ^ w - e % 2 ^ w) % 2 ^ w

/-- The held copy whose number comes first from the expected one. -/
def State.lowestHeld (s : State) (d : Nat) (p : MPair) : Option MHeld :=
  let e := s.get (.prs .xME) d p.m
  (s.heldOf d p.m).foldl (fun b h => match b with
    | none => some h
    | some x => if seqDist p.bits e h.seq < seqDist p.bits e x.seq then some h else some x) none

/-- Every held copy of a pair is released in order. -/
def releaseAll (d : Nat) (p : MPair) : Nat → State → State
  | 0, s => s
  | n + 1, s =>
    match s.lowestHeld d p with
    | some h => releaseAll d p n (mergeRelease d p h s)
    | none => s

/-- Numbers that lie more than 4,096 before the expected one are forgotten. -/
def forget (d : Nat) (p : MPair) (s : State) : State :=
  let e := s.get (.prs .xME) d p.m
  { s with mdone := s.mdone.filter (fun h => h.die != d || h.pair != p.m ||
      !seqBefore p.bits h.seq ((e + 2 ^ p.bits - 4096) % 2 ^ p.bits)) }

/-- A sender restart (R236): the held copies leave in order, the number becomes the expected one, and the numbers of the old
run are forgotten. -/
def resync (d : Nat) (p : MPair) (seq : Nat) (s : State) : State :=
  let s := releaseAll d p (s.heldOf d p.m).length s
  let s := (s.put (.prs .xME) seq d p.m).put (.prs .MERGE_STAT_RESYNC) 1 d p.m
  flowEvent d p.a 7 { s with mdone := s.mdone.filter (fun h => h.die != d || h.pair != p.m) }

/-- The merge window in ns (R67, R239). -/
def State.mergeWinNs (s : State) (d : Nat) : Nat := clampTo 100 65535 (s.get (.prs .MERGE_WIN_WIN) d) * usNs

/-- A copy of an enabled pair arrives at the merge (R236, R237).
DEDUCED, log 42. -/
def mergeCopy (d : Nat) (p : MPair) (planeB crossed : Bool) (v : Dlv) (s : State) : State :=
  match s.chain? v.chain with
  | none => s
  | some c =>
    match c.mergeSeq p.sel with
    | none => discard v.chain (s.bump (.prs .CNT) d cntTREE_ERR)
    | some seq =>
      let w := p.bits
      let plane := if planeB then 1 else 0
      let s := (s.put (.prs .xMLAST) (s.dueIn (s.mergeWinNs d)) d p.m plane).put
        (if planeB then .prs .MERGE_STAT_B_OK else .prs .MERGE_STAT_A_OK) 1 d p.m
      let s := if s.flag (.prs .xMST) d p.m then s else (s.put (.prs .xMST) 1 d p.m).put (.prs .xME) seq d p.m
      let e := s.get (.prs .xME) d p.m
      let far := seqBefore w seq ((e + 2 ^ w - 4096) % 2 ^ w) || seqBefore w ((e + 4096) % 2 ^ w) seq
      let s := if far then resync d p seq s else s
      let e := s.get (.prs .xME) d p.m
      let s := noteSkew d p.m seq planeB c.ts s
      if seqBefore w seq e then
        let known := s.mdone.any (fun h => h.die == d && h.pair == p.m && h.seq == seq && h.rel)
        let s : State := if known then s else { s with mdone := s.mdone ++ [⟨d, p.m, seq, planeB, c.ts, false⟩] }
        discard v.chain (s.bump (.prs .CNT) d (if known then 12 else 14))
      else if (s.heldOf d p.m).any (fun h => h.seq == seq) then discard v.chain (s.bump (.prs .CNT) d 12)
      else
        let s : State := { s with mheld := s.mheld ++ [⟨d, p.m, seq, planeB, c.ts, c.arr, c.arr + (3 * s.mergeWinNs d + 1) / 2, v.chain, v.tc,
          crossed⟩] }
        forget d p (releaseRun d p (s.heldOf d p.m).length s)

/-- A frame delivered under a handle: merged first where the handle belongs to an enabled pair (R235). -/
def deliverFlow (d h : Nat) (crossed : Bool) (v : Dlv) (s : State) : State :=
  match (if v.out then none else (s.mergePairs d).find? (fun p => p.a == h || p.b == h)) with
  | some p => mergeCopy d p (p.b == h) crossed v s
  | none => deliver d h crossed v s

/-- A route leaf (R241, R244).
DEDUCED, log 42. -/
def routeFrame (d : Nat) (p : Parse) (v : Dlv) (s : State) : State :=
  let ver := p.val 9
  let (h, s) :=
    if ver = 4 then routeLookup d 0 (p.val 11 % 2 ^ 32) s
    else if ver = 6 then routeLookup d 1 (p.val 11 / 2 ^ 64) s
    else ((if s.flag (.fwd .RT_CFG_DEF_EN) d then some (s.get (.fwd .RT_CFG_DEF_HANDLE) d) else none), s.bump (.fwd .CNT) d 1)
  match h with
  | some h => deliverFlow d h false v s
  | none => discard v.chain s

/-- Learning from a frame (R251). `was` is the slot that held its key when the frame came. -/
def learn (d vid sa iface : Nat) (was : Option Nat) (s : State) : State :=
  match was with
  | some n =>
    if s.get (.fwd .xBR_IF) d n = iface then s.put (.fwd .xBR_HIT) 1 d n
    else if s.flag (.fwd .xBR_STATIC) d n then s.bump (.fwd .CNT) d 8
    else ((s.put (.fwd .xBR_IF) iface d n).put (.fwd .xBR_HIT) 1 d n).bump (.fwd .CNT) d 7
  | none =>
    if 256 ≤ (s.learns.filter (fun l => l.die == d)).length then s.bump (.fwd .CNT) d 9
    else { s with learns := s.learns ++ [⟨d, vid, sa, iface⟩] }

/-- A bridge leaf (R249 to R251). The destination lookup and the learning see the table as the frame found it. Only the
lookup of the source sets HIT (R251): a station that receives and stays silent ages out (R256).
DEDUCED, log 106. -/
def bridgeFrame (d iface : Nat) (p : Parse) (v : Dlv) (s : State) : State :=
  let vid := if s.flag (.fwd .BR_CFG_VID_EN) d && p.has 4 then p.val 4 else 0
  let da := p.val 1
  let sa := p.val 2
  let hit := if bitOf da 40 then none else (s.brFind d vid da).map (fun n => s.get (.fwd .xBR_IF) d n)
  let was := s.brFind d vid sa
  let s := s.when (bitOf (s.get (.fwd .BR_CFG_LEARN_EN) d) (iface % 8) && !bitOf sa 40) (learn d vid sa iface was)
  match hit with
  | some o =>
    if o = iface then discard v.chain (s.bump (.fwd .CNT) d 5)
    else forward d (2 ^ o) v.tc v.chain (s.bump (.fwd .CNT) d 3)
  | none =>
    let mask := s.get (.fwd .BR_FLOOD_FLOOD) d
    forward d (if bitOf mask iface then mask - 2 ^ iface else mask) v.tc v.chain (s.bump (.fwd .CNT) d 4)

/-- A channel has a unit in a cluster (R233). -/
def State.chanInCluster (s : State) (ch cl : Nat) : Bool :=
  (List.range 8).any (fun i => let u := s.get (.cch .UNIT_UNIT) ch i; decide (u < 160) && u / 5 == cl)

/-- A spread leaf (R232, R233).
DEDUCED, log 42. -/
def spreadFrame (d iface leaf : Nat) (p : Parse) (v : Dlv) (s : State) : State :=
  let prof := bitsOf leaf 29 3
  let e := spreadHash (s.get (.prs .HASH_PROF_FIELDS) d prof) (s.flag (.prs .HASH_PROF_SYM) d prof) p % 512
  let pp := iface / 4 % 2
  let t := s.get (.prs .IND_TARGET) d pp e
  match s.get (.prs .IND_TYPE) d pp e with
  | 1 => serve d none false v ⟨[], some t, false, []⟩ s
  | 2 => forward d (2 ^ (t % 16)) v.tc v.chain s
  | 3 =>
    let chans := (s.receivers d (bitsOf leaf 46 12)).filter (fun ch => s.chanInCluster ch (16 * d + t % 16))
    if chans.isEmpty then discard v.chain (s.bump (.prs .CNT) d cntTREE_ERR)
    else serve d none false v ⟨chans, none, false, []⟩ s
  | _ => discard v.chain s

/-- The policer of a leaf (R234): whether the frame goes on, and whether it is marked drop-eligible. `t` is the frame's ingress timestamp and `len` its length
with FCS. A bucket in any other mode than POLICE passes the frame and counts it.
DEDUCED, log 40. -/
def police (d n t len : Nat) (excess : Bool) (s : State) : Bool × Bool × State :=
  if s.bktMode d n = bktPOLICE then
    let s := refill d n t s
    if s.counted d n len ≤ s.tokens d n then (true, false, deduct d n len s)
    else
      let s := flowEvent d n 3 s
      if excess then (true, true, s.bump (.prs .CNT) d 11) else (false, false, s.bump (.prs .CNT) d 10)
  else (true, false, s.bump (.prs .CNT) d cntTREE_ERR)

/-- The time in ns of a 48-bit ingress timestamp that lies in the past (R45). -/
def State.fullTs (s : State) (ts : Nat) : Nat := s.tai - (s.tai + 2 ^ 48 - ts % 2 ^ 48) % 2 ^ 48

/-- The action of a leaf on a frame (R224).
DEDUCED, log 40; DESIGN CHOICE, log 46. -/
def actLeaf (d iface leaf : Nat) (p : Parse) (id : Nat) (s : State) : State :=
  let v := Dlv.plain id (bitsOf leaf 26 3)
  match leafAction leaf with
  | 1 => deliverFlow d (bitsOf leaf 46 12) false v s
  | 2 => routeFrame d p v s
  | 3 => bridgeFrame d iface p v s
  | 4 => spreadFrame d iface leaf p v s
  | 5 => serve d none false v ⟨[], some (bitsOf leaf 46 5), false, []⟩ s
  | 6 => serve d none false v ⟨[], none, true, []⟩ s
  | _ => discard id s

/-- The last pass of a frame, from its leaf on (R215, R220): the parse flags, policing and the leaf's action.
DESIGN CHOICE, log 46. -/
def lastPass (d iface leaf : Nat) (p : Parse) (id : Nat) (s : State) : State :=
  let s := s.when p.limited (fun s => s.bump (.prs .CNT) d 4)
  match s.chain? id with
  | none => s
  | some c =>
    let s := s.mapChain id (fun c => { c with info := p.info })
    if bitOf p.flags 13 then discard id s
    else
      let (go, mark, s) := if bitOf leaf 33 then
          police d (bitsOf leaf 34 12) (s.fullTs c.ts) (c.data.length + 4) (bitOf leaf 32) s
        else (true, false, s)
      let s := s.mapChain id (fun c => { c with mark := mark })
      if go then actLeaf d iface leaf p id s else discard id s

/-- A frame whose pass 1 reaches a second tunnel level (R219, R220). -/
def recircFrame (d leaf g : Nat) (p : Parse) (r : Recur) (id : Nat) (s : State) : State :=
  if bitOf p.flags 13 || leafAction leaf == 0 then discard id s
  else if 1024 ≤ (s.recircs.filter (fun x => x.die == d)).length then discard id (s.bump (.prs .CNT) d 6)
  else match moveHolder id 60 s with
    | some s => { s with recircs := s.recircs ++ [⟨d, id, g, r.ofs, r.start, r.tunTyp, r.tunId⟩] }
    | none => discard id (s.bump (.pdk .CNT) d 8)

/-- Pass 1 of a frame that is in cells (R218, R230): a PTP message is copied to the time base, and the frame is stamped with
the active slot. -/
def firstPass (d iface id : Nat) (s : State) : State :=
  match s.chain? id with
  | none => s
  | some c =>
    let p := parsePass (s.parseCfg d) c.data 0 .eth 0 (iface % 8) none c.poison
    let s := ptpCopy iface p s
    let g := s.ruleSlot d
    let (leaf, s) := classify d g (iface % 8) p s
    match p.recur with
    | some r => recircFrame d leaf g p r id s
    | none => lastPass d iface leaf p id s

/-- Ingress drops every frame at the MAC: in the safe state (R465) and from boundary E of an entry to Winter (R487). -/
def State.rxStopped (s : State) : Bool :=
  s.safe || decide (2 ≤ s.get (.pwr .STATUS_SEASON)) || decide (2 ≤ s.get (.pwr .xWIN_STEP))

/-- A frame arrives on a sub-port (R211, R213). `bytes` is the frame without its FCS.
DESIGN CHOICE, log 47. -/
def frameIn (i : Nat) (bytes : List Byte) (fcsOk : Bool) (poison : List Nat) (s : State) : State :=
  let d := ifaceDie i
  let len := bytes.length + 4
  if s.rxStopped || !s.ifaceUp i then s
  else if !fcsOk then s.bump (.prs .CNT) d 1
  else
    let s := s.bump (.prs .CNT) d 0
    if len < 64 ∨ s.mtu i < len then s.bump (.prs .CNT) d 2
    else if beAt bytes 12 2 = 0x8808 then s.bump (.prs .CNT) d 15
    else if !s.availCells d (48 + 2 * (i / 4)) (cellsFor len) then s.bump (.prs .CNT) d 3
    else
      let s := s.when (!poison.isEmpty) (fun s => s.bump (.pdk .CNT) d 6)
      let (id, s) := newChain d (48 + 2 * (i / 4)) bytes i (s.tai % 2 ^ 48) poison noMeta s
      poolSettle d (firstPass d i id s)

/-- FRAME_RECEIVE (R211 to R251). -/
def execFrameReceive (i : Iface) (bytes : List Byte) (fcsOk : Bool) (poison : List Nat) (now : Now) (s : State) :
    Host.Outcome State Fault Refusal := s.runAt now (frameIn i bytes fcsOk poison)

/-- The header with which pass 2 starts. -/
def startHdr (n : Nat) : Hdr :=
  match n with
  | 1 => .ip4
  | 2 => .ip6
  | _ => .eth

/-- Pass 2 of the oldest frame of a recirculation queue (R219 to R221, R230). -/
def recircStart (d : Nat) (s : State) : State :=
  match s.recircs.find? (fun x => x.die == d) with
  | none => s
  | some r =>
    let s : State := { s with recircs := s.recircs.eraseP (fun x => x.die == d) }
    match s.chain? r.chain with
    | none => s
    | some c =>
      let s := s.bump (.prs .CNT) d 5
      let p := parsePass (s.parseCfg d) c.data r.ofs (startHdr r.start) 1 (c.iface % 8) (some (r.tunTyp, r.tunId)) c.poison
      let (leaf, s) := classify d r.slot (c.iface % 8) p s
      poolSettle d (lastPass d c.iface leaf p r.chain s)

/-- RECIRC_PASS (R220). -/
def execRecircPass (d : Die) (now : Now) (s : State) : Host.Outcome State Fault Refusal :=
  s.runAt now (fun s => s.when (!s.safe && s.dieUp d) (recircStart d))

/-- The oldest copy on its way to a die has wholly crossed (R248, R294): it is written into the die's cells, charged to LINK,
and delivered there, or dropped. -/
def crossArrive (d : Nat) (s : State) : State :=
  match s.cross.find? (fun x => x.dst == d) with
  | none => s
  | some x =>
    let s : State := { s with cross := s.cross.eraseP (fun x => x.dst == d) }
    if !s.availCells d 59 (cellsFor (x.data.length + 4)) then s.bump (.pdk .CNT) d 8
    else
      let (id, s) := newChain d 59 x.data x.iface x.ts x.poison x.info s
      let s := s.mapChain id (fun c => { c with arr := x.arr, mark := x.mark })
      let v : Dlv := ⟨id, x.tc, x.raster, x.due, x.relAt, x.ch, x.dom, x.row, x.ix, x.out, x.seq, x.ipid, x.own⟩
      let s := match x.handle with
        | some h => deliverFlow d h true v s
        | none => serve d none false v ⟨[], none, false, (bitsSet 16 x.mask).filter (fun i => ifaceDie i == d)⟩ s
      poolSettle d s

/-- XDIE_COPY_RECEIVE (R248). -/
def execXdieCopyReceive (d : Die) (now : Now) (s : State) : Host.Outcome State Fault Refusal :=
  s.runAt now (fun s => s.when (!s.safe && s.dieUp d) (crossArrive d))

/-- The merge window of a pair's lowest held copy has passed (R236): the numbers before it are lost. -/
def mergeExpire (d m : Nat) (s : State) : State :=
  match (s.mergePairs d).find? (fun p => p.m == m) with
  | none => s
  | some p =>
    match s.lowestHeld d p with
    | none => s
    | some h =>
      if h.due ≤ s.osc then
        let lost := seqDist p.bits (s.get (.prs .xME) d m) h.seq
        let s := (s.bump (.prs .CNT) d 13 0 lost).put (.prs .xME) h.seq d m
        let s := s.when (lost != 0) (flowEvent d p.a 1)
        poolSettle d (forget d p (releaseRun d p (s.heldOf d m).length s))
      else s

/-- MERGE_WINDOW_EXPIRY (R236). -/
def execMergeWindowExpiry (d : Die) (m : Pair) (now : Now) (s : State) : Host.Outcome State Fault Refusal :=
  s.runAt now (fun s => s.when (!s.safe && s.dieUp d) (mergeExpire d m))

/-- A plane of a pair has delivered no copy within the merge window that its last copy began: its OK bit falls, with the
PLANE_DOWN event (R66, R237, R359). -/
def planeFalls (d m : Nat) (planeB : Bool) (s : State) : State :=
  let ok : Fld := if planeB then .prs .MERGE_STAT_B_OK else .prs .MERGE_STAT_A_OK
  if s.flag ok d m && decide (s.get (.prs .xMLAST) d m (if planeB then 1 else 0) ≤ s.osc) then
    flowEvent d (s.get (.prs .MERGE_FLOW_A) d m) 0 (s.put ok 0 d m)
  else s

/-- PLANE_DOWN (R237). -/
def execPlaneDown (d : Die) (m : Pair) (planeB : Bool) (now : Now) (s : State) : Host.Outcome State Fault Refusal :=
  s.runAt now (fun s => s.when (!s.safe && s.dieUp d) (planeFalls d m planeB))

/-- A pipeline stage that has stalled since an edge for `PRS_STALL_TO` restarts the die (R67). -/
def pipeStall (d stage since : Nat) (s : State) : State :=
  s.when (!s.safe && s.dieUp d && s.waitedOut (.prs .STALL_TO_STALL) d since 100 5000 1) (raise 0x60 d stage 0)

/-- PIPE_STALL_TIMEOUT (R67). -/
def execPipeStallTimeout (d : Die) (stage : Nat) (w : Waited) (s : State) : Host.Outcome State Fault Refusal :=
  s.runAt w.now (pipeStall d stage w.since)

/-- A node line whose CRC failed is refetched; a line that stays bad is marked, a Contained fault (R226). -/
def nodeRefetch (d line : Nat) (good : Bool) (s : State) : State :=
  let s := s.bump (.prs .CNT) d 8
  if good then s else (raise 0x46 d line 3 s).put (.prs .xNODE_BAD) 1 d line

/-- NODE_LINE_REFETCH (R226). -/
def execNodeLineRefetch (d : Die) (line : Fin 16384) (good : Bool) (s : State) : Host.Outcome State Fault Refusal :=
  s.run (fun s => s.when (!s.safe && s.dieUp d) (nodeRefetch d line good))

/-- A write of `PRS_NODE_ADDR` (R227): with both actions set it is ignored whole. Writing a node clears the mark of its
line (R226). -/
def nodeAddrWrite (d v : Nat) (s : State) : State :=
  let ix := v % 65536
  if bitOf v 16 && bitOf v 17 then s
  else
    let s := s.put (.prs .NODE_ADDR_INDEX) ix d
    let s := s.when (bitOf v 17) (fun s => (s.put (.prs .xNODE_BAD) 0 d (ix / 4)).put (.prs .xNODE)
      (s.get (.prs .NODE_HI_NODE_HI) d * 2 ^ 32 + s.get (.prs .NODE_LO_NODE_LO) d) d ix)
    s.when (bitOf v 16) (fun s =>
      let w := s.get (.prs .xNODE) d ix
      (s.put (.prs .NODE_LO_NODE_LO) (w % 2 ^ 32) d).put (.prs .NODE_HI_NODE_HI) (w / 2 ^ 32) d)

/-- NODE_READ (R227): a write of `PRS_NODE_ADDR` with READ set. -/
def execNodeRead (p : Party) (d : Die) (v : Word) (s : State) : Host.Outcome State Fault Refusal :=
  s.run (gated p .prs (some d.val) (nodeAddrWrite d (withBits v.toNat 16 1 1)))

/-- NODE_WRITE (R227): a write of `PRS_NODE_ADDR` with WRITE set. -/
def execNodeWrite (p : Party) (d : Die) (v : Word) (s : State) : Host.Outcome State Fault Refusal :=
  s.run (gated p .prs (some d.val) (nodeAddrWrite d (withBits v.toNat 17 1 1)))

/-- A write of `PRS_GEN_CTRL` (R229).
DEDUCED, log 43. -/
def genCtrlWrite (d v : Nat) (s : State) : State :=
  let s := (s.put (.prs .GEN_CTRL_HO_EN) (bitsOf v 1 1) d).put (.prs .GEN_CTRL_HO_SLOT) (bitsOf v 4 4) d
  if !bitOf v 0 || s.flag (.prs .GEN_STATUS_PUB_PENDING) d then s
  else if bitOf v 1 then
    ((s.put (.prs .GEN_CTRL_PUBLISH) 1 d).put (.prs .xPUB_SLOT) (slotOf (bitsOf v 4 4)) d).put (.prs .GEN_STATUS_PUB_PENDING) 1 d
  else publishNow d s

/-- PUBLISH (R229): a write of `PRS_GEN_CTRL` with PUBLISH set. -/
def execPublish (p : Party) (d : Die) (v : Word) (s : State) : Host.Outcome State Fault Refusal :=
  s.run (gated p .prs (some d.val) (genCtrlWrite d (withBits v.toNat 0 1 1)))

/-- RULESET_SLOT_RETIRE (R231). -/
def execRulesetSlotRetire (d : Die) (s : State) : Host.Outcome State Fault Refusal :=
  s.run (fun s => s.when (!s.safe && s.dieUp d) (retireSlot d))

/-- The registers of a rule-set slot take writes only while the slot is retired (R228). -/
def State.slotWritable (s : State) (d g : Nat) : Bool := g != s.ruleSlot d && !s.slotOld d

/-- A write of `PRS_PORT_CFG` (R210, R269): one that changes MODE while a sub-port is enabled is ignored whole. A mode change
restarts the port's PCS and MAC, so every link of the port falls; clearing EN drops what is queued. -/
def portCfgWrite (d pp v : Nat) (s : State) : State :=
  let mode := s.get (.prs .PORT_CFG_MODE) d pp
  let en := s.get (.prs .PORT_CFG_EN) d pp
  let change := bitsOf v 0 2 != mode
  if change && en != 0 then s
  else
    let s := (s.put (.prs .PORT_CFG_EN) (bitsOf v 4 4) d pp).put (.prs .PORT_CFG_MTU) (bitsOf v 16 14) d pp
    let off := (bitsSet 4 en).filter (fun k => !bitOf (bitsOf v 4 4) k)
    let s := forEach off (fun k s => dropQueued (8 * d + 4 * pp + k) s) s
    let s := if off.isEmpty then s else poolSettle d s
    s.when change (fun s => (s.put (.prs .PORT_CFG_LINK_UP) 0 d pp).put (.prs .PORT_CFG_MODE) (bitsOf v 0 2) d pp)

/-- PORT_MODE_CHANGE (R210): a write of `PRS_PORT_CFG`. -/
def execPortModeChange (p : Party) (d : Die) (pp : Fin 2) (v : Word) (s : State) : Host.Outcome State Fault Refusal :=
  s.run (gated p .prs (some d.val) (portCfgWrite d pp v.toNat))

/-- The state of a merge pair is reset: what it holds is discarded (R235, R237).
DEDUCED, log 42. -/
def mergeReset (d m : Nat) (s : State) : State :=
  let gone := s.heldOf d m
  let s : State := { s with mheld := s.mheld.filter (fun h => !(h.die == d && h.pair == m)),
                            mdone := s.mdone.filter (fun h => !(h.die == d && h.pair == m)) }
  let s := forEach gone (fun h s => discard h.chain s) s
  let s := ((s.put (.prs .xMST) 0 d m).put (.prs .xME) 0 d m).put (.prs .MERGE_STAT_SKEW_MAX) 0 d m
  let s := (s.put (.prs .MERGE_STAT_A_OK) 0 d m).put (.prs .MERGE_STAT_B_OK) 0 d m
  (s.put (.prs .xMLAST) 0 d m 0).put (.prs .xMLAST) 0 d m 1

/-- A write of `PRS_MERGE` (R235). -/
def mergeWrite (d m v : Nat) (s : State) : State :=
  let s := if (s.heldOf d m).isEmpty then mergeReset d m s else poolSettle d (mergeReset d m s)
  let s := (s.put (.prs .MERGE_FLOW_A) (bitsOf v 0 12) d m).put (.prs .MERGE_FLOW_B) (bitsOf v 16 12) d m
  (s.put (.prs .MERGE_SEQ) (bitsOf v 29 2) d m).put (.prs .MERGE_EN) (bitsOf v 31 1) d m

/-- MERGE_PAIR_WRITE (R235). -/
def execMergePairWrite (p : Party) (d : Die) (m : Pair) (v : Word) (s : State) : Host.Outcome State Fault Refusal :=
  s.run (gated p .prs (some d.val) (mergeWrite d m v.toNat))

end Sys2Proof.Machine
end

