-- ==== Sys2Proof/Machine/Handover.lean ====
section
/-!
DEFINITION. Handover slots and the control register of the time base (R49, R58 to R65): the register writes that arm,
disarm and realign, and the firing of a slot.
-/

namespace Sys2Proof.Machine

/-- A write of `TRS_CTRL` (R49, R68): its settings, then a realignment where REALIGN is written. -/
def trsCtrlWrite (v : Nat) (s : State) : State :=
  let s := (s.put (.trs .CTRL_HOLD_SRC) (bitsOf v 0 2)).put (.trs .CTRL_FREE_START) (bitsOf v 2 1)
  let s := (s.put (.trs .CTRL_SLEW_MAX) (bitsOf v 8 8)).put (.trs .CTRL_HOLD_TO) (bitsOf v 16 6)
  let s := s.put (.trs .CTRL_FIRSTLOCK_TO) (bitsOf v 22 10)
  s.when (bitOf v 3) realignReq

/-- REALIGN (R49): a write of `TRS_CTRL` with REALIGN set. -/
def execRealign (p : Party) (v : Word) (s : State) : Host.Outcome State Fault Refusal :=
  s.run (gated p .trs none (trsCtrlWrite (withBits v.toNat 3 1 1)))

/-- ARM (R63): a write of `TRS_HO_CTRL[n]` with ARM set. -/
def execArm (p : Party) (n : HoSlot) (v : Word) (s : State) : Host.Outcome State Fault Refusal :=
  s.run (gated p .trs none (hoCtrlWrite n (withBits v.toNat 8 1 1)))

/-- DISARM (R64): a write of `TRS_HO_CTRL[n]` with DISARM set. -/
def execDisarm (p : Party) (n : HoSlot) (v : Word) (s : State) : Host.Outcome State Fault Refusal :=
  s.run (gated p .trs none (hoCtrlWrite n (withBits v.toNat 9 1 1)))

/-- HANDOVER_FIRE (R61). -/
def execHandoverFire (n : HoSlot) (now : Now) (s : State) : Host.Outcome State Fault Refusal :=
  s.runAt now (fun s => s.when (s.flag (.trs .HO_CTRL_ARM) n && s.slotReached n) (fireSlot n))

end Sys2Proof.Machine
end

