-- ==== Sys2Proof/Machine/Faults.lean ====
section
/-!
DEFINITION. The commands of the fault collector (chapter 20): what the detecting blocks and the lands report, and the
register writes that restart a die or inject an occurrence. The collector itself stands in Flt.lean.
-/

namespace Sys2Proof.Machine

/-- SAFE_REQ_N has been low for a time in ns (R466): from 1 us it is the Grave occurrence, below 200 ns it is ignored,
and between the two the E48 makes no promise, so a free value decides.
DESIGN CHOICE, log 18; DESIGN CHOICE, log 28. -/
def safeReq (lowNs : Nat) (s : State) : State :=
  if 1000 ≤ lowNs then raise 0x80 2 0 0 s
  else if 200 ≤ lowNs then
    let (v, s) := s.free
    s.when (v % 2 == 1) (raise 0x80 2 0 0)
  else s

/-- SAFE_REQ (R466). -/
def execSafeReq (lowNs : Nat) (s : State) : Host.Outcome State Fault Refusal := s.run (safeReq lowNs)

/-- The FAULT lands are driven to RUN: the self-test has passed and the safe state does not hold (R467). -/
def State.landsRun (s : State) : Bool := s.flag (.flt .xRUN) && !s.safe

/-- The self-test passes (R467). -/
def selfTestPass (s : State) : State :=
  let s := s.put (.flt .xRUN) 1
  s.when s.landsRun (fun s => ((s.put (.flt .STATUS_LAND_P) 1).put (.flt .STATUS_LAND_N) 0).emit (.faultLands true false))

/-- COLLECTOR_SELF_TEST (R467). -/
def execCollectorSelfTest (s : State) : Host.Outcome State Fault Refusal := s.run selfTestPass

/-- The lands read levels `p` and `n` for a time in us (R467): a difference from the levels driven that lasts 10 us is
the Grave occurrence FAULT_LANDS, with LOC the two levels, P in bit 0 and N in bit 1.
DESIGN CHOICE, log 26. -/
def faultLands (p n : Bool) (us : Nat) (s : State) : State :=
  let differs := p != s.landsRun || n == s.landsRun
  let s := (s.putB (.flt .STATUS_LAND_P) p).putB (.flt .STATUS_LAND_N) n
  s.when (differs && decide (10 ≤ us)) (raise 0x81 2 (p.toNat + 2 * n.toNat) 0)

/-- FAULT_LANDS (R467). -/
def execFaultLands (p n : Bool) (us : Nat) (s : State) : Host.Outcome State Fault Refusal := s.run (faultLands p n us)

/-- COLLECTOR (R457): the two copies differ, first in the copy of die `d`. -/
def execCollector (d : Die) (s : State) : Host.Outcome State Fault Refusal := s.run (raise 0x82 2 0 d.val)

/-- The digests of a domain differ while both dies are up (R458).
DEDUCED, log 27. -/
def timeIntegrity (dom : Nat) (s : State) : State := s.when (s.dieUp 0 && s.dieUp 1) (raise 0x83 2 dom 0)

/-- TIME_INTEGRITY (R458). -/
def execTimeIntegrity (dom : Domain) (s : State) : Host.Outcome State Fault Refusal := s.run (timeIntegrity dom)

/-- A pair is broken for a number of core clocks (R456): from two on it counts, and it is an occurrence of the error
that it carries, with WIRE set.
DESIGN CHOICE, log 26. -/
def wireBreak (o : Occ) (clocks : Nat) (s : State) : State :=
  s.when (decide (2 ≤ clocks) && (faultClass o.code).isSome) (fun s =>
    raiseAll [o] true false (s.bump (.flt .CNT) 5))

/-- WIRE_BREAK (R456). -/
def execWireBreak (o : Occ) (clocks : Nat) (s : State) : Host.Outcome State Fault Refusal := s.run (wireBreak o clocks)

/-- A write of `FLT_DIE_CTRL` (R470, R474): each die named that is up restarts as SW_RESTART. -/
def dieCtrlWrite (p : Party) (v : Nat) (s : State) : State :=
  let ds := [0, 1].filter (fun d => bitOf v d && s.dieUp d)
  s.when (!ds.isEmpty) (raiseAll (ds.map (fun d => ⟨0x66, d, p.num, 0⟩)) false false)

/-- SW_RESTART (R470): a write of `FLT_DIE_CTRL` that restarts one die. -/
def execSwRestart (p : Party) (d : Die) (s : State) : Host.Outcome State Fault Refusal :=
  s.run (gated p .flt none (dieCtrlWrite p (2 ^ d.val)))

/-- A write of `FLT_INJECT` (R478): GO raises one occurrence of CODE with LOC and DETAIL 0 and INJ set.
DESIGN CHOICE, log 26. -/
def injectWrite (v : Nat) (s : State) : State :=
  let s := ((s.put (.flt .INJECT_CODE) (bitsOf v 0 8)).put (.flt .INJECT_WIRE) (bitsOf v 8 1)).put (.flt .INJECT_DIE)
    (bitsOf v 9 1)
  if bitOf v 31 && (faultClass (bitsOf v 0 8)).isSome then
    let s := s.when (bitOf v 8) (fun s => s.bump (.flt .CNT) 5)
    raiseAll [⟨bitsOf v 0 8, bitsOf v 9 1, 0, 0⟩] (bitOf v 8) true s
  else s

/-- FAULT_INJECT (R478). -/
def execFaultInject (p : Party) (v : Word) (s : State) : Host.Outcome State Fault Refusal :=
  s.run (gated p .flt none (injectWrite (withBits v.toNat 31 1 1)))

end Sys2Proof.Machine
end

