-- ==== Sys2Proof/Machine/StartUp.lean ====
section
/-!
DEFINITION. Start-up (R415 to R427), RESET_N, the end of DRAM training, and the return of a die from a restart (R470).
-/

namespace Sys2Proof.Machine

/-- The state after power good or RESET_N (R416): everything at its reset value, but for the flash, host memory, which is
not the module's, the model's counter of free values, and the input voltage that is still measured.
DEDUCED, log 25. -/
def State.afterReset (s : State) : State :=
  { State.reset with
      flash := s.flash, host := s.host, freeCtr := s.freeCtr, store := Store.empty.set ⟨.pwr .INPUT_VIN, 0, 0, 0⟩ (s.get (.pwr .INPUT_VIN)) }

/-- The strap lands are sampled (R419). -/
def strapsSample (v : Nat) (s : State) : State :=
  let s := ((s.put (.mid .STRAP_RECOVERY) v).put (.mid .STRAP_FLASH_CLK) (v / 2)).put (.mid .STRAP_NO_CFG) (v / 4)
  let s := ((s.put (.mid .STRAP_HA_EN) (v / 8)).put (.mid .STRAP_HB_EN) (v / 16)).put (.mid .STRAP_TETHER_RCV) (v / 32)
  (s.put (.mid .STRAP_SLOT_SWAP) (v / 64)).put (.mid .STRAP_RSVD) (v / 128)

/-- The least and the greatest operating case temperature of the grade, in quarter degrees (R1). -/
def caseMin : Int := if Config.fuseGrade then -160 else 0
def caseMax : Int := if Config.fuseGrade then 340 else 280

/-- A time of start-up in ms since power good: the spec bounds only how long its steps take (R415, R428).
DESIGN CHOICE, log 18. -/
def bootMs (s : State) : Nat × State :=
  let (t, s) := s.free
  (s.nsUp / msNs + t % 501, s)

/-- The length of a DER value from its first bytes; 0 for what is none. The identity area holds two, one after the other
(R430).
PRESUMED, log 19. -/
def derLen (l : List Byte) : Nat :=
  let n := byteAt l 1
  if byteAt l 0 ≠ 0x30 then 0
  else if n < 128 then 2 + n
  else if n = 0x81 then 3 + byteAt l 2
  else if n = 0x82 then 4 + beAt l 2 2
  else 0

/-- The certificate chain is copied (R430, R434).
PRESUMED, log 19. -/
def certLoad (s : State) : State :=
  let area := s.flashAt 0x20000 4096
  let first := derLen area
  let len := min 4096 (first + (if first = 0 then 0 else derLen (area.drop first)))
  let chain := fit 4096 (area.take len)
  (forEach (List.range 1024) (fun i s => s.put (.mid .CERT_CERT) (beAt chain (4 * i) 4) i) s).put (.mid .CERT_LEN_LEN) len

/-- The SRAM entries of the flash repair map for a die, beyond the fuse repairs, up to the spares left (R328). -/
def repairsApply (d : Nat) (s : State) : State :=
  let l := s.repairMap
  forEach (List.range l.length) (fun i s =>
    match l[i]? with
    | some e =>
      let earlier := ((l.take i).filter (fun x => x.kind == e.kind && x.die == e.die && x.target == e.target)).length
      let spares := if e.kind = 1 then 4 else 2
      s.when (e.die == d && (e.kind == 1 || e.kind == 2) && decide (spares ≤ Config.fuseSpares e.kind d e.target + earlier))
        (raise 0x04 d e.target 1)
    | none => s) s

/-- The units of a die that the repair map retires (R199, R328). -/
def unitsApply (d : Nat) (s : State) : State :=
  forEach (s.repairMap.filter (fun e => e.kind == 3 && e.target / 80 == d)) (fun e s =>
    let s := s.when (s.get (.cus .CLUSTER_SPARE) (e.target / 5) == e.target % 5) (fun s => s.put (.cus .CLUSTER_SPARE) 7 (e.target / 5))
    (s.put (.cus .UNIT_STATE) 3 e.target).put (.cus .UNIT_PERSISTED) 1 e.target) s

/-- The devices that the repair map erases (R309, R330), as group and device. -/
def State.mapErased (s : State) : List (Nat × Nat) :=
  (s.repairMap.filter (fun e => e.kind == 4)).map (fun e => (e.target / 6, e.target % 6))

/-- Farrier enters recovery mode (R418, R453).
DEDUCED, log 17. -/
def enterRecovery (s : State) : State :=
  let wait := clampTo 1 600 (s.get (.fwu .FARRIER_TO_S))
  (s.put (.fwu .xFAR_DUE) (s.dueIn (wait * secNs))).put (.mid .BOOT_RECOVERY) 1

/-- The stores of a die's Ostler load from a bundle slot (R382, R395, R436). -/
def storesLoad (d x : Nat) (s : State) : State :=
  let st := s.stores.write (d * 2 ^ 20) (s.component x (1 + d))
  (({ s with stores := st.write (d * 2 ^ 20 + 2 ^ 16) (s.component x (3 + d)) } : State).put (.ost .STATUS_STATE) 1 d).put
    (.ost .xSLOT) (x + 1) d

/-- A copy of the stores that a die is to run is kept in a DRAM buffer of owner 58 (R382, R446): copy 0 in force, copy 1 the
other bundle's while an activation or a trial lasts.
DESIGN CHOICE, log 24. -/
def storesKeep (d j : Nat) (bytes : List Byte) (s : State) : State :=
  match allocOne d 58 (classFor 0x18000) s with
  | (some b, s) => dramStore b.grp (s.bufAddr b) bytes (s.put (.ost .xCOPY) (b.handle + 1) d j)
  | (none, s) => s

/-- What the active bundle declares (R411, R413, R436): the HIR and the link revision. -/
def bundleDeclares (x : Nat) (s : State) : State :=
  let m := s.manifest x
  let s := (s.put (.mid .HIR_MAJOR) 1).put (.mid .HIR_MINOR_MAX) (byteAt m 30)
  let s := (s.put (.mid .TTH_LOCAL_MAJOR) (byteAt m 34)).put (.mid .TTH_LOCAL_MINOR_MAX) (byteAt m 35)
  s.put (.mid .STATUS_BUNDLE_SLOT) x

/-- Step 6 without records (R414, R425).
DEDUCED, log 17. -/
def noRecords (ms : Nat) (s : State) : State :=
  let s := measure 6 255 0 0 (Config.sha384 []) ms s
  raise 0x03 2 0 5 (s.put (.mid .CFG_IMG_NONE) 1)

/-- Step 6: the records are chosen, measured and applied (R422 to R425).
DESIGN CHOICE, log 22. -/
def configLoad (s : State) : State :=
  let (ms, s) := bootMs s
  let s :=
    if s.flag (.mid .STRAP_NO_CFG) then noRecords ms s
    else
      let bad := [0, 1].any (fun c => !headerOk (s.recHeader c) || !s.schemaOk s.activeSlot (s.recHeader c)) ||
        !s.recValid s.recLater
      let s := s.when bad (fun s => s.put (.mid .CFG_IMG_COPY_BAD) 1)
      match s.recChoice with
      | none =>
        let major := s.recMajorBad 0 || s.recMajorBad 1
        noRecords ms (s.when major (fun s => raise 0x03 2 0 4 (s.put (.mid .SCHEMA_SCHEMA_BAD) 1)))
      | some c =>
        let img := s.recImage c
        let s := measure 5 255 0 img.length (Config.sha384 img) ms s
        let s : State := { s with image := img }
        let s := (s.put (.mid .CFG_IMG_COPY) c).put (.mid .CFG_SEQ_SEQ) (beAt img 12 4)
        let s := (s.put (.mid .SCHEMA_MAJOR) (byteAt img 4)).put (.mid .SCHEMA_MINOR) (byteAt img 5)
        let s := s.when (decide (byteAt (s.manifest s.activeSlot) 33 < byteAt img 5)) (fun s => s.put (.mid .SCHEMA_SCHEMA_NEWER) 1)
        forEach s.records applyRecord s
  (s.put (.evc .STATUS_READY) 1).put (.mid .BOOT_STEP) 6

/-- A bundle slot starts: steps 4 to 6 (R415). A STAGED slot starts as a trial (R444). -/
def startBundle (x : Nat) (trial recovery : Bool) (s : State) : State :=
  let s := s.when trial (setSlot x slTRIAL)
  let (ms, s) := bootMs s
  let s := measureBundle 3 4 x ms s
  let s := s.when recovery (fun s => measure 8 x 0 672 (Config.sha384 (s.manifest x)) ms s)
  let s := s.put (.mid .BOOT_STEP) 4
  let s := bundleDeclares x (storesLoad 1 x (storesLoad 0 x s))
  configLoad ((s.put (.mid .BOOT_STEP) 5).put (.mid .BOOT_RECOVERY) 0)

/-- The slots of a list are tried in order; one that fails its checks is set to BAD (R444).
DEDUCED, log 17. -/
def trySlots (trial : Bool) : List Nat → State → Option Nat × State
  | [], s => (none, s)
  | x :: t, s =>
    if s.dir.slot x = (if trial then slSTAGED else slGOOD) then
      if s.slotGood x then (some x, s) else trySlots trial t (setSlot x slBAD s)
    else trySlots trial t s

/-- The order in which step 4 tries the slots (R419, R444). -/
def State.slotOrder (s : State) (swap : Bool) : List Nat :=
  let a := s.dir.pref % 2
  let a := if swap then 1 - a else a
  [a, 1 - a]

/-- Step 4: the GOOD slots, then a STAGED one as a trial, or recovery mode (R418, R444).
DEDUCED, log 17. -/
def bootBundle (order : List Nat) (recovery : Bool) (s : State) : State :=
  match trySlots false order s with
  | (some x, s) => startBundle x false recovery s
  | (none, s) =>
    match trySlots true order s with
    | (some x, s) => startBundle x true recovery s
    | (none, s) => enterRecovery s

/-- A slot found in TRIAL at start-up becomes BAD, and the other is preferred (R444). -/
def trialFound (s : State) : State :=
  let d := s.dir
  if d.slot 0 = slTRIAL then bootWrite { d.setSlot 0 slBAD with pref := 1 } s.repairMap s
  else if d.slot 1 = slTRIAL then bootWrite { d.setSlot 1 slBAD with pref := 0 } s.repairMap s
  else s

/-- Steps 1 to 6, once the case is warm enough (R415, R418).
DESIGN CHOICE, log 20. -/
def bootRun (flashOk : Bool) (s : State) : State :=
  if !flashOk then raise 0x87 2 0 0 s
  else
    let (ms, s) := bootMs s
    let (len, s) := s.free
    let s := measure 1 255 0 (len % 2 ^ 32) Config.farrierDigest ms (s.put (.mid .BOOT_STEP) 1)
    let s := certLoad s
    match s.bootChoice with
    | none => enterRecovery (s.put (.mid .BOOT_STEP) 2)
    | some c =>
      let s := s.put (.mid .BOOT_BOOT_COPY) c
      let s := s.when s.repairMap.isEmpty (fun s => s.put (.mid .BOOT_REPAIR_NONE) 1)
      let s := unitsApply 1 (unitsApply 0 (repairsApply 1 (repairsApply 0 s)))
      let s := slotsShow (trialFound s)
      let s := measure 2 255 0 36864 (Config.sha384 (s.flashAt (bootBase (s.get (.mid .BOOT_BOOT_COPY))) 36864)) ms s
      let s := s.put (.mid .BOOT_STEP) 3
      if s.flag (.mid .STRAP_RECOVERY) then enterRecovery s
      else bootBundle (s.slotOrder (s.flag (.mid .STRAP_SLOT_SWAP))) false s

/-- Start-up begins (R415): the straps are sampled, and Farrier holds step 1 while the case is more than 5 degrees below
the grade's minimum (R495). -/
def startUp (b : BootInputs) (s : State) : State :=
  let s := strapsSample b.straps s.afterReset
  let s := forEach (List.range 9) (fun k s => s.put (.pwr .RAIL_IN_WINDOW) 1 k) (s.put (.pwr .STATUS_HB_OK) 1)
  if b.caseQ < caseMin - 20 then (s.put (.pwr .STATUS_CASE_LO) 1).put (.pwr .xCASE_HOLD) 1
  else bootRun b.flashOk s

/-- Power good, which needs the rails (R480). -/
def powerGood (b : BootInputs) (s : State) : State := if s.flag (.pwr .xRAILS_OFF) then s else startUp b s

/-- POWER_GOOD (R415). -/
def execPowerGood (b : BootInputs) (s : State) : Host.Outcome State Fault Refusal := s.runPower (powerGood b)

/-- The case has warmed to within 5 degrees of the grade's minimum (R495): the times run from here, and so does the
first-lock timeout (R52). -/
def caseHoldEnd (caseQ : Int) (flashOk : Bool) (s : State) : State :=
  if s.flag (.pwr .xCASE_HOLD) && decide (caseMin - 20 ≤ caseQ) then
    let s := (s.put (.pwr .xCASE_HOLD) 0).putB (.pwr .STATUS_CASE_LO) (decide (caseQ < caseMin + 8))
    bootRun flashOk (s.put (.trs .xFIRST_AT) s.osc)
  else s

/-- CASE_LO_HOLD_END (R495). -/
def execCaseLoHoldEnd (caseQ : Int) (flashOk : Bool) (s : State) : Host.Outcome State Fault Refusal :=
  s.run (caseHoldEnd caseQ flashOk)

/-- RESET_N is asserted (R416, R467): the state after power good, in which nothing runs, with the FAULT lands SAFE. -/
def resetAssert (s : State) : State :=
  if s.flag (.pwr .xRAILS_OFF) then s else (s.afterReset.put (.pwr .xDOWN) 1).emit (.faultLands false true)

/-- RESET_N_ASSERT (R416). -/
def execResetNAssert (s : State) : Host.Outcome State Fault Refusal := s.runPower resetAssert

/-- RESET_N is deasserted: the straps are sampled and start-up runs (R419). -/
def resetDeassert (b : BootInputs) (s : State) : State :=
  if s.flag (.pwr .xDOWN) && !s.flag (.pwr .xRAILS_OFF) then startUp b s else s

/-- RESET_N_DEASSERT (R419). -/
def execResetNDeassert (b : BootInputs) (s : State) : Host.Outcome State Fault Refusal := s.runPower (resetDeassert b)

/-- The records carry a rule set of a die (R228, R238): nodes, roots, or what an interface starts with. -/
def State.ruleSetGiven (s : State) (d : Nat) : Bool :=
  s.records.any (fun r => (r.typ == 6 && bitOf r.flags d) || ((r.typ == 1 || r.typ == 2) && r.pairs.any (fun p =>
    match findReg p.1 with
    | some l => (l.rd.reg == .PRS_ROOT || l.rd.reg == .PRS_IFSET) && l.i == d
    | none => false)))

/-- The parser defaults of the bundle are loaded into slot 0 of a die, where the records carry no rule set for it (R238).
DESIGN CHOICE, log 8. -/
def parserDefaults (d x : Nat) (s : State) : State :=
  if s.ruleSetGiven d then s
  else
    let c := s.component x 6
    let s := forEach (List.range 65536) (fun n s => s.put (.prs .xNODE) (Config.parserNode c n) d n) s
    forEach (List.range 8) (fun t s =>
      let r := Config.parserRoot c 0 t
      let i := Config.parserIfset c t
      let s := (s.put (.prs .ROOT_ROOT) (r % 65536) d 0 t).put (.prs .ROOT_VALID) (bitsOf r 16 1) d 0 t
      (s.put (.prs .IFSET_FIRST_TREE) (i % 8) d 0 t).put (.prs .IFSET_DEFAULT) (bitsOf i 16 16) d 0 t) s

/-- The buckets of a die that the records load with a mode that is taken as OFF set CFG_ERR (R266). -/
def bucketErrs (d : Nat) (s : State) : State :=
  forEach ((s.bktTouched d).filter (fun n => bktModeBad n (s.get (.shp .BKT_CFG_MODE) d n 1))) (fun n s =>
    s.put (.shp .BKT_STATUS_CFG_ERR) 1 d n) s

/-- The part of a die start that follows training (R264, R282, R299, R238): pools, the copies kept in DRAM, tables, rule
set and templates. `x` is the bundle slot that the die runs. -/
def dieStart (d x : Nat) (s : State) : State :=
  let s := dramReady d ((carveCheck d s).put (.pdk .STATUS_CELL_READY) 1 d)
  let s := s.when (!s.image.isEmpty) (keepBytes d 63 s.image)
  let s := keepBytes d 58 (List.replicate 4096 0) s
  let s := storesKeep d 0 (s.stores.read (d * 2 ^ 20) 0x18000) s
  let s := forEach s.records (loadRecord d) s
  let s := (bucketErrs d (parserDefaults d x s)).put (.shp .xSTART_TAI) s.tai d
  let s := (s.put (.prs .GEN_STATUS_GEN) 1 d).put (.fwd .STATUS_READY) 1 d
  let s := (s.put (.shp .STATUS_READY) 1 d).put (.fwd .xAGE_NEXT) (s.dueIn (s.agePeriodNs d)) d
  forEach ((List.range 16).map (· + 16 * d)) (fun c s =>
    (((s.put (.cus .CLUSTER_SHADOW_OK) 1 c).put (.cus .CLUSTER_CABAC_OK) 1 c).put (.cus .CLUSTER_LINEBUF_OK) 1 c).put
      (.pwr .xGATE_AT) (s.osc + 1) c) s

/-- A group of a die that is LOST, with the device that makes it so.
DEDUCED, log 23. -/
def State.lostGroups (s : State) (d : Nat) : List Nat :=
  ((List.range 4).map (· + 4 * d)).filter s.grpLost

/-- Step 7 ends once both dies run (R415); a time base that is already LOCKED ends step 8 too, and a slot that started as a
trial is confirmed (R444, R449).
DEDUCED, log 23. -/
def stepSeven (s : State) : State :=
  if s.get (.mid .BOOT_STEP) = 6 && s.dieUp 0 && s.dieUp 1 then
    let s := s.put (.mid .BOOT_STEP) (if s.tbState = tbLOCKED then 8 else 7)
    s.when (s.dir.slot s.activeSlot == slTRIAL) (fun s => evPulse 898 4 (confirmSlot s.activeSlot s))
  else s

/-- A failure list with the groups of the die made module-wide is what training takes. -/
def failPairs (l : List (Fin 4 × Device)) : List (Nat × Nat) := l.map (fun p => (p.1.val, p.2.val))

/-- Training of a die ends at start-up (R323, R324, R415). A LOST group is an Uncontained fault (R311).
DEDUCED, log 23. -/
def dramTrained (d : Nat) (failed : List (Nat × Nat)) (s : State) : State :=
  if s.safe || s.get (.mid .BOOT_STEP) != 6 || s.dieUp d || s.dieOff d then s
  else
    let s := trainGroups d failed s.mapErased s
    match s.lostGroups d with
    | g :: _ => raise 0x64 d g (s.erasedDev g) s
    | [] => stepSeven ((dieStart d s.activeSlot s).putBit (.mid .STATUS_DIE_UP) d true)

/-- DRAM_TRAINED (R323). -/
def execDramTrained (d : Die) (failed : List (Fin 4 × Device)) (now : Now) (s : State) :
    Host.Outcome State Fault Refusal := s.runAt now (fun s => poolsSettle (dramTrained d (failPairs failed) s))

/-- The image that a restarting die loads (R426): the other die's copy, or the flash copy with the SEQ in force.
DEDUCED, log 23. -/
def State.restartImage (s : State) (d : Nat) : Option (List Byte) :=
  if s.image.isEmpty then some []
  else if s.dieUp (1 - d) && s.imageHeld (1 - d) then some s.image
  else
    match [0, 1].find? (fun c => s.recValid c && beAt (s.recHeader c) 12 4 == s.get (.mid .CFG_SEQ_SEQ)) with
    | some c => some (s.recImage c)
    | none => none

/-- A pair belongs to a die: it names a register of its window, or of a channel homed on it (R424, R426). -/
def State.pairOf (s : State) (d addr : Nat) : Bool :=
  match findReg addr with
  | some l => match l.rd.mode with
    | .chan => s.get (.cch .CTRL_HOME_DIE) l.i == d
    | _ => l.die == some d
  | none => false

/-- The pairs of the image that pass a test load again. SKIPPED counts an image once, when it is first loaded. -/
def reloadPairs (p : Nat → Bool) (s : State) : State :=
  let n := s.get (.mid .CFG_IMG_SKIPPED)
  let l := (s.records.flatMap (·.pairs)).filter (fun x => p x.1)
  (forEach l (fun x s => bootPair x.1 x.2 s) s).put (.mid .CFG_IMG_SKIPPED) n

/-- The counters of a restarted die take the mirror's values, and the mirror that it holds for the other die is rebuilt
(R281, R299). -/
def seqRestore (d : Nat) (s : State) : State :=
  let mine := (s.store.keysOf (.shp .xMIRROR)).filter (fun k => k.i == d)
  let s := forEach mine (fun k s => s.put (.shp .SEQ_NEXT) (s.store.get k - 1) d k.j) s
  let theirs := (s.store.keysOf (.shp .SEQ_NEXT)).filter (fun k => k.i == 1 - d)
  let s := forEach theirs (fun k s => s.put (.shp .xMIRROR) (s.store.get k + 1) (1 - d) k.j) s
  s.put (.shp .STATUS_SEQ_RESTORED) 1 d

/-- The flows that cross stop until their domain's next boundary (R37).
DEDUCED, log 27. -/
def crossStop (s : State) : State := forEach (List.range 8) (fun dom s => s.put (.mid .xX_HOLD) (s.tai + 1) dom) s

/-- A region whose group is LOST again after a restart is out of service: its units read RETIRED (R311). -/
def regionOut (g : Nat) (s : State) : State :=
  forEach ((List.range 20).map (· + 20 * g)) (fun u s => s.put (.cus .UNIT_STATE) 3 u) s

/-- The bundle that a restarting die loads: during a revert, the previous one (R450). -/
def State.restartSlot (s : State) : Nat :=
  if s.get (.fwu .STATUS_STATE) = 7 then 1 - s.activeSlot else s.activeSlot

/-- A restarting die is up again (R470, R426): steps 4 and 5. Without an image to load it stays down (R426). -/
def dieReturns (d : Nat) (failed : List (Nat × Nat)) (s : State) : State :=
  if s.safe || !s.dieOff d || s.dieHeld d || s.inWinter then s
  else
    match s.restartImage d with
    | none => (record ⟨0x65, d, 0, 0⟩ false false s).putBit (.flt .STATUS_DIE_HELD) d true
    | some img =>
      let s : State := { s with image := img }
      let s := storesLoad d s.restartSlot s
      let s := reloadPairs (s.pairOf d) s
      let s := trainGroups d failed s.mapErased (unitsApply d (repairsApply d s))
      let s := forEach (s.lostGroups d) regionOut s
      let s := seqRestore d (dieStart d s.restartSlot s)
      let s := crossStop (s.putBit (.flt .STATUS_DIE_DOWN) d false)
      stepSeven (s.putBit (.mid .STATUS_DIE_UP) d true)

/-- DIE_UP (R470). -/
def execDieUp (d : Die) (failed : List (Fin 4 × Device)) (now : Now) (s : State) : Host.Outcome State Fault Refusal :=
  s.runAt now (fun s => poolsSettle (dieReturns d (failPairs failed) s))

end Sys2Proof.Machine
end

