-- ==== Sys2Proof/Machine/Packets.lean ====
section
/-!
DEFINITION. The packets of channels: ELC over RTP (R83 to R87), HEVC over RTP (R137, R138), and ST 2110-20 (R273, R514),
as built and as received.
-/

namespace Sys2Proof.Machine

/-- An RTP header; the sequence number is written in by the Bridle (R281). -/
def rtpBytes (ext mark : Bool) (pt seq ts ssrc : Nat) : List Byte :=
  beBytes 2 ((if ext then 0x9000 else 0x8000) + (if mark then 128 else 0) + pt % 128) ++ beBytes 2 (seq % 65536) ++
  beBytes 4 (ts % 2 ^ 32) ++ beBytes 4 (ssrc % 2 ^ 32)

/-- Byte ranges of at most `max` bytes: offset and bytes (R85). -/
def fragments (max : Nat) : Nat → Nat → List Byte → List (Nat × List Byte)
  | 0, _, _ => []
  | n + 1, o, l => if l = [] then [] else (o, l.take max) :: fragments max n (o + max) (l.drop max)

/-- The payload header of R84 with its bytes. -/
def Frag.bytes (p : Frag) (ext : Nat) : List Byte :=
  beBytes 1 (0x40 + (if p.hdr then 16 else 0) + 8 * p.start.toNat + 4 * p.stop.toNat + 2 * p.trunc.toNat + p.last.toNat) ++
  beBytes 1 p.row ++ beBytes 3 (p.stripe * 2 ^ 21 + p.ofs) ++ beBytes 2 ext ++ beBytes 1 p.picId ++ p.body

/-- The packets of a stripe unit (R85). -/
def unitFrags (max : Nat) (u : SUnit) (lastRow : Bool) : List Frag :=
  (fragments max (u.bytes.length + 1) 0 u.bytes).map (fun p =>
    ⟨false, p.1 == 0, p.1 + p.2.length == u.bytes.length, bitOf (byteAt u.bytes 1) 4, lastRow, u.row, u.stripe, p.1,
     u.pic % 256, p.2⟩)

/-- The packets of a picture header (R84, R85): one, or two identical ones. -/
def hdrFrags (bytes : List Byte) (twice : Bool) (pic : Nat) : List Frag :=
  List.replicate (if twice then 2 else 1) ⟨true, true, true, false, false, 255, 0, 0, pic % 256, bytes⟩

/-- PAYLOAD_MAX of a channel in a bank, taken into its range (R89, R66). -/
def State.payloadMax (s : State) (ch bank : Nat) : Nat := clampTo 256 8952 (s.get (.cch .RTP_PAYLOAD_MAX) ch 0 bank)

/-- A packet of a channel enters the Bridle (R278): it takes its number and its IPv4 identification (R280, R281), and is
delivered under the handle of its flow, with its release time where the handle's bucket is in RASTER mode (R274). `body` makes
its bytes from its extended number. A packet that finds no cell is dropped and counted (R269). -/
def sendOut (ch h dom row ix relAt : Nat) (ts : Nat) (body : Nat → List Byte) (s : State) : State :=
  let d := s.get (.cch .CTRL_HOME_DIE) ch
  if s.flag (.cch .xMUTE) ch then s
  else if !s.availCells d ch (cellsFor ((body 0).length + 4)) then shapeDrop d (some h) 1 s
  else
    let (n, s) := takeSeq d h s
    let ip := s.get (.shp .xIPID) d h
    let s := s.bump (.shp .xIPID) d h
    let (id, s) := newChain d ch (body n) 0 ts [] { noMeta with rtp := some 0 } s
    let tc := s.get (.shp .TPL_CFG_TC) d h 1
    deliver d h false
      ⟨id, tc, s.bktMode d h == bktRASTER, false, relAt, ch, dom, row, ix, true, n, ip, 1 + d * 4096 + h⟩ s

/-- The time in 2^-16 ns at which a domain reaches a number of ticks. -/
def State.relTime (s : State) (dom k : Nat) : Nat := s.timeOfTicks dom k * 65536

/-- REL_WIN of a channel in a bank, in quarter lines (R194, R207). -/
def State.relWin (s : State) (ch bank : Nat) : Nat := clampTo 1 8 (s.get (.cch .TIME_REL_WIN) ch 0 bank)

/-- The packets of a committed encode row are released over its window (R272). -/
def sendRow (ch n row : Nat) (bodies : List (Nat → List Byte)) (s : State) : State :=
  let bank := picBank n
  let w := s.picWork ch n
  let h := s.get (.cch .FLOW_OUT_FLOW) ch 0 bank
  let k := bodies.length
  let wt := s.relWin ch bank * 16384
  forEach bodies.zipIdx (fun p s =>
    sendOut ch h w.dom row p.2 (s.relTime w.dom (s.relTicks ch n row + ceilDiv (p.2 * wt) k)) (s.rtpTime w.dom n) p.1 s) s

/-- An ELC packet (R83, R84). -/
def elcBody (pt ts ssrc : Nat) (mark : Bool) (p : Frag) (seq : Nat) : List Byte :=
  rtpBytes false mark pt seq ts ssrc ++ p.bytes (seq / 65536)

/-- The packets of a row of an ELC picture (R85, R86): the header copies ahead of row 0, then the units in increasing
stripe index. The marker stands on the last packet of the picture. -/
def elcRow (ch n row : Nat) (hdr : List Byte) (units : List SUnit) (s : State) : State :=
  let bank := picBank n
  let w := s.picWork ch n
  let last := row + 1 == w.rows
  let fr := (if row = 0 then hdrFrags hdr (s.flag (.cch .RTP_HDR_REPEAT) ch 0 bank) n else []) ++
    (insSort (fun a b : SUnit => decide (a.stripe < b.stripe)) units).flatMap (fun u => unitFrags (s.payloadMax ch bank) u last)
  let pt := clampTo 96 127 (s.get (.cch .RTP_ELC_PT) ch 0 bank)
  let ssrc := s.get (.cch .SSRC_SSRC) ch 0 bank
  let ts := s.rtpTime w.dom n
  sendRow ch n row (fr.zipIdx.map (fun p => elcBody pt ts ssrc (last && p.2 + 1 == fr.length) p.1)) s

-- HEVC over RTP (R137)

/-- The payloads of a NAL unit: alone where it fits, otherwise as fragmentation units (R137). -/
def nalPayloads (max : Nat) (nal : List Byte) : List (List Byte) :=
  if nal.length ≤ max then [nal]
  else
    let t := byteAt nal 0 / 2 % 64
    let h0 := byteAt nal 0 / 128 * 128 + 49 * 2 + byteAt nal 0 % 2
    let fr := fragments (max - 3) nal.length 0 (nal.drop 2)
    fr.map (fun p => beBytes 1 h0 ++ slice nal 1 1 ++
      beBytes 1 ((if p.1 = 0 then 128 else 0) + (if p.1 + p.2.length + 2 = nal.length then 64 else 0) + t) ++ p.2)

/-- Parameter sets and prefix SEI in one aggregation packet where it fits, otherwise each in packets of its own (R137). -/
def setPayloads (max : Nat) (nals : List (List Byte)) : List (List Byte) :=
  let ap := beBytes 2 0x6001 ++ nals.flatMap (fun n => beBytes 2 n.length ++ n)
  if nals = [] then [] else if ap.length ≤ max then [ap] else nals.flatMap (nalPayloads max)

/-- The packets of a row of an HEVC picture (R137).
DEDUCED, log 84. -/
def hevcRow (ch n row : Nat) (payloads : List (List Byte)) (s : State) : State :=
  let bank := picBank n
  let w := s.picWork ch n
  let pt := clampTo 96 127 (s.get (.cch .RTP_HEVC_PT) ch 0 bank)
  let ssrc := s.get (.cch .SSRC_SSRC) ch 0 bank
  let ts := s.rtpTime w.dom n
  let k := payloads.length
  sendRow ch n row (payloads.zipIdx.map (fun p => fun seq =>
    rtpBytes false (row + 1 == w.rows && p.2 + 1 == k) pt seq ts ssrc ++ p.1)) s

-- ST 2110-20 (R273)

/-- Pixels and bytes of a pgroup.
PRESUMED, log 76. -/
def pgroup (f : Fmt) : Nat × Nat :=
  if f.c44 then (match f.d with
    | 10 => (4, 15)
    | 12 => (2, 9)
    | _ => (1, 6))
  else (2, f.d / 2)

/-- The samples of `n` pixels from pixel `x` of a line, in the order of a pgroup: `v` reads a plane. -/
def pixelSmps (f : Fmt) (v : Nat → Nat → Nat) (x n : Nat) : List Nat :=
  if f.c44 then (List.range n).flatMap (fun i => [v 1 (x + i), v 0 (x + i), v 2 (x + i)])
  else (List.range (n / 2)).flatMap (fun i =>
    let c := x / 2 + i
    [v 1 c, v 0 (2 * c), v 2 c, v 0 (2 * c + 1)])

/-- `k` pgroups from pixel `x` of a line.
PRESUMED, log 76. -/
def packGroups (f : Fmt) (v : Nat → Nat → Nat) (x k : Nat) : List Byte :=
  let (np, nb) := pgroup f
  packBits (k * nb) ((pixelSmps f v x (k * np)).flatMap (natBits f.d))

/-- Numbers of `d` bits.
PRESUMED, log 76. -/
def chunkBits (d : Nat) : Nat → List Bool → List Nat
  | 0, _ => []
  | n + 1, l => bitsNat (l.take d) :: chunkBits d n (l.drop d)

/-- The plane and column of each sample of pgroups that start at pixel `x`, `n` samples in all. -/
def smpPlaces (f : Fmt) (x n : Nat) : List (Nat × Nat) :=
  (List.range n).map (fun i =>
    if f.c44 then ([1, 0, 2].getD (i % 3) 0, x + i / 3)
    else
      let c := x / 2 + i / 4
      match i % 4 with
      | 0 => (1, c)
      | 1 => (0, 2 * c)
      | 2 => (2, c)
      | _ => (0, 2 * c + 1))

/-- A run of samples of a source line as received: line, first pixel, its bytes, and where they start in the frame. -/
structure Srd where
  line  : Nat
  pixel : Nat
  body  : List Byte
  ofs   : Nat
  deriving DecidableEq, Repr

/-- The headers of the sample rows of an ST 2110-20 payload, after the extended sequence number: length, line and pixel. -/
def srdHeads : Nat → List Byte → List (Nat × Nat × Nat) × List Byte
  | 0, l => ([], l)
  | n + 1, l =>
    if l.length < 6 then ([], [])
    else
      let h := (beAt l 0 2, beAt l 2 2 % 32768, beAt l 4 2 % 32768)
      if 32768 ≤ beAt l 4 2 then
        let (t, r) := srdHeads n (l.drop 6)
        (h :: t, r)
      else ([h], l.drop 6)

/-- The sample rows of an ST 2110-20 payload. -/
def readSrds (p : Rtp) : List Srd :=
  let (hs, rest) := srdHeads 3 (p.body.drop 2)
  (hs.foldl (fun (a : List Srd × List Byte × Nat) h =>
    (a.1 ++ [⟨h.2.1, h.2.2, a.2.1.take h.1, a.2.2⟩], a.2.1.drop h.1, a.2.2 + h.1))
    (([] : List Srd), rest, p.ofs + (p.body.length - rest.length))).1

/-- The bytes of the pgroups of a line (R273). -/
def lineGroups (f : Fmt) : Nat := ceilDiv f.w (pgroup f).1

/-- Packets per line (R273). -/
def linePackets (f : Fmt) (max : Nat) : Nat := ceilDiv (lineGroups f * (pgroup f).2) (max - 8)

/-- The first pgroup and the pgroups of packet `i` of the `k` of a line (R273). -/
def packetGroups (p k i : Nat) : Nat × Nat :=
  let big := p % k
  (i * (p / k) + min i big, p / k + (if i < big then 1 else 0))

/-- The header extension with the flag word (R182).
DEDUCED, log 80. -/
def flagExt (id word : Nat) : List Byte := beBytes 4 0xBEDE0001 ++ beBytes 1 (id * 16 + 1) ++ beBytes 2 word ++ [0]

/-- The pictures that the stream of an HEVC decode channel reorders, as its active SPS says (R130). -/
def State.reorder (s : State) (ch n : Nat) : Nat :=
  match s.get (.ref .xPS) ch 0 (n % 2) with
  | 0 => 0
  | p + 1 => match s.psets ch p with
    | some x => x.2.reorder
    | none => 0

/-- The ticks from DL(0) of picture `n` of a decode channel to the release of its first output packet, T0: 16 lines (R273); for
HEVC, whose rows take longer to decode, the lines of R203 and one picture for each reordered one.
DEDUCED, log 84. -/
def State.leadTicks (s : State) (ch n : Nat) : Nat :=
  let w := s.picWork ch n
  if w.hevc then ((w.time w.w).ceil.toNat + 1) * 65536 + s.reorder ch n * s.picTicks w.dom else 16 * 65536

/-- The ticks of the release of packet `j` of picture `n` of a decode channel (R273): in Type W a group leaves with its first
packet. -/
def State.sendTicks (s : State) (ch n total j : Nat) : Nat :=
  let w := s.picWork ch n
  let d := s.get (.cch .CTRL_HOME_DIE) ch
  let h := s.get (.cch .FLOW_OUT_FLOW) ch 0 (picBank n)
  let j := if s.flag (.shp .BKT_CFG_SENDER_W) d h 1 then
      let g := s.get (.shp .BKT_CFG_W_GROUP_M1) d h 1 + 1
      j / g * g
    else j
  s.rowTicks ch n 0 + s.leadTicks ch n + ceilDiv (j * w.tot * 65536) total

/-- The ST 2110-20 packets of the lines of a committed decode row (R273, R182, R514). `lines` are the row's active lines
with the reader of each. -/
def videoRow (ch n row word : Nat) (f : Fmt) (lines : List Nat) (v : Nat → Nat → Nat → Nat) (s : State) : State :=
  let bank := picBank n
  let w := s.picWork ch n
  let h := s.get (.cch .FLOW_OUT_FLOW) ch 0 bank
  let max := s.payloadMax ch bank
  let k := linePackets f max
  let total := k * f.h
  let id := s.get (.ref .CFG_FLAG_EXT_ID) ch 0 bank % 15
  let ext := id != 0 && (word != 0 || s.flag (.ref .CFG_FLAG_ALL) ch 0 bank)
  let pt := clampTo 96 127 (s.get (.cch .OUT_OUT_PT) ch 0 bank)
  let ssrc := s.get (.cch .OUT_SSRC_OUT_SSRC) ch 0 bank
  let ts := s.rtpTime w.dom n
  let (np, _) := pgroup f
  forEach lines (fun y s => forEach (List.range k) (fun i s =>
    let (g0, gn) := packetGroups (lineGroups f) k i
    let body := packGroups f (fun pl x => v pl x y) (g0 * np) gn
    let j := y * k + i
    sendOut ch h w.dom row j (s.relTime w.dom (s.sendTicks ch n total j)) ts (fun seq =>
      rtpBytes ext (j + 1 == total) pt seq ts ssrc ++ (if ext then flagExt id word else []) ++ beBytes 2 (seq / 65536) ++
      beBytes 2 body.length ++ beBytes 2 y ++ beBytes 2 (g0 * np) ++ body) s) s) s

-- What a channel has received

/-- Packets that a channel has consumed or discarded (R293). -/
def consume (l : List Inp) (s : State) : State :=
  forEach l (fun i s => dropRef i.chain { s with inputs := s.inputs.erase i }) s

end Sys2Proof.Machine
end

