-- ==== Sys2Proof/Machine/Pics.lean ====
section
/-!
DEFINITION. The life of a picture of a channel (R166, R193, R207): the marks of the picture in work, its end at its store
point, and the end of a channel that stops after it.
-/

namespace Sys2Proof.Machine

/-- A mark of a picture, kept by the parity of its number. -/
def Key.ofPic (k : Key) : Bool :=
  match k.fld with
  | .cch f => match f with
    | .xROW | .xSTR | .xCHKD | .xSHAD | .xDEP | .xRX | .xRXN | .xSRC | .xSRCP => true
    | _ => false
  | .qrc f => match f with
    | .xBF | .xBAND | .xREPAID | .xROWB | .xPEAK | .xM_N | .xM_Q | .xM_B | .xT_B | .xT_N => true
    | _ => false
  | .ref f => match f with
    | .xHDR | .xH_OK | .xPS | .xPOC | .xMISS | .xPARB | .xHASH | .xROWF | .xPICF | .xDMG_A | .xDMG_B | .xREAS | .xSUBS | .xUSED | .xNOBUF | .xCONC => true
    | _ => false
  | _ => false

/-- The buffers of a class that a channel holds on a die. -/
def State.heldOn (s : State) (d ch c : Nat) : Nat :=
  (s.bufs.filter (fun b => b.owner == ch && b.cls == c && b.grp / 4 == d)).length

/-- The reserves of a channel on a die fall to what it holds there (R291). -/
def dropReserves (d ch : Nat) (s : State) : State :=
  forEach (List.range 8) (fun c s => s.when (decide (s.heldOn d ch c < s.get (.pdk .OWN_RSV_RSV) d ch c)) (fun s =>
    s.put (.pdk .OWN_RSV_RSV) (s.heldOn d ch c) d ch c)) s

/-- The debt slab of a channel returns (R157, R291). -/
def dropSlab (ch : Nat) (s : State) : State :=
  let h := s.get (.qrc .xSLAB) ch
  s.when (h != 0) (fun s => (giveBack (h - 1) s).put (.qrc .xSLAB) 0 ch)

/-- The slots that a channel start empties (R167): every SHORT one, and the LONG ones unless they are kept and of the format of
the channel. -/
def State.startSlots (s : State) (ch : Nat) (f : Fmt) : List Nat :=
  let keep := s.flag (.ref .CFG_KEEP_LT) ch 0 1
  (List.range 6).filter (fun k => s.get (.ref .SLOT_MARK) ch k != 0 && !(s.get (.ref .SLOT_MARK) ch k == 2 && keep && s.slotFits ch k f))

/-- A channel start on the boundary after picture `n` empties what that picture stored too (R167). What the channel held on the other
die, or for encode work that it no longer does, returns. -/
def startDrop (ch n : Nat) (s : State) : State :=
  let d := s.get (.cch .CTRL_HOME_DIE) ch
  let v := s.get (.ref .xDROP) ch 0 ((n + 1) % 2)
  let s := s.put (.ref .xDROP) 0 ch 0 ((n + 1) % 2)
  s.when (bitOf v 6) (fun s =>
    let s := forEach (s.startSlots ch (s.work ch 1).fmt) (emptySlot ch) s
    let s := s.when (s.chWork ch % 2 == 1) (dropSlab ch)
    poolSettle d (poolSettle (1 - d) (dropReserves (1 - d) ch s)))

/-- The marks of picture `n` of a channel return to their start. -/
def clearPic (ch n : Nat) (s : State) : State :=
  s.keepKeys (fun k => !(k.ofPic && k.i == ch && k.k == n % 2))

/-- The number of a stripe's marks. -/
def strIx (row stripe : Nat) : Nat := row * 8 + stripe

/-- The state of a stripe of picture `n`. -/
def State.strSt (s : State) (ch n row stripe : Nat) : Nat := s.get (.cch .xSTR) ch (strIx row stripe) (n % 2)

/-- The state of a stripe set. -/
def putStr (ch n row stripe v : Nat) (s : State) : State := s.put (.cch .xSTR) v ch (strIx row stripe) (n % 2)

/-- The stripes of the layout of picture `n`, as the Harness gave it. -/
def State.layoutOf (s : State) (ch n : Nat) : Nat := s.get (.cch .xL_N) ch 0 (picBank n)

/-- The stripe_units of the layout of picture `n` (R70, R189). -/
def State.unitsOf (s : State) (ch n : Nat) : List Nat :=
  List.replicate (s.layoutOf ch n - 1) (s.get (.cch .xL_G) ch 0 (picBank n))

/-- A channel ends its run in a state (R207, R291): its working buffer and debt slab return, its reserves fall to the
buffers that its slots hold, what it has received is released, and its units are free of it. -/
def endRun (ch st : Nat) (s : State) : State :=
  let d := s.get (.cch .CTRL_HOME_DIE) ch
  let s := dropWork ch 0 (dropWork ch 1 s)
  let s := dropReserves d ch (dropSlab ch s)
  let s := consume (s.inputs.filter (fun i => i.ch == ch)) s
  let s : State := { s with units := s.units.filter (fun u => u.ch != ch) }
  let s := setChState ch st s
  let s := ((s.put (.cch .xSTOP) 0 ch).put (.cch .STATUS_COST) 0 ch).put (.cch .STATUS_STRIPES_M1) 0 ch
  let s := ((s.put (.cch .CTRL_STOP) 0 ch).put (.cch .CTRL_MOVE_DIE) 0 ch).put (.cch .CTRL_HANDOVER) 0 ch
  let s := ((s.put (.cch .xBANK) 0 ch).put (.cch .xMOVE_AT) 0 ch).put (.cch .xHO) 0 ch
  let s := ((s.put (.cch .xL_N) 0 ch 0 1).put (.cch .xL_N) 0 ch).put (.cch .xP_NEW) 0 ch
  let s := forEach (List.range 8) (fun j s => (s.put (.cch .UNIT_UNIT) 255 ch j).put (.cch .UNIT_OFS) 0 ch j) s
  poolSettle d (cusRefresh d s)

/-- A channel that is to stop ends once its last picture is done (R207). -/
def tryStop (ch : Nat) (s : State) : State :=
  s.when (s.get (.cch .xSTOP) ch != 0 && s.picsDone ch) (fun s => endRun ch (s.get (.cch .xSTOP) ch - 1) s)

/-- The end of picture `n`, whose pic_count is `pic` (R166, R182, R359): its flags stand in `REF_OUT_FLAGS`, PIC_DONE
asserts, and a channel that stops after it ends. -/
def picEnd (ch n pic : Nat) (s : State) : State :=
  let s := publishFlags ch pic (n % 2) s
  let s := s.put (.cch .xDONE) (n + 1) ch
  let s := forEach (List.range 6) (fun k s => (s.put (.ref .SLOT_SUBST) 0 ch k).put (.ref .SLOT_GREY) 0 ch k) s
  tryStop ch (evPulse (8 * ch) (pic % 2 ^ 14) s)

/-- Slice rows of picture `n` may start: the picture before it, where the channel coded one, has passed its store point
(R166). The CTU rows of HEVC pictures overlap (R191). -/
def State.mayWork (s : State) (ch n : Nat) : Bool :=
  ((s.picWork ch n).hevc && (s.picWork ch (n - 1)).hevc) || !s.hasPic ch (n - 1) || decide (n ≤ s.get (.cch .xDONE) ch)

/-- A channel that takes part in the row grid. -/
def State.chRuns (s : State) (ch : Nat) : Bool :=
  let st := s.get (.cch .STATUS_STATE) ch
  (st == chRUNNING || st == chLEAVING) && !s.safe && s.dieUp (s.get (.cch .CTRL_HOME_DIE) ch) &&
  s.get (.pwr .xWIN_STEP) != 2 && decide (s.get (.pwr .STATUS_SEASON) < 2)

end Sys2Proof.Machine
end

