-- ==== Sys2Proof/Machine/Dec.lean ====
section
/-!
DEFINITION. Decode (R87, R88, R92, R94 to R114, R170 to R181): what a row's deadline finds, the decoding of a stripe,
concealment, the commit of a row, and the requests for a refresh.
-/

namespace Sys2Proof.Machine

/-- A stripe unit as its deadline finds it: the bytes, if it is complete and its fields hold (R87, R95). One that is truncated though it
codes every block of its stripe is lost.
DESIGN CHOICE, log 102. -/
def unitOf (h : PicHdr) (row stripe : Nat) (l : List Frag) : Option (List Byte) :=
  match assemble l with
  | none => none
  | some b =>
    let n := b.length
    let u := readStr b
    let (c0, c1) := stripeCols h.fmt.cols h.units stripe
    let full := 2 * (c1 - c0)
    if n < 16 ∨ crc32c (b.take (n - 4)) ≠ beAt b (n - 4) 4 ∨ u.row ≠ row ∨ u.stripe ≠ stripe ∨ u.picId ≠ h.count % 65536 ∨
      u.len + 16 ≠ n ∨ full < u.blocks ∨ (u.blocks < full ∧ !u.trunc) ∨ (u.blocks = full ∧ u.trunc) then none
    else some b

-- Decoding (R76 to R82, R94, R173, R176)

/-- What the decoding of a stripe unit comes to: done, lost under R95 or R126, or put off until the other stripes of the
row are reconstructed, because a block must be concealed (R173, R179). -/
inductive StripeFate where
  | done (s : State)
  | lost
  | later

/-- A stripe that is being decoded. `final` tells that the other stripes of the row are reconstructed. -/
structure DecCtx where
  ch    : Nat
  n     : Nat
  row   : Nat
  h     : PicHdr
  u     : StrHdr
  l     : Lost
  final : Bool
  deriving DecidableEq, Repr

/-- The saturating age of a reference (R169). -/
def ageOf (pic : Nat) (r : RefPic) : Nat := min 255 ((pic + 2 ^ 32 - r.pic % 2 ^ 32) % 2 ^ 32)

/-- A block that reads a substitute (R176, R177): its flags, the picture's counters once, and the damage. -/
def noteSubst (ch n row pic : Nat) (rs : List (RefPic × Option Nat)) (s : State) : State :=
  forEach (rs.filter (fun r => r.2.isSome)) (fun r s =>
    let k := n % 2
    let grey := r.1.buf.isNone
    let was := s.get (.ref .xUSED) ch 0 k
    let s := s.when (!bitOf was 0 && !grey) (fun s => (s.put (.ref .xUSED) (was + 1) ch 0 k).bump (.ref .CNT) ch 7)
    let s := s.when (!bitOf was 1 && grey) (fun s => (s.put (.ref .xUSED) (was + 2) ch 0 k).bump (.ref .CNT) ch 8)
    let s := flagRow ch row k flSUBST pic s
    let s := s.when grey (flagRow ch row k flGREY pic)
    noteDamage ch row k (r.2.getD 2) (s.put (.ref .xCONC) 1 ch 0 k)) s

/-- One block of a stripe, from its elements: the state after it, and its quantiser; none where R95 loses the unit, and
`.error` where it must be concealed and that has to wait. A skip block of a P picture without slot 0 reads a substitute.
DESIGN CHOICE, log 102. -/
def decBlock (c : DecCtx) (x b : Nat) (e : BlkEl) (qPred : Nat) (s : State) : Option (Except Unit (State × Nat)) :=
  let f := c.l.f
  let v := avail f.cols c.l.c0 c.l.c1 x b
  let l := s.sum c.ch (x - 1) b
  let a := s.sum c.ch x (b - 1)
  let ar := s.sum c.ch (x + 1) (b - 1)
  let al := s.sum c.ch (x - 1) (b - 1)
  let cbf := e.tbs.any TbEl.cbf
  let q : Int := (qPred : Int) + (if cbf then e.qpd else 0)
  let isSkipP := e.typ == 0 && c.h.isP
  let prd : List (Nat × Int × Int) := if isSkipP then [(0, 0, 0)] else e.prd
  let refs := prd.map (fun p =>
    let m := mvPred v c.h.isP p.1 l a ar al
    (p.1, m.1 + p.2.1, m.2 + p.2.2))
  let inRange := fun (p : Nat × Int × Int) => decide (-256 ≤ p.2.1 ∧ p.2.1 ≤ 256 ∧ -48 ≤ p.2.2 ∧ p.2.2 ≤ 48)
  if q < 0 ∨ 63 < q ∨ !refs.all inRange ∨ (!isSkipP ∧ !refs.all (fun p => bitOf c.h.valid p.1)) then none
  else
    let q := q.toNat
    let rs := refs.map (fun p => (s.refFor c.ch c.h p.1, p.2.1, p.2.2))
    let inter := !refs.isEmpty
    let lines := fun (r : (RefPic × Option Nat) × Int × Int) => linesRead f x b r.2.1 r.2.2
    let pois := rs.any (fun r => !(s.poisonIn f r.1.1 (lines r)).isEmpty)
    if pois then
      if !c.final then some (.error ())
      else
        let s := noteSubst c.ch c.n c.row c.l.pic (rs.map (·.1)) s
        let s := noteDamage c.ch c.row (c.n % 2) 3 (flagRow c.ch c.row (c.n % 2) flPOISON c.l.pic (s.bump (.ref .CNT) c.ch 9))
        some (.ok (concealBlock c.l x b true s, q))
    else
      let subst := rs.any (fun r => r.1.2.isSome)
      let s := noteSubst c.ch c.n c.row c.l.pic (rs.map (·.1)) s
      let bad := rs.any (fun r => s.badIn f r.1.1 (lines r))
      let s := s.when bad (fun s => s.put (.ref .STATUS_SB_BAD) 1 c.ch)
      let taint := if inter then subst || rs.any (fun r => s.taintIn f r.1.1 (lines r))
        else (v.left && l.taint) || (v.above && a.taint) || (v.right && ar.taint) || (v.corner && al.taint)
      let taint := taint && !c.l.enc
      let s := s.when (taint && !subst) (flagRow c.ch c.row (c.n % 2) flINHERITED c.l.pic)
      let p := if inter then Pred.inter (rs.map (fun r => (r.1.1, r.2.1, r.2.2))) else Pred.intra e.mode
      let s := recBlock c.ch f v x b p e.tbs (effQ f false q 0 false) (effQ f true q c.u.cOff c.u.reduce) s
      let r0 := refs.headD (0, 0, 0)
      let r1 := (refs.drop 1).headD (0, 0, 0)
      let age := fun i => match rs[i]? with
        | some r => ageOf c.l.pic r.1.1
        | none => 0
      some (.ok (setBlock c.ch (c.n % 2) f x b ⟨1, e.typ, e.mode, taint, r0.1, r1.1, 0, r0.2.1, r0.2.2, r1.2.1, r1.2.2, q, cbf, false,
        age 0, age 1, c.l.pic⟩ s, q))

/-- The blocks of a stripe in coding order: those coded, then those of a truncated stripe as skip blocks (R82). The data
must not outlast them by more than 7 bits (R95). -/
def decBlocks (c : DecCtx) : List (Nat × Nat) → Nat → Ent → Nat → State → StripeFate
  | [], _, e, _, s => if e.bits.length ≤ 7 then .done s else .lost
  | (x, b) :: t, left, e, q, s =>
    let f := c.l.f
    let v := avail f.cols c.l.c0 c.l.c1 x b
    let cx := btCtx v (s.sum c.ch (x - 1) b) (s.sum c.ch x (b - 1))
    match (if left = 0 then some ((⟨0, 0, [], 0, []⟩ : BlkEl), e) else getBlock f.numTb cx c.h.isP e) with
    | none => .lost
    | some (el, e) =>
      match decBlock c x b el q s with
      | none => .lost
      | some (.error _) => .later
      | some (.ok (s, q)) => decBlocks c t (left - 1) e q s

/-- The columns and neighbours of a stripe of picture `n`, as concealment needs them. A stripe beside it counts as decoded
when it was reconstructed without concealment (R179). -/
def State.lostCtx (s : State) (ch n row i : Nat) : Lost :=
  let (f, units, pic) := s.picFmt ch n
  let (c0, c1) := stripeCols f.cols units i
  let isI := match s.hdrOf ch n with
    | some h => !h.isP
    | none => false
  ⟨ch, n % 2, f, pic, isI, c0, c1, decide (0 < i) && s.strSt ch n row (i - 1) == 2,
   decide (i < units.length) && s.strSt ch n row (i + 1) == 2, (s.picWork ch n).enc⟩

/-- A stripe unit that is held is decoded (R94). -/
def decodeStripe (ch n row i : Nat) (final : Bool) (s : State) : StripeFate :=
  match s.hdrOf ch n, s.units.find? (fun u => u.ch == ch && u.pic == n && u.row == row && u.stripe == i) with
  | some h, some u =>
    let l := s.lostCtx ch n row i
    let uh := readStr u.bytes
    decBlocks ⟨ch, n, row, h, uh, l, final⟩ (codingOrder row l.c0 l.c1) uh.blocks
      ⟨bytesBits (slice u.bytes 12 uh.len), ctxInit⟩ uh.qpBase s
  | _, _ => .lost

/-- A stripe counts as lost (R87, R95): counted, with its damage. -/
def loseStripe (ch n row i : Nat) (s : State) : State :=
  noteDamage ch row (n % 2) 1 ((putStr ch n row i 3 s).bump (.ref .CNT) ch 4)

/-- The unit of a stripe that is held. -/
def State.unitHeld (s : State) (ch n row i : Nat) : Option SUnit :=
  s.units.find? (fun u => u.ch == ch && u.pic == n && u.row == row && u.stripe == i)

/-- The blocks of a stripe that words of bad parity hold (R20), by their place in coding order. -/
def State.parityBad (s : State) (ch n row i : Nat) : Nat := s.get (.ref .xPARB) ch (strIx row i) (n % 2)

/-- A stripe that was decoded: a truncated one is flagged and counted (R82), and blocks that a word of bad parity holds
wait to be concealed (R20, R173). -/
def stripeDecoded (ch n row i : Nat) (s : State) : State :=
  let l := s.lostCtx ch n row i
  let trunc := (s.unitHeld ch n row i).any (fun u => (readStr u.bytes).trunc)
  let s := s.when trunc (fun s => flagRow ch row (n % 2) flTRUNC l.pic (s.bump (.ref .CNT) ch 10))
  let hit := (codingOrder row l.c0 l.c1).zipIdx.filter (fun p => bitOf (s.parityBad ch n row i) p.2)
  if hit.isEmpty then putStr ch n row i 2 s
  else
    let s := forEach hit (fun p s => s.put (.ref .xSB) 0 ch (blkIx p.1.1 p.1.2)) s
    noteDamage ch row (n % 2) 3 (flagRow ch row (n % 2) flPOISON l.pic (putStr ch n row i 6 s))

/-- The blocks of a stripe that words of bad parity hold are concealed (R173). -/
def concealParity (l : Lost) (row : Nat) (s : State) : State :=
  forEach ((codingOrder row l.c0 l.c1).filter (fun p => (s.sum l.ch p.1 p.2).kind == 0)) (fun p s => concealBlock l p.1 p.2 true s) s

/-- A stripe of the row that is not finished, now that the others are: a lost one is concealed whole (R179), one put off is
decoded with its concealed blocks, and blocks of bad parity are concealed. Each conceals some block, so the row carries LOSS
(R180). -/
def finishStripe (ch n row : Nat) (i : Nat) (s : State) : State :=
  let l := s.lostCtx ch n row i
  let lossEnd := fun s : State => flagRow ch row (n % 2) flLOSS l.pic (putStr ch n row i 4 s)
  match s.strSt ch n row i with
  | 3 => lossEnd (concealStripe l row s)
  | 5 =>
    match decodeStripe ch n row i true s with
    | .done t =>
      let t := stripeDecoded ch n row i t
      lossEnd (t.when (t.strSt ch n row i == 6) (concealParity l row))
    | _ => lossEnd (concealStripe l row (loseStripe ch n row i s))
  | 6 => lossEnd (concealParity l row s)
  | _ => s

-- Requests for a refresh (R90, R92)

/-- FB_HOLD of a channel (R89). -/
def State.fbHold (s : State) (ch : Nat) : Nat := clampTo 1 60 (s.chGet (.cch .FB_FB_HOLD) ch)

/-- The lowest bit among some that a mask has set. -/
def lowestOf (l : List Nat) (m : Nat) : Nat := (l.find? (bitOf m)).getD 0

/-- The addresses of the flow that a decode channel receives are noted from one of its packets (R89, R92). -/
def noteSender (ch : Nat) (l : List (Inp × Rtp × Frag)) (s : State) : State :=
  match l.findSome? (fun p => s.chain? p.1.chain) with
  | none => s
  | some c =>
    let m := c.info
    let s := ((s.put (.ref .xFB_VER) m.ver ch).put (.ref .xFB_SRC) m.src ch).put (.ref .xFB_DST) m.dst ch
    (s.put (.ref .xFB_SP) m.sport ch).put (.ref .xFB_DP) m.dport ch

/-- The UDP port of the back-channel (R89): `FB_PORT`, or where that is 0 the flow's destination port + 1. -/
def State.fbPort (s : State) (ch : Nat) : Nat :=
  match s.chGet (.cch .FB_FB_PORT) ch with
  | 0 => (s.get (.ref .xFB_DP) ch + 1) % 65536
  | p => p

/-- A request leaves (R89, R90, R92): from the address and port at which the flow arrives, to the flow's source address and the
back-channel port. The SSRC of its sender is not stated, nor whether req_seq counts the request itself: it does not.
DESIGN CHOICE, log 78. -/
def sendRequest (ch pic a b reasons : Nat) (s : State) : State :=
  let all := bitOf reasons 4 || bitOf reasons 5
  let reason := if all then lowestOf [4, 5] reasons else lowestOf [1, 2, 3] reasons
  let (own, s) := s.free
  let set := s.chGet (.cch .SSRC_SSRC) ch
  let media := if set = 0 then s.get (.ref .xMSSRC) ch else set
  let bytes := beBytes 1 (if all then 0x82 else 0x81) ++ beBytes 1 204 ++ beBytes 2 5 ++ beBytes 4 own ++
    beBytes 4 0x454C4342 ++ beBytes 4 media ++ beBytes 2 pic ++ beBytes 1 (if all then 0 else a) ++
    beBytes 1 (if all then 0 else b) ++ beBytes 1 reason ++ beBytes 1 (s.get (.ref .xREQ_SEQ) ch) ++ [0, 0]
  let out := Out.rtcp ch (s.get (.ref .xFB_VER) ch) (s.get (.ref .xFB_DST) ch) (s.get (.ref .xFB_SRC) ch) (s.get (.ref .xFB_DP) ch)
    (s.fbPort ch) bytes
  let s := (s.emit out).bump (.ref .xREQ_SEQ) ch
  evPulse (8 * ch + 6) (pic % 2 ^ 14) (s.bump (.ref .CNT) ch 13)

/-- Damage of the picture of pic_count `pic` is added to what is to be requested. -/
def collect (ch a b r pic : Nat) (s : State) : State :=
  let a0 := s.get (.ref .xCOL_A) ch
  let s := s.put (.ref .xCOL_A) (if a0 = 0 then a + 1 else min a0 (a + 1)) ch
  let s := s.put (.ref .xCOL_B) (max (s.get (.ref .xCOL_B) ch) (b + 1)) ch
  (s.put (.ref .xCOL_R) (Nat.lor (s.get (.ref .xCOL_R) ch) r) ch).put (.ref .xCOL_PIC) pic ch

/-- What has been collected is sent as one request, unless a hold-off runs, and a new hold-off keeps the `FB_HOLD` pictures after
this one quiet (R92).
DESIGN CHOICE, log 78. -/
def sendCollected (ch : Nat) (s : State) : State :=
  let r := s.get (.ref .xCOL_R) ch
  let now := s.picNow (s.chDom ch)
  if r = 0 ∨ !bitOf (s.chGet (.cch .RTP_FB_EN) ch) 0 ∨ now < s.get (.ref .xHOLD) ch then s
  else
    let s := sendRequest ch (s.get (.ref .xCOL_PIC) ch) (s.get (.ref .xCOL_A) ch - 1) (s.get (.ref .xCOL_B) ch - 1) r s
    let s := ((s.put (.ref .xCOL_A) 0 ch).put (.ref .xCOL_B) 0 ch).put (.ref .xCOL_R) 0 ch
    s.put (.ref .xHOLD) (now + s.fbHold ch + 1) ch

/-- The damage of picture `n` is requested, once its last deadline has passed, or collected during a hold-off (R92).
DESIGN CHOICE, log 78. -/
def requestFor (ch n pic : Nat) (s : State) : State :=
  let k := n % 2
  let r := s.get (.ref .xREAS) ch 0 k
  if r = 0 ∨ (s.picWork ch n).hevc ∨ !s.flag (.cch .RTP_FB_EN) ch 0 (picBank n) then s
  else sendCollected ch (collect ch (s.get (.ref .xDMG_A) ch 0 k - 1) (s.get (.ref .xDMG_B) ch 0 k - 1) r pic s)

-- The commit of a row (R20, R166, R202)

/-- The row holds a concealed block. -/
def State.rowConcealed (s : State) (ch : Nat) (f : Fmt) (row per : Nat) : Bool :=
  (List.range per).any (fun j => (List.range f.cols).any (fun x => (s.sum ch x (per * row + j)).kind == 2))

-- Uncompressed output (R131)

/-- A sample of the picture in work at the depth of the uncompressed output (R131, R208). A depth of 9 bits is taken as that of 8.
DEDUCED, log 105. -/
def State.deepSmp (s : State) (ch : Nat) (f out : Fmt) (pl x y : Nat) : Nat := s.smp ch pl x y * 2 ^ (out.dep pl - f.dep pl)

/-- A sample of the uncompressed output (R131): 4:2:0 chroma makes its lines two by two. -/
def State.outSmp (s : State) (ch : Nat) (f out : Fmt) (pl x y : Nat) : Nat :=
  if pl = 0 ∨ !f.c420 then s.deepSmp ch f out pl x y
  else
    let j := y / 2
    let near := if y % 2 = 0 then j - 1 else min (j + 1) (ceilDiv f.h 2 - 1)
    (3 * s.deepSmp ch f out pl x j + s.deepSmp ch f out pl x near + 2) / 4

/-- Lines of a row of picture `n` leave with the flag word of a row. -/
def sendLines (ch n row : Nat) (lines : List Nat) (s : State) : State :=
  let (f, _, _) := s.picFmt ch n
  let out : Fmt := { (s.picWork ch n).rawFmt with w := f.w, h := f.h }
  let out := if (s.picWork ch n).hevc then out else f
  videoRow ch n row (s.get (.ref .xROWF) ch row (n % 2)) out (lines.filter (fun y => decide (y < f.h))) (fun pl x y => s.outSmp ch f out pl x y) s

/-- The lines that leave when row `row` of picture `n` commits. The last line of a 4:2:0 row waits for the row after it, whose first
chroma line it takes part in (R131).
DEDUCED, log 105. -/
def sendVideo (ch n row : Nat) (s : State) : State :=
  let w := s.picWork ch n
  let (f, _, _) := s.picFmt ch n
  let lines := (List.range w.rowLines).map (· + w.rowLines * row)
  if !f.c420 then sendLines ch n row lines s
  else
    let s := s.when (row != 0) (sendLines ch n (row - 1) [w.rowLines * row - 1])
    sendLines ch n row (if row + 1 < w.rows then lines.dropLast else lines) s

/-- Row `row` of picture `n` commits: its counter, its packets, and after the last row the end of the picture. -/
def commitDecRow (ch n row : Nat) (s : State) : State :=
  let (f, _, pic) := s.picFmt ch n
  let w := s.picWork ch n
  let k := n % 2
  let lost := !w.hevc && s.get (.ref .xH_OK) ch 0 k == 2
  let s := s.when lost (flagRow ch row k flHDR_LOST pic)
  let s := s.when (decide (w.rowLines * row < f.h) && s.rowConcealed ch f row (w.rowLines / 8)) (fun s => s.bump (.ref .CNT) ch 5)
  let s := s.put (.cch .xROW) 2 ch row k
  let s : State := { s with units := s.units.filter (fun u => !(u.ch == ch && u.pic == n && u.row == row)) }
  let s := sendVideo ch n row s
  if row + 1 < w.rows then s
  else
    let s := consume (((s.received ch).filter (fun p => p.2.ts == s.rtpTime w.dom n)).map (·.1)) s
    let s := storeDrop ch n s
    let s := if w.hevc then s else match s.hdrOf ch n with
      | some h => storePic ch n h.slot h.mark h.count f (!s.flag (.ref .xCONC) ch 0 k) s
      | none => s
    let s := startDrop ch n (dropWork ch n s)
    picEnd ch n pic (requestFor ch n pic s)

/-- Once every stripe of a row is decoded or lost, the rest is concealed and the row commits. -/
def closeRow (ch n row : Nat) (s : State) : State :=
  let (_, units, _) := s.picFmt ch n
  let all := List.range (units.length + 1)
  if all.any (fun i => s.strSt ch n row i == 1) then s
  else commitDecRow ch n row (forEach all (finishStripe ch n row) s)

/-- A row of a lost picture is concealed whole (R88, R179). -/
def lostRow (ch n row : Nat) (s : State) : State :=
  let l := s.lostCtx ch n row 0
  let s := noteDamage ch row (n % 2) 5 s
  commitDecRow ch n row (flagRow ch row (n % 2) flLOSS l.pic (concealStripe l row s))

/-- The slots that picture `n` was not given are shown while it decodes (R176). -/
def showSubst (ch n : Nat) (s : State) : State :=
  match s.hdrOf ch n with
  | none => s
  | some h => s.when h.isP (fun s => forEach ((List.range 4).filter (bitOf h.valid)) (fun r s =>
      let (p, why) := s.refFor ch h r
      s.when why.isSome (fun s => (s.put (.ref .SLOT_SUBST) 1 ch r).putB (.ref .SLOT_GREY) p.buf.isNone ch r)) s)

/-- The deadline of row 0 decides whether the picture has a header (R88). -/
def decideHdr (ch n : Nat) (s : State) : State :=
  let s := tryHdr ch n s
  if s.get (.ref .xH_OK) ch 0 (n % 2) = 1 then showSubst ch n s
  else (s.put (.ref .xH_OK) 2 ch 0 (n % 2)).bump (.ref .CNT) ch 3

/-- The deadline of a row of an ELC picture (R87, R88, R179). A row below the picture that its header gives holds nothing and commits at
once.
DESIGN CHOICE, log 102. -/
def elcDeadline (ch n row : Nat) (s : State) : State :=
  let w := s.picWork ch n
  let s := s.when (row == 0) (decideHdr ch n)
  let s := s.put (.cch .xROW) 1 ch row (n % 2)
  let fr := s.fragsOf ch (s.rtpTime w.dom n)
  let s := noteSender ch fr s
  let used := fr.filter (fun p => if p.2.2.hdr then row == 0 else p.2.2.row == row)
  let out := consume (used.map (·.1))
  match s.hdrOf ch n with
  | none =>
    let s := s.bump (.ref .CNT) ch 0 0 (used.filter (fun p => !p.2.2.hdr)).length
    lostRow ch n row (out s)
  | some h =>
    if h.fmt.rows ≤ row then commitDecRow ch n row (out s)
    else
      let mine := (used.filter (fun p => !p.2.2.hdr && p.2.2.picId == h.count % 256)).map (·.2.2)
      let s := forEach (List.range (h.units.length + 1)) (fun i s =>
        match unitOf h row i (mine.filter (fun f => f.stripe == i)) with
        | some b => putStr ch n row i 1 { s with units := s.units ++ [⟨ch, n, row, i, b⟩] }
        | none => loseStripe ch n row i s) s
      closeRow ch n row (out s)

-- HEVC (R130, R133, R138, R166, R168, R173, R177, R181)

/-- The rotation index of a CTU row (R191). Rows go over the channel's units whatever the stream carries; a stream that carries
neither WPP substreams nor tiles is decoded on one unit, slice by slice (R133).
DEDUCED, log 105. -/
def State.hevcIx (s : State) (ch n row : Nat) : Nat :=
  match (if (s.picWork ch n).enc then none else s.picSets ch n) with
  | some x => if x.1.wpp || x.1.tiles then row % max 1 (s.picWork ch n).hevcUnits else 0
  | none => row % max 1 (s.picWork ch n).hevcUnits

/-- The NAL units received of a picture in decoding order, with what is open or lost (R138). -/
def State.nalsIn (s : State) (ch n : Nat) : NalAcc :=
  let ts := s.rtpTime (s.picWork ch n).dom n
  let ps := bySeq (((s.received ch).map (·.2)).filter (fun p => p.ts == ts))
  let a := nalsOf (s.hasDon ch) (ps.map (fun p => (p.seq, p.body)))
  if s.hasDon ch then { a with out := insSort (fun x y : Nal => seqBefore 16 x.don y.don) a.out } else a

/-- A NAL unit that the receiver discards and counts: its forbidden bit is set, or it is of another layer (R130, R138). -/
def Nal.bad (u : Nal) : Bool := bitOf (byteAt u.bytes 0) 7 || nalLayer u.bytes != 0

/-- A parameter set is kept, and refused in the channel status where R130, R133 or R208 refuse it. -/
def takeSet (ch : Nat) (b : List Byte) (s : State) : State :=
  let v := setNum b
  let keep := fun (f : Fld) (id : Nat) (why : Option Nat) (s : State) =>
    if s.get f ch id = v then s
    else
      let s := s.put f v ch id
      match why with
      | some r => chRefuse ch r s
      | none => s
  match nalType b with
  | 33 => match rdSps (nalBits b) with
    | some ((id, q), _) => keep (.ref .xSPS) id (s.spsWhy ch q) s
    | none => s
  | 34 => match rdPps (nalBits b) with
    | some ((id, p), _) => keep (.ref .xPPS) id (s.ppsWhy ch p) s
    | none => s
  | _ => s

/-- A slice segment received: its header, its temporal layer, whether data is missing just before it, and whether all of it is there. -/
structure Seg where
  hd    : Slice
  tid   : Nat
  gap   : Bool
  whole : Bool
  deriving DecidableEq, Repr

/-- The slice segments among NAL units; `g` tells that data is missing since the last of them. -/
def segsAmong (sl : List Byte → Option Slice) : Bool → List Nal → List Seg
  | _, [] => []
  | g, u :: t => match sl u.bytes with
    | some h => ⟨h, byteAt u.bytes 1 % 8 - 1, g || u.gap, true⟩ :: segsAmong sl false t
    | none => segsAmong sl (g || u.gap) t

/-- The slice segments received of a picture in decoding order, the open one included. -/
def State.segsIn (s : State) (ch n : Nat) : List Seg :=
  let a := s.nalsIn ch n
  segsAmong (s.sliceOf ch) false (a.out.filter (fun u => !u.bad)) ++
  (match a.cur with
   | some c => match s.sliceOf ch c.1 with
     | some h => [⟨h, byteAt c.1 1 % 8 - 1, a.gap, false⟩]
     | none => []
   | none => [])

/-- No data of a picture is missing after its last slice segment: the packet with the marker is there and nothing before it is
missing. -/
def State.tailOk (s : State) (ch n : Nat) : Bool :=
  let ts := s.rtpTime (s.picWork ch n).dom n
  let ps := bySeq (((s.received ch).map (·.2)).filter (fun p => p.ts == ts))
  let a := s.nalsIn ch n
  a.cur.isNone && !a.gap && (ps.getLast?).any (·.mark)

/-- A POC as it is held, and back. -/
def pocNum (v : Int) : Nat := (v + 2 ^ 32).toNat
def pocOf (v : Nat) : Int := (v : Int) - 2 ^ 32

/-- The POC of a picture from its lsb (ITU-T H.265 clause 8.3.1): `prev` is the POC that it is counted from.
PRESUMED, log 101. -/
def pocFrom (bits lsb : Nat) (prev : Int) : Int :=
  let m : Int := 2 ^ bits
  let p := prev % m
  let msb := prev - p
  if (lsb : Int) < p ∧ m / 2 ≤ p - lsb then msb + m + lsb
  else if p < lsb ∧ m / 2 < (lsb : Int) - p then msb - m + lsb
  else msb + lsb

/-- The entries of a decoded picture buffer in decreasing POC (R168), the empty ones last. -/
def sortDpb (ch : Nat) (s : State) : State :=
  let fs : List Ref := [.SLOT_MARK, .SLOT_COMPLETE, .SLOT_PIC_ID, .xSL_BUF, .xSL_PIC, .xSL_POC, .xSL_W, .xSL_H, .xSL_C, .xSL_D,
    .xSL_DC]
  let rows := (List.range 6).map (fun k => fs.map (fun f => s.get (.ref f) ch k))
  let lt := fun a b : List Nat => (a.getD 0 0 != 0 && b.getD 0 0 == 0) || (a.getD 0 0 != 0 && decide (b.getD 5 0 < a.getD 5 0))
  forEach (insSort lt rows).zipIdx (fun r s => forEach (fs.zip r.1) (fun p s => s.put (.ref p.1) p.2 ch r.2) s) s

/-- A reference that a picture names: a POC, or its low bits, and whether the picture may be read and is a long-term one. -/
structure Want where
  poc  : Int
  bits : Option Nat
  used : Bool
  long : Bool
  deriving DecidableEq, Repr

/-- The pictures that a slice names (ITU-T H.265 clause 8.3.2).
PRESUMED, log 101. -/
def wants (x : Slice) (bits : Nat) (poc : Int) : List Want :=
  (x.rps.neg ++ x.rps.pos).map (fun d => ⟨poc + d.1, none, d.2, false⟩) ++
  x.lts.map (fun l => match l.2.1 with
    | none => ⟨(l.1 : Int), some bits, l.2.2, true⟩
    | some d => ⟨poc - (d * 2 ^ bits : Nat) - (poc % 2 ^ bits - (l.1 : Int)), none, l.2.2, true⟩)

/-- An entry holds the picture that is named. -/
def Want.is (w : Want) (poc : Int) : Bool :=
  match w.bits with
  | none => poc == w.poc
  | some b => poc % 2 ^ b == w.poc

/-- The marking that the first slice of a picture brings (R168): entries that it does not name return their buffers, the others are
short- or long-term, and pictures before it that it may read and that are not there are to be substituted (R177). One after it in
output order, which this model has not decoded yet, is not missed.
DESIGN CHOICE, log 75. -/
def markDpb (ch n : Nat) (x : Slice) (tid : Nat) (q : Sps) (s : State) : State :=
  let k := n % 2
  let prev := s.get (.ref .xPREV) ch
  let fresh := isIrap x.typ && (decide (x.typ < 21) || prev == 0)
  let poc := if fresh then (x.poc : Int) else pocFrom q.poc x.poc (pocOf (max prev (2 ^ 32)))
  let poc := if fresh || prev != 0 then poc else (x.poc : Int)
  let ws := if fresh then [] else wants x q.poc poc
  let s := forEach (List.range 6) (fun e s =>
    if s.get (.ref .SLOT_MARK) ch e = 0 then s
    else match ws.find? (fun w => w.is (pocOf (s.get (.ref .xSL_POC) ch e))) with
      | some w => s.put (.ref .SLOT_MARK) (if w.long then 2 else 1) ch e
      | none => emptySlot ch e s) s
  let s := sortDpb ch s
  let held := fun w : Want => (List.range 6).any (fun e => s.get (.ref .SLOT_MARK) ch e != 0 && w.is (pocOf (s.get (.ref .xSL_POC) ch e)))
  let miss := ws.any (fun w => w.used && (w.long || decide (w.poc < poc)) && !held w)
  let s := (s.put (.ref .xPOC) (pocNum poc) ch 0 k).put (.ref .xMISS) (if miss then 1 else 0) ch 0 k
  let back := tid == 0 && !(decide (x.typ < 16) && (x.typ % 2 == 0 || decide (6 ≤ x.typ ∧ x.typ ≤ 9)))
  poolSettle (s.get (.cch .CTRL_HOME_DIE) ch) (s.when back (fun s => s.put (.ref .xPREV) (pocNum poc) ch))

/-- What a row's deadline finds new of an HEVC picture: parameter sets are kept, and the first slice begins the picture, or has it
concealed where its parameter sets are refused or missing (R130). -/
def hevcFind (ch n : Nat) (s : State) : State :=
  let k := n % 2
  let s := forEach ((s.nalsIn ch n).out.filter (fun u => !u.bad)) (fun u s => takeSet ch u.bytes s) s
  if s.get (.ref .xPOC) ch 0 k ≠ 0 ∨ s.get (.ref .xH_OK) ch 0 k = 3 then s
  else match (s.segsIn ch n).find? (fun g => !g.hd.dep) with
    | none => s
    | some g => match s.goodSets ch g.hd.pps with
      | none => s.put (.ref .xH_OK) 3 ch 0 k
      | some x => markDpb ch n g.hd g.tid x.2 (s.put (.ref .xPS) (g.hd.pps + 1) ch 0 k)

/-- The deadline of a CTU row (R138, R166, R181). Row 0 takes the working buffer, and a picture that has begun by no slice then keeps
the parameter sets of the one before. At the last row the NAL units lost and discarded are counted. -/
def hevcDeadline (ch n row : Nat) (s : State) : State :=
  let w := s.picWork ch n
  let k := n % 2
  let s := hevcFind ch n s
  let s := s.when (row == 0) (fun s =>
    let s := s.when (s.get (.ref .xPS) ch 0 k == 0) (fun s => s.put (.ref .xPS) (s.get (.ref .xPS) ch 0 (1 - k)) ch 0 k)
    let (ok, s) := takeWork ch n (s.cfgFmt ch n) s
    if ok then s else (s.put (.ref .STATUS_NO_BUFFER) 1 ch).put (.ref .xNOBUF) 1 ch 0 k)
  let s := s.put (.cch .xROW) 1 ch row k
  let s := if row + 1 < w.rows then s
    else
      let a := s.nalsIn ch n
      (s.bump (.ref .CNT) ch 4 0 (a.lost + (if a.cur.isSome then 1 else 0))).bump (.ref .CNT) ch 0 0 (a.out.filter Nal.bad).length
  putStr ch n row (s.hevcIx ch n row) 1 s

/-- A coding tree block, by its place in decoding order, is not there to decode: it lies before the first slice segment, or in one that
is not whole, or at the end of one after which data is missing, where its end is free. `at'` gives the place of a segment.
DESIGN CHOICE, log 75. -/
def ctbLost (segs : List (Nat × Seg)) (total : Nat) (tail : Bool) (v t : Nat) : Bool :=
  match ((segs.zipIdx).filter (fun g => decide (g.1.1 ≤ t))).getLast? with
  | none => true
  | some ((p, g), i) =>
    let next := segs[i + 1]?
    let stop := (next.map (·.1)).getD total
    let sure := match next with
      | some x => !x.2.gap
      | none => tail
    !g.whole || (!sure && decide (p + bitsOf v (16 * i) 16 % max 1 (stop - p) < t))

/-- The coding tree blocks that the block at column `x`, block row `b` of a format lies in, in raster order. -/
def areaCtbs (q : Sps) (x b : Nat) : List Nat :=
  let k := 2 ^ q.ctb
  ([(16 * x, 8 * b), (16 * x + 15, 8 * b), (16 * x, 8 * b + 7), (16 * x + 15, 8 * b + 7)].map (fun p =>
    (q.oy + min p.2 (q.h - 1)) / k * q.ctbW + (q.ox + min p.1 (q.w - 1)) / k)).eraseDups

/-- The areas of a CTU row. -/
def rowAreas (f : Fmt) (row : Nat) : List (Nat × Nat) :=
  ((List.range 4).flatMap (fun j => (List.range f.cols).map (fun x => (x, 4 * row + j)))).filter (fun a => decide (a.2 < 2 * f.rows))

/-- The areas of a CTU row that are lost or missing (R181). -/
def State.areasLost (s : State) (ch n row v : Nat) : List (Nat × Nat) :=
  let (f, _, _) := s.picFmt ch n
  let all := rowAreas f row
  match s.picSets ch n with
  | none => all
  | some (p, q) =>
    if s.get (.ref .xH_OK) ch 0 (n % 2) = 3 then all
    else
      let scan := tileScan q p
      let segs := (s.segsIn ch n).map (fun g => (scan.findIdx (· == g.hd.addr), g))
      let tail := s.tailOk ch n
      all.filter (fun a => (areaCtbs q a.1 a.2).any (fun c => ctbLost segs scan.length tail v (scan.findIdx (· == c))))

/-- Every slice that has been received of a picture is an I slice, and some has (R181). -/
def State.allI (s : State) (ch n : Nat) : Bool :=
  let l := (s.segsIn ch n).filter (fun g => !g.hd.dep)
  !l.isEmpty && l.all (fun g => g.hd.kind == 2)

/-- One area of a decoded CTU row (R163, R168, R171, R173, R177): its samples, its prediction and its vectors, which ITU-T H.265 gives,
are free; what they read of poison, taint and substitutes is as for an ELC block.
DESIGN CHOICE, log 75. -/
def decArea (l : Lost) (n row x b : Nat) (s : State) : State :=
  let k := n % 2
  let f := l.f
  let (v, s) := s.free
  let (m, s) := s.free
  let dpb := (List.range 6).filter (fun e => (s.slotPic l.ch e).isSome && s.slotFits l.ch e f)
  let miss := s.get (.ref .xMISS) l.ch 0 k != 0
  let one := fun (o : Nat) =>
    let e := dpb.getD (bitsOf m (o + 1) 3 % max 1 dpb.length) 0
    let vec := (signedOf 16 (bitsOf m (o + 8) 16), signedOf 16 (bitsOf m (o + 24) 16))
    let r : RefPic × Option Nat := if miss && (bitOf m o || dpb.isEmpty) then (s.substitute l.ch f, some 2)
      else ((s.slotPic l.ch e).getD ⟨none, 0, false⟩, none)
    (r, e % 4, vec)
  let inter := !l.isI && bitOf m 0 && (miss || !dpb.isEmpty)
  let rs := if !inter then [] else if bitOf m 1 then [one 8, one 56] else [one 8]
  let lines := fun (r : (RefPic × Option Nat) × Nat × Int × Int) => linesReadH f x b r.2.2.1 r.2.2.2
  let s := noteSubst l.ch n row l.pic (rs.map (·.1)) s
  if rs.any (fun r => !(s.poisonIn f r.1.1 (lines r)).isEmpty) then
    concealBlock l x b true (flagRow l.ch row k flPOISON l.pic (s.bump (.ref .CNT) l.ch 9))
  else
    let subst := rs.any (fun r => r.1.2.isSome)
    let s := s.when (rs.any (fun r => s.badIn f r.1.1 (lines r))) (fun s => s.put (.ref .STATUS_SB_BAD) 1 l.ch)
    let near := [(1, 0), (0, 1), (1, 1)].any (fun d => decide (d.1 ≤ x ∧ d.2 ≤ b) && (s.sum l.ch (x - d.1) (b - d.2)).taint) ||
      (decide (1 ≤ b ∧ x + 1 < f.cols) && (s.sum l.ch (x + 1) (b - 1)).taint)
    let taint := if inter then subst || rs.any (fun r => s.taintIn f r.1.1 (lines r)) else near
    let s := s.when (taint && !subst) (flagRow l.ch row k flINHERITED l.pic)
    let s := fillBlock l.ch f x b (fun pl X Y => bitsOf v (16 * smpIx pl (X % 16) (Y % 8)) (f.dep pl)) s
    let at' := fun i => match rs[i]? with
      | some r => (r.2.1, r.2.2.1 / 2, r.2.2.2 / 2, ageOf l.pic r.1.1)
      | none => (0, 0, 0, 0)
    let (r0, x0, y0, a0) := at' 0
    let (r1, x1, y1, a1) := at' 1
    setBlock l.ch k f x b ⟨1, if inter then 1 + rs.length else 1, 0, taint, r0, r1, 0, x0, y0, x1, y1, bitsOf m 112 6, bitOf m 118, false,
      a0, a1, l.pic⟩ s

/-- What a running CRC differs by after the samples of lines, low byte first (ITU-T H.265 clause D.3.19).
PRESUMED, log 101. -/
def hashRun (d : Nat) (v : Nat) (l : List Nat) : Nat :=
  let bytes := l.flatMap (fun x => if d ≤ 8 then [x % 256] else [x % 256, x / 256])
  bytes.foldl (fun c b => (List.range 8).foldl (fun c i =>
    Nat.xor ((2 * c + (if bitOf b (7 - i) then 1 else 0)) % 65536) (if bitOf c 15 then 0x1021 else 0)) c) v

/-- The samples of a committed CTU row go into the hash of their picture. -/
def hashRow (ch n row : Nat) (f : Fmt) (s : State) : State :=
  forEach [0, 1, 2] (fun pl s =>
    let high := if pl = 0 ∨ !f.c420 then 1 else 2
    let aw := if pl = 0 ∨ f.c44 then f.w else ceilDiv f.w 2
    let ys := ((List.range (32 / high)).map (· + 32 / high * row)).filter (fun y => decide (y < ceilDiv f.h high))
    let l := ys.flatMap (fun y => (List.range aw).map (fun x => s.smp ch pl x y))
    let c := Nat.xor 0xFFFF (s.get (.ref .xHASH) ch pl (n % 2))
    s.put (.ref .xHASH) (Nat.xor 0xFFFF (hashRun (f.dep pl) c l)) ch pl (n % 2)) s

/-- The CRC of a plane of a picture whose rows have all committed. -/
def State.hashOf (s : State) (ch n pl : Nat) : Nat := hashRun 16 (Nat.xor 0xFFFF (s.get (.ref .xHASH) ch pl (n % 2))) [0]

/-- The payload of the decoded picture hash SEI of CRC type.
PRESUMED, log 101. -/
def State.hashBytes (s : State) (ch n : Nat) : List Byte :=
  beBytes 1 132 ++ beBytes 1 7 ++ beBytes 1 1 ++ [0, 1, 2].flatMap (fun pl => beBytes 2 (s.hashOf ch n pl))

/-- A CTU row is decoded (R173, R181): an area of a NAL unit that is lost or missing is concealed, and so is one that a word of bad
parity holds; the others are as decoded. -/
def hevcDecode (ch n row : Nat) (s : State) : State :=
  let (f, _, pic) := s.picFmt ch n
  let k := n % 2
  let (v, s) := s.free
  let l : Lost := ⟨ch, k, f, pic, s.allI ch n, 0, f.cols, false, false, false⟩
  let gone := s.areasLost ch n row v
  let par := ((rowAreas f row).zipIdx.filter (fun a => bitOf (s.parityBad ch n row (s.hevcIx ch n row)) a.2)).map (·.1)
  let s := s.when (par.any (fun a => !gone.contains a)) (flagRow ch row k flPOISON pic)
  let s := forEach (rowAreas f row) (fun a s =>
    if gone.contains a then concealBlock l a.1 a.2 false s
    else if par.contains a then concealBlock l a.1 a.2 true s
    else decArea l n row a.1 a.2 s) s
  hashRow ch n row f (s.when (s.rowConcealed ch f row 4) (flagRow ch row k flLOSS pic))

/-- The hash that a picture's suffix SEI carries (R130): its type and its bytes, which follow. -/
def State.hashSent (s : State) (ch n : Nat) : Option (List Byte) :=
  ((s.nalsIn ch n).out.filter (fun u => !u.bad)).findSome? (fun u =>
    let b := unescape 0 (u.bytes.drop 2)
    if nalType u.bytes = 40 ∧ byteAt b 0 = 132 then some (slice b 2 (byteAt b 1)) else none)

/-- The end of a decoded HEVC picture (R130, R168, R181): a hash that does not match, unless an area was concealed, and the picture's
place in the decoded picture buffer. Whether a hash of another type than CRC matches is free.
DESIGN CHOICE, log 75. -/
def hevcPicture (ch n : Nat) (s : State) : State :=
  let (f, _, pic) := s.picFmt ch n
  let (v, s) := s.free
  let whole := !s.flag (.ref .xCONC) ch 0 (n % 2)
  let wrong := match s.hashSent ch n with
    | none => false
    | some b => if byteAt b 0 = 1 then b != (s.hashBytes ch n).drop 2 else v % 2 == 1
  let s := s.when (wrong && whole) (fun s =>
    flagRow ch ((s.picWork ch n).rows - 1) (n % 2) flHASH pic (s.bump (.ref .CNT) ch 12))
  if s.get (.ref .xPOC) ch 0 (n % 2) = 0 then s
  else
    let last := (List.range 6).foldl (fun b e => if s.get (.ref .xSL_POC) ch e < s.get (.ref .xSL_POC) ch b then e else b) 0
    let e := ((List.range 6).find? (fun e => s.get (.ref .SLOT_MARK) ch e == 0)).getD last
    sortDpb ch (storePic ch n e 1 pic f whole s)

-- The commands

/-- A stripe's re-execution ends, and its unit is idle again (R196). -/
def endRex (ch n row i : Nat) (s : State) : State :=
  match s.get (.cch .xRX) ch (strIx row i) (n % 2) with
  | 0 => s
  | u + 1 => (putRex u 0 s).put (.cch .xRX) 0 ch (strIx row i) (n % 2)

/-- The unit that decodes a stripe: the one that decodes it again, or its own; none where that is out of service (R18, R128). -/
def State.decUnit (s : State) (ch n row i : Nat) : Option Nat :=
  let w := s.picWork ch n
  match s.get (.cch .xRX) ch (strIx row i) (n % 2) with
  | u + 1 => some u
  | 0 => let u := s.get (.cch .xL_UNIT) ch i (picBank n)
         if s.unitFor w u then some u else none

/-- A CTU row is finished (R20, R181). -/
def hevcRowDone (ch n row : Nat) (s : State) : State :=
  let s := s.when (row + 1 == (s.picWork ch n).rows) (hevcPicture ch n)
  commitDecRow ch n row s

/-- A CTU row that cannot be decoded is concealed whole (R202). -/
def concealCtuRow (ch n row : Nat) (s : State) : State :=
  let (f, _, pic) := s.picFmt ch n
  let l : Lost := ⟨ch, n % 2, f, pic, s.allI ch n, 0, f.cols, false, false, false⟩
  let s := forEach (rowAreas f row) (fun a s => concealBlock l a.1 a.2 false s) s
  hevcRowDone ch n row (hashRow ch n row f (flagRow ch row (n % 2) flLOSS pic (putStr ch n row (s.hevcIx ch n row) 4 s)))

/-- From row `row` on, the rows whose decode has been given up commit in turn once the rows above them have (R202). -/
def concealNext (ch n : Nat) : Nat → Nat → State → State
  | 0, _, s => s
  | k + 1, row, s =>
    if s.strSt ch n row (s.hevcIx ch n row) = 3 ∧ s.get (.cch .xROW) ch row (n % 2) = 1 ∧
        (row = 0 ∨ s.get (.cch .xROW) ch (row - 1) (n % 2) = 2) then
      concealNext ch n k (row + 1) (concealCtuRow ch n row s)
    else s

/-- The decode of a CTU row is given up (R202). -/
def loseCtuRow (ch n row : Nat) (s : State) : State :=
  concealNext ch n (s.picWork ch n).rows row (putStr ch n row (s.hevcIx ch n row) 3 s)

/-- The ticks from DL to the latest commit of a decode row (R202): 15.75 lines; for HEVC the lines that its decode takes, rounded up
(R203).
DEDUCED, log 84. -/
def Work.decTicks (w : Work) : Nat := if w.hevc then (w.time w.w).ceil.toNat * 65536 else 15 * 65536 + 49152

/-- A decode row that has not committed at its latest edge commits there, with what is missing of it concealed (R202). -/
def commitLate (ch n row : Nat) (s : State) : State :=
  let w := s.picWork ch n
  if !s.hasPic ch n ∨ !s.rasterRuns w.dom ∨ s.get (.cch .xROW) ch row (n % 2) ≠ 1 ∨ (0 < row ∧ s.get (.cch .xROW) ch (row - 1) (n % 2) ≠ 2) ∨
      s.ticksNow w.dom < s.rowTicks ch n row + w.decTicks then s
  else if w.hevc then concealNext ch n w.rows (row + 1) (concealCtuRow ch n row (endRex ch n row (s.hevcIx ch n row) s))
  else
    let (_, units, _) := s.picFmt ch n
    closeRow ch n row (forEach (List.range (units.length + 1)) (fun i s =>
      if s.strSt ch n row i = 1 then noteDamage ch row (n % 2) 1 (putStr ch n row i 3 (endRex ch n row i s)) else s) s)

/-- The rows of a decode channel that are past their latest commit commit. -/
def commitAllLate (ch : Nat) (s : State) : State :=
  let n := s.get (.cch .xPIC) ch - 1
  forEach [n - 1, n] (fun m s => forEach (List.range (s.picWork ch m).rows) (fun r s => commitLate ch m r s) s) s

/-- DECODE_DEADLINE (R179). -/
def execDecodeDeadline (ch : Chan) (row : Nat) (now : Now) (s : State) : Host.Outcome State Fault Refusal :=
  s.runAt now (fun s => poolsSettle (s.when (s.chRuns ch && s.chDecodes ch) (fun s =>
    let s := commitAllLate ch s
    match s.rowPic ch row with
    | none => s
    | some n =>
      if s.get (.cch .xROW) ch row (n % 2) ≠ 0 ∨ !s.mayWork ch n then s
      else if (s.picWork ch n).hevc then hevcDeadline ch n row s else elcDeadline ch n row s)))

/-- A decode stripe ends (R20): it is decoded, and with the last one of its row the row commits. A unit or an engine that is out of
service ends nothing. -/
def stripeDone (ch n row i : Nat) (parityBad : List Nat) (s : State) : State :=
  if s.strSt ch n row i ≠ 1 ∨ (0 < row ∧ s.get (.cch .xROW) ch (row - 1) (n % 2) ≠ 2) ∨ (s.decUnit ch n row i).isNone then s
  else
    let s := s.put (.ref .xPARB) (parityBad.eraseDups.foldl (fun a j => a + 2 ^ j) 0) ch (strIx row i) (n % 2)
    let s := endRex ch n row i s
    let w := s.picWork ch n
    if w.hevc then concealNext ch n w.rows (row + 1) (hevcRowDone ch n row (putStr ch n row i 2 (hevcDecode ch n row s)))
    else match decodeStripe ch n row i false s with
      | .done t => closeRow ch n row (stripeDecoded ch n row i t)
      | .lost => closeRow ch n row (loseStripe ch n row i s)
      | .later => closeRow ch n row (putStr ch n row i 5 s)

/-- DECODE_STRIPE_DONE (R20). -/
def execDecodeStripeDone (ch : Chan) (row : Nat) (stripe : StripeIx) (parityBad : List Nat) (now : Now) (s : State) :
    Host.Outcome State Fault Refusal :=
  s.runAt now (fun s => poolsSettle (s.when (s.chRuns ch && s.chDecodes ch) (fun s =>
    let s := commitAllLate ch s
    match s.rowPic ch row with
    | none => s
    | some n => stripeDone ch n row stripe parityBad s)))

/-- REFRESH_HOLDOFF_END (R92). -/
def execRefreshHoldoffEnd (ch : Chan) (now : Now) (s : State) : Host.Outcome State Fault Refusal :=
  s.runAt now (fun s => s.when (s.chRuns ch && s.chDecodes ch) (sendCollected ch))

/-- A copy that waits for raster position `ix` of row `row` of a channel is released (R272 to R274): one on its die, and one
that is still crossing. RASTER_SENT counts each. -/
def releaseCopies (ch : Nat) (hit : Nat → Nat → Bool) (s : State) : State :=
  let due := fun (r i at' : Nat) (wait : Bool) => wait && hit r i && decide (at' ≤ s.tb)
  let n := fun (d : Nat) => (s.copies.filter (fun c => c.ch == ch && c.die == d && due c.row c.ix c.relAt (c.raster && !c.due))).length
  let s := (s.bump (.shp .CNT) 0 7 0 (n 0)).bump (.shp .CNT) 1 7 0 (n 1)
  { s with
    copies := s.copies.map (fun c => if c.ch == ch && due c.row c.ix c.relAt (c.raster && !c.due) then { c with due := true } else c),
    cross := s.cross.map (fun c => if c.ch == ch && due c.row c.ix c.relAt (c.raster && !c.due) then { c with due := true } else c) }

/-- RASTER_RELEASE (R272). -/
def execRasterRelease (ch : Chan) (row : Nat) (j : Nat) (now : Now) (s : State) : Host.Outcome State Fault Refusal :=
  s.runAt now (fun s => poolsSettle (s.when (!s.txStopped && s.tbState != tbFREE) (releaseCopies ch (fun r i => r == row && i == j))))

/-- ST2110_RELEASE (R273). -/
def execSt2110Release (ch : Chan) (j : Nat) (now : Now) (s : State) : Host.Outcome State Fault Refusal :=
  s.runAt now (fun s => poolsSettle (
    let s := s.when (s.chRuns ch && s.chDecodes ch) (commitAllLate ch)
    s.when (!s.txStopped && s.tbState != tbFREE) (releaseCopies ch (fun _ i => i == j))))

end Sys2Proof.Machine
end

