-- ==== Sys2Proof/Machine/Guard.lean ====
section
/-!
DEFINITION. The quality lock (chapter 6): the measures of a block, the budgets of the cap, the refresh debt, the requests
that an encode channel serves, and the rate model.
-/

namespace Sys2Proof.Machine

-- Settings of picture `n` (R146, R162)

/-- A banked QRC setting of picture `n`. -/
def State.qrcOf (s : State) (f : Qrc) (ch n : Nat) : Nat := s.get (.qrc f) ch 0 (picBank n)

/-- CAP_ROWS of picture `n`. -/
def State.capRows (s : State) (ch n : Nat) : Nat := s.qrcOf .CFG_CAP_ROWS_M1 ch n + 1

/-- The row budget (R150). -/
def rowBudget (kbps : Nat) (w : Work) : Nat :=
  if w.num = 0 ∨ w.rows = 0 then 0 else kbps * 1000 * w.den / (w.num * w.rows)

/-- The slice rows of window `k` of a picture (R150). -/
def windowRows (cap rows k : Nat) : Nat := min rows (cap * (k + 1)) - cap * k

/-- The budget of a window without its header copies (R150, R151). -/
def windowBudget (kbps cap copies : Nat) (w : Work) (k : Nat) : Nat :=
  rowBudget kbps w * windowRows cap w.rows k - (if k = 0 then 256 * copies else 0)

/-- The share of stripe `i` of a window's budget (R151). -/
def stripeShare (cols : Nat) (units : List Nat) (budget i : Nat) : Nat :=
  let part := fun j => let (a, b) := stripeCols cols units j
                       budget * (b - a) / cols
  if i < units.length then part i else budget - ((List.range units.length).map part).sum

/-- The stripe-window budget of picture `n` (R151). -/
def State.stripeBudget (s : State) (ch n k i : Nat) : Nat :=
  let w := s.picWork ch n
  stripeShare w.cols (s.unitsOf ch n)
    (windowBudget (s.qrcOf .CAP_CAP_KBPS ch n) (s.capRows ch n) (1 + s.get (.cch .RTP_HDR_REPEAT) ch 0 (picBank n)) w k) i

/-- BPB_AVG of the first picture (R147): the even share of a full window. -/
def firstAvg (kbps cap copies : Nat) (w : Work) (units : List Nat) : Nat :=
  let k := if cap < w.rows then 1 else 0
  let (a, b) := stripeCols w.cols units 0
  let rows := windowRows cap w.rows k
  let blocks := 2 * rows * (b - a)
  if blocks = 0 then 0 else (stripeShare w.cols units (windowBudget kbps cap copies w k) 0 - 136 * rows) / blocks

-- Measures (R140 to R143)

/-- A measure of samples of depth `d` at 10-bit scale; `k` is its power. Depths below 10 are those of HEVC.
DEDUCED, log 105. -/
def scale10 (d k v : Nat) : Nat := if d < 10 then v * 2 ^ (k * (10 - d)) else v / 2 ^ (k * (d - 10))

/-- The activity of 128 luma samples (R140). -/
def activity (d : Nat) (l : List Nat) : Nat :=
  let mean := (l.sum + 64) / 128
  scale10 d 1 ((l.map (fun v => (((v : Nat) : Int) - (mean : Nat)).natAbs)).sum)

/-- The activity class (R140). -/
def actClass (act : Nat) : Nat := if act < 128 then 0 else min 7 (Nat.log2 act - 6)

/-- The masking weight (R140). -/
def maskWeight (en : Bool) (k mn act : Nat) : Nat :=
  if en then clampTo mn 4096 (4096 * k / (act + k)) else 4096

/-- The sum of squared differences (R141). -/
def sse (a b : List Nat) : Nat :=
  ((a.zip b).map (fun p => let e := ((p.1 : Nat) : Int) - (p.2 : Nat)
                           (e * e).toNat)).sum

/-- tt of R142, scaled by a shift. -/
def ttOf (j : Nat) : Nat := ([16, 20, 25] : List Nat).getD (j % 3) 0 * 2 ^ (j / 3)

/-- T(QI) (R142). -/
def qiTarget (qi : Nat) : Nat := ttOf (63 - qi) / 16

/-- The starting quantiser of a class (R143). -/
def startQ (lo hi qi : Nat) (ofs : Int) : Nat := (clip3 lo hi ((63 - qi : Nat) + ofs)).toNat

/-- The candidates of R144, in increasing order. -/
def candQ (q0 f hi : Nat) : List Nat :=
  ([-2, 0, 2, 4] : List Int).map (fun o => (clip3 f hi ((q0 : Int) + o)).toNat)

-- Source samples (R69, R175, R186)

/-- A source sample as it was received, the last active column and line repeated beyond them (R69). -/
def State.rawSrc (s : State) (ch n : Nat) (pl x y : Nat) : Nat :=
  let f := (s.picWork ch n).rawFmt
  let aw := if pl = 0 ∨ f.c44 then f.w else f.w / 2
  s.get (.cch .xSRC) ch (smpIx pl (min x (aw - 1)) (min y (f.h - 1))) (n % 2)

/-- A source sample at the depth of the coded picture (R131). -/
def State.deepSrc (s : State) (ch n : Nat) (f : Fmt) (pl x y : Nat) : Nat :=
  let v := s.rawSrc ch n pl x y
  if f.d = 8 then min 255 ((v + 2) / 4) else v

/-- A source sample of the coded picture (R69, R131): for 4:2:0, chroma line `y` is made of four lines. -/
def State.src (s : State) (ch n : Nat) (f : Fmt) (pl x y : Nat) : Nat :=
  if pl = 0 ∨ !f.c420 then s.deepSrc ch n f pl x y
  else
    let c := fun j => s.deepSrc ch n f pl x j
    (c (2 * y - 1) + 3 * c (2 * y) + 3 * c (2 * y + 1) + c (2 * y + 2) + 4) / 8

/-- The source samples of a block in a plane. -/
def State.blockSrc (s : State) (ch n : Nat) (f : Fmt) (pl x b : Nat) : List Nat :=
  (List.range (f.bh pl)).flatMap (fun dy => (List.range (f.bw pl)).map (fun dx => s.src ch n f pl (f.bw pl * x + dx) (f.bh pl * b + dy)))

/-- The weighted distortion of the block in work against its source (R141). -/
def State.distortion (s : State) (ch n : Nat) (f : Fmt) (x b w : Nat) : Nat :=
  let e := fun pl => sse (s.blockSrc ch n f pl x b) (s.blockSmp ch f pl x b)
  let cw := min 4096 (s.qrcOf .TUNE_CHROMA_W ch n)
  (scale10 f.d 2 (e 0) + scale10 f.dc 2 (e 1 + e 2) * cw / 4096) * w / 4096

/-- The weight of bits in a cost (R145). -/
def lambda (q0 : Nat) : Nat := ttOf q0 / 256

-- Refresh debt (R157)

/-- The group, payload byte and bit of a block's debt (R157). -/
def State.debtAt (s : State) (ch t : Nat) : Option (Nat × Nat × Nat) :=
  match s.get (.qrc .xSLAB) ch with
  | 0 => none
  | h + 1 => let (g, o) := s.bufAt h
             some (g, o + t / 8, t % 8)

/-- The line that holds a block's debt bit is poisoned. -/
def State.debtPoisoned (s : State) (ch t : Nat) : Bool :=
  match s.debtAt ch t with
  | some (g, a, _) => s.linePoison g (a / 256) != 0
  | none => false

/-- A block's debt bit.
DEDUCED, log 81. -/
def State.debtBit (s : State) (ch t : Nat) : Bool :=
  match s.debtAt ch t with
  | some (g, a, i) => bitOf (leNat (s.dramRead g a 1)) i
  | none => false

/-- A block is in debt, or treated so under a poisoned line (R157). -/
def State.inDebt (s : State) (ch t : Nat) : Bool := s.debtPoisoned ch t || s.debtBit ch t

/-- A poisoned line of the map is reported when it is read (R157).
DEDUCED, log 81. -/
def noteDebt (ch t : Nat) (s : State) : State :=
  s.when (s.debtPoisoned ch t && !s.flag (.qrc .STATUS_DEBT_POISONED) ch) (fun s =>
    evPulse (8 * ch + 7) 2 (raise 0x0D (s.get (.cch .CTRL_HOME_DIE) ch) ch 0 (s.put (.qrc .STATUS_DEBT_POISONED) 1 ch)))

/-- A block's debt bit is set or cleared, and counted (R157, R158).
DEDUCED, log 81. -/
def setDebt (ch t : Nat) (on : Bool) (s : State) : State :=
  match s.debtAt ch t with
  | none => s
  | some (g, a, i) =>
    let v := leNat (s.dramRead g a 1)
    if bitOf v i = on then s
    else
      let s := dramStore g a (leBytes 1 (if on then v + 2 ^ i else v - 2 ^ i)) s
      let c := s.get (.qrc .DEBT_DEBT_BLOCKS) ch
      if on then s.put (.qrc .DEBT_DEBT_BLOCKS) (c + 1) ch
      else (s.put (.qrc .DEBT_DEBT_BLOCKS) (c - 1) ch).bump (.qrc .CNT) ch 6

-- Refresh requests (R91, R174, R197)

/-- Rows of a refresh are asked for in picture `n`; all of them where `all` (R91). Requests for one picture merge. -/
def askRefresh (ch n : Nat) (all : Bool) (rows : List Nat) (s : State) : State :=
  let j := n % 8
  let s := if s.get (.qrc .xRQ_PIC) ch j = n + 1 then s
    else
      let s := s.keepKeys (fun k => !(k.fld == .qrc .xRQ_ROW && k.i == ch && k.k == j))
      (s.put (.qrc .xRQ_PIC) (n + 1) ch j).put (.qrc .xRQ) 0 ch j
  let s := s.put (.qrc .xRQ) (max (s.get (.qrc .xRQ) ch j) (if all then 2 else 1)) ch j
  forEach rows (fun r s => s.put (.qrc .xRQ_ROW) 1 ch r j) s

/-- The next picture of a channel after `n` whose work has not begun; HEVC pictures overlap (R191). -/
def State.nextWork (s : State) (ch n : Nat) : Nat :=
  if s.hasPic ch (n + 1) && s.get (.ref .xH_OK) ch 0 ((n + 1) % 2) != 0 then n + 2 else n + 1

/-- What picture `n` owes: none, rows or all. -/
def State.owed (s : State) (ch n : Nat) : Nat :=
  if s.get (.qrc .xRQ_PIC) ch (n % 8) = n + 1 then s.get (.qrc .xRQ) ch (n % 8) else 0

/-- Reading row `r` of a picture is forbidden (R91). -/
def State.banned (s : State) (ch r pic : Nat) : Bool :=
  let b := s.get (.qrc .xBAN) ch r
  b != 0 && seqBefore 32 pic ((b - 1) % 2 ^ 32)

/-- The refresh that picture `n` owes is served (R91): rows widened by two are coded intra, and from this picture on no
picture before it is read at the rows asked for. The result tells whether the picture must be an I picture. -/
def serveRefresh (ch n rows : Nat) (s : State) : Bool × State :=
  match s.owed ch n with
  | 0 => (false, s)
  | o =>
    let all := o == 2
    let asked := if all then List.range rows
      else (List.range rows).filter (fun r => s.flag (.qrc .xRQ_ROW) ch r (n % 8))
    let wide := (List.range rows).filter (fun r => asked.any (fun a => decide (a ≤ r + 2 ∧ r ≤ a + 2)))
    let s := forEach asked (fun r s => s.put (.qrc .xBAN) (n + 1) ch r) s
    let s := forEach wide (fun r s => s.put (.qrc .xBAND) 1 ch r (n % 2)) s
    let s := s.put (.qrc .xRQ_PIC) 0 ch (n % 8)
    (all, evPulse (8 * ch + 6) (n % 2 ^ 14) (s.bump (.ref .CNT) ch 14))

/-- One RTCP packet of a request (R90): the APP packet at the front of the bytes. Of rows that are none, because the first lies above the
last or beyond the picture, a refresh is served that codes nothing intra.
DESIGN CHOICE, log 103. -/
def appAct (ch n rows : Nat) (b : List Byte) (s : State) : State :=
  let sub := byteAt b 0 % 32
  let refuse := fun s : State => s.bump (.ref .CNT) ch 15
  if beAt b 2 2 ≠ 5 ∨ b.length < 24 ∨ beAt b 8 4 ≠ 0x454C4342 ∨ beAt b 12 4 ≠ s.chGet (.cch .SSRC_SSRC) ch ∨ sub = 0 ∨ 2 < sub
  then refuse s
  else if sub = 1 then
    let a := byteAt b 18
    let z := byteAt b 19
    askRefresh ch n false ((List.range rows).filter (fun r => decide (a ≤ r ∧ r ≤ z))) s
  else
    let last := s.get (.qrc .xFULL) ch
    let hold := clampTo 1 255 (s.chGet (.cch .FB_FULL_HOLD) ch)
    if last ≠ 0 ∧ last - 1 < n ∧ n ≤ last - 1 + hold then refuse s
    else (askRefresh ch n true [] s).put (.qrc .xFULL) (n + 1) ch

/-- The RTCP packets of a datagram, alone or compound (R90). -/
def rtcpEach (ch n rows : Nat) : Nat → List Byte → State → State
  | 0, _, s => s
  | k + 1, b, s =>
    if b.length < 4 then s
    else
      let len := 4 * (beAt b 2 2 + 1)
      rtcpEach ch n rows k (b.drop len) (if byteAt b 1 = 204 then appAct ch n rows (b.take len) s else s)

/-- A request reaches an encode channel (R91): its refresh picture is the first whose boundary lies at least 32 lines
later. -/
def refreshRequest (ch : Nat) (b : List Byte) (s : State) : State :=
  let w := s.work ch (s.chBank ch)
  let n := ceilDiv (s.ticksNow w.dom + 32 * 65536) (s.picTicks w.dom)
  rtcpEach ch n w.rows b.length b s

/-- REFRESH_REQUEST_RECEIVED (R91). -/
def execRefreshRequestReceived (ch : Chan) (bytes : List Byte) (now : Now) (s : State) : Host.Outcome State Fault Refusal :=
  s.runAt now (fun s => s.when (s.chRuns ch && s.chWork ch == 0 && bitOf (s.chGet (.cch .RTP_FB_EN) ch) 0) (refreshRequest ch bytes))

-- The rate model (R147, R148)

/-- The model's entries for a class. -/
def State.ofsOf (s : State) (ch c : Nat) : Int := s.int (.qrc .MODEL_OFS) ch c
/-- DEDUCED, log 82. -/
def State.bpbOf (s : State) (ch c : Nat) : Nat := s.get (.qrc .MODEL_BPB) ch c

/-- The sign of a number. -/
def signOf (v : Int) : Int := if 0 < v then 1 else if v < 0 then -1 else 0

/-- The update of R148 from the picture before. Means are exact.
DEDUCED, log 82. -/
def updateModel (ch : Nat) (s : State) : State :=
  let qi := s.get (.qrc .xM_QI) ch
  let s := forEach (List.range 8) (fun c s =>
    let n := s.get (.qrc .xM_N) ch c 2
    if n < 16 then s
    else
      let o := s.ofsOf ch c
      let dev : Int := (s.get (.qrc .xM_Q) ch c 2 : Int) - (n : Int) * (63 - qi : Nat) - (n : Int) * o
      let s := s.putInt (.qrc .MODEL_OFS) (clip3 (-32) 31 (o + signOf dev)) ch c
      s.put (.qrc .MODEL_BPB) ((3 * s.bpbOf ch c + s.get (.qrc .xM_B) ch c 2 / n + 2) / 4) ch c) s
  let all := s.get (.qrc .xT_N) ch 0 2
  let s := s.when (all != 0) (fun s => s.put (.qrc .STATUS_BPB_AVG) (min 65535 (s.get (.qrc .xT_B) ch 0 2 / all)) ch)
  (s.put (.qrc .STATUS_SEEDED) 0 ch).put (.qrc .xMODEL) 0 ch

/-- MODEL_UPDATE (R148). -/
def execModelUpdate (ch : Chan) (now : Now) (s : State) : Host.Outcome State Fault Refusal :=
  s.runAt now (fun s => s.when (!s.safe && s.dieUp (s.get (.cch .CTRL_HOME_DIE) ch) && s.flag (.qrc .xMODEL) ch) (updateModel ch))

end Sys2Proof.Machine
end

