-- ==== Sys2Proof/Machine/Enc.lean ====
section
/-!
DEFINITION. Encode (chapters 3 to 6): the source lines of a row, the choice and coding of a block, and the coding of a
stripe under the cap guard. Which modes, vectors and levels the encode unit considers is its own (R145); the model leaves
them free within what the stream allows.
-/

namespace Sys2Proof.Machine

-- Source lines (R186)

/-- The samples that a run of a source line carries: plane, column and value. -/
def srdSamples (f : Fmt) (r : Srd) : List (Nat × Nat × Nat) :=
  let (np, nb) := pgroup f
  let per := if f.c44 then 3 * np else 2 * np
  let k := r.body.length / nb
  let vals := chunkBits f.d (k * per) (bytesBits (r.body.take (k * nb)))
  (smpPlaces f r.pixel (k * per)).zip vals |>.map (fun p => (p.1.1, p.1.2, p.2))

/-- A run covers a pixel of its line. -/
def srdCovers (f : Fmt) (r : Srd) (x : Nat) : Bool :=
  decide (r.pixel ≤ x ∧ x < r.pixel + (pgroup f).1 * (r.body.length / (pgroup f).2))

/-- The block columns whose samples of a run hold a poisoned byte of the frame (R175). -/
def srdPoison (f : Fmt) (r : Srd) (p : Nat) : List Nat :=
  if r.ofs ≤ p ∧ p < r.ofs + r.body.length then
    let (np, nb) := pgroup f
    let x := r.pixel + (p - r.ofs) / nb * np
    [x / 16, (x + np - 1) / 16].eraseDups
  else []

/-- The sample rows that a channel has received of a picture, with the poisoned bytes of their frame. -/
def State.srdsOf (s : State) (ch ts : Nat) : List (Srd × List Nat) :=
  (s.received ch).flatMap (fun p => if p.2.ts = ts then
    (readSrds p.2).map (fun r => (r, ((s.chain? p.1.chain).map (·.poison)).getD [])) else [])

/-- Source samples of a whole line have been received. -/
def lineWhole (f : Fmt) (here : List (Srd × List Nat)) : Bool :=
  (List.range f.w).all (fun x => here.any (fun r => srdCovers f r.1 x))

/-- The samples of a line are taken, with the blocks that poisoned bytes lie in (R175). -/
def putLine (ch k : Nat) (f : Fmt) (here : List (Srd × List Nat)) (y : Nat) (s : State) : State :=
  forEach here (fun r s =>
    let s := forEach (srdSamples f r.1) (fun v s => s.put (.cch .xSRC) v.2.2 ch (smpIx v.1 v.2.1 y) k) s
    forEach (r.2.flatMap (srdPoison f r.1)).eraseDups (fun x s => s.put (.cch .xSRCP) 1 ch (blkIx x (y / 8)) k) s) s

/-- The line above a line takes its place (R186). -/
def copyLine (ch k : Nat) (f : Fmt) (y : Nat) (s : State) : State :=
  forEach [0, 1, 2] (fun pl s =>
    let aw := if pl = 0 ∨ f.c44 then f.w else f.w / 2
    forEach (List.range aw) (fun x s =>
      s.put (.cch .xSRC) (if y = 0 then f.mid pl else s.get (.cch .xSRC) ch (smpIx pl x (y - 1)) k) ch (smpIx pl x y) k) s) s

/-- A source line is taken, or replaced by the line above it where it is late (R186). -/
def takeLine (ch n : Nat) (f : Fmt) (rows : List (Srd × List Nat)) (y : Nat) (s : State) : State :=
  let here := rows.filter (fun r => r.1.line == y)
  if lineWhole f here then putLine ch (n % 2) f here y s else copyLine ch (n % 2) f y (s.bump (.cch .CNT) ch 0)

/-- The line after a row of 4:2:0 HEVC work, which its last chroma line takes in (R131): what has been received of it at READY, or the
line above it.
DEDUCED, log 105. -/
def peekLine (ch n : Nat) (f : Fmt) (rows : List (Srd × List Nat)) (y : Nat) (s : State) : State :=
  let here := rows.filter (fun r => r.1.line == y)
  if lineWhole f here then putLine ch (n % 2) f here y s else copyLine ch (n % 2) f y s

/-- READY of row `row` of picture `n` (R186): its lines are complete, and what they came in is consumed, with everything
of a picture before. -/
def rowReady (ch n row : Nat) (s : State) : State :=
  let w := s.picWork ch n
  let f := w.rawFmt
  let ts := s.rtpTime w.dom n
  let rows := s.srdsOf ch ts
  let stop := min f.h (w.rowLines * (row + 1))
  let lines := (List.range (stop - w.rowLines * row)).map (· + w.rowLines * row)
  let s := forEach lines (takeLine ch n f rows) s
  let s := s.when (w.hevc && w.chroma == 2 && decide (stop < f.h)) (peekLine ch n f rows stop)
  let old := (s.received ch).filter (fun p => tsBefore p.2.ts ts ||
    (p.2.ts == ts && (readSrds p.2).all (fun r => decide (r.line < stop))))
  (consume (old.map (·.1)) s).put (.cch .xROW) 1 ch row (n % 2)

/-- ROW_READY (R186). -/
def execRowReady (ch : Chan) (row : Nat) (now : Now) (s : State) : Host.Outcome State Fault Refusal :=
  s.runAt now (fun s => s.when (s.chRuns ch && !s.chDecodes ch) (fun s =>
    match s.rowPic ch row with
    | none => s
    | some n => s.when (s.get (.cch .xROW) ch row (n % 2) == 0) (rowReady ch n row)))

-- The choice of a block's coding (R144, R145, R174)

/-- What a stripe is coded with: channel, picture, row, stripe, header, format, columns, whether the unit is protected
(R156) or lies in a refresh band, chroma_reduce, chroma_qp_offset, and the budget with the part of it that is kept back for
the units of the window that have not started. -/
structure EncCtx where
  ch   : Nat
  n    : Nat
  row  : Nat
  i    : Nat
  h    : PicHdr
  f    : Fmt
  c0   : Nat
  c1   : Nat
  prot : Bool
  band : Bool
  red  : Bool
  cOff : Int
  budget : Nat
  kept : Nat
  later : Nat
  guardV : Nat
  deriving DecidableEq, Repr

/-- The coding of a stripe so far: entropy data, the quantiser of the last block, the floor F, the blocks coded, and
whether the unit has been truncated. -/
structure EncSt where
  s     : State
  e     : Ent
  q     : Nat
  f     : Nat
  coded : Nat
  cut   : Bool

/-- A vector in the range of R77 that free bits choose. -/
def freeVec (v : Nat) : Int × Int := ((v % 513 : Nat) - 256, (v / 513 % 97 : Nat) - 48)

/-- The levels of a transform block that free bits choose. -/
def freeTb (v : Nat) : TbEl :=
  let lv := fun (o n : Nat) => (List.range n).map (fun i => let m := bitsOf v (4 + o + 18 * i) 18
                                                        if m / 131072 = 1 then -((m % 131072 : Nat) : Int) else ((m % 131072 : Nat) : Int))
  let live := fun l : List Int => l.any (· != 0)
  if v % 2 = 0 then (if live (lv 0 64) then ⟨false, [lv 0 64]⟩ else ⟨false, []⟩)
  else
    let qs := (List.range 4).map (fun k => if bitOf v k && live (lv (288 * k) 16) then lv (288 * k) 16 else [])
    if qs.all (·.isEmpty) then ⟨false, []⟩ else ⟨true, qs⟩

/-- The transform blocks of a block that free bits choose. -/
def freeTbs (n v : Nat) : List TbEl := (List.range n).map (fun t => freeTb (bitsOf v (1200 * t) 1200))

/-- A reference that an encode channel reads: what the slot holds. -/
def State.encRef (s : State) (ch r : Nat) : RefPic := (s.slotPic ch r).getD ⟨none, 0, false⟩

/-- A prediction reads rows that R91 forbids. -/
def State.bannedRead (s : State) (ch : Nat) (f : Fmt) (x b : Nat) (r : Nat) (v : Int × Int) : Bool :=
  (linesRead f x b v.1 v.2).any (fun l => s.banned ch (l.2.2 / 2) (s.encRef ch r).pic)

/-- How a block is to be coded, before its residual: its type, mode, predictions, and the vectors they have. -/
structure Choice where
  typ  : Nat
  mode : Nat
  prd  : List (Nat × Int × Int)
  vec  : List (Nat × Int × Int)
  deriving DecidableEq, Repr

/-- The slots that a picture may reference. -/
def PicHdr.slots (h : PicHdr) : List Nat := (List.range 4).filter (bitOf h.valid)

/-- The predictor of a block for a slot. -/
def State.mvp (s : State) (c : EncCtx) (x b r : Nat) : Int × Int :=
  mvPred (avail c.f.cols c.c0 c.c1 x b) c.h.isP r (s.sum c.ch (x - 1) b) (s.sum c.ch x (b - 1)) (s.sum c.ch (x + 1) (b - 1))
    (s.sum c.ch (x - 1) (b - 1))

/-- The skip block of a picture. -/
def State.skipChoice (s : State) (c : EncCtx) (x b : Nat) : Choice :=
  let m := s.mvp c x b 0
  ⟨0, 0, [], if c.h.isP then [(0, m.1, m.2)] else []⟩

/-- A candidate of the motion search, which free bits choose: one or two predictions (R145). -/
def State.interChoice (s : State) (c : EncCtx) (x b v : Nat) : Choice :=
  let sl := c.h.slots
  let one := fun (o : Nat) =>
    let r := sl.getD (bitsOf v (5 + o) 2 % max 1 sl.length) 0
    let t := freeVec (bitsOf v (8 + o) 20)
    let m := s.mvp c x b r
    ((r, t.1 - m.1, t.2 - m.2), (r, t.1, t.2))
  let ps := (List.range (1 + v % 2)).map (fun i => one (32 * i))
  ⟨2 + v % 2, 0, ps.map (·.1), ps.map (·.2)⟩

/-- The choices considered (R145): skip, the eight intra modes, and in a P picture the candidates of the motion search; the intra modes
alone in a refresh band and for a block that is repaid. `vs` are the free bits of the motion search. -/
def State.choices (s : State) (c : EncCtx) (x b : Nat) (intra : Bool) (vs : List Nat) : List Choice :=
  let modes := (List.range 8).map (fun m => (⟨1, m, [], []⟩ : Choice))
  if intra then modes
  else s.skipChoice c x b :: modes ++ (if c.h.isP && !c.h.slots.isEmpty then vs.map (s.interChoice c x b) else [])

/-- The slice rows of the poisoned lines that a choice would read (R174). -/
def State.choicePoison (s : State) (c : EncCtx) (x b : Nat) (k : Choice) : List Nat :=
  (k.vec.flatMap (fun p => (s.poisonRead c.f (s.encRef c.ch p.1) x b p.2).map (· / 2))).eraseDups

/-- A choice that reads neither rows that R91 forbids nor poisoned lines (R174). -/
def State.legal (s : State) (c : EncCtx) (x b : Nat) (k : Choice) : Bool :=
  s.choicePoison c x b k == [] && !k.vec.any (fun p => s.bannedRead c.ch c.f x b p.1 p.2)

/-- A block whose candidates met poison is counted, and the rows from the lowest to the highest that they would have read are refreshed
in the next picture (R174). -/
def notePoison (ch n : Nat) (rows : List Nat) (s : State) : State :=
  match rows with
  | [] => s
  | r :: t =>
    let a := t.foldl min r
    let z := t.foldl max r
    askRefresh ch (s.nextWork ch n) false ((List.range (z - a + 1)).map (· + a)) (s.bump (.ref .CNT) ch 9)

/-- The prediction of a choice. -/
def State.choicePred (s : State) (c : EncCtx) (k : Choice) : Pred :=
  if k.vec.isEmpty then .intra k.mode else .inter (k.vec.map (fun p => (s.encRef c.ch p.1, p.2.1, p.2.2)))

/-- The elements of a choice with a residual at a quantiser: qp_delta where some level is left (R78). -/
def Choice.elems (k : Choice) (qPred q : Nat) (tbs : List TbEl) : BlkEl :=
  if k.typ = 0 then ⟨0, 0, [], 0, []⟩
  else ⟨k.typ, k.mode, k.prd, if tbs.any TbEl.cbf then (q : Int) - qPred else 0, tbs⟩

/-- The summary of a coded block (R169). -/
def State.encSum (s : State) (c : EncCtx) (k : Choice) (act q : Nat) (cbf : Bool) : Sum :=
  let r0 := k.vec.headD (0, 0, 0)
  let r1 := (k.vec.drop 1).headD (0, 0, 0)
  let pic := c.n % 2 ^ 32
  let age := fun i => match k.vec[i]? with
    | some p => min 255 ((pic + 2 ^ 32 - (s.encRef c.ch p.1).pic % 2 ^ 32) % 2 ^ 32)
    | none => 0
  ⟨1, k.typ, if k.typ = 1 then k.mode else 0, false, r0.1, r1.1, act, r0.2.1, r0.2.2, r1.2.1, r1.2.2, q, cbf, false,
   age 0, age 1, pic⟩

/-- The context of the block's type (R123). -/
def State.encCtx (s : State) (c : EncCtx) (x b : Nat) : Nat :=
  btCtx (avail c.f.cols c.c0 c.c1 x b) (s.sum c.ch (x - 1) b) (s.sum c.ch x (b - 1))

/-- A block reconstructed with a residual. -/
def encRec (c : EncCtx) (x b : Nat) (k : Choice) (tbs : List TbEl) (q : Nat) (s : State) : State :=
  recBlock c.ch c.f (avail c.f.cols c.c0 c.c1 x b) x b (s.choicePred c k) (if k.typ = 0 then [] else tbs)
    (effQ c.f false q 0 false) (effQ c.f true q c.cOff c.red) s

/-- The quantiser among the candidates, in increasing order, and its residual: the largest that meets the target, else the
smallest (R144). `tries` are the candidates with their residuals and distortions. -/
def pickQ (target : Nat) (tries : List (Nat × List TbEl × Nat)) : Nat × List TbEl :=
  match (tries.filter (fun t => decide (t.2.2 ≤ target))).getLast? with
  | some t => (t.1, t.2.1)
  | none => match tries with
    | t :: _ => (t.1, t.2.1)
    | [] => (0, [])

/-- A choice with a residual that free levels give at a quantiser, and its distortion (R141).
DESIGN CHOICE, log 74. -/
def tryChoice (c : EncCtx) (x b w qPred q : Nat) (k : Choice) (s : State) : (List TbEl × Nat) × State :=
  let (u, s) := s.free
  let tbs := if k.typ = 0 then [] else freeTbs c.f.numTb u
  ((tbs, (encRec c x b k tbs (if tbs.any TbEl.cbf then q else qPred) s).distortion c.ch c.n c.f x b w), s)

/-- The choices in turn at the starting quantiser, each with its cost dw + lambda x bits (R145). -/
def costs (c : EncCtx) (x b w qPred q0 : Nat) (e : Ent) : List Choice → State → List (Choice × Nat) × State
  | [], s => ([], s)
  | k :: t, s =>
    let ((tbs, d), s) := tryChoice c x b w qPred q0 k s
    let bits := (putBlock (s.encCtx c x b) (k.elems qPred q0 tbs) e).bits.length - e.bits.length
    let (l, s) := costs c x b w qPred q0 e t s
    ((k, d + lambda q0 * bits) :: l, s)

/-- The choice of least cost, the earlier one where two are equal. -/
def leastCost (l : List (Choice × Nat)) (k0 : Choice) : Choice :=
  ((l.foldl (fun (b : Option (Choice × Nat)) x => match b with
    | none => some x
    | some y => if x.2 < y.2 then some x else some y) none).map (·.1)).getD k0

/-- The candidate quantisers in turn, each with its residual and distortion (R144). -/
def tryQs (c : EncCtx) (x b w qPred : Nat) (k : Choice) : List Nat → State → List (Nat × List TbEl × Nat) × State
  | [], s => ([], s)
  | q :: t, s =>
    let ((tbs, d), s) := tryChoice c x b w qPred q k s
    let (l, s) := tryQs c x b w qPred k t s
    ((q, tbs, d) :: l, s)

/-- The chosen coding of a block (R144, R145): its elements and quantiser. The candidates of the motion search and the levels of each
residual are the unit's own, and free. The rows of poisoned lines that some candidate would have read come with it.
DESIGN CHOICE, log 74. -/
def chooseBlock (c : EncCtx) (x b act qPred floor : Nat) (e : Ent) (intra : Bool) (s : State) : Choice × BlkEl × Nat × List Nat × State :=
  let (v, s) := s.free
  let all := s.choices c x b intra ((List.range (v % 64)).map (fun i => bitsOf v (6 + 80 * i) 80))
  let pois := (all.flatMap (s.choicePoison c x b)).eraseDups
  let g := fun f => s.qrcOf f c.ch c.n
  let q0 := startQ (g .CFG_QP_MIN) (g .CFG_QP_MAX) (g .CFG_QI) (s.ofsOf c.ch (actClass act))
  let w := maskWeight (g .CFG_MASK_EN != 0) (max 1 (g .MASK_MASK_K)) (g .MASK_MASK_MIN) act
  let (l, s) := costs c x b w qPred q0 e (all.filter (s.legal c x b)) s
  let k := leastCost l ⟨1, 0, [], []⟩
  let (tries, s) := tryQs c x b w qPred k (candQ q0 floor (g .CFG_QP_MAX)) s
  let (q, tbs) := pickQ (qiTarget (g .CFG_QI)) tries
  let q := if tbs.any TbEl.cbf then q else qPred
  (k, k.elems qPred q tbs, q, pois, s)

-- The cap guard (R153 to R159)

/-- The headroom r (R153). -/
def State.headroom (s : State) (c : EncCtx) : Int := (c.budget : Int) - (s.get (.qrc .xCHG) c.ch c.i : Nat) - (c.kept : Nat)

/-- rho (R153). -/
def rhoOf (r : Int) (p : Nat) : Int := if p = 0 then 511 else min 511 (256 * r / p)

/-- Expected bits of what remains of the stripe and its window (R153). -/
def State.expected (s : State) (c : EncCtx) (classes : List Nat) : Nat :=
  (classes.map (s.bpbOf c.ch)).sum + s.get (.qrc .STATUS_BPB_AVG) c.ch * c.later

/-- The highest rung so far in a picture (R154). -/
def notePeakRung (ch n r : Nat) (s : State) : State :=
  s.when (s.get (.qrc .xPEAK) ch 0 (n % 2) < r) (fun s => s.put (.qrc .xPEAK) r ch 0 (n % 2))

/-- The slice rows of poisoned lines that the skip block of a block would read (R174). -/
def State.skipPoison (s : State) (c : EncCtx) (x b : Nat) : List Nat := s.choicePoison c x b (s.skipChoice c x b)

/-- The minimal code of a block (R155, R156): skip, or intra DC with no residual in a protected unit, and where a skip block would read
poison (R174). -/
def State.minimal (s : State) (c : EncCtx) (x b : Nat) : Choice × BlkEl :=
  if c.prot || s.skipPoison c x b != [] then (⟨1, 0, [], []⟩, ⟨1, 0, [], 0, List.replicate c.f.numTb ⟨false, []⟩⟩)
  else (s.skipChoice c x b, ⟨0, 0, [], 0, []⟩)

/-- The debt that a block's commit sets (1) or clears (2) (R157, R158).
DEDUCED, log 81. -/
def debtEffect (minimal intra : Bool) : Nat := if minimal then 1 else if intra then 2 else 0

/-- Poisoned source samples lie in a block: its row is flagged, and it is counted (R175). -/
def noteSrc (c : EncCtx) (x b : Nat) (s : State) : State :=
  s.when (s.flag (.cch .xSRCP) c.ch (blkIx x b) (c.n % 2))
    (fun s => flagRow c.ch c.row (c.n % 2) flSRC_POISON (c.n % 2 ^ 32) (s.bump (.ref .CNT) c.ch 6))

/-- A block that truncation leaves out: reconstructed as a skip block (R82), counted, and in debt at commit. -/
def leaveOut (c : EncCtx) (act x b : Nat) (st : EncSt) : EncSt :=
  let k := st.s.skipChoice c x b
  let s := encRec c x b k [] st.q (noteSrc c x b (notePoison c.ch c.n (st.s.skipPoison c x b) st.s))
  let s := setBlock c.ch (c.n % 2) c.f x b (s.encSum c k (actClass act) st.q false) s
  let s := s.put (.qrc .xBF) 1 c.ch (b * c.f.cols + x) (c.n % 2)
  { st with s := s.bump (.qrc .CNT) c.ch 5, cut := true }

/-- A block's code is written: reconstruction, summary, entropy data, the bits charged, and what the model and the debt
take from it. `rung` tells that its minimal code was forced, `keep` that it counts for the model (R148). -/
def writeBlock (c : EncCtx) (x b cls : Nat) (k : Choice) (el : BlkEl) (q : Nat) (forced intra keep : Bool) (st : EncSt) : EncSt :=
  let s := st.s
  let e := putBlock (s.encCtx c x b) el st.e
  let bits := e.bits.length - st.e.bits.length
  let s := encRec c x b k el.tbs q s
  let s := setBlock c.ch (c.n % 2) c.f x b (s.encSum c k cls q (el.tbs.any TbEl.cbf)) s
  let s := s.bump (.qrc .xCHG) c.ch c.i 0 bits
  let k2 := c.n % 2
  let s := s.bump (.qrc .xT_B) c.ch 0 k2 bits
  let s := s.when keep (fun s => ((s.bump (.qrc .xM_N) c.ch cls k2).bump (.qrc .xM_Q) c.ch cls k2 q).bump (.qrc .xM_B) c.ch cls k2 bits)
  let s := s.put (.qrc .xBF) (debtEffect forced (intra && (k.typ == 1) && decide ((k, el) ≠ s.minimal c x b))) c.ch (b * c.f.cols + x) (c.n % 2)
  let s := s.when forced (fun s => s.bump (.qrc .CNT) c.ch 3)
  let s := s.when (decide (s.qrcOf .CFG_QP_MIN c.ch c.n < st.f)) (fun s => s.bump (.qrc .CNT) c.ch 1)
  { st with s := s, e := e, q := q, coded := st.coded + 1 }

/-- Rung 1 before a block (R154): the floor rises by 2 below 256, and falls by 1 while rho is 320 or more. -/
def rung1 (c : EncCtx) (rho : Int) (st : EncSt) : EncSt :=
  let lo := st.s.qrcOf .CFG_QP_MIN c.ch c.n
  let hi := st.s.qrcOf .CFG_QP_MAX c.ch c.n
  if rho < 256 then { st with f := min hi (st.f + 2), s := notePeakRung c.ch c.n 1 st.s }
  else if 320 ≤ rho then { st with f := max lo (st.f - 1) }
  else st

/-- One block of a stripe under the guard. `classes` are those of this block and the blocks after it. -/
def encBlock (c : EncCtx) (act : Nat) (classes : List Nat) (x b : Nat) (st : EncSt) : EncSt :=
  if st.cut then leaveOut c act x b st
  else
    let s := st.s
    let left := classes.length - 1
    let pois := s.skipPoison c x b
    let m : Int := if c.prot || pois != [] then 20 else 3
    let v : Int := 8 + 20 * ((if c.prot then left else 0) + c.guardV : Nat)
    let r := s.headroom c
    let rho := rhoOf r (s.expected c classes)
    let st := rung1 c rho st
    if r < m + v ∧ !c.prot then leaveOut c act x b { st with s := notePeakRung c.ch c.n 4 st.s }
    else
      let s := st.s
      let cls := actClass act
      let t := b * c.f.cols + x
      let (mk, me) := s.minimal c x b
      let least := fun (s : State) => writeBlock c x b cls mk me st.q true false false { st with s := s }
      if s.flag (.cch .xSRCP) c.ch (blkIx x b) (c.n % 2) then least (notePoison c.ch c.n pois (noteSrc c x b s))
      else
        let s := noteDebt c.ch t s
        let lim := s.qrcOf .TUNE_REPAY_MAX c.ch c.n
        let repay := s.inDebt c.ch t && !c.band && decide (256 ≤ rho) &&
          (lim == 0 || decide (s.get (.qrc .xREPAID) c.ch c.i (c.n % 2) < lim))
        if rho < 128 then least (notePeakRung c.ch c.n 3 (notePoison c.ch c.n pois s))
        else
          let (k, el, q, met, s) := chooseBlock c x b act st.q st.f st.e (repay || c.band) s
          let s := notePoison c.ch c.n met s
          let bits : Int := ((putBlock (s.encCtx c x b) el st.e).bits.length - st.e.bits.length : Nat)
          if r - bits < v + (if c.prot then 0 else 3) then least (notePeakRung c.ch c.n 3 s)
          else
            let s := s.when repay (fun s => s.bump (.qrc .xREPAID) c.ch c.i (c.n % 2))
            let keep := st.f == s.qrcOf .CFG_QP_MIN c.ch c.n && !c.red && !repay && !c.band
            writeBlock c x b cls k el q false (k.typ == 1) keep { st with s := s }

/-- The blocks of a stripe in coding order, each with its activity. -/
def encBlocks (c : EncCtx) : List ((Nat × Nat) × Nat) → EncSt → EncSt
  | [], st => st
  | (p, act) :: t, st => encBlocks c t (encBlock c act (actClass act :: t.map (fun q => actClass q.2)) p.1 p.2 st)

/-- A stripe unit of picture `n` is protected (R156): it lies in a refresh band, or a skip block in it could read rows
that R91 forbids. -/
def State.isProt (s : State) (ch n row : Nat) (h : PicHdr) : Bool :=
  h.isP && (s.flag (.qrc .xBAND) ch row (n % 2) ||
    ((List.range h.fmt.rows).filter (fun r => decide (row ≤ r + 2 ∧ r ≤ row + 2))).any (fun r => s.banned ch r (s.encRef ch 0).pic))

/-- The cap window of a row, and the rows of it that come after the row. -/
def State.windowOf (s : State) (ch n row : Nat) : Nat × List Nat :=
  let cap := s.capRows ch n
  let w := s.picWork ch n
  let stop := min w.rows (cap * (row / cap + 1))
  (row / cap, (List.range (stop - row - 1)).map (· + row + 1))

/-- A stripe of picture `n` is coded (R75 to R82, R153 to R159), and its unit waits for its row to commit. `srcBad` are the blocks, by their
place in coding order, whose samples in the input window are poisoned (R175). -/
def codeStripe (ch n row i : Nat) (h : PicHdr) (srcBad : List Nat) (s : State) : State :=
  let f := h.fmt
  let (c0, c1) := stripeCols f.cols h.units i
  let s := forEach ((codingOrder row c0 c1).zipIdx.filter (fun p => srcBad.contains p.2)) (fun p s =>
    s.put (.cch .xSRCP) 1 ch (blkIx p.1.1 p.1.2) (n % 2)) s
  let (k, rest) := s.windowOf ch n row
  let first := row % s.capRows ch n == 0
  let s := s.when first (fun s => ((s.put (.qrc .xCHG) 0 ch i).put (.qrc .xFLR) (s.qrcOf .CFG_QP_MIN ch n) ch i).put (.qrc .xTRN) 0 ch i)
  let s := s.bump (.qrc .xCHG) ch i 0 128
  let per := 2 * (c1 - c0)
  let (v, s) := s.free
  let prot := s.isProt ch n row h
  let c : EncCtx := ⟨ch, n, row, i, h, f, c0, c1, prot, s.flag (.qrc .xBAND) ch row (n % 2), false,
    signedOf 5 (bitsOf v 6 5), s.stripeBudget ch n k i, 136 * rest.length, per * rest.length,
    per * (rest.filter (fun r => s.isProt ch n r h)).length⟩
  let order := codingOrder row c0 c1
  let acts := order.map (fun p => activity f.d (s.blockSrc ch n f 0 p.1 p.2))
  let rho := rhoOf (s.headroom c) (s.expected c (acts.map actClass))
  let red := decide (rho < 192)
  let s := s.when red (fun s => notePeakRung ch n 2 (s.bump (.qrc .CNT) ch 2))
  let c := { c with red := red }
  let qb := v % 64
  let st : EncSt := ⟨s, ⟨[], ctxInit⟩, qb, s.get (.qrc .xFLR) ch i, 0, s.flag (.qrc .xTRN) ch i && !prot⟩
  let st := encBlocks c (order.zip acts) st
  let s := st.s
  let s := s.when st.cut (fun s => notePeakRung ch n 4 ((s.put (.qrc .xTRN) 1 ch i).bump (.qrc .CNT) ch 4))
  let s := s.put (.qrc .xFLR) st.f ch i
  let s := s.bump (.qrc .xT_N) ch 0 (n % 2) per
  let data := packBits st.e.bits.length st.e.bits
  let s := s.bump (.qrc .xCHG) ch i 0 (8 * data.length - st.e.bits.length)
  let u : StrHdr := ⟨row, i, st.cut, red, qb, c.cOff, n % 65536, data.length, st.coded⟩
  putStr ch n row i 1 { s with units := s.units ++ [⟨ch, n, row, i, u.unit data⟩] }

-- HEVC (R130, R132, R136, R137, R161, R174)

/-- What the header field of an HEVC encode picture holds: whether it is an IDR picture, its mark, its slot, and the slots that it may
reference. -/
def State.hevcHdr (s : State) (ch n : Nat) : Bool × Nat × Nat × Nat :=
  let v := s.get (.ref .xHDR) ch 0 (n % 2)
  (bitOf v 0, v / 2 % 4, v / 8 % 4, v / 32 % 16)

/-- The settings that an HEVC encode picture's parameter sets carry (R136); the colour description, which no setting gives, is free. -/
def State.encSets (s : State) (ch n colour : Nat) : EncSets :=
  let g := fun f => s.get (.cch f) ch 0 (picBank n)
  let w := s.picWork ch n
  let level := g .HEVC_HEVC_LEVEL
  ⟨g .HEVC_HEVC_PROFILE, g .HEVC_HEVC_TIER, if level = 123 ∨ level = 150 then level else 153, w.w, w.h, w.num, w.den, colour⟩

/-- The mark and slot with which the picture before HEVC picture `n` is still to be stored; its rows overlap those of `n` (R191). -/
def State.toStore (s : State) (ch n : Nat) : Option (Nat × Nat) :=
  let (_, mark, slot, _) := s.hevcHdr ch (n - 1)
  if s.hasPic ch (n - 1) && decide (s.get (.cch .xDONE) ch < n) && mark != 0 then some (mark, slot) else none

/-- The slots that hold a picture since the last IDR picture, without the one that the picture before `n` is still to take. -/
def State.liveSlots (s : State) (ch n : Nat) : List Nat :=
  let idr := (s.get (.ref .xIDR) ch - 1) % 2 ^ 32
  let gone := (s.toStore ch n).map (·.2)
  (List.range 4).filter (fun k => (s.slotPic ch k).isSome && !seqBefore 32 (s.get (.ref .xSL_PIC) ch k) idr && gone != some k)

/-- What a slice segment of picture `n` is sent with: the pictures that its slots hold, and the one before it, make its reference picture
sets, SHORT ones short-term and LONG ones long-term (R167). -/
def State.sliceSets (s : State) (ch n : Nat) (qp : Int) : SliceSets :=
  let (idr, _, _, valid) := s.hevcHdr ch n
  let poc := pocOf (s.get (.ref .xPOC) ch 0 (n % 2))
  let held := (s.liveSlots ch n).map (fun k => (s.get (.ref .SLOT_MARK) ch k, pocOf (s.get (.ref .xSL_POC) ch k), bitOf valid k)) ++
    ((s.toStore ch n).toList.map (fun m => (m.1, pocOf (s.get (.ref .xPOC) ch 0 ((n - 1) % 2)), false)))
  let held := if idr then [] else held
  let short := (held.filter (fun h => h.1 == 1)).map (fun h => (h.2.1 - poc, h.2.2))
  let lt := fun a b : Int × Bool => decide (a.1 < b.1)
  let neg := insSort (fun a b => lt b a) (short.filter (fun d => decide (d.1 < 0)))
  let pos := insSort lt (short.filter (fun d => decide (0 < d.1)))
  ⟨idr, (poc % 2 ^ 16).toNat, ⟨neg, pos⟩, (held.filter (fun h => h.1 == 2)).map (fun h => ((h.2.1 % 2 ^ 16).toNat, h.2.2)),
   (held.filter (fun h => h.2.2)).length, qp⟩

/-- A NAL unit that waits for its row; `ix` orders the units of a row. -/
def addNal (ch n row ix : Nat) (b : List Byte) (s : State) : State := { s with units := s.units ++ [⟨ch, n, row, ix, b⟩] }

/-- The bits that the CTU rows before a row have taken from it: what each is charged above its own budget, less what those before it had
taken (R161). -/
def State.overAt (s : State) (ch n : Nat) : Nat → Nat
  | 0 => 0
  | r + 1 => s.get (.qrc .xROWB) ch r (n % 2) - (rowBudget (s.qrcOf .CAP_CAP_KBPS ch n) (s.picWork ch n) - s.overAt ch n r)

/-- A CTU row that is being coded: its channel, picture and row, its format, whether it may predict from other pictures, whether it lies in
a refresh band, its budget, and the coding so far: the state, the floor, the bits charged, and whether every CTU left takes the rung 3
code. -/
structure RowSt where
  s    : State
  f    : Nat
  bits : Nat
  out  : Bool

/-- The areas of a quantisation group, of the CTU row's group row `j` and column `x` (R161). -/
def groupAreas (f : Fmt) (row j x : Nat) : List (Nat × Nat) :=
  ([4 * row + 2 * j, 4 * row + 2 * j + 1].filter (fun b => decide (b < 2 * f.rows ∧ x < f.cols))).map (fun b => (x, b))

/-- The groups of CTU `c` of a row, in order. -/
def ctuGroups (f : Fmt) (row c : Nat) : List (List (Nat × Nat)) :=
  ([(0, 2 * c), (0, 2 * c + 1), (1, 2 * c), (1, 2 * c + 1)].map (fun p => groupAreas f row p.1 p.2)).filter (!·.isEmpty)

/-- The samples of areas that free bits give.
DESIGN CHOICE, log 75. -/
def freeSmps (ch : Nat) (f : Fmt) (v : Nat) (l : List (Nat × Nat)) (s : State) : State :=
  forEach l.zipIdx (fun a s => fillBlock ch f a.1.1 a.1.2 (fun pl X Y =>
    bitsOf v (16 * smpIx pl (X % 16) (Y % 8 + 8 * a.2)) (f.dep pl)) s) s

/-- The candidate quantisers of a group in turn, with free samples for each and the distortion of its areas (R144, R161). -/
def tryGroup (ch n : Nat) (f : Fmt) (l : List (Nat × Nat)) (w : Nat) : List Nat → State → List (Nat × Nat × Nat) × State
  | [], s => ([], s)
  | q :: t, s =>
    let (v, s) := s.free
    let d := (l.map (fun a => (freeSmps ch f v l s).distortion ch n f a.1 a.2 w)).sum
    let (r, s) := tryGroup ch n f l w t s
    ((q, v, d) :: r, s)

/-- The largest candidate that meets a target, else the smallest (R144). -/
def pickGroup (target : Nat) (l : List (Nat × Nat × Nat)) : Nat × Nat :=
  match (l.filter (fun t => decide (t.2.2 ≤ target))).getLast? with
  | some t => (t.1, t.2.1)
  | none => (l.head?.map (fun t => (t.1, t.2.1))).getD (0, 0)

/-- One reference and vector of a group in quarter samples, if it reads neither forbidden nor poisoned rows; and the slice rows of the
poisoned lines that it would read (R91, R174). -/
def State.groupRef (s : State) (ch : Nat) (f : Fmt) (valid v : Nat) (l : List (Nat × Nat)) : Option (Nat × Int × Int) × List Nat :=
  let sl := (List.range 4).filter (bitOf valid)
  let k := sl.getD (v % max 1 sl.length) 0
  let vec := (signedOf 16 (bitsOf v 8 16), signedOf 16 (bitsOf v 24 16))
  let lines := l.flatMap (fun a => linesReadH f a.1 a.2 vec.1 vec.2)
  let pois := ((s.poisonIn f (s.encRef ch k) lines).map (· / 2)).eraseDups
  if sl.isEmpty ∨ pois ≠ [] ∨ lines.any (fun x => s.banned ch (x.2.2 / 2) (s.encRef ch k).pic) then (none, pois) else (some (k, vec), [])

/-- One quantisation group of a CTU row under the guard (R140 to R148, R161): mode, vector, levels and the bits that they take are the
engine's, and free. `later` are the classes of the areas after it in the row.
DESIGN CHOICE, log 75. -/
def codeGroup (ch n row budget : Nat) (f : Fmt) (later : List Nat) (l : List (Nat × Nat)) (st : RowSt) : RowSt :=
  let k := n % 2
  let s := st.s
  let (idr, _, _, valid) := s.hevcHdr ch n
  let g := fun f => s.qrcOf f ch n
  let acts := l.map (fun a => activity f.d (s.blockSrc ch n f 0 a.1 a.2))
  let act := (acts.sum + acts.length / 2) / max 1 acts.length
  let r : Int := (budget : Int) - st.bits
  let rho := rhoOf r (((acts.map actClass) ++ later).map (s.bpbOf ch)).sum
  let lo := g .CFG_QP_MIN
  let fl := if rho < 256 then min (g .CFG_QP_MAX) (st.f + 2) else if 320 ≤ rho then max lo (st.f - 1) else st.f
  let s := s.when (decide (rho < 256)) (notePeakRung ch n 1)
  let (v, s) := s.free
  let band := s.flag (.qrc .xBAND) ch (2 * row) k || s.flag (.qrc .xBAND) ch (2 * row + 1) k
  let srcBad := l.any (fun a => s.flag (.cch .xSRCP) ch (blkIx a.1 a.2) k)
  let debt := l.any (fun a => s.inDebt ch (a.2 * f.cols + a.1))
  let s := forEach l (fun a s => noteDebt ch (a.2 * f.cols + a.1) s) s
  let lim := g .TUNE_REPAY_MAX
  let repay := debt && !band && decide (256 ≤ rho) && (lim == 0 || decide (s.get (.qrc .xREPAID) ch 0 k < lim))
  let forced := st.out || srcBad || decide (rho < 128)
  let s := s.when (forced && !srcBad) (notePeakRung ch n 3)
  let (ref, pois) := if idr || valid == 0 || ((repay || band) && !forced) || (band && forced) then (none, []) else s.groupRef ch f valid v l
  let s := notePoison ch n pois s
  let ref := if forced || bitOf v 40 then ref else none
  let q0 := startQ lo (g .CFG_QP_MAX) (g .CFG_QI) (s.ofsOf ch (actClass act))
  let w := maskWeight (g .CFG_MASK_EN != 0) (max 1 (g .MASK_MASK_K)) (g .MASK_MASK_MIN) act
  let (tries, s) := tryGroup ch n f l w (candQ q0 fl (g .CFG_QP_MAX)) s
  let (q, smp) := pickGroup (2 * qiTarget (g .CFG_QI)) tries
  let q := if forced && ref.isNone then 63 else q
  let s := freeSmps ch f smp l s
  let bits := if forced then bitsOf v 41 5 else bitsOf v 41 15
  let intra := ref.isNone
  let cbf := !forced && bitOf v 56
  let refPic := s.encRef ch ((ref.map (·.1)).getD 0)
  let s := forEach (l.zip acts) (fun a s =>
    let (x, b) := a.1
    let t := b * f.cols + x
    let m : Sum := match ref with
      | some (e, mv) => ⟨1, if forced then 0 else 2, 0, false, e, 0, actClass a.2, mv.1 / 2, mv.2 / 2, 0, 0, q, cbf, false, ageOf (n % 2 ^ 32) refPic, 0,
          n % 2 ^ 32⟩
      | none => ⟨1, 1, 0, false, 0, 0, actClass a.2, 0, 0, 0, 0, q, cbf, false, 0, 0, n % 2 ^ 32⟩
    let s := setBlock ch k f x b m s
    let s := s.put (.qrc .xBF) (debtEffect forced intra) ch t k
    let s := s.when forced (fun s => s.bump (.qrc .CNT) ch 3)
    let s := s.when (decide (lo < fl)) (fun s => s.bump (.qrc .CNT) ch 1)
    let s := s.when (s.flag (.cch .xSRCP) ch (blkIx x b) k) (fun s =>
      flagRow ch row k flSRC_POISON (n % 2 ^ 32) (s.bump (.ref .CNT) ch 6))
    let s := s.when (fl == lo && !forced && !repay && !band) (fun s =>
      let cls := actClass a.2
      ((s.bump (.qrc .xM_N) ch cls k).bump (.qrc .xM_Q) ch cls k q).bump (.qrc .xM_B) ch cls k (bits / l.length))
    (s.bump (.qrc .xT_N) ch 0 k).bump (.qrc .xT_B) ch 0 k (bits / l.length)) s
  let s := s.when (repay && !forced) (fun s => s.bump (.qrc .xREPAID) ch 0 k l.length)
  { st with s := s, f := fl, bits := st.bits + bits }

/-- The CTUs of a row in order; once fewer than 48 bits are left for each, every one left takes the rung 3 code (R161). -/
def codeCtus (ch n row budget ctus : Nat) (f : Fmt) : List Nat → RowSt → RowSt
  | [], st => st
  | c :: t, st =>
    let low := decide ((budget : Int) - st.bits < (48 * (ctus - c) : Nat))
    let st := { st with out := st.out || low }
    let after := fun (j : Nat) => (t.flatMap (fun d => (ctuGroups f row d).flatMap id) ++ ((ctuGroups f row c).drop (j + 1)).flatMap id).map
      (fun a => actClass (activity f.d (st.s.blockSrc ch n f 0 a.1 a.2)))
    let st := (ctuGroups f row c).zipIdx.foldl (fun st g => codeGroup ch n row budget f (after g.2) g.1 st) st
    codeCtus ch n row budget ctus f t st

/-- A CTU row is coded (R132, R136, R161): parameter sets ahead of an IDR picture, and one slice segment, whose data is free.
DESIGN CHOICE, log 75. -/
def codeCtuRow (ch n row : Nat) (srcBad : List Nat) (s : State) : State :=
  let w := s.picWork ch n
  let f := s.cfgFmt ch n
  let k := n % 2
  let s := forEach ((rowAreas f row).zipIdx.filter (fun a => srcBad.contains a.2)) (fun a s =>
    s.put (.cch .xSRCP) 1 ch (blkIx a.1.1 a.1.2) k) s
  let (idr, _, _, _) := s.hevcHdr ch n
  let (v, s) := s.free
  let e := s.encSets ch n (bitsOf v 0 24)
  let sets := idr && row == 0 && (s.flag (.cch .HEVC_PS_REPEAT) ch 0 (picBank n) || n == s.get (.cch .xSTART_PIC) ch)
  let nals := if sets then [vpsNal e, spsNal e, ppsNal] else []
  let s := forEach nals.zipIdx (fun b s => addNal ch n row (16 + b.2) b.1 s) s
  let ahead := 8 * (nals.map List.length).sum +
    (if row = 0 ∧ s.flag (.cch .HEVC_HASH_SEI) ch 0 (picBank n) then 8 * (nalOf 40 (bytesBits (s.hashBytes ch n))).length else 0)
  let q : Int := clip3 (-6 * (f.d - 8 : Nat)) 51 ((bitsOf v 24 6 : Int) - 20)
  let ctus := ceilDiv w.w 32
  let slice := fun data => sliceNal (s.sliceSets ch n q) ctus (ctus * ceilDiv w.h 32) row data
  let budget := rowBudget (s.qrcOf .CAP_CAP_KBPS ch n) w - s.overAt ch n row
  let st := codeCtus ch n row budget ctus f (List.range ctus) ⟨s, s.qrcOf .CFG_QP_MIN ch n, ahead + 8 * (slice []).length, false⟩
  let s := st.s
  let nal := slice (beBytes (ceilDiv (st.bits - ahead - 8 * (slice []).length) 8) (v / 2 ^ 32))
  let s := addNal ch n row 32 nal s
  let s := s.put (.qrc .xROWB) (ahead + 8 * nal.length) ch row k
  let s := s.when (decide (row + 1 < w.rows)) (fun s => s.bump (.qrc .CNT) ch 7 0 (s.overAt ch n (row + 1)))
  putStr ch n row (s.hevcIx ch n row) 1 s

end Sys2Proof.Machine
end

