-- ==== Sys2Proof/Machine/Ostler.lean ====
section
/-!
DEFINITION. The control sequencers (chapter 16): dispatch, yield points, journals, machine checks, shedding, and the
operations of microwords and nanowords but for those that reach registers. An operation of an Ostler acts only while a
routine runs; an idle Ostler with work first starts it.
-/

namespace Sys2Proof.Machine

/-- The Ostler of a die executes: the die is up, and neither the safe state nor Winter stops it, until Spring is over (R465, R487,
R489). -/
def State.ostAwake (s : State) (d : Nat) : Bool := s.dieUp d && !s.safe && decide (s.get (.pwr .STATUS_SEASON) < 2)

/-- `OST_STATUS.STATE`: 0 LOADING, 1 IDLE, 2 RUN, 3 MCHK. -/
def State.ostState (s : State) (d : Nat) : Nat := s.get (.ost .STATUS_STATE) d

/-- A routine of the Ostler runs. -/
def State.ostRuns (s : State) (d : Nat) : Bool := s.ostState d == 2

/-- The class of the routine that runs. -/
def State.ostClass (s : State) (d : Nat) : Nat := s.get (.ost .STATUS_CLASS) d

/-- The frames that wait for the Ostler of a die (R224). -/
def State.ostFrames (s : State) (d : Nat) : List Rx := s.rxs.filter (fun r => r.die == d && r.q == 32)

/-- The channels of a die with a model update that waits (R148). -/
def State.modelsDue (s : State) (d : Nat) : List Nat := (s.chansOf d).filter (fun ch => s.flag (.qrc .xMODEL) ch)

/-- The items that wait in a work class (R392): for IRQ the raised signal, for TABLE the commands that the Ostler runs and
the bad trie lines, and so on. -/
def State.ostPending (s : State) (d c : Nat) : Nat :=
  match c with
  | 1 => s.get (.evc .TGT_STATUS_SIGNAL) (2 + d)
  | 3 =>
    let rt := s.flag (cmdBUSY .route) d && (s.get (.fwd .xCMD_OP) d 0 == 3 || s.get (.fwd .xCMD_OP) d 0 == 4)
    let br := s.flag (cmdBUSY .bridge) d && s.get (.fwd .xCMD_OP) d 2 == 6
    rt.toNat + br.toNat + ((s.store.keysOf (.fwd .xRT_BAD)).filter (fun k => k.i == d)).length
  | 5 => (s.modelsDue d).length
  | 6 => s.get (.fwd .xAGE_DUE) d + s.get (.fwd .STATUS_SWEEP_ACTIVE) d
  | 7 => if d = 0 then s.get (.fwu .BLK_CMD_SUBMIT) else 0
  | 8 => (s.ostFrames d).length
  | _ => s.get (.ost .xITEMS) d c

/-- A class has work that may start: a deferred STAGE item does not while it is shed (R392, R394). -/
def State.ostWork (s : State) (d c : Nat) : Bool := s.ostPending d c != 0 && !(c == 7 && s.ostSheds d 7)

/-- The dispatcher's choice (R389): the lowest-ranked class with work pending, a routine suspended, or the routine that
runs. While it is quiet no new routine but one of IRQ starts (R448, R487). -/
def State.ostChoice (s : State) (d : Nat) (cur : Option Nat) : Option Nat :=
  [1, 2, 3, 4, 5, 6, 7, 8, 9].find? (fun c => cur == some c || s.flag (.ost .CLASS_SUSPENDED) d c ||
    (s.ostWork d c && (c == 1 || !s.flag (.ost .xQUIET) d)))

/-- A context is copied to another (R389, R391). -/
def copyCtx (d a b : Nat) (s : State) : State :=
  let s := (s.put (.ost .xPC) (s.get (.ost .xPC) d a) d b).put (.ost .xDEPTH) (s.get (.ost .xDEPTH) d a) d b
  let s := (s.put (.ost .xLC) (s.get (.ost .xLC) d a) d b).put (.ost .xFLAGS) (s.get (.ost .xFLAGS) d a) d b
  let s := forEach (List.range 8) (fun j s => s.put (.ost .xSTK) (s.get (.ost .xSTK) d j a) d j b) s
  forEach (List.range 64) (fun j s => s.put (.ost .xG) (s.get (.ost .xG) d j a) d j b) s

/-- A field takes a free value.
DESIGN CHOICE, log 62. -/
def putFree (f : Fld) (i j k : Nat) (s : State) : State :=
  let (v, s) := s.free
  s.put f v i j k

/-- A routine starts afresh: its entry is 16-word aligned (R384); which word it is and what its registers hold then is the
microcode's, so they are free.
DESIGN CHOICE, log 62. -/
def freshRoutine (d : Nat) (s : State) : State :=
  let (e, s) := s.free
  let s := (s.put (.ost .xPC) (16 * e) d 0).put (.ost .xDEPTH) 0 d 0
  let s := putFree (.ost .xFLAGS) d 0 0 (putFree (.ost .xLC) d 0 0 s)
  forEach (List.range 64) (fun j s => putFree (.ost .xG) d j 0 s) s

/-- The watchdog and the yield-point clock restart (R388, R390).
DESIGN CHOICE, log 64. -/
def ostMark (d : Nat) (s : State) : State :=
  (s.put (.ost .xYIELD_AT) s.osc d).put (.ost .xWDOG_DUE)
    (s.dueIn (clampTo 1 1000 (s.get (.ost .WDOG_MS) d) * msNs)) d

/-- The dispatcher gives the sequencer to a class: its suspended routine resumes, or a routine starts (R389). -/
def ostEnter (d c : Nat) (s : State) : State :=
  let s := ostMark d ((s.put (.ost .STATUS_STATE) 2 d).put (.ost .STATUS_CLASS) c d)
  if s.flag (.ost .CLASS_SUSPENDED) d c then copyCtx d (1 + c) 0 (s.put (.ost .CLASS_SUSPENDED) 0 d c)
  else freshRoutine d s

/-- The dispatcher with no routine to carry on: the next class, or IDLE (R389). A change of class is a switch. -/
def ostDispatch (d : Nat) (s : State) : State :=
  match s.ostChoice d none with
  | some c => ostEnter d c (s.when (c != s.ostClass d) (fun s => s.bump (.ost .CNT) d 11))
  | none => s.put (.ost .STATUS_STATE) 1 d

/-- An idle Ostler with work starts it. -/
def ostWake (d : Nat) (s : State) : State :=
  s.when (s.ostState d == 1 && decide (s.get (.pwr .xWIN_STEP) < 2)) (ostDispatch d)

/-- The form of an Ostler operation. -/
def ostOp (d : Nat) (f : State → State) (s : State) : State :=
  s.when (s.ostAwake d) (fun s =>
    let s := ostWake d s
    s.when (s.ostRuns d) f)

/-- The line of a class's journal record: line `c` of the journal buffer of owner 58 (R391). -/
def State.jnlLine (s : State) (d c : Nat) : Option (Nat × Nat) :=
  (s.ownBuf d 58 0).map (fun b => (b.grp, s.bufAddr b / 256 + c))

/-- The journal record of a class is poisoned, or lies in a LOST group (R391). -/
def State.jnlBad (s : State) (d c : Nat) : Bool :=
  match s.jnlLine d c with
  | some (g, la) => s.grpLost g || s.linePoison g la != 0
  | none => true

/-- A free byte string. -/
def freeBytes : Nat → State → List Byte × State
  | 0, s => ([], s)
  | n + 1, s =>
    let (v, s) := s.free
    let (t, s) := freeBytes n s
    (BitVec.ofNat 8 v :: t, s)

/-- A step is committed (R391): the record takes PC + 1, LC, the stack and g48 to g63 with a full-line write. What the
line's bytes are is not stated in full, so they are free; the record's content is context 11 + c. -/
def ostCommit (d c step : Nat) (s : State) : State :=
  let s := copyCtx d 0 (11 + c) s
  let s := (s.put (.ost .xPC) (s.get (.ost .xPC) d 0 + 1) d (11 + c)).put (.ost .xSTEP) step d c
  let s := s.put (.ost .xJNL) 1 d c
  match s.jnlLine d c with
  | some (g, la) =>
    let (b, s) := freeBytes 256 s
    lineWrite g la 0 b 0 none s
  | none => s

/-- MODEL_LATE sets, and the MODEL source asserts (R148, R359). -/
def modelLate (ch : Nat) (s : State) : State :=
  s.when (!s.flag (.qrc .STATUS_MODEL_LATE) ch) (fun s => evPulse (8 * ch + 7) 1 (s.put (.qrc .STATUS_MODEL_LATE) 1 ch))

/-- The oldest frame that waits for the Ostler is done with: its chain is let go (R224). -/
def ostFrameDone (d : Nat) (s : State) : State :=
  match s.ostFrames d with
  | r :: _ => dropRef r.chain { s with rxs := s.rxs.erase r }
  | [] => s

/-- A model update is lost: the model stays as it was (R148, R394). -/
def modelLost (ch : Nat) (s : State) : State := modelLate ch (s.put (.qrc .xMODEL) 0 ch)

/-- Every pending item of a class is discarded; STAGE's wait (R394). `count` tells that SHED_n counts them. -/
def ostDiscard (d c : Nat) (s : State) : State :=
  match c with
  | 5 => forEach (s.modelsDue d) modelLost s
  | 6 => s.when (s.flag (.fwd .xAGE_DUE) d) (fun s => (s.put (.fwd .xAGE_DUE) 0 d).bump (.fwd .CNT) d 14)
  | 8 => forEach (s.ostFrames d) (fun _ s => ostFrameDone d s) s
  | 9 => s.put (.ost .xITEMS) 0 d 9
  | _ => s

/-- The class that shed level `n` adds (R394). -/
def shedClass (n : Nat) : Nat := [9, 7, 6, 8, 5].getD (n - 1) 0

/-- A discardable item count of a class: a sweep that already visits slots has started. -/
def State.ostShedItems (s : State) (d c : Nat) : Nat :=
  if c = 6 then s.get (.fwd .xAGE_DUE) d else s.ostPending d c

/-- The busy fraction is above its limit (R393). -/
def State.ostBusy (s : State) (d : Nat) : Bool :=
  s.get (.ost .SHED_BUSY_HI) d != 0 && decide (s.get (.ost .SHED_BUSY_HI) d < s.get (.ost .STATUS_BUSY) d)

/-- A cause of overload still stands: an item of rank 1 to 4 waits, or the busy fraction is above its limit (R393). -/
def State.ostLoaded (s : State) (d : Nat) : Bool :=
  s.ostBusy d || [1, 2, 3, 4].any (fun c => s.ostPending d c != 0)

/-- The shed level rises by one at a yield point or END of an overloaded Ostler, and the pending items of the class that it
adds are discarded and counted (R394). The overload ends where no cause stands. -/
def shedRise (d : Nat) (s : State) : State :=
  if s.flag (.ost .STATUS_OVERLOAD) d then
    if s.ostLoaded d then
      let s := s.put (.ost .xOVER_AT) s.osc d
      let n := s.get (.ost .STATUS_SHED_LEVEL) d + 1
      if 5 < n then s
      else
        let s := s.put (.ost .STATUS_SHED_LEVEL) n d
        let c := shedClass n
        let s := s.bump (.ost .CNT) d (5 + n) 0 (s.ostShedItems d c)
        ostDiscard d c s
    else (s.put (.ost .STATUS_OVERLOAD) 0 d).put (.ost .xOVER_AT) s.osc d
  else s

/-- A gap of more than 2,816 cycles of two core-clock edges each between yield points is counted and noticed (R390). -/
def yieldGap (d c : Nat) (s : State) : State :=
  s.when (decide (2 * 2816 < s.osc - s.get (.ost .xYIELD_AT) d)) (fun s =>
    raise 0x05 d c 1 (s.bump (.ost .CNT) d 1))

/-- The sequencer goes to sleep at a yield point or END of the Winter entry (R487). -/
def State.ostSleeps (s : State) : Bool := decide (2 ≤ s.get (.pwr .xWIN_STEP))

/-- The routine that runs is suspended (R389). -/
def ostSuspend (d c : Nat) (s : State) : State := (copyCtx d 0 (1 + c) s).put (.ost .CLASS_SUSPENDED) 1 d c

/-- YIELD (R384, R389, R390, R391): the record is committed, PC moves on, and the dispatcher chooses. -/
def ostYield (d step : Nat) (s : State) : State :=
  let c := s.ostClass d
  let s := yieldGap d c (ostCommit d c step s)
  let s := s.put (.ost .xPC) (s.get (.ost .xPC) d 0 + 1) d 0
  let s := shedRise d (ostMark d s)
  if s.ostSleeps then (ostSuspend d c s).put (.ost .STATUS_STATE) 1 d
  else match s.ostChoice d (some c) with
    | some n =>
      if n = c then s
      else ostEnter d n ((ostSuspend d c s).bump (.ost .CNT) d 11)
    | none => s

/-- YIELD (R390, R391). -/
def execOstYield (d : Die) (opnd : Fin 1024) (now : Now) (s : State) : Host.Outcome State Fault Refusal :=
  s.runAt now (fun s => poolsSettle (ostOp d (ostYield d opnd) s))

/-- A routine that ends has done one item of its class, where the class's items are the routine's to do: the frame of
FRAMES is let go, and an item of PLAN or SCRUB is done (R392). -/
def ostItemDone (d c : Nat) (s : State) : State :=
  match c with
  | 8 => ostFrameDone d s
  | 2 => s.put (.ost .xITEMS) (s.get (.ost .xITEMS) d 2 - 1) d 2
  | 9 => s.put (.ost .xITEMS) (s.get (.ost .xITEMS) d 9 - 1) d 9
  | _ => s

/-- The journal record of a class is gone, with its routine. -/
def jnlClear (d c : Nat) (s : State) : State := (s.put (.ost .xJNL) 0 d c).put (.ost .xSTEP) 0 d c

/-- END (R384, R389). -/
def ostEnd (d : Nat) (s : State) : State :=
  let c := s.ostClass d
  let s := shedRise d (ostMark d (yieldGap d c s))
  let s := ostItemDone d c (jnlClear d c s)
  if s.ostSleeps then s.put (.ost .STATUS_STATE) 1 d else ostDispatch d s

/-- END (R389). -/
def execOstEnd (d : Die) (_opnd : Fin 1024) (now : Now) (s : State) : Host.Outcome State Fault Refusal :=
  s.runAt now (fun s => poolsSettle (ostOp d (ostEnd d) s))

/-- The fallback of a class whose routine is abandoned (R392). -/
def ostFallback (d c : Nat) (s : State) : State :=
  match c with
  | 2 => (s.bump (.ost .CNT) d 5).put (.ost .xITEMS) (s.get (.ost .xITEMS) d 2 - 1) d 2
  | 9 => s.put (.ost .xITEMS) (s.get (.ost .xITEMS) d 9 - 1) d 9
  | c => ostDiscard d c s

/-- The routine of a class is abandoned, running or suspended (R391, R448). -/
def ostAbandon (d c : Nat) (s : State) : State :=
  ostFallback d c (jnlClear d c (s.put (.ost .CLASS_SUSPENDED) 0 d c))

/-- A routine goes on from its journal record: registers other than g48 to g63 read 0, and the flags, of which the record
holds none, are free (R391). With no record it starts afresh.
DESIGN CHOICE, log 64. -/
def jnlRestart (d c : Nat) (s : State) : State :=
  if !s.flag (.ost .xJNL) d c then freshRoutine d s
  else if s.jnlBad d c then
    let s := ostAbandon d c (s.bump (.ost .CNT) d 3)
    ostDispatch d (raise 0x05 d c 2 s)
  else
    let s := copyCtx d (11 + c) 0 (s.bump (.ost .CNT) d 2)
    let s := forEach (List.range 48) (fun j s => s.put (.ost .xG) 0 d j 0) s
    putFree (.ost .xFLAGS) d 0 0 s

/-- The copy of a store that a reload reads is poisoned (R388): the microstore lies in the first 64 KiB of the copy and
the nanostore after it. -/
def State.storeCopyBad (s : State) (d cause : Nat) : Bool :=
  match s.bufs.find? (fun b => b.handle + 1 == s.get (.ost .xCOPY) d) with
  | some b =>
    s.grpLost b.grp ||
      (if cause = 0 then (s.firstPoison b.grp (s.bufAddr b) 0x10000).isSome
       else (s.firstPoison b.grp (s.bufAddr b + 0x10000) 0x8000).isSome)
  | none => true

/-- The recovery from a machine check of the routine that runs (R388): `OST_MC`, the reload of a store line whose parity
failed, and the restart from the journal. -/
def mcRecover (d cause : Nat) (s : State) : State :=
  let c := s.ostClass d
  let s := (s.put (.ost .MC_PC) (s.get (.ost .xPC) d 0) d).put (.ost .MC_CLASS) c d
  let s := ((s.put (.ost .MC_CAUSE) cause d).put (.ost .MC_VALID) 1 d).bump (.ost .CNT) d 0
  let s := s.put (.ost .xMC_AT) (s.osc + 1) d
  if decide (cause < 2) && s.storeCopyBad d cause then raise 0x62 d c cause s
  else jnlRestart d c (ostMark d (trialFail s))

/-- The last machine check of a die's Ostler lies less than 1 s back (R388). -/
def State.mcRecent (s : State) (d : Nat) : Bool :=
  let last := s.get (.ost .xMC_AT) d
  last != 0 && !elapsedNs (last - 1) s.osc secNs

/-- A machine check (R388): a second on the same die within 1 s is an Uncontained fault, and a single one a Contained
fault. -/
def machineCheck (d cause : Nat) (s : State) : State :=
  let c := s.ostClass d
  if s.mcRecent d then raise 0x62 d c cause s
  else
    let s := raise 0x47 d c cause s
    s.when (s.ostAwake d) (mcRecover d cause)

/-- The occurrences of one edge, as their detecting blocks report them (R462). A machine check among them stops the routine that runs and
recovers it, or is the Uncontained fault (R388, R460). -/
def occurrences (os : List Occ) (s : State) : State :=
  let os := os.map (fun o => if o.code == 0x47 && s.mcRecent o.die then { o with code := 0x62 } else o)
  forEach (os.filter (fun o => o.code == 0x47)) (fun o s =>
    s.when (s.ostAwake o.die && s.ostRuns o.die) (mcRecover o.die (o.detail % 32))) (raiseAll os false false s)

/-- The watchdog expires (R67, R388). -/
def ostWatchdog (d : Nat) (s : State) : State :=
  s.when (s.ostAwake d && s.ostRuns d && s.expired (.ost .xWDOG_DUE) d) (machineCheck d 5)

/-- OSTLER_WATCHDOG (R388). -/
def execOstlerWatchdog (d : Die) (now : Now) (s : State) : Host.Outcome State Fault Refusal :=
  s.runAt now (fun s => poolsSettle (ostWatchdog d s))

/-- An item of rank 1 to 4 waits, and has waited since edge `since` for longer than `OST_SHED.LAT` (R393). -/
def State.ostLate (s : State) (d since : Nat) : Bool :=
  [1, 2, 3, 4].any (fun c => s.ostPending d c != 0) &&
  elapsedNs since s.osc (max 10 (s.get (.ost .SHED_LAT) d) * usNs)

/-- The Ostler becomes overloaded (R393): an item of rank 1 to 4 has waited too long, since the edge that the command names, or the busy
fraction passes its limit, above which it is a free value. -/
def ostOverload (d : Nat) (since : Option Nat) (s : State) : State :=
  let hi := s.get (.ost .SHED_BUSY_HI) d
  let on := fun s : State => (s.put (.ost .STATUS_OVERLOAD) 1 d).put (.ost .xOVER_AT) s.osc d
  match since with
  | some e => s.when (s.ostLate d e) on
  | none =>
    if s.ostBusy d then on s
    else if hi = 0 ∨ hi = 255 then s
    else
      let (v, s) := s.free
      on (s.put (.ost .STATUS_BUSY) (hi + 1 + v % (255 - hi)) d)

/-- OSTLER_OVERLOAD (R393). -/
def execOstlerOverload (d : Die) (o : Overload) (s : State) : Host.Outcome State Fault Refusal :=
  s.runAt o.now (fun s => poolsSettle (s.when (s.ostAwake d) (ostOverload d o.since)))

/-- The Ostler has not been overloaded for 1 ms (R394): the shed level returns to 0. The busy fraction is then a free value
not above its limit.
DESIGN CHOICE, log 64. -/
def shedClear (d : Nat) (s : State) : State :=
  if elapsedNs (s.get (.ost .xOVER_AT) d) s.osc msNs then
    let (v, s) := s.free
    let hi := s.get (.ost .SHED_BUSY_HI) d
    let s := s.when (s.ostBusy d) (fun s => s.put (.ost .STATUS_BUSY) (v % (hi + 1)) d)
    (s.put (.ost .STATUS_OVERLOAD) 0 d).put (.ost .STATUS_SHED_LEVEL) 0 d
  else s

/-- SHED_CLEAR (R394). -/
def execShedClear (d : Die) (now : Now) (s : State) : Host.Outcome State Fault Refusal :=
  s.runAt now (fun s => s.when (s.ostAwake d) (shedClear d))

/-- The stores of an Ostler are loaded after a switch (R448): it leaves LOADING and takes up the items that waited, or a
parity failure ends the trial.
DESIGN CHOICE, log 63. -/
def storeReloadDone (d : Nat) (parityOk : Bool) (s : State) : State :=
  if s.ostState d = 0 then
    if parityOk then ostWake d (s.put (.ost .STATUS_STATE) 1 d) else trialFail s
  else s

/-- STORE_RELOAD_DONE (R448). -/
def execStoreReloadDone (d : Die) (parityOk : Bool) (now : Now) (s : State) : Host.Outcome State Fault Refusal :=
  s.runAt now (fun s => s.when (s.ostAwake d) (storeReloadDone d parityOk))

-- Nanowords (R386)

/-- General register `r` of the routine that runs. -/
def State.ostReg (s : State) (d r : Nat) : Nat := s.get (.ost .xG) d r 0

/-- General register `r` takes a 64-bit value. -/
def setReg (d r v : Nat) (s : State) : State := s.put (.ost .xG) v d r 0

/-- The B operand: the register SRCB, or IMM (R386). -/
def State.ostB (s : State) (d : Nat) (w : Nano) (imm : Nat) : Nat := if w.immb then imm else s.ostReg d w.srcb

/-- The flags of a result: Z and N from it, and C and V as given (R385). -/
def setFlags (d r c v : Nat) (s : State) : State :=
  s.put (.ost .xFLAGS) ((if r = 0 then 1 else 0) + (if bitOf r 63 then 2 else 0) + 4 * (c % 2) + 8 * (v % 2)) d 0

/-- The result of an operation in DST, with its flags where FLAGS is set; C and V that the spec does not give are free. -/
def aluPut (d : Nat) (w : Nano) (r : Nat) (c v : Option Nat) (s : State) : State :=
  let r := r % 2 ^ 64
  let s := setReg d w.dst r s
  if w.flags then
    let (a, s) := s.free
    let (b, s) := s.free
    setFlags d r (c.getD a) (v.getD b) s
  else s

/-- The flags after an operation other than ALU with FLAGS set: the spec does not say what they become.
PRESUMED, log 60. -/
def freeFlags (d : Nat) (w : Nano) (s : State) : State := s.when w.flags (putFree (.ost .xFLAGS) d 0 0)

/-- An ALU operation with C and V left free (R386). -/
def aluOp (d : Nat) (w : Nano) (imm : Nat) (f : Nat → Nat → Nat) (s : State) : State :=
  aluPut d w (f (s.ostReg d w.srca) (s.ostB d w imm)) none none s

/-- A result that is one of two, as a free value has it.
DESIGN CHOICE, log 61. -/
def aluEither (d : Nat) (w : Nano) (x y : Nat) (s : State) : State :=
  let (v, s) := s.free
  aluPut d w (if v % 2 = 0 then x else y) none none s

/-- The result of a shift: free from 64 on, which the spec does not state.
DESIGN CHOICE, log 61. -/
def aluShift (d : Nat) (w : Nano) (imm : Nat) (f : Nat → Nat → Nat) (s : State) : State :=
  let b := s.ostB d w imm
  if b < 64 then aluPut d w (f (s.ostReg d w.srca) b) none none s
  else
    let (v, s) := s.free
    aluPut d w v none none s

/-- ADD: C is the carry and V the signed overflow.
PRESUMED, log 60. -/
def aluAdd (d : Nat) (w : Nano) (imm : Nat) (s : State) : State :=
  let a := s.ostReg d w.srca
  let b := s.ostB d w imm
  let x := signedOf 64 a + signedOf 64 b
  let o := decide (x < -(2 ^ 63) ∨ 2 ^ 63 ≤ x)
  aluPut d w (a + b) (some ((a + b) / 2 ^ 64)) (some o.toNat) s

/-- ADD (R386). -/
def execOstAdd (d : Die) (w : Nano) (imm : Fin 1024) (s : State) : Host.Outcome State Fault Refusal :=
  s.run (ostOp d (aluAdd d w imm))

/-- SUB: V is the signed overflow; C after a subtraction has no stated sense and is free.
PRESUMED, log 60. -/
def aluSub (d : Nat) (w : Nano) (imm : Nat) (s : State) : State :=
  let a := s.ostReg d w.srca
  let b := s.ostB d w imm
  let x := signedOf 64 a - signedOf 64 b
  let o := decide (x < -(2 ^ 63) ∨ 2 ^ 63 ≤ x)
  aluPut d w (a + 2 ^ 64 - b) none (some o.toNat) s

/-- SUB (R386). -/
def execOstSub (d : Die) (w : Nano) (imm : Fin 1024) (s : State) : Host.Outcome State Fault Refusal :=
  s.run (ostOp d (aluSub d w imm))

/-- AND (R386). -/
def execOstAnd (d : Die) (w : Nano) (imm : Fin 1024) (s : State) : Host.Outcome State Fault Refusal :=
  s.run (ostOp d (aluOp d w imm Nat.land))

/-- OR (R386). -/
def execOstOr (d : Die) (w : Nano) (imm : Fin 1024) (s : State) : Host.Outcome State Fault Refusal :=
  s.run (ostOp d (aluOp d w imm Nat.lor))

/-- XOR (R386). -/
def execOstXor (d : Die) (w : Nano) (imm : Fin 1024) (s : State) : Host.Outcome State Fault Refusal :=
  s.run (ostOp d (aluOp d w imm Nat.xor))

/-- SHL (R386). -/
def execOstShl (d : Die) (w : Nano) (imm : Fin 1024) (s : State) : Host.Outcome State Fault Refusal :=
  s.run (ostOp d (aluShift d w imm (fun a b => a * 2 ^ b)))

/-- SHR (R386). -/
def execOstShr (d : Die) (w : Nano) (imm : Fin 1024) (s : State) : Host.Outcome State Fault Refusal :=
  s.run (ostOp d (aluShift d w imm (fun a b => a / 2 ^ b)))

/-- SAR (R386). -/
def execOstSar (d : Die) (w : Nano) (imm : Fin 1024) (s : State) : Host.Outcome State Fault Refusal :=
  s.run (ostOp d (aluShift d w imm (fun a b => toSigned 64 (signedOf 64 a / (2 ^ b : Nat)))))

/-- MIN: of the two as signed or as unsigned numbers, which the spec does not say.
DESIGN CHOICE, log 61. -/
def aluMin (d : Nat) (w : Nano) (imm : Nat) (s : State) : State :=
  let a := s.ostReg d w.srca
  let b := s.ostB d w imm
  aluEither d w (min a b) (if signedOf 64 a ≤ signedOf 64 b then a else b) s

/-- MIN (R386). -/
def execOstMin (d : Die) (w : Nano) (imm : Fin 1024) (s : State) : Host.Outcome State Fault Refusal :=
  s.run (ostOp d (aluMin d w imm))

/-- MAX, in the same way.
DESIGN CHOICE, log 61. -/
def aluMax (d : Nat) (w : Nano) (imm : Nat) (s : State) : State :=
  let a := s.ostReg d w.srca
  let b := s.ostB d w imm
  aluEither d w (max a b) (if signedOf 64 a ≤ signedOf 64 b then b else a) s

/-- MAX (R386). -/
def execOstMax (d : Die) (w : Nano) (imm : Fin 1024) (s : State) : Host.Outcome State Fault Refusal :=
  s.run (ostOp d (aluMax d w imm))

/-- MOV: of SRCA or of B, which the spec does not say.
DESIGN CHOICE, log 61. -/
def aluMov (d : Nat) (w : Nano) (imm : Nat) (s : State) : State :=
  aluEither d w (s.ostReg d w.srca) (s.ostB d w imm) s

/-- MOV (R386). -/
def execOstMov (d : Die) (w : Nano) (imm : Fin 1024) (s : State) : Host.Outcome State Fault Refusal :=
  s.run (ostOp d (aluMov d w imm))

/-- LDLC: LC takes the low 16 bits of SRCA or of B; what DST becomes is not stated.
DESIGN CHOICE, log 61. -/
def aluLdlc (d : Nat) (w : Nano) (imm : Nat) (s : State) : State :=
  let a := s.ostReg d w.srca
  let b := s.ostB d w imm
  let (v, s) := s.free
  let (r, s) := s.free
  aluPut d w r none none (s.put (.ost .xLC) (if v % 2 = 0 then a else b) d 0)

/-- LDLC (R386). -/
def execOstLdlc (d : Die) (w : Nano) (imm : Fin 1024) (s : State) : Host.Outcome State Fault Refusal :=
  s.run (ostOp d (aluLdlc d w imm))

/-- CRC32C of two 64-bit operands; how they make up the CRC's input is the implementation's (log 6).
DESIGN CHOICE, log 6. -/
def execOstCrc32c (d : Die) (w : Nano) (imm : Fin 1024) (s : State) : Host.Outcome State Fault Refusal :=
  s.run (ostOp d (aluOp d w imm (fun a b => Config.fn 1 [a, b])))

/-- The address of a memory or register access: SRCA + K (R386). -/
def State.ostAddr (s : State) (d : Nat) (w : Nano) : Nat := (s.ostReg d w.srca + w.k.toNat) % 2 ^ 64

/-- An address that R335 gives to the DRAM of a die. -/
def inDram (d a n : Nat) : Bool :=
  decide (a + n ≤ 2 ^ 35) && a / 2 ^ 32 / 4 == d && a / 2 ^ 32 == (a + n - 1) / 2 ^ 32

/-- LOAD (R386, R388): little-endian from the die's DRAM; the form of a cell address is not stated, and its data is
free.
DESIGN CHOICE, log 62. -/
def ostLoad (d : Nat) (w : Nano) (poisoned : Bool) (s : State) : State :=
  let n := 2 ^ w.func
  let a := s.ostAddr d w
  if 3 < w.func then machineCheck d 4 s
  else if inDram d a n then
    let g := a / 2 ^ 32
    let o := a % 2 ^ 32
    if poisoned || s.grpLost g || (s.firstPoison g o n).isSome then machineCheck d 2 s
    else freeFlags d w ((setReg d w.dst (leNat (s.dramRead g o n)) s).put (.ost .xACK) 1 d)
  else if poisoned then machineCheck d 2 s
  else
    let (v, s) := s.free
    let s := putFree (.ost .xACK) d 0 0 (setReg d w.dst (v % 2 ^ (8 * n)) s)
    freeFlags d w s

/-- LOAD (R386). -/
def execOstLoad (d : Die) (w : Nano) (poisoned : Bool) (s : State) : Host.Outcome State Fault Refusal :=
  s.run (ostOp d (ostLoad d w poisoned))

/-- STORE (R386): the low bytes of SRCB, little-endian. -/
def ostStore (d : Nat) (w : Nano) (s : State) : State :=
  let n := 2 ^ w.func
  let a := s.ostAddr d w
  if 3 < w.func then machineCheck d 4 s
  else if inDram d a n then
    let s := dramStore (a / 2 ^ 32) (a % 2 ^ 32) (leBytes n (s.ostReg d w.srcb)) s
    freeFlags d w (s.put (.ost .xACK) 1 d)
  else freeFlags d w (putFree (.ost .xACK) d 0 0 s)

/-- STORE (R386). -/
def execOstStore (d : Die) (w : Nano) (s : State) : Host.Outcome State Fault Refusal := s.run (ostOp d (ostStore d w))

/-- POP (R386, R388): a poisoned entry is a machine check. -/
def ostPop (d : Nat) (w : Nano) (parityBad : Bool) (s : State) : State :=
  let (v, s) := popRead (2 + d) parityBad s
  let none' := v == notValid
  let s := (s.putB (.ost .xEMPTY) none' d).put (.ost .xACK) 1 d
  if !none' && bitOf v 24 then machineCheck d 2 s else freeFlags d w (setReg d w.dst v s)

/-- POP (R386). -/
def execOstPop (d : Die) (w : Nano) (parityBad : Bool) (s : State) : Host.Outcome State Fault Refusal :=
  s.run (ostOp d (ostPop d w parityBad))

/-- PUSH (R372, R386). -/
def ostPush (d : Nat) (w : Nano) (tagged : Bool) (s : State) : State :=
  freeFlags d w (pushWrite (s.ostReg d w.srca % 4) (s.ostReg d w.srcb % 2 ^ 24) tagged s)

/-- PUSH (R386). -/
def execOstPush (d : Die) (w : Nano) (tagged : Bool) (s : State) : Host.Outcome State Fault Refusal :=
  s.run (ostOp d (ostPush d w tagged))

/-- LIMM (R386). -/
def execOstLimm (d : Die) (w : Nano) (s : State) : Host.Outcome State Fault Refusal :=
  s.run (ostOp d (fun s => freeFlags d w (setReg d w.dst w.k.toNat s)))

-- Next-address operations (R384, R385)

/-- PC of the routine that runs. -/
def State.ostPc (s : State) (d : Nat) : Nat := s.get (.ost .xPC) d 0

/-- PC takes a value modulo 16,384 (R384). -/
def setPc (d v : Nat) (s : State) : State := s.put (.ost .xPC) v d 0

/-- CONT (R384). -/
def execOstCont (d : Die) (_opnd : Fin 1024) (s : State) : Host.Outcome State Fault Refusal :=
  s.run (ostOp d (fun s => setPc d (s.ostPc d + 1) s))

/-- JMP within the page (R384). -/
def execOstJmp (d : Die) (opnd : Fin 1024) (s : State) : Host.Outcome State Fault Refusal :=
  s.run (ostOp d (fun s => setPc d (s.ostPc d / 1024 * 1024 + opnd.val) s))

/-- A condition of BRT and BRF, and the state after its evaluation; none for a reserved one (R385). -/
def ostCond (d n : Nat) (s : State) : Option Bool × State :=
  match n with
  | 0 => (some true, s)
  | 1 => (some (bitOf (s.get (.ost .xFLAGS) d 0) 0), s)
  | 2 => (some (bitOf (s.get (.ost .xFLAGS) d 0) 1), s)
  | 3 => (some (bitOf (s.get (.ost .xFLAGS) d 0) 2), s)
  | 4 => (some (bitOf (s.get (.ost .xFLAGS) d 0) 3), s)
  | 5 =>
    let s := s.put (.ost .xLC) (s.get (.ost .xLC) d 0 + 65535) d 0
    (some (s.get (.ost .xLC) d 0 != 0), s)
  | 6 => (some (s.flag (.evc .TGT_STATUS_SIGNAL) (2 + d)), s)
  | 7 => (some (s.ostSheds d (s.ostClass d)), s)
  | 8 => (some (s.flag (.ost .xACK) d), s)
  | 9 => (some (s.flag (.ost .xEMPTY) d), s)
  | 10 => (some (s.flag (.ost .STATUS_OVERLOAD) d), s)
  | 11 => (some (decide (2 * 2048 < s.osc - s.get (.ost .xYIELD_AT) d)), s)
  | _ => (none, s)

/-- A branch taken where its condition is `want` (R384, R385). -/
def ostBranch (d opnd : Nat) (want : Bool) (s : State) : State :=
  match ostCond d (opnd / 64) s with
  | (some b, s) =>
    let off : Int := if b = want then signedOf 6 (opnd % 64) else 0
    setPc d (((s.ostPc d + 16385 : Nat) : Int) + off).toNat s
  | (none, s) => machineCheck d 4 s

/-- BRT (R384). -/
def execOstBrt (d : Die) (opnd : Fin 1024) (s : State) : Host.Outcome State Fault Refusal :=
  s.run (ostOp d (ostBranch d opnd true))

/-- BRF (R384). -/
def execOstBrf (d : Die) (opnd : Fin 1024) (s : State) : Host.Outcome State Fault Refusal :=
  s.run (ostOp d (ostBranch d opnd false))

/-- CALL (R384). -/
def ostCall (d opnd : Nat) (s : State) : State :=
  let n := s.get (.ost .xDEPTH) d 0
  if 8 ≤ n then machineCheck d 3 s
  else setPc d (opnd * 16) ((s.put (.ost .xSTK) (s.ostPc d + 1) d n 0).put (.ost .xDEPTH) (n + 1) d 0)

/-- CALL (R384). -/
def execOstCall (d : Die) (opnd : Fin 1024) (s : State) : Host.Outcome State Fault Refusal :=
  s.run (ostOp d (ostCall d opnd))

/-- RET (R384). -/
def ostRet (d : Nat) (s : State) : State :=
  let n := s.get (.ost .xDEPTH) d 0
  if n = 0 then machineCheck d 3 s
  else setPc d (s.get (.ost .xSTK) d (n - 1) 0) (s.put (.ost .xDEPTH) (n - 1) d 0)

/-- RET (R384). -/
def execOstRet (d : Die) (_opnd : Fin 1024) (s : State) : Host.Outcome State Fault Refusal :=
  s.run (ostOp d (ostRet d))

end Sys2Proof.Machine
end

