-- ==== Sys2Proof/Machine/Open.lean ====
section
/-!
DEFINITION. The work of an encode picture begins and ends (R72, R91, R146 to R148, R157, R167): what a channel start renews,
the model, and the header that the picture is sent with. A picture's work begins with its first slot, when the picture before it has passed
its store point (R166), or for HEVC, whose pictures overlap (R191), with its first CTU row.
-/

namespace Sys2Proof.Machine

/-- The picture's numbers pass to the model, and its update is work for the Ostler (R148, R392). -/
def modelDue (ch n : Nat) (s : State) : State :=
  let d := s.get (.cch .CTRL_HOME_DIE) ch
  let mv := fun (f : Qrc) (c : Nat) (s : State) => (s.put (.qrc f) (s.get (.qrc f) ch c (n % 2)) ch c 2).put (.qrc f) 0 ch c (n % 2)
  let s := forEach (List.range 8) (fun c s => mv .xM_N c (mv .xM_Q c (mv .xM_B c s))) s
  let s := (mv .xT_B 0 (mv .xT_N 0 s)).put (.qrc .xM_QI) (s.qrcOf .CFG_QI ch n) ch
  if s.ostSheds d 5 then modelLost ch (s.bump (.ost .CNT) d (5 + shedRank 5)) else s.put (.qrc .xMODEL) 1 ch

-- What a channel start renews (R147, R157)

/-- The debt slab of an encode channel is taken from its home group, if it has none there, and cleared (R157). -/
def clearDebt (ch : Nat) (s : State) : State :=
  let d := s.get (.cch .CTRL_HOME_DIE) ch
  let h := s.get (.qrc .xSLAB) ch
  let s := s.when (h != 0 && (s.bufAt (h - 1)).1 != s.get (.pdk .OWN_CFG_GROUP) d ch) (dropSlab ch)
  let s := s.when (s.get (.qrc .xSLAB) ch == 0) (fun s =>
    let (b, s) := allocOne d ch 1 s
    match b with
    | some b => s.put (.qrc .xSLAB) (b.handle + 1) ch
    | none => s)
  let s := s.put (.qrc .DEBT_DEBT_BLOCKS) 0 ch
  match s.get (.qrc .xSLAB) ch with
  | 0 => s
  | h + 1 =>
    let (g, o) := s.bufAt h
    forEach (List.range 64) (fun i s => lineWrite g (o / 256 + i) 0 (List.replicate 256 0) 0 none s) s

/-- The model is loaded from the seeds (R147), under the settings of picture `n`. -/
def loadSeeds (ch n : Nat) (s : State) : State :=
  let s := forEach (List.range 8) (fun c s =>
    (s.put (.qrc .MODEL_OFS) (s.get (.qrc .SEED_OFS) ch c) ch c).put (.qrc .MODEL_BPB) (s.get (.qrc .SEED_BPB) ch c) ch c) s
  let avg := firstAvg (s.qrcOf .CAP_CAP_KBPS ch n) (s.capRows ch n) (1 + s.get (.cch .RTP_HDR_REPEAT) ch 0 (picBank n))
    (s.picWork ch n) (s.unitsOf ch n)
  ((s.put (.qrc .STATUS_SEEDED) 1 ch).put (.qrc .STATUS_BPB_AVG) (min 65535 avg) ch).put (.qrc .xMODEL) 0 ch

/-- The marks of a run that the rows of its last picture still use. -/
def Key.ofWork (k : Key) : Bool :=
  match k.fld with
  | .qrc f => match f with
    | .xCHG | .xFLR | .xTRN | .xBAN | .xM_QI => true
    | .xM_N | .xM_Q | .xM_B | .xT_B | .xT_N => k.k == 2
    | _ => false
  | _ => false

/-- What a channel start at picture `n` renews of an encode channel (R147, R157). -/
def renew (ch n : Nat) (s : State) : State :=
  loadSeeds ch n (clearDebt ch (s.keepKeys (fun k => !(k.ofWork && k.i == ch)))) |>.put (.cch .xRENEW) 0 ch

-- Headers (R72, R73, R91, R130, R136)

/-- The slots of a channel whose pictures a picture of a format may reference. -/
def State.refSlots (s : State) (ch : Nat) (f : Fmt) : List Nat := (s.fitting ch f).filter (· < 4)

/-- The picture header of ELC encode picture `n` (R72, R73, R167), with the mark and slot chosen for it. Its type and references, and the
primaries and transfer that it signals, are the encoder's choice within what R73 and R91 allow.
DESIGN CHOICE, log 74. -/
def encHdr (ch n : Nat) (intra : Bool) (s : State) : State :=
  let f := s.cfgFmt ch n
  let w := s.picWork ch n
  let (v, s) := s.free
  let held := s.refSlots ch f
  let isP := !intra && held.contains 0 && v % 2 == 1
  let valid := if isP then (held.filter (fun k => k == 0 || bitOf v (1 + k))).foldl (fun a k => a + 2 ^ k) 0 else 0
  let (_, mark, slot, _) := s.hevcHdr ch n
  let ids := (List.range 4).map (fun k => if bitOf valid k then s.get (.ref .xSL_PIC) ch k % 65536 else 0)
  let h : PicHdr := ⟨isP, mark, slot, f.c44, w.depth, v / 32 % 2, v / 64 % 4, valid, f.w, f.h, n % 2 ^ 32, ids, s.unitsOf ch n,
    s.qrcOf .CFG_QI ch n⟩
  s.put (.ref .xHDR) (beNat h.bytes) ch 0 (n % 2)

/-- What an HEVC encode picture holds in place of a header (R130, R136): whether it is an IDR picture, its mark, its slot, and the slots
that it may reference; and its POC. The references are the encoder's choice.
DESIGN CHOICE, log 74. -/
def hevcEncHdr (ch n : Nat) (intra : Bool) (s : State) : State :=
  let period := min 1024 (s.get (.cch .HEVC_IDR_PERIOD) ch 0 (picBank n))
  let last := s.get (.ref .xIDR) ch
  let idr := intra || last == 0 || (period != 0 && decide (last - 1 + period ≤ n))
  let (v, s) := s.free
  let (_, mark, slot, _) := s.hevcHdr ch n
  let held := (s.refSlots ch (s.cfgFmt ch n)).filter (s.liveSlots ch n).contains
  let valid := if idr then 0 else (held.filter (bitOf v)).foldl (fun a k => a + 2 ^ k) 0
  let poc := pocNum (if idr then 0 else pocFrom 16 (n % 2 ^ 16) (pocOf (s.get (.ref .xPREV) ch)))
  let s := s.when idr (fun s => s.put (.ref .xIDR) (n + 1) ch)
  ((s.put (.ref .xHDR) ((if idr then 1 else 0) + 2 * mark + 8 * slot + 32 * valid) ch 0 (n % 2)).put (.ref .xPOC) poc ch 0 (n % 2)).put
    (.ref .xPREV) poc ch

/-- The work of encode picture `n` begins, once (R91, R146, R148, R166, R167): what a start left is renewed, a model that is not updated
yet is late, a refresh that is owed is served, and the header is made from the slots as they are now. -/
def openWork (ch n : Nat) (s : State) : State :=
  if s.get (.ref .xH_OK) ch 0 (n % 2) ≠ 0 then s
  else
    let mine := decide (s.get (.cch .xSTART_PIC) ch ≤ n)
    let s := s.when (mine && s.flag (.cch .xRENEW) ch) (renew ch n)
    let s := s.when (s.flag (.qrc .xMODEL) ch) (modelLate ch)
    let s := s.put (.qrc .STATUS_QI_ACT) (s.qrcOf .CFG_QI ch n) ch
    let (all, s) := serveRefresh ch n (ceilDiv (s.picWork ch n).h 16) s
    let intra := all || (mine && s.flag (.cch .xFIRST) ch)
    let s := if (s.picWork ch n).hevc then hevcEncHdr ch n intra s else encHdr ch n intra s
    (s.when mine (fun s => s.put (.cch .xFIRST) 0 ch)).put (.ref .xH_OK) 1 ch 0 (n % 2)

end Sys2Proof.Machine
end

