-- ==== Sys2Proof/Machine/Verify.lean ====
section
/-!
DEFINITION. The commit point (R17 to R20, R35, R194 to R202): the start of a slot, the shadow check, re-execution, failure counts and
retirement, stalls and failed engines, withheld stripes, and the commit of an encode row.
-/

namespace Sys2Proof.Machine

-- Units

/-- The state of a unit (R18). -/
def State.unitSt (s : State) (u : Nat) : Nat := s.get (.cus .UNIT_STATE) u

/-- The die of a unit. -/
def unitDie (u : Nat) : Nat := u / 80

/-- The stripes of a die's channels in one state: channel, picture, row and stripe. -/
def State.stripesIn (s : State) (d st : Nat) : List (Nat × Nat × Nat × Nat) :=
  ((s.store.keysOf (.cch .xSTR)).filter (fun k => s.store.get k == st && s.get (.cch .CTRL_HOME_DIE) k.i == d)).map
    (fun k => (k.i, s.picOf k.i k.k, k.j / 8, k.j % 8))

/-- The place of a stripe in the coding order of its channel (R196). -/
def strKey (x : Nat × Nat × Nat × Nat) : Nat := ((x.1 * 2 ^ 64 + x.2.1) * 2 ^ 12 + x.2.2.1) * 8 + x.2.2.2

/-- Stripes in coding order, channel by channel. -/
def inOrder (l : List (Nat × Nat × Nat × Nat)) : List (Nat × Nat × Nat × Nat) := insSort (fun a b => decide (strKey a < strKey b)) l

/-- The unit of a stripe of picture `n` by its slot, and the one on which it runs. -/
def State.unitOfStr (s : State) (ch n i : Nat) : Nat := s.get (.cch .xL_UNIT) ch i (picBank n)
def State.unitNow (s : State) (x : Nat × Nat × Nat × Nat) : Nat :=
  match s.get (.cch .xRX) x.1 (strIx x.2.2.1 x.2.2.2) (x.2.1 % 2) with
  | 0 => s.unitOfStr x.1 x.2.1 x.2.2.2
  | u + 1 => u

/-- A stripe is an encode channel's. -/
def State.strEnc (s : State) (x : Nat × Nat × Nat × Nat) : Bool := (s.picWork x.1 x.2.1).enc

/-- The stripes that run on a die: first runs, and re-executions that have a unit. -/
def State.running (s : State) (d : Nat) : List (Nat × Nat × Nat × Nat) :=
  inOrder (s.stripesIn d 1 ++ (s.stripesIn d 3).filter (fun x =>
    s.get (.cch .xRX) x.1 (strIx x.2.2.1 x.2.2.2) (x.2.1 % 2) != 0))

/-- The time that coding a stripe takes, in ticks of its domain. -/
def State.strTicks (s : State) (ch n i : Nat) : Nat :=
  let w := s.picWork ch n
  let u := s.unitsOf ch n
  256 * (if w.hevc then w.slotLen w.w else w.slotLen (w.stripeW (u.length + 1) (u.headD 0) i))

/-- A slot of a plan leaves its unit idle from now on for a time in ticks (R196). An HEVC slot comes once for each row of its rotation
index. -/
def State.slotIdle (s : State) (x : Slot) (need : Rat) : Bool :=
  let w := s.work x.ch (s.chBank x.ch)
  let now := s.ticksNow x.dom
  if x.hevc then
    let n := s.picNow x.dom
    let k := max 1 w.hevcUnits
    [n - 1, n, n + 1].all (fun m => ((List.range w.rows).filter (fun r => r % k == x.ix)).all (fun r =>
      let a := m * s.picTicks x.dom + w.ofs * 65536 + (r + 1) * w.tot * 65536 / w.rows
      decide ((now : Nat) + need ≤ (a : Nat) ∨ a + 256 * x.len ≤ now)))
  else
    let per := x.per * 65536
    let pos := ratMod ((now : Nat) - ((x.grid * 65536 : Nat) + per) - (x.ofs * 256 : Nat)) per
    decide ((x.len * 256 : Nat) ≤ pos ∧ need ≤ per - pos)

/-- A unit has a gap in its slot table from now on that holds a time in us (R196). -/
def State.gapFor (s : State) (u : Nat) (us : Rat) : Bool :=
  ((s.slotsInForce (unitDie u)).filter (fun x => x.unit == u)).all (fun x =>
    s.slotIdle x (us / (s.work x.ch (s.chBank x.ch)).lineUs * 65536))

/-- The shadow decoder of a unit's cluster is in service. -/
def State.shadowOk (s : State) (u : Nat) : Bool := s.flag (.cus .CLUSTER_SHADOW_OK) (u / 5)

/-- The unit that a re-execution runs on (R196): the spare of the stripe's cluster, that of another cluster of the die, or an
in-service unit with a gap. A gated cluster takes none (R484). A cluster whose shadow decoder is out of service takes none of an encode stripe's (R198). -/
def State.rexUnit (s : State) (ch n i : Nat) : Option Nat :=
  let d := s.get (.cch .CTRL_HOME_DIE) ch
  let w := s.picWork ch n
  let home := s.unitOfStr ch n i / 5
  let ok := fun u => !s.flag (.cus .UNIT_REEXEC) u && !s.gatedC (u / 5) && (!w.enc || s.shadowOk u) &&
    s.flag (.cus .CLUSTER_LINEBUF_OK) (u / 5) && (!w.hevc || s.flag (.cus .CLUSTER_CABAC_OK) (u / 5))
  let spare := fun u => s.unitSt u == 0 && ok u
  let us := ((s.strTicks ch n i : Nat) : Rat) / 65536 * w.lineUs
  match (dieUnits d).find? (fun u => u / 5 == home && spare u) with
  | some u => some u
  | none => match (dieUnits d).find? spare with
    | some u => some u
    | none => (dieUnits d).find? (fun u => s.inService u && ok u && s.gapFor u us)

/-- A stripe waits for a re-execution (R196): the first run, or the re-execution before, has failed.
DEDUCED, log 83. -/
def askRex (ch n row i : Nat) (s : State) : State :=
  gateTouch (s.unitOfStr ch n i / 5) (putStr ch n row i 3 (endRex ch n row i s))

/-- A unit re-executes a stripe (R196), and it counts. -/
def startRex (ch n row i u : Nat) (s : State) : State :=
  let s := putRex u 1 (s.put (.cch .xRX) (u + 1) ch (strIx row i) (n % 2))
  (s.bump (.cus .CNT) (s.get (.cch .CTRL_HOME_DIE) ch) 1).bump (.cch .CNT) ch 1

/-- Re-executions start on the units that are idle, those of one channel in coding order (R196).
DEDUCED, log 83. -/
def pumpRex (d : Nat) (s : State) : State :=
  ((inOrder ((s.stripesIn d 3).filter s.strEnc)).foldl (fun (a : State × List Nat) x =>
    let (ch, n, row, i) := x
    if a.2.contains ch ∨ a.1.get (.cch .xRX) ch (strIx row i) (n % 2) ≠ 0 then a
    else match a.1.rexUnit ch n i with
      | none => (a.1, ch :: a.2)
      | some u => (startRex ch n row i u a.1, a.2)) (s, [])).1

/-- The block columns of the row above whose samples the intra blocks at the top of a stripe have read (R100, R195). -/
def State.readsAbove (s : State) (ch n row i : Nat) : List Nat :=
  let (f, units, _) := s.picFmt ch n
  let (c0, c1) := if (s.picWork ch n).hevc then (0, f.cols) else stripeCols f.cols units i
  let b := (s.picWork ch n).rowLines / 8 * row
  ((List.range (c1 - c0)).map (· + c0)).flatMap (fun x =>
    let v := avail f.cols c0 c1 x b
    let m := s.sum ch x b
    if m.kind ≠ 1 ∨ m.typ ≠ 1 then []
    else (if v.above then [x] else []) ++ (if v.right then [x + 1] else []) ++ (if v.corner then [x - 1] else []))

/-- A stripe has read samples of a stripe of the row above (R195).
DEDUCED, log 83. -/
def State.readsOf (s : State) (ch n row i j : Nat) : Bool :=
  let (f, units, _) := s.picFmt ch n
  let (a, b) := if (s.picWork ch n).hevc then (0, f.cols) else stripeCols f.cols units j
  (s.readsAbove ch n row i).any (fun x => decide (a ≤ x ∧ x < b))

/-- The stripes that are to pass in a row. -/
def State.rowStripes (s : State) (ch n row : Nat) : List Nat :=
  if (s.picWork ch n).hevc then [s.hevcIx ch n row] else List.range (s.layoutOf ch n)

/-- The stripes of the next row that read a failed stripe before its re-execution reproduced it are dependents (R195).
DEDUCED, log 83. -/
def markDeps (ch n row i : Nat) (s : State) : State :=
  forEach ((s.rowStripes ch n (row + 1)).filter (fun j => s.strSt ch n (row + 1) j == 1 && s.readsOf ch n (row + 1) j i)) (fun j s =>
    s.put (.cch .xDEP) 1 ch (strIx (row + 1) j) (n % 2)) s

/-- A decode stripe that its unit cannot decode (R200, R202): decoded on another one, if that can end in time, otherwise concealed. -/
def redecode (ch n row i : Nat) (s : State) : State :=
  let w := s.picWork ch n
  match (if s.ticksNow w.dom + s.strTicks ch n i ≤ s.rowTicks ch n row + w.decTicks then s.rexUnit ch n i else none) with
  | some u => startRex ch n row i u s
  | none => if w.hevc then loseCtuRow ch n row s else closeRow ch n row (noteDamage ch row (n % 2) 1 (putStr ch n row i 3 s))

/-- Stripes lose the unit that they run on (R19, R35, R198, R200): those of encode channels wait for a re-execution, those of decode
channels are decoded again or concealed. -/
def takeOff (l : List (Nat × Nat × Nat × Nat)) (s : State) : State :=
  forEach l (fun x s =>
    let (ch, n, row, i) := x
    if s.strEnc x then askRex ch n row i s else redecode ch n row i (endRex ch n row i s)) s

-- Failure and retirement (R199, R200)

/-- RETIRE_WIN of a die, 0 taken as 1. -/
def State.retireWin (s : State) (d : Nat) : Nat := max 1 (s.get (.cus .CFG_RETIRE_WIN) d)

/-- The channels whose stripes a unit holds plan again at their next boundary (R200). -/
def replanUnit (u : Nat) (s : State) : State :=
  forEach (((s.slotsInForce (unitDie u)).filter (fun x => x.unit == u)).map (·.ch)).eraseDups
    (fun ch s => s.put (.cch .xREPLAN) 1 ch) s

/-- A unit retires (R199): UNIT_RETIRED with DETAIL 1 where its record goes to the repair map, which the Ostler writes. A
BOOKED unit's slots wait for the cluster's spare, and what it runs starts again elsewhere (R200).
DESIGN CHOICE, log 72. -/
def retireUnit (u : Nat) (s : State) : State :=
  let st := s.unitSt u
  if st = 3 then s
  else
    let d := unitDie u
    let persist := s.flag (.cus .CFG_PERSIST) d
    let s := s.when (st == 2) (fun s => replanUnit u (s.put (.cus .xSLOTS) 1 u))
    let s := s.when (s.get (.cus .CLUSTER_SPARE) (u / 5) == u % 5) (fun s => s.put (.cus .CLUSTER_SPARE) 7 (u / 5))
    let s := (s.put (.cus .UNIT_STATE) 3 u).bump (.cus .CNT) d 4
    let s := takeOff ((s.running d).filter (fun x => s.unitNow x == u)) s
    let s := s.when persist (ostPost d 4)
    pumpRex d (raise 0x42 d u (if persist then 1 else 0) s)

/-- A failure of a unit on the work of a channel (R199): a second one within RETIRE_WIN pictures of its domain retires it. A unit
that holds no slots counts the pictures of the channel's domain.
DEDUCED, log 83. -/
def unitFails (u ch : Nat) (s : State) : State :=
  let d := unitDie u
  let last := s.get (.cus .xFAIL_AT) u
  let again := last != 0 && decide (s.picNow (s.get (.cus .xFAIL_DOM) u) < last - 1 + s.retireWin d)
  let dom := if s.unitSt u = 2 then s.get (.cus .UNIT_DOMAIN) u else s.chDom ch
  let s := (s.bumpSat (.cus .UNIT_FAILS) u).put (.cus .xFAIL_DOM) dom u
  let s := s.put (.cus .xFAIL_AT) (s.picNow dom + 1) u
  s.when again (retireUnit u)

/-- FAILS_WINDOW_EXPIRY (R199). -/
def execFailsWindowExpiry (u : UnitIx) (now : Now) (s : State) : Host.Outcome State Fault Refusal :=
  s.runAt now (fun s =>
    let last := s.get (.cus .xFAIL_AT) u
    s.when (last != 0 && decide (last - 1 + s.retireWin (unitDie u) ≤ s.picNow (s.get (.cus .xFAIL_DOM) u))) (fun s =>
      (s.put (.cus .xFAIL_AT) 0 u).put (.cus .UNIT_FAILS) 0 u))

/-- A write of `CUS_UNIT` (R199). -/
def cusUnitWrite (u v : Nat) (s : State) : State := s.when (bitOf v 31) (retireUnit u)

/-- RETIRE (R199). -/
def execRetire (p : Party) (u : UnitIx) (v : Word) (s : State) : Host.Outcome State Fault Refusal :=
  s.run (gated p .cus (some (unitDie u)) (cusUnitWrite u (withBits v.toNat 31 1 1)))

/-- The slots of a unit pass to another, in the layouts planned, in force and sampled (R200). -/
def moveSlots (u v : Nat) (s : State) : State :=
  forEach ((s.store.keysOf (.cch .xL_UNIT)).filter (fun k => s.store.get k == u)) (fun k s =>
    s.put (.cch .xL_UNIT) v k.i k.j k.k) s

/-- The cluster's spare takes over the slots of a retired unit, once it is idle (R200). -/
def takeover (c : Nat) (s : State) : State :=
  let sp := s.get (.cus .CLUSTER_SPARE) c
  let v := 5 * c + sp
  match (List.range 5).find? (fun i => s.flag (.cus .xSLOTS) (5 * c + i)) with
  | none => s
  | some i =>
    if sp = 7 ∨ s.unitSt v ≠ 0 ∨ s.flag (.cus .UNIT_REEXEC) v then s
    else
      let u := 5 * c + i
      let d := unitDie u
      let s := moveSlots u v ((s.put (.cus .xSLOTS) 0 u).put (.cus .UNIT_STATE) 2 v)
      let s := (s.put (.cus .CLUSTER_SPARE) 7 c).bump (.cus .CNT) d 5
      forEach (s.planned d) showLayout (cusRefresh d s)

/-- SPARE_TAKEOVER (R200). -/
def execSpareTakeover (c : ClusterIx) (now : Now) (s : State) : Host.Outcome State Fault Refusal :=
  s.runAt now (fun s => poolsSettle (s.when (!s.safe && s.dieUp (c / 16)) (takeover c)))

-- The commit of an encode row (R19, R166, R194)

/-- The blocks of a row: number in the picture's block order, column and block row. -/
def rowBlocks (f : Fmt) (row per : Nat) : List (Nat × Nat × Nat) :=
  (((List.range per).map (· + per * row)).filter (fun b => decide (b < 2 * f.rows))).flatMap
    (fun b => (List.range f.cols).map (fun x => (b * f.cols + x, x, b)))

/-- The end of an encode picture: the store point, the highest rung, the model (R148, R154, R166). -/
def encPicEnd (ch n : Nat) (s : State) : State :=
  let pic := n % 2 ^ 32
  let (_, m, k, _) := s.hevcHdr ch n
  let (mark, slot) := match (if (s.picWork ch n).hevc then none else s.hdrOf ch n) with
    | some h => (h.mark, h.slot)
    | none => (m, k)
  let s := storePic ch n slot mark pic (s.cfgFmt ch n) (!s.flag (.ref .xCONC) ch 0 (n % 2)) (storeDrop ch n s)
  let s := startDrop ch n (dropWork ch n s)
  let peak := s.get (.qrc .xPEAK) ch 0 (n % 2)
  let s := (s.put (.qrc .STATUS_RUNG_PEAK) peak ch).put (.qrc .xPEAK) 0 ch 0 (n % 2)
  let s := s.when (decide (3 ≤ peak)) (evPulse (8 * ch + 5) (pic % 2 ^ 14))
  picEnd ch n pic (s.when (decide (s.get (.cch .xSTART_PIC) ch ≤ n)) (modelDue ch n))

/-- The debt of a row that commits (R157); that of a run that has ended counts no more. -/
def commitDebt (ch n row : Nat) (s : State) : State :=
  let w := s.picWork ch n
  s.when (decide (s.get (.cch .xSTART_PIC) ch ≤ n)) (fun s =>
    forEach (rowBlocks w.fmt row (w.rowLines / 8)) (fun p s => match s.get (.qrc .xBF) ch p.1 (n % 2) with
      | 1 => setDebt ch p.1 true s
      | 2 => setDebt ch p.1 false s
      | _ => s) s)

/-- The decoded picture hash SEI of an HEVC picture, with its last row (R130, R136). -/
def State.hashNal (s : State) (ch n row : Nat) : List (List Byte) :=
  if row + 1 = (s.picWork ch n).rows ∧ s.flag (.cch .HEVC_HASH_SEI) ch 0 (picBank n) then [nalOf 40 (bytesBits (s.hashBytes ch n))] else []

/-- Row `row` of an encode picture commits (R19, R157, R272, R278): its debt, its counted bits, its packets. A withheld stripe sends
none; the parameter sets and the hash of an HEVC picture go out all the same (R137). -/
def commitEncRow (ch n row : Nat) (s : State) : State :=
  let w := s.picWork ch n
  let k := n % 2
  let s := commitDebt ch n row s
  let s := s.when w.hevc (hashRow ch n row w.fmt)
  let mine := s.units.filter (fun u => u.ch == ch && u.pic == n && u.row == row)
  let lost := w.hevc && s.strSt ch n row (s.hevcIx ch n row) != 2
  let out := if w.hevc then mine.filter (fun u => !(lost && u.stripe == 32)) else mine.filter (fun u => s.strSt ch n row u.stripe == 2)
  let hash := if w.hevc then s.hashNal ch n row else []
  let bits := (out.map (fun u => 8 * u.bytes.length)).sum + (hash.map (fun b => 8 * b.length)).sum
  let hdr := if row = 0 ∧ !w.hevc then 256 * (1 + s.get (.cch .RTP_HDR_REPEAT) ch 0 (picBank n)) else 0
  let s := s.bump (.qrc .CNT) ch 0 0 (bits + hdr)
  let s : State := { s with units := s.units.filter (fun u => !(u.ch == ch && u.pic == n && u.row == row)) }
  let s := s.put (.cch .xROW) 2 ch row k
  let max := s.payloadMax ch (picBank n)
  let by' := fun (p : Nat → Bool) => (out.filter (fun u => p u.stripe)).map (·.bytes)
  let s := if w.hevc then hevcRow ch n row (setPayloads max (by' (fun i => decide (16 ≤ i ∧ i < 32))) ++
      (by' (· == 32)).flatMap (nalPayloads max) ++ hash.flatMap (nalPayloads max)) s
    else elcRow ch n row (beBytes 32 (s.get (.ref .xHDR) ch 0 k)) out s
  s.when (row + 1 == w.rows) (encPicEnd ch n)

/-- Rows commit in coding order, each on the edge on which its last stripe passes or is withheld (R194, R197). -/
def tryCommit (ch n : Nat) : Nat → Nat → State → State
  | 0, _, s => s
  | k + 1, row, s =>
    if s.get (.cch .xROW) ch row (n % 2) = 2 then tryCommit ch n k (row + 1) s
    else if s.get (.cch .xROW) ch row (n % 2) = 1 ∧
        (s.rowStripes ch n row).all (fun i => s.strSt ch n row i == 2 || s.strSt ch n row i == 4) then
      tryCommit ch n k (row + 1) (commitEncRow ch n row s)
    else s

/-- A stripe has passed its check (R194). -/
def passStripe (ch n row i : Nat) (s : State) : State :=
  let s := gateTouch (s.unitOfStr ch n i / 5) (putStr ch n row i 2 (endRex ch n row i s))
  tryCommit ch n (s.picWork ch n).rows 0 s

-- Slots, checks and re-execution

/-- A unit holds work of another channel (R17): a stripe whose slot has not ended, or a re-execution. -/
def State.unitHeldBy (s : State) (u ch : Nat) : Bool :=
  s.flag (.cus .UNIT_REEXEC) u || ((s.stripesIn (unitDie u) 1).filter (fun x => x.1 != ch && s.unitNow x == u)).any (fun x =>
    let at' := s.rowTicks x.1 x.2.1 x.2.2.1 + 256 * s.get (.cch .xL_OFS) x.1 x.2.2.2 (picBank x.2.1)
    decide (s.ticksNow (s.picWork x.1 x.2.1).dom < at' + s.strTicks x.1 x.2.1 x.2.2.2))

/-- The row above a row lets its stripes begin: each of its stripes has begun; for HEVC it has completed two coding tree units, or its
last (R132).
DEDUCED, log 84. -/
def State.aboveOk (s : State) (ch n row : Nat) : Bool :=
  let w := s.picWork ch n
  row == 0 || (s.rowStripes ch n (row - 1)).all (fun j =>
    s.strSt ch n (row - 1) j != 0 && (!w.hevc || s.strSt ch n (row - 1) j != 1 ||
      decide (s.rowTicks ch n (row - 1) + ceilDiv (min 2 (ceilDiv w.w 32) * s.strTicks ch n j) (ceilDiv w.w 32) ≤ s.ticksNow w.dom)))

/-- The blocks of a stripe in the order in which the shadow decoder checks them. -/
def State.strBlocks (s : State) (ch n row i : Nat) : List (Nat × Nat) :=
  let w := s.picWork ch n
  let (f, units, _) := s.picFmt ch n
  if w.hevc then rowAreas f row
  else
    let (a, b) := stripeCols w.cols units i
    codingOrder row a b

/-- The samples that the check of a block compares (R114). For HEVC the first areas of a row take in the bottom lines of the row above,
whose final values depend on it (R129). -/
def checkPlaces (f : Fmt) (hevc : Bool) (p : Nat × Nat) : List (Nat × Nat × Nat) :=
  blockPlaces f p.1 p.2 ++
    (if hevc ∧ 0 < p.2 ∧ p.2 % 4 = 0 then (blockPlaces f p.1 (p.2 - 1)).filter (fun q => decide (f.bh q.1 ≤ q.2.2 % f.bh q.1 + 4)) else [])

/-- The bits by which an upset flips a sample. -/
def flipAt (l : List SmpFlip) (q : Nat × Nat × Nat) : Nat :=
  (l.filter (fun f => f.plane.val == q.1 && f.x == q.2.1 && f.y == q.2.2)).foldl (fun a f => Nat.xor a f.bits) 0

/-- The shadow decoder decodes a stripe unit as its unit writes it (R114, R194): the first block at which the two differ is noted. -/
def shadowDecode (ch n row i : Nat) (s : State) : State :=
  let t := match decodeStripe ch n row i true s with
    | .done t => some t
    | _ => none
  let f := s.cfgFmt ch n
  let bad := (s.strBlocks ch n row i).findIdx? (fun p => match t with
    | none => true
    | some t => (checkPlaces f false p).any (fun q => t.smp ch q.1 q.2.1 q.2.2 != s.smp ch q.1 q.2.1 q.2.2))
  s.put (.cch .xSHAD) ((bad.map (· + 1)).getD 0) ch (strIx row i) (n % 2)

/-- A block matches (R114): the shadow decoder has the unit's samples, and no upset flips one of them. -/
def State.blockOk (s : State) (ch n row i block : Nat) (upset : List SmpFlip) : Bool :=
  let w := s.picWork ch n
  s.get (.cch .xSHAD) ch (strIx row i) (n % 2) != block + 1 &&
  (match (s.strBlocks ch n row i)[block]? with
   | none => true
   | some p => (checkPlaces w.fmt w.hevc p).all (fun q => flipAt upset q == 0))

/-- A slot of an encode channel begins (R190): the unit codes its stripe. Work of a unit that is out of service, or still holds work of
another channel, or whose cluster's shadow decoder, line buffer or CABAC engine is out of service runs as a re-execution (R17, R35, R128,
R198, R200). -/
def slotStart (ch n row i : Nat) (srcBad : List Nat) (s : State) : State :=
  let w := s.picWork ch n
  let at' := s.rowTicks ch n row + 256 * s.get (.cch .xL_OFS) ch i (picBank n)
  if s.get (.cch .xROW) ch row (n % 2) ≠ 1 ∨ s.strSt ch n row i ≠ 0 ∨ !(s.rowStripes ch n row).contains i ∨
      s.ticksNow w.dom < at' ∨ !s.aboveOk ch n row ∨ !s.mayWork ch n then s
  else
    let u := s.unitOfStr ch n i
    let free := s.unitFor w u && !s.unitHeldBy u ch
    let s := openWork ch n s
    let s := if w.hevc then codeCtuRow ch n row srcBad s
      else match s.hdrOf ch n with
        | some h => shadowDecode ch n row i (codeStripe ch n row i h srcBad s)
        | none => s
    let dep := decide (0 < row) && (s.rowStripes ch n (row - 1)).any (fun j => s.strSt ch n (row - 1) j == 3 && s.readsOf ch n row i j)
    let s := s.when dep (fun s => s.put (.cch .xDEP) 1 ch (strIx row i) (n % 2))
    if free then s else pumpRex (s.get (.cch .CTRL_HOME_DIE) ch) (askRex ch n row i s)

/-- A slot of a decode channel begins (R190, R200): a stripe whose unit is out of service is decoded on another. DECODE_STRIPE_DONE ends
it. -/
def decodeSlot (ch n row i : Nat) (s : State) : State :=
  s.when (s.strSt ch n row i == 1 && (s.decUnit ch n row i).isNone) (redecode ch n row i)

/-- STRIPE_SLOT_START (R190). -/
def execStripeSlotStart (ch : Chan) (row : Nat) (stripe : StripeIx) (m : SlotMoment) (s : State) :
    Host.Outcome State Fault Refusal :=
  s.runAt m.now (fun s => poolsSettle (s.when (s.chRuns ch) (fun s =>
    match s.rowPic ch row with
    | none => s
    | some n => if s.chDecodes ch then decodeSlot ch n row stripe s else slotStart ch n row stripe m.srcBad s)))

/-- A stripe of a first run, or one that a unit re-executes, fails its check (R195, R196, R199). -/
def mismatch (ch n row i u : Nat) (s : State) : State :=
  let d := s.get (.cch .CTRL_HOME_DIE) ch
  let dep := s.flag (.cch .xDEP) ch (strIx row i) (n % 2)
  let s := markDeps ch n row i (askRex ch n row i s)
  if dep then s.bump (.cus .CNT) d 2 else unitFails u ch (raise 0x40 d u ch (s.bump (.cus .CNT) d 0))

/-- A block is checked (R194). -/
def shadowCheck (ch n row i block : Nat) (upset : List SmpFlip) (s : State) : State :=
  let j := strIx row i
  let k := n % 2
  if s.strSt ch n row i ≠ 1 ∨ block ≠ s.get (.cch .xCHKD) ch j k then s
  else if !s.blockOk ch n row i block upset then
    let s := mismatch ch n row i (s.unitOfStr ch n i) s
    let d := s.get (.cch .CTRL_HOME_DIE) ch
    s.when (s.dieUp d) (pumpRex d)
  else
    let s := s.put (.cch .xCHKD) (block + 1) ch j k
    s.when (decide ((s.strBlocks ch n row i).length ≤ block + 1)) (passStripe ch n row i)

/-- The picture of a channel that is being coded in a row: the one whose row is not committed. -/
def State.workPic (s : State) (ch row : Nat) : Option Nat :=
  let n := s.get (.cch .xPIC) ch - 1
  [n - 1, n].find? (fun m => s.hasPic ch m && s.get (.cch .xROW) ch row (m % 2) == 1)

/-- SHADOW_CHECK (R194). -/
def execShadowCheck (ch : Chan) (row : Nat) (stripe : StripeIx) (block : Nat) (upset : List SmpFlip) (now : Now) (s : State) :
    Host.Outcome State Fault Refusal :=
  s.runAt now (fun s => poolsSettle (s.when (s.chRuns ch && !s.chDecodes ch) (fun s =>
    match s.workPic ch row with
    | none => s
    | some n => shadowCheck ch n row stripe block upset s)))

/-- A shadow decoder (1), the CABAC engine (2) or the line buffer (3) of a cluster leaves service, and what runs on the cluster and
needs it moves to other clusters (R19, R35, R128, R198). -/
def engineGone (c detail : Nat) (s : State) : State :=
  let d := c / 16
  let s := match detail with
    | 1 => (s.put (.cus .CLUSTER_SHADOW_OK) 0 c).bump (.cus .CNT) d 6
    | 2 => s.put (.cus .CLUSTER_CABAC_OK) 0 c
    | _ => s.put (.cus .CLUSTER_LINEBUF_OK) 0 c
  let s := forEach ((List.range 5).map (· + 5 * c)) replanUnit s
  let hit := fun x => s.unitNow x / 5 == c && match detail with
    | 1 => s.strEnc x
    | 2 => (s.picWork x.1 x.2.1).hevc
    | _ => true
  pumpRex d (takeOff ((s.running d).filter hit) s)

/-- An engine of a cluster, in service until then, fails (R35). -/
def engineFails (c detail : Nat) (s : State) : State :=
  let f := ([.CLUSTER_SHADOW_OK, .CLUSTER_CABAC_OK, .CLUSTER_LINEBUF_OK] : List Cus).getD (detail - 1) .CLUSTER_LINEBUF_OK
  s.when (s.flag (.cus f) c) (fun s =>
    let s := raise 0x43 (c / 16) c detail s
    s.when (s.dieUp (c / 16)) (engineGone c detail))

/-- A re-execution ends (R196): the stripe passes; or it mismatches again, which on another unit takes the shadow decoder of its cluster
out of service, unless it is a dependent (R198). -/
def rexDone (ch n row i : Nat) (upset : List SmpFlip) (s : State) : State :=
  let d := s.get (.cch .CTRL_HOME_DIE) ch
  let j := strIx row i
  let k := n % 2
  match s.get (.cch .xRX) ch j k with
  | 0 => s
  | u + 1 =>
    if s.strSt ch n row i ≠ 3 then s
    else if (List.range (s.strBlocks ch n row i).length).all (fun b => s.blockOk ch n row i b upset) then
      pumpRex d (passStripe ch n row i s)
    else
      let dep := s.flag (.cch .xDEP) ch j k
      let home := s.unitOfStr ch n i
      let c := if s.flag (.cus .CLUSTER_SHADOW_OK) (home / 5) then home / 5 else u / 5
      let s := (mismatch ch n row i u s).bump (.cch .xRXN) ch j k
      let s := s.when (!dep && home != u && s.dieUp d) (engineFails c 1)
      s.when (s.dieUp d) (pumpRex d)

/-- REEXEC_DONE (R196). -/
def execReexecDone (ch : Chan) (row : Nat) (stripe : StripeIx) (upset : List SmpFlip) (now : Now) (s : State) :
    Host.Outcome State Fault Refusal :=
  s.runAt now (fun s => poolsSettle (s.when (s.chRuns ch && !s.chDecodes ch) (fun s =>
    match s.workPic ch row with
    | none => s
    | some n => rexDone ch n row stripe upset s)))

-- Stalls and failed engines (R35, R67, R128, R196, R202)

/-- A unit stalls (R196, R199, R202): the stripe that it runs is re-executed, or decoded again. -/
def unitStall (u : Nat) (s : State) : State :=
  let d := unitDie u
  let l := (s.running d).filter (fun x => s.unitNow x == u)
  let rex := l.find? (fun x => s.get (.cch .xRX) x.1 (strIx x.2.2.1 x.2.2.2) (x.2.1 % 2) != 0)
  match (match rex with
    | some x => some x
    | none => l.head?) with
  | none => s
  | some (ch, n, row, i) =>
    let s := endRex ch n row i (s.bump (.cus .CNT) d 7)
    let s := s.when (s.strEnc (ch, n, row, i)) (fun s => markDeps ch n row i (askRex ch n row i s))
    let s := unitFails u ch (raise 0x41 d u ch s)
    s.when (s.dieUp d) (fun s => if s.strEnc (ch, n, row, i) then pumpRex d s
      else s.when (s.strSt ch n row i == 1 && s.get (.cch .xRX) ch (strIx row i) (n % 2) == 0) (redecode ch n row i))

/-- UNIT_STALL_TIMEOUT (R67, R196): `w.since` is the edge from which the unit has made no progress. -/
def execUnitStallTimeout (u : UnitIx) (w : Waited) (s : State) : Host.Outcome State Fault Refusal :=
  s.runAt w.now (fun s => poolsSettle (s.when (!s.safe && s.dieUp (unitDie u) &&
    s.waitedOut (.cus .STALL_TO_UNIT) (unitDie u) w.since 100 10000 1) (unitStall u)))

/-- CLUSTER_STALL_TIMEOUT (R67, R128): `w.since` is the edge from which the engine has made no progress. -/
def execClusterStallTimeout (c : ClusterIx) (cabac : Bool) (w : Waited) (s : State) : Host.Outcome State Fault Refusal :=
  s.runAt w.now (fun s => poolsSettle (s.when (!s.safe && s.dieUp (c / 16) &&
    s.waitedOut (.cus .STALL_TO_CLUSTER) (c / 16) w.since 100 10000 1)
    (engineFails c (if cabac then 2 else 1))))

/-- FAULT_OCCURRENCE (R462). An engine of a cluster that its detecting block reports leaves service (R35). -/
def execFaultOccurrence (os : List Occ) (now : Now) (s : State) : Host.Outcome State Fault Refusal :=
  s.runAt now (fun s =>
    forEach (os.filter (fun o => o.code == 0x43 && decide (o.loc < 32 ∧ 0 < o.detail ∧ o.detail < 4))) (fun o s =>
      s.when (!s.safe && s.dieUp (o.loc / 16)) (engineGone o.loc o.detail)) (occurrences os s))

-- Withheld stripes (R197)

/-- The bits of a withheld stripe are charged no more (R197): those of a CTU row, and those of a stripe unit if its window is still the one
being coded.
DEDUCED, log 81. -/
def uncharge (ch n row i : Nat) (s : State) : State :=
  if (s.picWork ch n).hevc then
    let kept := (s.units.filter (fun u => u.ch == ch && u.pic == n && u.row == row && u.stripe != 32)).map (fun u => 8 * u.bytes.length)
    s.put (.qrc .xROWB) kept.sum ch row (n % 2)
  else
    let (_, later) := s.windowOf ch n row
    let next := row + later.length + 1
    match s.unitHeld ch n row i with
    | none => s
    | some u => s.when (s.strSt ch n next i == 0) (fun s =>
        s.put (.qrc .xCHG) (s.get (.qrc .xCHG) ch i - 8 * u.bytes.length) ch i)

/-- A stripe that has not passed at REL is withheld (R197): its place in the picture is concealed, the next picture refreshes
its row, and the row commits without it. -/
def withhold (ch n row i : Nat) (s : State) : State :=
  let d := s.get (.cch .CTRL_HOME_DIE) ch
  let st := s.strSt ch n row i
  let w := s.picWork ch n
  if st = 2 ∨ st = 4 ∨ s.ticksNow w.dom < s.relTicks ch n row ∨ !(s.rowStripes ch n row).contains i ∨
      s.get (.cch .xROW) ch row (n % 2) ≠ 1 ∨ !s.mayWork ch n then s
  else
    let s := uncharge ch n row i (endRex ch n row i (openWork ch n s))
    let l := s.lostCtx ch n row i
    let l := if w.hevc then { l with isI := (s.hevcHdr ch n).1, c0 := 0, c1 := w.cols, hl := false, hr := false } else l
    let hit := if w.hevc then rowAreas l.f row else codingOrder row l.c0 l.c1
    let s := forEach hit (fun p s => (concealBlock l p.1 p.2 false s).put (.qrc .xBF) 0 ch (p.2 * l.f.cols + p.1) (n % 2)) s
    let rows := if w.hevc then [2 * row, 2 * row + 1].filter (fun r => decide (r < l.f.rows)) else [row]
    let s := askRefresh ch (s.nextWork ch n) false rows (gateTouch (s.unitOfStr ch n i / 5) (putStr ch n row i 4 s))
    let s := (s.bump (.cch .CNT) ch 2).bump (.cus .CNT) d 3
    let s := evPulse (8 * ch + 4) (n % 2 ^ 14) (raise 0x44 d ch row s)
    pumpRex d (tryCommit ch n w.rows 0 s)

/-- STRIPE_WITHHELD (R197). -/
def execStripeWithheld (ch : Chan) (row : Nat) (stripe : StripeIx) (now : Now) (s : State) : Host.Outcome State Fault Refusal :=
  s.runAt now (fun s => poolsSettle (s.when (s.chRuns ch && !s.chDecodes ch) (fun s =>
    match s.workPic ch row with
    | none => s
    | some n => withhold ch n row stripe s)))

end Sys2Proof.Machine
end

