-- ==== Sys2Proof/Machine/Start.lean ====
section
/-!
DEFINITION. How a channel starts (R33, R147, R152, R164, R167, R189, R192, R206, R208): what a start is refused for, the plan
of its die, the state that a start leaves, and the picture that a boundary opens.
-/

namespace Sys2Proof.Machine

/-- Reasons of a refusal (R207). -/
def whyCREDITS : Nat := 1
def whyCABAC : Nat := 2
def whyFIT : Nat := 3
def whyBUFFERS : Nat := 4
def whyGUARD : Nat := 5
def whyLEVEL : Nat := 6
def whyFORMAT : Nat := 7
def whyTILE : Nat := 8

/-- Further states of R207. -/
def chREFUSED : Nat := 4
def chSHED : Nat := 5

-- What a start is refused for

/-- The format of a channel in a bank is one that R26, R69, R130 and R208 admit, and its domain is enabled (R207). -/
def State.formatOk (s : State) (ch bank : Nat) : Bool :=
  let w := s.work ch bank
  let kindOk :=
    if w.kind < 2 then decide (w.chroma < 2 ∧ w.depth < 3) && (w.chroma == 1 || w.w % 2 == 0)
    else if w.kind = 2 then
      let p := s.get (.cch .HEVC_HEVC_PROFILE) ch 0 bank
      decide (64 ≤ w.w ∧ w.w % 8 = 0 ∧ 64 ≤ w.h ∧ w.h % 8 = 0) &&
      ((p == 0 && w.chroma == 2 && w.depth == 3) || (p == 1 && w.chroma == 2 && w.depth == 0) ||
       (p == 2 && w.chroma == 0 && w.depth == 0))
    else (w.chroma == 0 || w.chroma == 2) && (w.depth == 0 || w.depth == 3)
  s.domOn w.dom && decide (16 ≤ w.w ∧ w.w ≤ 3840 ∧ 16 ≤ w.h ∧ w.h ≤ 2160) && decide (w.num ≤ 120 * w.den) &&
  decide (w.w * w.h * w.num ≤ 497664000 * w.den) && kindOk

/-- The cap guard of an ELC encode channel can keep the settings of a bank with a layout (R152). -/
def State.guardOk (s : State) (ch bank : Nat) (units : List Nat) : Bool :=
  let w := s.work ch bank
  let g := fun f => s.get f ch 0 bank
  let kbps := g (.qrc .CAP_CAP_KBPS)
  let cap := g (.qrc .CFG_CAP_ROWS_M1) + 1
  let copies := 1 + g (.cch .RTP_HDR_REPEAT)
  decide (1000 ≤ kbps ∧ kbps ≤ 25000000) && decide (g (.qrc .CFG_QP_MIN) ≤ g (.qrc .CFG_QP_MAX)) &&
  (List.range (ceilDiv w.rows cap)).all (fun k => (List.range (units.length + 1)).all (fun i =>
    let (a, b) := stripeCols w.cols units i
    let rows := windowRows cap w.rows k
    decide (136 * rows + 20 * (2 * rows * (b - a)) ≤ stripeShare w.cols units (windowBudget kbps cap copies w k) i)))

/-- MaxBR of a level and tier in kb/s, and CpbVclFactor of a profile, of ITU-T H.265 Annex A (R134).
PRESUMED, log 66. -/
def maxBr (level : Nat) (high : Bool) : Nat :=
  if level = 123 then (if high then 50000 else 20000)
  else if level = 150 then (if high then 100000 else 25000)
  else if high then 160000 else 40000
/-- PRESUMED, log 66. -/
def cpbVclFactor (profile : Nat) : Nat := if profile = 2 then 1667 else 1000

/-- The cap of an HEVC encode channel lies within its level (R134).
PRESUMED, log 66. -/
def State.levelOk (s : State) (ch bank : Nat) : Bool :=
  let g := fun f => s.get f ch 0 bank
  decide (g (.qrc .CAP_CAP_KBPS) * 1000 ≤
    maxBr (g (.cch .HEVC_HEVC_LEVEL)) (g (.cch .HEVC_HEVC_TIER) == 1) * cpbVclFactor (g (.cch .HEVC_HEVC_PROFILE)))

/-- The settings in which the tiles of a group must agree (R206). -/
def tileFields : List Cch := [.FMT_DOMAIN, .TIME_OFS, .TIME_REL_WIN, .FMT_WORK, .FMT_CHROMA, .FMT_DEPTH, .FMT_WIDTH]

/-- A channel agrees with every running tile of its group (R206). -/
def State.tileOk (s : State) (ch bank : Nat) : Bool :=
  let grp := s.get (.cch .TIME_TILE_GRP) ch 0 bank
  grp == 0 || (List.range 48).all (fun c => c == ch || !(s.get (.cch .STATUS_STATE) c == chRUNNING ||
    s.get (.cch .STATUS_STATE) c == chLEAVING) || s.chGet (.cch .TIME_TILE_GRP) c != grp ||
    tileFields.all (fun f => s.chGet (.cch f) c == s.get (.cch f) ch 0 bank))

/-- The other channels that run on a die, as the Harness plans them. -/
def State.otherWorks (s : State) (d ch : Nat) : List Work :=
  ((s.planned d).filter (· != ch)).map (fun c => s.work c (s.chBank c))

/-- The limits of R31 and R32 that a channel would pass on a die.
DEDUCED, log 67. -/
def State.overLimits (s : State) (d ch : Nat) (w : Work) : List Nat :=
  let os := (s.planned d).filter (· != ch)
  let booked := os.foldl (fun a c => a + s.get (.cch .STATUS_COST) c) 0
  let hevc := ((s.otherWorks d ch ++ [w]).filter Work.hevc).foldl (fun a x => a + x.cost) 0
  let engines := (((List.range 16).map (· + 16 * d)).filter (fun c => s.flag (.cus .CLUSTER_CABAC_OK) c)).length
  (if s.bookable d < booked + w.cost then [whyCREDITS] else []) ++ (if w.hevc && decide (5600 * engines < hevc) then [whyCABAC] else [])

-- Buffers (R21, R157, R164, R291)

/-- The class reserves that a start sets: the frame buffers, and for an encode channel one more in class 1 for its debt
slab. -/
def Work.needs (w : Work) : List (Nat × Nat) :=
  let c := w.fmt.bufClass
  let n := if w.kind = 3 then 7 else 5
  if !w.enc then [(c, n)] else if c = 1 then [(1, n + 1)] else [(c, n), (1, 1)]

/-- The group of the region that holds most of a channel's units in a plan; the lower one where two are equal (R21). -/
def homeRegion (slots : List Slot) (ch : Nat) : Nat :=
  let units := ((slots.filter (fun x => x.ch == ch)).map (·.unit)).eraseDups
  let n := fun r => (units.filter (fun u => u / 20 % 4 == r)).length
  ([0, 1, 2, 3] : List Nat).foldl (fun b r => if n b < n r then r else b) 0

/-- The reserves of a start are set; the result tells whether every one could be (R291). -/
def setReserves (d ch : Nat) : List (Nat × Nat) → State → Bool × State
  | [], s => (true, s)
  | (c, n) :: t, s =>
    if n ≤ s.get (.pdk .OWN_RSV_RSV) d ch c ∨ s.classCovers d ch c n then setReserves d ch t (s.put (.pdk .OWN_RSV_RSV) n d ch c)
    else (false, s)

-- The state that a start leaves

/-- The counters of a channel clear (R162, R184, R207). -/
def clearCounters (ch : Nat) (s : State) : State :=
  forEach (List.range 16) (fun k s => ((s.put (.ref .CNT) 0 ch k).put (.qrc .CNT) 0 ch k).put (.cch .CNT) 0 ch k) s

/-- The requests of one run of a channel are forgotten at the start of the next. -/
def Key.ofRun (k : Key) : Bool :=
  match k.fld with
  | .qrc f => match f with
    | .xRQ | .xRQ_PIC | .xRQ_ROW | .xFULL => true
    | _ => false
  | .ref f => match f with
    | .xCOL_A | .xCOL_B | .xCOL_R | .xCOL_PIC | .xHOLD => true
    | _ => false
  | _ => false

/-- The units of a stripe layout of a channel in a plan. -/
def planUnits (p : List Classed × List Slot) (ch : Nat) : List Nat :=
  match p.1.find? (fun c => c.w.ch == ch) with
  | some c => match c.w.layout c.j with
    | some (n, g) => List.replicate (n - 1) g
    | none => []
  | none => []

/-- What a channel start comes to: refused for reasons; put off until a gated cluster is up (R485); or done. -/
inductive StartFate where
  | refused (why : List Nat)
  | later (s : State)
  | started (s : State)

/-- Clusters are ungated for a plan, and none of them is gated again while the plan waits (R485).
DESIGN CHOICE, log 72. -/
def ungate (l : List Nat) (s : State) : State :=
  forEach l (fun c s => s.put (.pwr .xGATE_AT) (s.dueIn secNs + 1) c) (setGates l false s)

/-- The gated clusters that a plan places work on. -/
def State.gatedIn (s : State) (slots : List Slot) : List Nat := ((slots.map (fun x => x.unit / 5)).filter s.gatedC).eraseDups

/-- A channel start on die `d` at picture `n`. `fresh` tells that the channel was not running; otherwise the rows of its last
picture that have not committed go on, and what they still use is renewed with the first slot of picture `n` (R155, R157, R193, R204).
DESIGN CHOICE, log 72. -/
def startOn (d ch n : Nat) (fresh : Bool) (s0 : State) : StartFate :=
  let old := s0.get (.cch .CTRL_HOME_DIE) ch
  let s := s0.put (.cch .CTRL_HOME_DIE) d ch
  let w := s.work ch 1
  if !s.formatOk ch 1 then .refused [whyFORMAT]
  else
    let ws := s.otherWorks d ch ++ [w]
    let rest := s.overLimits d ch w ++ (if s.tileOk ch 1 then [] else [whyTILE]) ++
      (if w.kind = 2 && !s.levelOk ch 1 then [whyLEVEL] else [])
    match s.plan d ws with
    | none => .refused (rest ++ [whyFIT])
    | some p =>
      let units := planUnits p ch
      let rest := rest ++ (if w.kind = 0 && !s.guardOk ch 1 units then [whyGUARD] else [])
      let s := if fresh then dropWork ch 0 (dropWork ch 1 (forEach (s.startSlots ch w.fmt) (emptySlot ch) s))
        else dropSlots ch n (s.startSlots ch w.fmt) true s
      let s := s.when (old != d) (dropReserves old ch)
      let s := dropReserves d ch (s.put (.pdk .OWN_CFG_GROUP) (4 * d + homeRegion p.2 ch) d ch)
      let (ok, s) := setReserves d ch w.needs s
      let why := rest ++ (if ok then [] else [whyBUFFERS])
      if why ≠ [] then .refused why
      else if s0.gatedIn p.2 ≠ [] then .later ((ungate (s0.gatedIn p.2) s0).put (.cch .xP_AT) (s0.dueIn (200 * usNs)) ch)
      else
        let s := writePlan d 0 p ws (clearCounters ch (s.keepKeys (fun k => !(k.ofRun && k.i == ch))))
        let s := ((s.put (.cch .xFIRST) 1 ch).put (.cch .xSTART_PIC) n ch).put (.cch .STATUS_COST) w.cost ch
        let s := s.putB (.cch .xRENEW) w.enc ch
        let s := s.when fresh (fun s => (s.put (.cch .xDONE) n ch).put (.cch .xPIC) n ch)
        let s := ((s.put (.cch .CTRL_START) 0 ch).put (.cch .xRESUME) 0 ch).put (.cch .xREPLAN) 0 ch
        let s := ((s.put (.cch .xSTOP) 0 ch).put (.cch .xMOVE_AT) 0 ch).put (.cch .xHO) 0 ch
        let s := setChState ch chRUNNING s
        .started (poolSettle d (s.when (old != d) (fun s => poolSettle old (cusRefresh old s))))

-- The picture that a boundary opens

/-- A planned layout comes into force (R193), once its clusters are up (R485); PLANS counts the picture. A retired unit that no
layout uses any more needs no spare. -/
def applyPlan (ch : Nat) (s : State) : State :=
  s.when (s.flag (.cch .xP_NEW) ch && decide (s.get (.cch .xP_AT) ch ≤ s.osc)) (fun s =>
    let d := s.get (.cch .CTRL_HOME_DIE) ch
    let s := showLayout ch (copyLayout ch 0 1 ((s.put (.cch .xP_NEW) 0 ch).bump (.cch .CNT) ch 3))
    let used := (s.slotsInForce d).map (·.unit)
    cusRefresh d (forEach (dieUnits d) (fun u s => s.when (!used.contains u) (fun s => s.put (.cus .xSLOTS) 0 u)) s))

/-- Picture `n` of a channel takes the settings of a bank and the layout in force (R146, R193). -/
def samplePic (ch n bank : Nat) (s : State) : State :=
  let b := picBank n
  let s := forEach chanBankFields (fun f s => s.put f (s.get f ch 0 bank) ch 0 b) s
  let s := clearPic ch n (copyLayout ch 1 b s)
  ((s.put (.cch .xSNAP) (n + 1) ch 0 b).put (.cch .xBANK) b ch).put (.cch .xPIC) (n + 1) ch

/-- A mute begins or ends at a picture boundary (R469).
DEDUCED, log 85. -/
def muteAt (ch n : Nat) (s : State) : State :=
  if s.tbState = tbUNLOCKED ∧ s.get (.flt .CFG_UNLOCK_ACT) = 1 then s.put (.cch .xMUTE) 1 ch
  else if s.flag (.cch .xMUTE) ch && s.tbState == tbLOCKED then
    s.when (s.chWork ch % 2 == 0) (askRefresh ch n true []) |>.put (.cch .xMUTE) 0 ch
  else s

/-- The mark and slot that free bits choose for an encode picture, with its working buffer: mark 0 where the Paddock has none
(R166).
DESIGN CHOICE, log 74. -/
def chooseStore (ch n : Nat) (f : Fmt) (v : Nat) (s : State) : Nat × Nat × State :=
  let mark := v % 3
  if mark = 0 then (0, v / 3 % 4, s)
  else
    let (ok, s) := takeWork ch n f s
    (if ok then mark else 0, v / 3 % 4, s)

/-- An encode picture begins (R166): what it will be stored as is chosen, and its working buffer taken. The rest of its header waits for the
picture before it to end.
DESIGN CHOICE, log 74. -/
def beginEnc (ch n : Nat) (s : State) : State :=
  let (v, s) := s.free
  let (mark, slot, s) := chooseStore ch n (s.cfgFmt ch n) v s
  s.put (.ref .xHDR) (2 * mark + 8 * slot) ch 0 (n % 2)

/-- The LONG slots of a channel empty where DROP_LT asks for it (R167). -/
def dropLong (ch n : Nat) (s : State) : State :=
  s.when (s.flag (.ref .CTRL_DROP_LT) ch) (fun s =>
    let long := (List.range 6).filter (fun k => s.get (.ref .SLOT_MARK) ch k == 2)
    poolSettle (s.get (.cch .CTRL_HOME_DIE) ch) (dropSlots ch n long false (s.put (.ref .CTRL_DROP_LT) 0 ch)))

/-- Picture `n` opens with the settings of a bank. The packets of a decode picture may be there already (R87). -/
def openPic (ch n bank : Nat) (s : State) : State :=
  let s := muteAt ch n (samplePic ch n bank (dropLong ch n s))
  let s := s.when (s.flag (.cch .xRENEW) ch && s.get (.cch .xDONE) ch == n) (renew ch n)
  if !s.chDecodes ch then beginEnc ch n s
  else
    let s := s.put (.cch .xFIRST) 0 ch
    if (s.picWork ch n).hevc then s else tryHdr ch n s

/-- A refusal of settings or of a layout that leaves the channel running, shown once (R152, R208). -/
def chKeep (ch why : Nat) (s : State) : State :=
  s.when (!(s.flag (.cch .STATUS_CFG_REFUSED) ch && s.get (.cch .STATUS_REASON) ch == why)) (chRefuse ch why)

/-- The channel goes on at picture `n`: with its active bank and the plan that waits, or, where the cap guard could not keep
these, with what it had (R152, R193). -/
def goOn (ch n : Nat) (s : State) : State :=
  let d := s.get (.cch .CTRL_HOME_DIE) ch
  let due := s.flag (.cch .xP_NEW) ch && decide (s.get (.cch .xP_AT) ch ≤ s.osc)
  let lay := if due then 0 else 1
  let units := List.replicate (s.get (.cch .xL_N) ch 0 lay - 1) (s.get (.cch .xL_G) ch 0 lay)
  if s.get (.cch .FMT_WORK) ch 0 1 = 0 ∧ !s.guardOk ch 1 units then
    openPic ch n (s.chBank ch) (chKeep ch whyGUARD s)
  else poolSettle d (openPic ch n 1 (applyPlan ch s))

end Sys2Proof.Machine
end

