-- ==== Sys2Proof/Machine/Chan.lean ====
section
/-!
DEFINITION. The life of a channel (R167, R193, R201, R204 to R207, R427, R470 to R473): its control register, its picture
boundaries, and its moves between dies and modules.
-/

namespace Sys2Proof.Machine

-- Starts

/-- A channel's domain runs and its picture boundary lies at or after the picture that it waits for.
DEDUCED, log 65. -/
def State.atStart (s : State) (ch : Nat) : Bool :=
  let dom := s.get (.cch .FMT_DOMAIN) ch 0 1
  s.rasterRuns dom && decide (s.get (.cch .xWAIT) ch ≤ s.picNow dom) && decide (s.get (.cch .xP_AT) ch ≤ s.osc)

/-- A start that is refused (R33, R207): one of the reasons that hold is shown.
DEDUCED, log 65. -/
def refuseStart (ch : Nat) (why : List Nat) (s : State) : State :=
  let (v, s) := s.free
  let s := (s.put (.cch .CTRL_START) 0 ch).put (.cch .xRESUME) 0 ch
  chRefuse ch (why.getD (v % why.length) 0) (setChState ch chREFUSED s)

/-- A start at picture `n`: on the home die, or on the other one where the channel names it as an alternative (R33). -/
def startAt (ch n : Nat) (s : State) : State :=
  let d := s.get (.cch .CTRL_HOME_DIE) ch
  match startOn d ch n true s with
  | .started t => goOn ch n t
  | .later t => t
  | .refused why =>
    if s.flag (.cch .CTRL_ALT_DIE) ch && s.dieUp (1 - d) then
      match startOn (1 - d) ch n true s with
      | .started t => goOn ch n t
      | .later t => t
      | .refused _ => refuseStart ch why s
    else refuseStart ch why s

/-- A start is requested (R207): a domain that is not enabled refuses it at once, and a plan that would need gated clusters
ungates them (R485). -/
def requestStart (ch : Nat) (s : State) : State :=
  let st := s.get (.cch .STATUS_STATE) ch
  let dom := s.get (.cch .FMT_DOMAIN) ch 0 1
  if st = chWAITING ∨ st = chRUNNING ∨ st = chLEAVING then s
  else if !s.domOn dom then refuseStart ch [whyFORMAT] s
  else
    let wait := if s.rasterRuns dom then s.picNow dom + 1 else 0
    let s := ((s.put (.cch .CTRL_START) 1 ch).put (.cch .xWAIT) wait ch).put (.cch .xP_AT) 0 ch
    let s := setChState ch chWAITING s
    match startOn (s.get (.cch .CTRL_HOME_DIE) ch) ch (s.picNow dom) true s with
    | .later t => t
    | _ => s

/-- A channel that entered Winter runs again, with its slots and settings kept (R167, R489). -/
def resumeAt (ch n : Nat) (s : State) : State :=
  let s := ((s.put (.cch .xRESUME) 0 ch).put (.cch .xDONE) n ch).put (.cch .xPIC) n ch
  goOn ch n (cusRefresh (s.get (.cch .CTRL_HOME_DIE) ch) (setChState ch chRUNNING s))

/-- A waiting channel starts at its picture boundary, or runs again after a Winter. -/
def channelStart (ch : Nat) (s : State) : State :=
  let d := s.get (.cch .CTRL_HOME_DIE) ch
  let dom := s.get (.cch .FMT_DOMAIN) ch 0 1
  if s.safe || !s.dieUp d || s.get (.cch .STATUS_STATE) ch != chWAITING || s.inWinter || s.get (.pwr .STATUS_SEASON) == 3 ||
      s.get (.pwr .xWIN_STEP) == 2 then s
  else if !s.domOn dom then refuseStart ch [whyFORMAT] s
  else if !s.atStart ch then s
  else if s.get (.cch .xRESUME) ch = 3 then resumeAt ch (s.picNow dom) s
  else startAt ch (s.picNow dom) s

/-- CHANNEL_START (R147). -/
def execChannelStart (ch : Chan) (now : Now) (s : State) : Host.Outcome State Fault Refusal := s.runAt now (fun s => poolsSettle (channelStart ch s))

/-- A channel of a START record is started as though START had been written (R427). -/
def startupStart (ch : Nat) (s : State) : State :=
  let w := s.get (.mid .xSTART) ch
  let locked := s.tbState == tbLOCKED || s.tbState == tbUNLOCKED || decide (8 ≤ s.get (.mid .BOOT_STEP))
  let timeOk := s.tbState != tbFREE && (w == 1 || locked)
  s.when (w != 0 && !s.safe && decide (7 ≤ s.get (.mid .BOOT_STEP)) && s.dieUp (s.get (.cch .CTRL_HOME_DIE) ch) && timeOk)
    (fun s => requestStart ch (s.put (.mid .xSTART) 0 ch))

/-- STARTUP_CHANNEL_START (R427). -/
def execStartupChannelStart (ch : Chan) (now : Now) (s : State) : Host.Outcome State Fault Refusal :=
  s.runAt now (fun s => poolsSettle (startupStart ch s))

-- Stops

/-- A stop (R207): after the current picture of a running channel, and at once for one that waits.
DEDUCED, log 70. -/
def stopChan (ch : Nat) (s : State) : State :=
  let st := s.get (.cch .STATUS_STATE) ch
  if st = chRUNNING ∨ st = chLEAVING then
    let s := s.when (st == chLEAVING) (fun s =>
      (((s.put (.cch .CTRL_MOVE_DIE) 0 ch).put (.cch .CTRL_HANDOVER) 0 ch).put (.cch .xMOVE_AT) 0 ch).put (.cch .xHO) 0 ch)
    tryStop ch ((s.put (.cch .CTRL_STOP) 1 ch).put (.cch .xSTOP) 1 ch)
  else if st = chWAITING then endRun ch chSTOPPED ((s.put (.cch .CTRL_START) 0 ch).put (.cch .xRESUME) 0 ch)
  else s

-- Picture boundaries

/-- The settings whose change is a stop and a start (R193).
DEDUCED, log 68. -/
def restartFields : List Cch :=
  [.FMT_WORK, .FMT_DOMAIN, .FMT_CHROMA, .FMT_DEPTH, .FMT_WIDTH, .FLOW_IN_FLOW, .FLOW_OUT_FLOW]

/-- The active bank holds such a change.
DEDUCED, log 68. -/
def State.mustRestart (s : State) (ch : Nat) : Bool :=
  restartFields.any (fun f => s.get (.cch f) ch 0 1 != s.chGet (.cch f) ch)

/-- The first picture of a domain whose boundary lies at or after that of picture `n` of another. -/
def State.sameTime (s : State) (old n new : Nat) : Nat := s.boundaryFrom new (s.timeOfTicks old (n * s.picTicks old)) / s.picTicks new

/-- A start in a domain of another rate, whose boundaries lie elsewhere, is at its first boundary from here on; the channel waits for it once
its last picture has ended (R193). -/
def restartLater (ch n : Nat) (s : State) : State :=
  let at' := s.sameTime (s.chDom ch) n (s.get (.cch .FMT_DOMAIN) ch 0 1)
  let s := ((s.put (.cch .xWAIT) at' ch).put (.cch .xP_AT) 0 ch).put (.cch .xRESUME) 0 ch
  tryStop ch (s.put (.cch .xSTOP) (chWAITING + 1) ch)

/-- A stop and a start on one boundary (R193). A format or cap that is refused leaves the channel as it was (R152, R208); a start
refused for another reason leaves it stopped after the picture that it codes.
DEDUCED, log 68. -/
def restartAt (ch n : Nat) (s : State) : State :=
  let d := s.get (.cch .CTRL_HOME_DIE) ch
  let old := s.chDom ch
  let dom := s.get (.cch .FMT_DOMAIN) ch 0 1
  match startOn d ch n false s with
  | .started t => if s.domNum old * s.domDenOf dom = s.domNum dom * s.domDenOf old then goOn ch n t else restartLater ch n s
  | .later t => openPic ch n (s.chBank ch) t
  | .refused why =>
    if why.contains whyFORMAT then openPic ch n (s.chBank ch) (chKeep ch whyFORMAT s)
    else if why.contains whyGUARD then openPic ch n (s.chBank ch) (chKeep ch whyGUARD s)
    else
      let (v, s) := s.free
      tryStop ch (chRefuse ch (why.getD (v % why.length) 0) (s.put (.cch .xSTOP) (chREFUSED + 1) ch))

/-- The channel of lowest priority among some: the largest PRIORITY, then the higher number (R201). -/
def State.lowest (s : State) (l : List Nat) : Option Nat :=
  l.foldl (fun b c => match b with
    | none => some c
    | some x => if s.get (.cch .CTRL_PRIORITY) c < s.get (.cch .CTRL_PRIORITY) x then some x else some (max c x)) none
  |>.bind (fun _ => (insSort (fun a b => if s.get (.cch .CTRL_PRIORITY) a ≠ s.get (.cch .CTRL_PRIORITY) b
      then decide (s.get (.cch .CTRL_PRIORITY) b < s.get (.cch .CTRL_PRIORITY) a) else decide (b < a)) l).head?)

/-- A channel would start on a die (R201).
DEDUCED, log 67. -/
def State.fitsOn (s : State) (d ch : Nat) : Bool :=
  s.dieUp d && match startOn d ch 0 true s with
    | .refused _ => false
    | _ => true

/-- A die move is armed (R204).
DEDUCED, log 69. -/
def armMove (ch : Nat) (s : State) : State :=
  setChState ch chLEAVING ((s.put (.cch .CTRL_MOVE_DIE) 1 ch).put (.cch .xMOVE_AT) (s.osc + 1) ch)

/-- The new plan that a retirement calls for, with the channels that are moved or stopped, one at a time, until the plan succeeds and the
rest cost no more than the die's bookable capacity (R36, R192, R201). `l` are the channels that the plan must hold. -/
def replanWith (d : Nat) : Nat → List Nat → State → State
  | 0, _, s => s
  | k + 1, l, s =>
    let ws := l.map (fun c => s.work c (s.chBank c))
    let cost := (l.map (fun c => s.get (.cch .STATUS_COST) c)).sum
    match (if cost ≤ s.bookable d then s.plan d ws else none) with
    | some p =>
      let gated := s.gatedIn p.2
      let from' := if gated.isEmpty then 0 else s.dueIn (200 * usNs)
      writePlan d from' p ws (s.when (!gated.isEmpty) (ungate gated))
    | none =>
      match s.lowest (l.filter (fun c => s.flag (.cch .CTRL_ALT_DIE) c && s.get (.cch .STATUS_STATE) c == chRUNNING &&
          s.fitsOn (1 - d) c)) with
      | some c => replanWith d k (l.filter (· != c)) (armMove c s)
      | none => match s.lowest l with
        | none => s
        | some c =>
          let s := (s.put (.cch .xSTOP) (chSHED + 1) c).put (.cch .STATUS_REASON) whyCREDITS c
          replanWith d k (l.filter (· != c)) (raise 0x09 d c 0 s)

/-- The boundary of a channel whose plan a retirement has touched (R200, R201).
DESIGN CHOICE, log 72. -/
def replan (ch : Nat) (s : State) : State :=
  let d := s.get (.cch .CTRL_HOME_DIE) ch
  let s := s.put (.cch .xREPLAN) 0 ch
  replanWith d 96 ((s.planned d).filter (fun c => s.get (.cch .xSTOP) c == 0 && s.get (.cch .xMOVE_AT) c == 0)) s

/-- A picture of the channel must not open: a die move is due, or a handover gives the picture to another module (R204,
R205). -/
def State.leaves (s : State) (ch n : Nat) : Bool :=
  (s.get (.cch .xMOVE_AT) ch != 0 && elapsedNs (s.get (.cch .xMOVE_AT) ch - 1) s.osc msNs) ||
  (s.get (.cch .xHO) ch == 2 && decide (s.get (.cch .xHO_PIC) ch ≤ n))

/-- A picture boundary of a running channel (R193). -/
def boundary (ch n : Nat) (s : State) : State :=
  if s.get (.cch .xSTOP) ch ≠ 0 then tryStop ch s
  else
    if s.mustRestart ch then restartAt ch n s
    else
      let s := s.when (s.flag (.cch .xREPLAN) ch) (replan ch)
      if s.get (.cch .xSTOP) ch ≠ 0 then tryStop ch s
      else goOn ch n s

/-- The picture that a running channel has not yet opened, at its boundary. -/
def State.newPic (s : State) (ch : Nat) : Option Nat :=
  let dom := s.chDom ch
  let n := s.picNow dom
  if s.rasterRuns dom && decide (s.get (.cch .xPIC) ch ≤ n) then some n else none

/-- PICTURE_BOUNDARY (R193). -/
def execPictureBoundary (ch : Chan) (now : Now) (s : State) : Host.Outcome State Fault Refusal :=
  s.runAt now (fun s => poolsSettle (s.when (s.chRuns ch) (fun s =>
    match s.newPic ch with
    | none => s
    | some n => if s.leaves ch n then s else boundary ch n s)))

-- Moves between dies (R204)

/-- MOVE_DIE is written (R204): a running channel leaves; a stopped one changes its home at once.
DEDUCED, log 69. -/
def moveReq (ch : Nat) (s : State) : State :=
  let st := s.get (.cch .STATUS_STATE) ch
  if st = chRUNNING then armMove ch s
  else if st = chSTOPPED then s.put (.cch .CTRL_HOME_DIE) (1 - s.get (.cch .CTRL_HOME_DIE) ch) ch
  else s

/-- A move that is refused leaves the channel running (R204).
DEDUCED, log 69. -/
def moveRefused (ch n : Nat) (why : List Nat) (s : State) : State :=
  let (v, s) := s.free
  let r := if why.contains whyFIT then whyFIT else why.getD (v % why.length) 0
  let s := (s.put (.cch .xMOVE_AT) 0 ch).put (.cch .CTRL_MOVE_DIE) 0 ch
  boundary ch n (chRefuse ch r (setChState ch chRUNNING s))

/-- The numbering of a channel's output goes on under its handle on another die (R204, R472). -/
def carrySeq (d e h : Nat) (s : State) : State :=
  let s := s.put (.shp .SEQ_NEXT) (s.get (.shp .SEQ_NEXT) d h) e h
  s.put (.shp .xMIRROR) (s.get (.shp .xMIRROR) d h) e h

/-- The boundary at which a die move takes effect (R204).
DEDUCED, log 69. -/
def dieMove (ch n : Nat) (s : State) : State :=
  let d := s.get (.cch .CTRL_HOME_DIE) ch
  let h := s.get (.cch .FLOW_OUT_FLOW) ch 0 1
  if !s.dieUp (1 - d) then moveRefused ch n [whyFIT] s
  else match startOn (1 - d) ch n false s with
    | .started t => goOn ch n (((carrySeq d (1 - d) h t).bump (.cch .CNT) ch 4).put (.cch .CTRL_MOVE_DIE) 0 ch)
    | .later t => boundary ch n t
    | .refused why => moveRefused ch n why s

/-- DIE_MOVE (R204). -/
def execDieMove (ch : Chan) (now : Now) (s : State) : Host.Outcome State Fault Refusal :=
  s.runAt now (fun s => poolsSettle (s.when (s.chRuns ch && s.get (.cch .STATUS_STATE) ch == chLEAVING && s.get (.cch .xMOVE_AT) ch != 0 &&
      elapsedNs (s.get (.cch .xMOVE_AT) ch - 1) s.osc msNs && s.get (.cch .xSTOP) ch == 0) (fun s =>
    match s.newPic ch with
    | none => s
    | some n => dieMove ch n s)))

-- Moves between modules (R205, R413, R473)

/-- `TTH_HO_TO` in ns (R67). -/
def State.hoToNs (s : State) : Nat := clampTo 1 1000 (s.get (.tth .HO_TO_MS)) * msNs

/-- The registers that an offer carries, with their offsets in a die window: the CCH bank, and the settings of QRC and REF. -/
def offerRegs : List (Nat × RegDef) :=
  ((cchRegs.filter (·.shadow)).map (fun r => (r.off, r))) ++
  ((qrcRegs.filter (fun r => r.fields.any (fun f => f.acc == .rw))).map (fun r => (0x20000 + r.off, r))) ++
  ((refRegs.filter (fun r => r.fields.any (fun f => f.acc == .rw))).map (fun r => (0x30000 + r.off, r)))

/-- The word of a channel's register in its active bank. -/
def State.offerWord (s : State) (ch : Nat) (r : RegDef) (j : Nat) : Nat :=
  r.fields.foldl (fun a f => a + (if f.acc == .rw then s.get f.fld ch j (if r.shadow then 1 else 0) * 2 ^ f.lo else 0)) 0

/-- The words of an offer (R205).
DEDUCED, log 71. -/
def State.offerBank (s : State) (ch : Nat) : List (Nat × Nat) :=
  offerRegs.flatMap (fun p => (List.range (match p.2.strides with
    | (_, n) :: _ => n
    | [] => 1)).map (fun j => (p.1 + 4 * j, s.offerWord ch p.2 j)))

/-- The highest HIR minor of a field that a channel's settings give a value other than 0 (R411, R413). -/
def State.offerMinor (s : State) (ch : Nat) : Nat :=
  (offerRegs.flatMap (fun p => p.2.fields)).foldl (fun a f => if s.get f.fld ch 0 1 ≠ 0 then max a f.fld.hirMinor else a) 0

/-- The link to a module that is up. -/
def State.linkTo (s : State) (m : Nat) : Option Nat :=
  ([0, 1, 2] : List Nat).find? (fun l => s.flag (.mid .TTH_REV_UP) l && s.get (.mid .xTTH_MOD) l == m + 1)

/-- The first picture of a domain whose boundary lies at least `ns` after the time base. -/
def State.picAfter (s : State) (dom ns : Nat) : Nat := s.boundaryFrom dom (s.tai + ns) / s.picTicks dom

/-- HANDOVER is written (R205): a running channel leaves, and the offer goes to the module that HO_MODULE names. -/
def handoverReq (ch : Nat) (s : State) : State :=
  let dom := s.chDom ch
  if s.get (.cch .STATUS_STATE) ch ≠ chRUNNING ∨ !s.rasterRuns dom then s
  else
    let d := s.get (.cch .CTRL_HOME_DIE) ch
    let m := s.get (.cch .CTRL_HO_MODULE) ch
    let h := s.chGet (.cch .FLOW_OUT_FLOW) ch
    let n := s.picAfter dom (2 * s.hoToNs)
    let s := ((s.put (.cch .CTRL_HANDOVER) 1 ch).put (.cch .xHO) 1 ch).put (.cch .xHO_PIC) n ch
    let s := ((s.put (.cch .xHO_DUE) (s.dueIn s.hoToNs) ch).put (.cch .xHO_FLOW) (h + 1) ch).put (.cch .xHO_DOM) dom ch
    let s := setChState ch chLEAVING s
    match s.linkTo m with
    | none => s
    | some l => (s.put (.cch .xHO_LINK) l ch).emit (.hoOffer m ⟨ch, s.offerBank ch, s.get (.shp .SEQ_NEXT) d h, n, s.offerMinor ch⟩)

/-- The words of an offer land in both banks of the channel's registers.
DEDUCED, log 71. -/
def takeOffer (o : Offer) (s : State) : State :=
  let d := s.get (.cch .CTRL_HOME_DIE) o.ch
  forEach o.bank (fun w s =>
    if offerRegs.any (fun p => p.1 ≤ w.1 ∧ w.1 < p.1 + 0x20) then
      match findReg (0x1000000 * (1 + d) + 0x100 * o.ch + w.1) with
      | some l => forEach (l.rd.fields.filter (fun f => f.acc == .rw)) (fun f s =>
          let x := bitsOf w.2 f.lo f.len
          if l.rd.shadow then (s.put f.fld x l.i l.j 0).put f.fld x l.i l.j 1 else s.put f.fld x l.i l.j l.k) s
      | none => s
    else s) s

/-- An offer arrives (R205, R413, R360): it is accepted where the channel of that number is STOPPED and fits its home die.
DEDUCED, log 114. -/
def offerMsg (l : Nat) (o : Offer) (s : State) : State :=
  if s.safe || !s.flag (.mid .TTH_REV_UP) l || decide (48 ≤ o.ch) then s
  else
    let t := takeOffer o s
    let d := t.get (.cch .CTRL_HOME_DIE) o.ch
    let fits := t.dieUp d && match startOn d o.ch o.picture true t with
      | .refused why => why.all (fun r => decide (whyFIT < r ∧ r ≠ whyFORMAT))
      | _ => true
    let ok := decide (o.hirMinor ≤ s.get (.mid .HIR_MINOR_MAX)) && s.get (.cch .STATUS_STATE) o.ch == chSTOPPED &&
      s.get (.cch .xHO) o.ch == 0 && fits
    let s := if ok then
        let t := ((t.put (.cch .xHO) 3 o.ch).put (.cch .xHO_PIC) o.picture o.ch).put (.cch .xHO_SEQ) o.nextSeq o.ch
        let h := t.get (.cch .FLOW_OUT_FLOW) o.ch 0 1
        ((t.put (.cch .xHO_LINK) l o.ch).put (.cch .xHO_FLOW) (h + 1) o.ch).put (.cch .xHO_DOM)
          (t.get (.cch .FMT_DOMAIN) o.ch 0 1) o.ch
      else s
    evPulse 903 o.ch (s.emit (.hoReply l o.ch ok))

/-- HANDOVER_OFFER (R205). -/
def execHandoverOffer (l : Link) (o : Offer) (now : Now) (s : State) : Host.Outcome State Fault Refusal :=
  s.runAt now (offerMsg l o)

/-- A handover that does not take place: the channel runs on (R205). -/
def handoverOff (ch : Nat) (s : State) : State :=
  let s := (s.put (.cch .xHO) 0 ch).put (.cch .CTRL_HANDOVER) 0 ch
  chRefuse ch whyFIT (setChState ch chRUNNING s)

/-- The receiver's answer arrives, and the offer ends (R205, R360).
DEDUCED, log 114. -/
def replyMsg (ch : Nat) (accept : Bool) (s : State) : State :=
  s.when (!s.safe && s.get (.cch .xHO) ch == 1 && s.get (.cch .STATUS_STATE) ch == chLEAVING) (fun s =>
    evPulse 903 ch (if accept then s.put (.cch .xHO) 2 ch else handoverOff ch s))

/-- HANDOVER_REPLY (R205). -/
def execHandoverReply (ch : Chan) (accept : Bool) (now : Now) (s : State) : Host.Outcome State Fault Refusal :=
  s.runAt now (replyMsg ch accept)

/-- No answer comes in time, and the offer ends (R67, R205, R360).
DEDUCED, log 114. -/
def hoTimeout (ch : Nat) (s : State) : State :=
  s.when (!s.safe && s.get (.cch .xHO) ch == 1 && s.expired (.cch .xHO_DUE) ch) (fun s =>
    evPulse 903 ch (raise 0x0B 2 (s.get (.cch .xHO_LINK) ch) 2 (handoverOff ch s)))

/-- TETHER_HO_TIMEOUT (R205). -/
def execTetherHoTimeout (ch : Chan) (now : Now) (s : State) : Host.Outcome State Fault Refusal := s.runAt now (hoTimeout ch)

/-- The sender's side of the target picture (R205, R473): it sends the number that follows, from its counter or, with its die
down, from the mirror; it codes nothing of the picture and stops after the one before.
DEDUCED, log 71. -/
def hoSend (ch : Nat) (s : State) : State :=
  let d := s.get (.cch .CTRL_HOME_DIE) ch
  let h := s.get (.cch .xHO_FLOW) ch - 1
  if s.dieUp d then
    let s := s.emit (.hoSeq ch (s.get (.shp .SEQ_NEXT) d h))
    let s := (s.put (.cch .xHO) 0 ch).bump (.cch .CNT) ch 4
    tryStop ch (s.put (.cch .xSTOP) 1 ch)
  else (s.emit (.hoSeq ch (s.get (.shp .xMIRROR) d h - 1))).put (.cch .xHO) 0 ch

/-- The receiver's side (R205): a channel start at the target picture, whose numbers go on from the one that the sender sends at the
boundary.
DEDUCED, log 71. -/
def hoTake (ch n next : Nat) (s : State) : State :=
  let d := s.get (.cch .CTRL_HOME_DIE) ch
  let h := s.get (.cch .xHO_FLOW) ch - 1
  let s := s.put (.cch .xHO) 0 ch
  s.when (s.dieUp d) (fun s =>
    let s := startAt ch n s
    s.when (s.get (.cch .STATUS_STATE) ch == chRUNNING) (fun s =>
      let d := s.get (.cch .CTRL_HOME_DIE) ch
      (s.put (.shp .SEQ_NEXT) next d h).bump (.cch .CNT) ch 4))

/-- The boundary of an armed handover's target picture (R205). `next` is the number that the sender's module sends. -/
def handoverPic (ch next : Nat) (s : State) : State :=
  let dom := s.get (.cch .xHO_DOM) ch
  let n := s.picNow dom
  if s.safe || !s.rasterRuns dom || decide (n < s.get (.cch .xHO_PIC) ch) then s
  else match s.get (.cch .xHO) ch with
    | 2 => hoSend ch s
    | 3 => s.when (s.get (.cch .STATUS_STATE) ch == chSTOPPED) (hoTake ch n next)
    | _ => s

/-- HANDOVER_PICTURE (R205). -/
def execHandoverPicture (ch : Chan) (m : HoMoment) (s : State) : Host.Outcome State Fault Refusal :=
  s.runAt m.now (fun s => poolsSettle (handoverPic ch m.nextSeq s))

/-- A tile group digest arrives (R206): a running tile of the group whose settings give another digest is marked. -/
def digestMsg (l grp digest : Nat) (s : State) : State :=
  let mine := (List.range 48).filter (fun ch => (s.get (.cch .STATUS_STATE) ch == chRUNNING ||
    s.get (.cch .STATUS_STATE) ch == chLEAVING) && s.get (.cch .TIME_TILE_GRP) ch 0 1 == grp)
  s.when (!s.safe && s.flag (.mid .TTH_REV_UP) l && grp != 0) (fun s =>
    forEach (mine.filter (fun ch => s.tileDigestOf ch != digest)) (fun ch s =>
      raise 0x03 2 ch 2 (s.put (.cch .STATUS_TILE_MISMATCH) 1 ch)) s)

/-- TILE_DIGEST (R206). -/
def execTileDigest (l : Link) (grp digest : Nat) (s : State) : Host.Outcome State Fault Refusal := s.run (digestMsg l grp digest)

-- The control register

/-- A write of `CCH_CTRL` (R207, R22): only in the home window. An action whose bit still reads 1 is not taken again (R12).
DEDUCED, log 70. -/
def cchCtrlWrite (d ch v : Nat) (s : State) : State :=
  if s.get (.cch .CTRL_HOME_DIE) ch ≠ d then s
  else
    let s := (s.put (.cch .CTRL_HO_MODULE) (bitsOf v 4 2) ch).put (.cch .CTRL_HO_SLOT) (bitsOf v 8 4) ch
    let s := (s.put (.cch .CTRL_ALT_DIE) (bitsOf v 13 1) ch).put (.cch .CTRL_PRIORITY) (bitsOf v 16 4) ch
    let s := s.when (bitOf v 0 && !s.flag (.cch .CTRL_START) ch) (requestStart ch)
    let s := s.when (bitOf v 1 && !s.flag (.cch .CTRL_STOP) ch) (stopChan ch)
    let s := s.when (bitOf v 2 && !s.flag (.cch .CTRL_MOVE_DIE) ch) (moveReq ch)
    s.when (bitOf v 3 && !s.flag (.cch .CTRL_HANDOVER) ch) (handoverReq ch)

/-- CCH_START (R207). -/
def execCchStart (p : Party) (d : Die) (ch : Chan) (v : Word) (s : State) : Host.Outcome State Fault Refusal :=
  s.run (gated p .cch (some d) (cchCtrlWrite d ch (withBits v.toNat 0 1 1)))

/-- CCH_STOP (R207). -/
def execCchStop (p : Party) (d : Die) (ch : Chan) (v : Word) (s : State) : Host.Outcome State Fault Refusal :=
  s.run (gated p .cch (some d) (cchCtrlWrite d ch (withBits v.toNat 1 1 1)))

/-- MOVE_DIE (R204). -/
def execMoveDie (p : Party) (d : Die) (ch : Chan) (v : Word) (s : State) : Host.Outcome State Fault Refusal :=
  s.run (gated p .cch (some d) (cchCtrlWrite d ch (withBits v.toNat 2 1 1)))

/-- HANDOVER (R205). -/
def execHandover (p : Party) (d : Die) (ch : Chan) (v : Word) (s : State) : Host.Outcome State Fault Refusal :=
  s.run (gated p .cch (some d) (cchCtrlWrite d ch (withBits v.toNat 3 1 1)))

/-- A write of `REF_CTRL` (R167).
DEDUCED, log 85. -/
def refCtrlWrite (d ch v : Nat) (s : State) : State :=
  s.when (s.get (.cch .CTRL_HOME_DIE) ch == d && bitOf v 0) (fun s => s.put (.ref .CTRL_DROP_LT) 1 ch)

/-- DROP_LT (R167). -/
def execDropLt (p : Party) (d : Die) (ch : Chan) (v : Word) (s : State) : Host.Outcome State Fault Refusal :=
  s.run (gated p .ref (some d) (refCtrlWrite d ch (withBits v.toNat 0 1 1)))

-- Starts that follow a die restart (R470, R472)

/-- A picture boundary of a domain has passed since the die came up (R37, R470).
DESIGN CHOICE, log 73. -/
def State.pastUp (s : State) (dom : Nat) : Bool :=
  s.rasterRuns dom && (s.get (.mid .xX_HOLD) dom == 0 ||
    decide (s.ticksAt dom (s.get (.mid .xX_HOLD) dom - 1) / s.picTicks dom < s.picNow dom))

/-- Step 6 of R470: the channels of a die that was restarted start again at their domain's boundary. -/
def resumeDie (d dom : Nat) (s : State) : State :=
  s.when (!s.safe && s.dieUp d && s.pastUp dom && !s.inWinter) (fun s =>
    forEach ((s.chansOf d).filter (fun ch => s.get (.cch .xRESUME) ch != 0 && s.get (.cch .xRESUME) ch != 3 &&
      s.get (.cch .STATUS_STATE) ch == chSTOPPED && s.get (.cch .FMT_DOMAIN) ch 0 1 == dom)) (fun ch s =>
        startAt ch (s.picNow dom) s) s)

/-- RESTART_CHANNEL_RESUME (R470). -/
def execRestartChannelResume (d : Die) (dom : Domain) (now : Now) (s : State) : Host.Outcome State Fault Refusal :=
  s.runAt now (fun s => poolsSettle (resumeDie d dom s))

/-- A register of a channel. -/
def pairOfChan (ch addr : Nat) : Bool :=
  match findReg addr with
  | some l => l.rd.mode == .chan && l.i == ch
  | none => false

/-- The first picture boundary of a channel's domain at least 1 ms after its die went down has come (R22). -/
def State.failoverDue (s : State) (ch : Nat) : Bool :=
  let dom := s.get (.cch .FMT_DOMAIN) ch 0 1
  let from' := s.get (.cch .xDOWN_TAI) ch + msNs
  s.rasterRuns dom && elapsedNs (s.get (.cch .xDOWN_AT) ch) s.osc msNs &&
  decide (s.boundaryFrom dom from' / s.picTicks dom ≤ s.picNow dom)

/-- A channel of a die that went down starts on the other die, with the settings of the records and the numbering of the mirror
(R22, R472). Of the channels that wait, the one of the highest priority goes first. One that does not fit waits for its die.
DESIGN CHOICE, log 73. -/
def failover (ch : Nat) (s : State) : State :=
  let d := s.get (.cch .CTRL_HOME_DIE) ch
  let e := 1 - d
  if s.safe || s.get (.cch .xRESUME) ch != 2 || !s.dieUp e || s.dieUp d || !s.failoverDue ch then s
  else
    let wait := (List.range 48).filter (fun c => s.get (.cch .CTRL_HOME_DIE) c == d && s.get (.cch .xRESUME) c == 2)
    let s := reloadPairs (fun a => wait.any (fun c => pairOfChan c a)) s
    let dom := s.get (.cch .FMT_DOMAIN) ch 0 1
    let pr := fun c => s.get (.cch .CTRL_PRIORITY) c
    let ahead := wait.any (fun c => s.get (.cch .FMT_DOMAIN) c 0 1 == dom && decide (pr c < pr ch ∨ (pr c = pr ch ∧ c < ch)))
    if ahead || !s.failoverDue ch then s
    else match startOn e ch (s.picNow dom) true s with
      | .started t =>
        let h := t.get (.cch .FLOW_OUT_FLOW) ch 0 1
        let m := t.get (.shp .xMIRROR) d h
        goOn ch (t.picNow dom) (t.when (m != 0) (fun t => t.put (.shp .SEQ_NEXT) (m - 1) e h))
      | .later t => t
      | .refused _ => s.put (.cch .xRESUME) 1 ch

/-- FAILOVER_START (R472). -/
def execFailoverStart (ch : Chan) (now : Now) (s : State) : Host.Outcome State Fault Refusal := s.runAt now (fun s => poolsSettle (failover ch s))

end Sys2Proof.Machine
end

