-- ==== Sys2Proof/Machine/Chk.lean ====
section
/-!
DEFINITION. The check-value units (R352 to R355): feeds, FINISH, and the context registers.
-/

namespace Sys2Proof.Machine

/-- The width, reflected polynomial or polynomial, and initial value of an algorithm (R352); the final XOR equals the initial
value for the two 32-bit algorithms and is 0 for the others. -/
def chkWidth (poly : Nat) : Nat := [32, 32, 16, 24].getD poly 32
def chkInit (poly : Nat) : Nat := [0xFFFFFFFF, 0xFFFFFFFF, 0xFFFF, 0xB704CE].getD poly 0
def chkXor (poly : Nat) : Nat := if poly < 2 then 0xFFFFFFFF else 0

/-- The running value of an algorithm over bytes (R352). -/
def chkRun (poly v : Nat) (l : List Byte) : Nat :=
  match poly with
  | 0 => crcR 0xEDB88320 v l
  | 1 => crcR 0x82F63B78 v l
  | 2 => crcL 16 0x1021 v l
  | _ => crcL 24 0x864CFB v l

/-- The algorithm of a unit. -/
def State.chkPoly (s : State) (d c : Nat) : Nat := s.get (.chk .CFG_POLY) d c

/-- The running value of a unit: bits above the width are not part of it (R352).
DEDUCED, log 111. -/
def State.chkVal (s : State) (d c : Nat) : Nat := s.get (.chk .VAL_VAL) d c % 2 ^ chkWidth (s.chkPoly d c)

/-- VALID clears, and the result reads 0 (R354). -/
def chkInvalid (d c : Nat) (s : State) : State := (s.put (.chk .RES_RES) 0 d c).put (.chk .RSTAT_VALID) 0 d c

/-- Bytes fed to a unit (R353). -/
def chkFeed (d c : Nat) (l : List Byte) (s : State) : State :=
  let v := chkRun (s.chkPoly d c) (s.chkVal d c) l
  let s := chkInvalid d c s
  let s := s.put (.chk .xFIN_AT) s.osc d c
  (s.bump (.chk .CNT_CNT) d c 0 l.length).put (.chk .VAL_VAL) v d c

/-- The low bytes of a value, most significant first, as CHK_FOLD feeds them (R353). -/
def State.foldBytes (s : State) (d c v : Nat) : List Byte :=
  let n := s.get (.chk .CFG_FOLD_W_M1) d c + 1
  beBytes n (v % 256 ^ n)

/-- START (R353, R354): it cancels a pending FINISH. -/
def chkStart (d c : Nat) (s : State) : State :=
  let s := (s.put (.chk .CNT_CNT) 0 d c).put (.chk .CFG_POISON) 0 d c
  (chkInvalid d c (s.put (.chk .CTRL_FINISH) 0 d c)).put (.chk .VAL_VAL) (chkInit (s.chkPoly d c)) d c

/-- The result that a unit's running value gives (R352). -/
def State.chkResult (s : State) (d c : Nat) : Nat := Nat.xor (s.chkVal d c) (chkXor (s.chkPoly d c))

/-- A FINISH takes effect: the result forms, and CHK_FIN asserts (R354, R360). -/
def chkFinish (d c : Nat) (s : State) : State :=
  let s := (s.put (.chk .CTRL_FINISH) 0 d c).bump (.chk .RSTAT_FIN_COUNT) d c
  let s := (s.put (.chk .RSTAT_POISON) (s.get (.chk .CFG_POISON) d c) d c).put (.chk .RSTAT_VALID) 1 d c
  evPulse (854 + 8 * d) c (s.put (.chk .RES_RES) (s.chkResult d c) d c)

/-- An access to a unit that a descriptor holds is ignored and sets LOST (R346). -/
def chkOpen (d c : Nat) (f : State → State) (s : State) : State :=
  if s.flag (.chk .CTRL_HELD) d c then s.put (.chk .CTRL_LOST) 1 d c else f s

/-- A write of `CHK_CTRL` (R353, R354, R346). A FINISH written while it still reads 1 has no effect (R12). -/
def chkCtrlWrite (d c v : Nat) (s : State) : State :=
  let fin := bitOf v 1 && !s.flag (.chk .CTRL_FINISH) d c
  let s := s.when (bitOf v 3) (fun s => s.put (.chk .CTRL_LOST) 0 d c)
  if v % 4 = 0 then s
  else chkOpen d c (fun s =>
    let s := s.when (bitOf v 0) (chkStart d c)
    s.when fin (fun s => (s.put (.chk .xFIN_AT) s.osc d c).put (.chk .CTRL_FINISH) 1 d c)) s

/-- The four bytes of a written word, lowest first (R353). -/
def chkDataWrite (d c v : Nat) (s : State) : State := chkOpen d c (chkFeed d c (leBytes 4 v)) s
def chkByteWrite (d c v : Nat) (s : State) : State := chkOpen d c (chkFeed d c (leBytes 1 v)) s
def chkFoldWrite (d c v : Nat) (s : State) : State := chkOpen d c (fun s => chkFeed d c (s.foldBytes d c v) s) s

/-- Writes of the context registers (R354, R355), in any order: the running value is the written word's bits below the width of the
algorithm in force, so that it is restored whole whether POLY is written before or after it. -/
def chkCfgWrite (d c v : Nat) (s : State) : State :=
  chkOpen d c (fun s =>
    let s := (chkInvalid d c s).put (.chk .CFG_FOLD_W_M1) (bitsOf v 2 2) d c
    (s.put (.chk .CFG_POISON) (bitsOf v 8 1) d c).put (.chk .CFG_POLY) (bitsOf v 0 2) d c) s
/-- DEDUCED, log 111. -/
def chkValWrite (d c v : Nat) (s : State) : State :=
  chkOpen d c (fun s => (chkInvalid d c s).put (.chk .VAL_VAL) v d c) s
def chkCntWrite (d c v : Nat) (s : State) : State :=
  chkOpen d c (fun s => (chkInvalid d c s).put (.chk .CNT_CNT) v d c) s

/-- CHK_DATA (R353). -/
def execChkData (p : Party) (d : Die) (c : ChkUnit) (v : Word) (s : State) : Host.Outcome State Fault Refusal :=
  s.run (gated p .chk (some d.val) (chkDataWrite d c v.toNat))

/-- CHK_DATA_B (R353). -/
def execChkDataB (p : Party) (d : Die) (c : ChkUnit) (v : Word) (s : State) : Host.Outcome State Fault Refusal :=
  s.run (gated p .chk (some d.val) (chkByteWrite d c v.toNat))

/-- CHK_FOLD (R353). -/
def execChkFold (p : Party) (d : Die) (c : ChkUnit) (v : Word) (s : State) : Host.Outcome State Fault Refusal :=
  s.run (gated p .chk (some d.val) (chkFoldWrite d c v.toNat))

/-- CHK_START (R353): a write of `CHK_CTRL` with START set. -/
def execChkStart (p : Party) (d : Die) (c : ChkUnit) (v : Word) (s : State) : Host.Outcome State Fault Refusal :=
  s.run (gated p .chk (some d.val) (chkCtrlWrite d c (withBits v.toNat 0 1 1)))

/-- FINISH (R354): a write of `CHK_CTRL` with FINISH set. -/
def execChkFinish (p : Party) (d : Die) (c : ChkUnit) (v : Word) (s : State) : Host.Outcome State Fault Refusal :=
  s.run (gated p .chk (some d.val) (chkCtrlWrite d c (withBits v.toNat 1 1 1)))

/-- FINISH_EFFECT (R354): 16 core clocks after the later of the FINISH write and the last feed. -/
def execChkFinishEffect (d : Die) (c : ChkUnit) (now : Now) (s : State) : Host.Outcome State Fault Refusal :=
  s.runAt now (fun s => s.when (!s.safe && s.dieUp d && s.flag (.chk .CTRL_FINISH) d c &&
    decide (s.get (.chk .xFIN_AT) d c + 16 ≤ s.osc)) (chkFinish d c))

/-- CHK_CONTEXT_WRITE (R355). -/
def execChkContextWrite (p : Party) (d : Die) (c : ChkUnit) (r : ChkCtx) (v : Word) (s : State) :
    Host.Outcome State Fault Refusal :=
  s.run (gated p .chk (some d.val) (fun s => match r with
    | .cfg => chkCfgWrite d c v.toNat s
    | .val => chkValWrite d c v.toNat s
    | .cnt => chkCntWrite d c v.toNat s))

end Sys2Proof.Machine
end

