-- ==== Sys2Proof/Machine/Dma.lean ====
section
/-!
DEFINITION. The DMA engines (R332 to R351): queues and rings, the checks of a descriptor, what each operation reads and
writes, the read-back and the completion record, and halts. The command of an operation runs the descriptor at HEAD up to
its read-back; DESC_COMPLETE ends it.
-/

namespace Sys2Proof.Machine

/-- A byte with its poison tag (R347). -/
abbrev TByte := Byte × Bool

/-- A place of bytes: space (0 DRAM, else 1 + port), address, and length. A DRAM address is group * 2^32 + offset. -/
structure Span where
  sp   : Nat
  addr : Nat
  len  : Nat
  deriving DecidableEq, Repr

/-- The party number that owns a queue: 0 HA, 1 HB, 2 the die's Ostler, 3 none (R332). -/
def State.qOwner (s : State) (d q : Nat) : Nat := s.get (.dma .Q_CFG_OWNER) d q

/-- A party is the owner of a queue. -/
def State.ownsQueue (s : State) (p : Party) (d q : Nat) : Bool :=
  match p with
  | .ha => s.qOwner d q == 0
  | .hb => s.qOwner d q == 1
  | .o0 => s.qOwner d q == 2 && d == 0
  | .o1 => s.qOwner d q == 2 && d == 1

/-- The space of a queue's host addresses and of its ring. -/
def State.qHost (s : State) (d q : Nat) : Nat := if s.qOwner d q = 2 then 0 else 1 + s.qOwner d q

/-- Slots of a ring (R333, R356). -/
def State.ringSize (s : State) (d q : Nat) : Nat := 2 ^ clampTo 4 15 (s.get (.dma .Q_CFG_RING_LOG2) d q)

/-- HEAD and TAIL as ring indexes. -/
def State.qHead (s : State) (d q : Nat) : Nat := s.get (.dma .Q_HEAD_HEAD) d q % s.ringSize d q
def State.qTail (s : State) (d q : Nat) : Nat := s.get (.dma .Q_TAIL_TAIL) d q % s.ringSize d q

/-- The address of the slot at HEAD. -/
def State.slotAddr (s : State) (d q : Nat) : Nat :=
  s.get (.dma .Q_RING_HI_BASE_HI) d q * 2 ^ 32 + s.get (.dma .Q_RING_LO_BASE_LO) d q * 64 + 64 * s.qHead d q

/-- A descriptor runs on a queue. -/
def State.qRuns (s : State) (d q : Nat) : Bool := !s.flag (.dma .Q_STATUS_IDLE) d q

/-- Descriptors that run on a die (R334). -/
def State.dmaRunning (s : State) (d : Nat) : Nat := ((List.range 32).filter (s.qRuns d)).length

/-- A queue has a descriptor at HEAD that may start (R334, R348, R351): it is enabled and owned, not halted, nothing of it runs and a
slot is posted. No descriptor starts from boundary E of an entry to Winter on. -/
def State.qReady (s : State) (d q : Nat) : Bool :=
  !s.safe && s.dieUp d && s.get (.pwr .xWIN_STEP) < 2 && decide (s.get (.pwr .STATUS_SEASON) < 2) && s.flag (.dma .Q_CFG_EN) d q &&
  decide (s.qOwner d q < 3) && !s.flag (.dma .Q_STATUS_HALTED) d q && !s.qRuns d q && s.qHead d q != s.qTail d q

/-- `n` bytes of a space, with their tags. `ep` lists the 64-byte host blocks whose completions have EP set (R347). -/
def State.readSpan (s : State) (ep : List Nat) (x : Span) : List TByte :=
  if x.sp = 0 then
    let g := x.addr / 2 ^ 32
    let o := x.addr % 2 ^ 32
    (List.range x.len).map (fun i => (s.dram.get (dramAddr g (o + i)), s.bytePoisoned g (o + i)))
  else (List.range x.len).map (fun i =>
    (s.host.get ((x.sp - 1) * 2 ^ 64 + x.addr + i), ep.contains ((x.addr + i) / 64)))

/-- Bytes written to a space. -/
def writeSpan (d q : Nat) (x : Nat × Nat) (l : List TByte) (s : State) : State :=
  let bytes := l.map (·.1)
  let old := (s.readSpan [] ⟨x.1, x.2, l.length⟩).map (·.1)
  let s : State := { s with undo := s.undo ++ [⟨d, q, x.1, x.2, old⟩] }
  if x.1 = 0 then
    let g := x.2 / 2 ^ 32
    let o := x.2 % 2 ^ 32
    let tags := fun i => (l.getD i (0, false)).2
    dramWrite g (l.length / 256 + 2) o bytes tags s
  else
    ({ s with host := s.host.write ((x.1 - 1) * 2 ^ 64 + x.2) bytes } : State).emit
      (.dmaWrite (x.1 - 1) x.2 bytes (l.any (·.2)))

/-- The words of a descriptor (R335). -/
structure Desc where
  w0 : Nat
  w1 : Nat
  w2 : Nat
  w3 : Nat
  w4 : Nat
  w5 : Nat
  deriving DecidableEq, Repr

/-- A descriptor from the bytes of its slot: little-endian words. -/
def descOf (l : List Byte) : Desc := ⟨leAt l 0 8, leAt l 8 8, leAt l 16 8, leAt l 24 8, leAt l 32 8, leAt l 40 8⟩

def Desc.op (x : Desc) : Nat := bitsOf x.w0 0 8
def Desc.evt (x : Desc) : Nat := bitsOf x.w0 8 1
def Desc.srcSp (x : Desc) : Nat := bitsOf x.w0 9 2
def Desc.dstSp (x : Desc) : Nat := bitsOf x.w0 11 2
def Desc.fmt (x : Desc) : Nat := bitsOf x.w0 16 4
def Desc.unit (x : Desc) : Nat := bitsOf x.w0 24 3
def Desc.chkEn (x : Desc) : Bool := bitOf x.w0 27
def Desc.chkFold (x : Desc) : Bool := bitOf x.w0 28
def Desc.chkFin (x : Desc) : Bool := bitOf x.w0 29
def Desc.len (x : Desc) : Nat := bitsOf x.w0 32 32
def Desc.lines (x : Desc) : Nat := bitsOf x.w5 0 16
def Desc.srcStride (x : Desc) : Nat := bitsOf x.w5 16 16
def Desc.dstStride (x : Desc) : Nat := bitsOf x.w5 32 16
def Desc.pixels (x : Desc) : Nat := bitsOf x.w5 48 16
def Desc.iface (x : Desc) : Nat := bitsOf x.w5 48 4

/-- Reserved bits of a descriptor (R335). -/
def Desc.reservedSet (x : Desc) : Bool := bitsOf x.w0 13 3 != 0 || bitsOf x.w0 20 4 != 0 || bitsOf x.w0 30 2 != 0

/-- The operations (R337). -/
def opNOP : Nat := 0
def opCOPY : Nat := 1
def opRESH_IN : Nat := 2
def opRESH_OUT : Nat := 3
def opDEINT : Nat := 4
def opINTER : Nat := 5
def opFILL : Nat := 6
def opCOMPARE : Nat := 7
def opCHECK : Nat := 8
def opRECV : Nat := 9
def opSEND : Nat := 10

/-- The statuses (R348). -/
def dsOK : Nat := 0
def dsMISMATCH : Nat := 1
def dsPOISONED : Nat := 2
def dsTRUNC : Nat := 3
def dsDROPPED : Nat := 4
def dsBAD_DESC : Nat := 5
def dsBAD_ADDR : Nat := 6
def dsOVERLAP : Nat := 7
def dsTIMEOUT : Nat := 8
def dsHOST_ERR : Nat := 9
def dsWB_FAIL : Nat := 10

/-- The mode that an operation needs: 0 MEM, 1 RX, 2 TX (R337). -/
def opMode (op : Nat) : Nat := if op = opRECV then 1 else if op = opSEND then 2 else 0

/-- A pgroup format (R341): bits of a sample, and whether it is 4:4:4. -/
def fmtBits (f : Nat) : Nat := [8, 10, 12, 16].getD (f % 4) 8
def fmt444 (f : Nat) : Bool := decide (4 ≤ f)

/-- Pixels of a pgroup (R341). -/
def fmtPixels (f : Nat) : Nat := [2, 2, 2, 2, 1, 4, 2, 1].getD f 1

/-- Samples and bytes of a pgroup line of `n` pixels. -/
def lineSamples (f n : Nat) : Nat := if fmt444 f then 3 * n else 2 * n
def groupLine (f n : Nat) : Nat := lineSamples f n * fmtBits f / 8

/-- Samples of a line of the Cb and Cr planes (R342). -/
def chromaLine (f n : Nat) : Nat := if fmt444 f then n else n / 2

/-- A plane or area of lines: its bytes run from its first byte to the last byte of its last line (R340). -/
def areaLen (lines stride line : Nat) : Nat := if lines = 0 then 0 else (lines - 1) * stride + line

/-- A queue's space for a space code: 0 HOST, 1 DRAM. -/
def spOf (host code : Nat) : Nat := if code = 1 then 0 else host

/-- The source and destination spans of a descriptor (R336, R340), as it gives them. -/
def Desc.spans (x : Desc) (host : Nat) : List Span × List Span :=
  let ss := spOf host x.srcSp
  let ds := spOf host x.dstSp
  let n := x.pixels
  let c := x.len / max 1 n
  let y := 3 * n
  let ch := 3 * chromaLine x.fmt n
  match x.op with
  | 1 => ([⟨ss, x.w1, x.len⟩], [⟨ds, x.w2, x.len⟩])
  | 2 => ([⟨ss, x.w1, areaLen x.lines x.srcStride (groupLine x.fmt n)⟩],
      [⟨ds, x.w2, areaLen x.lines x.dstStride y⟩, ⟨ds, x.w3, areaLen x.lines x.dstStride ch⟩,
       ⟨ds, x.w4, areaLen x.lines x.dstStride ch⟩])
  | 3 => ([⟨ss, x.w1, areaLen x.lines x.srcStride y⟩, ⟨ss, x.w3, areaLen x.lines x.srcStride ch⟩,
       ⟨ss, x.w4, areaLen x.lines x.srcStride ch⟩], [⟨ds, x.w2, areaLen x.lines x.dstStride (groupLine x.fmt n)⟩])
  | 4 => ([⟨ss, x.w1, x.len⟩], (List.range n).map (fun k => ⟨ds, x.w2 + k * x.dstStride, c⟩))
  | 5 => ((List.range n).map (fun k => ⟨ss, x.w1 + k * x.srcStride, c⟩), [⟨ds, x.w2, x.len⟩])
  | 6 => ([], [⟨ds, x.w2, x.len⟩])
  | 7 => ([⟨ss, x.w1, x.len⟩, ⟨ds, x.w2, x.len⟩], [])
  | 8 => ([⟨ss, x.w1, x.len⟩], [])
  | 9 => ([], [⟨ds, x.w2, x.len⟩])
  | 10 => ([⟨ss, x.w1, x.len⟩], [])
  | _ => ([], [])

/-- Two spans overlap (R340). -/
def Span.meets (a b : Span) : Bool :=
  a.sp == b.sp && decide (a.addr < b.addr + b.len) && decide (b.addr < a.addr + a.len)

/-- A COPY runs in descending order (R340). -/
def Desc.descends (x : Desc) (host : Nat) : Bool :=
  match x.spans host with
  | ([a], [b]) => x.op == opCOPY && a.meets b && decide (a.addr < b.addr)
  | _ => false

/-- Which spaces an operation uses. -/
def usesSrc (op : Nat) : Bool := [1, 2, 3, 4, 5, 7, 8, 10].contains op
def usesDst (op : Nat) : Bool := [1, 2, 3, 4, 5, 6, 7, 9].contains op

/-- BAD_DESC of a descriptor (R337, R342, R343, R345, R349, R350). -/
def State.badDesc (s : State) (d q : Nat) (x : Desc) : Bool :=
  let op := x.op
  let resh := op == opRESH_IN || op == opRESH_OUT
  let audio := op == opDEINT || op == opINTER
  let n := x.pixels
  let wide := if op = opRESH_IN then x.dstStride else x.srcStride
  let group := if op = opRESH_IN then x.srcStride else x.dstStride
  let stride := if op = opDEINT then x.dstStride else x.srcStride
  decide (opSEND < op) || s.get (.dma .Q_CFG_MODE) d q != opMode op || x.reservedSet ||
  (usesSrc op && decide (1 < x.srcSp)) || (usesDst op && decide (1 < x.dstSp)) ||
  (op != opNOP && !resh && x.len == 0) ||
  (resh && (decide (7 < x.fmt) || n == 0 || n % fmtPixels x.fmt != 0 || x.lines == 0 ||
    decide (wide < 3 * n) || decide (group < groupLine x.fmt n))) ||
  (audio && (n == 0 || decide (64 < n) || x.len % (3 * n) != 0 || decide (stride < x.len / n))) ||
  (x.chkEn && (op == opNOP || op == opRESH_IN || op == opDEINT || op == opCOMPARE || x.descends (s.qHost d q))) ||
  (op == opRECV && x.chkEn && x.chkFold) ||
  (op == opSEND && (decide (x.len < 60) || decide (s.mtu x.iface - 4 < x.len)))

/-- A span may not be accessed (R336). -/
def State.badSpan (s : State) (d q : Nat) (x : Span) : Bool :=
  if x.sp = 0 then
    let g := x.addr / 2 ^ 32
    let o := x.addr % 2 ^ 32
    decide (2 ^ 35 ≤ x.addr) || g / 4 != d || decide (2 ^ 32 < o + x.len) ||
    (s.qOwner d q != 2 && !s.bufs.any (fun b => b.grp == g && b.owner == hostOwner (s.qOwner d q) &&
      decide (s.bufAddr b ≤ o ∧ o + x.len ≤ s.bufAddr b + classSize b.cls)))
  else decide (2 ^ 64 < x.addr + x.len)

/-- BAD_ADDR of a descriptor (R336, R350). -/
def State.badAddr (s : State) (d q : Nat) (x : Desc) : Bool :=
  let host := s.qHost d q
  let (a, b) := x.spans host
  (host == 0 && ((usesSrc x.op && x.srcSp == 0) || (usesDst x.op && x.dstSp == 0))) || (a ++ b).any (s.badSpan d q) ||
  (x.op == opSEND && (ifaceDie x.iface != d ||
    decide (subPorts (s.get (.prs .PORT_CFG_MODE) (ifaceDie x.iface) (x.iface / 4 % 2)) ≤ x.iface % 4) ||
    !bitOf (s.get (.prs .PORT_CFG_EN) (ifaceDie x.iface) (x.iface / 4 % 2)) (x.iface % 4)))

/-- A list of spans with two that overlap. -/
def anyMeet : List Span → Bool
  | [] => false
  | a :: t => t.any a.meets || anyMeet t

/-- OVERLAP of a reshuffle (R340). -/
def Desc.overlap (x : Desc) (host : Nat) : Bool :=
  let (a, b) := x.spans host
  [opRESH_IN, opRESH_OUT, opDEINT, opINTER].contains x.op && (anyMeet b || a.any (fun p => b.any p.meets))

/-- The refusal of a descriptor, if any: the first that applies of the three (R348). -/
def State.refusal (s : State) (d q : Nat) (x : Desc) : Option Nat :=
  if s.badDesc d q x then some dsBAD_DESC
  else if s.badAddr d q x then some dsBAD_ADDR
  else if x.overlap (s.qHost d q) then some dsOVERLAP
  else none

/-- A sample with the tag of the bytes that it came from. -/
abbrev Sample := Nat × Bool

/-- Sample `k` of `w` bits of a packed line (R341). -/
def unpackSample (w : Nat) (l : List TByte) (n k : Nat) : Sample :=
  let lo := k * w / 8
  let hi := (k * w + w - 1) / 8
  (n / 2 ^ (8 * l.length - (k + 1) * w) % 2 ^ w, ((l.drop lo).take (hi + 1 - lo)).any (·.2))

/-- The samples of a packed line. -/
def unpackLine (f pixels : Nat) (l : List TByte) : List Sample :=
  let n := beNat (l.map (·.1))
  (List.range (lineSamples f pixels)).map (unpackSample (fmtBits f) l n)

/-- The samples of a line that go to plane 0 (Y), 1 (Cb) or 2 (Cr), in order (R341). -/
def planeOf (f p : Nat) (l : List Sample) : List Sample :=
  if fmt444 f then
    let o := [1, 0, 2].getD p 0
    ((List.range (l.length / 3)).map (fun m => l.getD (3 * m + o) (0, false)))
  else if p = 0 then (List.range (l.length / 2)).map (fun m => l.getD (2 * m + 1) (0, false))
  else (List.range (l.length / 4)).map (fun m => l.getD (4 * m + 2 * (p - 1)) (0, false))

/-- The samples of a packed line from its planes. -/
def weave (f : Nat) (y cb cr : List Sample) : List Sample :=
  if fmt444 f then ((List.range y.length).map (fun m => [cb.getD m (0, false), y.getD m (0, false), cr.getD m (0, false)])).flatten
  else ((List.range (y.length / 2)).map (fun m =>
    [cb.getD m (0, false), y.getD (2 * m) (0, false), cr.getD m (0, false), y.getD (2 * m + 1) (0, false)])).flatten

/-- A sample in its container (R342). -/
def container (x : Sample) : List TByte := (beBytes 3 x.1).map (fun b => (b, x.2))

/-- The sample in a container: bits above the depth are ignored (R342). -/
def fromContainer (w : Nat) (l : List TByte) : Sample := (beNat (l.map (·.1)) % 2 ^ w, l.any (·.2))

/-- A list cut into pieces of three. -/
def triples : List TByte → List (List TByte)
  | a :: b :: c :: t => [a, b, c] :: triples t
  | _ => []

/-- The bytes of a packed line. -/
def packLine (w : Nat) (l : List Sample) : List TByte :=
  let n := l.foldl (fun a x => a * 2 ^ w + x.1 % 2 ^ w) 0
  let len := l.length * w / 8
  let bytes := beBytes len n
  (bytes.zip (List.range len)).map (fun b =>
    let lo := 8 * b.2 / w
    let hi := (8 * b.2 + 7) / w
    (b.1, ((l.drop lo).take (hi + 1 - lo)).any (·.2)))

/-- What an operation writes: pieces in the destination order of R347, each with its space, address and bytes. -/
abbrev Pieces := List (Nat × Nat × List TByte)

/-- The pieces of a memory operation (R340 to R344). -/
def State.pieces (s : State) (ep : List Nat) (host : Nat) (x : Desc) : Pieces :=
  let ss := spOf host x.srcSp
  let ds := spOf host x.dstSp
  let n := x.pixels
  let rd := fun a len => s.readSpan ep ⟨ss, a, len⟩
  match x.op with
  | 1 => [(ds, x.w2, rd x.w1 x.len)]
  | 2 =>
    let ls := (List.range x.lines).map (fun l => unpackLine x.fmt n (rd (x.w1 + l * x.srcStride) (groupLine x.fmt n)))
    let plane := fun p base => (ls.zip (List.range x.lines)).map (fun l =>
      (ds, base + l.2 * x.dstStride, ((planeOf x.fmt p l.1).map container).flatten))
    plane 0 x.w2 ++ plane 1 x.w3 ++ plane 2 x.w4
  | 3 =>
    let w := fmtBits x.fmt
    let line := fun base l k => (triples (rd (base + l * x.srcStride) (3 * k))).map (fromContainer w)
    (List.range x.lines).map (fun l => (ds, x.w2 + l * x.dstStride,
      packLine w (weave x.fmt (line x.w1 l n) (line x.w3 l (chromaLine x.fmt n)) (line x.w4 l (chromaLine x.fmt n)))))
  | 4 =>
    (List.range n).map (fun c => (ds, x.w2 + c * x.dstStride,
      ((List.range (x.len / (3 * n))).map (fun k => rd (x.w1 + 3 * (k * n + c)) 3)).flatten))
  | 5 =>
    [(ds, x.w2, ((List.range (x.len / (3 * n))).map (fun k =>
      ((List.range n).map (fun c => rd (x.w1 + c * x.srcStride + 3 * k) 3)).flatten)).flatten)]
  | 6 => [(ds, x.w2, (List.range x.len).map (fun j => (BitVec.ofNat 8 (x.w3 / 256 ^ (j % 8)), false)))]
  | _ => []

/-- The bytes of pieces in destination order. -/
def Pieces.bytes (l : Pieces) : List TByte := (l.map (·.2.2)).flatten

/-- The number of bytes before the first poisoned one (R347). -/
def firstTag (l : List TByte) : Option Nat := l.findIdx? (·.2)

/-- The numbers of the poisoned bytes. -/
def allTags (l : List TByte) : List Nat := (l.zipIdx.filter (·.1.2)).map (·.2)

/-- The first difference or poison of two ranges (R344). -/
def compareAt : Nat → List TByte → List TByte → Nat × Nat
  | i, a :: x, b :: y =>
    if a.2 || b.2 then (dsPOISONED, i) else if a.1 != b.1 then (dsMISMATCH, i) else compareAt (i + 1) x y
  | _, _, _ => (dsOK, 0xFFFFFFFF)

/-- The running descriptor has the status and RESULT that it will complete with, unless its read-back says otherwise. -/
def setResult (d q st res : Nat) (s : State) : State := (s.put (.dma .xST) st d q).put (.dma .xRES) res d q

/-- The pieces written, with the read-back that follows: of the last byte written, and whether what it reads back there
was written from tagged data (R339). -/
def writePieces (d q : Nat) (l : Pieces) (s : State) : State :=
  let s := forEach l (fun p s => writeSpan d q (p.1, p.2.1) p.2.2 s) s
  match l.getLast? with
  | none => s
  | some p =>
    let last := p.2.1 + p.2.2.length - 1
    let unit := if p.1 = 0 then 64 else 4
    let tail := p.2.2.drop (p.2.2.length - min p.2.2.length (last % unit + 1))
    ((s.put (.dma .xRB) (if p.1 = 0 then 1 else 2) d q).put (.dma .xRB_LAST) last d q).putB (.dma .xRBTAG) (tail.any (·.2)) d q

/-- Bytes fed to the unit of a descriptor, after the address that CHK_FOLD folds (R345, R347). -/
def feedUnit (d : Nat) (x : Desc) (fold : Nat) (l : List TByte) (s : State) : State :=
  if !x.chkEn then s
  else
    let c := x.unit
    let s := s.when x.chkFold (fun s => chkFeed d c (s.foldBytes d c fold) s)
    let s := s.when (l.any (·.2)) (fun s => s.put (.chk .CFG_POISON) 1 d c)
    chkFeed d c (l.map (·.1)) s

/-- A memory operation that writes (R337 to R347). -/
def runWrites (d q : Nat) (ep : List Nat) (x : Desc) (s : State) : State :=
  let l := s.pieces ep (s.qHost d q) x
  let s := feedUnit d x x.w2 l.bytes (writePieces d q l s)
  match firstTag l.bytes with
  | some k => setResult d q dsPOISONED k s
  | none => setResult d q dsOK 0 s

/-- COMPARE (R344). -/
def runCompare (d q : Nat) (ep : List Nat) (x : Desc) (s : State) : State :=
  let host := s.qHost d q
  let r := compareAt 0 (s.readSpan ep ⟨spOf host x.srcSp, x.w1, x.len⟩) (s.readSpan ep ⟨spOf host x.dstSp, x.w2, x.len⟩)
  setResult d q r.1 r.2 s

/-- CHECK (R345). -/
def runCheck (d q : Nat) (ep : List Nat) (x : Desc) (s : State) : State :=
  feedUnit d x x.w1 (s.readSpan ep ⟨spOf (s.qHost d q) x.srcSp, x.w1, x.len⟩) (setResult d q dsOK 0 s)

/-- RECV (R349): the oldest waiting frame, up to LEN bytes.
DEDUCED, log 59. -/
def runRecv (d q : Nat) (x : Desc) (s : State) : State :=
  match s.rxs.find? (fun r => r.die == d && r.q == q) with
  | none => s
  | some r => match s.chain? r.chain with
    | none => s
    | some c =>
      let body : List TByte := ((c.data.zip (List.range c.data.length)).map (fun b => (b.1, c.poison.contains b.2))).take x.len
      let l : Pieces := [(spOf (s.qHost d q) x.dstSp, x.w2, body)]
      let s := feedUnit d x 0 body (writePieces d q l s)
      let (v, s) := match r.handle with
        | some h => (h, s)
        | none => s.free
      let w5 := c.info.flags % 2 ^ 16 + v % 2 ^ 12 * 2 ^ 16 + c.iface % 8 * 2 ^ 28
      let at' := s.get (.dma .xSLOT) d q
      let s := writeSpan d q (at' / 2 ^ 64, at' % 2 ^ 64 + 32) ((leBytes 6 c.ts).map (·, false)) s
      let s := writeSpan d q (at' / 2 ^ 64, at' % 2 ^ 64 + 40) ((leBytes 4 w5).map (·, false)) s
      let s := (s.put (.dma .xCHAIN) (r.chain + 1) d q).bump (.dma .CNT) d 3
      match firstTag body with
      | some k => setResult d q dsPOISONED k s
      | none => setResult d q (if x.len < c.data.length then dsTRUNC else dsOK) c.data.length s

/-- SEND (R350): the frame goes into cells charged to the queue's owner and passes to PORT_OUT, in class 0.
DEDUCED, log 59. -/
def runSend (d q : Nat) (ep : List Nat) (x : Desc) (s : State) : State :=
  let body := s.readSpan ep ⟨spOf (s.qHost d q) x.srcSp, x.w1, x.len⟩
  let o := 56 + s.qOwner d q
  if !s.availCells d o (cellsFor (x.len + 4)) then setResult d q dsDROPPED 0 (s.bump (.dma .CNT) d 5)
  else
    let bad := firstTag body
    let s := s.when bad.isSome (fun s => s.bump (.pdk .CNT) d 6)
    let (id, s) := newChain d o (body.map (·.1)) x.iface (s.tai % 2 ^ 48) (allTags body) noMeta s
    let port := 49 + 2 * (x.iface / 4)
    let s := match moveHolder id port s with
      | some s => queueCopy ⟨id, d, x.iface, 0, none, false, false, false, 0, 0, 8, 0, 0, false, true, 0, 0, 0⟩ (x.len + 4) s
      | none => shapeDrop d none 1 (s.bump (.pdk .CNT) d 8)
    let s := poolSettle d (freeIfUnused id s)
    let s := feedUnit d x x.w1 body s
    match bad with
    | some k => setResult d q dsPOISONED k s
    | none => setResult d q dsOK 0 s

/-- The timeout of a descriptor in ns (R67). -/
def State.qToNs (s : State) (d q : Nat) : Nat := clampTo 1 65535 (s.get (.dma .Q_TO_TO) d q) * usNs

/-- A unit is free for a descriptor (R346). -/
def State.unitFree (s : State) (d : Nat) (x : Desc) : Bool :=
  !x.chkEn || (!s.flag (.chk .CTRL_HELD) d x.unit && !s.flag (.chk .CTRL_FINISH) d x.unit)

/-- A descriptor starts (R334, R346, R348).
DESIGN CHOICE, log 56. -/
def startDesc (d q : Nat) (x : Desc) (s : State) : State :=
  let s := s.when (s.get (.dma .xDUE) d q == 0) (fun s => s.put (.dma .xDUE) (s.dueIn (s.qToNs d q)) d q)
  let s := ((s.put (.dma .Q_STATUS_IDLE) 0 d q).put (.dma .xOP) x.op d q).put (.dma .xEVT) x.evt d q
  let s := s.when x.chkEn (fun s => (s.put (.chk .CTRL_HELD) 1 d x.unit).put (.dma .xUNIT) (x.unit + 1) d q)
  let s := (s.putB (.dma .xFIN) (x.chkEn && x.chkFin) d q).put (.dma .xSLOT) (s.qHost d q * 2 ^ 64 + s.slotAddr d q) d q
  (s.put (.dma .xRB) 0 d q).put (.dma .xRBTAG) 0 d q

/-- A refused descriptor runs to its completion without its unit and accesses nothing (R348). -/
def startRefused (d q st : Nat) (x : Desc) (s : State) : State :=
  let s := s.when (s.get (.dma .xDUE) d q == 0) (fun s => s.put (.dma .xDUE) (s.dueIn (s.qToNs d q)) d q)
  let s := ((s.put (.dma .Q_STATUS_IDLE) 0 d q).put (.dma .xOP) x.op d q).put (.dma .xEVT) x.evt d q
  let s := (s.put (.dma .xUNIT) 0 d q).put (.dma .xFIN) 0 d q
  let s := s.put (.dma .xSLOT) (s.qHost d q * 2 ^ 64 + s.slotAddr d q) d q
  setResult d q st 0 ((s.put (.dma .xRB) 0 d q).put (.dma .xRBTAG) 0 d q)

/-- A halt (R348): the queue's event and the Contained fault DMA_HALT. -/
def haltQueue (d q detail : Nat) (s : State) : State :=
  let s := (s.put (.dma .Q_STATUS_HALTED) 1 d q).bump (.dma .CNT) d 6
  evPulse (768 + 32 * d + q) (s.get (.dma .Q_HEAD_HEAD) d q % 2 ^ 14) (raise 0x48 d q detail s)

/-- A fetch that fails or reads poison (R348). The spec gives no status for it to stand in the fault's DETAIL.
DESIGN CHOICE, log 58. -/
def fetchFail (d q : Nat) (s : State) : State :=
  let (v, s) := s.free
  haltQueue d q (v % 256) (s.put (.dma .Q_STATUS_FETCH_ERR) 1 d q)

/-- The bytes of the slot at HEAD. A slot that lies in no memory of the queue's ring cannot be fetched, and stands as poison
(R333, R336, R348). -/
def State.slotBytes (s : State) (d q : Nat) : List TByte :=
  let x : Span := ⟨s.qHost d q, s.slotAddr d q, 64⟩
  if s.badSpan d q x then List.replicate 64 (0, true) else s.readSpan [] x

/-- The descriptor at HEAD. -/
def State.headDesc (s : State) (d q : Nat) : Desc := descOf ((s.slotBytes d q).map (·.1))

/-- A descriptor reads host memory. -/
def Desc.readsHost (x : Desc) (host : Nat) : Bool := ((x.spans host).1).any (fun a => a.sp != 0)

/-- The running descriptor of a queue does its work.
DESIGN CHOICE, log 56. -/
def runOp (d q : Nat) (ep : List Nat) (x : Desc) (s : State) : State :=
  match x.op with
  | 0 => setResult d q dsOK 0 s
  | 7 => runCompare d q ep x s
  | 8 => runCheck d q ep x s
  | 9 => runRecv d q x s
  | 10 => runSend d q ep x s
  | _ => runWrites d q ep x s

/-- Old and new bytes of a descriptor's destination are left mixed, in a way that the spec leaves open (R348).
DESIGN CHOICE, log 57. -/
def mixBack (d q : Nat) (s : State) : State :=
  let mine := s.undo.filter (fun u => u.die == d && u.q == q)
  let s : State := { s with undo := s.undo.filter (fun u => !(u.die == d && u.q == q)) }
  forEach mine.reverse (fun u s =>
    let (v, s) := s.free
    let now := (s.readSpan [] ⟨u.sp, u.addr, u.old.length⟩).map (·.1)
    let mix := ((u.old.zip now).zip (List.range u.old.length)).map (fun p => if bitOf v p.2 then p.1.1 else p.1.2)
    if u.sp = 0 then dramStore (u.addr / 2 ^ 32) (u.addr % 2 ^ 32) mix s
    else { s with host := s.host.write ((u.sp - 1) * 2 ^ 64 + u.addr) mix }) s

/-- The unit of a descriptor is no longer held. -/
def dropUnit (d q : Nat) (s : State) : State :=
  let u := s.get (.dma .xUNIT) d q
  s.when (u != 0) (fun s => (s.put (.chk .CTRL_HELD) 0 d (u - 1)).put (.dma .xUNIT) 0 d q)

/-- The frame that a RECV has taken leaves its queue (R349). -/
def dropTaken (d q : Nat) (s : State) : State :=
  let c := s.get (.dma .xCHAIN) d q
  if c = 0 then s
  else
    let s : State := { s with rxs := s.rxs.eraseP (fun r => r.die == d && r.q == q) }
    poolSettle d (dropRef (c - 1) (s.put (.dma .xCHAIN) 0 d q))

/-- The completion of the running descriptor (R334, R345, R348): the unit finishes, word 7 is written whole, HEAD advances and
the event is raised. -/
def complete (d q st res : Nat) (s : State) : State :=
  let halts := decide (dsTIMEOUT ≤ st)
  let u := s.get (.dma .xUNIT) d q
  let fin := s.flag (.dma .xFIN) d q && u != 0 && !halts && st != dsDROPPED
  let s := s.when fin (chkFinish d (u - 1))
  let res := if fin ∧ s.get (.dma .xOP) d q = opCHECK then s.get (.chk .RES_RES) d (u - 1) else res
  let s := dropTaken d q (dropUnit d q s)
  let at' := s.get (.dma .xSLOT) d q
  let s := writeSpan d q (at' / 2 ^ 64, at' % 2 ^ 64 + 56) ((leBytes 8 (st + 2 ^ 8 + res * 2 ^ 32)).map (·, false)) s
  let s : State := { s with undo := s.undo.filter (fun x => !(x.die == d && x.q == q)) }
  let s := s.bump (.dma .CNT) d 0
  let s := s.when (decide (dsBAD_DESC ≤ st ∧ st ≤ dsOVERLAP)) (fun s => s.bump (.dma .CNT) d 1)
  let s := s.when (st == dsPOISONED) (fun s => s.bump (.dma .CNT) d 2)
  let s := ((s.put (.dma .xDUE) 0 d q).put (.dma .xRB) 0 d q).put (.dma .Q_STATUS_IDLE) 1 d q
  let s := s.put (.dma .Q_STATUS_LAST_STATUS) st d q
  let s := s.put (.dma .Q_HEAD_HEAD) ((s.qHead d q + 1) % s.ringSize d q) d q
  if halts then haltQueue d q st s
  else s.when (s.flag (.dma .xEVT) d q) (evPulse (768 + 32 * d + q) (s.get (.dma .Q_HEAD_HEAD) d q % 2 ^ 14))

/-- A running descriptor that halts its queue: its destination is left mixed, and RESULT is 0 (R348). -/
def completeHalt (d q st : Nat) (s : State) : State := complete d q st 0 (mixBack d q s)

/-- A queue contends for an engine slot (R334): it is ready, an RX queue has a frame for its RECV (R349), and a descriptor does not wait
for its check-value unit (R346). -/
def State.qContends (s : State) (d q : Nat) : Bool :=
  s.qReady d q && !(s.get (.dma .Q_CFG_MODE) d q == 1 && s.rxWaiting d q == 0) && s.unitFree d (s.headDesc d q)

/-- Queue `a` is granted before queue `b` (R334): the higher PRIO, then in increasing number from the queue after the last granted. -/
def State.qBefore (s : State) (d a b : Nat) : Bool :=
  let pa := s.get (.dma .Q_CFG_PRIO) d a
  let pb := s.get (.dma .Q_CFG_PRIO) d b
  let far := fun q => (q + 31 - s.get (.dma .xLAST_Q) d) % 32
  decide (pb < pa ∨ (pa = pb ∧ far a < far b))

/-- A queue is granted one of the free ones of the eight engine slots (R334).
DESIGN CHOICE, log 56. -/
def State.qGranted (s : State) (d q : Nat) : Bool :=
  decide (((List.range 32).filter (fun a => s.qContends d a && s.qBefore d a q)).length + s.dmaRunning d < 8)

/-- The descriptor at HEAD of a queue starts and does its work, where its operation is one of `ops` (R334 to R350). -/
def dmaStart (d q : Nat) (ops : Nat → Bool) (env : DmaEnv) (s : State) : State :=
  if !s.qReady d q || !s.qGranted d q then s
  else if !env.fetchOk || (s.slotBytes d q).any (·.2) then fetchFail d q s
  else
    let x := s.headDesc d q
    if !ops x.op || (x.op == opRECV && s.get (.dma .Q_CFG_MODE) d q == 1 && s.rxWaiting d q == 0) then s
    else match s.refusal d q x with
      | some st => startRefused d q st x (s.put (.dma .xLAST_Q) q d)
      | none =>
        if !s.unitFree d x then
          s.when (s.get (.dma .xDUE) d q == 0) (fun s => s.put (.dma .xDUE) (s.dueIn (s.qToNs d q)) d q)
        else
          let s := startDesc d q x (s.put (.dma .xLAST_Q) q d)
          let s := runOp d q env.ep x s
          if env.hostErr && x.readsHost (s.qHost d q) then completeHalt d q dsHOST_ERR s else s

/-- The commands of the operations. -/
def dmaOp (op : Nat) (d : Die) (q : Queue) (env : DmaEnv) (now : Now) (s : State) : Host.Outcome State Fault Refusal :=
  s.runAt now (dmaStart d q (· == op) env)

/-- NOP (R337). -/
def execDmaNop (d : Die) (q : Queue) (env : DmaEnv) (now : Now) (s : State) : Host.Outcome State Fault Refusal :=
  dmaOp 0 d q env now s

/-- COPY (R337, R340). -/
def execDmaCopy (d : Die) (q : Queue) (env : DmaEnv) (now : Now) (s : State) : Host.Outcome State Fault Refusal :=
  dmaOp 1 d q env now s

/-- RESH_IN (R341, R342). -/
def execDmaReshIn (d : Die) (q : Queue) (env : DmaEnv) (now : Now) (s : State) : Host.Outcome State Fault Refusal :=
  dmaOp 2 d q env now s

/-- RESH_OUT (R341, R342). -/
def execDmaReshOut (d : Die) (q : Queue) (env : DmaEnv) (now : Now) (s : State) : Host.Outcome State Fault Refusal :=
  dmaOp 3 d q env now s

/-- DEINT (R343). -/
def execDmaDeint (d : Die) (q : Queue) (env : DmaEnv) (now : Now) (s : State) : Host.Outcome State Fault Refusal :=
  dmaOp 4 d q env now s

/-- INTER (R343). -/
def execDmaInter (d : Die) (q : Queue) (env : DmaEnv) (now : Now) (s : State) : Host.Outcome State Fault Refusal :=
  dmaOp 5 d q env now s

/-- FILL (R344). -/
def execDmaFill (d : Die) (q : Queue) (env : DmaEnv) (now : Now) (s : State) : Host.Outcome State Fault Refusal :=
  dmaOp 6 d q env now s

/-- COMPARE (R344). -/
def execDmaCompare (d : Die) (q : Queue) (env : DmaEnv) (now : Now) (s : State) : Host.Outcome State Fault Refusal :=
  dmaOp 7 d q env now s

/-- CHECK (R345). -/
def execDmaCheck (d : Die) (q : Queue) (env : DmaEnv) (now : Now) (s : State) : Host.Outcome State Fault Refusal :=
  dmaOp 8 d q env now s

/-- RECV (R349). -/
def execDmaRecv (d : Die) (q : Queue) (env : DmaEnv) (now : Now) (s : State) : Host.Outcome State Fault Refusal :=
  dmaOp 9 d q env now s

/-- SEND (R350). -/
def execDmaSend (d : Die) (q : Queue) (env : DmaEnv) (now : Now) (s : State) : Host.Outcome State Fault Refusal :=
  dmaOp 10 d q env now s

/-- DMA_OP_RESERVED (R337): a reserved operation is refused with BAD_DESC. -/
def execDmaOpReserved (d : Die) (q : Queue) (env : DmaEnv) (now : Now) (s : State) : Host.Outcome State Fault Refusal :=
  s.runAt now (dmaStart d q (fun op => decide (opSEND < op)) env)

/-- The block that a DRAM read-back returns is poisoned as it is stored (R339, R317). -/
def State.backPoison (s : State) (d q : Nat) : Bool :=
  let a := s.get (.dma .xRB_LAST) d q
  s.get (.dma .xRB) d q == 1 && s.bytePoisoned (a / 2 ^ 32) (a % 2 ^ 32)

/-- The FINISH of the running descriptor has not yet taken effect: 16 core clocks after the last byte fed (R345, R354). -/
def State.finWaits (s : State) (d q : Nat) : Bool :=
  let u := s.get (.dma .xUNIT) d q
  s.flag (.dma .xFIN) d q && u != 0 && decide (s.osc < s.get (.chk .xFIN_AT) d (u - 1) + 16)

/-- The read-back of the running descriptor returns (R339). It completes once a FINISH that it owes has taken effect (R345). -/
def descComplete (d q : Nat) (rb : ReadBack) (s : State) : State :=
  if s.safe || !s.dieUp d || !s.qRuns d q || s.finWaits d q then s
  else
    let st := s.get (.dma .xST) d q
    let kind := s.get (.dma .xRB) d q
    if kind = 2 ∧ rb.hostErr then completeHalt d q dsHOST_ERR s
    else if kind ≠ 0 ∧ (rb.poison || s.backPoison d q) ∧ !s.flag (.dma .xRBTAG) d q then completeHalt d q dsWB_FAIL s
    else complete d q st (s.get (.dma .xRES) d q) s

/-- DESC_COMPLETE (R334, R339). -/
def execDescComplete (d : Die) (q : Queue) (rb : ReadBack) (now : Now) (s : State) : Host.Outcome State Fault Refusal :=
  s.runAt now (descComplete d q rb)

/-- The descriptor of a queue outlasts its timeout, running or while it waits for its unit (R346, R348). -/
def descTimeout (d q : Nat) (s : State) : State :=
  if s.safe || !s.dieUp d || !s.expired (.dma .xDUE) d q then s
  else if s.qRuns d q then completeHalt d q dsTIMEOUT s
  else if !s.qReady d q then s
  else completeHalt d q dsTIMEOUT (startRefused d q dsTIMEOUT (s.headDesc d q) s)

/-- DMA_DESC_TIMEOUT (R348). -/
def execDmaDescTimeout (d : Die) (q : Queue) (now : Now) (s : State) : Host.Outcome State Fault Refusal :=
  s.runAt now (descTimeout d q)

/-- PCIE_CPL_TIMEOUT (R67, R348): a completion that the running descriptor waits for since edge `w.since` does not arrive in
HPT_CPL_TO. -/
def execPcieCplTimeout (d : Die) (q : Queue) (w : Waited) (s : State) : Host.Outcome State Fault Refusal :=
  s.runAt w.now (fun s => s.when (!s.safe && s.dieUp d && s.qRuns d q && s.qHost d q != 0 &&
    s.waitedOut (.hpt .CPL_TO_TO) 0 w.since 50 50000 usNs) (completeHalt d q dsHOST_ERR))

/-- A write of a queue register acts only for the queue's owner (R332). -/
def forOwner (p : Party) (d q : Nat) (f : State → State) (s : State) : State := s.when (s.ownsQueue p d q) f

/-- A write of `DMA_Q_TAIL` (R333). -/
def tailWrite (d q v : Nat) (s : State) : State := s.put (.dma .Q_TAIL_TAIL) v d q

/-- DMA_POST (R333). -/
def execDmaPost (p : Party) (d : Die) (q : Queue) (v : Word) (s : State) : Host.Outcome State Fault Refusal :=
  s.run (gated p .dma (some d.val) (forOwner p d q (tailWrite d q v.toNat)))

/-- A descriptor that only waits for its unit no longer counts against its timeout (R346, R348). -/
def unWait (d q : Nat) (s : State) : State := s.when (!s.qRuns d q) (fun s => s.put (.dma .xDUE) 0 d q)

/-- A write of `DMA_Q_CTRL` (R348, R356). -/
def qCtrlWrite (d q v : Nat) (s : State) : State :=
  let s := s.when (bitOf v 1 && !s.flag (.dma .Q_CFG_EN) d q) (fun s =>
    unWait d q (((s.put (.dma .Q_HEAD_HEAD) 0 d q).put (.dma .Q_TAIL_TAIL) 0 d q).put (.dma .Q_STATUS_HALTED) 0 d q))
  s.when (bitOf v 0) (fun s => s.put (.dma .Q_STATUS_HALTED) 0 d q)

/-- RESUME (R348): a write of `DMA_Q_CTRL` with RESUME set. -/
def execDmaResume (p : Party) (d : Die) (q : Queue) (v : Word) (s : State) : Host.Outcome State Fault Refusal :=
  s.run (gated p .dma (some d.val) (forOwner p d q (qCtrlWrite d q (withBits v.toNat 0 1 1))))

/-- RESET (R348): a write of `DMA_Q_CTRL` with RESET set. -/
def execDmaReset (p : Party) (d : Die) (q : Queue) (v : Word) (s : State) : Host.Outcome State Fault Refusal :=
  s.run (gated p .dma (some d.val) (forOwner p d q (qCtrlWrite d q (withBits v.toNat 1 1 1))))

/-- The state in which OWNER, MODE and the ring fields of a queue may change (R332). -/
def State.qQuiet (s : State) (d q : Nat) : Bool := !s.flag (.dma .Q_CFG_EN) d q && !s.qRuns d q

/-- A write of `DMA_Q_CFG` (R332): by the owner, or by either host port while the queue is disabled and idle. -/
def qCfgWrite (p : Party) (d q v : Nat) (s : State) : State :=
  if !(s.ownsQueue p d q || (p.port.isSome && s.qQuiet d q)) then s
  else
    let s := s.when (s.qQuiet d q) (fun s =>
      ((s.put (.dma .Q_CFG_OWNER) (bitsOf v 1 2) d q).put (.dma .Q_CFG_MODE) (bitsOf v 3 2) d q).put
        (.dma .Q_CFG_RING_LOG2) (bitsOf v 8 4) d q)
    let s := s.when (!bitOf v 0) (unWait d q)
    (s.put (.dma .Q_CFG_PRIO) (bitsOf v 12 2) d q).put (.dma .Q_CFG_EN) (bitsOf v 0 1) d q

end Sys2Proof.Machine
end

