-- ==== Sys2Proof/Machine/Events.lean ====
section
/-!
DEFINITION. The commands of the event controller (chapter 15). The operations on sources, claims and FIFOs stand in
Evc.lean; here are the register accesses that reach them, with the parties that R371 admits, and the claim timeout.
-/

namespace Sys2Proof.Machine

/-- An assertion of a source as its block reports it: a level for a level source, a pulse for any other (R360, R361). -/
def eventAssert (n detail : Nat) (level : Bool) (s : State) : State :=
  if isLevelSrc n then evLevel n level detail s else evPulse n detail s

/-- EVENT_ASSERT (R361, R372). -/
def execEventAssert (n : Source) (detail : Nat) (level : Bool) (s : State) : Host.Outcome State Fault Refusal :=
  s.run (eventAssert n detail level)

/-- The vector of a port is unmasked: a pending message is sent, once (R399). -/
def msixUnmask (n : Nat) (s : State) : State :=
  let w := s.get (.hpt .MSIX_WORD) n 3
  msixRelease n (s.put (.hpt .MSIX_WORD) (w - w % 2) n 3)

/-- MSIX_UNMASK (R399). -/
def execMsixUnmask (n : HostPort) (s : State) : Host.Outcome State Fault Refusal := s.run (msixUnmask n)

/-- The offset of a register of a target's block (R381). -/
def evcAddr (t off : Nat) : Nat := 0x20200 + 0x80 * t + off

/-- A party may take from a target: it is the target, and it has negotiated (R371, R411). -/
def State.takes (s : State) (p : Party) (t : Nat) : Bool := p.num == t && !s.unnegotiated p

/-- A read of `EVC_CLAIM[t]`: the target's party claims, and to any other it reads as NOT_VALID (R364, R371). -/
def claimBy (p : Party) (t : Nat) (s : State) : Nat × State :=
  if s.takes p t then claimRead t s else (notValid, s)

/-- A read of `EVC_FIFO_POP[t]` (R375, R371). -/
def popBy (p : Party) (t : Nat) (parityBad : Bool) (s : State) : Nat × State :=
  if s.takes p t then popRead t parityBad s else (notValid, s)

/-- EVC_CLAIM (R364). -/
def execEvcClaim (p : Party) (t : Target) (s : State) : Host.Outcome State Fault Refusal :=
  s.run (fun s =>
    let r := claimBy p t s
    r.2.emit (.read p.num (evcAddr t 4) r.1))

/-- A write of `EVC_COMPLETE[t]` (R365, R371). -/
def completeBy (p : Party) (t v : Nat) (s : State) : State :=
  s.when (p.num == t) (completeWrite t (v % 1024) (bitsOf v 16 4))

/-- EVC_COMPLETE (R365). -/
def execEvcComplete (p : Party) (t : Target) (v : Word) (s : State) : Host.Outcome State Fault Refusal :=
  s.run (gated p .evc none (completeBy p t v.toNat))

/-- A claim that is still active after its timeout is ended (R370). The timeout does not run in Winter. -/
def claimExpire (n : Nat) (s : State) : State :=
  if s.inWinter then s
  else
    match s.claims.find? (fun c => c.src == n && decide (c.due ≤ s.osc)) with
    | none => s
    | some c =>
      let s : State := { s with claims := s.claims.filter (fun x => x.src != n) }
      let s := s.bump (.evc .CNT) c.tgt 3
      raise 0x06 2 c.tgt n (settle (levelRepend n s))

/-- CLAIM_TIMEOUT (R370). -/
def execClaimTimeout (n : Source) (now : Now) (s : State) : Host.Outcome State Fault Refusal :=
  s.runAt now (claimExpire n)

/-- EVC_FIFO_POP (R375). -/
def execEvcFifoPop (p : Party) (t : Target) (parityBad : Bool) (s : State) : Host.Outcome State Fault Refusal :=
  s.run (fun s =>
    let r := popBy p t parityBad s
    r.2.emit (.read p.num (evcAddr t 0x10) r.1))

/-- EVC_FIFO_PUSH (R372): a push by a register write carries no poison tag. -/
def execEvcFifoPush (p : Party) (t : Target) (v : Word) (s : State) : Host.Outcome State Fault Refusal :=
  s.run (gated p .evc none (pushWrite t (v.toNat % 2 ^ 24) false))

/-- EVC_SW_SET (R381). -/
def execEvcSwSet (p : Party) (v : Word) (s : State) : Host.Outcome State Fault Refusal :=
  s.run (gated p .evc none (swSet (v.toNat % 1024)))

/-- EVC_SW_CLR (R381). -/
def execEvcSwClr (p : Party) (v : Word) (s : State) : Host.Outcome State Fault Refusal :=
  s.run (gated p .evc none (swClr (v.toNat % 1024)))

/-- A write of `EVC_SRC_CFG[n]` (R368, R369, R381): while the source is active a change of TARGET or PRIO is ignored and
sets CFG_BUSY.
DEDUCED, log 38. -/
def srcCfgWrite (n v : Nat) (s : State) : State :=
  let s := s.when (bitOf v 19) (fun s => s.put (.evc .SRC_CFG_CFG_BUSY) 0 n)
  let s := (s.put (.evc .SRC_CFG_EN) (bitsOf v 0 1) n).put (.evc .SRC_CFG_FIFO_EN) (bitsOf v 1 1) n
  let change := bitsOf v 4 2 != s.get (.evc .SRC_CFG_TARGET) n || bitsOf v 8 8 != s.get (.evc .SRC_CFG_PRIO) n
  if s.srcActive n then settle (s.when change (fun s => s.put (.evc .SRC_CFG_CFG_BUSY) 1 n))
  else settle ((s.put (.evc .SRC_CFG_TARGET) (bitsOf v 4 2) n).put (.evc .SRC_CFG_PRIO) (bitsOf v 8 8) n)

/-- EVC_SRC_CFG_WRITE (R369, R371). -/
def execEvcSrcCfgWrite (p : Party) (n : Source) (v : Word) (s : State) : Host.Outcome State Fault Refusal :=
  s.run (gated p .evc none (srcCfgWrite n v.toNat))

/-- A write of `EVC_TGT_CTRL[t]` (R368, R369, R371): while the target has an active source a change of BINPOINT is
ignored and sets CFG_BUSY.
DEDUCED, log 38. -/
def tgtCtrlWrite (p : Party) (t v : Nat) (s : State) : State :=
  if p.num = t then
    let s := (s.put (.evc .TGT_CTRL_EN) (bitsOf v 0 1) t).put (.evc .TGT_CTRL_STREAM_EN) (bitsOf v 1 1) t
    if (s.activeOf t).isEmpty then settle (s.put (.evc .TGT_CTRL_BINPOINT) (bitsOf v 4 3) t)
    else
      settle (s.when (bitsOf v 4 3 != s.get (.evc .TGT_CTRL_BINPOINT) t) (fun s => s.put (.evc .TGT_STATUS_CFG_BUSY) 1 t))
  else s

/-- EVC_TGT_CTRL_WRITE (R369, R371). -/
def execEvcTgtCtrlWrite (p : Party) (t : Target) (v : Word) (s : State) : Host.Outcome State Fault Refusal :=
  s.run (gated p .evc none (tgtCtrlWrite p t v.toNat))

end Sys2Proof.Machine
end

