-- ==== Sys2Proof/Machine/Links.lean ====
section
/-!
DEFINITION. The Tether links (R25, R413, R454, R67) and the inter-die link (R67, R37).
-/

namespace Sys2Proof.Machine

/-- A Tether link goes up or down, and TETHER_LINK asserts (R360). -/
def tetherShow (l : Nat) (up : Bool) (s : State) : State :=
  (evPulse 902 l (s.putB (.mid .TTH_REV_UP) up l)).emit (.tetherLink l up)

/-- The keepalive timeout of a link starts (R66, R67). -/
def kaStart (l : Nat) (s : State) : State :=
  s.put (.mid .xKA_DUE) (s.dueIn (clampTo 1 1000 (s.get (.tth .KA_TO_MS)) * msNs)) l

/-- A link comes up at a revision (R413).
DEDUCED, log 86. -/
def tetherUp (l major minor modNo : Nat) (s : State) : State :=
  let s := (s.put (.mid .TTH_REV_MAJOR) major l).put (.mid .TTH_REV_MINOR) minor l
  tetherShow l true (kaStart l (s.put (.mid .xTTH_MOD) (modNo + 1) l))

/-- The Tether links of a module in recovery mode are brought up (R454). -/
def State.tetherRecovery (s : State) : Bool := s.flag (.mid .BOOT_RECOVERY) && s.flag (.mid .STRAP_TETHER_RCV)

/-- A partner's end of a link negotiates (R25, R413): a module of the same number, or one with no common major, leaves the
link down. In recovery mode the link runs at revision 1.0 (R454).
DEDUCED, log 86. -/
def tetherLinkUp (l major minor modNo : Nat) (s : State) : State :=
  if s.safe || s.flag (.mid .TTH_REV_UP) l || decide (2 ≤ s.get (.pwr .xWIN_STEP)) || s.inWinter then s
  else if s.tetherRecovery then tetherUp l 1 0 modNo s
  else if s.get (.mid .BOOT_STEP) < 6 then s
  else if modNo = s.get (.mid .STATUS_MODULE) then raise 0x03 2 l 1 s
  else if major ≠ s.get (.mid .TTH_LOCAL_MAJOR) then evPulse 902 l (raise 0x03 2 l 3 s)
  else tetherUp l major (min minor (s.get (.mid .TTH_LOCAL_MINOR_MAX))) modNo s

/-- TETHER_LINK_UP (R413). -/
def execTetherLinkUp (l : Link) (major minor : Nat) (modNo : Nat) (s : State) : Host.Outcome State Fault Refusal :=
  s.run (tetherLinkUp l major minor modNo)

/-- No keepalive has arrived in time since the last, which came at edge `since`, nor since the link came up (R67): the link goes
down, with a Notice. -/
def tetherKeepalive (l since : Nat) (s : State) : State :=
  s.when (s.flag (.mid .TTH_REV_UP) l && s.expired (.mid .xKA_DUE) l && s.waitedOut (.tth .KA_TO_MS) 0 since 1 1000 msNs) (fun s =>
    raise 0x0B 2 l 1 (tetherShow l false (s.put (.mid .xKA_DUE) 0 l)))

/-- TETHER_KEEPALIVE_TIMEOUT (R67). -/
def execTetherKeepaliveTimeout (l : Link) (w : Waited) (s : State) : Host.Outcome State Fault Refusal :=
  s.runAt w.now (tetherKeepalive l w.since)

/-- The credit timeout of the inter-die link (R67): the link retrains, and what crosses waits (R37).
DEDUCED, log 86. -/
def linkCredit (s : State) : State :=
  s.when (!s.safe && !s.flag (.mid .xLINK_DOWN)) (fun s =>
    raise 0x49 2 0 0 (((s.put (.mid .xLINK_DOWN) 1).put (.mid .xLINK_RETRY) 0).put (.mid .xLINK_AT) s.osc))

/-- LINK_CREDIT_TIMEOUT (R67): the link has waited for a credit since edge `w.since`, for 1,000 ns. -/
def execLinkCreditTimeout (w : Waited) (s : State) : Host.Outcome State Fault Refusal :=
  s.runAt w.now (fun s => s.when (elapsedNs w.since s.osc 1000) linkCredit)

/-- A retrain has failed and is retried, a second after the one before (R67). -/
def linkRetry (s : State) : State :=
  s.when (s.flag (.mid .xLINK_DOWN) && elapsedNs (s.get (.mid .xLINK_AT)) s.osc secNs) (fun s =>
    let s := (s.bumpSat (.mid .xLINK_RETRY)).put (.mid .xLINK_AT) s.osc
    raise 0x0C 2 0 (s.get (.mid .xLINK_RETRY)) s)

/-- LINK_RETRAIN_RETRY (R67). -/
def execLinkRetrainRetry (now : Now) (s : State) : Host.Outcome State Fault Refusal := s.runAt now linkRetry

/-- A retrain succeeds, and the flows that cross resume under R37. -/
def linkDone (s : State) : State :=
  s.when (s.flag (.mid .xLINK_DOWN)) (fun s => crossStop ((s.put (.mid .xLINK_DOWN) 0).put (.mid .xLINK_RETRY) 0))

/-- LINK_RETRAIN_DONE (R67). -/
def execLinkRetrainDone (now : Now) (s : State) : Host.Outcome State Fault Refusal := s.runAt now linkDone

end Sys2Proof.Machine
end

