-- ==== Sys2Proof/Machine/FieldUpdate.lean ====
section
/-!
DEFINITION. Field update and recovery mode (chapter 19): the update session, its blocks, activation, trial and revert, and the
Farrier download.
-/

namespace Sys2Proof.Machine

/-- The states of `FWU_STATUS` (R455). -/
def fuOPEN : Nat := 1
def fuVERIFYING : Nat := 2
def fuSTAGED : Nat := 3
def fuPREPARING : Nat := 4
def fuARMED : Nat := 5
def fuTRIAL : Nat := 6
def fuREVERTING : Nat := 7

/-- `FWU_STATUS.STATE`. -/
def State.fwuState (s : State) : Nat := s.get (.fwu .STATUS_STATE)

/-- An update session exists (R438). -/
def State.session (s : State) : Bool := s.fwuState == fuOPEN || s.fwuState == fuVERIFYING

/-- A party does not hold the session that exists, so that its writes are ignored (R438). -/
def State.fwuForeign (s : State) (p : Party) : Bool :=
  s.session && (match p.port with
    | some n => n != s.get (.fwu .STATUS_OWNER)
    | none => true)

/-- FWU_DONE asserts with a step (R360, R455). -/
def fwuDone (step : Nat) (s : State) : State := evPulse 898 step s

-- Sessions

/-- The records copy that a session writes (R438, R443): the one that is not in force, or with none in force the one that is not
valid, else the one with the earlier SEQ.
DESIGN CHOICE, log 89. -/
def State.recTarget (s : State) : Nat :=
  if !s.flag (.mid .CFG_IMG_NONE) then 1 - s.get (.mid .CFG_IMG_COPY)
  else if s.recValid 0 != s.recValid 1 then (if s.recValid 0 then 1 else 0)
  else 1 - s.recLater

/-- The slot that a bundle session writes: the one that is not active, or in recovery mode the one that SLOT names (R438, R453). -/
def State.slotTarget (s : State) : Nat :=
  if s.flag (.mid .BOOT_RECOVERY) then s.get (.fwu .CTRL_SLOT) else 1 - s.activeSlot

/-- The inactivity timeout of the session starts (R66, R438).
DEDUCED, log 91. -/
def xferStart (s : State) : State :=
  s.put (.fwu .xXFER_DUE) (s.dueIn (clampTo 1 3600 (s.get (.fwu .XFER_TO_S)) * secNs))

/-- The map of held blocks is cleared. -/
def mapClear (s : State) : State := forEach (List.range 24) (fun i s => s.put (.fwu .MAP_MAP) 0 i) s

/-- A session opens for an owner: 0 HA, 1 HB, 2 Tether (R438).
DEDUCED, log 87. -/
def sessionOpen (owner kind : Nat) (s : State) : State :=
  let tgt := if kind = 0 then s.slotTarget else s.recTarget
  let s := s.when (kind == 0) (setSlot tgt slEMPTY)
  let s := (s.put (.fwu .xKIND) kind).put (.fwu .xTGT) tgt
  let s := (s.put (.fwu .STATUS_OWNER) owner).put (.fwu .STATUS_REASON) 0
  xferStart (mapClear (s.put (.fwu .STATUS_STATE) fuOPEN))

/-- OPEN (R438): refused while a session or an activation exists. Only a host port opens a session so, and recovery mode opens
bundle sessions alone (R453).
DEDUCED, log 87. -/
def fwuOpen (p : Party) (s : State) : State :=
  match p.port with
  | none => s
  | some n =>
    if s.session || decide (fuPREPARING ≤ s.fwuState) then s.put (.fwu .STATUS_REASON) 1
    else
      let kind := s.get (.fwu .CTRL_KIND)
      if s.flag (.mid .BOOT_RECOVERY) && kind != 0 then s else sessionOpen n kind s

/-- CLOSE (R438). -/
def fwuClose (s : State) : State := s.when s.session (abandonSession 0)

-- Activation

/-- What refuses an activation (R445), as a REASON: 1 BUSY, 2 NOT_STAGED, 3 HIR, 4 SCHEMA, 5 SLOT15. An activation that runs
already refuses another.
DEDUCED, log 88. -/
def State.activateBar (s : State) : Option Nat :=
  let x := 1 - s.activeSlot
  let m := s.manifest x
  let hirBad := [0, 1].any (fun n => s.flag (.hpt .PORT_STATUS_HIR_OK) n &&
    (decide (s.get (.hpt .PORT_STATUS_MINOR) n < byteAt m 29) || decide (byteAt m 30 < s.get (.hpt .PORT_STATUS_MINOR) n)))
  if s.session || decide (fuPREPARING ≤ s.fwuState) then some 1
  else if s.dir.slot x ≠ slSTAGED then some 2
  else if hirBad then some 3
  else if !s.flag (.mid .CFG_IMG_NONE) && (decide (s.get (.mid .SCHEMA_MAJOR) < byteAt m 31) ||
      decide (byteAt m 32 < s.get (.mid .SCHEMA_MAJOR))) then some 4
  else if s.flag (.trs .HO_CTRL_ARM) 15 then some 5
  else none

/-- ACTIVATE (R445, R446).
DEDUCED, log 88. -/
def fwuActivate (s : State) : State :=
  match s.activateBar with
  | some r => fwuDone 5 ((s.put (.fwu .STATUS_REASON) r).put (.fwu .STATUS_REFUSED) 1)
  | none => (s.put (.fwu .STATUS_REASON) 0).put (.fwu .STATUS_STATE) fuPREPARING

/-- A write of `FWU_CTRL` (R438, R445, R450, R455).
DEDUCED, log 87. -/
def fwuCtrlWrite (p : Party) (v : Nat) (s : State) : State :=
  if s.fwuForeign p then s
  else
    let s := (s.put (.fwu .CTRL_KIND) (bitsOf v 4 1)).put (.fwu .CTRL_SLOT) (bitsOf v 5 1)
    let s := s.when (bitOf v 0) (fwuOpen p)
    let s := s.when (bitOf v 1) fwuClose
    let s := s.when (bitOf v 2) fwuActivate
    s.when (bitOf v 3) trialFail

/-- OPEN (R438): a write of `FWU_CTRL` with OPEN set. -/
def execFwuOpen (p : Party) (v : Word) (s : State) : Host.Outcome State Fault Refusal :=
  s.run (gated p .fwu none (fwuCtrlWrite p (withBits v.toNat 0 1 1)))

/-- CLOSE (R438): a write of `FWU_CTRL` with CLOSE set. -/
def execFwuClose (p : Party) (v : Word) (s : State) : Host.Outcome State Fault Refusal :=
  s.run (gated p .fwu none (fwuCtrlWrite p (withBits v.toNat 1 1 1)))

/-- ACTIVATE (R445): a write of `FWU_CTRL` with ACTIVATE set. -/
def execFwuActivate (p : Party) (v : Word) (s : State) : Host.Outcome State Fault Refusal :=
  s.run (gated p .fwu none (fwuCtrlWrite p (withBits v.toNat 2 1 1)))

/-- REVERT (R450): a write of `FWU_CTRL` with REVERT set. -/
def execFwuRevert (p : Party) (v : Word) (s : State) : Host.Outcome State Fault Refusal :=
  s.run (gated p .fwu none (fwuCtrlWrite p (withBits v.toNat 3 1 1)))

-- Blocks

/-- A block is submitted (R439): 0 HA, 1 HB, 3 an Ostler, 4 + l Tether link l. -/
def blockSubmit (by' : Nat) (s : State) : State :=
  let s := ((s.put (.fwu .BLK_RES_VALID) 0).put (.fwu .BLK_CMD_SUBMIT) 1).put (.fwu .xSUB_BY) by'
  let s := s.put (.fwu .xSUB_DUE) (s.dueIn (clampTo 1 1000 (s.get (.fwu .FLASH_TO_MS)) * msNs))
  s.when s.session xferStart

/-- SUBMIT (R439): a write of `FWU_BLK_CMD`. A submission that waits takes no other. -/
def fwuSubmit (p : Party) (v : Nat) (s : State) : State :=
  s.when (bitOf v 0 && !s.fwuForeign p && !s.flag (.fwu .BLK_CMD_SUBMIT)) (blockSubmit (match p.port with
    | some n => n
    | none => 3))

/-- SUBMIT (R439). -/
def execFwuSubmit (p : Party) (v : Word) (s : State) : Host.Outcome State Fault Refusal :=
  s.run (gated p .fwu none (fwuSubmit p (withBits v.toNat 0 1 1)))

/-- The data window, `FWU_BLK_OFS`, `FWU_BLK_LEN` and `FWU_BLK_CRC` take no write while a block waits for its result (R439). -/
def State.blkHeld (s : State) : Bool := s.flag (.fwu .BLK_CMD_SUBMIT)

/-- The data bytes of the block in the window. -/
def State.blkBytes (s : State) : List Byte :=
  (((List.range ((min 65536 (s.get (.fwu .BLK_LEN_LEN)) + 3) / 4)).flatMap (fun i =>
    beBytes 4 (s.get (.fwu .BLK_DATA_DATA) i))).take (s.get (.fwu .BLK_LEN_LEN)))

/-- Block `b` is in the map (R440). -/
def State.blkMapped (s : State) (b : Nat) : Bool := bitOf (s.get (.fwu .MAP_MAP) (b / 32)) (b % 32)

/-- The base and the length of the session's target in flash (R420, R438, R443). -/
def State.tgtBase (s : State) : Nat :=
  if s.get (.fwu .xKIND) = 0 then slotBase (s.get (.fwu .xTGT)) else recBase (s.get (.fwu .xTGT))
def State.tgtLen (s : State) : Nat := if s.get (.fwu .xKIND) = 0 then 0x3000000 else 0x800000

/-- The length of an image, from its first bytes: TOTAL_LEN, or LENGTH of a records image (R435, R422). -/
def State.lenIn (s : State) (head : List Byte) : Nat := if s.get (.fwu .xKIND) = 0 then manTotal head else beAt head 8 4

/-- The length of the image, once block 0 is held or is the block at hand.
DESIGN CHOICE, log 89. -/
def State.imageLen (s : State) : Option Nat :=
  if s.get (.fwu .BLK_OFS_BLOCK) = 0 then some (s.lenIn s.blkBytes)
  else if s.blkMapped 0 then some (s.lenIn (s.flashAt s.tgtBase 16))
  else none

/-- The block's place or length is out of range (R440). -/
def State.blkRangeBad (s : State) : Bool :=
  let b := s.get (.fwu .BLK_OFS_BLOCK)
  let n := s.get (.fwu .BLK_LEN_LEN)
  decide (s.tgtLen ≤ b * 65536) || n == 0 || decide (65536 < n) ||
    (match s.imageLen with
     | some t => decide (t < b * 65536 + n) || (decide (n < 65536) && b * 65536 + n != t)
     | none => false)

/-- Block 0 of a bundle does not hold a valid manifest, or its image is longer than the slot (R440, R437). -/
def State.blkManifestBad (s : State) : Bool :=
  s.get (.fwu .xKIND) == 0 && s.get (.fwu .BLK_OFS_BLOCK) == 0 &&
    (!manValid s.blkBytes || decide (s.tgtLen < manTotal s.blkBytes))

/-- The party that submitted the block does not hold a session (R440). -/
def State.blkNoSession (s : State) : Bool :=
  let o := s.get (.fwu .STATUS_OWNER)
  !s.session || (match s.get (.fwu .xSUB_BY) with
    | 0 => o != 0
    | 1 => o != 1
    | b => decide (b < 4) || o != 2)

/-- The CRC of the block does not match (R439). -/
def State.blkCrcBad (s : State) : Bool :=
  crc32c (beBytes 4 (s.get (.fwu .BLK_OFS_BLOCK) * 65536) ++ s.blkBytes) != s.get (.fwu .BLK_CRC_CRC)

/-- The STATUS of the block that waits, but for a flash operation that times out (R440). A later block of a bundle that comes
before block 0 is not accepted; whether that reads RANGE or MANIFEST the spec does not say.
DESIGN CHOICE, log 90. -/
def blockStatus (s : State) : Nat × State :=
  if s.blkCrcBad then (1, s)
  else if s.blkRangeBad then (2, s)
  else if s.blkManifestBad then (4, s)
  else if s.blkNoSession then (5, s)
  else if s.get (.fwu .xKIND) == 0 && s.get (.fwu .BLK_OFS_BLOCK) != 0 && !s.blkMapped 0 then
    let (v, s) := s.free
    (if v % 2 = 0 then 2 else 4, s)
  else (0, s)

/-- The result of a block (R440): SUBMIT clears as VALID sets. A partner's block is answered over its link.
DESIGN CHOICE, log 93. -/
def blockResult (st : Nat) (s : State) : State :=
  let b := s.get (.fwu .BLK_OFS_BLOCK)
  let s := ((s.put (.fwu .BLK_RES_BLOCK) b).put (.fwu .BLK_RES_STATUS) st).put (.fwu .BLK_RES_VALID) 1
  let s := s.put (.fwu .BLK_CMD_SUBMIT) 0
  s.when (decide (4 ≤ s.get (.fwu .xSUB_BY))) (·.emit (.blockResult (s.get (.fwu .xSUB_BY) - 4) b st))

/-- Every block of the image is held (R441, R443). -/
def State.allHeld (s : State) : Bool :=
  s.blkMapped 0 && (List.range ((min s.tgtLen (s.lenIn (s.flashAt s.tgtBase 16)) + 65535) / 65536)).all s.blkMapped

/-- The download wait of recovery mode starts again as a block is accepted (R453).
DEDUCED, log 91. -/
def farrierWait (s : State) : State :=
  s.when (s.flag (.mid .BOOT_RECOVERY)) (fun s =>
    s.put (.fwu .xFAR_DUE) (s.dueIn (clampTo 1 600 (s.get (.fwu .FARRIER_TO_S)) * secNs)))

/-- An accepted block is written to flash and its bit is set (R440); with every block held, the read-back starts (R441).
DEDUCED, log 91. -/
def blockAccept (s : State) : State :=
  let b := s.get (.fwu .BLK_OFS_BLOCK)
  let a := s.tgtBase + b * 65536
  let s := flashPut a s.blkBytes (flashErase a 65536 s)
  let s := farrierWait (s.putBit (.fwu .MAP_MAP) (b % 32) true (b / 32))
  s.put (.fwu .STATUS_STATE) (if s.allHeld then fuVERIFYING else fuOPEN)

/-- Field-update work may be done: by the Ostler of die 0, unless it sheds STAGE or is held up, or by Farrier in recovery mode;
never in Winter or the safe state (R440, R442, R453, R465). -/
def State.stageRuns (s : State) : Bool :=
  !s.safe && !s.inWinter && decide (s.get (.pwr .xWIN_STEP) < 2) &&
    (s.flag (.mid .BOOT_RECOVERY) || (s.dieUp 0 && s.ostState 0 != 0 && !s.ostSheds 0 7))

/-- A block is checked and written (R440). -/
def blockChecked (s : State) : State :=
  s.when (s.stageRuns && s.flag (.fwu .BLK_CMD_SUBMIT)) (fun s =>
    let (st, s) := blockStatus s
    blockResult st (s.when (st == 0) blockAccept))

/-- BLOCK_CHECKED (R440). -/
def execBlockChecked (now : Now) (s : State) : Host.Outcome State Fault Refusal := s.runAt now blockChecked

/-- A flash operation of the block outlasts FWU_FLASH_TO (R440, R67): what the block's flash then holds is free.
DESIGN CHOICE, log 90. -/
def flashTimeout (s : State) : State :=
  s.when (s.stageRuns && s.flag (.fwu .BLK_CMD_SUBMIT) && s.expired (.fwu .xSUB_DUE) && (blockStatus s).1 == 0) (fun s =>
    let b := s.get (.fwu .BLK_OFS_BLOCK)
    let (bytes, s) := freeBytes 65536 s
    let s := flashPut (s.tgtBase + b * 65536) bytes s
    let s := s.putBit (.fwu .MAP_MAP) (b % 32) false (b / 32)
    let (v, s) := s.free
    raise 0x0A 2 0 v (blockResult 3 s))

/-- FLASH_OP_TIMEOUT (R440). -/
def execFlashOpTimeout (now : Now) (s : State) : Host.Outcome State Fault Refusal := s.runAt now flashTimeout

/-- The blocks that a component touches leave the map. -/
def unmapComp (c : Comp) (s : State) : State :=
  forEach (List.range ((c.ofs + c.len + 65535) / 65536 - c.ofs / 65536)) (fun i s =>
    let b := c.ofs / 65536 + i
    s.putBit (.fwu .MAP_MAP) (b % 32) false (b / 32)) s

/-- The read-back of a bundle (R441). In recovery mode Farrier then starts the slot as a trial (R453). -/
def readbackBundle (s : State) : State :=
  let x := s.get (.fwu .xTGT)
  let bad := (compsOf (s.manifest x)).filter (fun c => !s.compGood x c)
  if bad.isEmpty then
    let s := fwuDone 1 ((setSlot x slSTAGED s).put (.fwu .STATUS_STATE) fuSTAGED)
    s.when (s.flag (.mid .BOOT_RECOVERY)) (fun s => startBundle x true true (s.put (.fwu .STATUS_STATE) 0))
  else
    fwuDone 2 (forEach bad unmapComp ((s.put (.fwu .STATUS_STATE) fuOPEN).put (.fwu .STATUS_REASON) 6))

/-- The image of a records copy is valid and later than the one in force (R443).
DESIGN CHOICE, log 89. -/
def State.recordsGood (s : State) (c : Nat) : Bool :=
  s.recValid c && (s.flag (.mid .CFG_IMG_NONE) || seqBefore 32 (s.get (.mid .CFG_SEQ_SEQ)) (beAt (s.recHeader c) 12 4))

/-- The check of a records image (R443): a bad one is erased, and the session stays open for another. -/
def readbackRecords (s : State) : State :=
  let c := s.get (.fwu .xTGT)
  if s.recordsGood c then fwuDone 8 (fwuIdle s)
  else mapClear (((flashErase (recBase c) 0x800000 s).put (.fwu .STATUS_STATE) fuOPEN).put (.fwu .STATUS_REASON) 7)

/-- With every block held, the target is read back (R441, R443).
DEDUCED, log 91. -/
def slotReadback (s : State) : State :=
  s.when (s.stageRuns && s.fwuState == fuVERIFYING) (fun s =>
    if s.get (.fwu .xKIND) = 0 then readbackBundle s else readbackRecords s)

/-- SLOT_READBACK (R441). -/
def execSlotReadback (now : Now) (s : State) : Host.Outcome State Fault Refusal := s.runAt now slotReadback

/-- No block has been submitted in time (R438, R67, R442). -/
def xferTimeout (s : State) : State :=
  s.when (!s.safe && !s.inWinter && s.session && s.expired (.fwu .xXFER_DUE)) (fun s =>
    raise 0x0A 2 0 7 (abandonSession 0 s))

/-- XFER_TIMEOUT (R438). -/
def execXferTimeout (now : Now) (s : State) : Host.Outcome State Fault Refusal := s.runAt now xferTimeout

-- The switch

/-- Preparation ends (R446): each die keeps a copy of the new stores, and slot 15 is armed for the first picture boundary of the
slowest domain at least 20 ms off, or with no raster the switch follows in 20 ms. -/
def preparationEnd (s : State) : State :=
  s.when (!s.safe && s.fwuState == fuPREPARING) (fun s =>
    let x := 1 - s.activeSlot
    let s := forEach [0, 1] (fun d s => s.when (s.dieUp d) (fun s => poolSettle d (storesKeep d 1
      (fit 0x10000 (s.component x (1 + d)) ++ fit 0x8000 (s.component x (3 + d))) s))) s
    let s := s.put (.fwu .STATUS_STATE) fuARMED
    if s.tbState ≠ tbFREE && s.anyDomInUse then
      let dom := s.slowest
      let k := s.boundaryFrom dom (s.tai + 20 * msNs)
      let s := ((s.put (.trs .HO_CTRL_DOMAIN) dom 15).put (.trs .xHO_AT) k 15).put (.trs .HO_CTRL_ARM) 1 15
      let s := (s.put (.trs .HO_TGT_HI_PICTURE) (k / s.picTicks dom) 15).put (.trs .HO_TGT_LO_LINE) 0 15
      (s.put (.trs .HO_TGT_LO_TICK) 0 15).put (.fwu .xARM15) 1
    else s.put (.fwu .xSW_DUE) (s.dueIn (20 * msNs)))

/-- PREPARATION_END (R446). -/
def execPreparationEnd (now : Now) (s : State) : Host.Outcome State Fault Refusal := s.runAt now preparationEnd

/-- The edge of the next switch lies no more than `ns` away or is reached (R446, R448, R450). A switch back takes the next picture
boundary of the slowest domain after the trial failed, or with no raster comes 20 ms after. -/
def State.switchWithin (s : State) (ns : Nat) : Bool :=
  if s.fwuState = fuARMED then
    if s.flag (.fwu .xARM15) then
      let dom := s.get (.trs .HO_CTRL_DOMAIN) 15
      s.rasterRuns dom && decide (s.get (.trs .xHO_AT) 15 ≤ s.ticksAt dom (s.tai + ns))
    else decide (s.get (.fwu .xSW_DUE) ≤ s.osc + (3 * ns + 1) / 2)
  else if s.fwuState = fuREVERTING then
    if s.tbState ≠ tbFREE && s.anyDomInUse then
      let dom := s.slowest
      decide (s.boundaryFrom dom (s.get (.fwu .xREV_TAI)) ≤ s.ticksAt dom (s.tai + ns))
    else elapsedNs (s.get (.fwu .xREV_AT)) (s.osc + (3 * ns + 1) / 2) (20 * msNs)
  else false

/-- From 10 ms before the edge no routine but one of IRQ starts (R448). -/
def ostlerQuiesce (s : State) : State :=
  s.when (!s.safe && s.switchWithin (10 * msNs)) (fun s => forEach [0, 1] (fun d s => s.put (.ost .xQUIET) 1 d) s)

/-- OSTLER_QUIESCE (R448). -/
def execOstlerQuiesce (now : Now) (s : State) : Host.Outcome State Fault Refusal := s.runAt now ostlerQuiesce

/-- An Ostler reloads its stores on a switch (R448): a routine that has not ended is abandoned, and the state is LOADING.
DESIGN CHOICE, log 63. -/
def ostSwitch (d x : Nat) (s : State) : State :=
  s.when (s.dieUp d && s.get (.ost .xSLOT) d != x + 1) (fun s =>
    let open' := (List.range 10).filter (fun c => s.flag (.ost .CLASS_SUSPENDED) d c || (decide (2 ≤ s.ostState d) && s.ostClass d == c))
    let s := forEach open' (ostAbandon d) s
    let a := s.get (.ost .xCOPY) d 0
    let s := (s.put (.ost .xCOPY) (s.get (.ost .xCOPY) d 1) d 0).put (.ost .xCOPY) a d 1
    (storesLoad d x s).put (.ost .STATUS_STATE) 0 d)

/-- Both Ostlers switch to a bundle slot, and new routines may start. -/
def ostsSwitch (x : Nat) (s : State) : State :=
  forEach [0, 1] (fun d s => (ostSwitch d x s).put (.ost .xQUIET) 0 d) s

/-- The copies of the bundle that does not run are given up (R450). -/
def copyDrop (s : State) : State :=
  forEach [0, 1] (fun d s =>
    let h := s.get (.ost .xCOPY) d 1
    s.when (h != 0) (fun s => poolSettle d ((freeBuf d 58 (h - 1) s).2.put (.ost .xCOPY) 0 d 1))) s

/-- The bundle in slot `x` takes over on an edge, and its activation is measured (R447, R452). -/
def bundleRun (x : Nat) (s : State) : State :=
  let s := bundleDeclares x (ostsSwitch x s)
  measureBundle 7 7 x (s.nsUp / msNs) s

/-- The handover edge of an activation (R447). -/
def switchForward (s : State) : State :=
  let x := 1 - s.activeSlot
  let s := s.when (s.flag (.fwu .xARM15) && s.flag (.trs .HO_CTRL_ARM) 15) (fireSlot 15)
  let s := bundleRun x (setSlot x slTRIAL s)
  let s := ((s.put (.fwu .xARM15) 0).put (.fwu .xSW_DUE) 0).put (.fwu .STATUS_STATE) fuTRIAL
  fwuDone 3 (s.put (.fwu .xACT_DUE) (s.dueIn (clampTo 1 60 (s.get (.fwu .ACT_TO_S)) * secNs)))

/-- The edge of a switch back (R450).
DEDUCED, log 92. -/
def switchBack (s : State) : State :=
  let bad := s.activeSlot
  let s := copyDrop (bundleRun (1 - bad) (setSlot bad slBAD s))
  fwuIdle (fwuDone 6 (evPulse 899 0 (s.put (.fwu .STATUS_REVERTED) 1)))

/-- The edge of a switch is reached.
DEDUCED, log 92. -/
def bundleSwitch (s : State) : State :=
  if s.safe || !s.switchWithin 0 then s
  else if s.fwuState = fuARMED then switchForward s
  else switchBack s

/-- BUNDLE_SWITCH (R447, R450). -/
def execBundleSwitch (now : Now) (s : State) : Host.Outcome State Fault Refusal := s.runAt now bundleSwitch

/-- A trial is confirmed within its time, once each Ostler runs the new stores and the heartbeat arrives (R449). -/
def trialConfirm (s : State) : State :=
  s.when (!s.safe && s.fwuState == fuTRIAL && !s.expired (.fwu .xACT_DUE) && s.flag (.pwr .STATUS_HB_OK) &&
    [0, 1].all (fun d => !s.dieUp d || s.ostState d != 0)) (fun s =>
    fwuIdle (fwuDone 4 (copyDrop (confirmSlot s.activeSlot s))))

/-- TRIAL_CONFIRM (R449). -/
def execTrialConfirm (now : Now) (s : State) : Host.Outcome State Fault Refusal := s.runAt now trialConfirm

/-- A trial has not been confirmed in time (R450, R67).
DEDUCED, log 92. -/
def actTimeout (s : State) : State :=
  s.when (!s.safe && s.fwuState == fuTRIAL && s.expired (.fwu .xACT_DUE)) (fun s => trialFail (raise 0x0A 2 0 6 s))

/-- ACT_TIMEOUT (R450). -/
def execActTimeout (now : Now) (s : State) : Host.Outcome State Fault Refusal := s.runAt now actTimeout

-- Recovery mode

/-- No block has been accepted in time (R453): Farrier tries the other slot, or where the RECOVERY strap brought it here it runs
step 4 as with the strap low. -/
def farrierTimeout (s : State) : State :=
  s.when (!s.safe && s.flag (.mid .BOOT_RECOVERY) && s.expired (.fwu .xFAR_DUE)) (fun s =>
    let s := (s.when s.session (abandonSession 0)).put (.fwu .BLK_CMD_SUBMIT) 0
    if s.flag (.mid .STRAP_RECOVERY) then bootBundle (s.slotOrder (s.flag (.mid .STRAP_SLOT_SWAP))) false s
    else bootBundle [1 - s.get (.fwu .CTRL_SLOT)] false s)

/-- FARRIER_TIMEOUT (R453). -/
def execFarrierTimeout (now : Now) (s : State) : Host.Outcome State Fault Refusal := s.runAt now farrierTimeout

/-- A block arrives from a Tether partner in recovery mode (R454): the partner acts as session owner, and a host's session takes
precedence. A block that comes while another waits for its result is lost.
DESIGN CHOICE, log 93. -/
def tetherBlock (l block crc : Nat) (bytes : List Byte) (s : State) : State :=
  if s.safe || !s.tetherRecovery || !s.flag (.mid .TTH_REV_UP) l then s
  else if s.session && s.get (.fwu .STATUS_OWNER) != 2 then s.emit (.blockResult l block 5)
  else if s.flag (.fwu .BLK_CMD_SUBMIT) then s
  else
    let s := s.when (!s.session) (sessionOpen 2 0)
    let s := (s.put (.fwu .BLK_OFS_BLOCK) (min 1023 block)).put (.fwu .BLK_LEN_LEN) (min 131071 bytes.length)
    let data := fit 65536 bytes
    let s := forEach (List.range ((min 65536 bytes.length + 3) / 4)) (fun i s => s.put (.fwu .BLK_DATA_DATA) (beAt data (4 * i) 4) i) s
    blockSubmit (4 + l) (s.put (.fwu .BLK_CRC_CRC) crc)

/-- TETHER_RECOVERY_BLOCK (R454). -/
def execTetherRecoveryBlock (l : Link) (block : Nat) (crc : Word) (bytes : List Byte) (s : State) :
    Host.Outcome State Fault Refusal := s.run (tetherBlock l block crc.toNat bytes)

end Sys2Proof.Machine
end

