-- ==== Sys2Proof/Machine/Power.lean ====
section
/-!
DEFINITION. The input, the rails, the heartbeat and the sensors (R480, R481, R492 to R497).
-/

namespace Sys2Proof.Machine

/-- The input voltage as `PWR_INPUT.VIN` can show it. What it shows above 65,535 mV the spec does not say.
DEDUCED, log 25. -/
def setVin (mv : Nat) (s : State) : State :=
  if mv < 65536 then s.put (.pwr .INPUT_VIN) mv
  else
    let (v, s) := s.free
    s.put (.pwr .INPUT_VIN) v

/-- VIN rises through the start threshold, and the rails come up (R480). Rails that are up stay as they are. -/
def vinStart (mv : Nat) (s : State) : State :=
  let s := setVin mv s
  s.when (s.flag (.pwr .xRAILS_OFF)) (fun s => (s.put (.pwr .xRAILS_OFF) 0).emit (.rails true))

/-- VIN_START (R480). -/
def execVinStart (mv : Nat) (s : State) : Host.Outcome State Fault Refusal := s.runPower (vinStart mv)

/-- VIN is below 9.0 V: VIN_LOW reads 1, and DIPS counts the entry (R481). -/
def vinLow (mv : Nat) (s : State) : State :=
  let s := setVin mv s
  s.when (decide (mv < 9000) && !s.flag (.pwr .STATUS_VIN_LOW)) (fun s =>
    (s.bumpSat (.pwr .DIPS_DIPS)).put (.pwr .STATUS_VIN_LOW) 1)

/-- VIN_DIP (R481). -/
def execVinDip (mv : Nat) (s : State) : Host.Outcome State Fault Refusal := s.run (vinLow mv)

/-- VIN has been at a voltage for a time: below its limits for longer than they allow is the Grave brown-out (R481). -/
def brownOut (mv lowUs : Nat) (s : State) : State :=
  (vinLow mv s).when (decide (mv < 6500 ∨ mv < 7000 ∧ 2000 < lowUs ∨ mv < 9000 ∧ 50000 < lowUs)) (raise 0x85 2 0 1)

/-- BROWN_OUT (R481). -/
def execBrownOut (mv lowUs : Nat) (s : State) : Host.Outcome State Fault Refusal := s.run (brownOut mv lowUs)

/-- VIN is back at 9.0 V or above (R481). -/
def vinLowEnd (mv : Nat) (s : State) : State :=
  (setVin mv s).when (decide (9000 ≤ mv)) (fun s => s.put (.pwr .STATUS_VIN_LOW) 0)

/-- VIN_LOW_END (R481). -/
def execVinLowEnd (mv : Nat) (s : State) : Host.Outcome State Fault Refusal := s.run (vinLowEnd mv)

/-- VIN above 65 V, or above 60 V for longer than 1 s (R481). -/
def overvoltage (mv highMs : Nat) (s : State) : State :=
  (setVin mv s).when (decide (65000 < mv ∨ 60000 < mv ∧ 1000 < highMs)) (raise 0x85 2 0 2)

/-- VIN_OVERVOLTAGE (R481). -/
def execVinOvervoltage (mv highMs : Nat) (s : State) : Host.Outcome State Fault Refusal := s.run (overvoltage mv highMs)

/-- VIN above 70 V or below 6.0 V stops every rail (R481): the module waits for a new power good. -/
def inputDisconnect (mv : Nat) (s : State) : State :=
  if 70000 < mv ∨ mv < 6000 then
    let s := (setVin mv s).afterReset
    ((s.put (.pwr .xDOWN) 1).put (.pwr .xRAILS_OFF) 1).emit (.rails false)
  else setVin mv s

/-- INPUT_DISCONNECT (R481). -/
def execInputDisconnect (mv : Nat) (s : State) : Host.Outcome State Fault Refusal := s.runPower (inputDisconnect mv)

/-- DETAIL of a rail fault (R497). -/
def railDetail (k : RailFault) : Nat :=
  match k with
  | .under => 3
  | .over => 4
  | .overcurrent => 5
  | .selfTest => 6

/-- A rail is outside its window (R497): for 100 us it is Grave. -/
def railOut (rail mv : Nat) (k : RailFault) (us : Nat) (s : State) : State :=
  let s := (s.put (.pwr .RAIL_MV) mv rail).put (.pwr .RAIL_IN_WINDOW) 0 rail
  s.when (decide (100 ≤ us)) (raise 0x85 2 rail (railDetail k))

/-- RAIL_OUT_OF_WINDOW (R497). -/
def execRailOutOfWindow (rail : Fin 9) (mv : Nat) (kind : RailFault) (us : Nat) (s : State) :
    Host.Outcome State Fault Refusal := s.run (railOut rail mv kind us)

/-- PWR_HEARTBEAT_TIMEOUT (R497, R67): the last heartbeat came at edge `w.since`, longer ago than PWR_HB_TO. A heartbeat that is missed
during a trial fails the trial too (R450). -/
def execPwrHeartbeatTimeout (w : Waited) (s : State) : Host.Outcome State Fault Refusal :=
  s.runAt w.now (fun s => s.when (s.waitedOut (.pwr .HB_TO_MS) 0 w.since 1 100 msNs) (fun s =>
    raise 0x84 2 0 0 (trialFail (s.put (.pwr .STATUS_HB_OK) 0))))

/-- The junction threshold in quarter degrees (R493, R505). -/
def State.tjWarn (s : State) : Int := 4 * (clampTo 60 120 (s.get (.pwr .THR_TJ_WARN)) : Nat)

/-- One sensor of 0 to 10 is read: its warning, with 3 degrees of hysteresis, and the count of its samples at or above
125 degrees (R492 to R494). -/
def sampleJunction (n : Nat) (t : Int) (s : State) : State :=
  let warn := decide (s.tjWarn ≤ t) || (s.flag (.pwr .TEMP_WARN) n && decide (s.tjWarn - 12 < t))
  let s := (s.putInt (.pwr .TEMP_TEMP) t n).putB (.pwr .TEMP_WARN) warn n
  s.put (.pwr .xTRIP) (if 500 ≤ t then min 3 (s.get (.pwr .xTRIP) n + 1) else 0) n

/-- The case sensor is read, with 2 degrees of hysteresis at either end (R493). -/
def sampleCase (t : Int) (s : State) : State :=
  let hi := decide (caseMax < t) || (s.flag (.pwr .STATUS_CASE_HI) && decide (caseMax - 8 < t))
  let lo := decide (t < caseMin) || (s.flag (.pwr .STATUS_CASE_LO) && decide (t < caseMin + 8))
  let s := (s.putB (.pwr .STATUS_CASE_HI) hi).putB (.pwr .STATUS_CASE_LO) lo
  (s.putInt (.pwr .TEMP_TEMP) t 11).putB (.pwr .TEMP_WARN) (hi || lo) 11

/-- Sensor `n` is read.
DESIGN CHOICE, log 28. -/
def sampleOne (n : Nat) (t : Int) (s : State) : State :=
  (if n < 11 then sampleJunction n t s else if n = 11 then sampleCase t s else s).when (decide (n < 12))
    (fun s => s.put (.pwr .TEMP_VALID) 1 n)

/-- The hottest sensor that contributes to a warning. -/
def State.hottest (s : State) : Nat :=
  ((List.range 12).filter (fun n => s.flag (.pwr .TEMP_WARN) n)).foldl (fun b n =>
    if s.flag (.pwr .TEMP_WARN) b && decide (s.int (.pwr .TEMP_TEMP) n ≤ s.int (.pwr .TEMP_TEMP) b) then b else n) 0

/-- A DRAM group has read beyond its 4x range for 100 ms (R494). -/
def State.groupHot (s : State) (g : Nat) : Bool :=
  s.get (.pwr .xMR4_AT) g != 0 && elapsedNs (s.get (.pwr .xMR4_AT) g - 1) s.osc (100 * msNs)

/-- A rail is measured (R505): what it reads is free, and so is whether one that was out of its window is back in it.
DESIGN CHOICE, log 28. -/
def meterRail (k : Nat) (s : State) : State :=
  let (v, s) := s.free
  let (w, s) := s.free
  (s.put (.pwr .RAIL_MV) v k).when (!s.flag (.pwr .RAIL_IN_WINDOW) k) (fun s => s.put (.pwr .RAIL_IN_WINDOW) w k)

/-- The power controller measures the input current, the input power with its peak, the energy drawn since the last sample, and
the rails (R505); what it finds is free.
DESIGN CHOICE, log 28. -/
def meterPower (s : State) : State :=
  let (i, s) := s.free
  let (p, s) := s.free
  let (e, s) := s.free
  let s := (s.put (.pwr .INPUT_IIN) i).put (.pwr .POWER_PIN) p
  let s := s.put (.pwr .POWER_PEAK) (max (s.get (.pwr .POWER_PEAK)) (s.get (.pwr .POWER_PIN)))
  forEach (List.range 9) meterRail (s.bump (.pwr .ENERGY) 0 0 0 e)

/-- The sensors are read (R492): the warnings and their source follow, and a trip is Grave (R493, R494). -/
def thermalSample (temps : List Int) (s : State) : State :=
  let s := meterPower s
  let s := forEach (List.range temps.length) (fun n s => sampleOne n (temps.getD n 0) s) s
  let s := s.putB (.pwr .STATUS_TJ_WARN) ((List.range 11).any (fun n => s.flag (.pwr .TEMP_WARN) n))
  let warn := s.flag (.pwr .STATUS_TJ_WARN) || s.flag (.pwr .STATUS_CASE_HI) || s.flag (.pwr .STATUS_CASE_LO)
  let s := evLevel 901 warn s.hottest s
  let trips := ((List.range 11).filter (fun n => s.get (.pwr .xTRIP) n == 3)) ++
    ((List.range 8).filter s.groupHot).map (· + 16)
  forEach trips (fun n s => raise 0x86 2 n 0
    (if n < 16 then s.put (.pwr .xTRIP) 0 n else s.put (.pwr .xMR4_AT) (s.osc + 1) (n - 16))) s

/-- THERMAL_SAMPLE (R492). -/
def execThermalSample (temps : List Int) (now : Now) (s : State) : Host.Outcome State Fault Refusal :=
  s.runAt now (thermalSample temps)

end Sys2Proof.Machine
end

