-- ==== Sys2Proof/Machine/Stirrups.lean ====
section
/-!
DEFINITION. Host ports, Stirrups and negotiation (chapter 17) but for the generic register write: the Stirrups, HIR
negotiation, the port reset, configuration requests, link training, and the quotes of R431.
-/

namespace Sys2Proof.Machine

/-- The offset of a Stirrup's register. -/
def stirrupAddr (n off : Nat) : Nat := 0x11000 + 0x10 * n + off

/-- The lease of a Stirrup starts, or starts again (R408): a new lease value applies from here on. -/
def leaseStart (n : Nat) (s : State) : State :=
  let ms := min 10000 (s.get (.hpt .STR_LEASE_MS) n)
  s.put (.hpt .xLEASE_DUE) (if ms = 0 then 0 else s.dueIn (ms * msNs)) n

/-- A Stirrup is granted to a party (R406). -/
def grantStirrup (n p : Nat) (s : State) : State := leaseStart n (s.put (.hpt .STR_STATUS_OWNER) p n)

/-- The taker that a free Stirrup is granted to: the first from its round-robin pointer on (R409).
DEDUCED, log 34. -/
def firstTaker (ptr : Nat) (takers : List Nat) : Option Nat :=
  ((List.range 4).map (fun k => (ptr + k) % 4)).find? (fun p => takers.contains p)

/-- The takes of one edge by parties (R406, R409).
DEDUCED, log 34. -/
def takeEdge (n : Nat) (takers : List Nat) (s : State) : State :=
  let o := s.get (.hpt .STR_STATUS_OWNER) n
  if o = 7 then
    match firstTaker (s.get (.hpt .xRR) n) takers with
    | none => s
    | some w =>
      let s := s.when (decide (2 ≤ takers.length)) (fun s => s.put (.hpt .xRR) ((w + 1) % 4) n)
      grantStirrup n w s
  else if takers.contains o then leaseStart n s
  else s

/-- What a taker reads, from the holder before the edge and after it (R406). -/
def takeValue (p before after gen : Nat) : Nat :=
  after + gen * 2 ^ 16 + (if before = p then 2 ^ 30 else 0) + (if after = p then 2 ^ 31 else 0)

/-- The takes of one edge, with the value that each taker reads. -/
def stirrupTake (n : Nat) (takers : List Nat) (s : State) : State :=
  let t := takeEdge n takers s
  forEach takers (fun p u => u.emit (.read p (stirrupAddr n 0)
    (takeValue p (s.get (.hpt .STR_STATUS_OWNER) n) (t.get (.hpt .STR_STATUS_OWNER) n) (t.get (.hpt .STR_STATUS_GEN) n)))) t

/-- STIRRUP_TAKE (R406). -/
def execStirrupTake (n : Stirrup) (takers : List Party) (s : State) : Host.Outcome State Fault Refusal :=
  s.run (stirrupTake n (takers.map (·.num)))

/-- A write of `HPT_STR_REL[n]` (R407): a release by the holder with the right GEN, or with FORCE by anyone. -/
def strRelWrite (p : Party) (n v : Nat) (s : State) : State :=
  let o := s.get (.hpt .STR_STATUS_OWNER) n
  if bitOf v 31 then
    if o = 7 then s else raise 0x07 2 n 1 (freeStirrup n s)
  else if o = p.num ∧ bitsOf v 16 8 = s.get (.hpt .STR_STATUS_GEN) n then freeStirrup n s
  else s.put (.hpt .STR_STATUS_REL_ERR) 1 n

/-- STIRRUP_RELEASE (R407). -/
def execStirrupRelease (p : Party) (n : Stirrup) (v : Word) (s : State) : Host.Outcome State Fault Refusal :=
  s.run (gated p .hpt none (strRelWrite p n (withBits v.toNat 31 1 0)))

/-- STIRRUP_FORCE (R407). -/
def execStirrupForce (p : Party) (n : Stirrup) (v : Word) (s : State) : Host.Outcome State Fault Refusal :=
  s.run (gated p .hpt none (strRelWrite p n (withBits v.toNat 31 1 1)))

/-- A holding that is not renewed within its lease ends (R408). No lease runs in Winter (R410). -/
def leaseExpire (n : Nat) (s : State) : State :=
  if s.get (.hpt .STR_STATUS_OWNER) n ≠ 7 && s.expired (.hpt .xLEASE_DUE) n && !s.inWinter then
    let s := freeStirrup n (s.put (.hpt .xLEASE_DUE) 0 n)
    raise 0x07 2 n 2 (evPulse 896 n s)
  else s

/-- LEASE (R408). -/
def execLease (n : Stirrup) (now : Now) (s : State) : Host.Outcome State Fault Refusal := s.runAt now (leaseExpire n)

/-- A write of `HPT_HIR_SEL[n]` (R411, R417): only by port `n`, and refused before step 5 of start-up ends or for a
MAJOR other than 1. -/
def hirSelWrite (p : Party) (n v : Nat) (s : State) : State :=
  if p.num ≠ n then s
  else if s.get (.mid .BOOT_STEP) < 5 ∨ bitsOf v 8 8 ≠ 1 then s.put (.hpt .PORT_STATUS_HIR_REFUSED) 1 n
  else
    let s := s.put (.hpt .PORT_STATUS_MINOR) (min (v % 256) (s.get (.mid .HIR_MINOR_MAX))) n
    (s.put (.hpt .PORT_STATUS_MAJOR) 1 n).put (.hpt .PORT_STATUS_HIR_OK) 1 n

/-- HIR_SEL (R411). -/
def execHirSel (p : Party) (n : HostPort) (v : Word) (s : State) : Host.Outcome State Fault Refusal :=
  s.run (gated p .hpt none (hirSelWrite p n v.toNat))

/-- The signing engine takes the request at the head of its queue: the quote covers AGG as it stands on this edge, and
GO of a host port clears (R431). -/
def State.aggNow (s : State) : Nat :=
  (List.range 12).foldl (fun a i => a * 2 ^ 32 + s.get (.mid .MLOG_AGG_AGG) i) 0

def quoteTake (s : State) : State :=
  match s.quotes with
  | [] => s
  | q :: t =>
    let s : State := { s with quotes := { q with agg := s.aggNow } :: t }
    s.when (decide (q.who < 2)) (fun s => s.put (.mid .QUOTE_CTRL_GO) 0 q.who)

/-- A request joins the queue, in order of arrival; an idle engine takes it at once (R431). -/
def quoteAsk (q : QuoteReq) (s : State) : State :=
  let idle := s.quotes.isEmpty
  let s : State := { s with quotes := s.quotes ++ [q] }
  s.when idle quoteTake

/-- A request leaves the queue, and the next is taken if it was the one being served. -/
def quoteDrop (who : Nat) (s : State) : State :=
  let head := match s.quotes with
    | [] => false
    | q :: _ => q.who == who
  let s : State := { s with quotes := s.quotes.filter (fun q => q.who != who) }
  s.when head quoteTake

/-- DATA of a port reads 0 while VALID is 0 (R431). -/
def quoteClear (n : Nat) (s : State) : State :=
  forEach (List.range 52) (fun i s => s.put (.mid .QUOTE_DATA_DATA) 0 n i) (s.put (.mid .QUOTE_CTRL_VALID) 0 n)

/-- A write of `MID_QUOTE_CTRL[n]` (R431): only by port `n`; GO while a request is pending changes nothing. -/
def quoteCtrlWrite (p : Party) (n v : Nat) (s : State) : State :=
  if p.num ≠ n then s
  else
    let s := s.when (bitOf v 3) (fun s => s.put (.mid .QUOTE_CTRL_FAILED) 0 n)
    s.when (bitOf v 0 && !s.flag (.mid .QUOTE_CTRL_BUSY) n) (fun s =>
      let nonce := (List.range 8).flatMap (fun i => beBytes 4 (s.get (.mid .QUOTE_NONCE_NONCE) n i))
      let s := (quoteClear n s).put (.mid .QUOTE_CTRL_BUSY) 1 n
      quoteAsk ⟨n, nonce, 0⟩ (s.put (.mid .QUOTE_CTRL_GO) 1 n))

/-- A write of a nonce word (R431): ignored from the other port and while BUSY is 1. -/
def nonceWrite (p : Party) (n i v : Nat) (s : State) : State :=
  s.when (p.num == n && !s.flag (.mid .QUOTE_CTRL_BUSY) n) (fun s => s.put (.mid .QUOTE_NONCE_NONCE) v n i)

/-- QUOTE_GO (R431). -/
def execQuoteGo (p : Party) (n : HostPort) (v : Word) (s : State) : Host.Outcome State Fault Refusal :=
  s.run (gated p .mid none (quoteCtrlWrite p n (withBits v.toNat 0 1 1)))

/-- The 208 bytes of a quote (R432). -/
def State.quoteBytes (s : State) (q : QuoteReq) : List Byte :=
  let body := beBytes 4 0x45545131 ++ beBytes 2 0x0E48 ++ beBytes 1 q.who ++ beBytes 1 (s.get (.mid .MLOG_STATUS_LOG_FULL)) ++
    beBytes 8 Config.fuseSerial.toNat ++ fit 32 q.nonce ++ beBytes 48 q.agg ++ beBytes 2 (s.get (.mid .MLOG_STATUS_COUNT)) ++
    List.replicate 6 0 ++ beBytes 8 (if s.tbState = tbFREE then 0 else s.tai)
  body ++ beBytes 96 (Config.sign (Config.sha384 body)).toNat

/-- The signing engine is done with the request it serves (R431). The spec names no code for the Notice of a failure.
DESIGN CHOICE, log 36. -/
def quoteDone (ok : Bool) (s : State) : State :=
  match s.quotes with
  | [] => s
  | q :: t =>
    let bytes := s.quoteBytes q
    let s : State := { s with quotes := t }
    let s :=
      if ok then
        if q.who < 2 then
          let s := forEach (List.range 52) (fun i s => s.put (.mid .QUOTE_DATA_DATA) (beAt bytes (4 * i) 4) q.who i) s
          (s.put (.mid .QUOTE_CTRL_BUSY) 0 q.who).put (.mid .QUOTE_CTRL_VALID) 1 q.who
        else s.emit (.quote (q.who - 2) bytes)
      else
        let s := s.when (decide (q.who < 2)) (fun s =>
          (s.put (.mid .QUOTE_CTRL_BUSY) 0 q.who).put (.mid .QUOTE_CTRL_FAILED) 1 q.who)
        let (c, s) := s.free
        let (l, s) := s.free
        let (x, s) := s.free
        raise (1 + c % 13) 2 (l % 2 ^ 32) (x % 2 ^ 32) s
    quoteTake s

/-- QUOTE_COMPLETE (R431). -/
def execQuoteComplete (ok : Bool) (now : Now) (s : State) : Host.Outcome State Fault Refusal := s.runAt now (quoteDone ok)

/-- A Tether partner asks for a quote (R431): one request of a link at a time. -/
def tetherQuote (l : Nat) (nonce : List Byte) (s : State) : State :=
  s.when (s.flag (.mid .TTH_REV_UP) l && !s.quotes.any (fun q => q.who == 2 + l)) (quoteAsk ⟨2 + l, nonce, 0⟩)

/-- TETHER_QUOTE_REQUEST (R431). -/
def execTetherQuoteRequest (l : Link) (nonce : List Byte) (s : State) : Host.Outcome State Fault Refusal :=
  s.run (tetherQuote l nonce)

/-- Every enabled queue of a port halts (R398); a running descriptor ends with HOST_ERR. -/
def portHalt (n d q : Nat) (s : State) : State :=
  s.when (s.dieUp d && s.flag (.dma .Q_CFG_EN) d q && s.qOwner d q == n && !s.flag (.dma .Q_STATUS_HALTED) d q) (fun s =>
    if s.qRuns d q then completeHalt d q dsHOST_ERR s else haltQueue d q dsHOST_ERR s)

/-- A port reset (R398): a link-down, which takes the link to 0, or a hot or function level reset, which does not; the
command does not tell which.
DESIGN CHOICE, log 35. -/
def portReset (n : Nat) (s : State) : State :=
  let s := freeStirrupsOf n s
  let s := s.when (!s.safe) (fun s => forEach [0, 1] (fun d s => forEach (List.range 32) (fun q s => portHalt n d q s) s) s)
  let s := forEach [0, 1] (fun d s => s.when (!s.hostBusy d n) (fun s => s.put (.pdk .HRES_VALID) 0 d n)) s
  let s := s.keepKeys (fun k => !(k.fld == .hpt .xLATCH && k.i == n))
  let s := quoteDrop n (quoteClear n ((s.put (.mid .QUOTE_CTRL_BUSY) 0 n).put (.mid .QUOTE_CTRL_GO) 0 n))
  let s := s.when ((s.get (.fwu .STATUS_STATE) == 1 || s.get (.fwu .STATUS_STATE) == 2) &&
    s.get (.fwu .STATUS_OWNER) == n) (abandonSession 0)
  let s := ((s.put (.hpt .PORT_STATUS_HIR_OK) 0 n).put (.hpt .PORT_STATUS_MINOR) 0 n).put (.hpt .PORT_STATUS_MAJOR) 0 n
  let s := (s.put (.hpt .ERR_BAD_ACCESS) 0 n).put (.hpt .ERR_UNNEG_WRITE) 0 n
  let (v, s) := s.free
  let s := s.when (v % 2 == 1) (fun s => (s.put (.hpt .PORT_STATUS_SPEED) 0 n).put (.hpt .PORT_STATUS_WIDTH) 0 n)
  s.put (.hpt .PORT_STATUS_PORT_RESET) 1 n

/-- PORT_RESET (R398). -/
def execPortReset (n : HostPort) (s : State) : Host.Outcome State Fault Refusal := s.run (portReset n)

/-- The strap lets a port bring its link up (R419). -/
def State.portEnabled (s : State) (n : Nat) : Bool :=
  if n = 0 then s.flag (.mid .STRAP_HA_EN) else s.flag (.mid .STRAP_HB_EN)

/-- Configuration requests are answered with retry status (R417, R418, R453): until step 6 ends, but for the cases in which the
ports come up without it.
DEDUCED, log 37. -/
def State.retryStatus (s : State) : Bool :=
  decide (s.get (.mid .BOOT_STEP) < 6) && !s.safe && !s.flag (.mid .BOOT_RECOVERY)

/-- A configuration request (R417), which may write MSI-X Enable of its port: answered normally it has its effect, and a message that
is pending is sent when MSI-X is enabled (R399).
PRESUMED, log 113. -/
def configRequest (n : Nat) (msix : Option Bool) (s : State) : State :=
  s.when (s.portEnabled n) (fun s =>
    let s := s.emit (.config n s.retryStatus)
    match msix with
    | some b => s.when (!s.retryStatus) (fun s => msixRelease n (s.putB (.hpt .xMSIX_EN) b n))
    | none => s)

/-- PCIE_CONFIG_REQUEST (R417). -/
def execPcieConfigRequest (q : ConfigReq) (s : State) : Host.Outcome State Fault Refusal :=
  s.run (configRequest q.port q.msix)

/-- A host port's link trains (R397): SPEED and WIDTH report it. A port whose strap is low keeps its link down (R419). -/
def hostLinkUp (n speed width : Nat) (s : State) : State :=
  s.when (s.portEnabled n) (fun s => (s.put (.hpt .PORT_STATUS_SPEED) speed n).put (.hpt .PORT_STATUS_WIDTH) width n)

/-- HOST_LINK_UP (R397). -/
def execHostLinkUp (n : HostPort) (speed width : Nat) (s : State) : Host.Outcome State Fault Refusal :=
  s.run (hostLinkUp n speed width)

end Sys2Proof.Machine
end

