-- ==== Sys2Proof/Machine/Seasons.lean ====
section
/-!
DEFINITION. The seasons (R483 to R490): gating in Autumn, the entry to Winter, and Spring.
-/

namespace Sys2Proof.Machine

-- Autumn

/-- A cluster that has been idle for 1 ms with AUTUMN_EN set is gated (R484). -/
def clusterGate (c : Nat) (s : State) : State :=
  let at' := s.get (.pwr .xGATE_AT) c
  s.when (!s.safe && s.flag (.pwr .CTRL_AUTUMN_EN) && decide (s.get (.pwr .STATUS_SEASON) ≤ 1) && !s.gatedC c &&
    s.gateIdle c && at' != 0 && elapsedNs (at' - 1) s.osc msNs) (setGates [c] true)

/-- CLUSTER_GATE (R484). -/
def execClusterGate (c : ClusterIx) (now : Now) (s : State) : Host.Outcome State Fault Refusal := s.runAt now (clusterGate c)

/-- Every cluster is ungated (R484, R489). -/
def ungateAll (s : State) : State := setGates (List.range 32) false s

-- Requests

/-- A request for Winter is refused (R486).
DEDUCED, log 94. -/
def State.winterBar (s : State) : Bool :=
  s.safe || s.dieOff 0 || s.dieOff 1 || s.dieHeld 0 || s.dieHeld 1 || !s.dieUp 0 || !s.dieUp 1 ||
  decide (2 ≤ s.get (.pwr .STATUS_SEASON)) || (List.range 48).any (fun ch => s.get (.cch .STATUS_STATE) ch == chLEAVING)

/-- A request for Winter is accepted (R487).
DEDUCED, log 94. -/
def winterAccept (s : State) : State :=
  ((((s.put (.pwr .STATUS_WINTER_PENDING) 1).put (.pwr .CTRL_WINTER) 0).put (.pwr .xWIN_STEP) 1).put (.pwr .xWIN_AT) s.osc).put
    (.pwr .xWIN_TAI) s.tai

/-- A request for Winter (R486, R451, R490): refused, deferred while the FWU state is not IDLE, or accepted. One that is pending
already changes nothing.
DEDUCED, log 94. -/
def winterReq (s : State) : State :=
  if s.flag (.pwr .STATUS_WINTER_PENDING) then s
  else if s.winterBar then s.put (.pwr .STATUS_WINTER_REFUSED) 1
  else if s.fwuState ≠ 0 then (s.put (.pwr .STATUS_WINTER_PENDING) 1).put (.pwr .CTRL_WINTER) 1
  else winterAccept s

/-- The segments of a group that Winter keeps (R321).
DESIGN CHOICE, log 96. -/
def State.keptSegs (s : State) (g : Nat) : List Nat :=
  let held := s.bufs.filter (fun b => b.grp == g && (decide (b.owner < 48) || [56, 57, 58, 61, 62, 63].contains b.owner))
  (List.range 8).filter (fun k => held.any (fun b =>
    decide (s.bufAddr b < (k + 1) * 2 ^ 29) && decide (k * 2 ^ 29 < s.bufAddr b + classSize b.cls)))

/-- A dropped segment reads as never written after Winter (R322, R312). -/
def segDropped (s : State) (g la : Nat) : Bool := !bitOf (s.get (.dmc .PASR_KEEP) g) (segOf la)

/-- The groups leave self-refresh (R322): the initialisation bits of every dropped segment clear, with the marks of its lines. -/
def groupsWake (s : State) : State :=
  let gone := fun k : Key => match k.fld with
    | .dmc .xINIT | .dmc .xROW_SEQ => segDropped s k.i (k.j * 32)
    | .dmc .xPOIS | .dmc .xSEQ | .dmc .xSIDE | .dmc .xPERR | .dmc .xWB | .dmc .xWB_SIDE | .dmc .xWB_SLICE | .dmc .xSTALE =>
      segDropped s k.i k.j
    | _ => false
  let t := s.keepKeys (fun k => !gone k)
  let t : State := { t with dram := t.dram.keep (fun a => !segDropped s (a / 2 ^ 32) (a % 2 ^ 32 / 256)),
                            plog := t.plog.filter (fun p => !segDropped s p.grp p.la) }
  forEach (List.range 8) (fun g t =>
    let n := ((t.store.keysOf (.dmc .xINIT)).filter (fun k => k.i == g)).length
    let t := t.put (.dmc .xREF_AT) (4 * t.osc) g
    (t.put (.dmc .xINIT_N) n g).putB (.dmc .GRP_STATUS_INIT_DONE) (decide (grpRows ≤ n)) g) t

/-- A timeout edge moved on by the time for which it did not run.
DESIGN CHOICE, log 96. -/
def dueShift (f : Fld) (i by' : Nat) (s : State) : State := s.when (s.get f i != 0) (fun s => s.put f (s.get f i + by') i)

/-- What ran no timeout in Winter goes on (R370, R410, R442): claims and the update session keep what was left, and every lease
starts from its full value.
DESIGN CHOICE, log 96. -/
def timersResume (s : State) : State :=
  let off := s.osc - s.get (.pwr .xWINTER_AT)
  let s : State := { s with claims := s.claims.map (fun c => { c with due := c.due + off }) }
  let s := dueShift (.fwu .xXFER_DUE) 0 off s
  forEach (List.range 64) (fun n s => s.when (s.get (.hpt .xLEASE_DUE) n != 0) (leaseStart n)) s

/-- Spring begins (R489, R322, R380). -/
def springBegin (s : State) : State :=
  let s := ((s.put (.pwr .CTRL_SPRING) 0).put (.pwr .xSPRING_PEND) 0).put (.pwr .xSPRING_AT) s.osc
  setSeason 3 (timersResume (groupsWake s))

/-- A request for Spring (R489, R490): it begins Spring in Winter, cancels an entry before E, waits after E, and is otherwise
ignored. -/
def springReq (s : State) : State :=
  if s.inWinter then springBegin s
  else if s.get (.pwr .xWIN_STEP) = 2 then (s.put (.pwr .CTRL_SPRING) 1).put (.pwr .xSPRING_PEND) 1
  else if s.flag (.pwr .STATUS_WINTER_PENDING) then
    ((s.put (.pwr .STATUS_WINTER_PENDING) 0).put (.pwr .CTRL_WINTER) 0).put (.pwr .xWIN_STEP) 0
  else s

/-- A write of `PWR_CTRL` (R484, R486, R489). A bit that still reads 1 takes no further request (R12). -/
def pwrCtrlWrite (v : Nat) (s : State) : State :=
  let s := s.putB (.pwr .CTRL_AUTUMN_EN) (bitOf v 0)
  let s := s.when (!bitOf v 0 && s.get (.pwr .STATUS_GATED) != 0) ungateAll
  let w := s.flag (.pwr .CTRL_WINTER)
  let p := s.flag (.pwr .CTRL_SPRING)
  let s := s.when (bitOf v 1 && !w) winterReq
  s.when (bitOf v 2 && !p) springReq

/-- WINTER (R486): a write of `PWR_CTRL` with WINTER set. -/
def execWinter (p : Party) (v : Word) (s : State) : Host.Outcome State Fault Refusal :=
  s.run (gated p .pwr none (pwrCtrlWrite (withBits v.toNat 1 1 1)))

/-- SPRING (R489): a write of `PWR_CTRL` with SPRING set. -/
def execSpring (p : Party) (v : Word) (s : State) : Host.Outcome State Fault Refusal :=
  s.run (gated p .pwr none (pwrCtrlWrite (withBits v.toNat 2 1 1)))

/-- AUTUMN_EN_WRITE (R484): a write of `PWR_CTRL` with neither request. -/
def execAutumnEnWrite (p : Party) (v : Word) (s : State) : Host.Outcome State Fault Refusal :=
  s.run (gated p .pwr none (pwrCtrlWrite (v.toNat % 2)))

-- The entry

/-- Boundary E of an accepted entry is reached (R487): the first picture boundary of the slowest domain at least 1 ms after
acceptance, or 1 ms after it. -/
def State.atE (s : State) : Bool :=
  if s.tbState ≠ tbFREE && s.anyDomInUse then
    let dom := s.slowest
    decide (s.boundaryFrom dom (s.get (.pwr .xWIN_TAI) + msNs) ≤ s.ticksNow dom)
  else elapsedNs (s.get (.pwr .xWIN_AT)) s.osc msNs

/-- A channel at boundary E (R487, R167): it waits for Spring, and its picture in progress is not stored.
DEDUCED, log 95. -/
def chWinter (ch : Nat) (s : State) : State :=
  let st := s.get (.cch .STATUS_STATE) ch
  s.when (st == chRUNNING || st == chLEAVING) (fun s =>
    let s := consume (s.inputs.filter (fun i => i.ch == ch)) (dropWork ch 0 (dropWork ch 1 s))
    let s : State := { s with units := s.units.filter (fun u => u.ch != ch) }
    let s := s.keepKeys (fun k => !(k.ofPic && k.i == ch))
    let s := ((s.put (.cch .CTRL_MOVE_DIE) 0 ch).put (.cch .CTRL_HANDOVER) 0 ch).put (.cch .xMOVE_AT) 0 ch
    let s := (s.put (.cch .xHO) 0 ch).put (.cch .xDONE) (s.get (.cch .xPIC) ch) ch
    let dom := s.chDom ch
    let s := s.put (.cch .xWAIT) (if s.rasterRuns dom then s.picNow dom + 1 else 0) ch
    setChState ch chWAITING (s.put (.cch .xRESUME) 3 ch))

/-- What happens at E (R487, steps 2 and 3): channels wait, the Ostlers start no routine but run to their next yield point, and the
Tether links go down.
DEDUCED, log 95. -/
def winterQuiesce (s : State) : State :=
  s.when (!s.safe && s.get (.pwr .xWIN_STEP) == 1 && s.atE) (fun s =>
    let s := forEach (List.range 48) chWinter (s.put (.pwr .xWIN_STEP) 2)
    let s := forEach [0, 1] (fun d s => poolSettle d (s.put (.ost .xQUIET) 1 d)) s
    forEach [0, 1, 2] (fun l s => s.when (s.flag (.mid .TTH_REV_UP) l) (tetherShow l false)) s)

/-- WINTER_QUIESCE (R487). -/
def execWinterQuiesce (now : Now) (s : State) : Host.Outcome State Fault Refusal := s.runAt now winterQuiesce

/-- Nothing of the drain is left: no descriptor runs, and the Bridle and the link hold no copy (R487). -/
def State.drained (s : State) : Bool :=
  s.dmaRunning 0 == 0 && s.dmaRunning 1 == 0 && s.copies.isEmpty && s.cross.isEmpty

/-- The end of the entry (R487, steps 4 and 5): refresh debt is repaid, the PASR masks are set, every SerDes is unpowered, and the
state is WINTER. A Spring that was asked for begins on the next edge (R490).
DEDUCED, log 95. -/
def winterDrained (s : State) : State :=
  s.when (!s.safe && s.get (.pwr .xWIN_STEP) == 2 && s.drained) (fun s =>
    let s := forEach (List.range 8) (fun g s =>
      (s.put (.dmc .GRP_STATUS_REF_DEBT) 0 g).put (.dmc .PASR_KEEP) ((s.keptSegs g).foldl (fun a k => a + 2 ^ k) 0) g) s
    let s := forEach [0, 1] (fun d s => forEach [0, 1] (fun p s => s.put (.prs .PORT_CFG_LINK_UP) 0 d p) s) s
    let s := (s.put (.pwr .STATUS_WINTER_PENDING) 0).put (.pwr .xWIN_STEP) 0
    let s := setSeason 2 (s.put (.pwr .xWINTER_AT) s.osc)
    s.when (s.flag (.pwr .xSPRING_PEND)) springBegin)

/-- WINTER_DRAINED (R487). -/
def execWinterDrained (now : Now) (s : State) : Host.Outcome State Fault Refusal := s.runAt now winterDrained

-- Spring

/-- The timeouts of a die start again from their full values (R488). -/
def dieTimers (d : Nat) (s : State) : State :=
  let s := forEach ([.route, .flow, .bridge] : List TableId) (fun t s =>
    s.when (s.get (.fwd .xCMD_DUE) d (tblIx t) != 0) (fun s => s.put (.fwd .xCMD_DUE)
      (s.dueIn (clampTo 10 10000 (s.get (.fwd .CMD_TO_TO) d) * usNs)) d (tblIx t))) s
  let s := s.when (s.get (.fwd .xAGE_NEXT) d != 0) (fun s => s.put (.fwd .xAGE_NEXT) (s.dueIn (s.agePeriodNs d)) d)
  let s : State := { s with mheld := s.mheld.map (fun m => if m.die = d then { m with arr := s.osc } else m) }
  s.when (s.ostRuns d) (ostMark d)

/-- A channel that waits since E runs again at the next picture boundary of its domain (R489). -/
def chSpring (ch : Nat) (s : State) : State :=
  let dom := s.chDom ch
  s.when (s.get (.cch .xRESUME) ch == 3 && s.get (.cch .STATUS_STATE) ch == chWAITING) (fun s =>
    s.put (.cch .xWAIT) (if s.rasterRuns dom then s.picNow dom + 1 else 0) ch)

/-- The Ostler of a die takes up its work again. -/
def ostSpring (d : Nat) (s : State) : State := s.when (s.dieUp d) (ostWake d)

/-- Host ports whose signal stands as it did before Spring send a new message (R380). -/
def springMessages (old s : State) : State :=
  forEach [0, 1] (fun t s => s.when (old.flag (.evc .TGT_STATUS_SIGNAL) t && s.flag (.evc .TGT_STATUS_SIGNAL) t) (sendMsix t)) s

/-- Rails, DRAM and links are up (R489, step 5): the state is SUMMER with nothing gated, ingress resumes, and so do the routines. A
block that waits for its check restarts its flash timeout.
DESIGN CHOICE, log 96. -/
def springComplete (s : State) : State :=
  s.when (!s.safe && s.get (.pwr .STATUS_SEASON) == 3) (fun old =>
    let s := old
    let s := forEach [0, 1] (fun d s => forEach [0, 1] (fun p s => s.put (.prs .PORT_CFG_LINK_UP)
      (s.get (.prs .PORT_CFG_EN) d p % 2 ^ subPorts (s.get (.prs .PORT_CFG_MODE) d p)) d p) s) s
    let s := setSeason 0 (ungateAll s)
    let s := forEach [0, 1] (fun d s => dieTimers d (s.put (.ost .xQUIET) 0 d)) s
    let s := s.when s.blkHeld (fun s => s.put (.fwu .xSUB_DUE) (s.dueIn (clampTo 1 1000 (s.get (.fwu .FLASH_TO_MS)) * msNs)))
    springMessages old (forEach [0, 1] ostSpring (forEach (List.range 48) chSpring s)))

/-- SPRING_COMPLETE (R489). -/
def execSpringComplete (now : Now) (s : State) : Host.Outcome State Fault Refusal := s.runAt now springComplete

end Sys2Proof.Machine
end

