-- ==== Sys2Proof/Machine/RegRead.lean ====
section
/-!
DEFINITION. Reads of registers (R14, R401, R403, R404, R411, R453): the fields that show other state rather than a value of
their own, the 64-bit pairs and their latches, and the four reads that take.
-/

namespace Sys2Proof.Machine

/-- The MID fields that the fuses give (R1, R15). -/
def midView (f : Mid) (old : Nat) : Nat :=
  match f with
  | .TYPE_TYPE => 0x0E48
  | .TYPE_GRADE => Config.fuseGrade.toNat
  | .TYPE_STEPPING => Config.fuseStepping.toNat
  | .SERIAL_LO_SERIAL_LO => Config.fuseSerial.toNat % 2 ^ 32
  | .SERIAL_HI_SERIAL_HI => Config.fuseSerial.toNat / 2 ^ 32
  | _ => old

/-- The EVC fields that show the claims and the FIFOs (R363, R372, R381). -/
def evcView (f : Evc) (i old : Nat) (s : State) : Nat :=
  match f with
  | .TGT_STATUS_RUN_LEVEL => s.runLevel i
  | .TGT_STATUS_ACTIVE_CNT => (s.activeOf i).length
  | .FIFO_STAT_LEVEL => s.fifoLevel i
  | .FIFO_STAT_FULL => (decide (512 ≤ s.fifoLevel i)).toNat
  | .SRC_CFG_ACTIVE => (s.srcActive i).toNat
  | _ => old

/-- Seconds in HOLDOVER, saturating (R68): those that earlier holdovers left and those of the one that runs. -/
def State.holdElapsed (s : State) : Nat :=
  if s.tbState = tbHOLDOVER then min 255 ((s.osc - s.get (.trs .xHOLD_AT)) / 1500000000)
  else s.get (.trs .STATUS_HOLD_ELAPSED)

/-- PPS_IN edges arrive at 1 s within 1 us: the last two did, and the next is not overdue (R68). -/
def State.ppsOk (s : State) : Bool :=
  s.flag (.trs .STATUS_PPS_OK) && !elapsedNs (s.get (.trs .xPPS_AT) - 1) s.osc (secNs + usNs + 1)

/-- The TRS fields that show the domains (R54, R56, R57, R68). -/
def trsView (f : Trs) (i old : Nat) (s : State) : Nat :=
  match f with
  | .STATUS_BUSIEST_DOM => s.busiest
  | .STATUS_SLOWEST_DOM => s.slowest
  | .STATUS_HOLD_ELAPSED => s.holdElapsed
  | .STATUS_PPS_OK => s.ppsOk.toNat
  | .DOM_FMT_CFG_ERR => (!s.domCfgOk i).toNat
  | .DOM_FMT_INUSE => (s.domInUse i).toNat
  | _ => old

/-- Units of a die that are idle spares (R209): a spare that re-executes a stripe is not. -/
def State.idleSpares (s : State) (l : List Nat) : Nat :=
  (l.filter (fun u => s.get (.cus .UNIT_STATE) u == 0 && !s.flag (.cus .UNIT_REEXEC) u)).length

/-- The CUS fields that show capacity (R31, R209). -/
def cusView (f : Cus) (i old : Nat) (s : State) : Nat :=
  match f with
  | .CAP_BOOKABLE => s.bookable i
  | .CAP_IN_SERVICE => ((dieUnits i).filter s.inService).length
  | .CAP_SPARES => s.idleSpares (dieUnits i)
  | .BOOKED_BOOKED => s.booked i
  | .CLUSTER_SPARE_IDLE => (s.idleSpares ((List.range 5).map (· + 5 * i)) != 0).toNat
  | _ => old

/-- The format of the picture in a slot. -/
def State.slotFmt (s : State) (ch k : Nat) : Fmt :=
  let c := s.get (.ref .xSL_C) ch k
  ⟨s.get (.ref .xSL_W) ch k, s.get (.ref .xSL_H) ch k, c == 1, s.get (.ref .xSL_D) ch k, c == 2, s.get (.ref .xSL_DC) ch k⟩

/-- Poisoned lines in the buffer that a slot holds (R172). -/
def State.slotPoison (s : State) (ch k : Nat) : Nat :=
  if s.get (.ref .SLOT_MARK) ch k = 0 ∨ s.get (.ref .xSL_BUF) ch k = 0 then 0
  else
    let (g, o) := s.bufAt (s.get (.ref .xSL_BUF) ch k - 1)
    ((List.range (s.slotFmt ch k).bufLines).filter (fun l => s.linePoison g (o / 256 + l) != 0)).length

/-- Frame buffers that a channel holds: its class buffers but for the slab of its debt map (R157, R164, R184).
DEDUCED, log 16. -/
def State.poolBufs (s : State) (ch : Nat) : Nat :=
  (s.bufs.filter (fun b => b.owner == ch && b.handle + 1 != s.get (.qrc .xSLAB) ch)).length

/-- A field of `REF_SLOT`. -/
def Ref.ofSlot (f : Ref) : Bool :=
  match f with
  | .SLOT_MARK | .SLOT_COMPLETE | .SLOT_POISONED | .SLOT_SUBST | .SLOT_GREY | .SLOT_PIC_ID => true
  | _ => false

/-- A slot reads 0 (R167, R184): entries 4 and 5 of a channel other than HEVC decode, and one that the channel's next picture finds empty
while the picture before still reads it. -/
def State.slotHidden (s : State) (ch k : Nat) : Bool :=
  (decide (4 ≤ k) && s.chWork ch != 3) || bitOf (s.get (.ref .xDROP) ch 0 0) k || bitOf (s.get (.ref .xDROP) ch 0 1) k

/-- The REF fields that show the slots (R165, R172, R184). -/
def refView (f : Ref) (i j old : Nat) (s : State) : Nat :=
  if f.ofSlot && s.slotHidden i j then 0
  else match f with
  | .STATUS_POOL_BUFS => s.poolBufs i
  | .POISON_LINES => (List.range 6).foldl (fun a k => a + s.slotPoison i k) 0
  | .SLOT_POISONED => (s.slotPoison i j != 0).toNat
  | _ => old

/-- The PRS fields that show the rule-set slots (R231). -/
def prsView (f : Prs) (i old : Nat) (s : State) : Nat :=
  match f with
  | .GEN_STATUS_INFLIGHT_OLD => min 4095 (s.inflightOld i)
  | .GEN_STATUS_RETIRED => (!s.slotOld i).toNat
  | _ => old

/-- The FWD fields that count what the tables hold (R265). -/
def fwdView (f : Fwd) (i old : Nat) (s : State) : Nat :=
  match f with
  | .OCC_RT_V4 => s.occRoutes i 0
  | .OCC_RT_V6 => s.occRoutes i 1
  | .OCC_BR_ENTRIES => s.occBridge i
  | .OCC_BR_STATIC => s.occStatic i
  | _ => old

/-- T0 less the alignment point of the picture, in 1/16 lines, for a bucket in RASTER mode on a decode channel (R273, R283). -/
def State.trOffset (s : State) (d h : Nat) : Option Nat :=
  if s.bktMode d h ≠ bktRASTER then none
  else ((List.range 48).find? (fun ch => s.chStarted ch && s.chDecodes ch && s.get (.cch .CTRL_HOME_DIE) ch == d &&
      s.chGet (.cch .FLOW_OUT_FLOW) ch == h && s.get (.cch .xPIC) ch != 0)).map (fun ch =>
    let n := s.get (.cch .xPIC) ch - 1
    (s.rowTicks ch n 0 + s.leadTicks ch n - n * s.picTicks (s.picWork ch n).dom) / 4096 % 2 ^ 24)

/-- The SHP fields that show a bucket's level (R283). -/
def shpView (f : Shp) (i j old : Nat) (s : State) : Nat :=
  match f with
  | .BKT_STATUS_NEG => (decide (s.tokens i j < 0)).toNat
  | .BKT_STATUS_TOKENS => (s.trOffset i j).getD (s.tokensField i j)
  | _ => old

/-- The PDK fields that show the pools (R298). -/
def pdkView (f : Pdk) (i j k old : Nat) (s : State) : Nat :=
  match f with
  | .CELL_FREE => s.cellFree i
  | .HRES_VALID => if s.hostBusy i j then 0 else old
  | .CELL_QUAR => min 16383 (s.get (.pdk .xQUAR) i)
  | .OWN_CHELD_HELD => s.cellsHeld i j
  | .OWN_RSV_HELD => (List.range 4).foldl (fun a r => a + s.bufsHeld (4 * i + r) k j) 0
  | .CLS_FREE => s.classFree i j
  | _ => old

/-- The OST fields that show the work of the sequencer (R396). -/
def ostView (f : Ost) (i j old : Nat) (s : State) : Nat :=
  match f with
  | .STATUS_DEPTH => s.get (.ost .xDEPTH) i 0
  | .CLASS_PENDING => min 1023 (s.ostPending i j)
  | .CLASS_STEP => s.get (.ost .xSTEP) i j
  | _ => old

/-- The value that a field shows: the one it holds, or what it is computed from. -/
def State.fieldView (s : State) (f : Fld) (i j k : Nat) : Nat :=
  let old := s.get f i j k
  match f with
  | .mid g => midView g old
  | .hpt g => match g with
    | .STR_STATUS_HELD => (s.get (.hpt .STR_STATUS_OWNER) i != 7).toNat
    | _ => old
  | .evc g => evcView g i old s
  | .trs g => trsView g i old s
  | .cch g => match g with
    | .STATUS_HOMED => 1
    | _ => old
  | .cus g => cusView g i old s
  | .ref g => refView g i j old s
  | .prs g => prsView g i old s
  | .fwd g => fwdView g i old s
  | .shp g => shpView g i j old s
  | .pdk g => pdkView g i j k old s
  | .dmc g => match g with
    | .STATUS_SCRUB_PAUSED => s.scrubPaused.toNat
    | .STATUS_RT_SAT => (s.rtSat i).toNat
    | _ => old
  | .dma g => match g with
    | .Q_STATUS_RX_WAIT => min 127 (s.rxWaiting i j)
    | _ => old
  | .chk g => match g with
    | .VAL_VAL => s.chkVal i j
    | _ => old
  | .ost g => ostView g i j old s
  | _ => old

/-- The fields of a register as a party reads them (R6, R13, R411). -/
def State.fieldsRead (s : State) (p : Party) (l : Loc) : Nat :=
  let m := l.ofParty p
  (l.rd.fields.filter (fun f => s.fieldFor p f.fld)).foldl
    (fun a f => a + s.fieldView f.fld m.i m.j m.k % 2 ^ f.len * 2 ^ f.lo) 0

/-- The 64-bit value of a pair (R14, R50, R55). -/
def State.pairValue (s : State) (f : Fld) (i j : Nat) : Nat :=
  match f with
  | .trs .NOW => s.tai % 2 ^ 64
  | .trs .DOM_POS => s.domPos i
  | _ => s.get f i j

/-- A read of the lo half of a pair takes the reader's latch (R403). -/
def latchRead (p : Party) (addr : Nat) (v : Nat) (s : State) : Nat × State :=
  (v % 2 ^ 32, { s with store := s.store.set (latchKey p addr) v })

/-- A channel's registers show only in the window of its home die (R22).
DEDUCED, log 12. -/
def State.awayChan (s : State) (l : Loc) : Bool :=
  match l.rd.mode with
  | .chan => s.get (.cch .CTRL_HOME_DIE) l.i != l.die.getD 0
  | _ => false

/-- A read of a Stirrup's TAKE register (R406): what the party alone takes, and the value it reads. -/
def takeRead (p n : Nat) (s : State) : Nat × State :=
  let t := takeEdge n [p] s
  (takeValue p (s.get (.hpt .STR_STATUS_OWNER) n) (t.get (.hpt .STR_STATUS_OWNER) n) (t.get (.hpt .STR_STATUS_GEN) n), t)

/-- A read of a register by a party that it answers (R14). -/
def locRead (p : Party) (addr : Nat) (l : Loc) (s : State) : Nat × State :=
  match l.rd.kind with
  | .lo f => latchRead p addr (s.pairValue f l.i l.j) s
  | .hi _ => (s.store.get (latchKey p (addr - 4)) / 2 ^ 32 % 2 ^ 32, s)
  | .plain =>
    match l.rd.reg with
    | .HPT_SELF => (p.num, s)
    | .HPT_STR_TAKE => takeRead p.num l.i s
    | .EVC_CLAIM => claimBy p l.i s
    | .EVC_FIFO_POP => popBy p l.i false s
    | _ => (s.fieldsRead p l, s)

/-- A place reads 0 for a party: the window of a die that is down or in Winter (R401, R488), the other die's window for an
Ostler (R396), and in recovery mode every block but four (R453).
DEDUCED, log 12. -/
def State.readShut (s : State) (p : Party) (b : Blk) (die : Option Nat) : Bool :=
  s.windowShut b die || foreignWindow p die ||
  (s.flag (.mid .BOOT_RECOVERY) && b != .mid && b != .hpt && b != .flt && b != .fwu)

/-- The MSI-X structures belong to the host ports (R399). -/
def noMsix (p : Party) (l : Loc) : Bool := p.port.isNone && (l.rd.reg == .HPT_MSIX || l.rd.reg == .HPT_PBA)

/-- The QRC registers of a decode channel, which read 0 and take no write (R139). -/
def State.noRate (s : State) (b : Blk) (l : Loc) : Bool := b == .qrc && s.chDecodes l.i

/-- A register read (R401, R403, R509): the value, and the state after what the read takes. An offset that holds no register
reads 0.
DEDUCED, log 12. -/
def regRead (p : Party) (addr : Nat) (s : State) : Nat × State :=
  match findReg addr with
  | none => (0, s)
  | some l =>
    if s.readShut p (placeOf addr).blk l.die || s.awayChan l || noMsix p l || s.noRate (placeOf addr).blk l then (0, s)
    else locRead p addr l s

/-- COUNTER_LO_READ (R403): a register read, which for the lo half of a pair takes the latch. -/
def execCounterLoRead (p : Party) (addr : Fin 67108864) (s : State) : Host.Outcome State Fault Refusal :=
  s.run (fun s =>
    let r := regRead p addr s
    r.2.emit (.read p.num addr r.1))

end Sys2Proof.Machine
end

