-- ==== Sys2Proof/Machine/Rows.lean ====
section
/-!
DEFINITION. The commands that are writes of the table, shaper and pool registers (R258, R260, R270, R283, R291, R298).
Each is the write of its register with the operation that its row names; the command that a table register starts ends
with TABLE_CMD_COMPLETE or TABLE_CMD_TIMEOUT.
-/

namespace Sys2Proof.Machine

/-- A write of a command register with an operation, among the bits that the party writes (R258). -/
def tableCmd (p : Party) (d : Die) (t : TableId) (op : Nat) (v : Word) (s : State) : Host.Outcome State Fault Refusal :=
  s.run (gated p .fwd (some d.val) (cmdWrite d t (withBits v.toNat 0 3 op)))

/-- RT_READ (R258, R260). -/
def execRtRead (p : Party) (d : Die) (v : Word) (s : State) : Host.Outcome State Fault Refusal :=
  tableCmd p d .route 1 v s

/-- RT_INSERT (R258, R260). -/
def execRtInsert (p : Party) (d : Die) (v : Word) (s : State) : Host.Outcome State Fault Refusal :=
  tableCmd p d .route 3 v s

/-- RT_DELETE (R258, R260). -/
def execRtDelete (p : Party) (d : Die) (v : Word) (s : State) : Host.Outcome State Fault Refusal :=
  tableCmd p d .route 4 v s

/-- RT_SEARCH (R258, R260). -/
def execRtSearch (p : Party) (d : Die) (v : Word) (s : State) : Host.Outcome State Fault Refusal :=
  tableCmd p d .route 5 v s

/-- FL_READ (R258, R260). -/
def execFlRead (p : Party) (d : Die) (v : Word) (s : State) : Host.Outcome State Fault Refusal :=
  tableCmd p d .flow 1 v s

/-- FL_WRITE (R258, R260). -/
def execFlWrite (p : Party) (d : Die) (v : Word) (s : State) : Host.Outcome State Fault Refusal :=
  tableCmd p d .flow 2 v s

/-- FL_INSERT (R258, R260). -/
def execFlInsert (p : Party) (d : Die) (v : Word) (s : State) : Host.Outcome State Fault Refusal :=
  tableCmd p d .flow 3 v s

/-- FL_DELETE (R258, R260). -/
def execFlDelete (p : Party) (d : Die) (v : Word) (s : State) : Host.Outcome State Fault Refusal :=
  tableCmd p d .flow 4 v s

/-- FL_SEARCH (R258, R260). -/
def execFlSearch (p : Party) (d : Die) (v : Word) (s : State) : Host.Outcome State Fault Refusal :=
  tableCmd p d .flow 5 v s

/-- BR_READ (R258, R260). -/
def execBrRead (p : Party) (d : Die) (v : Word) (s : State) : Host.Outcome State Fault Refusal :=
  tableCmd p d .bridge 1 v s

/-- BR_WRITE (R258, R260). -/
def execBrWrite (p : Party) (d : Die) (v : Word) (s : State) : Host.Outcome State Fault Refusal :=
  tableCmd p d .bridge 2 v s

/-- BR_INSERT (R258, R260). -/
def execBrInsert (p : Party) (d : Die) (v : Word) (s : State) : Host.Outcome State Fault Refusal :=
  tableCmd p d .bridge 3 v s

/-- BR_DELETE (R258, R260). -/
def execBrDelete (p : Party) (d : Die) (v : Word) (s : State) : Host.Outcome State Fault Refusal :=
  tableCmd p d .bridge 4 v s

/-- BR_SEARCH (R258, R260). -/
def execBrSearch (p : Party) (d : Die) (v : Word) (s : State) : Host.Outcome State Fault Refusal :=
  tableCmd p d .bridge 5 v s

/-- BR_FLUSH (R258, R260). -/
def execBrFlush (p : Party) (d : Die) (v : Word) (s : State) : Host.Outcome State Fault Refusal :=
  tableCmd p d .bridge 6 v s

/-- An operation that a table does not support (R260): a written one where it is such an operation, else the reserved 7. -/
def unsupportedOp (t : TableId) (op : Nat) : Nat :=
  match t, op with
  | .route, 2 => 2
  | .route, 6 => 6
  | .flow, 6 => 6
  | _, _ => 7

/-- TABLE_CMD_UNSUPPORTED (R260). -/
def execTableCmdUnsupported (p : Party) (d : Die) (t : TableId) (v : Word) (s : State) : Host.Outcome State Fault Refusal :=
  tableCmd p d t (unsupportedOp t (v.toNat % 8)) v s

/-- APPLY (R270): a write of `SHP_BKT_STATUS` with APPLY set. -/
def execBktApply (p : Party) (d : Die) (n : Bucket) (v : Word) (s : State) : Host.Outcome State Fault Refusal :=
  s.run (gated p .shp (some d.val) (bktStatusWrite d n (withBits v.toNat 0 1 1)))

/-- TEMPLATE_READ (R283): a write of `SHP_TPL_ADDR` with READ set. -/
def execTemplateRead (p : Party) (d : Die) (v : Word) (s : State) : Host.Outcome State Fault Refusal :=
  s.run (gated p .shp (some d.val) (tplAddrWrite d (withBits v.toNat 30 1 1)))

/-- TEMPLATE_WRITE (R283): a write of `SHP_TPL_ADDR` with WRITE set. -/
def execTemplateWrite (p : Party) (d : Die) (v : Word) (s : State) : Host.Outcome State Fault Refusal :=
  s.run (gated p .shp (some d.val) (tplAddrWrite d (withBits v.toNat 31 1 1)))

/-- A write of a port's request or free register acts only for that port (R298). -/
def ownPort (p : Party) (n : Nat) (f : State → State) (s : State) : State := s.when (p.port == some n) f

/-- HOST_ALLOC (R289, R290, R298): a write of `PDK_HREQ` with OP 1. -/
def execHostAlloc (p : Party) (d : Die) (n : HostPort) (v : Word) (rivals : List Rival) (s : State) :
    Host.Outcome State Fault Refusal :=
  s.run (gated p .pdk (some d.val) (ownPort p n
    (hostAllocReq d n (withBits v.toNat 0 2 1) (rivals.map (fun r => (r.owner, r.cls))))))

/-- HOST_FREE (R292, R298): a write of `PDK_HFREE`. -/
def execHostFree (p : Party) (d : Die) (n : HostPort) (v : Word) (s : State) : Host.Outcome State Fault Refusal :=
  s.run (gated p .pdk (some d.val) (ownPort p n (hostFreeReq d n v.toNat)))

/-- RESERVE_WRITE (R291): a write of `PDK_OWN_CELL`, or of `PDK_OWN_RSV` of a class. -/
def execReserveWrite (p : Party) (d : Die) (o : Fin 64) (cls : Option (Fin 8)) (v : Word) (s : State) :
    Host.Outcome State Fault Refusal :=
  s.run (gated p .pdk (some d.val) (fun s => match cls with
    | none => ownCellWrite d o v.toNat s
    | some c => ownRsvWrite d o c v.toNat s))

end Sys2Proof.Machine
end

