-- ==== Sys2Proof/Machine/RegWrite.lean ====
section
/-!
DEFINITION. The generic register write (R10 to R13, R400 to R402, R509, R513): each register whose write has more effect than
that its fields take their bits leads to the operation that the commands of its own rows share. The Ostler's register
accesses (R386) take the same way.
-/

namespace Sys2Proof.Machine

/-- A write of a word of the MSI-X table (R399): Vector Control with Mask 0 unmasks. -/
def msixWrite (p : Party) (l : Loc) (v : Nat) (s : State) : State :=
  match p.port with
  | none => s
  | some n =>
    let s := writeFields p (l.ofParty p) v s
    s.when (l.i == 3 && v % 2 == 0) (msixUnmask n)

/-- A write of `TRS_PORT_CFG` (R44, R68): a port that leaves PTP has no master.
DEDUCED, log 29. -/
def trsPortWrite (p : Party) (l : Loc) (v : Nat) (s : State) : State :=
  let s := writeFields p l v s
  s.when (!bitOf v 0 && s.get (.trs .xMASTER) l.i != 0) (masterLost l.i)

/-- A write of a per-channel register acts only in the channel's home window (R22). -/
def homed (l : Loc) (f : State → State) (s : State) : State := s.when (!s.awayChan l) f

/-- The MID and HPT registers. -/
def hptAct (p : Party) (l : Loc) (v : Nat) (s : State) : State :=
  match l.rd.reg with
  | .MID_QUOTE_NONCE => nonceWrite p l.i l.j v s
  | .MID_QUOTE_CTRL => quoteCtrlWrite p l.i v s
  | .HPT_HIR_SEL => hirSelWrite p l.i v s
  | .HPT_STR_REL => strRelWrite p l.i v s
  | .HPT_MSIX => msixWrite p l v s
  | .HPT_PBA => s
  | _ => writeFields p l v s

/-- The EVC registers (R371). -/
def evcAct (p : Party) (l : Loc) (v : Nat) (s : State) : State :=
  match l.rd.reg with
  | .EVC_SW_SET => swSet (v % 1024) s
  | .EVC_SW_CLR => swClr (v % 1024) s
  | .EVC_TGT_CTRL => tgtCtrlWrite p l.i v s
  | .EVC_COMPLETE => completeBy p l.i v s
  | .EVC_FIFO_PUSH => pushWrite l.i (v % 2 ^ 24) false s
  | .EVC_SRC_CFG => srcCfgWrite l.i v s
  | .EVC_TGT_STATUS | .EVC_FIFO_CFG | .EVC_FIFO_STAT => s.when (p.num == l.i) (writeFields p l v)
  | _ => writeFields p l v s

/-- The TRS registers (R49, R56, R63 to R65). -/
def trsAct (p : Party) (l : Loc) (v : Nat) (s : State) : State :=
  match l.rd.reg with
  | .TRS_CTRL => trsCtrlWrite v s
  | .TRS_HO_CTRL => hoCtrlWrite l.i v s
  | .TRS_HO_TGT_LO | .TRS_HO_TGT_HI => s.when (!s.hoTgtLocked l.i) (writeFields p l v)
  | .TRS_DOM_FMT | .TRS_DOM_RATE => s.when (!s.domInUse l.i) (writeFields p l v)
  | .TRS_PORT_CFG => trsPortWrite p l v s
  | _ => writeFields p l v s

/-- The FWU registers (R438, R439, R453). -/
def fwuAct (p : Party) (l : Loc) (v : Nat) (s : State) : State :=
  match l.rd.reg with
  | .FWU_CTRL => fwuCtrlWrite p v s
  | .FWU_BLK_CMD => fwuSubmit p v s
  | .FWU_STATUS => writeFields p l v s
  | .FWU_BLK_OFS | .FWU_BLK_LEN | .FWU_BLK_CRC | .FWU_BLK_DATA =>
    s.when (!s.fwuForeign p && !s.blkHeld) (writeFields p l v)
  | .FWU_FARRIER_TO => s.when (!s.fwuForeign p && s.flag (.mid .BOOT_RECOVERY)) (writeFields p l v)
  | _ => s.when (!s.fwuForeign p) (writeFields p l v)

/-- The registers of the other module blocks. -/
def globAct (p : Party) (l : Loc) (v : Nat) (s : State) : State :=
  match l.rd.reg with
  | .FLT_DIE_CTRL => dieCtrlWrite p v s
  | .FLT_INJECT => injectWrite v s
  | .PWR_CTRL => pwrCtrlWrite v s
  | .PWR_POWER => s.put (.pwr .POWER_PEAK) 0
  | _ => writeFields p l v s

/-- The registers of the codec blocks (R22, R207, R209). -/
def codecAct (p : Party) (l : Loc) (v : Nat) (s : State) : State :=
  match l.rd.reg with
  | .CCH_CTRL => cchCtrlWrite (l.die.getD 0) l.i v s
  | .REF_CTRL => refCtrlWrite (l.die.getD 0) l.i v s
  | .CUS_UNIT => cusUnitWrite l.i v s
  | _ => homed l (writeFields p l v) s

/-- A staging register of a table takes no write while its command runs (R258). -/
def stagingWrite (t : TableId) (p : Party) (l : Loc) (v : Nat) (s : State) : State :=
  s.when (!s.flag (cmdBUSY t) l.i) (writeFields p l v)

/-- The registers of the ingress, table and Bridle blocks (R227 to R235, R258, R270, R281, R283). -/
def netAct (p : Party) (l : Loc) (v : Nat) (s : State) : State :=
  match l.rd.reg with
  | .PRS_NODE_ADDR => nodeAddrWrite l.i v s
  | .PRS_GEN_CTRL => genCtrlWrite l.i v s
  | .PRS_PORT_CFG => portCfgWrite l.i l.j v s
  | .PRS_MERGE => mergeWrite l.i l.j v s
  | .PRS_ROOT | .PRS_IFSET => s.when (s.slotWritable l.i l.j) (writeFields p l v)
  | .FWD_RT_CMD => cmdWrite l.i .route v s
  | .FWD_FL_CMD => cmdWrite l.i .flow v s
  | .FWD_BR_CMD => cmdWrite l.i .bridge v s
  | .FWD_RT_KEY0 | .FWD_RT_KEY1 | .FWD_RT_DATA => stagingWrite .route p l v s
  | .FWD_FL_DATA_LO | .FWD_FL_DATA_HI => stagingWrite .flow p l v s
  | .FWD_BR_KEY_LO | .FWD_BR_KEY_HI | .FWD_BR_DATA => stagingWrite .bridge p l v s
  | .SHP_BKT_STATUS => bktStatusWrite l.i l.j v s
  | .SHP_TPL_ADDR => tplAddrWrite l.i v s
  | .SHP_SEQ => seqWrite l.i l.j v s
  | _ => writeFields p l v s

/-- The registers of the pool and memory blocks (R287, R291, R297, R298, R309). -/
def poolAct (p : Party) (l : Loc) (v : Nat) (s : State) : State :=
  match l.rd.reg with
  | .PDK_HREQ => ownPort p l.j (hostAllocReq l.i l.j v []) s
  | .PDK_HFREE => ownPort p l.j (hostFreeReq l.i l.j v) s
  | .PDK_OWN_CFG => ownCfgWrite l.i l.j v s
  | .PDK_OWN_CELL => ownCellWrite l.i l.j v s
  | .PDK_OWN_CHELD => s.put (.pdk .OWN_CHELD_PEAK) 0 l.i l.j
  | .PDK_OWN_RSV => ownRsvWrite l.i l.j l.k v s
  | .PDK_CELL_THR => poolSettle l.i (writeFields p l v s)
  | .PDK_CLS_THR => poolSettle (l.i / 4) (writeFields p l v s)
  | .DMC_GRP_CTRL => grpCtrlWrite l.i v s
  | _ => writeFields p l v s

/-- The registers of the DMA and check-value blocks (R332, R346, R348, R353 to R355). -/
def dmaAct (p : Party) (l : Loc) (v : Nat) (s : State) : State :=
  match l.rd.reg with
  | .DMA_Q_CFG => qCfgWrite p l.i l.j v s
  | .DMA_Q_RING_LO | .DMA_Q_RING_HI => forOwner p l.i l.j (fun s => s.when (s.qQuiet l.i l.j) (writeFields p l v)) s
  | .DMA_Q_TAIL => forOwner p l.i l.j (tailWrite l.i l.j v) s
  | .DMA_Q_TO | .DMA_Q_STATUS => forOwner p l.i l.j (writeFields p l v) s
  | .DMA_Q_CTRL => forOwner p l.i l.j (qCtrlWrite l.i l.j v) s
  | .CHK_CFG => chkCfgWrite l.i l.j v s
  | .CHK_CTRL => chkCtrlWrite l.i l.j v s
  | .CHK_DATA => chkDataWrite l.i l.j v s
  | .CHK_DATA_B => chkByteWrite l.i l.j v s
  | .CHK_FOLD => chkFoldWrite l.i l.j v s
  | .CHK_VAL => chkValWrite l.i l.j v s
  | .CHK_CNT => chkCntWrite l.i l.j v s
  | _ => writeFields p l v s

/-- What a write that takes effect does, by the block of its register. -/
def regAct (p : Party) (b : Blk) (l : Loc) (v : Nat) (s : State) : State :=
  match b with
  | .mid | .hpt => hptAct p l v s
  | .evc => evcAct p l v s
  | .trs => trsAct p l v s
  | .fwu => fwuAct p l v s
  | .flt | .pwr | .tth => globAct p l v s
  | .cch | .cus | .qrc | .ref => s.when (!s.noRate b l) (codecAct p l v)
  | .prs | .fwd | .shp => netAct p l v s
  | .pdk | .dmc => poolAct p l v s
  | .dma | .chk => dmaAct p l v s
  | .ost => writeFields p l v s
  | .empty => s

/-- A well-formed register write: an offset that holds no register ignores it, uncounted (R509); otherwise R513 decides. -/
def regWrite (p : Party) (addr v : Nat) (s : State) : State :=
  match findReg addr with
  | none => s
  | some l => gated p (placeOf addr).blk l.die (regAct p (placeOf addr).blk l v) s

/-- A write in the form that R400 asks for: one DW with all four byte enables, at a multiple of 4. -/
def wellFormedWrite (addr be dwords : Nat) : Bool := be == 15 && dwords == 1 && addr % 4 == 0

/-- A write of another form is discarded, reported and counted (R400, R513). -/
def badAccess (p : Party) (s : State) : State :=
  match p.port with
  | some n => (s.bumpSat (.hpt .ERR_BAD_ACCESS) n).emit (.unsupported p.num)
  | none => s

/-- A register write as it arrives. -/
def writeRequest (p : Party) (addr v be dwords : Nat) (s : State) : State :=
  if wellFormedWrite addr be dwords then regWrite p addr v s else badAccess p s

/-- REGISTER_WRITE (R400, R401, R513). -/
def execRegisterWrite (p : Party) (addr : Fin 67108864) (v : Word) (be : Fin 16) (dwords : Nat) (s : State) :
    Host.Outcome State Fault Refusal :=
  s.run (writeRequest p addr v.toNat be dwords)

-- The Ostler's register accesses

/-- The party that the Ostler of a die is (R387). -/
def ostParty (d : Nat) : Party := if d = 0 then .o0 else .o1

/-- A read by the Ostler is of its own claim register, and returns a source: the claim is one that its IRQ class serves. -/
def isOwnClaim (d addr v : Nat) : Bool := addr == evcAddr (2 + d) 4 && v != notValid

/-- RDREG (R386, R388, R396): a read that returns poison, an entry of its event FIFO among them, is a machine check; a claim
while the IRQ class runs counts.
DESIGN CHOICE, log 15. -/
def ostRdreg (d : Nat) (w : Nano) (poisoned : Bool) (s : State) : State :=
  if poisoned then machineCheck d 2 s
  else
    let a := s.ostAddr d w
    let c := s.ostClass d
    let (v, s) := regRead (ostParty d) a s
    let s := s.when (isOwnClaim d a v && c == 1) (fun s => s.bump (.ost .CNT) d 4)
    if a = evcAddr (2 + d) 0x10 ∧ v ≠ notValid ∧ bitOf v 24 then machineCheck d 2 s
    else freeFlags d w ((setReg d w.dst v s).put (.ost .xACK) 1 d)

/-- RDREG (R386). -/
def execOstRdreg (d : Die) (w : Nano) (poisoned : Bool) (s : State) : Host.Outcome State Fault Refusal :=
  s.run (ostOp d (ostRdreg d w poisoned))

/-- WRREG (R386, R387).
DESIGN CHOICE, log 15. -/
def ostWrreg (d : Nat) (w : Nano) (s : State) : State :=
  let t := regWrite (ostParty d) (s.ostAddr d w) (s.ostReg d w.srcb % 2 ^ 32) s
  freeFlags d w (t.put (.ost .xACK) 1 d)

/-- WRREG (R386). -/
def execOstWrreg (d : Die) (w : Nano) (s : State) : Host.Outcome State Fault Refusal := s.run (ostOp d (ostWrreg d w))

end Sys2Proof.Machine
end

