-- ==== Sys2Proof/Machine/Dispatch.lean ====
section
/-!
DEFINITION. The dispatch of a command to its meaning: one arm for each row of the opcode table.
-/

namespace Sys2Proof.Machine

/-- The effect of a command on everything but the queue. -/
def exec (i : Instr) (s : State) : Host.Outcome State Fault Refusal :=
  match i with
  | .vinStart mv => Sys2Proof.Machine.execVinStart mv s
  | .powerGood b => Sys2Proof.Machine.execPowerGood b s
  | .caseLoHoldEnd caseQ flashOk => Sys2Proof.Machine.execCaseLoHoldEnd caseQ flashOk s
  | .resetNAssert => Sys2Proof.Machine.execResetNAssert s
  | .resetNDeassert b => Sys2Proof.Machine.execResetNDeassert b s
  | .dramTrained d failed now => Sys2Proof.Machine.execDramTrained d failed now s
  | .startupChannelStart ch now => Sys2Proof.Machine.execStartupChannelStart ch now s
  | .pcieConfigRequest q => Sys2Proof.Machine.execPcieConfigRequest q s
  | .vinDip mv => Sys2Proof.Machine.execVinDip mv s
  | .brownOut mv lowUs => Sys2Proof.Machine.execBrownOut mv lowUs s
  | .vinOvervoltage mv highMs => Sys2Proof.Machine.execVinOvervoltage mv highMs s
  | .inputDisconnect mv => Sys2Proof.Machine.execInputDisconnect mv s
  | .railOutOfWindow rail mv kind us => Sys2Proof.Machine.execRailOutOfWindow rail mv kind us s
  | .pwrHeartbeatTimeout w => Sys2Proof.Machine.execPwrHeartbeatTimeout w s
  | .thermalSample temps now => Sys2Proof.Machine.execThermalSample temps now s
  | .safeReq lowNs => Sys2Proof.Machine.execSafeReq lowNs s
  | .collectorSelfTest => Sys2Proof.Machine.execCollectorSelfTest s
  | .faultLands p n us => Sys2Proof.Machine.execFaultLands p n us s
  | .collector d => Sys2Proof.Machine.execCollector d s
  | .timeIntegrity dom => Sys2Proof.Machine.execTimeIntegrity dom s
  | .wireBreak o clocks => Sys2Proof.Machine.execWireBreak o clocks s
  | .faultOccurrence os now => Sys2Proof.Machine.execFaultOccurrence os now s
  | .dieUp d failed now => Sys2Proof.Machine.execDieUp d failed now s
  | .restartChannelResume d dom now => Sys2Proof.Machine.execRestartChannelResume d dom now s
  | .failoverStart ch now => Sys2Proof.Machine.execFailoverStart ch now s
  | .swRestart p d => Sys2Proof.Machine.execSwRestart p d s
  | .faultInject p v => Sys2Proof.Machine.execFaultInject p v s
  | .syncReceived port m now => Sys2Proof.Machine.execSyncReceived port m now s
  | .announceReceived port a now => Sys2Proof.Machine.execAnnounceReceived port a now s
  | .delayReqSend port now => Sys2Proof.Machine.execDelayReqSend port now s
  | .syncReceiptTimeout port now => Sys2Proof.Machine.execSyncReceiptTimeout port now s
  | .announceReceiptTimeout port now => Sys2Proof.Machine.execAnnounceReceiptTimeout port now s
  | .holdoverTimeout now => Sys2Proof.Machine.execHoldoverTimeout now s
  | .firstLockTimeout now => Sys2Proof.Machine.execFirstLockTimeout now s
  | .realign p v => Sys2Proof.Machine.execRealign p v s
  | .ppsInEdge now => Sys2Proof.Machine.execPpsInEdge now s
  | .ppsOut now => Sys2Proof.Machine.execPpsOut now s
  | .arm p n v => Sys2Proof.Machine.execArm p n v s
  | .disarm p n v => Sys2Proof.Machine.execDisarm p n v s
  | .handoverFire n now => Sys2Proof.Machine.execHandoverFire n now s
  | .cchStart p d ch v => Sys2Proof.Machine.execCchStart p d ch v s
  | .channelStart ch now => Sys2Proof.Machine.execChannelStart ch now s
  | .cchStop p d ch v => Sys2Proof.Machine.execCchStop p d ch v s
  | .moveDie p d ch v => Sys2Proof.Machine.execMoveDie p d ch v s
  | .dieMove ch now => Sys2Proof.Machine.execDieMove ch now s
  | .handover p d ch v => Sys2Proof.Machine.execHandover p d ch v s
  | .handoverOffer l o now => Sys2Proof.Machine.execHandoverOffer l o now s
  | .handoverReply ch accept now => Sys2Proof.Machine.execHandoverReply ch accept now s
  | .handoverPicture ch m => Sys2Proof.Machine.execHandoverPicture ch m s
  | .tetherHoTimeout ch now => Sys2Proof.Machine.execTetherHoTimeout ch now s
  | .tileDigest l grp digest => Sys2Proof.Machine.execTileDigest l grp digest s
  | .pictureBoundary ch now => Sys2Proof.Machine.execPictureBoundary ch now s
  | .dropLt p d ch v => Sys2Proof.Machine.execDropLt p d ch v s
  | .rowReady ch row now => Sys2Proof.Machine.execRowReady ch row now s
  | .stripeSlotStart ch row stripe m => Sys2Proof.Machine.execStripeSlotStart ch row stripe m s
  | .shadowCheck ch row stripe block upset now => Sys2Proof.Machine.execShadowCheck ch row stripe block upset now s
  | .reexecDone ch row stripe upset now => Sys2Proof.Machine.execReexecDone ch row stripe upset now s
  | .spareTakeover c now => Sys2Proof.Machine.execSpareTakeover c now s
  | .failsWindowExpiry u now => Sys2Proof.Machine.execFailsWindowExpiry u now s
  | .retire p u v => Sys2Proof.Machine.execRetire p u v s
  | .unitStallTimeout u w => Sys2Proof.Machine.execUnitStallTimeout u w s
  | .clusterStallTimeout c cabac w => Sys2Proof.Machine.execClusterStallTimeout c cabac w s
  | .stripeWithheld ch row stripe now => Sys2Proof.Machine.execStripeWithheld ch row stripe now s
  | .rasterRelease ch row j now => Sys2Proof.Machine.execRasterRelease ch row j now s
  | .st2110Release ch j now => Sys2Proof.Machine.execSt2110Release ch j now s
  | .decodeDeadline ch row now => Sys2Proof.Machine.execDecodeDeadline ch row now s
  | .refreshHoldoffEnd ch now => Sys2Proof.Machine.execRefreshHoldoffEnd ch now s
  | .decodeStripeDone ch row stripe parityBad now => Sys2Proof.Machine.execDecodeStripeDone ch row stripe parityBad now s
  | .refreshRequestReceived ch bytes now => Sys2Proof.Machine.execRefreshRequestReceived ch bytes now s
  | .modelUpdate ch now => Sys2Proof.Machine.execModelUpdate ch now s
  | .frameReceive ifc bytes fcsOk poison now => Sys2Proof.Machine.execFrameReceive ifc bytes fcsOk poison now s
  | .recircPass d now => Sys2Proof.Machine.execRecircPass d now s
  | .xdieCopyReceive d now => Sys2Proof.Machine.execXdieCopyReceive d now s
  | .mergeWindowExpiry d m now => Sys2Proof.Machine.execMergeWindowExpiry d m now s
  | .pipeStallTimeout d stage w => Sys2Proof.Machine.execPipeStallTimeout d stage w s
  | .nodeLineRefetch d line good => Sys2Proof.Machine.execNodeLineRefetch d line good s
  | .nodeRead p d v => Sys2Proof.Machine.execNodeRead p d v s
  | .nodeWrite p d v => Sys2Proof.Machine.execNodeWrite p d v s
  | .publish p d v => Sys2Proof.Machine.execPublish p d v s
  | .rulesetSlotRetire d => Sys2Proof.Machine.execRulesetSlotRetire d s
  | .portModeChange p d pp v => Sys2Proof.Machine.execPortModeChange p d pp v s
  | .mergePairWrite p d m v => Sys2Proof.Machine.execMergePairWrite p d m v s
  | .linkChange ifc up => Sys2Proof.Machine.execLinkChange ifc up s
  | .rtRead p d v => Sys2Proof.Machine.execRtRead p d v s
  | .rtInsert p d v => Sys2Proof.Machine.execRtInsert p d v s
  | .rtDelete p d v => Sys2Proof.Machine.execRtDelete p d v s
  | .rtSearch p d v => Sys2Proof.Machine.execRtSearch p d v s
  | .flRead p d v => Sys2Proof.Machine.execFlRead p d v s
  | .flWrite p d v => Sys2Proof.Machine.execFlWrite p d v s
  | .flInsert p d v => Sys2Proof.Machine.execFlInsert p d v s
  | .flDelete p d v => Sys2Proof.Machine.execFlDelete p d v s
  | .flSearch p d v => Sys2Proof.Machine.execFlSearch p d v s
  | .brRead p d v => Sys2Proof.Machine.execBrRead p d v s
  | .brWrite p d v => Sys2Proof.Machine.execBrWrite p d v s
  | .brInsert p d v => Sys2Proof.Machine.execBrInsert p d v s
  | .brDelete p d v => Sys2Proof.Machine.execBrDelete p d v s
  | .brSearch p d v => Sys2Proof.Machine.execBrSearch p d v s
  | .brFlush p d v => Sys2Proof.Machine.execBrFlush p d v s
  | .tableCmdUnsupported p d t v => Sys2Proof.Machine.execTableCmdUnsupported p d t v s
  | .tableCmdComplete d t r now => Sys2Proof.Machine.execTableCmdComplete d t r now s
  | .tableCmdTimeout d t now => Sys2Proof.Machine.execTableCmdTimeout d t now s
  | .learnInsert d now => Sys2Proof.Machine.execLearnInsert d now s
  | .agePeriodExpiry d now => Sys2Proof.Machine.execAgePeriodExpiry d now s
  | .agingSweep d now => Sys2Proof.Machine.execAgingSweep d now s
  | .agingSweepEnd d now => Sys2Proof.Machine.execAgingSweepEnd d now s
  | .tableLineRefetch d t line good => Sys2Proof.Machine.execTableLineRefetch d t line good s
  | .trieLineRebuild d line listOk => Sys2Proof.Machine.execTrieLineRebuild d line listOk s
  | .bktApply p d n v => Sys2Proof.Machine.execBktApply p d n v s
  | .templateRead p d v => Sys2Proof.Machine.execTemplateRead p d v s
  | .templateWrite p d v => Sys2Proof.Machine.execTemplateWrite p d v s
  | .templateRefetch d h l => Sys2Proof.Machine.execTemplateRefetch d h l s
  | .shapedFrameStart d n now => Sys2Proof.Machine.execShapedFrameStart d n now s
  | .interfaceFrameBoundary ifc now => Sys2Proof.Machine.execInterfaceFrameBoundary ifc now s
  | .seqMirrorUpdate d h next => Sys2Proof.Machine.execSeqMirrorUpdate d h next s
  | .hostAlloc p d n v rivals => Sys2Proof.Machine.execHostAlloc p d n v rivals s
  | .hostFree p d n v => Sys2Proof.Machine.execHostFree p d n v s
  | .reserveWrite p d o cls v => Sys2Proof.Machine.execReserveWrite p d o cls v s
  | .dramRead g la flips => Sys2Proof.Machine.execDramRead g la flips s
  | .dramWrite g la off bytes tags x => Sys2Proof.Machine.execDramWrite g la off bytes tags x s
  | .forceErase p g v => Sys2Proof.Machine.execForceErase p g v s
  | .scrubCredit g errs now => Sys2Proof.Machine.execScrubCredit g errs now s
  | .refreshInterval g rtBusy now => Sys2Proof.Machine.execRefreshInterval g rtBusy now s
  | .refreshCatchup g rate now => Sys2Proof.Machine.execRefreshCatchup g rate now s
  | .mr4Read g rate now => Sys2Proof.Machine.execMr4Read g rate now s
  | .driftRetrain g k now => Sys2Proof.Machine.execDriftRetrain g k now s
  | .driftRetrainDone g ok now => Sys2Proof.Machine.execDriftRetrainDone g ok now s
  | .xbarGrantTimeout g cluster w => Sys2Proof.Machine.execXbarGrantTimeout g cluster w s
  | .ageCapHit g a => Sys2Proof.Machine.execAgeCapHit g a s
  | .repairMapAppend e => Sys2Proof.Machine.execRepairMapAppend e s
  | .dmaPost p d q v => Sys2Proof.Machine.execDmaPost p d q v s
  | .dmaNop d q env now => Sys2Proof.Machine.execDmaNop d q env now s
  | .dmaCopy d q env now => Sys2Proof.Machine.execDmaCopy d q env now s
  | .dmaReshIn d q env now => Sys2Proof.Machine.execDmaReshIn d q env now s
  | .dmaReshOut d q env now => Sys2Proof.Machine.execDmaReshOut d q env now s
  | .dmaDeint d q env now => Sys2Proof.Machine.execDmaDeint d q env now s
  | .dmaInter d q env now => Sys2Proof.Machine.execDmaInter d q env now s
  | .dmaFill d q env now => Sys2Proof.Machine.execDmaFill d q env now s
  | .dmaCompare d q env now => Sys2Proof.Machine.execDmaCompare d q env now s
  | .dmaCheck d q env now => Sys2Proof.Machine.execDmaCheck d q env now s
  | .dmaRecv d q env now => Sys2Proof.Machine.execDmaRecv d q env now s
  | .dmaSend d q env now => Sys2Proof.Machine.execDmaSend d q env now s
  | .dmaOpReserved d q env now => Sys2Proof.Machine.execDmaOpReserved d q env now s
  | .descComplete d q rb now => Sys2Proof.Machine.execDescComplete d q rb now s
  | .dmaDescTimeout d q now => Sys2Proof.Machine.execDmaDescTimeout d q now s
  | .pcieCplTimeout d q w => Sys2Proof.Machine.execPcieCplTimeout d q w s
  | .dmaResume p d q v => Sys2Proof.Machine.execDmaResume p d q v s
  | .dmaReset p d q v => Sys2Proof.Machine.execDmaReset p d q v s
  | .chkData p d c v => Sys2Proof.Machine.execChkData p d c v s
  | .chkDataB p d c v => Sys2Proof.Machine.execChkDataB p d c v s
  | .chkFold p d c v => Sys2Proof.Machine.execChkFold p d c v s
  | .chkStart p d c v => Sys2Proof.Machine.execChkStart p d c v s
  | .chkFinish p d c v => Sys2Proof.Machine.execChkFinish p d c v s
  | .chkFinishEffect d c now => Sys2Proof.Machine.execChkFinishEffect d c now s
  | .chkContextWrite p d c r v => Sys2Proof.Machine.execChkContextWrite p d c r v s
  | .eventAssert n detail level => Sys2Proof.Machine.execEventAssert n detail level s
  | .msixUnmask n => Sys2Proof.Machine.execMsixUnmask n s
  | .evcClaim p t => Sys2Proof.Machine.execEvcClaim p t s
  | .evcComplete p t v => Sys2Proof.Machine.execEvcComplete p t v s
  | .claimTimeout n now => Sys2Proof.Machine.execClaimTimeout n now s
  | .evcFifoPop p t parityBad => Sys2Proof.Machine.execEvcFifoPop p t parityBad s
  | .evcFifoPush p t v => Sys2Proof.Machine.execEvcFifoPush p t v s
  | .evcSwSet p v => Sys2Proof.Machine.execEvcSwSet p v s
  | .evcSwClr p v => Sys2Proof.Machine.execEvcSwClr p v s
  | .evcSrcCfgWrite p n v => Sys2Proof.Machine.execEvcSrcCfgWrite p n v s
  | .evcTgtCtrlWrite p t v => Sys2Proof.Machine.execEvcTgtCtrlWrite p t v s
  | .ostAdd d w imm => Sys2Proof.Machine.execOstAdd d w imm s
  | .ostSub d w imm => Sys2Proof.Machine.execOstSub d w imm s
  | .ostAnd d w imm => Sys2Proof.Machine.execOstAnd d w imm s
  | .ostOr d w imm => Sys2Proof.Machine.execOstOr d w imm s
  | .ostXor d w imm => Sys2Proof.Machine.execOstXor d w imm s
  | .ostShl d w imm => Sys2Proof.Machine.execOstShl d w imm s
  | .ostShr d w imm => Sys2Proof.Machine.execOstShr d w imm s
  | .ostSar d w imm => Sys2Proof.Machine.execOstSar d w imm s
  | .ostMin d w imm => Sys2Proof.Machine.execOstMin d w imm s
  | .ostMax d w imm => Sys2Proof.Machine.execOstMax d w imm s
  | .ostMov d w imm => Sys2Proof.Machine.execOstMov d w imm s
  | .ostLdlc d w imm => Sys2Proof.Machine.execOstLdlc d w imm s
  | .ostCrc32c d w imm => Sys2Proof.Machine.execOstCrc32c d w imm s
  | .ostLoad d w poisoned => Sys2Proof.Machine.execOstLoad d w poisoned s
  | .ostStore d w => Sys2Proof.Machine.execOstStore d w s
  | .ostRdreg d w poisoned => Sys2Proof.Machine.execOstRdreg d w poisoned s
  | .ostWrreg d w => Sys2Proof.Machine.execOstWrreg d w s
  | .ostPop d w parityBad => Sys2Proof.Machine.execOstPop d w parityBad s
  | .ostPush d w tagged => Sys2Proof.Machine.execOstPush d w tagged s
  | .ostLimm d w => Sys2Proof.Machine.execOstLimm d w s
  | .ostCont d opnd => Sys2Proof.Machine.execOstCont d opnd s
  | .ostJmp d opnd => Sys2Proof.Machine.execOstJmp d opnd s
  | .ostBrt d opnd => Sys2Proof.Machine.execOstBrt d opnd s
  | .ostBrf d opnd => Sys2Proof.Machine.execOstBrf d opnd s
  | .ostCall d opnd => Sys2Proof.Machine.execOstCall d opnd s
  | .ostRet d opnd => Sys2Proof.Machine.execOstRet d opnd s
  | .ostYield d opnd now => Sys2Proof.Machine.execOstYield d opnd now s
  | .ostEnd d opnd now => Sys2Proof.Machine.execOstEnd d opnd now s
  | .shedClear d now => Sys2Proof.Machine.execShedClear d now s
  | .ostlerWatchdog d now => Sys2Proof.Machine.execOstlerWatchdog d now s
  | .registerWrite p addr v be dwords => Sys2Proof.Machine.execRegisterWrite p addr v be dwords s
  | .counterLoRead p addr => Sys2Proof.Machine.execCounterLoRead p addr s
  | .stirrupTake n takers => Sys2Proof.Machine.execStirrupTake n takers s
  | .stirrupRelease p n v => Sys2Proof.Machine.execStirrupRelease p n v s
  | .stirrupForce p n v => Sys2Proof.Machine.execStirrupForce p n v s
  | .lease n now => Sys2Proof.Machine.execLease n now s
  | .hirSel p n v => Sys2Proof.Machine.execHirSel p n v s
  | .portReset n => Sys2Proof.Machine.execPortReset n s
  | .quoteGo p n v => Sys2Proof.Machine.execQuoteGo p n v s
  | .quoteComplete ok now => Sys2Proof.Machine.execQuoteComplete ok now s
  | .tetherQuoteRequest l nonce => Sys2Proof.Machine.execTetherQuoteRequest l nonce s
  | .fwuOpen p v => Sys2Proof.Machine.execFwuOpen p v s
  | .fwuClose p v => Sys2Proof.Machine.execFwuClose p v s
  | .fwuSubmit p v => Sys2Proof.Machine.execFwuSubmit p v s
  | .blockChecked now => Sys2Proof.Machine.execBlockChecked now s
  | .slotReadback now => Sys2Proof.Machine.execSlotReadback now s
  | .flashOpTimeout now => Sys2Proof.Machine.execFlashOpTimeout now s
  | .xferTimeout now => Sys2Proof.Machine.execXferTimeout now s
  | .fwuActivate p v => Sys2Proof.Machine.execFwuActivate p v s
  | .preparationEnd now => Sys2Proof.Machine.execPreparationEnd now s
  | .ostlerQuiesce now => Sys2Proof.Machine.execOstlerQuiesce now s
  | .bundleSwitch now => Sys2Proof.Machine.execBundleSwitch now s
  | .trialConfirm now => Sys2Proof.Machine.execTrialConfirm now s
  | .fwuRevert p v => Sys2Proof.Machine.execFwuRevert p v s
  | .actTimeout now => Sys2Proof.Machine.execActTimeout now s
  | .farrierTimeout now => Sys2Proof.Machine.execFarrierTimeout now s
  | .tetherRecoveryBlock l block crc bytes => Sys2Proof.Machine.execTetherRecoveryBlock l block crc bytes s
  | .winter p v => Sys2Proof.Machine.execWinter p v s
  | .winterQuiesce now => Sys2Proof.Machine.execWinterQuiesce now s
  | .winterDrained now => Sys2Proof.Machine.execWinterDrained now s
  | .spring p v => Sys2Proof.Machine.execSpring p v s
  | .springComplete now => Sys2Proof.Machine.execSpringComplete now s
  | .clusterGate c now => Sys2Proof.Machine.execClusterGate c now s
  | .autumnEnWrite p v => Sys2Proof.Machine.execAutumnEnWrite p v s
  | .tetherLinkUp l major minor modNo => Sys2Proof.Machine.execTetherLinkUp l major minor modNo s
  | .tetherKeepaliveTimeout l w => Sys2Proof.Machine.execTetherKeepaliveTimeout l w s
  | .linkCreditTimeout w => Sys2Proof.Machine.execLinkCreditTimeout w s
  | .linkRetrainRetry now => Sys2Proof.Machine.execLinkRetrainRetry now s
  | .followUpReceived port m now => Sys2Proof.Machine.execFollowUpReceived port m now s
  | .delayRespReceived port r now => Sys2Proof.Machine.execDelayRespReceived port r now s
  | .ref10InChange present => Sys2Proof.Machine.execRef10InChange present s
  | .planeDown d m planeB now => Sys2Proof.Machine.execPlaneDown d m planeB now s
  | .ostlerOverload d o => Sys2Proof.Machine.execOstlerOverload d o s
  | .storeReloadDone d parityOk now => Sys2Proof.Machine.execStoreReloadDone d parityOk now s
  | .vinLowEnd mv => Sys2Proof.Machine.execVinLowEnd mv s
  | .linkRetrainDone now => Sys2Proof.Machine.execLinkRetrainDone now s
  | .hostLinkUp n speed width => Sys2Proof.Machine.execHostLinkUp n speed width s

end Sys2Proof.Machine
end

