-- ==== Sys2Proof/WellFormed.lean ====
section
/-!
DEFINITION. Which commands can occur: the ranges of the operands that the types of Syntax.lean leave wider than the spec
does. Every meaning is total and gives an ill-formed command an effect too; no statement rests on what that effect is.
-/

namespace Sys2Proof

/-- A list of trained-device failures names each device of a die at most once (R416). -/
def failedOk (l : List (Fin 4 × Device)) : Bool := decide l.Nodup

/-- An error occurrence has a code of 8 bits, a die of 2 bits and words of 32 bits (R461, R463). -/
def Occ.ok (o : Occ) : Bool :=
  decide (o.code < 256) && decide (o.die < 4) && decide (o.loc < 2 ^ 32) && decide (o.detail < 2 ^ 32)

/-- A flipped sample bit lies within the plane of a picture of at most 8192 columns and lines (R93). -/
def SmpFlip.ok (u : SmpFlip) : Bool := decide (u.x < 8192 ∧ u.y < 8192 ∧ u.bits < 65536)

/-- The sub-port and the domain number of a PTP message (R42, R43). -/
def PtpPath.ok (q : PtpPath) : Bool := decide (q.domain < 256)

/-- A PTP timing message has a sequence number of 16 bits (R42). -/
def PtpTiming.ok (m : PtpTiming) : Bool := m.path.ok && decide (m.seqId < 65536)

/-- A repair entry names what R330 lets it name. -/
def RepairEntry.ok (e : RepairEntry) : Bool :=
  decide (1 ≤ e.kind ∧ e.kind ≤ 4) && decide (e.die < 2) && decide (e.target < 65536) && decide (e.index < 65536) &&
  decide (e.spare < 4)

/-- A dataset's members are numbers of at most sixteen fields (R44). -/
def Announce.ok (a : Announce) : Bool := decide (a.dataset.length ≤ 16) && a.path.ok

/-- The channel, the words and the revision of a handover offer (R205, R413). -/
def Offer.ok (o : Offer) : Bool :=
  decide (o.ch < 48) && o.bank.all (fun p => decide (p.1 < 2 ^ 24 ∧ p.2 < 2 ^ 32)) && decide (o.nextSeq < 2 ^ 32) &&
  decide (o.hirMinor < 256)

/-- A frame is at most as long as the longest that a port can receive with its FCS, and its poisoned bytes lie inside
it (R211, R463). -/
def frameOk (bytes : List Byte) (poison : List Nat) : Bool :=
  decide (bytes.length ≤ 16384) && poison.all (fun p => decide (p < bytes.length))

/-- The commands whose operands lie in the ranges that the spec gives.
DESIGN CHOICE, log 97. -/
def Instr.wellFormed (i : Instr) : Bool :=
  match i with
  | .dramTrained _ l _ => failedOk l
  | .dieUp _ l _ => failedOk l
  | .wireBreak o _ => o.ok
  | .faultOccurrence os _ => os.all Occ.ok && !os.isEmpty
  | .announceReceived _ a _ => a.ok
  | .handoverOffer _ o _ => o.ok
  | .tileDigest _ g v => decide (g < 64) && decide (v < 2 ^ 32)
  | .rowReady _ r _ => decide (r < 8192)
  | .stripeSlotStart _ r _ m => decide (r < 8192) && m.srcBad.all (fun b => decide (b < 2 ^ 20))
  | .shadowCheck _ r _ b l _ => decide (r < 8192) && decide (b < 2 ^ 20) && l.all SmpFlip.ok
  | .reexecDone _ r _ l _ => decide (r < 8192) && l.all SmpFlip.ok
  | .syncReceived _ m _ => m.ok
  | .followUpReceived _ m _ => m.ok
  | .delayRespReceived _ r _ => r.path.ok
  | .handoverPicture _ m => decide (m.nextSeq < 2 ^ 32)
  | .stripeWithheld _ r _ _ => decide (r < 8192)
  | .rasterRelease _ r _ _ => decide (r < 8192)
  | .decodeDeadline _ r _ => decide (r < 8192)
  | .decodeStripeDone _ r _ l _ => decide (r < 8192) && decide l.Nodup
  | .frameReceive _ b _ p _ => frameOk b p
  | .pipeStallTimeout _ st _ => decide (st < 8)
  | .dramWrite _ _ off b t x => decide (off.val + b.length ≤ 256) && decide (t < 16) &&
      (match x.sideband with
       | none => true
       | some v => decide (v < 2 ^ 256))
  | .scrubCredit _ l _ => l.all (fun p => decide (p.1 < 16777216))
  | .repairMapAppend e => e.ok
  | .hostAlloc _ _ _ _ l => l.all (fun r => decide (r.owner < 64 ∧ r.cls < 8)) && decide (l.map (·.owner)).Nodup
  | .registerWrite _ _ _ _ n => decide (1 ≤ n)
  | .counterLoRead _ a => decide (a.val % 4 = 0)
  | .stirrupTake _ l => !l.isEmpty && decide l.Nodup
  | .tetherQuoteRequest _ n => decide (n.length = 32)
  | .tetherRecoveryBlock _ b _ l => decide (b < 65536) && decide (l.length ≤ 65536)
  | .tetherLinkUp _ a b m => decide (a < 256 ∧ b < 256 ∧ m < 4)
  | .hostLinkUp _ sp w => decide (1 ≤ sp ∧ sp ≤ 5) && [1, 2, 4, 8].contains w
  | _ => true

end Sys2Proof
end

