-- ==== Sys2Proof/Laws/PerInstr.lean ====
section
/-!
SUPPORT. The family Wf, command by command: a command whose operands have types of exactly the ranges that the spec gives is
well-formed at every value of them.
-/

namespace Sys2Proof.Laws.Wf

/-- The commands that carry an operand whose type is wider than the range that the spec gives it. -/
def ranged (i : Instr) : Bool :=
  match i with
  | .dramTrained _ _ _ | .wireBreak _ _ | .faultOccurrence _ _ | .dieUp _ _ _ | .syncReceived _ _ _
  | .announceReceived _ _ _ | .handoverOffer _ _ _ | .handoverPicture _ _ | .tileDigest _ _ _ | .rowReady _ _ _
  | .stripeSlotStart _ _ _ _ | .shadowCheck _ _ _ _ _ _ | .reexecDone _ _ _ _ _ | .stripeWithheld _ _ _ _
  | .rasterRelease _ _ _ _ | .decodeDeadline _ _ _ | .decodeStripeDone _ _ _ _ _ | .frameReceive _ _ _ _ _
  | .pipeStallTimeout _ _ _ | .hostAlloc _ _ _ _ _ | .dramWrite _ _ _ _ _ _ | .scrubCredit _ _ _ | .repairMapAppend _
  | .registerWrite _ _ _ _ _ | .counterLoRead _ _ | .stirrupTake _ _ | .tetherQuoteRequest _ _
  | .tetherRecoveryBlock _ _ _ _ | .tetherLinkUp _ _ _ _ | .followUpReceived _ _ _ | .delayRespReceived _ _ _
  | .hostLinkUp _ _ _ => true
  | _ => false

/-- A command with no such operand is well-formed. -/
def Statement (i : Instr) : Prop := ranged i = false → i.wellFormed = true

theorem vinStart (x0 : Nat) : Statement (.vinStart x0) := fun _ => rfl
theorem powerGood (x0 : BootInputs) : Statement (.powerGood x0) := fun _ => rfl
theorem caseLoHoldEnd (x0 : Int) (x1 : Bool) : Statement (.caseLoHoldEnd x0 x1) := fun _ => rfl
theorem resetNAssert : Statement (.resetNAssert) := fun _ => rfl
theorem resetNDeassert (x0 : BootInputs) : Statement (.resetNDeassert x0) := fun _ => rfl
theorem dramTrained (x0 : Die) (x1 : List (Fin 4 × Device)) (x2 : Now) :
    Statement (.dramTrained x0 x1 x2) := fun h => Bool.noConfusion h
theorem startupChannelStart (x0 : Chan) (x1 : Now) : Statement (.startupChannelStart x0 x1) := fun _ => rfl
theorem pcieConfigRequest (x0 : ConfigReq) : Statement (.pcieConfigRequest x0) := fun _ => rfl
theorem vinDip (x0 : Nat) : Statement (.vinDip x0) := fun _ => rfl
theorem brownOut (x0 : Nat) (x1 : Nat) : Statement (.brownOut x0 x1) := fun _ => rfl
theorem vinOvervoltage (x0 : Nat) (x1 : Nat) : Statement (.vinOvervoltage x0 x1) := fun _ => rfl
theorem inputDisconnect (x0 : Nat) : Statement (.inputDisconnect x0) := fun _ => rfl
theorem railOutOfWindow (x0 : Fin 9) (x1 : Nat) (x2 : RailFault) (x3 : Nat) :
    Statement (.railOutOfWindow x0 x1 x2 x3) := fun _ => rfl
theorem pwrHeartbeatTimeout (x0 : Waited) : Statement (.pwrHeartbeatTimeout x0) := fun _ => rfl
theorem thermalSample (x0 : List Int) (x1 : Now) : Statement (.thermalSample x0 x1) := fun _ => rfl
theorem safeReq (x0 : Nat) : Statement (.safeReq x0) := fun _ => rfl
theorem collectorSelfTest : Statement (.collectorSelfTest) := fun _ => rfl
theorem faultLands (x0 x1 : Bool) (x2 : Nat) : Statement (.faultLands x0 x1 x2) := fun _ => rfl
theorem collector (x0 : Die) : Statement (.collector x0) := fun _ => rfl
theorem timeIntegrity (x0 : Domain) : Statement (.timeIntegrity x0) := fun _ => rfl
theorem wireBreak (x0 : Occ) (x1 : Nat) : Statement (.wireBreak x0 x1) := fun h => Bool.noConfusion h
theorem faultOccurrence (x0 : List Occ) (x1 : Now) : Statement (.faultOccurrence x0 x1) := fun h => Bool.noConfusion h
theorem dieUp (x0 : Die) (x1 : List (Fin 4 × Device)) (x2 : Now) : Statement (.dieUp x0 x1 x2) := fun h => Bool.noConfusion h
theorem restartChannelResume (x0 : Die) (x1 : Domain) (x2 : Now) : Statement (.restartChannelResume x0 x1 x2) := fun _ => rfl
theorem failoverStart (x0 : Chan) (x1 : Now) : Statement (.failoverStart x0 x1) := fun _ => rfl
theorem swRestart (x0 : Party) (x1 : Die) : Statement (.swRestart x0 x1) := fun _ => rfl
theorem faultInject (x0 : Party) (x1 : Word) : Statement (.faultInject x0 x1) := fun _ => rfl
theorem syncReceived (x0 : NetPort) (x1 : PtpTiming) (x2 : Now) :
    Statement (.syncReceived x0 x1 x2) := fun h => Bool.noConfusion h
theorem announceReceived (x0 : NetPort) (x1 : Announce) (x2 : Now) :
    Statement (.announceReceived x0 x1 x2) := fun h => Bool.noConfusion h
theorem delayReqSend (x0 : NetPort) (x1 : Now) : Statement (.delayReqSend x0 x1) := fun _ => rfl
theorem syncReceiptTimeout (x0 : NetPort) (x1 : Now) : Statement (.syncReceiptTimeout x0 x1) := fun _ => rfl
theorem announceReceiptTimeout (x0 : NetPort) (x1 : Now) : Statement (.announceReceiptTimeout x0 x1) := fun _ => rfl
theorem holdoverTimeout (x0 : Now) : Statement (.holdoverTimeout x0) := fun _ => rfl
theorem firstLockTimeout (x0 : Now) : Statement (.firstLockTimeout x0) := fun _ => rfl
theorem realign (x0 : Party) (x1 : Word) : Statement (.realign x0 x1) := fun _ => rfl
theorem ppsInEdge (x0 : Now) : Statement (.ppsInEdge x0) := fun _ => rfl
theorem ppsOut (x0 : Now) : Statement (.ppsOut x0) := fun _ => rfl
theorem arm (x0 : Party) (x1 : HoSlot) (x2 : Word) : Statement (.arm x0 x1 x2) := fun _ => rfl
theorem disarm (x0 : Party) (x1 : HoSlot) (x2 : Word) : Statement (.disarm x0 x1 x2) := fun _ => rfl
theorem handoverFire (x0 : HoSlot) (x1 : Now) : Statement (.handoverFire x0 x1) := fun _ => rfl
theorem cchStart (x0 : Party) (x1 : Die) (x2 : Chan) (x3 : Word) : Statement (.cchStart x0 x1 x2 x3) := fun _ => rfl
theorem channelStart (x0 : Chan) (x1 : Now) : Statement (.channelStart x0 x1) := fun _ => rfl
theorem cchStop (x0 : Party) (x1 : Die) (x2 : Chan) (x3 : Word) : Statement (.cchStop x0 x1 x2 x3) := fun _ => rfl
theorem moveDie (x0 : Party) (x1 : Die) (x2 : Chan) (x3 : Word) : Statement (.moveDie x0 x1 x2 x3) := fun _ => rfl
theorem dieMove (x0 : Chan) (x1 : Now) : Statement (.dieMove x0 x1) := fun _ => rfl
theorem handover (x0 : Party) (x1 : Die) (x2 : Chan) (x3 : Word) : Statement (.handover x0 x1 x2 x3) := fun _ => rfl
theorem handoverOffer (x0 : Link) (x1 : Offer) (x2 : Now) :
    Statement (.handoverOffer x0 x1 x2) := fun h => Bool.noConfusion h
theorem handoverReply (x0 : Chan) (x1 : Bool) (x2 : Now) : Statement (.handoverReply x0 x1 x2) := fun _ => rfl
theorem handoverPicture (x0 : Chan) (x1 : HoMoment) : Statement (.handoverPicture x0 x1) := fun h => Bool.noConfusion h
theorem tetherHoTimeout (x0 : Chan) (x1 : Now) : Statement (.tetherHoTimeout x0 x1) := fun _ => rfl
theorem tileDigest (x0 : Link) (x1 : Nat) (x2 : Nat) : Statement (.tileDigest x0 x1 x2) := fun h => Bool.noConfusion h
theorem pictureBoundary (x0 : Chan) (x1 : Now) : Statement (.pictureBoundary x0 x1) := fun _ => rfl
theorem dropLt (x0 : Party) (x1 : Die) (x2 : Chan) (x3 : Word) : Statement (.dropLt x0 x1 x2 x3) := fun _ => rfl
theorem rowReady (x0 : Chan) (x1 : Nat) (x2 : Now) : Statement (.rowReady x0 x1 x2) := fun h => Bool.noConfusion h
theorem stripeSlotStart (x0 : Chan) (x1 : Nat) (x2 : StripeIx) (x3 : SlotMoment) :
    Statement (.stripeSlotStart x0 x1 x2 x3) := fun h => Bool.noConfusion h
theorem shadowCheck (x0 : Chan) (x1 : Nat) (x2 : StripeIx) (x3 : Nat) (x4 : List SmpFlip) (x5 : Now) :
    Statement (.shadowCheck x0 x1 x2 x3 x4 x5) := fun h => Bool.noConfusion h
theorem reexecDone (x0 : Chan) (x1 : Nat) (x2 : StripeIx) (x3 : List SmpFlip) (x4 : Now) :
    Statement (.reexecDone x0 x1 x2 x3 x4) := fun h => Bool.noConfusion h
theorem spareTakeover (x0 : ClusterIx) (x1 : Now) : Statement (.spareTakeover x0 x1) := fun _ => rfl
theorem failsWindowExpiry (x0 : UnitIx) (x1 : Now) : Statement (.failsWindowExpiry x0 x1) := fun _ => rfl
theorem retire (x0 : Party) (x1 : UnitIx) (x2 : Word) : Statement (.retire x0 x1 x2) := fun _ => rfl
theorem unitStallTimeout (x0 : UnitIx) (x1 : Waited) : Statement (.unitStallTimeout x0 x1) := fun _ => rfl
theorem clusterStallTimeout (x0 : ClusterIx) (x1 : Bool) (x2 : Waited) :
    Statement (.clusterStallTimeout x0 x1 x2) := fun _ => rfl
theorem stripeWithheld (x0 : Chan) (x1 : Nat) (x2 : StripeIx) (x3 : Now) :
    Statement (.stripeWithheld x0 x1 x2 x3) := fun h => Bool.noConfusion h
theorem rasterRelease (x0 : Chan) (x1 : Nat) (x2 : Nat) (x3 : Now) :
    Statement (.rasterRelease x0 x1 x2 x3) := fun h => Bool.noConfusion h
theorem st2110Release (x0 : Chan) (x1 : Nat) (x2 : Now) : Statement (.st2110Release x0 x1 x2) := fun _ => rfl
theorem decodeDeadline (x0 : Chan) (x1 : Nat) (x2 : Now) :
    Statement (.decodeDeadline x0 x1 x2) := fun h => Bool.noConfusion h
theorem refreshHoldoffEnd (x0 : Chan) (x1 : Now) : Statement (.refreshHoldoffEnd x0 x1) := fun _ => rfl
theorem decodeStripeDone (x0 : Chan) (x1 : Nat) (x2 : StripeIx) (x3 : List Nat) (x4 : Now) :
    Statement (.decodeStripeDone x0 x1 x2 x3 x4) := fun h => Bool.noConfusion h
theorem refreshRequestReceived (x0 : Chan) (x1 : List Byte) (x2 : Now) :
    Statement (.refreshRequestReceived x0 x1 x2) := fun _ => rfl
theorem modelUpdate (x0 : Chan) (x1 : Now) : Statement (.modelUpdate x0 x1) := fun _ => rfl
theorem frameReceive (x0 : Iface) (x1 : List Byte) (x2 : Bool) (x3 : List Nat) (x4 : Now) :
    Statement (.frameReceive x0 x1 x2 x3 x4) := fun h => Bool.noConfusion h
theorem recircPass (x0 : Die) (x1 : Now) : Statement (.recircPass x0 x1) := fun _ => rfl
theorem xdieCopyReceive (x0 : Die) (x1 : Now) : Statement (.xdieCopyReceive x0 x1) := fun _ => rfl
theorem mergeWindowExpiry (x0 : Die) (x1 : Pair) (x2 : Now) : Statement (.mergeWindowExpiry x0 x1 x2) := fun _ => rfl
theorem pipeStallTimeout (x0 : Die) (x1 : Nat) (x2 : Waited) :
    Statement (.pipeStallTimeout x0 x1 x2) := fun h => Bool.noConfusion h
theorem nodeLineRefetch (x0 : Die) (x1 : Fin 16384) (x2 : Bool) : Statement (.nodeLineRefetch x0 x1 x2) := fun _ => rfl
theorem nodeRead (x0 : Party) (x1 : Die) (x2 : Word) : Statement (.nodeRead x0 x1 x2) := fun _ => rfl
theorem nodeWrite (x0 : Party) (x1 : Die) (x2 : Word) : Statement (.nodeWrite x0 x1 x2) := fun _ => rfl
theorem publish (x0 : Party) (x1 : Die) (x2 : Word) : Statement (.publish x0 x1 x2) := fun _ => rfl
theorem rulesetSlotRetire (x0 : Die) : Statement (.rulesetSlotRetire x0) := fun _ => rfl
theorem portModeChange (x0 : Party) (x1 : Die) (x2 : Fin 2) (x3 : Word) :
    Statement (.portModeChange x0 x1 x2 x3) := fun _ => rfl
theorem mergePairWrite (x0 : Party) (x1 : Die) (x2 : Pair) (x3 : Word) :
    Statement (.mergePairWrite x0 x1 x2 x3) := fun _ => rfl
theorem linkChange (x0 : Iface) (x1 : Bool) : Statement (.linkChange x0 x1) := fun _ => rfl
theorem rtRead (x0 : Party) (x1 : Die) (x2 : Word) : Statement (.rtRead x0 x1 x2) := fun _ => rfl
theorem rtInsert (x0 : Party) (x1 : Die) (x2 : Word) : Statement (.rtInsert x0 x1 x2) := fun _ => rfl
theorem rtDelete (x0 : Party) (x1 : Die) (x2 : Word) : Statement (.rtDelete x0 x1 x2) := fun _ => rfl
theorem rtSearch (x0 : Party) (x1 : Die) (x2 : Word) : Statement (.rtSearch x0 x1 x2) := fun _ => rfl
theorem flRead (x0 : Party) (x1 : Die) (x2 : Word) : Statement (.flRead x0 x1 x2) := fun _ => rfl
theorem flWrite (x0 : Party) (x1 : Die) (x2 : Word) : Statement (.flWrite x0 x1 x2) := fun _ => rfl
theorem flInsert (x0 : Party) (x1 : Die) (x2 : Word) : Statement (.flInsert x0 x1 x2) := fun _ => rfl
theorem flDelete (x0 : Party) (x1 : Die) (x2 : Word) : Statement (.flDelete x0 x1 x2) := fun _ => rfl
theorem flSearch (x0 : Party) (x1 : Die) (x2 : Word) : Statement (.flSearch x0 x1 x2) := fun _ => rfl
theorem brRead (x0 : Party) (x1 : Die) (x2 : Word) : Statement (.brRead x0 x1 x2) := fun _ => rfl
theorem brWrite (x0 : Party) (x1 : Die) (x2 : Word) : Statement (.brWrite x0 x1 x2) := fun _ => rfl
theorem brInsert (x0 : Party) (x1 : Die) (x2 : Word) : Statement (.brInsert x0 x1 x2) := fun _ => rfl
theorem brDelete (x0 : Party) (x1 : Die) (x2 : Word) : Statement (.brDelete x0 x1 x2) := fun _ => rfl
theorem brSearch (x0 : Party) (x1 : Die) (x2 : Word) : Statement (.brSearch x0 x1 x2) := fun _ => rfl
theorem brFlush (x0 : Party) (x1 : Die) (x2 : Word) : Statement (.brFlush x0 x1 x2) := fun _ => rfl
theorem tableCmdUnsupported (x0 : Party) (x1 : Die) (x2 : TableId) (x3 : Word) :
    Statement (.tableCmdUnsupported x0 x1 x2 x3) := fun _ => rfl
theorem tableCmdComplete (x0 : Die) (x1 : TableId) (x2 : TableReads) (x3 : Now) :
    Statement (.tableCmdComplete x0 x1 x2 x3) := fun _ => rfl
theorem tableCmdTimeout (x0 : Die) (x1 : TableId) (x2 : Now) : Statement (.tableCmdTimeout x0 x1 x2) := fun _ => rfl
theorem learnInsert (x0 : Die) (x1 : Now) : Statement (.learnInsert x0 x1) := fun _ => rfl
theorem agePeriodExpiry (x0 : Die) (x1 : Now) : Statement (.agePeriodExpiry x0 x1) := fun _ => rfl
theorem agingSweep (x0 : Die) (x1 : Now) : Statement (.agingSweep x0 x1) := fun _ => rfl
theorem agingSweepEnd (x0 : Die) (x1 : Now) : Statement (.agingSweepEnd x0 x1) := fun _ => rfl
theorem tableLineRefetch (x0 : Die) (x1 : TableId) (x2 : Nat) (x3 : Bool) :
    Statement (.tableLineRefetch x0 x1 x2 x3) := fun _ => rfl
theorem trieLineRebuild (x0 : Die) (x1 : Nat) (x2 : Bool) : Statement (.trieLineRebuild x0 x1 x2) := fun _ => rfl
theorem bktApply (x0 : Party) (x1 : Die) (x2 : Bucket) (x3 : Word) : Statement (.bktApply x0 x1 x2 x3) := fun _ => rfl
theorem templateRead (x0 : Party) (x1 : Die) (x2 : Word) : Statement (.templateRead x0 x1 x2) := fun _ => rfl
theorem templateWrite (x0 : Party) (x1 : Die) (x2 : Word) : Statement (.templateWrite x0 x1 x2) := fun _ => rfl
theorem templateRefetch (x0 : Die) (x1 : Handle) (x2 : TplLine) : Statement (.templateRefetch x0 x1 x2) := fun _ => rfl
theorem shapedFrameStart (x0 : Die) (x1 : Bucket) (x2 : Now) : Statement (.shapedFrameStart x0 x1 x2) := fun _ => rfl
theorem interfaceFrameBoundary (x0 : Iface) (x1 : Now) : Statement (.interfaceFrameBoundary x0 x1) := fun _ => rfl
theorem seqMirrorUpdate (x0 : Die) (x1 : Handle) (x2 : Word) : Statement (.seqMirrorUpdate x0 x1 x2) := fun _ => rfl
theorem hostAlloc (x0 : Party) (x1 : Die) (x2 : HostPort) (x3 : Word) (x4 : List Rival) :
    Statement (.hostAlloc x0 x1 x2 x3 x4) := fun h => Bool.noConfusion h
theorem hostFree (x0 : Party) (x1 : Die) (x2 : HostPort) (x3 : Word) : Statement (.hostFree x0 x1 x2 x3) := fun _ => rfl
theorem reserveWrite (x0 : Party) (x1 : Die) (x2 : Fin 64) (x3 : Option (Fin 8)) (x4 : Word) :
    Statement (.reserveWrite x0 x1 x2 x3 x4) := fun _ => rfl
theorem dramRead (x0 : Group) (x1 : Fin 16777216) (x2 : List Flip) : Statement (.dramRead x0 x1 x2) := fun _ => rfl
theorem dramWrite (x0 : Group) (x1 : Fin 16777216) (x2 : Fin 256) (x3 : List Byte) (x4 : Nat) (x5 : LineSide) :
    Statement (.dramWrite x0 x1 x2 x3 x4 x5) := fun h => Bool.noConfusion h
theorem forceErase (x0 : Party) (x1 : Group) (x2 : Word) : Statement (.forceErase x0 x1 x2) := fun _ => rfl
theorem scrubCredit (x0 : Group) (x1 : List (Nat × List Flip)) (x2 : Now) :
    Statement (.scrubCredit x0 x1 x2) := fun h => Bool.noConfusion h
theorem refreshInterval (x0 : Group) (x1 : Bool) (x2 : Now) : Statement (.refreshInterval x0 x1 x2) := fun _ => rfl
theorem refreshCatchup (x0 : Group) (x1 : Fin 4) (x2 : Now) : Statement (.refreshCatchup x0 x1 x2) := fun _ => rfl
theorem mr4Read (x0 : Group) (x1 : Fin 4) (x2 : Now) : Statement (.mr4Read x0 x1 x2) := fun _ => rfl
theorem driftRetrain (x0 : Group) (x1 : Device) (x2 : Now) : Statement (.driftRetrain x0 x1 x2) := fun _ => rfl
theorem driftRetrainDone (x0 : Group) (x1 : Bool) (x2 : Now) : Statement (.driftRetrainDone x0 x1 x2) := fun _ => rfl
theorem xbarGrantTimeout (x0 : Group) (x1 : Fin 4) (x2 : Waited) : Statement (.xbarGrantTimeout x0 x1 x2) := fun _ => rfl
theorem ageCapHit (x0 : Group) (x1 : AgeCap) : Statement (.ageCapHit x0 x1) := fun _ => rfl
theorem repairMapAppend (x0 : RepairEntry) : Statement (.repairMapAppend x0) := fun h => Bool.noConfusion h
theorem dmaPost (x0 : Party) (x1 : Die) (x2 : Queue) (x3 : Word) : Statement (.dmaPost x0 x1 x2 x3) := fun _ => rfl
theorem dmaNop (x0 : Die) (x1 : Queue) (x2 : DmaEnv) (x3 : Now) : Statement (.dmaNop x0 x1 x2 x3) := fun _ => rfl
theorem dmaCopy (x0 : Die) (x1 : Queue) (x2 : DmaEnv) (x3 : Now) : Statement (.dmaCopy x0 x1 x2 x3) := fun _ => rfl
theorem dmaReshIn (x0 : Die) (x1 : Queue) (x2 : DmaEnv) (x3 : Now) : Statement (.dmaReshIn x0 x1 x2 x3) := fun _ => rfl
theorem dmaReshOut (x0 : Die) (x1 : Queue) (x2 : DmaEnv) (x3 : Now) : Statement (.dmaReshOut x0 x1 x2 x3) := fun _ => rfl
theorem dmaDeint (x0 : Die) (x1 : Queue) (x2 : DmaEnv) (x3 : Now) : Statement (.dmaDeint x0 x1 x2 x3) := fun _ => rfl
theorem dmaInter (x0 : Die) (x1 : Queue) (x2 : DmaEnv) (x3 : Now) : Statement (.dmaInter x0 x1 x2 x3) := fun _ => rfl
theorem dmaFill (x0 : Die) (x1 : Queue) (x2 : DmaEnv) (x3 : Now) : Statement (.dmaFill x0 x1 x2 x3) := fun _ => rfl
theorem dmaCompare (x0 : Die) (x1 : Queue) (x2 : DmaEnv) (x3 : Now) : Statement (.dmaCompare x0 x1 x2 x3) := fun _ => rfl
theorem dmaCheck (x0 : Die) (x1 : Queue) (x2 : DmaEnv) (x3 : Now) : Statement (.dmaCheck x0 x1 x2 x3) := fun _ => rfl
theorem dmaRecv (x0 : Die) (x1 : Queue) (x2 : DmaEnv) (x3 : Now) : Statement (.dmaRecv x0 x1 x2 x3) := fun _ => rfl
theorem dmaSend (x0 : Die) (x1 : Queue) (x2 : DmaEnv) (x3 : Now) : Statement (.dmaSend x0 x1 x2 x3) := fun _ => rfl
theorem dmaOpReserved (x0 : Die) (x1 : Queue) (x2 : DmaEnv) (x3 : Now) :
    Statement (.dmaOpReserved x0 x1 x2 x3) := fun _ => rfl
theorem descComplete (x0 : Die) (x1 : Queue) (x2 : ReadBack) (x3 : Now) :
    Statement (.descComplete x0 x1 x2 x3) := fun _ => rfl
theorem dmaDescTimeout (x0 : Die) (x1 : Queue) (x2 : Now) : Statement (.dmaDescTimeout x0 x1 x2) := fun _ => rfl
theorem pcieCplTimeout (x0 : Die) (x1 : Queue) (x2 : Waited) : Statement (.pcieCplTimeout x0 x1 x2) := fun _ => rfl
theorem dmaResume (x0 : Party) (x1 : Die) (x2 : Queue) (x3 : Word) : Statement (.dmaResume x0 x1 x2 x3) := fun _ => rfl
theorem dmaReset (x0 : Party) (x1 : Die) (x2 : Queue) (x3 : Word) : Statement (.dmaReset x0 x1 x2 x3) := fun _ => rfl
theorem chkData (x0 : Party) (x1 : Die) (x2 : ChkUnit) (x3 : Word) : Statement (.chkData x0 x1 x2 x3) := fun _ => rfl
theorem chkDataB (x0 : Party) (x1 : Die) (x2 : ChkUnit) (x3 : Word) : Statement (.chkDataB x0 x1 x2 x3) := fun _ => rfl
theorem chkFold (x0 : Party) (x1 : Die) (x2 : ChkUnit) (x3 : Word) : Statement (.chkFold x0 x1 x2 x3) := fun _ => rfl
theorem chkStart (x0 : Party) (x1 : Die) (x2 : ChkUnit) (x3 : Word) : Statement (.chkStart x0 x1 x2 x3) := fun _ => rfl
theorem chkFinish (x0 : Party) (x1 : Die) (x2 : ChkUnit) (x3 : Word) : Statement (.chkFinish x0 x1 x2 x3) := fun _ => rfl
theorem chkFinishEffect (x0 : Die) (x1 : ChkUnit) (x2 : Now) : Statement (.chkFinishEffect x0 x1 x2) := fun _ => rfl
theorem chkContextWrite (x0 : Party) (x1 : Die) (x2 : ChkUnit) (x3 : ChkCtx) (x4 : Word) :
    Statement (.chkContextWrite x0 x1 x2 x3 x4) := fun _ => rfl
theorem eventAssert (x0 : Source) (x1 : Nat) (x2 : Bool) : Statement (.eventAssert x0 x1 x2) := fun _ => rfl
theorem msixUnmask (x0 : HostPort) : Statement (.msixUnmask x0) := fun _ => rfl
theorem evcClaim (x0 : Party) (x1 : Target) : Statement (.evcClaim x0 x1) := fun _ => rfl
theorem evcComplete (x0 : Party) (x1 : Target) (x2 : Word) : Statement (.evcComplete x0 x1 x2) := fun _ => rfl
theorem claimTimeout (x0 : Source) (x1 : Now) : Statement (.claimTimeout x0 x1) := fun _ => rfl
theorem evcFifoPop (x0 : Party) (x1 : Target) (x2 : Bool) : Statement (.evcFifoPop x0 x1 x2) := fun _ => rfl
theorem evcFifoPush (x0 : Party) (x1 : Target) (x2 : Word) : Statement (.evcFifoPush x0 x1 x2) := fun _ => rfl
theorem evcSwSet (x0 : Party) (x1 : Word) : Statement (.evcSwSet x0 x1) := fun _ => rfl
theorem evcSwClr (x0 : Party) (x1 : Word) : Statement (.evcSwClr x0 x1) := fun _ => rfl
theorem evcSrcCfgWrite (x0 : Party) (x1 : Source) (x2 : Word) : Statement (.evcSrcCfgWrite x0 x1 x2) := fun _ => rfl
theorem evcTgtCtrlWrite (x0 : Party) (x1 : Target) (x2 : Word) : Statement (.evcTgtCtrlWrite x0 x1 x2) := fun _ => rfl
theorem ostAdd (x0 : Die) (x1 : Nano) (x2 : Fin 1024) : Statement (.ostAdd x0 x1 x2) := fun _ => rfl
theorem ostSub (x0 : Die) (x1 : Nano) (x2 : Fin 1024) : Statement (.ostSub x0 x1 x2) := fun _ => rfl
theorem ostAnd (x0 : Die) (x1 : Nano) (x2 : Fin 1024) : Statement (.ostAnd x0 x1 x2) := fun _ => rfl
theorem ostOr (x0 : Die) (x1 : Nano) (x2 : Fin 1024) : Statement (.ostOr x0 x1 x2) := fun _ => rfl
theorem ostXor (x0 : Die) (x1 : Nano) (x2 : Fin 1024) : Statement (.ostXor x0 x1 x2) := fun _ => rfl
theorem ostShl (x0 : Die) (x1 : Nano) (x2 : Fin 1024) : Statement (.ostShl x0 x1 x2) := fun _ => rfl
theorem ostShr (x0 : Die) (x1 : Nano) (x2 : Fin 1024) : Statement (.ostShr x0 x1 x2) := fun _ => rfl
theorem ostSar (x0 : Die) (x1 : Nano) (x2 : Fin 1024) : Statement (.ostSar x0 x1 x2) := fun _ => rfl
theorem ostMin (x0 : Die) (x1 : Nano) (x2 : Fin 1024) : Statement (.ostMin x0 x1 x2) := fun _ => rfl
theorem ostMax (x0 : Die) (x1 : Nano) (x2 : Fin 1024) : Statement (.ostMax x0 x1 x2) := fun _ => rfl
theorem ostMov (x0 : Die) (x1 : Nano) (x2 : Fin 1024) : Statement (.ostMov x0 x1 x2) := fun _ => rfl
theorem ostLdlc (x0 : Die) (x1 : Nano) (x2 : Fin 1024) : Statement (.ostLdlc x0 x1 x2) := fun _ => rfl
theorem ostCrc32c (x0 : Die) (x1 : Nano) (x2 : Fin 1024) : Statement (.ostCrc32c x0 x1 x2) := fun _ => rfl
theorem ostLoad (x0 : Die) (x1 : Nano) (x2 : Bool) : Statement (.ostLoad x0 x1 x2) := fun _ => rfl
theorem ostStore (x0 : Die) (x1 : Nano) : Statement (.ostStore x0 x1) := fun _ => rfl
theorem ostRdreg (x0 : Die) (x1 : Nano) (x2 : Bool) : Statement (.ostRdreg x0 x1 x2) := fun _ => rfl
theorem ostWrreg (x0 : Die) (x1 : Nano) : Statement (.ostWrreg x0 x1) := fun _ => rfl
theorem ostPop (x0 : Die) (x1 : Nano) (x2 : Bool) : Statement (.ostPop x0 x1 x2) := fun _ => rfl
theorem ostPush (x0 : Die) (x1 : Nano) (x2 : Bool) : Statement (.ostPush x0 x1 x2) := fun _ => rfl
theorem ostLimm (x0 : Die) (x1 : Nano) : Statement (.ostLimm x0 x1) := fun _ => rfl
theorem ostCont (x0 : Die) (x1 : Fin 1024) : Statement (.ostCont x0 x1) := fun _ => rfl
theorem ostJmp (x0 : Die) (x1 : Fin 1024) : Statement (.ostJmp x0 x1) := fun _ => rfl
theorem ostBrt (x0 : Die) (x1 : Fin 1024) : Statement (.ostBrt x0 x1) := fun _ => rfl
theorem ostBrf (x0 : Die) (x1 : Fin 1024) : Statement (.ostBrf x0 x1) := fun _ => rfl
theorem ostCall (x0 : Die) (x1 : Fin 1024) : Statement (.ostCall x0 x1) := fun _ => rfl
theorem ostRet (x0 : Die) (x1 : Fin 1024) : Statement (.ostRet x0 x1) := fun _ => rfl
theorem ostYield (x0 : Die) (x1 : Fin 1024) (x2 : Now) : Statement (.ostYield x0 x1 x2) := fun _ => rfl
theorem ostEnd (x0 : Die) (x1 : Fin 1024) (x2 : Now) : Statement (.ostEnd x0 x1 x2) := fun _ => rfl
theorem shedClear (x0 : Die) (x1 : Now) : Statement (.shedClear x0 x1) := fun _ => rfl
theorem ostlerWatchdog (x0 : Die) (x1 : Now) : Statement (.ostlerWatchdog x0 x1) := fun _ => rfl
theorem registerWrite (x0 : Party) (x1 : Fin 67108864) (x2 : Word) (x3 : Fin 16) (x4 : Nat) :
    Statement (.registerWrite x0 x1 x2 x3 x4) := fun h => Bool.noConfusion h
theorem counterLoRead (x0 : Party) (x1 : Fin 67108864) : Statement (.counterLoRead x0 x1) := fun h => Bool.noConfusion h
theorem stirrupTake (x0 : Stirrup) (x1 : List Party) : Statement (.stirrupTake x0 x1) := fun h => Bool.noConfusion h
theorem stirrupRelease (x0 : Party) (x1 : Stirrup) (x2 : Word) : Statement (.stirrupRelease x0 x1 x2) := fun _ => rfl
theorem stirrupForce (x0 : Party) (x1 : Stirrup) (x2 : Word) : Statement (.stirrupForce x0 x1 x2) := fun _ => rfl
theorem lease (x0 : Stirrup) (x1 : Now) : Statement (.lease x0 x1) := fun _ => rfl
theorem hirSel (x0 : Party) (x1 : HostPort) (x2 : Word) : Statement (.hirSel x0 x1 x2) := fun _ => rfl
theorem portReset (x0 : HostPort) : Statement (.portReset x0) := fun _ => rfl
theorem quoteGo (x0 : Party) (x1 : HostPort) (x2 : Word) : Statement (.quoteGo x0 x1 x2) := fun _ => rfl
theorem quoteComplete (x0 : Bool) (x1 : Now) : Statement (.quoteComplete x0 x1) := fun _ => rfl
theorem tetherQuoteRequest (x0 : Link) (x1 : List Byte) :
    Statement (.tetherQuoteRequest x0 x1) := fun h => Bool.noConfusion h
theorem fwuOpen (x0 : Party) (x1 : Word) : Statement (.fwuOpen x0 x1) := fun _ => rfl
theorem fwuClose (x0 : Party) (x1 : Word) : Statement (.fwuClose x0 x1) := fun _ => rfl
theorem fwuSubmit (x0 : Party) (x1 : Word) : Statement (.fwuSubmit x0 x1) := fun _ => rfl
theorem blockChecked (x0 : Now) : Statement (.blockChecked x0) := fun _ => rfl
theorem slotReadback (x0 : Now) : Statement (.slotReadback x0) := fun _ => rfl
theorem flashOpTimeout (x0 : Now) : Statement (.flashOpTimeout x0) := fun _ => rfl
theorem xferTimeout (x0 : Now) : Statement (.xferTimeout x0) := fun _ => rfl
theorem fwuActivate (x0 : Party) (x1 : Word) : Statement (.fwuActivate x0 x1) := fun _ => rfl
theorem preparationEnd (x0 : Now) : Statement (.preparationEnd x0) := fun _ => rfl
theorem ostlerQuiesce (x0 : Now) : Statement (.ostlerQuiesce x0) := fun _ => rfl
theorem bundleSwitch (x0 : Now) : Statement (.bundleSwitch x0) := fun _ => rfl
theorem trialConfirm (x0 : Now) : Statement (.trialConfirm x0) := fun _ => rfl
theorem fwuRevert (x0 : Party) (x1 : Word) : Statement (.fwuRevert x0 x1) := fun _ => rfl
theorem actTimeout (x0 : Now) : Statement (.actTimeout x0) := fun _ => rfl
theorem farrierTimeout (x0 : Now) : Statement (.farrierTimeout x0) := fun _ => rfl
theorem tetherRecoveryBlock (x0 : Link) (x1 : Nat) (x2 : Word) (x3 : List Byte) :
    Statement (.tetherRecoveryBlock x0 x1 x2 x3) := fun h => Bool.noConfusion h
theorem winter (x0 : Party) (x1 : Word) : Statement (.winter x0 x1) := fun _ => rfl
theorem winterQuiesce (x0 : Now) : Statement (.winterQuiesce x0) := fun _ => rfl
theorem winterDrained (x0 : Now) : Statement (.winterDrained x0) := fun _ => rfl
theorem spring (x0 : Party) (x1 : Word) : Statement (.spring x0 x1) := fun _ => rfl
theorem springComplete (x0 : Now) : Statement (.springComplete x0) := fun _ => rfl
theorem clusterGate (x0 : ClusterIx) (x1 : Now) : Statement (.clusterGate x0 x1) := fun _ => rfl
theorem autumnEnWrite (x0 : Party) (x1 : Word) : Statement (.autumnEnWrite x0 x1) := fun _ => rfl
theorem tetherLinkUp (x0 : Link) (x1 x2 : Nat) (x3 : Nat) :
    Statement (.tetherLinkUp x0 x1 x2 x3) := fun h => Bool.noConfusion h
theorem tetherKeepaliveTimeout (x0 : Link) (x1 : Waited) : Statement (.tetherKeepaliveTimeout x0 x1) := fun _ => rfl
theorem linkCreditTimeout (x0 : Waited) : Statement (.linkCreditTimeout x0) := fun _ => rfl
theorem linkRetrainRetry (x0 : Now) : Statement (.linkRetrainRetry x0) := fun _ => rfl
theorem followUpReceived (x0 : NetPort) (x1 : PtpTiming) (x2 : Now) :
    Statement (.followUpReceived x0 x1 x2) := fun h => Bool.noConfusion h
theorem delayRespReceived (x0 : NetPort) (x1 : DelayResp) (x2 : Now) :
    Statement (.delayRespReceived x0 x1 x2) := fun h => Bool.noConfusion h
theorem ref10InChange (x0 : Bool) : Statement (.ref10InChange x0) := fun _ => rfl
theorem planeDown (x0 : Die) (x1 : Pair) (x2 : Bool) (x3 : Now) : Statement (.planeDown x0 x1 x2 x3) := fun _ => rfl
theorem ostlerOverload (x0 : Die) (x1 : Overload) : Statement (.ostlerOverload x0 x1) := fun _ => rfl
theorem storeReloadDone (x0 : Die) (x1 : Bool) (x2 : Now) : Statement (.storeReloadDone x0 x1 x2) := fun _ => rfl
theorem vinLowEnd (x0 : Nat) : Statement (.vinLowEnd x0) := fun _ => rfl
theorem linkRetrainDone (x0 : Now) : Statement (.linkRetrainDone x0) := fun _ => rfl
theorem hostLinkUp (x0 : HostPort) (x1 x2 : Nat) : Statement (.hostLinkUp x0 x1 x2) := fun h => Bool.noConfusion h

end Sys2Proof.Laws.Wf
end

