-- ==== Sys2Proof/Safety.lean ====
section
/-!
DEFINITION. The terms in which claims about steps are made: a step that completes, and what a step leaves unchanged.
-/

namespace Sys2Proof

open Machine

/-- A command completes: neither a fault nor a refusal. -/
def Completes (i : Instr) (s : State) : Prop := ∃ t, exec i s = .next t

/-- A state as a command finds it: what the last command sent is gone. -/
def Machine.State.quiet (s : State) : State := { s with outs := [] }

/-- The state on which a time-driven command acts: the state as found, its clock at the command's moment, and every handover
that has come due by then fired (R59). -/
def Machine.State.atNow (s : State) (now : Now) : State := s.quiet.tick now

/-- The block that holds a field (R506, R507). -/
def Machine.Fld.home (f : Fld) : Blk :=
  match f with
  | .mid _ => .mid
  | .hpt _ => .hpt
  | .evc _ => .evc
  | .flt _ => .flt
  | .trs _ => .trs
  | .fwu _ => .fwu
  | .pwr _ => .pwr
  | .tth _ => .tth
  | .cch _ => .cch
  | .cus _ => .cus
  | .qrc _ => .qrc
  | .ref _ => .ref
  | .prs _ => .prs
  | .fwd _ => .fwd
  | .shp _ => .shp
  | .pdk _ => .pdk
  | .dmc _ => .dmc
  | .dma _ => .dma
  | .chk _ => .chk
  | .ost _ => .ost

/-- Every register field and hidden scalar whose key does not pass `touched` has the same value in two states. -/
def SameRegs (touched : Key → Bool) (s t : State) : Prop :=
  ∀ k : Key, touched k = false → t.store.get k = s.store.get k

/-- Every byte of every memory is the same: the DRAM payload, the flash, the Ostler stores and host memory. -/
def SameBytes (s t : State) : Prop := t.dram = s.dram ∧ t.flash = s.flash ∧ t.stores = s.stores ∧ t.host = s.host

/-- Everything that the data path, the tables and the engines hold in lists is the same. -/
def SameTraffic (s t : State) : Prop :=
  t.chains = s.chains ∧ t.copies = s.copies ∧ t.cross = s.cross ∧ t.mheld = s.mheld ∧ t.mdone = s.mdone ∧
  t.learns = s.learns ∧ t.routes = s.routes ∧ t.bufs = s.bufs ∧ t.recircs = s.recircs ∧ t.rxs = s.rxs ∧
  t.inputs = s.inputs ∧ t.units = s.units ∧ t.undo = s.undo ∧ t.plog = s.plog ∧ t.quotes = s.quotes ∧
  t.image = s.image ∧ t.restarts = s.restarts

/-- The frame of a command that works on registers: every other register field, every byte of memory, all traffic, the safe
state and the clock are unchanged; and unless the command may touch the event controller, so are the event FIFOs and the
claims. -/
structure Frame (touched : Key → Bool) (s t : State) : Prop where
  regs    : SameRegs touched s t
  bytes   : SameBytes s t
  traffic : SameTraffic s t
  safe    : t.safe = s.safe
  clock   : t.osc = s.osc ∧ t.tb = s.tb
  events  : touched ⟨.evc .SRC_CFG_PENDING, 0, 0, 0⟩ = false → t.fifo = s.fifo ∧ t.claims = s.claims

/-- What an event may touch: the event controller, and the pending bit of a port's message (R361, R372, R399). -/
def evcKeys (k : Key) : Bool := k.fld.home == .evc || k.fld == .hpt .PBA_WORD

/-- What a recorded occurrence may touch: the collector, and its event (R462, R463). -/
def fltKeys (k : Key) : Bool := k.fld.home == .flt || evcKeys k

/-- The keys of one block. -/
def blkKeys (b : Blk) (k : Key) : Bool := k.fld.home == b

/-- Nothing changes but what is sent. -/
def Still (s t : State) : Prop := Frame (fun _ => false) s t

/-- What a power cycle or RESET_N leaves (R416): every register field but those that pass `kept` at its reset value, no traffic,
no event or claim, no time base, no safe state, empty memories and Ostler stores, and the flash and host memory as they were. -/
structure Restarted (kept : Key → Bool) (s t : State) : Prop where
  regs    : ∀ k : Key, kept k = false → t.store.get k = k.reset
  traffic : SameTraffic State.reset t
  events  : t.fifo = [] ∧ t.claims = []
  clock   : t.osc = 0 ∧ t.tb = 0
  safe    : t.safe = false
  bytes   : t.dram = State.reset.dram ∧ t.stores = State.reset.stores ∧ t.flash = s.flash ∧ t.host = s.host

/-- An occurrence of a class is on record (R462, R463): it is counted, its class's source asserts, and it is either merged into
the record that R462 names, with COUNT and LAST alone, or written as a new record at HEAD, of which the first of its class is
also kept in `FLT_FIRST`. -/
def Recorded (o : Occ) (c : Nat) (wire inj : Bool) (s t : State) : Prop :=
  t.get (.flt .CNT) c = (s.get (.flt .CNT) c + 1) % 2 ^ 64 ∧
  t.flag (.evc .SRC_CFG_PENDING) (classSource c (faultDie o)) = true ∧
  match (if c ≤ 1 then s.mergeTarget o (faultDie o) else none) with
  | some i =>
    t.recWord i 3 = min (s.recWord i 3 + 1) (2 ^ 32 - 1) ∧ t.recWord i 6 = s.recTime % 2 ^ 32 ∧
      t.get (.flt .RING_HEAD) = s.get (.flt .RING_HEAD) ∧ t.get (.flt .RING_TOTAL) = s.get (.flt .RING_TOTAL)
  | none =>
    let i := s.get (.flt .RING_HEAD)
    t.recWord i 0 = recWord0 o.code c wire inj (faultDie o) (s.tbState == tbFREE) (s.get (.flt .RING_TOTAL)) % 2 ^ 32 ∧
      t.recWord i 1 = o.loc % 2 ^ 32 ∧ t.recWord i 2 = o.detail % 2 ^ 32 ∧ t.recWord i 3 = 1 ∧
      t.recWord i 4 = s.recTime % 2 ^ 32 ∧ t.recWord i 5 = s.recTime / 2 ^ 32 % 2 ^ 32 ∧ t.recWord i 7 = 0 ∧
      t.get (.flt .RING_HEAD) = (i + 1) % 240 ∧ t.get (.flt .RING_TOTAL) = (s.get (.flt .RING_TOTAL) + 1) % 2 ^ 16 ∧
      (s.get (.flt .FIRST_WORD) c 3 = 0 → ∀ w < 8, t.get (.flt .FIRST_WORD) c w = t.recWord i w)

/-- A command that acts on the supply or on RESET_N (R415, R416, R480, R481). -/
def Instr.powers (i : Instr) : Bool :=
  match i with
  | .vinStart _ | .powerGood _ | .resetNAssert | .resetNDeassert _ | .inputDisconnect _ => true
  | _ => false

/-- The safe state holds, no waiting command acts on the supply or on RESET_N, and nothing that the last command sent is
of the kinds that the safe state stops. -/
def SafeHolds (s : State) : Prop :=
  s.safe = true ∧ (∀ c ∈ s.pending, c.powers = false) ∧ ∀ o ∈ s.outs, o.stopped = false

/-- What a Grave occurrence leaves (R465, R467): the safe state, its code, and the FAULT lands at SAFE. -/
def Grave (code : Nat) (i : Instr) (s : State) : Prop :=
  ∃ t, exec i s = .next t ∧ t.safe = true ∧ t.flag (.flt .STATUS_SAFE) = true ∧ t.get (.flt .STATUS_GRAVE_CODE) = code ∧
    t.flag (.flt .STATUS_LAND_P) = false ∧ t.flag (.flt .STATUS_LAND_N) = true ∧ Out.faultLands false true ∈ t.outs

end Sys2Proof
end

