-- ==== Sys2Proof/Certificates/Slice0/Obligations.lean ====
section
/-!
DEFINITION. The statements about the model for the provers, family by family, each with the rules of spec/ that it formalises
in its docstring. `live` says that the module has power and RESET_N is high; `gateOf … = .pass` says that a register write
passes the list of R513; `u = s.atNow now` is the state that a time-driven command finds: the clock at its moment, and every
handover that has come due fired (R59).
-/

open Sys2Proof Sys2Proof.Machine

-- The queue

/-- A step takes the command at the front of the queue and runs it with the queue's rest; on an empty queue the block idles,
which is the model's choice (log entry 1). -/
def Obligations.StepRunsFront : Prop :=
  (∀ (c : Instr) (rest : List Instr) (s : State), s.pending = c :: rest → step s = exec c { s with pending := rest }) ∧
  ∀ s : State, s.pending = [] → step s = .next s

/-- Every command completes, whatever the state, and leaves the queue to the step: no meaning ends in a fault or a refusal,
since the spec gives each command an effect, if only to be ignored (R509, R513). With no power or in reset a command that does
not act on the supply or on RESET_N changes nothing, which is the model's reading (log entry 9). -/
def Obligations.EveryCommandCompletes : Prop :=
  ∀ (i : Instr) (s : State), ∃ t, exec i s = .next t ∧ t.pending = s.pending ∧
    (i.powers = false → s.live = false → Still s t ∧ t.outs = [])

-- Power, faults and start-up

/-- `PWR_INPUT.VIN`. -/
def Sys2Proof.keyVIN : Key := ⟨.pwr .INPUT_VIN, 0, 0, 0⟩

/-- What the input voltage reads, where its field can show it; what it shows from 65,536 mV on is open (log entry 25). -/
def Sys2Proof.VinReads (mv : Nat) (t : State) : Prop := mv < 65536 → t.get (.pwr .INPUT_VIN) = mv

/-- Commands on the input supply and on RESET_N (R416, R467, R480, R481), each of which shows the voltage it names. VIN_START
brings rails that are off up, and leaves rails that are up. A voltage below 9.0 V sets VIN_LOW and counts once in DIPS, which
saturates, until VIN_LOW_END at 9.0 V or above clears it. Above 70 V or below 6.0 V a disconnect stops every rail, and all
that is left is the input voltage, the flash and host memory, which is outside the module; within those limits it changes
nothing but the voltage shown. RESET_N asserted while the rails are up leaves the same, and drives the FAULT lands to SAFE;
while they are off it changes nothing. -/
def Obligations.InputSupply : Prop :=
  (∀ (mv : Nat) (s : State),
    ∃ t, exec (.vinStart mv) s = .next t ∧ VinReads mv t ∧ t.flag (.pwr .xRAILS_OFF) = false ∧
      t.outs = (if s.flag (.pwr .xRAILS_OFF) then [.rails true] else []) ∧
      Frame (fun k => k == keyVIN || k == ⟨.pwr .xRAILS_OFF, 0, 0, 0⟩) s t) ∧
  (∀ (mv : Nat) (s : State), s.live = true →
    ∃ t, exec (.vinDip mv) s = .next t ∧ VinReads mv t ∧
      t.flag (.pwr .STATUS_VIN_LOW) = (decide (mv < 9000) || s.flag (.pwr .STATUS_VIN_LOW)) ∧
      (mv < 9000 → s.flag (.pwr .STATUS_VIN_LOW) = false →
        t.get (.pwr .DIPS_DIPS) = min (s.get (.pwr .DIPS_DIPS) + 1) 65535) ∧
      (9000 ≤ mv ∨ s.flag (.pwr .STATUS_VIN_LOW) = true → t.get (.pwr .DIPS_DIPS) = s.get (.pwr .DIPS_DIPS)) ∧
      t.outs = [] ∧ Frame (fun k => k == keyVIN || k.fld == .pwr .STATUS_VIN_LOW || k.fld == .pwr .DIPS_DIPS) s t) ∧
  (∀ (mv : Nat) (s : State), s.live = true →
    ∃ t, exec (.vinLowEnd mv) s = .next t ∧ VinReads mv t ∧
      t.flag (.pwr .STATUS_VIN_LOW) = (s.flag (.pwr .STATUS_VIN_LOW) && decide (mv < 9000)) ∧
      t.outs = [] ∧ Frame (fun k => k == keyVIN || k.fld == .pwr .STATUS_VIN_LOW) s t) ∧
  (∀ (mv : Nat) (s : State), 70000 < mv ∨ mv < 6000 →
    ∃ t, exec (.inputDisconnect mv) s = .next t ∧ VinReads mv t ∧ t.live = false ∧ t.flag (.pwr .xRAILS_OFF) = true ∧
      t.outs = [.rails false] ∧ Restarted (fun k => k == keyVIN || k.fld == .pwr .xDOWN || k.fld == .pwr .xRAILS_OFF) s t) ∧
  (∀ (mv : Nat) (s : State), 6000 ≤ mv → mv ≤ 70000 →
    ∃ t, exec (.inputDisconnect mv) s = .next t ∧ VinReads mv t ∧ t.outs = [] ∧ Frame (fun k => k == keyVIN) s t) ∧
  (∀ s : State, s.flag (.pwr .xRAILS_OFF) = false →
    ∃ t, exec .resetNAssert s = .next t ∧ t.live = false ∧ t.outs = [.faultLands false true] ∧
      t.get (.pwr .INPUT_VIN) = s.get (.pwr .INPUT_VIN) % 2 ^ 16 ∧
      Restarted (fun k => k == keyVIN || k.fld == .pwr .xDOWN) s t) ∧
  ∀ s : State, s.flag (.pwr .xRAILS_OFF) = true →
    ∃ t, exec .resetNAssert s = .next t ∧ t.outs = [] ∧ Still s t

/-- The Grave causes, each of which enters the safe state on its edge with its own code (R456, R458, R461, R465 to R467, R478,
R481, R493, R497): SAFE_REQ_N low for 1 us, FAULT lands that differ for 10 us from the levels driven, copies of the collector
that differ, digests of a domain that differ while both dies are up, PWR_HB_TO with no heartbeat, the input's limits, a rail out
of its window for 100 us, and the third sample in a row of a junction sensor at or above 125 degrees; and an occurrence of class
4 that a block reports, a broken pair carries, or an injection raises. -/
def Obligations.GraveCauses : Prop :=
  ∀ s : State, s.live = true → s.safe = false →
    (∀ lowNs, 1000 ≤ lowNs → Grave 0x80 (.safeReq lowNs) s) ∧
    (∀ p n us, (p != s.landsRun || n == s.landsRun) = true → 10 ≤ us → Grave 0x81 (.faultLands p n us) s) ∧
    (∀ d, Grave 0x82 (.collector d) s) ∧
    (∀ dom, s.dieUp 0 = true → s.dieUp 1 = true → Grave 0x83 (.timeIntegrity dom) s) ∧
    (∀ (since : Nat) (now : Now), (s.atNow now).waitedOut (.pwr .HB_TO_MS) 0 since 1 100 msNs = true →
      Grave 0x84 (.pwrHeartbeatTimeout ⟨since, now⟩) s) ∧
    (∀ mv us, mv < 6500 ∨ (mv < 7000 ∧ 2000 < us) ∨ (mv < 9000 ∧ 50000 < us) → Grave 0x85 (.brownOut mv us) s) ∧
    (∀ mv ms, 65000 < mv ∨ (60000 < mv ∧ 1000 < ms) → Grave 0x85 (.vinOvervoltage mv ms) s) ∧
    (∀ rail mv kind us, 100 ≤ us → Grave 0x85 (.railOutOfWindow rail mv kind us) s) ∧
    (∀ (temps : List Int) (now : Now) (n : Nat), n < 11 → n < temps.length → 500 ≤ temps.getD n 0 →
      2 ≤ s.get (.pwr .xTRIP) n → Grave 0x86 (.thermalSample temps now) s) ∧
    (∀ (o : Occ) (now : Now), faultClass o.code = some 4 → Grave o.code (.faultOccurrence [o] now) s) ∧
    (∀ (o : Occ) (clocks : Nat), faultClass o.code = some 4 → 2 ≤ clocks → Grave o.code (.wireBreak o clocks) s) ∧
    ∀ (p : Party) (v : Word), s.gateOf p .flt none = .pass → faultClass (v.toNat % 256) = some 4 →
      Grave (v.toNat % 256) (.faultInject p v) s

/-- The safe state is sticky and silent: every step from it keeps it, for as long as no command acts on the supply or on
RESET_N, and sends nothing on a lane or a Tether link (R459, R465). -/
def Obligations.SafeStateSticky : Prop := ∀ s t : State, SafeHolds s → step s = .next t → SafeHolds t

-- Time base, domains and handover slots

/-- A port is the only one with a master, and holds a qualified Announce. -/
def Sys2Proof.SoleMaster (p : NetPort) (s : State) : Prop :=
  s.flag (.trs .xANN_OK) p = true ∧ ∀ q : NetPort, q ≠ p → s.hasMaster q = false

/-- The offset that a port measures from the receive timestamp less the correction and the origin time (R42). -/
def Sys2Proof.offsetBy (p : NetPort) (diff : Int) (s : State) : Int := diff - s.int (.trs .xDELAY) p

/-- The time base leaves FREE: one step by the offset, LOCKING, and the port active; nothing but the time base's registers and
its event has changed, and no memory. -/
def Sys2Proof.FirstLocks (p : NetPort) (off : Int) (u t : State) : Prop :=
  t.tbState = tbLOCKING ∧ t.get (.trs .STATUS_ACTIVE_PORT) = p.val ∧ t.tb = (u.tb - off * 65536 : Int).toNat ∧
  SameRegs (fun k => blkKeys .trs k || evcKeys k) u t ∧ SameBytes u t ∧ SameTraffic u t

/-- Sync messages reach the servo, and what one measurement changes (R42 to R45, R47, R48): on the only port with a master, a
one-step Sync, and the Follow_Up of the two-step Sync that waits, take the time base out of FREE by one step of the offset
measured from the time base at the Sync's arrival; a two-step Sync alone waits for its Follow_Up; on a port with no Announce
and no master a measurement moves nothing; a message that is not for the port's instance, or a Follow_Up of no waiting Sync,
changes nothing. The first measurement starts LOCKING; the sixteenth good one in a row in LOCKING ends in LOCKED; the fourth bad one
in a row in LOCKED goes back to LOCKING; any in HOLDOVER or UNLOCKED resumes LOCKING; and after the first the time base is no
longer stepped, and TRS_OFFSET shows the offset. -/
def Obligations.SyncMeasures : Prop :=
  (∀ (p : NetPort) (m : PtpTiming) (now : Now) (s u : State), s.live = true → u = s.atNow now →
    (u.ptpOn p m.path = true →
      (m.twoStep = false → SoleMaster p u → u.tbState = tbFREE →
        ∃ t, exec (.syncReceived p m now) s = .next t ∧ FirstLocks p (offsetBy p (u.rxNs p - m.corr - m.origin) u) u t ∧
          t.get (.trs .xSYNC_DUE) p = u.dueIn u.syncToNs % 2 ^ 64) ∧
      (m.twoStep = false → u.hasMaster p = false → u.flag (.trs .xANN_OK) p = false →
        ∃ t, exec (.syncReceived p m now) s = .next t ∧ t.tbState = u.tbState ∧
          t.get (.trs .xSYNC_DUE) p = u.dueIn u.syncToNs % 2 ^ 64 ∧ Frame (blkKeys .trs) u t) ∧
      (m.twoStep = true →
        ∃ t, exec (.syncReceived p m now) s = .next t ∧ t.tbState = u.tbState ∧ t.flag (.trs .xSYNC_PEND) p = true ∧
          t.get (.trs .xSYNC_SEQ) p = m.seqId % 65536 ∧ t.get (.trs .xSYNC_RX) p = intCode (u.rxNs p - m.corr) ∧
          t.get (.trs .xSYNC_DUE) p = u.dueIn u.syncToNs % 2 ^ 64 ∧ Frame (blkKeys .trs) u t) ∧
      (u.flag (.trs .xSYNC_PEND) p = true → u.get (.trs .xSYNC_SEQ) p = m.seqId % 65536 → SoleMaster p u →
        u.tbState = tbFREE →
        ∃ t, exec (.followUpReceived p m now) s = .next t ∧ t.flag (.trs .xSYNC_PEND) p = false ∧
          FirstLocks p (offsetBy p (intDecode (u.get (.trs .xSYNC_RX) p) - m.corr - m.origin) u) u t) ∧
      (u.flag (.trs .xSYNC_PEND) p = false ∨ u.get (.trs .xSYNC_SEQ) p ≠ m.seqId % 65536 →
        ∃ t, exec (.followUpReceived p m now) s = .next t ∧ Still u t)) ∧
    (u.ptpOn p m.path = false →
      (∃ t, exec (.syncReceived p m now) s = .next t ∧ Still u t) ∧
      ∃ t, exec (.followUpReceived p m now) s = .next t ∧ Still u t)) ∧
  ∀ (off : Int) (s : State),
    (s.tbState = tbFREE → (servo off s).tbState = tbLOCKING ∧ (servo off s).tb = (s.tb - off * 65536 : Int).toNat) ∧
    (s.tbState = tbLOCKING → s.get (.trs .xGOOD) = 15 → -100 ≤ off → off ≤ 100 → (servo off s).tbState = tbLOCKED) ∧
    (s.tbState = tbLOCKING → s.get (.trs .xGOOD) < 15 → (servo off s).tbState = tbLOCKING) ∧
    (s.tbState = tbLOCKED → s.get (.trs .xBAD) = 3 → 1000 < off ∨ off < -1000 → (servo off s).tbState = tbLOCKING) ∧
    (s.tbState = tbLOCKED → -1000 ≤ off → off ≤ 1000 → (servo off s).tbState = tbLOCKED) ∧
    (s.tbState = tbHOLDOVER ∨ s.tbState = tbUNLOCKED → (servo off s).tbState = tbLOCKING) ∧
    (s.tbState ≠ tbFREE → (servo off s).tb = s.tb ∧
      (servo off s).int (.trs .OFFSET_OFFSET) = max (-2147483648) (min 2147483647 off))

/-- A delay request of a port may leave (R42, R269, R465): its instance is on and has a master, its interface is usable, the safe
state does not hold, and the last request lies as far back as the master's rate wants. -/
def Sys2Proof.mayAsk (p : NetPort) (u : State) : Bool :=
  u.flag (.trs .PORT_CFG_PTP_EN) p && u.hasMaster p && !u.safe && u.ifaceUp (u.ptpIface p) &&
  (u.get (.trs .xREQ_AT) p == 0 ||
    elapsedNs (u.get (.trs .xREQ_AT) p - 1) u.osc (intervalNs (-7) 5 (u.int (.trs .xMIN_LOG) p)))

/-- The other inputs and the timeouts of the time base (R42, R44, R47, R52, R53, R67, R68): an Announce qualifies its port and
starts its receipt timeout; a delay response of the mechanism in use gives the path delay and the rate of requests; a delay
request leaves at that rate with the next sequence number, at once on an idle interface and else at its next frame boundary;
PPS_IN is timestamped; PPS_OUT rises within 10 ns of a whole second, once for each, and falls after 1 ms, and is low in FREE;
REF10_OK follows its input. A master that falls silent is lost, and with no other a locked or locking time base becomes
HOLDOVER; a holdover of HOLD_TO becomes UNLOCKED, and FLT_STATUS.UNLOCKED follows; the first-lock timeout sets
FIRSTLOCK_EXPIRED, and with FREE_START starts the time base free. A message that is not for the port's instance, and a timeout
that has not come, change nothing. -/
def Obligations.TimeInputs : Prop :=
  (∀ (p : NetPort) (now : Now) (s u : State), s.live = true → u = s.atNow now →
    (∀ a : Announce,
      (u.ptpOn p a.path = true →
        ∃ t, exec (.announceReceived p a now) s = .next t ∧ t.flag (.trs .xANN_OK) p = true ∧
          t.get (.trs .xANN_DUE) p = u.dueIn u.annToNs % 2 ^ 64 ∧ Frame (blkKeys .trs) u t) ∧
      (u.ptpOn p a.path = false → ∃ t, exec (.announceReceived p a now) s = .next t ∧ Still u t)) ∧
    (∀ r : DelayResp,
      ((u.ptpOn p r.path && r.p2p == u.flag (.trs .PTP_CFG_DELAY_MECH)) = true →
        ∃ t, exec (.delayRespReceived p r now) s = .next t ∧
          t.get (.trs .xDELAY) p = toSigned 64 r.delay ∧ t.get (.trs .xMIN_LOG) p = toSigned 8 r.minLog ∧
          Frame (fun k => k == ⟨.trs .xDELAY, p, 0, 0⟩ || k == ⟨.trs .xMIN_LOG, p, 0, 0⟩) u t) ∧
      ((u.ptpOn p r.path && r.p2p == u.flag (.trs .PTP_CFG_DELAY_MECH)) = false →
        ∃ t, exec (.delayRespReceived p r now) s = .next t ∧ Still u t)) ∧
    (mayAsk p u = true →
      (u.flag (.shp .xWIRE) (u.ptpIface p) = false →
        ∃ t, exec (.delayReqSend p now) s = .next t ∧
          t.outs = u.outs ++
            [.delayReq p (u.flag (.trs .PTP_CFG_DELAY_MECH)) ((u.get (.trs .xREQ_SEQ) p + 1) % 65536)] ∧
          t.get (.trs .xREQ_SEQ) p = (u.get (.trs .xREQ_SEQ) p + 1) % 65536 ∧
          t.get (.trs .xREQ_AT) p = (u.osc + 1) % 2 ^ 64 ∧ Frame (fun k => blkKeys .trs k && k.i == p.val) u t) ∧
      (u.flag (.shp .xWIRE) (u.ptpIface p) = true →
        ∃ t, exec (.delayReqSend p now) s = .next t ∧ t.outs = u.outs ∧ t.flag (.trs .xDREQ) p = true ∧
          t.get (.trs .xREQ_AT) p = (u.osc + 1) % 2 ^ 64 ∧
          Frame (fun k => k == ⟨.trs .xDREQ, p, 0, 0⟩ || k == ⟨.trs .xREQ_AT, p, 0, 0⟩) u t)) ∧
    (mayAsk p u = false → ∃ t, exec (.delayReqSend p now) s = .next t ∧ Still u t) ∧
    (u.expired (.trs .xSYNC_DUE) p = true →
      ∃ t, exec (.syncReceiptTimeout p now) s = .next t ∧ t.hasMaster p = false ∧
        t.tbState = (if (∃ q : NetPort, q ≠ p ∧ u.hasMaster q = true) ∨ u.tbState ≠ tbLOCKING ∧ u.tbState ≠ tbLOCKED
          then u.tbState else tbHOLDOVER) ∧ Frame (fun k => blkKeys .trs k || evcKeys k) u t) ∧
    (u.expired (.trs .xSYNC_DUE) p = false → ∃ t, exec (.syncReceiptTimeout p now) s = .next t ∧ Still u t) ∧
    (u.expired (.trs .xANN_DUE) p = true →
      ∃ t, exec (.announceReceiptTimeout p now) s = .next t ∧ t.hasMaster p = false ∧ t.flag (.trs .xANN_OK) p = false ∧
        t.tbState = (if (∃ q : NetPort, q ≠ p ∧ u.hasMaster q = true) ∨ u.tbState ≠ tbLOCKING ∧ u.tbState ≠ tbLOCKED
          then u.tbState else tbHOLDOVER) ∧ Frame (fun k => blkKeys .trs k || evcKeys k) u t) ∧
    (u.expired (.trs .xANN_DUE) p = false → ∃ t, exec (.announceReceiptTimeout p now) s = .next t ∧ Still u t)) ∧
  (∀ (now : Now) (s u : State), s.live = true → u = s.atNow now →
    (∃ t, exec (.ppsInEdge now) s = .next t ∧ t.get (.trs .PPS_TS) = u.tai % 2 ^ 64 ∧
      t.flag (.trs .STATUS_PPS_OK) = (u.get (.trs .xPPS_AT) != 0 &&
        elapsedNs (u.get (.trs .xPPS_AT) - 1) u.osc 999999000 &&
        !elapsedNs (u.get (.trs .xPPS_AT) - 1) u.osc 1000001001) ∧
      t.flag (.evc .SRC_CFG_PENDING) 881 = true ∧ Frame (fun k => blkKeys .trs k || evcKeys k) u t) ∧
    (∀ sec : Nat, u.flag (.trs .xPPS) = false → u.tbState ≠ tbFREE → u.ppsSecond = some sec →
      u.get (.trs .xPPS_SEC) ≠ sec + 1 →
      ∃ t, exec (.ppsOut now) s = .next t ∧ .pps sec true ∈ t.outs ∧ t.flag (.trs .xPPS) = true ∧
        t.get (.trs .xPPS_SEC) = (sec + 1) % 2 ^ 64 ∧ Frame (blkKeys .trs) u t) ∧
    (u.flag (.trs .xPPS) = true → u.tbState = tbFREE ∨ elapsedNs (u.get (.trs .xPPS_RISE)) u.osc 1000000 = true →
      ∃ t, exec (.ppsOut now) s = .next t ∧ .pps (u.get (.trs .xPPS_SEC) - 1) false ∈ t.outs ∧
        t.flag (.trs .xPPS) = false ∧ Frame (fun k => k.fld == .trs .xPPS) u t) ∧
    (u.flag (.trs .xPPS) = false →
      u.tbState = tbFREE ∨ u.ppsSecond = none ∨ u.ppsSecond = some (u.get (.trs .xPPS_SEC) - 1) ∧ u.get (.trs .xPPS_SEC) ≠ 0 →
      ∃ t, exec (.ppsOut now) s = .next t ∧ Still u t) ∧
    (u.tbState = tbHOLDOVER → u.expired (.trs .xHOLD_DUE) = true →
      ∃ t, exec (.holdoverTimeout now) s = .next t ∧ t.tbState = tbUNLOCKED ∧ t.flag (.flt .STATUS_UNLOCKED) = true ∧
        Frame (fun k => blkKeys .trs k || fltKeys k) u t) ∧
    (u.tbState ≠ tbHOLDOVER ∨ u.expired (.trs .xHOLD_DUE) = false →
      ∃ t, exec (.holdoverTimeout now) s = .next t ∧ Still u t) ∧
    (u.tbState = tbFREE → u.flag (.trs .xFREE_T0) = false →
      elapsedNs (u.get (.trs .xFIRST_AT)) u.osc u.firstLockNs = true →
      ∃ t, exec (.firstLockTimeout now) s = .next t ∧ t.flag (.trs .STATUS_FIRSTLOCK_EXPIRED) = true ∧
        t.tbState = (if u.flag (.trs .CTRL_FREE_START) then tbUNLOCKED else tbFREE) ∧
        t.tb = (if u.flag (.trs .CTRL_FREE_START) then u.nsUp * 65536 else u.tb) ∧
        t.flag (.evc .SRC_CFG_PENDING) 882 = true ∧
        SameRegs (fun k => blkKeys .trs k || fltKeys k) u t ∧ SameBytes u t ∧ SameTraffic u t) ∧
    (u.tbState ≠ tbFREE ∨ u.flag (.trs .xFREE_T0) = true ∨
        elapsedNs (u.get (.trs .xFIRST_AT)) u.osc u.firstLockNs = false →
      ∃ t, exec (.firstLockTimeout now) s = .next t ∧ Still u t)) ∧
  ∀ (b : Bool) (s : State), s.live = true →
    ∃ t, exec (.ref10InChange b) s = .next t ∧ t.flag (.trs .STATUS_REF10_OK) = b ∧
      Frame (fun k => k.fld == .trs .STATUS_REF10_OK) s t

/-- A handover slot has fired (R61, R64): ARM is clear, FIRED is set, the count is one more, and its source is pending. -/
def Sys2Proof.Fired (n : HoSlot) (s t : State) : Prop :=
  t.flag (.trs .HO_CTRL_ARM) n = false ∧ t.flag (.trs .HO_CTRL_FIRED) n = true ∧
  t.get (.trs .HO_CTRL_FIRE_COUNT) n = (s.get (.trs .HO_CTRL_FIRE_COUNT) n + 1) % 65536 ∧
  t.flag (.evc .SRC_CFG_PENDING) (864 + n) = true

/-- The registers of one handover slot. -/
def Sys2Proof.slotKeys (n : HoSlot) (k : Key) : Bool := k.fld.home == .trs && k.i == n.val

/-- Handover slots (R59, R61, R63 to R65): a free slot whose target lies at least 1 us ahead arms, one whose target lies
nearer or in the past, or whose domain has no position, sets LATE instead; an armed slot disarms, and keeps its domain; where
its position is reached, the handover wins. A slot whose position is reached has fired before any time-driven command acts:
ARM clears, FIRED sets, its count and its source follow, and every channel attached to it has its shadow bank active; no armed
slot is then reached, and where none was, the clock alone has moved. Slot 15 ignores writes while an activation holds it; that
those of the Ostlers are ignored too is the model's reading (log entry 32). REALIGN (R49): while LOCKED or LOCKING, with no
channel running and no paced flow, the time base takes the master's time in one step, and TRS_OFFSET then reads 0, which is
the model's choice (log entry 33); otherwise REALIGN is refused with REALIGN_BUSY, and the time base stays as it was. -/
def Obligations.HandoverSlots : Prop :=
  (∀ (p : Party) (n : HoSlot) (v : Word) (s : State), s.live = true → s.gateOf p .trs none = .pass →
    (n.val = 15 → s.slot15Held = true →
      (∃ t, exec (.arm p n v) s = .next t ∧ Still s t) ∧ ∃ t, exec (.disarm p n v) s = .next t ∧ Still s t) ∧
    (n.val < 15 ∨ s.slot15Held = false →
      (s.flag (.trs .HO_CTRL_ARM) n = false → bitOf v.toNat 9 = false →
        (∀ k, s.rasterRuns (v.toNat % 8) = true → s.hoTarget n (v.toNat % 8) = some k → s.armLead (v.toNat % 8) k = true →
          ∃ t, exec (.arm p n v) s = .next t ∧ t.flag (.trs .HO_CTRL_ARM) n = true ∧ t.get (.trs .xHO_AT) n = k ∧
            t.get (.trs .HO_CTRL_DOMAIN) n = v.toNat % 8 ∧ Frame (slotKeys n) s t) ∧
        (s.rasterRuns (v.toNat % 8) = false ∨ (s.hoTarget n (v.toNat % 8)).all (fun k => !s.armLead (v.toNat % 8) k) = true →
          ∃ t, exec (.arm p n v) s = .next t ∧ t.flag (.trs .HO_CTRL_ARM) n = false ∧ t.flag (.trs .HO_CTRL_LATE) n = true ∧
            t.get (.trs .HO_CTRL_DOMAIN) n = v.toNat % 8 ∧ Frame (slotKeys n) s t)) ∧
      (s.flag (.trs .HO_CTRL_ARM) n = false →
        ∃ t, exec (.disarm p n v) s = .next t ∧ t.flag (.trs .HO_CTRL_ARM) n = false ∧
          t.get (.trs .HO_CTRL_DOMAIN) n = v.toNat % 8 ∧ Frame (slotKeys n) s t) ∧
      (s.flag (.trs .HO_CTRL_ARM) n = true → s.slotReached n = false →
        (∃ t, exec (.disarm p n v) s = .next t ∧ t.flag (.trs .HO_CTRL_ARM) n = false ∧
          t.get (.trs .HO_CTRL_DOMAIN) n = s.get (.trs .HO_CTRL_DOMAIN) n ∧ Frame (slotKeys n) s t) ∧
        (bitOf v.toNat 9 = false →
          ∃ t, exec (.arm p n v) s = .next t ∧ t.flag (.trs .HO_CTRL_ARM) n = true ∧
            t.get (.trs .HO_CTRL_DOMAIN) n = s.get (.trs .HO_CTRL_DOMAIN) n ∧ Frame (slotKeys n) s t)) ∧
      (s.flag (.trs .HO_CTRL_ARM) n = true → s.slotReached n = true →
        (∃ t, exec (.disarm p n v) s = .next t ∧ Fired n s t ∧ SameBytes s t) ∧
        ∃ t, exec (.arm p n v) s = .next t ∧ Fired n s t ∧ SameBytes s t))) ∧
  (∀ (n : HoSlot) (now : Now) (s w : State), s.live = true → w = s.quiet.clock now →
    (w.flag (.trs .HO_CTRL_ARM) n = true → w.slotReached n = true →
      ∃ t, exec (.handoverFire n now) s = .next t ∧ Fired n w t ∧ SameBytes s t ∧ t.tb = w.tb ∧
        ∀ ch : Chan, n.val < 15 → slotOf (w.get (.cch .CTRL_HO_SLOT) ch) = n → w.dieUp (w.get (.cch .CTRL_HOME_DIE) ch) = true →
          ∀ f ∈ chanBankFields, t.get f ch 0 1 = Key.cut ⟨f, ch, 0, 1⟩ (w.get f ch 0 0)) ∧
    (w.flag (.trs .HO_CTRL_ARM) n = false ∨ w.slotReached n = false →
      ∃ t, exec (.handoverFire n now) s = .next t ∧ Still (s.atNow now) t ∧
        t.get (.trs .HO_CTRL_FIRE_COUNT) n = w.get (.trs .HO_CTRL_FIRE_COUNT) n) ∧
    ((s.atNow now).flag (.trs .HO_CTRL_ARM) n = true → (s.atNow now).slotReached n = false) ∧
    ((∀ m : HoSlot, w.flag (.trs .HO_CTRL_ARM) m = true → w.slotReached m = false) → s.atNow now = w)) ∧
  ∀ (p : Party) (v : Word) (s : State), s.live = true → s.gateOf p .trs none = .pass →
    ((s.tbState = tbLOCKING ∨ s.tbState = tbLOCKED) →
      (∀ ch < 48, s.get (.cch .STATUS_STATE) ch ≠ chRUNNING ∧ s.get (.cch .STATUS_STATE) ch ≠ chLEAVING) →
      s.rasterPaced = false →
      ∃ t, exec (.realign p v) s = .next t ∧ t.get (.trs .OFFSET_OFFSET) = 0 ∧ t.tb = s.masterTb ∧
        SameRegs (fun k => blkKeys .trs k || evcKeys k || k.k == 1 || blkKeys .shp k || blkKeys .prs k) s t ∧ SameBytes s t) ∧
    (s.tbState ≠ tbLOCKING ∧ s.tbState ≠ tbLOCKED ∨
        (∃ ch < 48, s.get (.cch .STATUS_STATE) ch = chRUNNING ∨ s.get (.cch .STATUS_STATE) ch = chLEAVING) ∨
        s.rasterPaced = true →
      ∃ t, exec (.realign p v) s = .next t ∧ t.flag (.trs .STATUS_REALIGN_BUSY) = true ∧ t.tb = s.tb ∧
        Frame (blkKeys .trs) s t)

-- Start-up

/-- Start-up has run: step 6 is reached, or recovery mode entered. -/
def Sys2Proof.Booted (t : State) : Prop := t.get (.mid .BOOT_STEP) = 6 ∨ t.flag (.mid .BOOT_RECOVERY) = true

/-- Start-up runs from power good, from RESET_N, and from the end of a hold for a cold case (R415, R416, R418, R419, R444,
R480, R495): with a flash that answers and a case that is warm enough, it ends in step 6 or in recovery mode, with host memory
as it was; a case more than 5 degrees below the grade's minimum holds it at step 0 with CASE_LO; and a flash that does not
answer is the Grave occurrence 0x87. Power good needs the rails, RESET_N ends a reset that holds, and a hold ends only while
one holds and the case has warmed; otherwise nothing changes. -/
def Obligations.StartUpRuns : Prop :=
  ((∀ (b : BootInputs) (s : State), s.flag (.pwr .xRAILS_OFF) = false → caseMin - 20 ≤ b.caseQ → b.flashOk = true →
    ∃ t, exec (.powerGood b) s = .next t ∧ Booted t ∧ t.live = true ∧ t.host = s.host) ∧
  (∀ (b : BootInputs) (s : State), s.flag (.pwr .xDOWN) = true → s.flag (.pwr .xRAILS_OFF) = false →
    caseMin - 20 ≤ b.caseQ → b.flashOk = true →
    ∃ t, exec (.resetNDeassert b) s = .next t ∧ Booted t ∧ t.live = true ∧ t.host = s.host) ∧
  (∀ (c : Int) (s : State), s.live = true → s.flag (.pwr .xCASE_HOLD) = true → caseMin - 20 ≤ c →
    ∃ t, exec (.caseLoHoldEnd c true) s = .next t ∧ Booted t ∧ t.host = s.host)) ∧
  (∀ (b : BootInputs) (s : State), s.flag (.pwr .xRAILS_OFF) = false → b.caseQ < caseMin - 20 →
    ∃ t, exec (.powerGood b) s = .next t ∧ t.live = true ∧ t.safe = false ∧ t.flag (.pwr .STATUS_CASE_LO) = true ∧
      t.get (.mid .BOOT_STEP) = 0 ∧ t.flag (.mid .BOOT_RECOVERY) = false ∧ t.flash = s.flash ∧ t.host = s.host) ∧
  (∀ (b : BootInputs) (s : State), s.flag (.pwr .xRAILS_OFF) = false → caseMin - 20 ≤ b.caseQ → b.flashOk = false →
    Grave 0x87 (.powerGood b) s) ∧
  (∀ (c : Int) (s : State), s.live = true → s.safe = false → s.flag (.pwr .xCASE_HOLD) = true → caseMin - 20 ≤ c →
    Grave 0x87 (.caseLoHoldEnd c false) s) ∧
  (∀ (b : BootInputs) (s : State), s.flag (.pwr .xRAILS_OFF) = true → ∃ t, exec (.powerGood b) s = .next t ∧ Still s t) ∧
  (∀ (b : BootInputs) (s : State), s.flag (.pwr .xDOWN) = false ∨ s.flag (.pwr .xRAILS_OFF) = true →
    ∃ t, exec (.resetNDeassert b) s = .next t ∧ Still s t) ∧
  ∀ (c : Int) (ok : Bool) (s : State), s.live = true → s.flag (.pwr .xCASE_HOLD) = false ∨ c < caseMin - 20 →
    ∃ t, exec (.caseLoHoldEnd c ok) s = .next t ∧ Still s t

/-- The machine right after reset: every register field has the value that the register map gives it, of which some are named
(R47, R207, R363, R396, R411, R451, R465, R471, R483), and nothing waits, is claimed or is held. What the rules imply and no
register shows is at rest, which is the model's choice (log entry 3). -/
def Obligations.ResetValues : Prop :=
  (∀ k : Key, State.reset.store.get k = k.reset) ∧
  State.reset.tbState = tbFREE ∧ State.reset.safe = false ∧ State.reset.get (.flt .STATUS_GRAVE_CODE) = 0 ∧
  State.reset.get (.cch .STATUS_STATE) 47 = chSTOPPED ∧ State.reset.get (.fwu .STATUS_STATE) = 0 ∧
  State.reset.get (.hpt .STR_STATUS_OWNER) 63 = 7 ∧ State.reset.get (.mid .BOOT_STEP) = 0 ∧
  State.reset.get (.hpt .PORT_STATUS_HIR_OK) 1 = 0 ∧ State.reset.get (.pwr .STATUS_SEASON) = 0 ∧
  State.reset.fifo = [] ∧ State.reset.claims = [] ∧ State.reset.bufs = [] ∧ State.reset.pending = []

-- Faults

/-- The memory of a group serves: its die is up, and the safe state does not hold. -/
def Sys2Proof.GroupServes (g : Group) (s : State) : Prop := s.live = true ∧ s.safe = false ∧ s.dieUp (g / 4) = true

/-- An occurrence that takes an engine of a cluster out of service beside being recorded (R35). -/
def Sys2Proof.Occ.takesEngine (o : Occ) : Bool := o.code == 0x43 && decide (o.loc < 32 ∧ 0 < o.detail ∧ o.detail < 4)

/-- The collector's self-test, the heartbeat and the sensors (R67, R467, R492 to R494, R497, R505): the self-test takes the
FAULT lands to RUN, but in the safe state, where they stay; a heartbeat timeout that has not run out changes nothing. A
thermal sample shows the temperature of each sensor and marks it valid; a junction sensor warns from TJ_WARN on, with 3
degrees of hysteresis, and the case sensor beyond the grade's limits, with 2 degrees; the summary bits and the level source
THERMAL follow; and with no sensor at its trip nothing else moves. -/
def Sys2Proof.SensorsShown : Prop :=
  (∀ s : State, s.live = true →
    (s.safe = false →
      ∃ t, exec .collectorSelfTest s = .next t ∧ t.outs = [.faultLands true false] ∧ t.flag (.flt .STATUS_LAND_P) = true ∧
        t.flag (.flt .STATUS_LAND_N) = false ∧ t.landsRun = true ∧
        Frame (fun k => k.fld == .flt .xRUN || k.fld == .flt .STATUS_LAND_P || k.fld == .flt .STATUS_LAND_N) s t) ∧
    (s.safe = true →
      ∃ t, exec .collectorSelfTest s = .next t ∧ t.outs = [] ∧ t.landsRun = false ∧ Frame (fun k => k.fld == .flt .xRUN) s t)) ∧
  (∀ (since : Nat) (now : Now) (s u : State), s.live = true → u = s.atNow now →
    u.waitedOut (.pwr .HB_TO_MS) 0 since 1 100 msNs = false →
    ∃ t, exec (.pwrHeartbeatTimeout ⟨since, now⟩) s = .next t ∧ Still u t) ∧
  ∀ (temps : List Int) (now : Now) (s u : State), s.live = true → u = s.atNow now →
    ∃ t, exec (.thermalSample temps now) s = .next t ∧
      (∀ n, n < temps.length → n < 12 →
        t.get (.pwr .TEMP_TEMP) n = toSigned (Fld.pwr .TEMP_TEMP).width (temps.getD n 0) ∧ t.flag (.pwr .TEMP_VALID) n = true) ∧
      (∀ n, n < temps.length → n < 11 → t.flag (.pwr .TEMP_WARN) n = (decide (u.tjWarn ≤ temps.getD n 0) ||
        (u.flag (.pwr .TEMP_WARN) n && decide (u.tjWarn - 12 < temps.getD n 0)))) ∧
      (11 < temps.length →
        t.flag (.pwr .STATUS_CASE_HI) = (decide (caseMax < temps.getD 11 0) ||
          (u.flag (.pwr .STATUS_CASE_HI) && decide (caseMax - 8 < temps.getD 11 0))) ∧
        t.flag (.pwr .STATUS_CASE_LO) = (decide (temps.getD 11 0 < caseMin) ||
          (u.flag (.pwr .STATUS_CASE_LO) && decide (temps.getD 11 0 < caseMin + 8))) ∧
        t.flag (.pwr .TEMP_WARN) 11 = (t.flag (.pwr .STATUS_CASE_HI) || t.flag (.pwr .STATUS_CASE_LO))) ∧
      t.flag (.pwr .STATUS_TJ_WARN) = (List.range 11).any (fun n => t.flag (.pwr .TEMP_WARN) n) ∧
      t.flag (.evc .SRC_CFG_ASSERTED) 901 =
        (t.flag (.pwr .STATUS_TJ_WARN) || t.flag (.pwr .STATUS_CASE_HI) || t.flag (.pwr .STATUS_CASE_LO)) ∧
      SameBytes u t ∧ t.chains = u.chains ∧
      ((∀ n < 11, n < temps.length → temps.getD n 0 < 500) → (∀ n < 11, temps.length ≤ n → u.get (.pwr .xTRIP) n ≠ 3) →
        (∀ g < 8, u.groupHot g = false) → Frame (fun k => blkKeys .pwr k || evcKeys k) u t)

/-- Faults that are recorded, the self-test and the sensors (R456, R461 to R463, R467, R474, R477, R478, R492 to R494, R497):
of the classes 0 to 2, an occurrence that a block reports, that a broken pair carries, or that is injected is counted and
asserts the source of its class; among the 8 newest records one of class 0 or 1 merges into the newest with its CODE, LOC and
die, and otherwise a new record is written at HEAD; nothing moves but the collector and the events. A machine check (0x47),
and an engine that leaves service (0x43), act on their unit beside being recorded, and stand in the statements of those units.
A break shorter than two clocks, and one that carries a reserved code, change nothing; an injection of a reserved code writes
only its fields. A heartbeat timeout that has not run out changes nothing. The self-test of the collector takes the FAULT
lands to RUN, but in the safe state, where they stay. A thermal sample shows the temperature of each sensor and marks it
valid; a junction sensor warns from TJ_WARN on, with 3 degrees of hysteresis, and the case sensor beyond the grade's limits,
with 2 degrees; the summary bits and the level source THERMAL follow; and with no sensor at its trip nothing else moves. -/
def Obligations.FaultRecorded : Prop :=
  SensorsShown ∧
  (∀ (o : Occ) (c : Nat) (now : Now) (s u : State), s.live = true → u = s.atNow now → faultClass o.code = some c → c < 3 →
    o.code ≠ 0x47 → o.takesEngine = false →
    ∃ t, exec (.faultOccurrence [o] now) s = .next t ∧ Recorded o c false false u t ∧ t.claims = u.claims ∧
      Frame fltKeys u t) ∧
  (∀ (p : Party) (v : Word) (s : State), s.live = true → s.gateOf p .flt none = .pass →
    (∀ c, faultClass (v.toNat % 256) = some c → c < 3 →
      ∃ t, exec (.faultInject p v) s = .next t ∧
        Recorded ⟨v.toNat % 256, bitsOf v.toNat 9 1, 0, 0⟩ c (bitOf v.toNat 8) true s t ∧
        t.get (.flt .CNT) 5 = (s.get (.flt .CNT) 5 + bitsOf v.toNat 8 1) % 2 ^ 64 ∧ t.claims = s.claims ∧
        Frame fltKeys s t) ∧
    (faultClass (v.toNat % 256) = none →
      ∃ t, exec (.faultInject p v) s = .next t ∧ t.get (.flt .INJECT_CODE) = v.toNat % 256 ∧
        Frame (fun k => k.fld == .flt .INJECT_CODE || k.fld == .flt .INJECT_WIRE || k.fld == .flt .INJECT_DIE) s t)) ∧
  (∀ (o : Occ) (c clocks : Nat) (s : State), s.live = true → faultClass o.code = some c → c < 3 → 2 ≤ clocks →
    ∃ t, exec (.wireBreak o clocks) s = .next t ∧ Recorded o c true false s t ∧
      t.get (.flt .CNT) 5 = (s.get (.flt .CNT) 5 + 1) % 2 ^ 64 ∧ t.claims = s.claims ∧ Frame fltKeys s t) ∧
  ∀ (o : Occ) (clocks : Nat) (s : State), s.live = true → clocks < 2 ∨ faultClass o.code = none →
    ∃ t, exec (.wireBreak o clocks) s = .next t ∧ Still s t

/-- A die has gone down (R470, R471): it is neither up nor running, and the other die stays as it was; no byte of the flash or
of host memory changes. -/
def Sys2Proof.Downed (d : Nat) (s t : State) : Prop :=
  t.dieUp d = false ∧ t.dieOff d = true ∧ t.dieUp (1 - d) = s.dieUp (1 - d) ∧ t.safe = s.safe ∧ t.flash = s.flash ∧ t.host = s.host

/-- Dies go down and come up (R67, R311, R314, R323, R415, R426, R456, R461, R470, R471, R474, R478): SW_RESTART takes a die
that is up down, once, with its restart count, and one that has restarted too often is held instead; a stalled pipeline stage
is the Uncontained occurrence 0x60, and a crossbar port that gets no grant 0x61; these, and any other occurrence of class 3
that a block reports, a broken pair carries or an injection raises, take its die down; the other die stays as it was, and the
safe state does not begin. A timeout that has not come, and SW_RESTART of a die that is not up, change nothing. A die that
comes back loads its image and is up, and with no image to load it is held. At start-up the end of its DRAM training takes a
die up where no group of it is LOST; a group that is LOST is the Uncontained occurrence 0x64, and the die does not come up. -/
def Obligations.DieRestarts : Prop :=
  (∀ (p : Party) (d : Die) (s : State), s.live = true → s.safe = false → s.gateOf p .flt none = .pass →
    (s.dieUp d = true →
      (s.wouldHold d = false → ∃ t, exec (.swRestart p d) s = .next t ∧ Downed d s t ∧ t.dieHeld d = false ∧
        t.get (.flt .CNT) (6 + d) = (s.get (.flt .CNT) (6 + d) + 1) % 2 ^ 64 ∧
        t.restarts = s.restarts ++ [(d.val, s.osc)] ∧ t.dram = s.dram) ∧
      (s.wouldHold d = true → s.dieHeld d = false → ∃ t, exec (.swRestart p d) s = .next t ∧ Downed d s t ∧
        t.dieHeld d = true ∧ t.get (.flt .CNT) (6 + d) = s.get (.flt .CNT) (6 + d) ∧ t.restarts = s.restarts)) ∧
    (s.dieUp d = false → ∃ t, exec (.swRestart p d) s = .next t ∧ Still s t)) ∧
  (∀ (d : Die) (now : Now) (s u : State), s.live = true → u = s.atNow now → s.safe = false → u.dieHeld d = false →
    (∀ (stage since : Nat),
      (u.dieUp d = true → u.waitedOut (.prs .STALL_TO_STALL) d since 100 5000 1 = true →
        ∃ t, exec (.pipeStallTimeout d stage ⟨since, now⟩) s = .next t ∧ Downed d u t) ∧
      (u.dieUp d = false ∨ u.waitedOut (.prs .STALL_TO_STALL) d since 100 5000 1 = false →
        ∃ t, exec (.pipeStallTimeout d stage ⟨since, now⟩) s = .next t ∧ Still u t)) ∧
    (∀ (g : Group) (c : Fin 4) (since : Nat), g / 4 = d.val →
      (u.dieUp d = true → u.waitedOut (.dmc .XBAR_TO_TO) d since 200 20000 1 = true →
        ∃ t, exec (.xbarGrantTimeout g c ⟨since, now⟩) s = .next t ∧ Downed d u t) ∧
      (u.dieUp d = false ∨ u.waitedOut (.dmc .XBAR_TO_TO) d since 200 20000 1 = false →
        ∃ t, exec (.xbarGrantTimeout g c ⟨since, now⟩) s = .next t ∧ Still u t)) ∧
    ∀ o : Occ, faultClass o.code = some 3 → faultDie o = some d.val →
      ∃ t, exec (.faultOccurrence [o] now) s = .next t ∧ Downed d u t) ∧
  (∀ (d : Die) (s : State), s.live = true → s.safe = false → s.dieHeld d = false →
    (∀ (o : Occ) (clocks : Nat), faultClass o.code = some 3 → faultDie o = some d.val → 2 ≤ clocks →
      ∃ t, exec (.wireBreak o clocks) s = .next t ∧ Downed d s t) ∧
    ∀ (p : Party) (v : Word), s.gateOf p .flt none = .pass → faultClass (v.toNat % 256) = some 3 →
      bitsOf v.toNat 9 1 = d.val → ∃ t, exec (.faultInject p v) s = .next t ∧ Downed d s t) ∧
  (∀ (d : Die) (failed : List (Fin 4 × Device)) (now : Now) (s u : State), s.live = true → u = s.atNow now → s.safe = false →
    (u.dieOff d = true → u.dieHeld d = false → u.inWinter = false →
      ((u.restartImage d).isSome = true →
        ∃ t, exec (.dieUp d failed now) s = .next t ∧ t.dieUp d = true ∧ t.dieOff d = false ∧
          some t.image = u.restartImage d ∧ t.host = u.host) ∧
      (u.restartImage d = none →
        ∃ t, exec (.dieUp d failed now) s = .next t ∧ t.dieHeld d = true ∧ t.dieUp d = u.dieUp d ∧
          t.get (.flt .CNT) 3 = (u.get (.flt .CNT) 3 + 1) % 2 ^ 64 ∧ Frame (fun k => fltKeys k || blkKeys .pdk k) u t))) ∧
  ∀ (d : Die) (failed : List (Fin 4 × Device)) (now : Now) (s u : State), s.live = true → u = s.atNow now → s.safe = false →
    u.get (.mid .BOOT_STEP) = 6 → u.dieUp d = false → u.dieOff d = false → u.dieHeld d = false →
    ((trainGroups d (failPairs failed) u.mapErased u).lostGroups d = [] →
      ∃ t, exec (.dramTrained d failed now) s = .next t ∧ t.dieUp d = true ∧ t.dieOff d = false) ∧
    ((trainGroups d (failPairs failed) u.mapErased u).lostGroups d ≠ [] →
      ∃ t, exec (.dramTrained d failed now) s = .next t ∧ Downed d u t)

-- The event controller

/-- What an event that is raised, merged or cleared may move: what is pending, asserted and signalled, the counts and the marks of
the FIFOs, and the pending bit of a port's message; no configuration of a source or a target. -/
def Sys2Proof.evMoves (k : Key) : Bool :=
  match k.fld with
  | .evc .SRC_CFG_PENDING | .evc .SRC_CFG_ASSERTED | .evc .TGT_STATUS_SIGNAL | .evc .CNT => true
  | .evc .FIFO_STAT_LOST_PEND | .evc .FIFO_STAT_THR_HIT | .hpt .PBA_WORD => true
  | _ => false

/-- What is added to the event FIFO of a target with room for it: the entry, behind all others. -/
def Sys2Proof.FifoTakes (g data : Nat) (poison : Bool) (s t : State) : Prop :=
  (s.fifo ++ [⟨g, data, poison, s.flag (.evc .FIFO_STAT_LOST_PEND) g⟩]) <+: t.fifo

/-- A full event FIFO drops an entry: it is as it was, LOST_PEND is set, and OVERFLOW counts. -/
def Sys2Proof.FifoDrops (g : Nat) (s t : State) : Prop :=
  t.fifo = s.fifo ∧ t.flag (.evc .FIFO_STAT_LOST_PEND) g = true ∧
  t.get (.evc .CNT) g 5 = (s.get (.evc .CNT) g 5 + 1) % 2 ^ 64

/-- The entry of an assertion of a source, where the source writes one. -/
def Sys2Proof.EntryOf (n det : Nat) (s t : State) : Prop :=
  (s.flag (.evc .SRC_CFG_FIFO_EN) n = false → t.fifo = s.fifo) ∧
  (s.flag (.evc .SRC_CFG_FIFO_EN) n = true →
    (s.fifoLevel (s.srcTarget n) < 512 → FifoTakes (s.srcTarget n) (n * 2 ^ 14 + det % 2 ^ 14) false s t) ∧
    (512 ≤ s.fifoLevel (s.srcTarget n) → FifoDrops (s.srcTarget n) s t))

/-- What an assertion of a source does (R360, R361, R372, R374): a pulse source that is not reserved is PENDING after it, and
merges, with a count, where it was; a level source shows its level in ASSERTED, and while asserted it is PENDING or active; with
FIFO_EN set, a pulse and the rise of a level write their entry behind all others into the FIFO of the source's target, or find it
full; a reserved source never asserts. Claims stay, and so does all configuration. -/
def Obligations.EventAssert : Prop :=
  (∀ (n : Source) (det : Nat) (l : Bool) (s : State), s.live = true → isLevelSrc n = false → isReservedSrc n = false →
    ∃ t, exec (.eventAssert n det l) s = .next t ∧ t.flag (.evc .SRC_CFG_PENDING) n = true ∧ EntryOf n det s t ∧
      (s.flag (.evc .SRC_CFG_PENDING) n = true → s.flag (.evc .SRC_CFG_FIFO_EN) n = false →
        t.get (.evc .CNT) (s.srcTarget n) 7 = (s.get (.evc .CNT) (s.srcTarget n) 7 + 1) % 2 ^ 64) ∧
      t.claims = s.claims ∧ Frame evMoves s t) ∧
  (∀ (n : Source) (det : Nat) (l : Bool) (s : State), s.live = true → isLevelSrc n = true →
    ∃ t, exec (.eventAssert n det l) s = .next t ∧ t.flag (.evc .SRC_CFG_ASSERTED) n = l ∧
      (l = true → t.flag (.evc .SRC_CFG_PENDING) n = true ∨ t.srcActive n = true) ∧
      (l = false → t.get (.evc .SRC_CFG_PENDING) n = s.get (.evc .SRC_CFG_PENDING) n) ∧
      (l = true → s.flag (.evc .SRC_CFG_ASSERTED) n = false → EntryOf n det s t) ∧
      (l = false ∨ s.flag (.evc .SRC_CFG_ASSERTED) n = true → t.fifo = s.fifo) ∧
      t.claims = s.claims ∧ Frame evMoves s t) ∧
  (∀ (n : Source) (det : Nat) (l : Bool) (s : State), s.live = true → isReservedSrc n = true →
    ∃ t, exec (.eventAssert n det l) s = .next t ∧ Still s t)

/-- A claim read by the party that is the target (R364): with EN 0 no source is claimed; otherwise the source that it picks is
deliverable, and comes before every other that is deliverable there. The read returns SEQ, the target's claim count, which goes
up modulo 16, and the source, whose PENDING clears and which becomes active. With no deliverable source it returns NOT_VALID and
changes nothing but SPURIOUS; a read by any other party returns NOT_VALID and changes nothing. -/
def Obligations.ClaimsBestSource : Prop :=
  (∀ (g : Nat) (s : State), s.flag (.evc .TGT_CTRL_EN) g = false → s.bestSrc g = none) ∧
  (∀ (g : Nat) (s : State), s.flag (.evc .TGT_CTRL_EN) g = true → s.bestSrc g = none →
    ∀ m ∈ s.pendingSrcs, s.deliverable g m = false) ∧
  (∀ (g n m : Nat) (s : State), s.bestSrc g = some n → m ∈ s.pendingSrcs → s.deliverable g m = true → m ≠ n →
    s.deliverable g n = true ∧ s.claimsBefore g n m = true ∧ s.claimsBefore g m n = false) ∧
  (∀ (p : Party) (g : Target) (s : State), s.live = true → s.takes p g = false →
    ∃ t, exec (.evcClaim p g) s = .next t ∧ t.outs = [.read p.num (evcAddr g 4) (2 ^ 31)] ∧ Still s t) ∧
  ∀ (p : Party) (g : Target) (s : State), s.live = true → s.takes p g = true →
    ∃ t, exec (.evcClaim p g) s = .next t ∧
      match s.bestSrc g with
      | none => t.outs = [.read p.num (evcAddr g 4) (2 ^ 31)] ∧ t.claims = s.claims ∧ t.fifo = s.fifo ∧
          t.get (.evc .CNT) g 1 = (s.get (.evc .CNT) g 1 + 1) % 2 ^ 64 ∧
          Frame (fun k => k == ⟨.evc .CNT, g, 1, 0⟩) s t
      | some n => Out.read p.num (evcAddr g 4) (s.get (.evc .xCLAIM_CNT) g * 2 ^ 16 + n) ∈ t.outs ∧
          t.get (.evc .xCLAIM_CNT) g = (s.get (.evc .xCLAIM_CNT) g + 1) % 16 ∧
          t.get (.evc .CNT) g 0 = (s.get (.evc .CNT) g 0 + 1) % 2 ^ 64 ∧
          t.get (.evc .SRC_CFG_PENDING) n = 0 ∧ t.claims.dropLast = s.claims ∧
          t.claims.getLast?.map (fun c => (c.src, c.tgt, c.seq)) = some (n, g.val, s.get (.evc .xCLAIM_CNT) g) ∧
          t.srcActive n = true ∧ t.fifo = s.fifo ∧
          Frame (fun k => evMoves k || k == ⟨.evc .xCLAIM_CNT, g, 0, 0⟩) s t

/-- A completion by the target (R365): a write of the SOURCE and SEQ of a claim of the target ends that claim, in any order of the
claims, and leaves the others, from which alone the running level follows; a level source that is still asserted is PENDING again.
Any other write of the target changes nothing but COMP_ERR and its count, and a write by another party changes nothing. A claim
that outlives its timeout is ended and counted, and one that does not stays, as in Winter (R370). -/
def Obligations.ClaimEnds : Prop :=
  (∀ (p : Party) (g : Target) (v : Word) (s : State), s.live = true → s.gateOf p .evc none = .pass →
    (p.num = g →
      ∃ t, exec (.evcComplete p g v) s = .next t ∧ t.fifo = s.fifo ∧
        t.claims = s.claims.filter (fun c => !(c.src == v.toNat % 1024 && c.tgt == g.val && c.seq == bitsOf v.toNat 16 4)) ∧
        (s.claims.any (fun c => c.src == v.toNat % 1024 && c.tgt == g.val && c.seq == bitsOf v.toNat 16 4) = true →
          (s.flag (.evc .SRC_CFG_ASSERTED) (v.toNat % 1024) = true → t.srcActive (v.toNat % 1024) = false →
            t.flag (.evc .SRC_CFG_PENDING) (v.toNat % 1024) = true) ∧ Frame evMoves s t) ∧
        (s.claims.any (fun c => c.src == v.toNat % 1024 && c.tgt == g.val && c.seq == bitsOf v.toNat 16 4) = false →
          t.flag (.evc .TGT_STATUS_COMP_ERR) g = true ∧
          t.get (.evc .CNT) g 4 = (s.get (.evc .CNT) g 4 + 1) % 2 ^ 64 ∧
          Frame (fun k => k == ⟨.evc .TGT_STATUS_COMP_ERR, g, 0, 0⟩ || k == ⟨.evc .CNT, g, 4, 0⟩) s t)) ∧
    (p.num ≠ g → ∃ t, exec (.evcComplete p g v) s = .next t ∧ Still s t)) ∧
  (∀ (g : Nat) (s t : State), t.claims = s.claims → t.get (.evc .TGT_CTRL_BINPOINT) g = s.get (.evc .TGT_CTRL_BINPOINT) g →
    (∀ n, t.get (.evc .SRC_CFG_PRIO) n = s.get (.evc .SRC_CFG_PRIO) n) → t.runLevel g = s.runLevel g) ∧
  ∀ (n : Source) (now : Now) (s u : State), s.live = true → u = s.atNow now →
    (∀ c : Claim, u.inWinter = false → u.claims.find? (fun c => c.src == n.val && decide (c.due ≤ u.osc)) = some c →
      ∃ t, exec (.claimTimeout n now) s = .next t ∧ t.claims = u.claims.filter (fun x => x.src != n.val) ∧
        t.get (.evc .CNT) c.tgt 3 = (u.get (.evc .CNT) c.tgt 3 + 1) % 2 ^ 64 ∧ Frame fltKeys u t) ∧
    (u.inWinter = true ∨ u.claims.find? (fun c => c.src == n.val && decide (c.due ≤ u.osc)) = none →
      ∃ t, exec (.claimTimeout n now) s = .next t ∧ Still u t)

/-- The event FIFOs keep their order (R371, R372, R374, R375, R377): a push into a FIFO with room adds its entry behind all others,
and one into a full FIFO is dropped, marked and counted; a pop by the target's party takes the oldest entry of its target, with its
POISON and LOST, and counts a bad one, and reads NOT_VALID where there is none; a pop by any other party reads NOT_VALID and takes
nothing. -/
def Obligations.EventFifos : Prop :=
  (∀ (p : Party) (g : Target) (v : Word) (s : State), s.live = true → s.gateOf p .evc none = .pass →
    ∃ t, exec (.evcFifoPush p g v) s = .next t ∧ Frame evMoves s t ∧ t.claims = s.claims ∧
      (s.fifoLevel g < 512 → FifoTakes g (v.toNat % 2 ^ 24) false s t) ∧
      (512 ≤ s.fifoLevel g → FifoDrops g s t)) ∧
  (∀ (p : Party) (g : Target) (bad : Bool) (e : FifoEntry) (s : State), s.live = true → s.takes p g = true →
    s.fifo.find? (fun e => e.tgt == g.val) = some e →
    ∃ t, exec (.evcFifoPop p g bad) s = .next t ∧ t.fifo = s.fifo.eraseP (fun x => x.tgt == g.val) ∧ t.claims = s.claims ∧
      t.outs = [.read p.num (evcAddr g 0x10)
        (e.data + (if e.poison || bad then 2 ^ 24 else 0) + (if e.lost then 2 ^ 25 else 0))] ∧
      t.get (.evc .CNT) g 6 = (if e.poison || bad then (s.get (.evc .CNT) g 6 + 1) % 2 ^ 64 else s.get (.evc .CNT) g 6) ∧
      SameRegs (fun k => k == ⟨.evc .CNT, g, 6, 0⟩) s t ∧ SameBytes s t ∧ SameTraffic s t) ∧
  (∀ (p : Party) (g : Target) (bad : Bool) (s : State), s.live = true →
    s.takes p g = false ∨ s.fifo.find? (fun e => e.tgt == g.val) = none →
    ∃ t, exec (.evcFifoPop p g bad) s = .next t ∧ t.outs = [.read p.num (evcAddr g 0x10) (2 ^ 31)] ∧ Still s t)

/-- The register accesses that set up sources and targets (R368, R369, R371, R399): software sources set and clear, an active one
does not clear, and no other source answers; the configuration of a source that is not active, and of a target with no active
source, changes at once, that of an active one stays and a change sets CFG_BUSY instead; a target takes no write of another party;
and an unmasked vector sends the message that waits, unless the port's MSI-X is disabled. -/
def Obligations.EventSetup : Prop :=
  (∀ (p : Party) (v : Word) (s : State), s.live = true → s.gateOf p .evc none = .pass →
    (isSoftware (v.toNat % 1024) = true →
      (∃ t, exec (.evcSwSet p v) s = .next t ∧ t.flag (.evc .SRC_CFG_PENDING) (v.toNat % 1024) = true ∧
        EntryOf (v.toNat % 1024) 0 s t ∧ t.claims = s.claims ∧ Frame evMoves s t) ∧
      (s.srcActive (v.toNat % 1024) = false →
        ∃ t, exec (.evcSwClr p v) s = .next t ∧ t.flag (.evc .SRC_CFG_PENDING) (v.toNat % 1024) = false ∧
          t.fifo = s.fifo ∧ t.claims = s.claims ∧ Frame evMoves s t)) ∧
    (isSoftware (v.toNat % 1024) = false → ∃ t, exec (.evcSwSet p v) s = .next t ∧ Still s t) ∧
    (isSoftware (v.toNat % 1024) = false ∨ s.srcActive (v.toNat % 1024) = true →
      ∃ t, exec (.evcSwClr p v) s = .next t ∧ Still s t)) ∧
  (∀ (p : Party) (n : Source) (v : Word) (s : State), s.live = true → s.gateOf p .evc none = .pass →
    ∃ t, exec (.evcSrcCfgWrite p n v) s = .next t ∧ t.fifo = s.fifo ∧ t.claims = s.claims ∧
      t.get (.evc .SRC_CFG_EN) n = bitsOf v.toNat 0 1 ∧ t.get (.evc .SRC_CFG_FIFO_EN) n = bitsOf v.toNat 1 1 ∧
      (s.srcActive n = false → t.get (.evc .SRC_CFG_TARGET) n = bitsOf v.toNat 4 2 ∧
        t.get (.evc .SRC_CFG_PRIO) n = bitsOf v.toNat 8 8) ∧
      (s.srcActive n = true → t.get (.evc .SRC_CFG_TARGET) n = s.get (.evc .SRC_CFG_TARGET) n ∧
        t.get (.evc .SRC_CFG_PRIO) n = s.get (.evc .SRC_CFG_PRIO) n ∧
        (bitsOf v.toNat 4 2 ≠ s.get (.evc .SRC_CFG_TARGET) n ∨ bitsOf v.toNat 8 8 ≠ s.get (.evc .SRC_CFG_PRIO) n →
          t.flag (.evc .SRC_CFG_CFG_BUSY) n = true)) ∧
      Frame (fun k => k.fld == .evc .TGT_STATUS_SIGNAL || k.fld == .hpt .PBA_WORD || (k.i == n.val &&
        (k.fld == .evc .SRC_CFG_EN || k.fld == .evc .SRC_CFG_FIFO_EN || k.fld == .evc .SRC_CFG_TARGET ||
          k.fld == .evc .SRC_CFG_PRIO || k.fld == .evc .SRC_CFG_CFG_BUSY))) s t) ∧
  (∀ (p : Party) (g : Target) (v : Word) (s : State), s.live = true → s.gateOf p .evc none = .pass →
    (p.num = g →
      ∃ t, exec (.evcTgtCtrlWrite p g v) s = .next t ∧ t.fifo = s.fifo ∧ t.claims = s.claims ∧
        t.get (.evc .TGT_CTRL_EN) g = bitsOf v.toNat 0 1 ∧ t.get (.evc .TGT_CTRL_STREAM_EN) g = bitsOf v.toNat 1 1 ∧
        (s.activeOf g = [] → t.get (.evc .TGT_CTRL_BINPOINT) g = bitsOf v.toNat 4 3) ∧
        (s.activeOf g ≠ [] → t.get (.evc .TGT_CTRL_BINPOINT) g = s.get (.evc .TGT_CTRL_BINPOINT) g ∧
          (bitsOf v.toNat 4 3 ≠ s.get (.evc .TGT_CTRL_BINPOINT) g → t.flag (.evc .TGT_STATUS_CFG_BUSY) g = true)) ∧
        Frame (fun k => k.fld == .evc .TGT_STATUS_SIGNAL || k.fld == .hpt .PBA_WORD || (k.i == g.val &&
          (k.fld == .evc .TGT_CTRL_EN || k.fld == .evc .TGT_CTRL_STREAM_EN || k.fld == .evc .TGT_CTRL_BINPOINT ||
            k.fld == .evc .TGT_STATUS_CFG_BUSY))) s t) ∧
    (p.num ≠ g → ∃ t, exec (.evcTgtCtrlWrite p g v) s = .next t ∧ Still s t)) ∧
  (∀ (n : HostPort) (s : State), s.live = true →
    (s.flag (.hpt .xMSIX_EN) n = true →
      ∃ t, exec (.msixUnmask n) s = .next t ∧ t.msixMasked n = false ∧ t.flag (.hpt .PBA_WORD) n = false ∧
        t.outs = (if s.flag (.hpt .PBA_WORD) n then [.msix n] else []) ∧
        Frame (fun k => k == ⟨.hpt .MSIX_WORD, n, 3, 0⟩ || k == ⟨.hpt .PBA_WORD, n, 0, 0⟩) s t) ∧
    (s.flag (.hpt .xMSIX_EN) n = false →
      ∃ t, exec (.msixUnmask n) s = .next t ∧ t.get (.hpt .MSIX_WORD) n 3 % 2 = 0 ∧ t.outs = [] ∧
        Frame (fun k => k == ⟨.hpt .MSIX_WORD, n, 3, 0⟩) s t))

-- Check-value units

/-- The keys of one check-value unit. -/
def Sys2Proof.chkKeys (d c : Nat) (k : Key) : Bool := k.fld.home == .chk && k.i == d && k.j == c

/-- START and FINISH of a check-value unit written at once, or START alone: the initial value is loaded, CNT and the result clear,
and FINISH is pending where it was written and did not read 1 already. -/
def Sys2Proof.ChkStarted (d c : Nat) (fin : Bool) (s t : State) : Prop :=
  t.chkVal d c = chkInit (s.chkPoly d c) ∧ t.get (.chk .CNT_CNT) d c = 0 ∧ t.get (.chk .RES_RES) d c = 0 ∧
  t.flag (.chk .RSTAT_VALID) d c = false ∧ t.flag (.chk .CFG_POISON) d c = false ∧
  t.flag (.chk .CTRL_FINISH) d c = (fin && !s.flag (.chk .CTRL_FINISH) d c) ∧ Frame (chkKeys d c) s t

/-- The check-value units (R12, R346, R352 to R355, R360): feeding a unit that no descriptor holds runs the bytes through its
algorithm, CNT counts them, and the result is gone; an access to a held unit is ignored and sets LOST. START loads the initial value
and clears CNT and the result; FINISH is pending until its effect, 16 core clocks later, forms the result with its POISON, sets
VALID and counts, and one written while it is pending has no effect; a context write lands, with the bits above the width ignored,
and takes the result away. -/
def Obligations.ChkFeeds : Prop :=
  (∀ (p : Party) (d : Die) (c : ChkUnit) (v : Word) (s : State), s.live = true → s.gateOf p .chk (some d.val) = .pass →
    (s.flag (.chk .CTRL_HELD) d c = false →
      ∀ x ∈ [(Instr.chkData p d c v, leBytes 4 v.toNat), (.chkDataB p d c v, leBytes 1 v.toNat),
        (.chkFold p d c v, s.foldBytes d c v.toNat)],
      ∃ t, exec x.1 s = .next t ∧
        t.chkVal d c = chkRun (s.chkPoly d c) (s.chkVal d c) x.2 % 2 ^ chkWidth (s.chkPoly d c) ∧
        t.get (.chk .CNT_CNT) d c = (s.get (.chk .CNT_CNT) d c + x.2.length) % 2 ^ 32 ∧
        t.get (.chk .RES_RES) d c = 0 ∧ t.flag (.chk .RSTAT_VALID) d c = false ∧ Frame (chkKeys d c) s t) ∧
    (s.flag (.chk .CTRL_HELD) d c = true →
      ∀ i ∈ [Instr.chkData p d c v, .chkDataB p d c v, .chkFold p d c v, .chkStart p d c v, .chkFinish p d c v,
        .chkContextWrite p d c .cfg v, .chkContextWrite p d c .val v, .chkContextWrite p d c .cnt v],
      ∃ t, exec i s = .next t ∧ t.flag (.chk .CTRL_LOST) d c = true ∧
        Frame (fun k => k == ⟨.chk .CTRL_LOST, d, c, 0⟩) s t)) ∧
  (∀ (p : Party) (d : Die) (c : ChkUnit) (v : Word) (s : State), s.live = true →
    s.gateOf p .chk (some d.val) = .pass → s.flag (.chk .CTRL_HELD) d c = false →
      (∃ t, exec (.chkStart p d c v) s = .next t ∧ ChkStarted d c (bitOf v.toNat 1) s t) ∧
      (bitOf v.toNat 0 = true → ∃ t, exec (.chkFinish p d c v) s = .next t ∧ ChkStarted d c true s t) ∧
      (bitOf v.toNat 0 = false → s.flag (.chk .CTRL_FINISH) d c = false →
        ∃ t, exec (.chkFinish p d c v) s = .next t ∧ t.flag (.chk .CTRL_FINISH) d c = true ∧
          t.get (.chk .xFIN_AT) d c = s.osc % 2 ^ 64 ∧
          Frame (fun k => k == ⟨.chk .CTRL_FINISH, d, c, 0⟩ || k == ⟨.chk .xFIN_AT, d, c, 0⟩ ||
            k == ⟨.chk .CTRL_LOST, d, c, 0⟩) s t) ∧
      (bitOf v.toNat 0 = false → s.flag (.chk .CTRL_FINISH) d c = true →
        ∃ t, exec (.chkFinish p d c v) s = .next t ∧ Frame (fun k => k == ⟨.chk .CTRL_LOST, d, c, 0⟩) s t) ∧
      (∃ t, exec (.chkContextWrite p d c .cfg v) s = .next t ∧ t.chkPoly d c = v.toNat % 4 ∧
        t.get (.chk .CFG_FOLD_W_M1) d c = bitsOf v.toNat 2 2 ∧ t.get (.chk .CFG_POISON) d c = bitsOf v.toNat 8 1 ∧
        t.flag (.chk .RSTAT_VALID) d c = false ∧ t.get (.chk .RES_RES) d c = 0 ∧ Frame (chkKeys d c) s t) ∧
      (∃ t, exec (.chkContextWrite p d c .val v) s = .next t ∧ t.chkVal d c = v.toNat % 2 ^ chkWidth (s.chkPoly d c) ∧
        t.flag (.chk .RSTAT_VALID) d c = false ∧ t.get (.chk .RES_RES) d c = 0 ∧ Frame (chkKeys d c) s t) ∧
      (∃ t, exec (.chkContextWrite p d c .cnt v) s = .next t ∧ t.get (.chk .CNT_CNT) d c = v.toNat ∧
        t.flag (.chk .RSTAT_VALID) d c = false ∧ t.get (.chk .RES_RES) d c = 0 ∧ Frame (chkKeys d c) s t)) ∧
  ∀ (d : Die) (c : ChkUnit) (now : Now) (s u : State), s.live = true → u = s.atNow now →
    (u.safe = false → u.dieUp d = true → u.flag (.chk .CTRL_FINISH) d c = true → u.get (.chk .xFIN_AT) d c + 16 ≤ u.osc →
      ∃ t, exec (.chkFinishEffect d c now) s = .next t ∧ t.get (.chk .RES_RES) d c = u.chkResult d c % 2 ^ 32 ∧
        t.get (.chk .RSTAT_POISON) d c = u.get (.chk .CFG_POISON) d c ∧
        t.get (.chk .RSTAT_FIN_COUNT) d c = (u.get (.chk .RSTAT_FIN_COUNT) d c + 1) % 2 ^ (Fld.chk .RSTAT_FIN_COUNT).width ∧
        t.flag (.chk .RSTAT_VALID) d c = true ∧ t.flag (.chk .CTRL_FINISH) d c = false ∧
        t.flag (.evc .SRC_CFG_PENDING) (854 + 8 * d) = true ∧ Frame (fun k => chkKeys d c k || evcKeys k) u t) ∧
    (u.safe = true ∨ u.dieUp d = false ∨ u.flag (.chk .CTRL_FINISH) d c = false ∨ u.osc < u.get (.chk .xFIN_AT) d c + 16 →
      ∃ t, exec (.chkFinishEffect d c now) s = .next t ∧ Still u t)

/-- One write of CHK_DATA leaves what four writes of CHK_DATA_B with its bytes, lowest first, leave (R353). -/
def Obligations.ChkWordIsBytes : Prop :=
  ∀ (p : Party) (d : Die) (c : ChkUnit) (v : Word) (s t a b e f : State), s.gateOf p .chk (some d.val) = .pass →
    exec (.chkData p d c v) s = .next t → exec (.chkDataB p d c v) s = .next a →
    exec (.chkDataB p d c (v >>> 8)) a = .next b → exec (.chkDataB p d c (v >>> 16)) b = .next e →
    exec (.chkDataB p d c (v >>> 24)) e = .next f → ∀ k : Key, t.store.get k = f.store.get k

-- The Ostlers

/-- An operation of the Ostler of a die finds a routine that runs (R388, R389, R465, R487): the Ostler is awake, and `r` is the
state with an idle Ostler's waiting work started. -/
def Sys2Proof.OstlerOn (d : Die) (s r : State) : Prop :=
  s.live = true ∧ s.ostAwake d = true ∧ r = ostWake d s.quiet ∧ r.ostRuns d = true

/-- The operations of microwords and nanowords, with their operands. -/
def Sys2Proof.ostOps (d : Die) (w : Nano) (n : Fin 1024) (b : Bool) : List Instr :=
  [.ostAdd d w n, .ostSub d w n, .ostAnd d w n, .ostOr d w n, .ostXor d w n, .ostShl d w n, .ostShr d w n, .ostSar d w n,
    .ostMin d w n, .ostMax d w n, .ostMov d w n, .ostLdlc d w n, .ostCrc32c d w n, .ostLoad d w b, .ostStore d w,
    .ostRdreg d w b, .ostWrreg d w, .ostPop d w b, .ostPush d w b, .ostLimm d w, .ostCont d n, .ostJmp d n, .ostBrt d n,
    .ostBrf d n, .ostCall d n, .ostRet d n]

/-- What a nanoword may touch beside its effect: DST, and with FLAGS the flags. -/
def Sys2Proof.nanoKeys (d : Die) (w : Nano) (k : Key) : Bool :=
  k == ⟨.ost .xG, d, w.dst, 0⟩ || (w.flags && k == ⟨.ost .xFLAGS, d, 0, 0⟩)

/-- A nanoword writes the low 64 bits of a result to DST, sets Z and N from it where FLAGS is set, and changes nothing
beside DST and the flags. -/
def Sys2Proof.NanoWrites (d : Die) (w : Nano) (x : Nat) (i : Instr) (s r : State) : Prop :=
  ∃ t, exec i s = .next t ∧ t.ostReg d w.dst = x % 2 ^ 64 ∧
    (w.flags = true → bitOf (t.get (.ost .xFLAGS) d) 0 = decide (x % 2 ^ 64 = 0) ∧
      bitOf (t.get (.ost .xFLAGS) d) 1 = bitOf x 63) ∧ Frame (nanoKeys d w) r t

/-- The ALU operations (R386): the operands are SRCA, and SRCB or IMM; ADD sets C to its carry. A shift by 64 or more is
open, what CRC32C makes of its operands is the implementation's, and the operation completes all the same. The result of MIN and
MAX is that of signed or of unsigned numbers, MOV gives SRCA or B, and LDLC loads LC from one of them, as the implementation has
it. C of ADD, the open result of a shift, and the two readings of MIN, MAX, MOV and LDLC are the model's (log entries 60, 61), and
so is the form of CRC32C (log entry 6). With the Ostler asleep an operation of any kind changes nothing. -/
def Obligations.OstlerAlu : Prop :=
  (∀ (d : Die) (w : Nano) (imm : Fin 1024) (s r : State), OstlerOn d s r →
    NanoWrites d w (r.ostReg d w.srca + r.ostB d w imm) (.ostAdd d w imm) s r ∧
    (w.flags = true → ∃ t, exec (.ostAdd d w imm) s = .next t ∧ bitOf (t.get (.ost .xFLAGS) d) 2 =
      bitOf ((r.ostReg d w.srca + r.ostB d w imm) / 2 ^ 64) 0) ∧
    NanoWrites d w (r.ostReg d w.srca + 2 ^ 64 - r.ostB d w imm) (.ostSub d w imm) s r ∧
    NanoWrites d w (Nat.land (r.ostReg d w.srca) (r.ostB d w imm)) (.ostAnd d w imm) s r ∧
    NanoWrites d w (Nat.lor (r.ostReg d w.srca) (r.ostB d w imm)) (.ostOr d w imm) s r ∧
    NanoWrites d w (Nat.xor (r.ostReg d w.srca) (r.ostB d w imm)) (.ostXor d w imm) s r ∧
    (r.ostB d w imm < 64 →
      NanoWrites d w (r.ostReg d w.srca * 2 ^ r.ostB d w imm) (.ostShl d w imm) s r ∧
      NanoWrites d w (r.ostReg d w.srca / 2 ^ r.ostB d w imm) (.ostShr d w imm) s r ∧
      NanoWrites d w (toSigned 64 (signedOf 64 (r.ostReg d w.srca) / (2 ^ r.ostB d w imm : Nat))) (.ostSar d w imm) s r) ∧
    (64 ≤ r.ostB d w imm → (∃ x, NanoWrites d w x (.ostShl d w imm) s r) ∧ (∃ x, NanoWrites d w x (.ostShr d w imm) s r) ∧
      ∃ x, NanoWrites d w x (.ostSar d w imm) s r) ∧
    NanoWrites d w (Config.fn 1 [r.ostReg d w.srca, r.ostB d w imm]) (.ostCrc32c d w imm) s r) ∧
  (∀ (d : Die) (w : Nano) (imm : Fin 1024) (s r : State), OstlerOn d s r →
    (NanoWrites d w (min (r.ostReg d w.srca) (r.ostB d w imm)) (.ostMin d w imm) s r ∨
      NanoWrites d w (if signedOf 64 (r.ostReg d w.srca) ≤ signedOf 64 (r.ostB d w imm) then r.ostReg d w.srca
        else r.ostB d w imm) (.ostMin d w imm) s r) ∧
    (NanoWrites d w (max (r.ostReg d w.srca) (r.ostB d w imm)) (.ostMax d w imm) s r ∨
      NanoWrites d w (if signedOf 64 (r.ostReg d w.srca) ≤ signedOf 64 (r.ostB d w imm) then r.ostB d w imm
        else r.ostReg d w.srca) (.ostMax d w imm) s r) ∧
    (NanoWrites d w (r.ostReg d w.srca) (.ostMov d w imm) s r ∨ NanoWrites d w (r.ostB d w imm) (.ostMov d w imm) s r) ∧
    (∃ t, exec (.ostLdlc d w imm) s = .next t ∧
      (t.get (.ost .xLC) d = r.ostReg d w.srca % 65536 ∨ t.get (.ost .xLC) d = r.ostB d w imm % 65536) ∧
      Frame (fun k => nanoKeys d w k || k == ⟨.ost .xLC, d, 0, 0⟩) r t)) ∧
  ∀ (d : Die) (w : Nano) (n : Fin 1024) (b : Bool) (s : State), s.ostAwake d = false → ∀ i ∈ ostOps d w n b,
    ∃ t, exec i s = .next t ∧ Still s t

/-- A machine check that is not the second within a second (R388): its cause, its class and PC stand in OST_MC, and it counts. -/
def Sys2Proof.McShown (d : Die) (cause : Nat) (i : Instr) (s r : State) : Prop :=
  ∃ t, exec i s = .next t ∧ t.flag (.ost .MC_VALID) d = true ∧ t.get (.ost .MC_CAUSE) d = cause ∧
    t.get (.ost .MC_PC) d = r.ostPc d % 16384 ∧ t.get (.ost .MC_CLASS) d = r.ostClass d % 16 ∧
    t.get (.ost .CNT) d 0 = (r.get (.ost .CNT) d 0 + 1) % 2 ^ 64 ∧ t.safe = r.safe ∧ t.dieUp (1 - d) = r.dieUp (1 - d) ∧
    t.host = r.host

/-- The operations of a nanoword that reach memory, registers and the event FIFOs (R372, R374, R375, R386, R388): LOAD reads the
DRAM of the die little-endian, STORE writes the low bytes of SRCB there and no other byte; PUSH and POP act on event FIFOs; RDREG
reads and WRREG writes a register as the Ostler's party, with the effect that any party's access has; and LIMM loads its constant.
An access outside the DRAM of the die, which is of the forms that the spec does not give, reads or stores nothing that the model
shows, which is the model's choice (log entry 62), and completes. A code above 3 in FUNC, and poison that is read, are machine
checks. -/
def Obligations.OstlerAccess : Prop :=
  (∀ (d : Die) (w : Nano) (s r : State), OstlerOn d s r → w.func < 4 →
    (inDram d (r.ostAddr d w) (2 ^ w.func) = true → r.grpLost (r.ostAddr d w / 2 ^ 32) = false →
      r.firstPoison (r.ostAddr d w / 2 ^ 32) (r.ostAddr d w % 2 ^ 32) (2 ^ w.func) = none →
      ∃ t, exec (.ostLoad d w false) s = .next t ∧ t.ostReg d w.dst =
          leNat (r.dramRead (r.ostAddr d w / 2 ^ 32) (r.ostAddr d w % 2 ^ 32) (2 ^ w.func)) % 2 ^ 64 ∧
        Frame (fun k => nanoKeys d w k || k == ⟨.ost .xACK, d, 0, 0⟩) r t) ∧
    (inDram d (r.ostAddr d w) (2 ^ w.func) = true →
      ∃ t, exec (.ostStore d w) s = .next t ∧ t.flag (.ost .xACK) d = true ∧
        (r.grpLost (r.ostAddr d w / 2 ^ 32) = false →
          t.dram.read (r.ostAddr d w) (2 ^ w.func) = leBytes (2 ^ w.func) (r.ostReg d w.srcb)) ∧
        (∀ a : Nat, a < r.ostAddr d w ∨ r.ostAddr d w + 2 ^ w.func ≤ a → t.dram.get a = r.dram.get a) ∧
        t.flash = r.flash ∧ t.host = r.host ∧ t.stores = r.stores ∧
        SameRegs (fun k => k.fld.home == .dmc || fltKeys k || k == ⟨.ost .xACK, d, 0, 0⟩ ||
          (w.flags && k == ⟨.ost .xFLAGS, d, 0, 0⟩)) r t ∧ SameTraffic r t) ∧
    (inDram d (r.ostAddr d w) (2 ^ w.func) = false →
      (∃ t, exec (.ostLoad d w false) s = .next t ∧ t.ostReg d w.dst < 2 ^ (8 * 2 ^ w.func) ∧
        Frame (fun k => nanoKeys d w k || k == ⟨.ost .xACK, d, 0, 0⟩) r t) ∧
      ∃ t, exec (.ostStore d w) s = .next t ∧
        Frame (fun k => k == ⟨.ost .xACK, d, 0, 0⟩ || (w.flags && k == ⟨.ost .xFLAGS, d, 0, 0⟩)) r t)) ∧
  (∀ (d : Die) (w : Nano) (s r : State), OstlerOn d s r →
    (∀ e : FifoEntry, r.fifo.find? (fun e => e.tgt == 2 + d.val) = some e → e.poison = false → e.data < 2 ^ 24 →
      ∃ t, exec (.ostPop d w false) s = .next t ∧ t.ostReg d w.dst = e.data + (if e.lost then 2 ^ 25 else 0) ∧
        t.flag (.ost .xEMPTY) d = false ∧ t.fifo = r.fifo.eraseP (fun x => x.tgt == 2 + d.val) ∧ t.claims = r.claims ∧
        SameRegs (fun k => nanoKeys d w k || k == ⟨.ost .xACK, d, 0, 0⟩ || k == ⟨.ost .xEMPTY, d, 0, 0⟩) r t ∧
        SameBytes r t ∧ SameTraffic r t) ∧
    (r.fifo.find? (fun e => e.tgt == 2 + d.val) = none →
      ∃ t, exec (.ostPop d w false) s = .next t ∧ t.ostReg d w.dst = 2 ^ 31 ∧ t.flag (.ost .xEMPTY) d = true ∧
        Frame (fun k => nanoKeys d w k || k == ⟨.ost .xACK, d, 0, 0⟩ || k == ⟨.ost .xEMPTY, d, 0, 0⟩) r t) ∧
    (∀ tagged : Bool,
      ∃ t, exec (.ostPush d w tagged) s = .next t ∧ t.claims = r.claims ∧
        (r.fifoLevel (r.ostReg d w.srca % 4) < 512 →
          FifoTakes (r.ostReg d w.srca % 4) (r.ostReg d w.srcb % 2 ^ 24) tagged r t) ∧
        (512 ≤ r.fifoLevel (r.ostReg d w.srca % 4) → FifoDrops (r.ostReg d w.srca % 4) r t) ∧
        Frame (fun k => evMoves k || (w.flags && k == ⟨.ost .xFLAGS, d, 0, 0⟩)) r t) ∧
    (∃ t, exec (.ostWrreg d w) s = .next t ∧ t.flag (.ost .xACK) d = true ∧
      SameRegs (fun k => k == ⟨.ost .xACK, d, 0, 0⟩ || (w.flags && k == ⟨.ost .xFLAGS, d, 0, 0⟩))
        (regWrite (ostParty d) (r.ostAddr d w) (r.ostReg d w.srcb % 2 ^ 32) r) t ∧
      SameBytes (regWrite (ostParty d) (r.ostAddr d w) (r.ostReg d w.srcb % 2 ^ 32) r) t ∧
      SameTraffic (regWrite (ostParty d) (r.ostAddr d w) (r.ostReg d w.srcb % 2 ^ 32) r) t) ∧
    (r.ostAddr d w ≠ evcAddr (2 + d) 0x10 ∨ bitOf (regRead (ostParty d) (r.ostAddr d w) r).1 24 = false →
      ∃ t, exec (.ostRdreg d w false) s = .next t ∧
        t.ostReg d w.dst = (regRead (ostParty d) (r.ostAddr d w) r).1 % 2 ^ 64 ∧
        SameRegs (fun k => nanoKeys d w k || k == ⟨.ost .xACK, d, 0, 0⟩ ||
          (k == ⟨.ost .CNT, d, 4, 0⟩ && r.ostAddr d w == evcAddr (2 + d) 4)) (regRead (ostParty d) (r.ostAddr d w) r).2 t ∧
        SameBytes r t ∧ SameTraffic r t) ∧
    (r.ostAddr d w = 0x10000 → (regRead (ostParty d) (r.ostAddr d w) r).1 = 2 + d) ∧
    (findReg (r.ostAddr d w) = none → (regRead (ostParty d) (r.ostAddr d w) r).1 = 0) ∧
    ∃ t, exec (.ostLimm d w) s = .next t ∧ t.ostReg d w.dst = w.k.toNat ∧ Frame (nanoKeys d w) r t) ∧
  ∀ (d : Die) (w : Nano) (s r : State), OstlerOn d s r → r.mcRecent d = false →
    (3 < w.func → (∀ b, McShown d 4 (.ostLoad d w b) s r) ∧ McShown d 4 (.ostStore d w) s r) ∧
    (w.func < 4 → McShown d 2 (.ostLoad d w true) s r) ∧
    (w.func < 4 → inDram d (r.ostAddr d w) (2 ^ w.func) = true → r.grpLost (r.ostAddr d w / 2 ^ 32) = true ∨
        (r.firstPoison (r.ostAddr d w / 2 ^ 32) (r.ostAddr d w % 2 ^ 32) (2 ^ w.func)).isSome = true →
      McShown d 2 (.ostLoad d w false) s r) ∧
    McShown d 2 (.ostRdreg d w true) s r ∧
    (r.ostAddr d w = evcAddr (2 + d) 0x10 → bitOf (regRead (ostParty d) (r.ostAddr d w) r).1 24 = true →
      McShown d 2 (.ostRdreg d w false) s r) ∧
    ∀ (e : FifoEntry) (bad : Bool), r.fifo.find? (fun e => e.tgt == 2 + d.val) = some e → (e.poison || bad) = true →
      e.data < 2 ^ 24 → McShown d 2 (.ostPop d w bad) s r

/-- The next-address operations but YIELD and END (R384, R385): PC goes on by one, to a word of its page, by the branch
offset where the condition is met, or to a routine of 16 words with the return address on the stack; RET takes it back. Condition 5
counts LC down, and a reserved condition is a machine check (R388). -/
def Obligations.OstlerNextAddress : Prop :=
  ∀ (d : Die) (n : Fin 1024) (s r : State), OstlerOn d s r →
    (∃ t, exec (.ostCont d n) s = .next t ∧ t.ostPc d = (r.ostPc d + 1) % 16384 ∧
      Frame (fun k => k == ⟨.ost .xPC, d, 0, 0⟩) r t) ∧
    (∃ t, exec (.ostJmp d n) s = .next t ∧ t.ostPc d = (r.ostPc d / 1024 * 1024 + n) % 16384 ∧
      Frame (fun k => k == ⟨.ost .xPC, d, 0, 0⟩) r t) ∧
    (∀ b : Bool, (ostCond d (n.val / 64) r).1 = some b →
      (∃ t, exec (.ostBrt d n) s = .next t ∧
        t.ostPc d = ((r.ostPc d + 1 + if b then signedOf 6 (n.val % 64) else 0 : Int) % 16384).toNat ∧
        t.get (.ost .xLC) d = (if n.val / 64 = 5 then (r.get (.ost .xLC) d + 65535) % 65536 else r.get (.ost .xLC) d) ∧
        Frame (fun k => k == ⟨.ost .xPC, d, 0, 0⟩ || k == ⟨.ost .xLC, d, 0, 0⟩) r t) ∧
      ∃ t, exec (.ostBrf d n) s = .next t ∧
        t.ostPc d = ((r.ostPc d + 1 + if b then 0 else signedOf 6 (n.val % 64) : Int) % 16384).toNat ∧
        t.get (.ost .xLC) d = (if n.val / 64 = 5 then (r.get (.ost .xLC) d + 65535) % 65536 else r.get (.ost .xLC) d) ∧
        Frame (fun k => k == ⟨.ost .xPC, d, 0, 0⟩ || k == ⟨.ost .xLC, d, 0, 0⟩) r t) ∧
    (n.val / 64 < 12 ↔ (ostCond d (n.val / 64) r).1 ≠ none) ∧
    (n.val / 64 = 5 → (ostCond d (n.val / 64) r).1 = some (decide ((r.get (.ost .xLC) d + 65535) % 65536 ≠ 0))) ∧
    (12 ≤ n.val / 64 → r.mcRecent d = false → McShown d 4 (.ostBrt d n) s r ∧ McShown d 4 (.ostBrf d n) s r) ∧
    (r.get (.ost .xDEPTH) d < 8 →
      ∃ t, exec (.ostCall d n) s = .next t ∧ t.ostPc d = n.val * 16 % 16384 ∧
        t.get (.ost .xDEPTH) d = r.get (.ost .xDEPTH) d + 1 ∧
        t.get (.ost .xSTK) d (r.get (.ost .xDEPTH) d) = (r.ostPc d + 1) % 16384 ∧
        Frame (fun k => k == ⟨.ost .xPC, d, 0, 0⟩ || k == ⟨.ost .xDEPTH, d, 0, 0⟩ ||
          k == ⟨.ost .xSTK, d, r.get (.ost .xDEPTH) d, 0⟩) r t) ∧
    (8 ≤ r.get (.ost .xDEPTH) d → r.mcRecent d = false → McShown d 3 (.ostCall d n) s r) ∧
    (0 < r.get (.ost .xDEPTH) d →
      ∃ t, exec (.ostRet d n) s = .next t ∧ t.ostPc d = r.get (.ost .xSTK) d (r.get (.ost .xDEPTH) d - 1) % 16384 ∧
        t.get (.ost .xDEPTH) d = r.get (.ost .xDEPTH) d - 1 ∧
        Frame (fun k => k == ⟨.ost .xPC, d, 0, 0⟩ || k == ⟨.ost .xDEPTH, d, 0, 0⟩) r t) ∧
    (r.get (.ost .xDEPTH) d = 0 → r.mcRecent d = false → McShown d 3 (.ostRet d n) s r)

/-- What the pools' counts may touch after a step that lets cells or buffers go: the marks of PDK, and the event controller. -/
def Sys2Proof.poolKeys (k : Key) : Bool := k.fld.home == .pdk || evcKeys k

/-- The keys of one Ostler, and those that the pools may touch. -/
def Sys2Proof.ostKeys (d : Nat) (k : Key) : Bool := (k.fld.home == .ost && k.i == d) || poolKeys k

/-- YIELD, END, machine checks, shedding and the reload of the stores (R388 to R394, R448): a YIELD commits its step and PC to the
journal record of its class, and the routine goes on at the next word, or is suspended with its context kept; END removes the
record, and the Ostler runs on or is IDLE. The watchdog, and a machine check that the microcode engine reports, put cause, class and
PC into OST_MC; a second machine check within a second takes the die down. An item that waits too long, or a busy fraction above
its limit, sets OVERLOAD; after a quiet millisecond it clears with the shed level; a reload with good parity leaves LOADING. What
does not stand changes nothing beyond the marks of the pools. -/
def Obligations.OstlerDispatch : Prop :=
  (∀ (d : Die) (n : Fin 1024) (now : Now) (s u r : State), s.live = true → u = s.atNow now → u.ostAwake d = true →
    r = ostWake d u → r.ostRuns d = true →
    (∃ t, exec (.ostYield d n now) s = .next t ∧ t.flag (.ost .xJNL) d (r.ostClass d) = true ∧
      t.get (.ost .xSTEP) d (r.ostClass d) = n ∧ t.get (.ost .xPC) d (11 + r.ostClass d) = (r.ostPc d + 1) % 16384 ∧
      ((t.ostClass d = r.ostClass d ∧ t.ostRuns d = true ∧ t.ostPc d = (r.ostPc d + 1) % 16384) ∨
        t.get (.ost .xPC) d (1 + r.ostClass d) = (r.ostPc d + 1) % 16384) ∧ t.flash = r.flash ∧ t.host = r.host) ∧
    (∃ t, exec (.ostEnd d n now) s = .next t ∧ t.flag (.ost .xJNL) d (r.ostClass d) = false ∧
      (t.ostState d = 1 ∨ t.ostState d = 2) ∧ SameBytes r t)) ∧
  (∀ (d : Die) (now : Now) (s u : State), s.live = true → u = s.atNow now → u.ostAwake d = true →
    (u.ostRuns d = true → u.expired (.ost .xWDOG_DUE) d = true → u.mcRecent d = false →
      McShown d 5 (.ostlerWatchdog d now) s u) ∧
    (u.ostRuns d = true → u.expired (.ost .xWDOG_DUE) d = true → u.mcRecent d = true → u.dieHeld d = false →
      ∃ t, exec (.ostlerWatchdog d now) s = .next t ∧ Downed d u t) ∧
    (u.ostRuns d = false ∨ u.expired (.ost .xWDOG_DUE) d = false →
      ∃ t, exec (.ostlerWatchdog d now) s = .next t ∧ Frame poolKeys u t) ∧
    (∀ o : Occ, o.code = 0x47 → o.die = d.val → 2 ≤ o.detail → o.detail < 32 → u.ostRuns d = true → u.mcRecent d = false →
      McShown d o.detail (.faultOccurrence [o] now) s u) ∧
    (∀ e : Nat, u.ostLate d e = true →
      ∃ t, exec (.ostlerOverload d ⟨some e, now⟩) s = .next t ∧ t.flag (.ost .STATUS_OVERLOAD) d = true ∧
        Frame (ostKeys d) u t) ∧
    (∀ e : Nat, u.ostLate d e = false → ∃ t, exec (.ostlerOverload d ⟨some e, now⟩) s = .next t ∧ Frame poolKeys u t) ∧
    (u.get (.ost .SHED_BUSY_HI) d ≠ 0 → u.get (.ost .SHED_BUSY_HI) d < 255 →
      ∃ t, exec (.ostlerOverload d ⟨none, now⟩) s = .next t ∧ t.flag (.ost .STATUS_OVERLOAD) d = true ∧
        Frame (ostKeys d) u t) ∧
    (u.get (.ost .SHED_BUSY_HI) d = 0 ∨ u.get (.ost .SHED_BUSY_HI) d = 255 →
      ∃ t, exec (.ostlerOverload d ⟨none, now⟩) s = .next t ∧ Frame poolKeys u t) ∧
    (elapsedNs (u.get (.ost .xOVER_AT) d) u.osc msNs = true →
      ∃ t, exec (.shedClear d now) s = .next t ∧ t.get (.ost .STATUS_SHED_LEVEL) d = 0 ∧
        t.flag (.ost .STATUS_OVERLOAD) d = false ∧ t.ostBusy d = false ∧
        Frame (fun k => k.fld.home == .ost && k.i == d.val) u t) ∧
    (elapsedNs (u.get (.ost .xOVER_AT) d) u.osc msNs = false → ∃ t, exec (.shedClear d now) s = .next t ∧ Still u t) ∧
    (u.ostState d = 0 →
      ∃ t, exec (.storeReloadDone d true now) s = .next t ∧ (t.ostState d = 1 ∨ t.ostState d = 2) ∧
        Frame (fun k => k.fld.home == .ost && k.i == d.val) u t) ∧
    (∀ b : Bool, u.ostState d ≠ 0 → ∃ t, exec (.storeReloadDone d b now) s = .next t ∧ Still u t)) ∧
  ∀ (d : Die) (n : Fin 1024) (since : Option Nat) (b : Bool) (now : Now) (s u : State), s.live = true → u = s.atNow now →
    u.ostAwake d = false →
    (∀ i ∈ [Instr.ostYield d n now, .ostEnd d n now, .ostlerWatchdog d now, .ostlerOverload d ⟨since, now⟩],
      ∃ t, exec i s = .next t ∧ Frame poolKeys u t) ∧
    ∀ i ∈ [Instr.shedClear d now, .storeReloadDone d b now], ∃ t, exec i s = .next t ∧ Still u t

-- Host ports

/-- The party that a register-write command names, and the block and die of the register that it writes. -/
def Sys2Proof.Instr.writes (i : Instr) : Option (Party × Blk × Option Nat) :=
  match i with
  | .cchStart p d _ _ | .cchStop p d _ _ | .moveDie p d _ _ | .handover p d _ _ => some (p, .cch, some d)
  | .dropLt p d _ _ => some (p, .ref, some d)
  | .retire p u _ => some (p, .cus, some (unitDie u))
  | .nodeRead p d _ | .nodeWrite p d _ | .publish p d _ | .portModeChange p d _ _ | .mergePairWrite p d _ _ =>
    some (p, .prs, some d)
  | .rtRead p d _ | .rtInsert p d _ | .rtDelete p d _ | .rtSearch p d _ | .flRead p d _ | .flWrite p d _ | .flInsert p d _
  | .flDelete p d _ | .flSearch p d _ | .brRead p d _ | .brWrite p d _ | .brInsert p d _ | .brDelete p d _ | .brSearch p d _
  | .brFlush p d _ => some (p, .fwd, some d)
  | .bktApply p d _ _ | .templateRead p d _ | .templateWrite p d _ => some (p, .shp, some d)
  | .hostAlloc p d _ _ _ | .hostFree p d _ _ | .reserveWrite p d _ _ _ => some (p, .pdk, some d)
  | .forceErase p g _ => some (p, .dmc, some (g / 4))
  | .dmaPost p d _ _ | .dmaResume p d _ _ | .dmaReset p d _ _ => some (p, .dma, some d)
  | .chkData p d _ _ | .chkDataB p d _ _ | .chkFold p d _ _ | .chkStart p d _ _ | .chkFinish p d _ _
  | .chkContextWrite p d _ _ _ => some (p, .chk, some d)
  | .evcComplete p _ _ | .evcFifoPush p _ _ | .evcSwSet p _ | .evcSwClr p _ | .evcSrcCfgWrite p _ _ | .evcTgtCtrlWrite p _ _ =>
    some (p, .evc, none)
  | .swRestart p _ | .faultInject p _ => some (p, .flt, none)
  | .realign p _ | .arm p _ _ | .disarm p _ _ => some (p, .trs, none)
  | .stirrupRelease p _ _ | .stirrupForce p _ _ | .hirSel p _ _ => some (p, .hpt, none)
  | .quoteGo p _ _ => some (p, .mid, none)
  | .fwuOpen p _ | .fwuClose p _ | .fwuSubmit p _ | .fwuActivate p _ | .fwuRevert p _ => some (p, .fwu, none)
  | .winter p _ | .spring p _ | .autumnEnWrite p _ => some (p, .pwr, none)
  | .registerWrite p a _ be n =>
    if wellFormedWrite a be n then (findReg a).map (fun l => (p, (placeOf a).blk, l.die)) else none
  | _ => none

/-- A register write by the rule of R513, which counts it in at most one place: one of a bad form is reported and counted in
BAD_ACCESS, and an Ostler, which makes none, changes nothing by one; of the others, whichever register command makes them, one that
is too early, or of a party that has not negotiated, is counted there and has no effect, and one that is ignored is not counted.
One that passes has the effect of its register (R10, R13), with nothing counted, reported or answered: FLT_CFG, at 0x30004, takes
the bits of the value into its fields, and nothing else moves. -/
def Obligations.WriteCountedOnce : Prop :=
  (∀ (p : Party) (a : Fin 67108864) (v : Word) (be : Fin 16) (n : Nat) (s : State), s.live = true →
    (wellFormedWrite a be n = false →
      (∀ q, p.port = some q →
        ∃ t, exec (.registerWrite p a v be n) s = .next t ∧ t.outs = [.unsupported p.num] ∧
          t.get (.hpt .ERR_BAD_ACCESS) q = min (s.get (.hpt .ERR_BAD_ACCESS) q + 1) 65535 ∧
          Frame (fun k => k == ⟨.hpt .ERR_BAD_ACCESS, q, 0, 0⟩) s t) ∧
      (p.port = none → ∃ t, exec (.registerWrite p a v be n) s = .next t ∧ t.outs = [] ∧ Still s t)) ∧
    (∀ l, wellFormedWrite a be n = true → findReg a = some l → s.gateOf p (placeOf a).blk l.die = .pass →
      exec (.registerWrite p a v be n) s = s.run (regAct p (placeOf a).blk l v.toNat))) ∧
  (∀ (i : Instr) (p : Party) (b : Blk) (d : Option Nat) (s : State), s.live = true → i.writes = some (p, b, d) →
    (s.gateOf p b d = .ignore → ∃ t, exec i s = .next t ∧ t.outs = [] ∧ Still s t) ∧
    (s.gateOf p b d = .early →
      ∃ t, exec i s = .next t ∧ t.outs = [] ∧
        t.get (.mid .EARLY_EARLY_WRITE) = min (s.get (.mid .EARLY_EARLY_WRITE) + 1) 65535 ∧
        Frame (fun k => k == ⟨.mid .EARLY_EARLY_WRITE, 0, 0, 0⟩) s t) ∧
    (s.gateOf p b d = .unneg →
      ∃ t, exec i s = .next t ∧ t.outs = [] ∧
        t.get (.hpt .ERR_UNNEG_WRITE) p.num = min (s.get (.hpt .ERR_UNNEG_WRITE) p.num + 1) 65535 ∧
        Frame (fun k => k == ⟨.hpt .ERR_UNNEG_WRITE, p.num, 0, 0⟩) s t)) ∧
  ∀ (p : Party) (v : Word) (s : State), s.live = true → s.gateOf p .flt none = .pass →
    ∃ t, exec (.registerWrite p 0x30004 v 15 1) s = .next t ∧ t.outs = [] ∧
      t.get (.flt .CFG_UNLOCK_ACT) = bitsOf v.toNat 0 1 ∧ t.get (.flt .CFG_SAFE_LINK_DOWN) = bitsOf v.toNat 1 1 ∧
      t.get (.flt .CFG_FAILOVER) = bitsOf v.toNat 2 1 ∧ t.get (.flt .CFG_HOLD_COUNT) = bitsOf v.toNat 8 4 ∧
      t.get (.flt .CFG_HOLD_WIN) = bitsOf v.toNat 16 8 ∧
      Frame (fun k => k.fld == .flt .CFG_UNLOCK_ACT || k.fld == .flt .CFG_SAFE_LINK_DOWN || k.fld == .flt .CFG_FAILOVER ||
        k.fld == .flt .CFG_HOLD_COUNT || k.fld == .flt .CFG_HOLD_WIN) s t

/-- A register read answers the party, or answers 0 where the place is shut to it. -/
def Sys2Proof.answers (p : Party) (a : Nat) (l : Loc) (s : State) : Bool :=
  !(s.readShut p (placeOf a).blk l.die || s.awayChan l || noMsix p l || s.noRate (placeOf a).blk l)

/-- A read of the low half of a 64-bit pair takes the reader's latch, and its high half reads from that latch, whatever other
party reads in between and however the count moves on (R14, R403). A read of a register whose read takes nothing returns its
fields, and one of a place that is shut to the party returns 0 (R401); neither changes anything. -/
def Obligations.CounterPairsLatch : Prop :=
  (∀ (p : Party) (a : Fin 67108864) (l : Loc) (s : State), s.live = true → findReg a = some l → answers p a l s = true →
    (∀ f : Fld, l.rd.kind = .lo f →
      ∃ t, exec (.counterLoRead p a) s = .next t ∧ t.outs = [.read p.num a (s.pairValue f l.i l.j % 2 ^ 32)] ∧
        t.store.get (latchKey p a) = s.pairValue f l.i l.j % 2 ^ 64 ∧ Frame (fun k => k == latchKey p a) s t) ∧
    (∀ f : Fld, l.rd.kind = .hi f →
      ∃ t, exec (.counterLoRead p a) s = .next t ∧
        t.outs = [.read p.num a (s.store.get (latchKey p (a.val - 4)) / 2 ^ 32 % 2 ^ 32)] ∧ Still s t) ∧
    (l.rd.kind = .plain → l.rd.reg ≠ .HPT_SELF → l.rd.reg ≠ .HPT_STR_TAKE → l.rd.reg ≠ .EVC_CLAIM →
      l.rd.reg ≠ .EVC_FIFO_POP →
      ∃ t, exec (.counterLoRead p a) s = .next t ∧ t.outs = [.read p.num a (s.fieldsRead p l)] ∧ Still s t)) ∧
  (∀ (p : Party) (a : Fin 67108864) (l : Loc) (s : State), s.live = true → findReg a = some l → answers p a l s = false →
    ∃ t, exec (.counterLoRead p a) s = .next t ∧ t.outs = [.read p.num a 0] ∧ Still s t) ∧
  ∀ (p q : Party) (a b : Fin 67108864), p ≠ q → latchKey p a ≠ latchKey q b

/-- An offset of the BAR that no register occupies (R509): a read returns 0 and changes nothing, and a write is ignored with no
side effect. There is no register from 0x0010_0000 to 0x00FF_FFFF, and none in TTH from offset 8 upward. -/
def Obligations.EmptyOffsets : Prop :=
  (∀ (p : Party) (a : Fin 67108864) (s : State), s.live = true → findReg a = none → a.val % 4 = 0 →
    (∃ t, exec (.counterLoRead p a) s = .next t ∧ t.outs = [.read p.num a 0] ∧ Still s t) ∧
    ∀ v : Word, ∃ t, exec (.registerWrite p a v 15 1) s = .next t ∧ t.outs = [] ∧ Still s t) ∧
  (∀ a : Fin 67108864, 0x100000 ≤ a.val → a.val < 0x1000000 → findReg a = none) ∧
  ∀ a : Fin 67108864, 0x3000008 ≤ a.val → findReg a = none

/-- What a party reads of a take, of a Stirrup held by `o` before and by `w` after the edge (R406). -/
def Sys2Proof.takenRead (n : Stirrup) (o w gen : Nat) (p : Party) : Out :=
  .read p.num (stirrupAddr n 0) (w + gen * 2 ^ 16 + (if o = p.num then 2 ^ 30 else 0) + if w = p.num then 2 ^ 31 else 0)

/-- A Stirrup's lease begins, or begins anew: the edge at which it ends, or none where the lease is 0. -/
def Sys2Proof.leaseEdge (n : Stirrup) (s : State) : Nat :=
  if s.get (.hpt .STR_LEASE_MS) n = 0 then 0 else s.dueIn (min 10000 (s.get (.hpt .STR_LEASE_MS) n) * msNs) % 2 ^ 64

/-- The holder and the generation of a Stirrup, its lease and its round-robin pointer. -/
def Sys2Proof.stirrupKeys (n : Nat) (k : Key) : Bool :=
  k.i == n && (k.fld == .hpt .STR_STATUS_OWNER || k.fld == .hpt .STR_STATUS_GEN || k.fld == .hpt .xLEASE_DUE || k.fld == .hpt .xRR)

/-- Stirrups (R406, R408, R409): takes of a free one make one of the takers its holder with a new lease, of several the first from
the Stirrup's round-robin pointer on, which then moves past it; a take by the holder renews the lease; takes of a Stirrup that
another party holds change nothing; each taker reads the holder, GEN, and whether it held and holds the Stirrup. A holding whose
lease expires ends with its event and a Notice, and one whose lease runs on, or in Winter, stays. -/
def Obligations.Stirrups : Prop :=
  (∀ (p : Party) (takers : List Party) (n : Stirrup) (s : State), s.live = true → s.get (.hpt .STR_STATUS_OWNER) n = 7 →
    p ∈ takers → (∀ q ∈ takers, (p.num + 4 - s.get (.hpt .xRR) n) % 4 ≤ (q.num + 4 - s.get (.hpt .xRR) n) % 4) →
    ∃ t, exec (.stirrupTake n takers) s = .next t ∧ t.get (.hpt .STR_STATUS_OWNER) n = p.num ∧
      t.outs = takers.map (takenRead n 7 p.num (s.get (.hpt .STR_STATUS_GEN) n)) ∧
      t.get (.hpt .xLEASE_DUE) n = leaseEdge n s ∧
      t.get (.hpt .xRR) n = (if 2 ≤ takers.length then (p.num + 1) % 4 else s.get (.hpt .xRR) n) ∧
      t.get (.hpt .STR_STATUS_GEN) n = s.get (.hpt .STR_STATUS_GEN) n ∧ Frame (stirrupKeys n) s t) ∧
  (∀ (takers : List Party) (n : Stirrup) (s : State), s.live = true → s.get (.hpt .STR_STATUS_OWNER) n ≠ 7 ∨ takers = [] →
    ((∃ p ∈ takers, p.num = s.get (.hpt .STR_STATUS_OWNER) n) →
      ∃ t, exec (.stirrupTake n takers) s = .next t ∧ t.get (.hpt .xLEASE_DUE) n = leaseEdge n s ∧
        t.outs = takers.map (takenRead n (s.get (.hpt .STR_STATUS_OWNER) n) (s.get (.hpt .STR_STATUS_OWNER) n)
          (s.get (.hpt .STR_STATUS_GEN) n)) ∧ Frame (fun k => k == ⟨.hpt .xLEASE_DUE, n, 0, 0⟩) s t) ∧
    ((∀ p ∈ takers, p.num ≠ s.get (.hpt .STR_STATUS_OWNER) n) →
      ∃ t, exec (.stirrupTake n takers) s = .next t ∧
        t.outs = takers.map (takenRead n (s.get (.hpt .STR_STATUS_OWNER) n) (s.get (.hpt .STR_STATUS_OWNER) n)
          (s.get (.hpt .STR_STATUS_GEN) n)) ∧ Still s t)) ∧
  ∀ (n : Stirrup) (now : Now) (s u : State), s.live = true → u = s.atNow now →
    (u.get (.hpt .STR_STATUS_OWNER) n ≠ 7 → u.expired (.hpt .xLEASE_DUE) n = true → u.inWinter = false →
      ∃ t, exec (.lease n now) s = .next t ∧ t.get (.hpt .STR_STATUS_OWNER) n = 7 ∧
        t.get (.hpt .STR_STATUS_GEN) n = (u.get (.hpt .STR_STATUS_GEN) n + 1) % 2 ^ 8 ∧
        t.flag (.evc .SRC_CFG_PENDING) 896 = true ∧ t.get (.flt .CNT) 0 = (u.get (.flt .CNT) 0 + 1) % 2 ^ 64 ∧
        t.claims = u.claims ∧ Frame (fun k => stirrupKeys n k || fltKeys k) u t) ∧
    (u.get (.hpt .STR_STATUS_OWNER) n = 7 ∨ u.expired (.hpt .xLEASE_DUE) n = false ∨ u.inWinter = true →
      ∃ t, exec (.lease n now) s = .next t ∧ Still u t)

/-- Releases of a Stirrup (R407): a write by its holder that names its GEN frees it, and GEN increments modulo 256; any other
release is ignored and sets REL_ERR; with FORCE any party frees a held one whatever GEN it names, GEN increments and a Notice
is raised, and a FORCE write to a FREE one changes nothing. -/
def Obligations.StirrupReleases : Prop :=
  ∀ (p : Party) (n : Stirrup) (v : Word) (s : State), s.live = true → s.gateOf p .hpt none = .pass →
    (s.get (.hpt .STR_STATUS_OWNER) n = p.num → bitsOf v.toNat 16 8 = s.get (.hpt .STR_STATUS_GEN) n →
      ∃ t, exec (.stirrupRelease p n v) s = .next t ∧ t.get (.hpt .STR_STATUS_OWNER) n = 7 ∧
        t.get (.hpt .STR_STATUS_GEN) n = (s.get (.hpt .STR_STATUS_GEN) n + 1) % 2 ^ 8 ∧
        Frame (fun k => k == ⟨.hpt .STR_STATUS_OWNER, n, 0, 0⟩ || k == ⟨.hpt .STR_STATUS_GEN, n, 0, 0⟩) s t) ∧
    (s.get (.hpt .STR_STATUS_OWNER) n ≠ p.num ∨ bitsOf v.toNat 16 8 ≠ s.get (.hpt .STR_STATUS_GEN) n →
      ∃ t, exec (.stirrupRelease p n v) s = .next t ∧ t.flag (.hpt .STR_STATUS_REL_ERR) n = true ∧
        Frame (fun k => k == ⟨.hpt .STR_STATUS_REL_ERR, n, 0, 0⟩) s t) ∧
    (s.get (.hpt .STR_STATUS_OWNER) n ≠ 7 →
      ∃ t, exec (.stirrupForce p n v) s = .next t ∧ t.get (.hpt .STR_STATUS_OWNER) n = 7 ∧
        t.get (.hpt .STR_STATUS_GEN) n = (s.get (.hpt .STR_STATUS_GEN) n + 1) % 2 ^ 8 ∧
        t.get (.flt .CNT) 0 = (s.get (.flt .CNT) 0 + 1) % 2 ^ 64 ∧ t.claims = s.claims ∧
        Frame (fun k => k == ⟨.hpt .STR_STATUS_OWNER, n, 0, 0⟩ || k == ⟨.hpt .STR_STATUS_GEN, n, 0, 0⟩ || fltKeys k) s t) ∧
    (s.get (.hpt .STR_STATUS_OWNER) n = 7 → ∃ t, exec (.stirrupForce p n v) s = .next t ∧ Still s t)

/-- A configuration request is answered with retry status (R417): until step 6 ends, but in the safe state and in recovery. -/
def Sys2Proof.retried (s : State) : Bool :=
  decide (s.get (.mid .BOOT_STEP) < 6) && !s.safe && !s.flag (.mid .BOOT_RECOVERY)

/-- A host port comes up, negotiates and is reset (R397, R398, R411, R417, R419): configuration requests are answered with
retry status until step 6 ends, but in the safe state and in recovery; one that is answered otherwise may set MSI-X Enable,
which sends the message that is pending, unless its vector is masked (log entry 113); link training shows in SPEED and WIDTH;
a port whose strap is low does neither; HIR_SEL of MAJOR 1 by the port itself sets HIR_OK and the lesser MINOR, and one of
another MAJOR or before step 5 ends sets HIR_REFUSED; a write by another party changes nothing. A reset frees the port's
Stirrups and no others, ends its negotiation, clears its error counts, and drops its quote. -/
def Obligations.HostPorts : Prop :=
  (∀ (n : HostPort) (s : State), s.live = true →
    (s.portEnabled n = true →
      (∃ t, exec (.pcieConfigRequest ⟨n, none⟩) s = .next t ∧ t.outs = [.config n (retried s)] ∧ Still s t) ∧
      (∀ on : Bool,
        (retried s = true →
          ∃ t, exec (.pcieConfigRequest ⟨n, some on⟩) s = .next t ∧ t.outs = [.config n true] ∧ Still s t) ∧
        (retried s = false →
          ∃ t, exec (.pcieConfigRequest ⟨n, some on⟩) s = .next t ∧ t.flag (.hpt .xMSIX_EN) n = on ∧
            t.outs = .config n false :: (if (on && s.get (.hpt .MSIX_WORD) n 3 % 2 == 0 && s.flag (.hpt .PBA_WORD) n) = true
              then [.msix n] else []) ∧
            t.flag (.hpt .PBA_WORD) n = (s.flag (.hpt .PBA_WORD) n && !(on && s.get (.hpt .MSIX_WORD) n 3 % 2 == 0)) ∧
            Frame (fun k => k == ⟨.hpt .xMSIX_EN, n, 0, 0⟩ || k == ⟨.hpt .PBA_WORD, n, 0, 0⟩) s t)) ∧
      ∀ speed width : Nat,
        ∃ t, exec (.hostLinkUp n speed width) s = .next t ∧
          t.get (.hpt .PORT_STATUS_SPEED) n = speed % 2 ^ (Fld.hpt .PORT_STATUS_SPEED).width ∧
          t.get (.hpt .PORT_STATUS_WIDTH) n = width % 2 ^ (Fld.hpt .PORT_STATUS_WIDTH).width ∧ t.outs = [] ∧
          Frame (fun k => k == ⟨.hpt .PORT_STATUS_SPEED, n, 0, 0⟩ || k == ⟨.hpt .PORT_STATUS_WIDTH, n, 0, 0⟩) s t) ∧
    (s.portEnabled n = false →
      (∀ msix : Option Bool, ∃ t, exec (.pcieConfigRequest ⟨n, msix⟩) s = .next t ∧ t.outs = [] ∧ Still s t) ∧
      ∀ speed width : Nat, ∃ t, exec (.hostLinkUp n speed width) s = .next t ∧ Still s t)) ∧
  (∀ (p : Party) (n : HostPort) (v : Word) (s : State), s.live = true → s.gateOf p .hpt none = .pass →
    (p.num = n → 5 ≤ s.get (.mid .BOOT_STEP) → bitsOf v.toNat 8 8 = 1 →
      ∃ t, exec (.hirSel p n v) s = .next t ∧ t.flag (.hpt .PORT_STATUS_HIR_OK) n = true ∧
        t.get (.hpt .PORT_STATUS_MAJOR) n = 1 ∧
        t.get (.hpt .PORT_STATUS_MINOR) n = min (v.toNat % 256) (s.get (.mid .HIR_MINOR_MAX)) ∧
        Frame (fun k => k == ⟨.hpt .PORT_STATUS_HIR_OK, n, 0, 0⟩ || k == ⟨.hpt .PORT_STATUS_MAJOR, n, 0, 0⟩ ||
          k == ⟨.hpt .PORT_STATUS_MINOR, n, 0, 0⟩) s t) ∧
    (p.num = n → s.get (.mid .BOOT_STEP) < 5 ∨ bitsOf v.toNat 8 8 ≠ 1 →
      ∃ t, exec (.hirSel p n v) s = .next t ∧ t.flag (.hpt .PORT_STATUS_HIR_REFUSED) n = true ∧
        Frame (fun k => k == ⟨.hpt .PORT_STATUS_HIR_REFUSED, n, 0, 0⟩) s t) ∧
    (p.num ≠ n → ∃ t, exec (.hirSel p n v) s = .next t ∧ Still s t)) ∧
  (∀ (n : HostPort) (s : State), s.live = true →
    ∃ t, exec (.portReset n) s = .next t ∧ t.flag (.hpt .PORT_STATUS_PORT_RESET) n = true ∧
      t.flag (.hpt .PORT_STATUS_HIR_OK) n = false ∧ t.get (.hpt .PORT_STATUS_MAJOR) n = 0 ∧
      t.get (.hpt .PORT_STATUS_MINOR) n = 0 ∧ t.get (.hpt .ERR_BAD_ACCESS) n = 0 ∧
      t.get (.hpt .ERR_UNNEG_WRITE) n = 0 ∧ t.flag (.mid .QUOTE_CTRL_BUSY) n = false ∧
      t.flag (.mid .QUOTE_CTRL_VALID) n = false ∧ (∀ q ∈ t.quotes, q.who ≠ n) ∧ t.flash = s.flash ∧
      (∀ k : Stirrup, t.get (.hpt .STR_STATUS_OWNER) k =
        (if s.get (.hpt .STR_STATUS_OWNER) k = n then 7 else s.get (.hpt .STR_STATUS_OWNER) k) ∧
        t.get (.hpt .STR_STATUS_GEN) k = (if s.get (.hpt .STR_STATUS_OWNER) k = n then
          (s.get (.hpt .STR_STATUS_GEN) k + 1) % 2 ^ 8 else s.get (.hpt .STR_STATUS_GEN) k)) ∧
      t.safe = s.safe ∧ (∀ d, t.dieUp d = s.dieUp d) ∧
      SameRegs (fun k => k.fld.home == .hpt || k.fld.home == .mid || k.fld.home == .dma || k.fld.home == .chk ||
        k.fld.home == .fwu || poolKeys k || fltKeys k) s t)

/-- The nonce of a port's quote request, as its registers hold it (R431). -/
def Sys2Proof.nonceOf (n : HostPort) (s : State) : List Byte :=
  (List.range 8).flatMap (fun i => beBytes 4 (s.get (.mid .QUOTE_NONCE_NONCE) n i))

/-- Quotes (R431, R432): GO of the port itself queues its nonce, sets BUSY and clears the last answer, and one while BUSY is
1, or of another party, queues nothing; a Tether partner's request on a link that is up queues too, one of a link at a time; a
request that finds the engine idle is taken at once. The engine answers its oldest request: for a port in DATA with VALID, for
a link over Tether; a failure of one for a port shows in FAILED, and any failure is a Notice. With nothing queued nothing is
answered. -/
def Obligations.Quotes : Prop :=
  (∀ (p : Party) (n : HostPort) (v : Word) (s : State), s.live = true → s.gateOf p .mid none = .pass →
    (p.num = n → s.flag (.mid .QUOTE_CTRL_BUSY) n = false →
      ∃ t, exec (.quoteGo p n v) s = .next t ∧ t.flag (.mid .QUOTE_CTRL_BUSY) n = true ∧
        t.flag (.mid .QUOTE_CTRL_VALID) n = false ∧ t.quotes.dropLast = s.quotes ∧
        t.quotes.getLast?.map (fun q => (q.who, q.nonce)) = some (n.val, nonceOf n s) ∧
        t.flag (.mid .QUOTE_CTRL_GO) n = !s.quotes.isEmpty ∧ (∀ i < 52, t.get (.mid .QUOTE_DATA_DATA) n i = 0) ∧
        SameRegs (fun k => k.i == n.val && (k.fld == .mid .QUOTE_CTRL_BUSY || k.fld == .mid .QUOTE_CTRL_VALID ||
          k.fld == .mid .QUOTE_CTRL_GO || k.fld == .mid .QUOTE_CTRL_FAILED || k.fld == .mid .QUOTE_DATA_DATA)) s t ∧
        SameBytes s t) ∧
    (p.num = n → s.flag (.mid .QUOTE_CTRL_BUSY) n = true →
      ∃ t, exec (.quoteGo p n v) s = .next t ∧ Frame (fun k => k == ⟨.mid .QUOTE_CTRL_FAILED, n, 0, 0⟩) s t) ∧
    (p.num ≠ n → ∃ t, exec (.quoteGo p n v) s = .next t ∧ Still s t)) ∧
  (∀ (l : Link) (nonce : List Byte) (s : State), s.live = true →
    (s.flag (.mid .TTH_REV_UP) l = true → s.quotes.any (fun q => q.who == 2 + l.val) = false →
      ∃ t, exec (.tetherQuoteRequest l nonce) s = .next t ∧ t.quotes.dropLast = s.quotes ∧
        t.quotes.getLast?.map (fun q => (q.who, q.nonce)) = some (2 + l.val, nonce) ∧
        SameRegs (fun _ => false) s t ∧ SameBytes s t) ∧
    (s.flag (.mid .TTH_REV_UP) l = false ∨ s.quotes.any (fun q => q.who == 2 + l.val) = true →
      ∃ t, exec (.tetherQuoteRequest l nonce) s = .next t ∧ Still s t)) ∧
  ∀ (now : Now) (s u : State), s.live = true → u = s.atNow now →
    (∀ (q : QuoteReq) (r : List QuoteReq), u.quotes = q :: r →
      (q.who < 2 → ∃ t, exec (.quoteComplete true now) s = .next t ∧ t.flag (.mid .QUOTE_CTRL_BUSY) q.who = false ∧
        t.flag (.mid .QUOTE_CTRL_VALID) q.who = true ∧ t.quotes.length = r.length ∧
        (∀ i < 52, t.get (.mid .QUOTE_DATA_DATA) q.who i = beAt (u.quoteBytes q) (4 * i) 4) ∧ SameBytes u t ∧
        SameRegs (fun k => k.fld == .mid .QUOTE_CTRL_BUSY || k.fld == .mid .QUOTE_CTRL_VALID ||
          k.fld == .mid .QUOTE_CTRL_GO || k.fld == .mid .QUOTE_DATA_DATA) u t) ∧
      (2 ≤ q.who → ∃ t, exec (.quoteComplete true now) s = .next t ∧
        (u.safe = false → .quote (q.who - 2) (u.quoteBytes q) ∈ t.outs) ∧ t.quotes.length = r.length ∧ SameBytes u t ∧
        SameRegs (fun k => k.fld == .mid .QUOTE_CTRL_GO) u t) ∧
      ∃ t, exec (.quoteComplete false now) s = .next t ∧ t.quotes.length = r.length ∧
        (q.who < 2 → t.flag (.mid .QUOTE_CTRL_FAILED) q.who = true ∧ t.flag (.mid .QUOTE_CTRL_BUSY) q.who = false) ∧
        t.get (.flt .CNT) 0 = (u.get (.flt .CNT) 0 + 1) % 2 ^ 64 ∧ SameBytes u t ∧
        SameRegs (fun k => k.fld == .mid .QUOTE_CTRL_BUSY || k.fld == .mid .QUOTE_CTRL_FAILED ||
          k.fld == .mid .QUOTE_CTRL_GO || fltKeys k) u t) ∧
    (u.quotes = [] → ∀ ok : Bool, ∃ t, exec (.quoteComplete ok now) s = .next t ∧ Still u t)

-- Channels

/-- The keys of one channel, and what an event may touch. -/
def Sys2Proof.chanKeys (ch : Nat) (k : Key) : Bool := (k.fld.home == .cch && k.i == ch) || evcKeys k

/-- The settings of the control register of a channel, which every write to it takes. -/
def Sys2Proof.ctlKeys (ch : Nat) (k : Key) : Bool :=
  k.i == ch && (k.fld == .cch .CTRL_HO_MODULE || k.fld == .cch .CTRL_HO_SLOT || k.fld == .cch .CTRL_ALT_DIE ||
    k.fld == .cch .CTRL_PRIORITY)

/-- What the end of a run may touch: the channel's registers in CCH, REF and QRC, the units and clusters with their gating,
the pools' marks and reserves, and the event controller. -/
def Sys2Proof.endKeys (ch : Nat) (k : Key) : Bool :=
  ((k.fld.home == .cch || k.fld.home == .ref || k.fld.home == .qrc) && k.i == ch) || k.fld.home == .cus || k.fld.home == .pwr ||
  poolKeys k

/-- A run has ended in a state: the channel holds no unit, costs nothing, and nothing of it waits. -/
def Sys2Proof.RunEnded (ch st : Nat) (s t : State) : Prop :=
  t.get (.cch .STATUS_STATE) ch = st ∧ t.get (.cch .STATUS_COST) ch = 0 ∧ t.flag (.cch .CTRL_STOP) ch = false ∧
  t.units = s.units.filter (fun u => u.ch != ch) ∧ SameRegs (endKeys ch) s t ∧ SameBytes s t

/-- The four actions of the control register of a channel, each as its command. -/
def Sys2Proof.ctlCmds (p : Party) (d : Die) (ch : Chan) (v : Word) : List Instr :=
  [.cchStart p d ch v, .cchStop p d ch v, .moveDie p d ch v, .handover p d ch v]

/-- The state that a command leaves, or the one before it where it does not complete. -/
def Sys2Proof.leaves (i : Instr) (s : State) : State :=
  match exec i s with
  | .next t => t
  | _ => s

/-- The state that the actions of a written word leave, each written alone with the same settings, in the order START, STOP,
MOVE_DIE, HANDOVER. `own` is the action that the command itself sets. -/
def Sys2Proof.ctlInTurn (p : Party) (d : Die) (ch : Chan) (v : Word) (own : Nat) (s : State) : State :=
  ((ctlCmds p d ch (BitVec.ofNat 32 (v.toNat / 16 * 16))).zipIdx.filter (fun i => i.2 == own || bitOf v.toNat i.2)).foldl
    (fun s i => leaves i.1 s) s

/-- The control registers of a channel (R12, R167, R204, R205, R207), which act only in the window of its home die (R22):
every write takes the settings. START of a channel that is not started waits for its boundary, or is refused where its domain
is not enabled; STOP ends at once a channel that waits, or that has no picture in progress, and any other that runs after its
picture; MOVE_DIE leaves a running channel LEAVING and changes the home of a stopped one; HANDOVER leaves a running one
LEAVING and offers it to a module that a link reaches. An action whose bit still reads 1, and one that its state does not
allow, has no effect. A write with several actions leaves what they leave one after the other. DROP_LT is noted until it takes
effect. That STOP ends a waiting channel at once, that a domain that is not enabled refuses START at the write, and the order
of several actions are the model's reading (log entries 70, 65). -/
def Obligations.ChannelControl : Prop :=
  ∀ (p : Party) (d : Die) (ch : Chan) (v : Word) (s : State), s.live = true → s.gateOf p .cch (some d.val) = .pass →
    (s.get (.cch .CTRL_HOME_DIE) ch = d →
      (∀ i ∈ ctlCmds p d ch v, ∃ t, exec i s = .next t ∧ t.get (.cch .CTRL_HO_MODULE) ch = bitsOf v.toNat 4 2 ∧
        t.get (.cch .CTRL_HO_SLOT) ch = bitsOf v.toNat 8 4 ∧ t.get (.cch .CTRL_ALT_DIE) ch = bitsOf v.toNat 13 1 ∧
        t.get (.cch .CTRL_PRIORITY) ch = bitsOf v.toNat 16 4) ∧
      (∀ i ∈ (ctlCmds p d ch v).zipIdx, ∃ t, exec i.1 s = .next t ∧ Still (ctlInTurn p d ch v i.2 s) t) ∧
      (bitsOf v.toNat 1 3 = 0 →
        (s.flag (.cch .CTRL_START) ch = true ∨ s.chStarted ch = true →
          ∃ t, exec (.cchStart p d ch v) s = .next t ∧ Frame (ctlKeys ch) s t) ∧
        (s.flag (.cch .CTRL_START) ch = false → s.chStarted ch = false →
          (s.domOn (s.get (.cch .FMT_DOMAIN) ch 0 1) = true → ∃ t, exec (.cchStart p d ch v) s = .next t ∧
            t.get (.cch .STATUS_STATE) ch = chWAITING ∧ t.flag (.cch .CTRL_START) ch = true ∧
            Frame (fun k => chanKeys ch k || k.fld.home == .pwr) s t) ∧
          (s.domOn (s.get (.cch .FMT_DOMAIN) ch 0 1) = false → ∃ t, exec (.cchStart p d ch v) s = .next t ∧
            t.get (.cch .STATUS_STATE) ch = chREFUSED ∧ t.get (.cch .STATUS_REASON) ch = whyFORMAT ∧
            t.flag (.cch .STATUS_CFG_REFUSED) ch = true ∧ Frame (chanKeys ch) s t))) ∧
      (bitOf v.toNat 0 = false → bitsOf v.toNat 2 2 = 0 →
        (s.flag (.cch .CTRL_STOP) ch = true ∨ s.chStarted ch = false →
          ∃ t, exec (.cchStop p d ch v) s = .next t ∧ Frame (ctlKeys ch) s t) ∧
        (s.flag (.cch .CTRL_STOP) ch = false →
          (s.get (.cch .STATUS_STATE) ch = chWAITING ∨ s.chStarted ch = true ∧ s.picsDone ch = true →
            ∃ t, exec (.cchStop p d ch v) s = .next t ∧ RunEnded ch chSTOPPED s t) ∧
          (s.get (.cch .STATUS_STATE) ch = chRUNNING ∨ s.get (.cch .STATUS_STATE) ch = chLEAVING → s.picsDone ch = false →
            ∃ t, exec (.cchStop p d ch v) s = .next t ∧ t.get (.cch .STATUS_STATE) ch = s.get (.cch .STATUS_STATE) ch ∧
              t.flag (.cch .CTRL_STOP) ch = true ∧ t.get (.cch .xSTOP) ch = 1 ∧
              (s.get (.cch .STATUS_STATE) ch = chLEAVING → t.flag (.cch .CTRL_MOVE_DIE) ch = false ∧
                t.flag (.cch .CTRL_HANDOVER) ch = false) ∧ Frame (chanKeys ch) s t))) ∧
      (bitsOf v.toNat 0 2 = 0 → bitOf v.toNat 3 = false →
        (s.flag (.cch .CTRL_MOVE_DIE) ch = true ∨
            s.get (.cch .STATUS_STATE) ch ≠ chRUNNING ∧ s.get (.cch .STATUS_STATE) ch ≠ chSTOPPED →
          ∃ t, exec (.moveDie p d ch v) s = .next t ∧ Frame (ctlKeys ch) s t) ∧
        (s.flag (.cch .CTRL_MOVE_DIE) ch = false →
          (s.get (.cch .STATUS_STATE) ch = chRUNNING → ∃ t, exec (.moveDie p d ch v) s = .next t ∧
            t.get (.cch .STATUS_STATE) ch = chLEAVING ∧ t.flag (.cch .CTRL_MOVE_DIE) ch = true ∧ Frame (chanKeys ch) s t) ∧
          (s.get (.cch .STATUS_STATE) ch = chSTOPPED → ∃ t, exec (.moveDie p d ch v) s = .next t ∧
            t.get (.cch .CTRL_HOME_DIE) ch = 1 - d.val ∧ t.get (.cch .STATUS_STATE) ch = chSTOPPED ∧
            Frame (fun k => ctlKeys ch k || k == ⟨.cch .CTRL_HOME_DIE, ch, 0, 0⟩) s t))) ∧
      (bitsOf v.toNat 0 3 = 0 →
        (s.flag (.cch .CTRL_HANDOVER) ch = true ∨ s.get (.cch .STATUS_STATE) ch ≠ chRUNNING ∨ s.rasterRuns (s.chDom ch) = false →
          ∃ t, exec (.handover p d ch v) s = .next t ∧ Frame (ctlKeys ch) s t) ∧
        (s.flag (.cch .CTRL_HANDOVER) ch = false → s.get (.cch .STATUS_STATE) ch = chRUNNING → s.rasterRuns (s.chDom ch) = true →
          ∃ t, exec (.handover p d ch v) s = .next t ∧ t.get (.cch .STATUS_STATE) ch = chLEAVING ∧
            t.flag (.cch .CTRL_HANDOVER) ch = true ∧ t.get (.cch .xHO) ch = 1 ∧ Frame (chanKeys ch) s t ∧
            ∀ l, s.linkTo (bitsOf v.toNat 4 2) = some l → ∃ o : Offer, Out.hoOffer (bitsOf v.toNat 4 2) o ∈ t.outs ∧
              o.ch = ch ∧ o.nextSeq = s.get (.shp .SEQ_NEXT) d (s.chGet (.cch .FLOW_OUT_FLOW) ch)))) ∧
    (s.get (.cch .CTRL_HOME_DIE) ch ≠ d → ∀ i ∈ ctlCmds p d ch v, ∃ t, exec i s = .next t ∧ Still s t) ∧
    (s.gateOf p .ref (some d.val) = .pass →
      (s.get (.cch .CTRL_HOME_DIE) ch = d →
        ∃ t, exec (.dropLt p d ch v) s = .next t ∧ t.flag (.ref .CTRL_DROP_LT) ch = true ∧
          Frame (fun k => k == ⟨.ref .CTRL_DROP_LT, ch, 0, 0⟩) s t) ∧
      (s.get (.cch .CTRL_HOME_DIE) ch ≠ d → ∃ t, exec (.dropLt p d ch v) s = .next t ∧ Still s t))

/-- The channels of a die that a restart left to start again in a domain (R470). -/
def Sys2Proof.resumers (d dom : Nat) (s : State) : List Nat :=
  (s.chansOf d).filter (fun ch => s.get (.cch .xRESUME) ch != 0 && s.get (.cch .xRESUME) ch != 3 &&
    s.get (.cch .STATUS_STATE) ch == chSTOPPED && s.get (.cch .FMT_DOMAIN) ch 0 1 == dom)

/-- A channel has opened a picture: its settings are held. -/
def Sys2Proof.Opens (ch n : Nat) (t : State) : Prop := t.get (.cch .xPIC) ch = n + 1 ∧ t.hasPic ch n = true

/-- A channel runs on a die, and has opened a picture. -/
def Sys2Proof.RunsFrom (d ch n : Nat) (t : State) : Prop :=
  t.get (.cch .STATUS_STATE) ch = chRUNNING ∧ t.get (.cch .CTRL_HOME_DIE) ch = d ∧ Opens ch n t

/-- A start is refused for one of the reasons that hold (R207). -/
def Sys2Proof.RefusedFor (ch : Nat) (why : List Nat) (t : State) : Prop :=
  t.get (.cch .STATUS_STATE) ch = chREFUSED ∧ t.get (.cch .STATUS_REASON) ch ∈ why ∧
  t.flag (.cch .STATUS_CFG_REFUSED) ch = true ∧ t.flag (.cch .CTRL_START) ch = false

/-- A start waits for clusters to be ungated (R485): nothing else changes. -/
def Sys2Proof.WaitsOn (ch : Nat) (s t : State) : Prop :=
  Frame (fun k => k == ⟨.cch .xP_AT, ch, 0, 0⟩ || k.fld.home == .pwr || poolKeys k) s t

/-- What a start of a channel on its home die at picture `n` comes to (R33, R207): it runs; or waits; or is refused there, and
then starts on the other die where ALT_DIE names it, that die is up and does not refuse it; or is refused. -/
def Sys2Proof.StartsAt (ch n : Nat) (u t : State) : Prop :=
  let d := u.get (.cch .CTRL_HOME_DIE) ch
  match startOn d ch n true u with
  | .started _ => RunsFrom d ch n t
  | .later _ => WaitsOn ch u t
  | .refused why =>
    if (u.flag (.cch .CTRL_ALT_DIE) ch && u.dieUp (1 - d)) = true then
      match startOn (1 - d) ch n true u with
      | .started _ => RunsFrom (1 - d) ch n t
      | .later _ => WaitsOn ch u t
      | .refused _ => RefusedFor ch why t
    else RefusedFor ch why t

/-- A waiting channel may start now: its die is up, and neither the safe state, nor Winter, nor the way into or out of it
holds it. -/
def Sys2Proof.mayStart (ch : Nat) (u : State) : Bool :=
  !u.safe && u.dieUp (u.get (.cch .CTRL_HOME_DIE) ch) && u.get (.cch .STATUS_STATE) ch == chWAITING &&
  decide (u.get (.pwr .STATUS_SEASON) < 2) && u.get (.pwr .xWIN_STEP) != 2

/-- The channel of a START record may start now (R427): start-up has ended, its die is up, and the time base is in a state that the
record allows, or has locked before. -/
def Sys2Proof.recordDue (ch : Nat) (u : State) : Bool :=
  u.get (.mid .xSTART) ch != 0 && !u.safe && decide (7 ≤ u.get (.mid .BOOT_STEP)) && u.dieUp (u.get (.cch .CTRL_HOME_DIE) ch) &&
  u.tbState != tbFREE && (u.get (.mid .xSTART) ch == 1 || u.tbState == tbLOCKED || u.tbState == tbUNLOCKED ||
    decide (8 ≤ u.get (.mid .BOOT_STEP)))

/-- A channel of a die that went down may start on the other die (R22, R472): it is marked for that, its die is down and the
other one up, and its boundary has come. -/
def Sys2Proof.mayFailOver (ch : Nat) (u : State) : Bool :=
  !u.safe && u.get (.cch .xRESUME) ch == 2 && !u.dieUp (u.get (.cch .CTRL_HOME_DIE) ch) &&
  u.dieUp (1 - u.get (.cch .CTRL_HOME_DIE) ch) && u.failoverDue ch

/-- The channels that wait for a failover from a channel's die. -/
def Sys2Proof.failingOver (ch : Nat) (u : State) : List Nat :=
  (List.range 48).filter (fun c => u.get (.cch .CTRL_HOME_DIE) c == u.get (.cch .CTRL_HOME_DIE) ch && u.get (.cch .xRESUME) c == 2)

/-- The same with the settings that the records give the channels that wait (R472). -/
def Sys2Proof.reloaded (ch : Nat) (u : State) : State := reloadPairs (fun a => (failingOver ch u).any (fun c => pairOfChan c a)) u

/-- Another waiting channel of the same domain goes first: the one of the smaller PRIORITY, then the lower number. -/
def Sys2Proof.failsOverLater (ch : Nat) (w : State) (l : List Nat) : Bool :=
  l.any (fun c => w.get (.cch .FMT_DOMAIN) c 0 1 == w.get (.cch .FMT_DOMAIN) ch 0 1 &&
    decide (w.get (.cch .CTRL_PRIORITY) c < w.get (.cch .CTRL_PRIORITY) ch ∨
      (w.get (.cch .CTRL_PRIORITY) c = w.get (.cch .CTRL_PRIORITY) ch ∧ c < ch)))

/-- Starts (R33, R147, R207, R427, R470, R472, R485, R489): a waiting channel starts at its boundary, is refused where its
domain is not enabled or the start is, or waits on; one that entered Winter runs again; the channel of a START record waits
for its boundary once the time base allows it; the channels of a die that restarted start again on it, and with FAILOVER on
the other die, in order of priority, with the numbers of the mirror; one that does not fit there waits for its own die.
Otherwise nothing changes. That a domain that is not enabled refuses the start at the boundary too is the model's reading (log
entry 65). -/
def Obligations.ChannelStarts : Prop :=
  (∀ (ch : Chan) (now : Now) (s u : State), s.live = true → u = s.atNow now →
    (mayStart ch u = false → ∃ t, exec (.channelStart ch now) s = .next t ∧ Frame poolKeys u t) ∧
    (mayStart ch u = true →
      (u.domOn (u.get (.cch .FMT_DOMAIN) ch 0 1) = false → ∃ t, exec (.channelStart ch now) s = .next t ∧
        RefusedFor ch [whyFORMAT] t ∧ Frame (fun k => chanKeys ch k || poolKeys k) u t) ∧
      (u.domOn (u.get (.cch .FMT_DOMAIN) ch 0 1) = true →
        (u.atStart ch = false → ∃ t, exec (.channelStart ch now) s = .next t ∧ Frame poolKeys u t) ∧
        (u.atStart ch = true → u.get (.cch .xRESUME) ch = 3 → ∃ t, exec (.channelStart ch now) s = .next t ∧
          RunsFrom (u.get (.cch .CTRL_HOME_DIE) ch) ch (u.picNow (u.get (.cch .FMT_DOMAIN) ch 0 1)) t) ∧
        (u.atStart ch = true → u.get (.cch .xRESUME) ch ≠ 3 → ∃ t, exec (.channelStart ch now) s = .next t ∧
          StartsAt ch (u.picNow (u.get (.cch .FMT_DOMAIN) ch 0 1)) u t))) ∧
    (recordDue ch u = false → ∃ t, exec (.startupChannelStart ch now) s = .next t ∧ Frame poolKeys u t) ∧
    (recordDue ch u = true →
      (u.chStarted ch = true → ∃ t, exec (.startupChannelStart ch now) s = .next t ∧ t.get (.mid .xSTART) ch = 0 ∧
        Frame (fun k => k == ⟨.mid .xSTART, ch, 0, 0⟩ || poolKeys k) u t) ∧
      (u.chStarted ch = false → u.domOn (u.get (.cch .FMT_DOMAIN) ch 0 1) = true →
        ∃ t, exec (.startupChannelStart ch now) s = .next t ∧ t.get (.mid .xSTART) ch = 0 ∧
          t.get (.cch .STATUS_STATE) ch = chWAITING ∧ t.flag (.cch .CTRL_START) ch = true ∧
          Frame (fun k => k == ⟨.mid .xSTART, ch, 0, 0⟩ || chanKeys ch k || k.fld.home == .pwr || poolKeys k) u t) ∧
      (u.chStarted ch = false → u.domOn (u.get (.cch .FMT_DOMAIN) ch 0 1) = false →
        ∃ t, exec (.startupChannelStart ch now) s = .next t ∧ t.get (.mid .xSTART) ch = 0 ∧ RefusedFor ch [whyFORMAT] t ∧
          Frame (fun k => k == ⟨.mid .xSTART, ch, 0, 0⟩ || chanKeys ch k || poolKeys k) u t))) ∧
  (∀ (d : Die) (dom : Domain) (now : Now) (s u : State), s.live = true → u = s.atNow now →
    (u.safe = true ∨ u.dieUp d = false ∨ u.pastUp dom = false ∨ u.inWinter = true ∨ resumers d dom u = [] →
      ∃ t, exec (.restartChannelResume d dom now) s = .next t ∧ Frame poolKeys u t) ∧
    (u.safe = false → u.dieUp d = true → u.pastUp dom = true → u.inWinter = false →
      (∀ ch, resumers d dom u = [ch] →
        ∃ t, exec (.restartChannelResume d dom now) s = .next t ∧ StartsAt ch (u.picNow dom) u t) ∧
      ∃ t, exec (.restartChannelResume d dom now) s = .next t ∧ ∀ c : Chan,
        (c.val ∉ resumers d dom u → t.get (.cch .STATUS_STATE) c = u.get (.cch .STATUS_STATE) c) ∧
        (c.val ∈ resumers d dom u → t.get (.cch .STATUS_STATE) c ∈ [chRUNNING, chREFUSED, chSTOPPED]))) ∧
  ∀ (ch : Chan) (now : Now) (s u w : State), s.live = true → u = s.atNow now → w = reloaded ch u →
    (mayFailOver ch u = false → ∃ t, exec (.failoverStart ch now) s = .next t ∧ Frame poolKeys u t) ∧
    (mayFailOver ch u = true →
      (failsOverLater ch w (failingOver ch u) = true ∨ w.failoverDue ch = false →
        ∃ t, exec (.failoverStart ch now) s = .next t ∧ Frame poolKeys w t) ∧
      (failsOverLater ch w (failingOver ch u) = false → w.failoverDue ch = true →
        ∃ t, exec (.failoverStart ch now) s = .next t ∧
          match startOn (1 - u.get (.cch .CTRL_HOME_DIE) ch) ch (w.picNow (w.get (.cch .FMT_DOMAIN) ch 0 1)) true w with
          | .started _ =>
            RunsFrom (1 - u.get (.cch .CTRL_HOME_DIE) ch) ch (w.picNow (w.get (.cch .FMT_DOMAIN) ch 0 1)) t ∧
            (w.get (.shp .xMIRROR) (u.get (.cch .CTRL_HOME_DIE) ch) (w.get (.cch .FLOW_OUT_FLOW) ch 0 1) ≠ 0 →
              t.get (.shp .SEQ_NEXT) (1 - u.get (.cch .CTRL_HOME_DIE) ch) (w.get (.cch .FLOW_OUT_FLOW) ch 0 1) =
                (w.get (.shp .xMIRROR) (u.get (.cch .CTRL_HOME_DIE) ch) (w.get (.cch .FLOW_OUT_FLOW) ch 0 1) - 1) % 2 ^ 32)
          | .later _ => WaitsOn ch w t
          | .refused _ => t.get (.cch .xRESUME) ch = 1 ∧ Frame (fun k => k == ⟨.cch .xRESUME, ch, 0, 0⟩ || poolKeys k) w t))

/-- An offer is one that the module takes (R205, R413): its minor is known, the channel of that number is STOPPED with no
handover of its own, its die is up, and a start with the offered settings is refused for nothing but what may have changed by
the target picture. -/
def Sys2Proof.offerTaken (o : Offer) (u : State) : Bool :=
  let w := takeOffer o u
  let d := w.get (.cch .CTRL_HOME_DIE) o.ch
  decide (o.hirMinor ≤ u.get (.mid .HIR_MINOR_MAX)) && u.get (.cch .STATUS_STATE) o.ch == chSTOPPED && u.get (.cch .xHO) o.ch == 0 &&
  (w.dieUp d && match startOn d o.ch o.picture true w with
    | .refused why => why.all (fun r => decide (whyFIT < r ∧ r ≠ whyFORMAT))
    | _ => true)

/-- The boundary of a channel's armed handover has come. -/
def Sys2Proof.handoverDue (ch : Nat) (u : State) : Bool :=
  !u.safe && u.rasterRuns (u.get (.cch .xHO_DOM) ch) &&
  decide (u.get (.cch .xHO_PIC) ch ≤ u.picNow (u.get (.cch .xHO_DOM) ch))

/-- The tiles of a group that run with other settings than a digest tells of (R206). -/
def Sys2Proof.tilesOff (grp digest : Nat) (s : State) : List Nat :=
  (List.range 48).filter (fun ch => (s.get (.cch .STATUS_STATE) ch == chRUNNING || s.get (.cch .STATUS_STATE) ch == chLEAVING) &&
    s.get (.cch .TIME_TILE_GRP) ch 0 1 == grp && s.tileDigestOf ch != digest)

/-- Handovers between modules and tile groups (R204 to R206, R413, R473): an offer on a link that is up is answered, and where
it is taken, its settings, target picture and sequence number are kept; the answer arms the handover or lets the channel run
on, as its timeout does with a Notice; an offer that arrives, and one that an answer or its timeout ends, assert TETHER_HO; at
the target picture the sender sends the number that follows, from its counter or, with its die down, from the mirror, and
stops after the picture before; the receiver starts there, and numbers on from what the sender's module sends; every running
tile of a group whose settings give another digest is marked. Otherwise nothing changes. How an offer is spelled, which offers
are taken, and when the receiver starts, are the model's reading (log entry 71), and so is at which moments TETHER_HO is
asserted (log entry 114). -/
def Obligations.Handovers : Prop :=
  (∀ (l : Link) (o : Offer) (now : Now) (s u : State), s.live = true → u = s.atNow now →
    (u.safe = true ∨ u.flag (.mid .TTH_REV_UP) l = false ∨ 48 ≤ o.ch →
      ∃ t, exec (.handoverOffer l o now) s = .next t ∧ t.outs = u.outs ∧ Still u t) ∧
    (u.safe = false → u.flag (.mid .TTH_REV_UP) l = true → o.ch < 48 →
      ∃ t, exec (.handoverOffer l o now) s = .next t ∧ (u.outs ++ [.hoReply l o.ch (offerTaken o u)]) <+: t.outs ∧
        t.flag (.evc .SRC_CFG_PENDING) 903 = true ∧
        (offerTaken o u = true → t.get (.cch .xHO) o.ch = 3 ∧ t.get (.cch .xHO_PIC) o.ch = o.picture ∧
          t.get (.cch .xHO_SEQ) o.ch = o.nextSeq % 2 ^ 32 ∧ t.get (.cch .xHO_LINK) o.ch = l.val ∧
          Frame (fun k => (k.i == o.ch && (k.fld.home == .cch || k.fld.home == .qrc || k.fld.home == .ref)) || evcKeys k) u t) ∧
        (offerTaken o u = false → Frame evcKeys u t))) ∧
  (∀ (ch : Chan) (now : Now) (s u : State), s.live = true → u = s.atNow now →
    (u.safe = false → u.get (.cch .xHO) ch = 1 → u.get (.cch .STATUS_STATE) ch = chLEAVING →
      (∃ t, exec (.handoverReply ch true now) s = .next t ∧ t.get (.cch .xHO) ch = 2 ∧
        t.flag (.evc .SRC_CFG_PENDING) 903 = true ∧ Frame (fun k => k == ⟨.cch .xHO, ch, 0, 0⟩ || evcKeys k) u t) ∧
      ∃ t, exec (.handoverReply ch false now) s = .next t ∧ t.get (.cch .xHO) ch = 0 ∧
        t.get (.cch .STATUS_STATE) ch = chRUNNING ∧ t.flag (.cch .CTRL_HANDOVER) ch = false ∧
        t.get (.cch .STATUS_REASON) ch = whyFIT ∧ t.flag (.evc .SRC_CFG_PENDING) 903 = true ∧ Frame (chanKeys ch) u t) ∧
    (u.safe = true ∨ u.get (.cch .xHO) ch ≠ 1 ∨ u.get (.cch .STATUS_STATE) ch ≠ chLEAVING →
      ∀ ok : Bool, ∃ t, exec (.handoverReply ch ok now) s = .next t ∧ Still u t) ∧
    (u.safe = false → u.get (.cch .xHO) ch = 1 → u.expired (.cch .xHO_DUE) ch = true →
      ∃ t, exec (.tetherHoTimeout ch now) s = .next t ∧ t.get (.cch .xHO) ch = 0 ∧
        t.get (.cch .STATUS_STATE) ch = chRUNNING ∧ t.flag (.cch .CTRL_HANDOVER) ch = false ∧
        t.flag (.evc .SRC_CFG_PENDING) 903 = true ∧ t.get (.flt .CNT) 0 = (u.get (.flt .CNT) 0 + 1) % 2 ^ 64 ∧
        Frame (fun k => chanKeys ch k || fltKeys k) u t) ∧
    (u.safe = true ∨ u.get (.cch .xHO) ch ≠ 1 ∨ u.expired (.cch .xHO_DUE) ch = false →
      ∃ t, exec (.tetherHoTimeout ch now) s = .next t ∧ Still u t)) ∧
  (∀ (ch : Chan) (next : Nat) (now : Now) (s u : State) (d h : Nat), s.live = true → u = s.atNow now →
    d = u.get (.cch .CTRL_HOME_DIE) ch → h = u.get (.cch .xHO_FLOW) ch - 1 →
    (handoverDue ch u = false ∨ (u.get (.cch .xHO) ch ≠ 2 ∧ (u.get (.cch .xHO) ch ≠ 3 ∨ u.get (.cch .STATUS_STATE) ch ≠ chSTOPPED)) →
      ∃ t, exec (.handoverPicture ch ⟨next, now⟩) s = .next t ∧ Frame poolKeys u t) ∧
    (handoverDue ch u = true →
      (u.get (.cch .xHO) ch = 2 → u.dieUp d = true →
        ∃ t, exec (.handoverPicture ch ⟨next, now⟩) s = .next t ∧ t.get (.cch .xHO) ch = 0 ∧
          .hoSeq ch (u.get (.shp .SEQ_NEXT) d h) ∈ t.outs ∧
          (u.picsDone ch = true → RunEnded ch chSTOPPED u t) ∧
          (u.picsDone ch = false → t.get (.cch .xSTOP) ch = 1 ∧
            t.get (.cch .STATUS_STATE) ch = u.get (.cch .STATUS_STATE) ch ∧ Frame (fun k => chanKeys ch k || poolKeys k) u t)) ∧
      (u.get (.cch .xHO) ch = 2 → u.dieUp d = false →
        ∃ t, exec (.handoverPicture ch ⟨next, now⟩) s = .next t ∧ .hoSeq ch (u.get (.shp .xMIRROR) d h - 1) ∈ t.outs ∧
          t.get (.cch .xHO) ch = 0 ∧ Frame (fun k => k == ⟨.cch .xHO, ch, 0, 0⟩ || poolKeys k) u t) ∧
      (u.get (.cch .xHO) ch = 3 → u.get (.cch .STATUS_STATE) ch = chSTOPPED →
        (u.dieUp d = false → ∃ t, exec (.handoverPicture ch ⟨next, now⟩) s = .next t ∧ t.get (.cch .xHO) ch = 0 ∧
          Frame (fun k => k == ⟨.cch .xHO, ch, 0, 0⟩ || poolKeys k) u t) ∧
        (u.dieUp d = true → ∃ t, exec (.handoverPicture ch ⟨next, now⟩) s = .next t ∧
          StartsAt ch (u.picNow (u.get (.cch .xHO_DOM) ch)) (u.put (.cch .xHO) 0 ch) t ∧
          (t.get (.cch .STATUS_STATE) ch = chRUNNING →
            t.get (.shp .SEQ_NEXT) (t.get (.cch .CTRL_HOME_DIE) ch) h = next % 2 ^ 32))))) ∧
  ∀ (l : Link) (grp digest : Nat) (s : State), s.live = true →
    (s.safe = true ∨ s.flag (.mid .TTH_REV_UP) l = false ∨ grp = 0 ∨ tilesOff grp digest s = [] →
      ∃ t, exec (.tileDigest l grp digest) s = .next t ∧ Still s t) ∧
    (s.safe = false → s.flag (.mid .TTH_REV_UP) l = true → grp ≠ 0 →
      ∃ t, exec (.tileDigest l grp digest) s = .next t ∧
        (∀ ch ∈ tilesOff grp digest s, t.flag (.cch .STATUS_TILE_MISMATCH) ch = true) ∧
        Frame (fun k => (k.fld == .cch .STATUS_TILE_MISMATCH && (tilesOff grp digest s).contains k.i) || fltKeys k) s t)

/-- A start of a channel on a die at a picture is neither refused nor put off (R33, R207). -/
def Sys2Proof.Starts (d ch n : Nat) (fresh : Bool) (s : State) : Bool :=
  match startOn d ch n fresh s with
  | .started _ => true
  | _ => false

/-- A start of a channel on a die at a picture is refused. -/
def Sys2Proof.Refused (d ch n : Nat) (fresh : Bool) (s : State) : Bool :=
  match startOn d ch n fresh s with
  | .refused _ => true
  | _ => false

/-- A die move of a channel is due (R204): 1 ms has passed since MOVE_DIE, and the channel has not been stopped. -/
def Sys2Proof.moveDue (ch : Nat) (u : State) : Bool :=
  u.chRuns ch && u.get (.cch .STATUS_STATE) ch == chLEAVING && u.get (.cch .xMOVE_AT) ch != 0 &&
  elapsedNs (u.get (.cch .xMOVE_AT) ch - 1) u.osc msNs && u.get (.cch .xSTOP) ch == 0

/-- A stop and a start on the boundary of picture `n` (R193): the channel runs on with the new settings, at once or, in a
domain of another rate, from its first boundary there; it keeps its settings where the start waits, or is refused for its
format or cap; and it ends after its picture where the start is refused otherwise. -/
def Sys2Proof.RestartsAt (ch n : Nat) (u t : State) : Prop :=
  let d := u.get (.cch .CTRL_HOME_DIE) ch
  let old := u.chDom ch
  let dom := u.get (.cch .FMT_DOMAIN) ch 0 1
  let ends := fun st => (u.picsDone ch = true → t.get (.cch .STATUS_STATE) ch = st) ∧
    (u.picsDone ch = false → t.get (.cch .xSTOP) ch = st + 1 ∧ t.get (.cch .STATUS_STATE) ch = u.get (.cch .STATUS_STATE) ch)
  match startOn d ch n false u with
  | .started _ => if u.domNum old * u.domDenOf dom = u.domNum dom * u.domDenOf old then RunsFrom d ch n t else ends chWAITING
  | .later _ => Opens ch n t ∧ t.get (.cch .xBANK) ch = picBank n
  | .refused why =>
    if why.contains whyFORMAT = true then Opens ch n t ∧ t.get (.cch .STATUS_REASON) ch = whyFORMAT
    else if why.contains whyGUARD = true then Opens ch n t ∧ t.get (.cch .STATUS_REASON) ch = whyGUARD
    else ends chREFUSED ∧ t.get (.cch .STATUS_REASON) ch ∈ why

/-- Picture boundaries and rows (R20, R179, R186, R193, R201, R202, R204): a boundary opens the picture with its settings
held, ends a channel that was to stop and has no picture in progress, stops and starts one whose settings call for it, and
plans anew where a unit has been lost; a die move takes effect at one, or is given up where the other die is down or refuses
it; a row's lines become READY once; at a decode row's deadline its work begins, and a decode stripe that ends is no longer at
work. What is not due changes nothing beyond the marks of the pools, once every decode row past its latest commit has been
committed. -/
def Obligations.Pictures : Prop :=
  (∀ (ch : Chan) (now : Now) (s u : State), s.live = true → u = s.atNow now →
    (u.chRuns ch = false ∨ u.newPic ch = none →
      ∃ t, exec (.pictureBoundary ch now) s = .next t ∧ Frame poolKeys u t) ∧
    (moveDue ch u = false ∨ u.newPic ch = none → ∃ t, exec (.dieMove ch now) s = .next t ∧ Frame poolKeys u t) ∧
    ∀ n, u.chRuns ch = true → u.newPic ch = some n →
      (u.leaves ch n = true → ∃ t, exec (.pictureBoundary ch now) s = .next t ∧ Frame poolKeys u t) ∧
      (u.leaves ch n = false →
        (u.get (.cch .xSTOP) ch ≠ 0 →
          (u.picsDone ch = true → ∃ t, exec (.pictureBoundary ch now) s = .next t ∧
            RunEnded ch ((u.get (.cch .xSTOP) ch - 1) % 8) u t) ∧
          (u.picsDone ch = false → ∃ t, exec (.pictureBoundary ch now) s = .next t ∧ Frame poolKeys u t)) ∧
        (u.get (.cch .xSTOP) ch = 0 →
          (u.mustRestart ch = true → ∃ t, exec (.pictureBoundary ch now) s = .next t ∧ RestartsAt ch n u t) ∧
          (u.mustRestart ch = false → u.flag (.cch .xREPLAN) ch = false →
            ∃ t, exec (.pictureBoundary ch now) s = .next t ∧ Opens ch n t ∧
              t.get (.cch .STATUS_STATE) ch = u.get (.cch .STATUS_STATE) ch ∧
              t.get (.cch .CTRL_HOME_DIE) ch = u.get (.cch .CTRL_HOME_DIE) ch) ∧
          (u.mustRestart ch = false → u.flag (.cch .xREPLAN) ch = true →
            ∃ t, exec (.pictureBoundary ch now) s = .next t ∧
              (Opens ch n t ∨ t.get (.cch .xSTOP) ch = chSHED + 1 ∨ t.get (.cch .STATUS_STATE) ch = chSHED)))) ∧
      (moveDue ch u = true →
        (u.dieUp (1 - u.get (.cch .CTRL_HOME_DIE) ch) = true →
          Starts (1 - u.get (.cch .CTRL_HOME_DIE) ch) ch n false u = true →
          ∃ t, exec (.dieMove ch now) s = .next t ∧ RunsFrom (1 - u.get (.cch .CTRL_HOME_DIE) ch) ch n t ∧
            t.flag (.cch .CTRL_MOVE_DIE) ch = false ∧
            t.get (.shp .SEQ_NEXT) (1 - u.get (.cch .CTRL_HOME_DIE) ch) (u.get (.cch .FLOW_OUT_FLOW) ch 0 1) =
              u.get (.shp .SEQ_NEXT) (u.get (.cch .CTRL_HOME_DIE) ch) (u.get (.cch .FLOW_OUT_FLOW) ch 0 1)) ∧
        (u.dieUp (1 - u.get (.cch .CTRL_HOME_DIE) ch) = false ∨
            Refused (1 - u.get (.cch .CTRL_HOME_DIE) ch) ch n false u = true →
          u.mustRestart ch = false → u.flag (.cch .xREPLAN) ch = false →
          ∃ t, exec (.dieMove ch now) s = .next t ∧ RunsFrom (u.get (.cch .CTRL_HOME_DIE) ch) ch n t ∧
            t.flag (.cch .CTRL_MOVE_DIE) ch = false ∧ t.flag (.cch .STATUS_CFG_REFUSED) ch = true))) ∧
  (∀ (ch : Chan) (row : Nat) (now : Now) (s u : State), s.live = true → u = s.atNow now →
    (∀ n, u.chRuns ch = true → u.chDecodes ch = false → u.rowPic ch row = some n → u.get (.cch .xROW) ch row (n % 2) = 0 →
      ∃ t, exec (.rowReady ch row now) s = .next t ∧ t.get (.cch .xROW) ch row (n % 2) = 1 ∧
        SameRegs (fun k => (k.fld.home == .cch && k.i == ch) || poolKeys k) u t ∧ SameBytes u t) ∧
    (u.chRuns ch = false ∨ u.chDecodes ch = true ∨ (∀ n, u.rowPic ch row = some n → u.get (.cch .xROW) ch row (n % 2) ≠ 0) →
      ∃ t, exec (.rowReady ch row now) s = .next t ∧ Still u t)) ∧
  ∀ (ch : Chan) (row : Nat) (now : Now) (s u w : State), s.live = true → u = s.atNow now →
    (u.chRuns ch = false ∨ u.chDecodes ch = false →
      (∃ t, exec (.decodeDeadline ch row now) s = .next t ∧ Frame poolKeys u t) ∧
      ∀ (i : StripeIx) (bad : List Nat), ∃ t, exec (.decodeStripeDone ch row i bad now) s = .next t ∧ Frame poolKeys u t) ∧
    (u.chRuns ch = true → u.chDecodes ch = true → w = commitAllLate ch u →
      (∀ n, w.rowPic ch row = some n → w.get (.cch .xROW) ch row (n % 2) = 0 → w.mayWork ch n = true →
        ∃ t, exec (.decodeDeadline ch row now) s = .next t ∧ t.get (.cch .xROW) ch row (n % 2) ≠ 0) ∧
      ((∀ n, w.rowPic ch row = some n → w.get (.cch .xROW) ch row (n % 2) ≠ 0 ∨ w.mayWork ch n = false) →
        ∃ t, exec (.decodeDeadline ch row now) s = .next t ∧ Frame poolKeys w t) ∧
      ∀ (i : StripeIx) (bad : List Nat),
        (∀ n, w.rowPic ch row = some n → w.strSt ch n row i = 1 → row = 0 ∨ w.get (.cch .xROW) ch (row - 1) (n % 2) = 2 →
          (w.decUnit ch n row i).isSome = true →
          ∃ t, exec (.decodeStripeDone ch row i bad now) s = .next t ∧ t.strSt ch n row i ≠ 1) ∧
        ((∀ n, w.rowPic ch row = some n → w.strSt ch n row i ≠ 1 ∨ (0 < row ∧ w.get (.cch .xROW) ch (row - 1) (n % 2) ≠ 2) ∨
            w.decUnit ch n row i = none) →
          ∃ t, exec (.decodeStripeDone ch row i bad now) s = .next t ∧ Frame poolKeys w t))

/-- A refresh request that a channel may send now (R92): damage is collected, the back-channel is enabled, and no hold-off runs. -/
def Sys2Proof.requestDue (ch : Nat) (u : State) : Bool :=
  u.chRuns ch && u.chDecodes ch && u.get (.ref .xCOL_R) ch != 0 && bitOf (u.chGet (.cch .RTP_FB_EN) ch) 0 &&
  decide (u.get (.ref .xHOLD) ch ≤ u.picNow (u.chDom ch))

/-- The picture that a refresh request received now is served in (R91): the first whose boundary lies 32 lines or more ahead. -/
def Sys2Proof.servedIn (ch : Nat) (u : State) : Nat :=
  ceilDiv (u.ticksNow (u.work ch (u.chBank ch)).dom + 32 * 65536) (u.picTicks (u.work ch (u.chBank ch)).dom)

/-- The bytes are one request of R90: an APP packet of six words with the name ELCB, of subtype 1 or 2. -/
def Sys2Proof.isRequest (b : List Byte) : Bool :=
  b.length == 24 && byteAt b 1 == 204 && beAt b 2 2 == 5 && beAt b 8 4 == 0x454C4342 &&
  (byteAt b 0 % 32 == 1 || byteAt b 0 % 32 == 2)

/-- Refresh requests and the rate model (R89 to R92, R147, R148): a hold-off that ends with damage collected sends one request
of 24 bytes, from the address at which the flow arrives to its source and the back-channel port, and holds off again;
otherwise it sends none. A request for this channel makes its refresh picture owe the rows that it names, or all; a full one
within FULL_HOLD of the last is refused and counted, and so is one for another sender. The model's update moves each class
with 16 blocks or more by the rules of R148, and no other; without one due nothing changes. -/
def Obligations.RefreshAndModel : Prop :=
  (∀ (ch : Chan) (now : Now) (s u : State), s.live = true → u = s.atNow now →
    (requestDue ch u = true →
      ∃ t, exec (.refreshHoldoffEnd ch now) s = .next t ∧
        t.get (.ref .xHOLD) ch = u.picNow (u.chDom ch) + u.fbHold ch + 1 ∧ t.get (.ref .xCOL_R) ch = 0 ∧
        t.get (.ref .CNT) ch 13 = (u.get (.ref .CNT) ch 13 + 1) % 2 ^ 64 ∧
        (∃ b : List Byte, b.length = 24 ∧ beAt b 16 2 = u.get (.ref .xCOL_PIC) ch % 2 ^ 16 ∧
          Out.rtcp ch (u.get (.ref .xFB_VER) ch) (u.get (.ref .xFB_DST) ch) (u.get (.ref .xFB_SRC) ch) (u.get (.ref .xFB_DP) ch)
            (u.fbPort ch) b ∈ t.outs) ∧ Frame (fun k => (k.fld.home == .ref && k.i == ch.val) || evcKeys k) u t) ∧
    (requestDue ch u = false → ∃ t, exec (.refreshHoldoffEnd ch now) s = .next t ∧ Still u t)) ∧
  (∀ (ch : Chan) (b : List Byte) (n : Nat) (now : Now) (s u : State), s.live = true → u = s.atNow now →
    (u.chRuns ch = true → u.chWork ch = 0 → bitOf (u.chGet (.cch .RTP_FB_EN) ch) 0 = true → isRequest b = true →
      n = servedIn ch u →
      (beAt b 12 4 = u.chGet (.cch .SSRC_SSRC) ch →
        (byteAt b 0 % 32 = 1 → ∃ t, exec (.refreshRequestReceived ch b now) s = .next t ∧ 1 ≤ t.owed ch n ∧
          (∀ r, byteAt b 18 ≤ r → r ≤ byteAt b 19 → r < (u.work ch (u.chBank ch)).rows →
            t.flag (.qrc .xRQ_ROW) ch r (n % 8) = true) ∧ Frame (fun k => blkKeys .qrc k && k.i == ch.val) u t) ∧
        (byteAt b 0 % 32 = 2 →
          (u.get (.qrc .xFULL) ch = 0 ∨ n ≤ u.get (.qrc .xFULL) ch - 1 ∨
              u.get (.qrc .xFULL) ch - 1 + clampTo 1 255 (u.chGet (.cch .FB_FULL_HOLD) ch) < n →
            ∃ t, exec (.refreshRequestReceived ch b now) s = .next t ∧ 2 ≤ t.owed ch n ∧ t.get (.qrc .xFULL) ch = n + 1 ∧
              Frame (fun k => blkKeys .qrc k && k.i == ch.val) u t) ∧
          (u.get (.qrc .xFULL) ch ≠ 0 → u.get (.qrc .xFULL) ch - 1 < n →
            n ≤ u.get (.qrc .xFULL) ch - 1 + clampTo 1 255 (u.chGet (.cch .FB_FULL_HOLD) ch) →
            ∃ t, exec (.refreshRequestReceived ch b now) s = .next t ∧
              t.get (.ref .CNT) ch 15 = (u.get (.ref .CNT) ch 15 + 1) % 2 ^ 64 ∧
              Frame (fun k => k == ⟨.ref .CNT, ch, 15, 0⟩) u t))) ∧
      (beAt b 12 4 ≠ u.chGet (.cch .SSRC_SSRC) ch →
        ∃ t, exec (.refreshRequestReceived ch b now) s = .next t ∧
          t.get (.ref .CNT) ch 15 = (u.get (.ref .CNT) ch 15 + 1) % 2 ^ 64 ∧
          Frame (fun k => k == ⟨.ref .CNT, ch, 15, 0⟩) u t)) ∧
    (u.chRuns ch = false ∨ u.chWork ch ≠ 0 ∨ bitOf (u.chGet (.cch .RTP_FB_EN) ch) 0 = false →
      ∃ t, exec (.refreshRequestReceived ch b now) s = .next t ∧ Still u t)) ∧
  ∀ (ch : Chan) (now : Now) (s u : State), s.live = true → u = s.atNow now →
    (u.safe = false → u.dieUp (u.get (.cch .CTRL_HOME_DIE) ch) = true → u.flag (.qrc .xMODEL) ch = true →
      ∃ t, exec (.modelUpdate ch now) s = .next t ∧ t.flag (.qrc .xMODEL) ch = false ∧
        t.flag (.qrc .STATUS_SEEDED) ch = false ∧
        (∀ c < 8, u.get (.qrc .xM_N) ch c 2 < 16 → t.get (.qrc .MODEL_BPB) ch c = u.get (.qrc .MODEL_BPB) ch c ∧
          t.get (.qrc .MODEL_OFS) ch c = u.get (.qrc .MODEL_OFS) ch c) ∧
        (∀ c < 8, 16 ≤ u.get (.qrc .xM_N) ch c 2 →
          t.get (.qrc .MODEL_BPB) ch c =
            ((3 * u.get (.qrc .MODEL_BPB) ch c + u.get (.qrc .xM_B) ch c 2 / u.get (.qrc .xM_N) ch c 2 + 2) / 4) % 2 ^ 16 ∧
          t.ofsOf ch c = clip3 (-32) 31 (u.ofsOf ch c + signOf ((u.get (.qrc .xM_Q) ch c 2 : Int) -
            (u.get (.qrc .xM_N) ch c 2 : Int) * ((63 - u.get (.qrc .xM_QI) ch : Nat) + u.ofsOf ch c)))) ∧
        (u.get (.qrc .xT_N) ch 0 2 ≠ 0 → t.get (.qrc .STATUS_BPB_AVG) ch =
          min 65535 (u.get (.qrc .xT_B) ch 0 2 / u.get (.qrc .xT_N) ch 0 2)) ∧
        Frame (fun k => k.i == ch.val && (k.fld == .qrc .MODEL_OFS || k.fld == .qrc .MODEL_BPB ||
          k.fld == .qrc .STATUS_BPB_AVG || k.fld == .qrc .STATUS_SEEDED || k.fld == .qrc .xMODEL)) u t) ∧
    (u.safe = true ∨ u.dieUp (u.get (.cch .CTRL_HOME_DIE) ch) = false ∨ u.flag (.qrc .xMODEL) ch = false →
      ∃ t, exec (.modelUpdate ch now) s = .next t ∧ Still u t)

-- The Harness

/-- A stripe of an encode row may start its slot (R132, R166, R190): its row is READY, the slot has come, the row above is coded as
far as it must be, and the picture has its header. -/
def Sys2Proof.slotDue (ch n row i : Nat) (u : State) : Bool :=
  u.get (.cch .xROW) ch row (n % 2) == 1 && u.strSt ch n row i == 0 && (u.rowStripes ch n row).contains i &&
  decide (u.rowTicks ch n row + 256 * u.get (.cch .xL_OFS) ch i (picBank n) ≤ u.ticksNow (u.picWork ch n).dom) &&
  u.aboveOk ch n row && u.mayWork ch n

/-- The unit of a stripe can code it now: it and the engines of its cluster are in service, and no other channel's work is on it. -/
def Sys2Proof.unitFree (ch n i : Nat) (u : State) : Bool :=
  u.unitFor (u.picWork ch n) (u.unitOfStr ch n i) && !u.unitHeldBy (u.unitOfStr ch n i) ch

/-- A decode stripe whose unit has left service while it ran. -/
def Sys2Proof.unitGone (ch n row i : Nat) (u : State) : Bool := u.strSt ch n row i == 1 && (u.decUnit ch n row i).isNone

/-- The block that a stripe's check has come to. -/
def Sys2Proof.checkAt (ch n row i : Nat) (u : State) : Nat := u.get (.cch .xCHKD) ch (strIx row i) (n % 2)

/-- A stripe is to be withheld (R197): it has not passed, and its release has come. -/
def Sys2Proof.withholdDue (ch n row i : Nat) (u : State) : Bool :=
  u.strSt ch n row i != 2 && u.strSt ch n row i != 4 && (u.rowStripes ch n row).contains i && u.mayWork ch n &&
  decide (u.relTicks ch n row ≤ u.ticksNow (u.picWork ch n).dom)

/-- The commit point (R17 to R20, R35, R190, R194 to R200): a due slot is coded and waits for its check, or for a re-execution
where its unit or an engine of its cluster is out of service or still holds work of another channel; a decode stripe whose
unit has left service is decoded on another unit that can end in time, or is given up. A block at which the shadow decoder has
the unit's samples moves the check on, and with the last one the stripe passes; a mismatch is counted, as one of a dependent
where it is one, and the stripe waits for a re-execution. A re-execution that matches passes it; one that does not, on another
unit, takes the shadow decoder of its cluster out of service, unless it is a dependent. A stripe that has not passed at REL is
withheld, with its counts. What is not due changes nothing beyond the marks of the pools. -/
def Obligations.CommitPoint : Prop :=
  ∀ (ch : Chan) (row : Nat) (i : StripeIx) (now : Now) (s u : State), s.live = true → u = s.atNow now →
    (∀ bad : List Nat,
      (u.chRuns ch = false ∨ u.rowPic ch row = none →
        ∃ t, exec (.stripeSlotStart ch row i ⟨bad, now⟩) s = .next t ∧ Frame poolKeys u t) ∧
      ∀ n, u.chRuns ch = true → u.rowPic ch row = some n →
        (u.chDecodes ch = false →
          (slotDue ch n row i u = true → (u.picWork ch n).hevc = true ∨ ((openWork ch n u).hdrOf ch n).isSome = true →
            ∃ t, exec (.stripeSlotStart ch row i ⟨bad, now⟩) s = .next t ∧
              t.strSt ch n row i = (if unitFree ch n i u then 1 else 3) ∧ t.get (.cch .xROW) ch row (n % 2) = 1) ∧
          (slotDue ch n row i u = false →
            ∃ t, exec (.stripeSlotStart ch row i ⟨bad, now⟩) s = .next t ∧ Frame poolKeys u t)) ∧
        (u.chDecodes ch = true →
          (unitGone ch n row i u = true →
            ∃ t, exec (.stripeSlotStart ch row i ⟨bad, now⟩) s = .next t ∧
              (u.ticksNow (u.picWork ch n).dom + u.strTicks ch n i ≤ u.rowTicks ch n row + (u.picWork ch n).decTicks →
                ∀ k, u.rexUnit ch n i = some k → t.strSt ch n row i = 1 ∧ t.decUnit ch n row i = some (k % 2 ^ 8 + 1 - 1)) ∧
              (u.rowTicks ch n row + (u.picWork ch n).decTicks < u.ticksNow (u.picWork ch n).dom + u.strTicks ch n i ∨
                u.rexUnit ch n i = none → t.strSt ch n row i ≠ 1)) ∧
          (unitGone ch n row i u = false →
            ∃ t, exec (.stripeSlotStart ch row i ⟨bad, now⟩) s = .next t ∧ Frame poolKeys u t))) ∧
    (∀ (block : Nat) (upset : List SmpFlip), u.chRuns ch = false ∨ u.chDecodes ch = true ∨ u.workPic ch row = none →
      (∃ t, exec (.shadowCheck ch row i block upset now) s = .next t ∧ Frame poolKeys u t) ∧
      (∃ t, exec (.reexecDone ch row i upset now) s = .next t ∧ Frame poolKeys u t) ∧
      ∃ t, exec (.stripeWithheld ch row i now) s = .next t ∧ Frame poolKeys u t) ∧
    ∀ n, u.chRuns ch = true → u.chDecodes ch = false → u.workPic ch row = some n →
      (∀ (block : Nat) (upset : List SmpFlip),
        (u.strSt ch n row i ≠ 1 ∨ block ≠ checkAt ch n row i u →
          ∃ t, exec (.shadowCheck ch row i block upset now) s = .next t ∧ Frame poolKeys u t) ∧
        (u.strSt ch n row i = 1 → block = checkAt ch n row i u →
          (u.blockOk ch n row i block upset = true → block + 1 < (u.strBlocks ch n row i).length →
            ∃ t, exec (.shadowCheck ch row i block upset now) s = .next t ∧ checkAt ch n row i t = (block + 1) % 2 ^ 20 ∧
              Frame (fun k => k == ⟨.cch .xCHKD, ch, strIx row i, n % 2⟩ || poolKeys k) u t) ∧
          (u.blockOk ch n row i block upset = true → (u.strBlocks ch n row i).length ≤ block + 1 →
            ∃ t, exec (.shadowCheck ch row i block upset now) s = .next t ∧ t.strSt ch n row i = 2) ∧
          (u.blockOk ch n row i block upset = false →
            ∃ t, exec (.shadowCheck ch row i block upset now) s = .next t ∧ t.strSt ch n row i = 3 ∧
              let c := if u.flag (.cch .xDEP) ch (strIx row i) (n % 2) then 2 else 0
              t.get (.cus .CNT) (u.get (.cch .CTRL_HOME_DIE) ch) c =
                (u.get (.cus .CNT) (u.get (.cch .CTRL_HOME_DIE) ch) c + 1) % 2 ^ 64))) ∧
      (∀ upset : List SmpFlip,
        (u.strSt ch n row i ≠ 3 ∨ u.get (.cch .xRX) ch (strIx row i) (n % 2) = 0 →
          ∃ t, exec (.reexecDone ch row i upset now) s = .next t ∧ Frame poolKeys u t) ∧
        ∀ k, u.strSt ch n row i = 3 → u.get (.cch .xRX) ch (strIx row i) (n % 2) = k + 1 →
          ((∀ b < (u.strBlocks ch n row i).length, u.blockOk ch n row i b upset = true) →
            ∃ t, exec (.reexecDone ch row i upset now) s = .next t ∧ t.strSt ch n row i = 2 ∧
              t.get (.cch .xRX) ch (strIx row i) (n % 2) = 0) ∧
          ((∃ b < (u.strBlocks ch n row i).length, u.blockOk ch n row i b upset = false) →
            ∃ t, exec (.reexecDone ch row i upset now) s = .next t ∧ t.strSt ch n row i = 3 ∧
              let c := if u.flag (.cch .xDEP) ch (strIx row i) (n % 2) then 2 else 0
              t.get (.cus .CNT) (u.get (.cch .CTRL_HOME_DIE) ch) c =
                (u.get (.cus .CNT) (u.get (.cch .CTRL_HOME_DIE) ch) c + 1) % 2 ^ 64 ∧
              (c = 0 → u.unitOfStr ch n i ≠ k →
                t.flag (.cus .CLUSTER_SHADOW_OK)
                  (if u.flag (.cus .CLUSTER_SHADOW_OK) (u.unitOfStr ch n i / 5) then u.unitOfStr ch n i / 5 else k / 5) = false))) ∧
      (withholdDue ch n row i u = true →
        ∃ t, exec (.stripeWithheld ch row i now) s = .next t ∧ t.strSt ch n row i = 4 ∧
          t.get (.cch .CNT) ch 2 = (u.get (.cch .CNT) ch 2 + 1) % 2 ^ 64 ∧
          t.get (.cus .CNT) (u.get (.cch .CTRL_HOME_DIE) ch) 3 =
            (u.get (.cus .CNT) (u.get (.cch .CTRL_HOME_DIE) ch) 3 + 1) % 2 ^ 64) ∧
      (withholdDue ch n row i u = false →
        ∃ t, exec (.stripeWithheld ch row i now) s = .next t ∧ Frame poolKeys u t)

/-- A stripe that ran on a die has been taken off what failed: it runs no more, or on a unit that has not. -/
def Sys2Proof.takenOff (d : Nat) (hit : Nat × Nat × Nat × Nat → Bool) (gone : Nat → Bool) (u t : State) : Bool :=
  (u.running d).all (fun x => !(hit x && gone (u.unitNow x)) || t.strSt x.1 x.2.1 x.2.2.1 x.2.2.2 != 1 || !gone (t.unitNow x))

/-- A stripe of some kind runs on a die where something has failed. -/
def Sys2Proof.anyOn (d : Nat) (hit : Nat × Nat × Nat × Nat → Bool) (gone : Nat → Bool) (u : State) : Bool :=
  (u.running d).any (fun x => hit x && gone (u.unitNow x))

/-- The engines of a cluster, by the DETAIL that reports one (R35): its shadow decoder, its CABAC engine, its line buffer. -/
def Sys2Proof.engineFld (detail : Nat) : Fld :=
  if detail = 1 then .cus .CLUSTER_SHADOW_OK else if detail = 2 then .cus .CLUSTER_CABAC_OK else .cus .CLUSTER_LINEBUF_OK

/-- The stripes that need such an engine: for the shadow decoder those of encode channels, for the CABAC engine those of HEVC
channels. -/
def Sys2Proof.needsEngine (detail : Nat) (u : State) (x : Nat × Nat × Nat × Nat) : Bool :=
  match detail with
  | 1 => u.strEnc x
  | 2 => (u.picWork x.1 x.2.1).hevc
  | _ => true

/-- An engine of a cluster has left service (R19, R35, R128, R198): its bit is clear and the fault is counted; the stripes
that need it have been taken off the cluster; and where no decode stripe was among them no byte of memory has changed. -/
def Sys2Proof.EngineLost (c detail : Nat) (u t : State) : Prop :=
  t.flag (engineFld detail) c = false ∧ takenOff (c / 16) (needsEngine detail u) (fun k => k / 5 == c) u t = true ∧
  (detail = 1 → t.get (.cus .CNT) (c / 16) 6 = (u.get (.cus .CNT) (c / 16) 6 + 1) % 2 ^ 64) ∧
  (anyOn (c / 16) (fun x => needsEngine detail u x && !u.strEnc x) (fun k => k / 5 == c) u = false →
    t.get (.flt .CNT) 2 = (u.get (.flt .CNT) 2 + 1) % 2 ^ 64 ∧ SameBytes u t)

/-- The unit of a cluster whose slots wait for the cluster's spare, and that spare where it is idle (R200). -/
def Sys2Proof.waitingUnit (c : Nat) (u : State) : Option Nat := (List.range 5).find? (fun i => u.flag (.cus .xSLOTS) (5 * c + i))
def Sys2Proof.idleSpare (c : Nat) (u : State) : Bool :=
  u.get (.cus .CLUSTER_SPARE) c != 7 && u.unitSt (5 * c + u.get (.cus .CLUSTER_SPARE) c) == 0 &&
  !u.flag (.cus .UNIT_REEXEC) (5 * c + u.get (.cus .CLUSTER_SPARE) c)

/-- Units and clusters that fail (R19, R35, R67, R128, R196, R198 to R200): RETIRE retires a unit once, and what runs on it is
taken off it; a failure window that has passed clears the unit's count; a unit that makes no progress for its timeout is
counted; an engine that stalls for its timeout, or that a detecting block reports, leaves service with its fault, and what
needs it is taken off its cluster; and an idle spare takes over the slots of a retired unit of its cluster. Otherwise nothing
changes beyond the marks of the pools. -/
def Obligations.UnitFailures : Prop :=
  (∀ (p : Party) (k : UnitIx) (v : Word) (s : State), s.live = true → s.gateOf p .cus (some (unitDie k)) = .pass →
    (s.unitSt k ≠ 3 → ∃ t, exec (.retire p k v) s = .next t ∧ t.unitSt k = 3 ∧
      t.get (.cus .CNT) (unitDie k) 4 = (s.get (.cus .CNT) (unitDie k) 4 + 1) % 2 ^ 64 ∧
      takenOff (unitDie k) (fun _ => true) (fun j => j == k.val) s t = true ∧
      (anyOn (unitDie k) (fun x => !s.strEnc x) (fun j => j == k.val) s = false →
        t.get (.flt .CNT) 2 = (s.get (.flt .CNT) 2 + 1) % 2 ^ 64 ∧ SameBytes s t)) ∧
    (s.unitSt k = 3 → ∃ t, exec (.retire p k v) s = .next t ∧ Still s t)) ∧
  (∀ (k : UnitIx) (now : Now) (s u : State), s.live = true → u = s.atNow now →
    (u.get (.cus .xFAIL_AT) k ≠ 0 →
      u.get (.cus .xFAIL_AT) k - 1 + u.retireWin (unitDie k) ≤ u.picNow (u.get (.cus .xFAIL_DOM) k) →
      ∃ t, exec (.failsWindowExpiry k now) s = .next t ∧ t.get (.cus .UNIT_FAILS) k = 0 ∧
        Frame (fun x => x == ⟨.cus .UNIT_FAILS, k, 0, 0⟩ || x == ⟨.cus .xFAIL_AT, k, 0, 0⟩) u t) ∧
    (u.get (.cus .xFAIL_AT) k = 0 ∨
        u.picNow (u.get (.cus .xFAIL_DOM) k) < u.get (.cus .xFAIL_AT) k - 1 + u.retireWin (unitDie k) →
      ∃ t, exec (.failsWindowExpiry k now) s = .next t ∧ Still u t) ∧
    ∀ since : Nat,
      (u.safe = false → u.dieUp (unitDie k) = true → u.waitedOut (.cus .STALL_TO_UNIT) (unitDie k) since 100 10000 1 = true →
        anyOn (unitDie k) (fun _ => true) (fun j => j == k.val) u = true →
        ∃ t, exec (.unitStallTimeout k ⟨since, now⟩) s = .next t ∧
          t.get (.cus .CNT) (unitDie k) 7 = (u.get (.cus .CNT) (unitDie k) 7 + 1) % 2 ^ 64) ∧
      (u.safe = true ∨ u.dieUp (unitDie k) = false ∨ u.waitedOut (.cus .STALL_TO_UNIT) (unitDie k) since 100 10000 1 = false ∨
          anyOn (unitDie k) (fun _ => true) (fun j => j == k.val) u = false →
        ∃ t, exec (.unitStallTimeout k ⟨since, now⟩) s = .next t ∧ Frame poolKeys u t)) ∧
  ∀ (c : ClusterIx) (now : Now) (s u : State), s.live = true → u = s.atNow now →
    (∀ (cabac : Bool) (since : Nat),
      (u.safe = false → u.dieUp (c / 16) = true → u.waitedOut (.cus .STALL_TO_CLUSTER) (c / 16) since 100 10000 1 = true →
        u.flag (engineFld (if cabac then 2 else 1)) c = true →
        ∃ t, exec (.clusterStallTimeout c cabac ⟨since, now⟩) s = .next t ∧ EngineLost c (if cabac then 2 else 1) u t) ∧
      (u.safe = true ∨ u.dieUp (c / 16) = false ∨ u.waitedOut (.cus .STALL_TO_CLUSTER) (c / 16) since 100 10000 1 = false ∨
          u.flag (engineFld (if cabac then 2 else 1)) c = false →
        ∃ t, exec (.clusterStallTimeout c cabac ⟨since, now⟩) s = .next t ∧ Frame poolKeys u t)) ∧
    (∀ o : Occ, o.takesEngine = true → o.loc = c.val → u.safe = false →
      (u.dieUp (c / 16) = true → ∃ t, exec (.faultOccurrence [o] now) s = .next t ∧ EngineLost c o.detail u t) ∧
      (u.dieUp (c / 16) = false → ∃ t, exec (.faultOccurrence [o] now) s = .next t ∧ Frame fltKeys u t)) ∧
    (∀ i, u.safe = false → u.dieUp (c / 16) = true → waitingUnit c u = some i → idleSpare c u = true →
      ∃ t, exec (.spareTakeover c now) s = .next t ∧ t.flag (.cus .xSLOTS) (5 * c + i) = false ∧
        t.get (.cus .CLUSTER_SPARE) c = 7 ∧
        (t.unitSt (5 * c + u.get (.cus .CLUSTER_SPARE) c) = 1 ∨ t.unitSt (5 * c + u.get (.cus .CLUSTER_SPARE) c) = 2) ∧
        (∀ k : Key, k.fld = .cch .xL_UNIT → u.store.get k = 5 * c + i → 5 * c + i < 255 →
          t.store.get k = (5 * c + u.get (.cus .CLUSTER_SPARE) c) % 2 ^ 8) ∧
        t.get (.cus .CNT) (c / 16) 5 = (u.get (.cus .CNT) (c / 16) 5 + 1) % 2 ^ 64) ∧
    (u.safe = true ∨ u.dieUp (c / 16) = false ∨ waitingUnit c u = none ∨ idleSpare c u = false →
      ∃ t, exec (.spareTakeover c now) s = .next t ∧ Frame poolKeys u t)

-- Egress

/-- A copy, queued or crossing, with its raster release passed where it waits for the release of a position that has come (R272,
R273). -/
def Sys2Proof.Copy.released (ch tb : Nat) (hit : Nat → Nat → Bool) (c : Copy) : Copy :=
  if c.ch = ch ∧ c.raster = true ∧ c.due = false ∧ hit c.row c.ix = true ∧ c.relAt ≤ tb then { c with due := true } else c
def Sys2Proof.Cross.released (ch tb : Nat) (hit : Nat → Nat → Bool) (c : Cross) : Cross :=
  if c.ch = ch ∧ c.raster = true ∧ c.due = false ∧ hit c.row c.ix = true ∧ c.relAt ≤ tb then { c with due := true } else c

/-- The positions of a release have let their copies go; RASTER_SENT counts those that were queued. -/
def Sys2Proof.ReleasedAt (ch : Nat) (hit : Nat → Nat → Bool) (u t : State) : Prop :=
  t.copies = u.copies.map (Copy.released ch u.tb hit) ∧ t.cross = u.cross.map (Cross.released ch u.tb hit) ∧
  t.chains = u.chains ∧ SameBytes u t ∧ SameRegs (fun k => (k.fld == .shp .CNT && k.j == 7) || poolKeys k) u t

/-- The copy that an idle interface takes next, where no delay request waits: a due RASTER copy, then the class queues, then the
queues of the host (R276). -/
def Sys2Proof.nextCopy (i : Nat) (u : State) : Option Copy :=
  if u.txStopped || !u.ifaceUp i || u.ptpWaits i then none else ((u.pickRaster i).or (u.pickClass i)).or (u.pickHost i)

/-- A copy has left on its interface: it is queued no more, counted, and on the wire. -/
def Sys2Proof.Sent (c : Copy) (u t : State) : Prop :=
  t.copies = u.copies.filter (· != c) ∧ t.flag (.shp .xWIRE) c.iface = true ∧ (∃ out good, Out.frame c.iface out good ∈ t.outs) ∧
  t.get (.shp .CNT) c.die 0 = (u.get (.shp .CNT) c.die 0 + 1) % 2 ^ 64 ∧ SameBytes u t

/-- The delay request that waits for an interface has left on it (R42, R276). -/
def Sys2Proof.Asked (i : Nat) (u t : State) : Prop :=
  t.flag (.trs .xDREQ) (i / 4) = false ∧ t.flag (.shp .xWIRE) i = true ∧
  .delayReq (i / 4) (u.flag (.trs .PTP_CFG_DELAY_MECH)) ((u.get (.trs .xREQ_SEQ) (i / 4) + 1) % 65536) ∈ t.outs ∧
  t.copies = u.copies ∧ SameBytes u t

/-- What leaves an interface (R267, R268, R272, R273, R276, R281): a raster release lets the copies of its position go, on
their die and on the way to the other; a frame boundary takes what comes next, a delay request, the due RASTER copy that comes
first, then the class queues and the queues of the host, counts it and puts the interface on the wire, or leaves it idle where
nothing may leave; a per-flow bucket with 0 or more tokens lets its frame's copies enter their queues behind all others, and a
port-class bucket lets its interface choose if it is idle; a refill never passes BURST; and the mirror of a sequence counter
never goes back. -/
def Obligations.EgressOrder : Prop :=
  (∀ (ch : Chan) (row j : Nat) (now : Now) (s u w : State), s.live = true → u = s.atNow now →
    w = (if (u.chRuns ch && u.chDecodes ch) = true then commitAllLate ch u else u) →
    (u.txStopped = false → u.tbState ≠ tbFREE →
      ∃ t, exec (.rasterRelease ch row j now) s = .next t ∧ ReleasedAt ch (fun r i => r == row && i == j) u t) ∧
    (u.txStopped = true ∨ u.tbState = tbFREE → ∃ t, exec (.rasterRelease ch row j now) s = .next t ∧ Frame poolKeys u t) ∧
    (w.txStopped = false → w.tbState ≠ tbFREE →
      ∃ t, exec (.st2110Release ch j now) s = .next t ∧ ReleasedAt ch (fun _ i => i == j) w t) ∧
    (w.txStopped = true ∨ w.tbState = tbFREE → ∃ t, exec (.st2110Release ch j now) s = .next t ∧ Frame poolKeys w t)) ∧
  (∀ (i : Iface) (now : Now) (s u : State), s.live = true → u = s.atNow now →
    (∀ c x, nextCopy i u = some c → u.chain? c.chain = some x →
      ∃ t, exec (.interfaceFrameBoundary i now) s = .next t ∧ Sent c u t) ∧
    (u.txStopped = false → u.ifaceUp i = true → u.ptpWaits i = true →
      ∃ t, exec (.interfaceFrameBoundary i now) s = .next t ∧ Asked i u t) ∧
    (u.txStopped = true ∨ u.ifaceUp i = false ∨ (u.ptpWaits i = false ∧ nextCopy i u = none) →
      ∃ t, exec (.interfaceFrameBoundary i now) s = .next t ∧ t.flag (.shp .xWIRE) i = false ∧
        Frame (fun k => k == ⟨.shp .xWIRE, i, 0, 0⟩ || poolKeys k) u t)) ∧
  (∀ (d : Die) (n : Bucket) (now : Now) (s u : State), s.live = true → u = s.atNow now →
    (n.val < 4096 →
      (∀ c, u.txStopped = false → u.copies.find? (fun c => c.die == d.val && c.wait && c.handle == some n.val) = some c →
        (0 ≤ (refill d n u.tai u).tokens d n →
          ∃ t, exec (.shapedFrameStart d n now) s = .next t ∧
            t.copies = u.copies.filter (fun x => !(x.die == d.val && x.chain == c.chain && x.handle == some n.val && x.wait)) ++
              (u.copies.filter (fun x => x.die == d.val && x.chain == c.chain && x.handle == some n.val && x.wait)).map
                (fun x => { x with wait := false }) ∧
            SameBytes u t ∧ SameRegs (fun k => k.fld.home == .shp && k.i == d.val && k.j == n.val) u t) ∧
        ((refill d n u.tai u).tokens d n < 0 →
          ∃ t, exec (.shapedFrameStart d n now) s = .next t ∧
            Frame (fun k => k.fld.home == .shp && k.i == d.val && k.j == n.val) u t)) ∧
      (u.txStopped = true ∨ u.copies.find? (fun c => c.die == d.val && c.wait && c.handle == some n.val) = none →
        ∃ t, exec (.shapedFrameStart d n now) s = .next t ∧ Still u t)) ∧
    (4096 ≤ n.val → ∀ i w, i = 8 * d.val + (n - 4096) / 8 → w = refill d n u.tai u →
      (u.txStopped = true → ∃ t, exec (.shapedFrameStart d n now) s = .next t ∧ Still u t) ∧
      (u.txStopped = false →
        (u.flag (.shp .xWIRE) i = true → ∃ t, exec (.shapedFrameStart d n now) s = .next t ∧ Still w t) ∧
        (∀ c x, u.flag (.shp .xWIRE) i = false → nextCopy i w = some c → w.chain? c.chain = some x →
          ∃ t, exec (.shapedFrameStart d n now) s = .next t ∧ Sent c w t) ∧
        (u.flag (.shp .xWIRE) i = false → u.ifaceUp i = true → u.ptpWaits i = true →
          ∃ t, exec (.shapedFrameStart d n now) s = .next t ∧ Asked i w t) ∧
        (u.flag (.shp .xWIRE) i = false → u.ifaceUp i = false ∨ (u.ptpWaits i = false ∧ nextCopy i w = none) →
          ∃ t, exec (.shapedFrameStart d n now) s = .next t ∧ Frame poolKeys w t)))) ∧
  (∀ (d n m : Nat) (s : State), s.lastRefill d n < m →
    (refill d n m s).tokens d n ≤ (s.bktBurst d n : Int) * tokUnit) ∧
  ∀ (d : Die) (h : Handle) (next : Word) (s : State), s.live = true →
    (s.get (.shp .xMIRROR) d h = 0 ∨ seqBefore 32 next.toNat (s.get (.shp .xMIRROR) d h - 1) = false →
      ∃ t, exec (.seqMirrorUpdate d h next) s = .next t ∧ t.get (.shp .xMIRROR) d h = next.toNat + 1 ∧
        Frame (fun k => k == ⟨.shp .xMIRROR, d, h, 0⟩) s t) ∧
    (s.get (.shp .xMIRROR) d h ≠ 0 → seqBefore 32 next.toNat (s.get (.shp .xMIRROR) d h - 1) = true →
      ∃ t, exec (.seqMirrorUpdate d h next) s = .next t ∧ Still s t)

/-- The settings of the shaper (R266, R269 to R271, R282, R283): APPLY copies the shadow bank of a bucket, and of its handle's
template settings and templates, to the active one, unless a handover is to do that; a change of MODE, RATE, BURST or OVERHEAD
sets the tokens to BURST or 0, and any other leaves those that their counter holds. The staged accesses read and write one
template word; a template line that is refetched in vain is marked with a Contained fault, and a write to that template takes
its mark away; and a link that falls drops what is queued, while one that comes up drops nothing. -/
def Obligations.EgressSetup : Prop :=
  (∀ (p : Party) (d : Die) (v : Word) (s : State), s.live = true → s.gateOf p .shp (some d.val) = .pass →
    (∀ n : Bucket,
      (s.flag (.shp .BKT_CFG_HO_EN) d n = false → ∃ t, exec (.bktApply p d n v) s = .next t ∧
        (∀ f ∈ bktFields, t.get f d n 1 = s.get f d n 0 % 2 ^ f.width) ∧
        (n.val < 4096 → (∀ f ∈ tplFields, t.get f d n 1 = s.get f d n 0 % 2 ^ f.width) ∧
          ∀ w < 64, t.get (.shp .xTPL) d (n.val * 64 + w) 1 = s.get (.shp .xTPL) d (n.val * 64 + w) 0 % 2 ^ 32) ∧
        (bktModeBad n (t.get (.shp .BKT_CFG_MODE) d n 1) = true → t.flag (.shp .BKT_STATUS_CFG_ERR) d n = true) ∧
        ((∀ f ∈ [Fld.shp .BKT_CFG_MODE, .shp .BKT_RATE_RATE, .shp .BKT_BURST_BURST, .shp .BKT_CFG_OVERHEAD],
            s.get f d n 0 = s.get f d n 1) → -(2 ^ 63) ≤ s.tokens d n → s.tokens d n < 2 ^ 63 → t.tokens d n = s.tokens d n) ∧
        ((∃ f ∈ [Fld.shp .BKT_CFG_MODE, .shp .BKT_RATE_RATE, .shp .BKT_BURST_BURST, .shp .BKT_CFG_OVERHEAD],
            s.get f d n 0 ≠ s.get f d n 1) →
          t.tokens d n = if t.flag (.shp .BKT_CFG_RESET_FILL) d n 1 then (t.bktBurst d n : Int) * tokUnit else 0) ∧
        Frame (fun k => k.fld.home == .shp && k.i == d.val && (k.j == n.val || k.fld == .shp .xTPL)) s t) ∧
      (s.flag (.shp .BKT_CFG_HO_EN) d n = true → ∃ t, exec (.bktApply p d n v) s = .next t ∧
        t.flag (.shp .BKT_STATUS_CFG_ERR) d n = true ∧ Frame (fun k => k == ⟨.shp .BKT_STATUS_CFG_ERR, d, n, 0⟩) s t)) ∧
    ∀ at' : Nat, at' = bitsOf v.toNat 6 12 * 64 + v.toNat % 64 →
      (bitOf v.toNat 31 = false → ∃ t, exec (.templateRead p d v) s = .next t ∧
        t.get (.shp .TPL_DATA_DATA) d = s.get (.shp .xTPL) d at' % 2 ^ 32 ∧
        Frame (fun k => k.i == d.val && (k.fld == .shp .TPL_ADDR_WORD || k.fld == .shp .TPL_ADDR_PLANE ||
          k.fld == .shp .TPL_ADDR_HANDLE || k.fld == .shp .TPL_DATA_DATA)) s t) ∧
      ∀ i ∈ [Instr.templateWrite p d v] ++ (if bitOf v.toNat 31 then [.templateRead p d v] else []),
        ∃ t, exec i s = .next t ∧ t.get (.shp .xTPL) d at' = s.get (.shp .TPL_DATA_DATA) d % 2 ^ 32 ∧
          t.flag (.shp .xTPL_BAD) d (bitsOf v.toNat 6 12) (bitsOf v.toNat 5 1) = false ∧
          t.get (.shp .TPL_DATA_DATA) d = s.get (.shp .TPL_DATA_DATA) d % 2 ^ 32 ∧
          Frame (fun k => k.i == d.val && (k.fld == .shp .TPL_ADDR_WORD || k.fld == .shp .TPL_ADDR_PLANE ||
            k.fld == .shp .TPL_ADDR_HANDLE || k.fld == .shp .TPL_DATA_DATA ||
            k == ⟨.shp .xTPL_BAD, d, bitsOf v.toNat 6 12, bitsOf v.toNat 5 1⟩ || k == ⟨.shp .xTPL, d, at', 0⟩)) s t) ∧
  (∀ (d : Die) (h : Handle) (plane : Fin 2) (s : State), s.live = true →
    (∃ t, exec (.templateRefetch d h ⟨plane, true⟩) s = .next t ∧
      t.get (.shp .CNT) d 8 = (s.get (.shp .CNT) d 8 + 1) % 2 ^ 64 ∧
      Frame (fun k => k == ⟨.shp .CNT, d, 8, 0⟩) s t) ∧
    ∃ t, exec (.templateRefetch d h ⟨plane, false⟩) s = .next t ∧ t.flag (.shp .xTPL_BAD) d h plane = true ∧
      t.flag (.shp .STATUS_TPL_BAD) d = true ∧ t.get (.flt .CNT) 2 = (s.get (.flt .CNT) 2 + 1) % 2 ^ 64 ∧
      Frame (fun k => (k.fld.home == .shp && k.i == d.val) || fltKeys k) s t) ∧
  ∀ (i : Iface) (s : State), s.live = true →
    (∃ t, exec (.linkChange i true) s = .next t ∧
      bitOf (t.get (.prs .PORT_CFG_LINK_UP) (i / 8) (i / 4 % 2)) (i % 4) = true ∧
      Frame (fun k => k == ⟨.prs .PORT_CFG_LINK_UP, i / 8, i / 4 % 2, 0⟩) s t) ∧
    ∃ t, exec (.linkChange i false) s = .next t ∧
      bitOf (t.get (.prs .PORT_CFG_LINK_UP) (i / 8) (i / 4 % 2)) (i % 4) = false ∧
      t.copies = s.copies.filter (fun c => c.iface != i.val) ∧ t.flag (.shp .xWIRE) i = false ∧ SameBytes s t ∧
      SameRegs (fun k => k == ⟨.prs .PORT_CFG_LINK_UP, i / 8, i / 4 % 2, 0⟩ || k == ⟨.shp .xWIRE, i, 0, 0⟩ ||
        (k.fld == .shp .CNT && k.j == 1) || poolKeys k) s t

-- Ingress

/-- Frames at the MAC and in the queues behind it (R211, R213, R220, R236, R237, R248, R465): a frame on an interface that is
down, or while ingress is stopped, is not seen; a bad FCS, a bad length, a pause frame, and a frame for which no cells are
available, are counted and dropped; any other is taken into a new chain and counted. A second pass takes the oldest frame that
waits and counts; a copy that has crossed is dropped with its count where no cells are available, and is otherwise taken into
a new chain; a merge window that passes counts the numbers it gives up and lets its copy go; and a plane that has been silent
for the window loses its OK bit. What is not due changes nothing. -/
def Obligations.FramesReceived : Prop :=
  (∀ (i : Iface) (b : List Byte) (poison : List Nat) (now : Now) (s u : State), s.live = true → u = s.atNow now →
    (∀ ok, u.rxStopped = true ∨ u.ifaceUp i = false →
      ∃ t, exec (.frameReceive i b ok poison now) s = .next t ∧ Still u t) ∧
    (u.rxStopped = false → u.ifaceUp i = true →
      (∃ t, exec (.frameReceive i b false poison now) s = .next t ∧
        t.get (.prs .CNT) (i / 8) 1 = (u.get (.prs .CNT) (i / 8) 1 + 1) % 2 ^ 64 ∧
        Frame (fun k => k == ⟨.prs .CNT, i / 8, 1, 0⟩) u t) ∧
      (b.length + 4 < 64 ∨ u.mtu i < b.length + 4 →
        ∃ t, exec (.frameReceive i b true poison now) s = .next t ∧
          t.get (.prs .CNT) (i / 8) 2 = (u.get (.prs .CNT) (i / 8) 2 + 1) % 2 ^ 64 ∧
          Frame (fun k => k == ⟨.prs .CNT, i / 8, 0, 0⟩ || k == ⟨.prs .CNT, i / 8, 2, 0⟩) u t) ∧
      (64 ≤ b.length + 4 → b.length + 4 ≤ u.mtu i →
        (beAt b 12 2 = 0x8808 → ∃ t, exec (.frameReceive i b true poison now) s = .next t ∧
          t.get (.prs .CNT) (i / 8) 15 = (u.get (.prs .CNT) (i / 8) 15 + 1) % 2 ^ 64 ∧
          Frame (fun k => k == ⟨.prs .CNT, i / 8, 0, 0⟩ || k == ⟨.prs .CNT, i / 8, 15, 0⟩) u t) ∧
        (beAt b 12 2 ≠ 0x8808 →
          (u.availCells (i / 8) (48 + 2 * (i / 4)) (cellsFor (b.length + 4)) = false →
            ∃ t, exec (.frameReceive i b true poison now) s = .next t ∧
              t.get (.prs .CNT) (i / 8) 3 = (u.get (.prs .CNT) (i / 8) 3 + 1) % 2 ^ 64 ∧
              Frame (fun k => k == ⟨.prs .CNT, i / 8, 0, 0⟩ || k == ⟨.prs .CNT, i / 8, 3, 0⟩) u t) ∧
          (u.availCells (i / 8) (48 + 2 * (i / 4)) (cellsFor (b.length + 4)) = true →
            ∃ t, exec (.frameReceive i b true poison now) s = .next t ∧ t.nextId = u.nextId + 1 ∧
              t.get (.prs .CNT) (i / 8) 0 = (u.get (.prs .CNT) (i / 8) 0 + 1) % 2 ^ 64 ∧ SameBytes u t))))) ∧
  ∀ (d : Die) (now : Now) (s u : State), s.live = true → u = s.atNow now →
    (u.safe = true ∨ u.dieUp d = false → ∀ (m : Pair) (b : Bool),
      ∀ i ∈ [Instr.recircPass d now, .xdieCopyReceive d now, .mergeWindowExpiry d m now, .planeDown d m b now],
        ∃ t, exec i s = .next t ∧ Still u t) ∧
    (u.safe = false → u.dieUp d = true →
      (u.recircs.find? (fun x => x.die == d.val) = none → ∃ t, exec (.recircPass d now) s = .next t ∧ Still u t) ∧
      (∀ r, u.recircs.find? (fun x => x.die == d.val) = some r →
        ∃ t, exec (.recircPass d now) s = .next t ∧ t.recircs = u.recircs.eraseP (fun x => x.die == d.val) ∧ SameBytes u t ∧
          (∀ c, u.chain? r.chain = some c → t.get (.prs .CNT) d 5 = (u.get (.prs .CNT) d 5 + 1) % 2 ^ 64)) ∧
      (u.cross.find? (fun x => x.dst == d.val) = none → ∃ t, exec (.xdieCopyReceive d now) s = .next t ∧ Still u t) ∧
      (∀ x, u.cross.find? (fun x => x.dst == d.val) = some x →
        (u.availCells d 59 (cellsFor (x.data.length + 4)) = false →
          ∃ t, exec (.xdieCopyReceive d now) s = .next t ∧ t.cross = u.cross.eraseP (fun x => x.dst == d.val) ∧
            t.get (.pdk .CNT) d 8 = (u.get (.pdk .CNT) d 8 + 1) % 2 ^ 64 ∧ t.chains = u.chains ∧ t.copies = u.copies ∧
            SameBytes u t ∧ SameRegs (fun k => k == ⟨.pdk .CNT, d, 8, 0⟩) u t) ∧
        (u.availCells d 59 (cellsFor (x.data.length + 4)) = true →
          ∃ t, exec (.xdieCopyReceive d now) s = .next t ∧ t.nextId = u.nextId + 1 ∧
            u.cross.eraseP (fun x => x.dst == d.val) <+: t.cross ∧ SameBytes u t)) ∧
      ∀ m : Pair,
        (∀ (p : MPair) (h : MHeld), (u.mergePairs d).find? (fun p => p.m == m.val) = some p → u.lowestHeld d p = some h →
          h.due ≤ u.osc → ∃ t, exec (.mergeWindowExpiry d m now) s = .next t ∧
            t.get (.prs .CNT) d 13 = (u.get (.prs .CNT) d 13 + seqDist p.bits (u.get (.prs .xME) d m) h.seq) % 2 ^ 64 ∧
            (h.seq < 2 ^ p.bits → (t.heldOf d m).length < (u.heldOf d m).length) ∧ SameBytes u t) ∧
        ((∀ (p : MPair) (h : MHeld), (u.mergePairs d).find? (fun p => p.m == m.val) = some p → u.lowestHeld d p = some h →
            u.osc < h.due) → ∃ t, exec (.mergeWindowExpiry d m now) s = .next t ∧ Still u t) ∧
        ∀ b : Bool, ∀ ok : Fld, ok = (if b then .prs .MERGE_STAT_B_OK else .prs .MERGE_STAT_A_OK) →
          (u.flag ok d m = true → u.get (.prs .xMLAST) d m b.toNat ≤ u.osc →
            ∃ t, exec (.planeDown d m b now) s = .next t ∧ t.flag ok d m = false ∧
              Frame (fun k => k == ⟨ok, d, m, 0⟩ || evcKeys k) u t) ∧
          (u.flag ok d m = false ∨ u.osc < u.get (.prs .xMLAST) d m b.toNat →
            ∃ t, exec (.planeDown d m b now) s = .next t ∧ Still u t))

/-- Rule sets and port settings (R210, R226 to R231, R235): the staged accesses write and read one node, and with both actions
set do nothing; a publication at once swaps the slots and counts, or is refused while the other slot is old, and one for a
handover waits, while one that waits already takes no second; the old slot retires when no frame is left; a line that stays bad is
marked with a Contained fault; MODE changes only with no sub-port enabled, and a write that leaves MODE alone takes the enables and
the MTU; and a write of a merge pair resets it. -/
def Obligations.RuleSets : Prop :=
  (∀ (p : Party) (d : Die) (v : Word) (s : State), s.live = true → s.gateOf p .prs (some d.val) = .pass →
    (bitOf v.toNat 17 = false → ∃ t, exec (.nodeRead p d v) s = .next t ∧
      t.get (.prs .NODE_LO_NODE_LO) d = s.get (.prs .xNODE) d (v.toNat % 65536) % 2 ^ 32 ∧
      t.get (.prs .NODE_HI_NODE_HI) d = s.get (.prs .xNODE) d (v.toNat % 65536) / 2 ^ 32 % 2 ^ 32 ∧
      Frame (fun k => k.i == d.val && (k.fld == .prs .NODE_ADDR_INDEX || k.fld == .prs .NODE_LO_NODE_LO ||
        k.fld == .prs .NODE_HI_NODE_HI)) s t) ∧
    (bitOf v.toNat 16 = false → ∃ t, exec (.nodeWrite p d v) s = .next t ∧
      t.get (.prs .xNODE) d (v.toNat % 65536) =
        (s.get (.prs .NODE_HI_NODE_HI) d * 2 ^ 32 + s.get (.prs .NODE_LO_NODE_LO) d) % 2 ^ 64 ∧
      t.flag (.prs .xNODE_BAD) d (v.toNat % 65536 / 4) = false ∧
      Frame (fun k => k.i == d.val && (k.fld == .prs .NODE_ADDR_INDEX ||
        k == ⟨.prs .xNODE, d, v.toNat % 65536, 0⟩ || k == ⟨.prs .xNODE_BAD, d, v.toNat % 65536 / 4, 0⟩)) s t) ∧
    ((bitOf v.toNat 17 = true → ∃ t, exec (.nodeRead p d v) s = .next t ∧ Still s t) ∧
      (bitOf v.toNat 16 = true → ∃ t, exec (.nodeWrite p d v) s = .next t ∧ Still s t)) ∧
    (s.flag (.prs .GEN_STATUS_PUB_PENDING) d = true → ∃ t, exec (.publish p d v) s = .next t ∧ t.ruleSlot d = s.ruleSlot d ∧
      Frame (fun k => k == ⟨.prs .GEN_CTRL_HO_EN, d, 0, 0⟩ || k == ⟨.prs .GEN_CTRL_HO_SLOT, d, 0, 0⟩) s t) ∧
    (s.flag (.prs .GEN_STATUS_PUB_PENDING) d = false →
      (bitOf v.toNat 1 = false → s.slotOld d = false → ∃ t, exec (.publish p d v) s = .next t ∧
        t.ruleSlot d = (1 - s.ruleSlot d) % 2 ∧ t.flag (.prs .xOLD) d = true ∧
        t.get (.prs .GEN_STATUS_GEN) d = (s.get (.prs .GEN_STATUS_GEN) d + 1) % 2 ^ 16 ∧
        Frame (fun k => (k.fld.home == .prs && k.i == d.val) || evcKeys k) s t) ∧
      (bitOf v.toNat 1 = false → s.slotOld d = true → ∃ t, exec (.publish p d v) s = .next t ∧
        t.ruleSlot d = s.ruleSlot d ∧ t.flag (.prs .GEN_STATUS_PUB_BUSY) d = true ∧
        t.get (.prs .GEN_STATUS_GEN) d = s.get (.prs .GEN_STATUS_GEN) d ∧
        Frame (fun k => (k.fld.home == .prs && k.i == d.val) || evcKeys k) s t) ∧
      (bitOf v.toNat 1 = true → ∃ t, exec (.publish p d v) s = .next t ∧
        t.flag (.prs .GEN_STATUS_PUB_PENDING) d = true ∧ t.ruleSlot d = s.ruleSlot d ∧
        Frame (fun k => k.fld.home == .prs && k.i == d.val) s t)) ∧
    (∀ pp : Fin 2,
      (bitsOf v.toNat 0 2 ≠ s.get (.prs .PORT_CFG_MODE) d pp → s.get (.prs .PORT_CFG_EN) d pp ≠ 0 →
        ∃ t, exec (.portModeChange p d pp v) s = .next t ∧ Still s t) ∧
      (bitsOf v.toNat 0 2 ≠ s.get (.prs .PORT_CFG_MODE) d pp → s.get (.prs .PORT_CFG_EN) d pp = 0 →
        ∃ t, exec (.portModeChange p d pp v) s = .next t ∧ t.get (.prs .PORT_CFG_MODE) d pp = bitsOf v.toNat 0 2 ∧
          t.get (.prs .PORT_CFG_EN) d pp = bitsOf v.toNat 4 4 ∧ t.get (.prs .PORT_CFG_MTU) d pp = bitsOf v.toNat 16 14 ∧
          t.get (.prs .PORT_CFG_LINK_UP) d pp = 0 ∧
          Frame (fun k => k.fld.home == .prs && k.i == d.val && k.j == pp.val) s t) ∧
      (bitsOf v.toNat 0 2 = s.get (.prs .PORT_CFG_MODE) d pp →
        ∃ t, exec (.portModeChange p d pp v) s = .next t ∧
          t.get (.prs .PORT_CFG_EN) d pp = bitsOf v.toNat 4 4 ∧ t.get (.prs .PORT_CFG_MTU) d pp = bitsOf v.toNat 16 14 ∧
          t.get (.prs .PORT_CFG_LINK_UP) d pp = s.get (.prs .PORT_CFG_LINK_UP) d pp ∧ SameBytes s t ∧
          (∀ c ∈ t.copies, c ∈ s.copies) ∧
          ∀ c ∈ t.copies, ∀ k < 4, c.iface = 8 * d.val + 4 * pp.val + k → bitOf (s.get (.prs .PORT_CFG_EN) d pp) k = true →
            bitOf (bitsOf v.toNat 4 4) k = true)) ∧
    ∀ m : Pair, ∃ t, exec (.mergePairWrite p d m v) s = .next t ∧
      t.get (.prs .MERGE_FLOW_A) d m = bitsOf v.toNat 0 12 ∧ t.get (.prs .MERGE_FLOW_B) d m = bitsOf v.toNat 16 12 ∧
      t.get (.prs .MERGE_SEQ) d m = bitsOf v.toNat 29 2 ∧
      t.get (.prs .MERGE_EN) d m = bitsOf v.toNat 31 1 ∧ t.get (.prs .MERGE_STAT_SKEW_MAX) d m = 0 ∧
      t.flag (.prs .MERGE_STAT_A_OK) d m = false ∧ t.flag (.prs .MERGE_STAT_B_OK) d m = false ∧
      t.mheld = s.mheld.filter (fun h => !(h.die == d.val && h.pair == m.val)) ∧ SameBytes s t ∧
      SameRegs (fun k => (k.fld.home == .prs && k.i == d.val && k.j == m.val) || poolKeys k) s t) ∧
  (∀ (d : Die) (s : State), s.live = true →
    (s.safe = true ∨ s.dieUp d = false → ∃ t, exec (.rulesetSlotRetire d) s = .next t ∧ Still s t) ∧
    (s.safe = false → s.dieUp d = true →
      (s.flag (.prs .xOLD) d = true → s.slotOld d = false → ∃ t, exec (.rulesetSlotRetire d) s = .next t ∧
        t.flag (.prs .xOLD) d = false ∧ t.flag (.evc .SRC_CFG_PENDING) (852 + 8 * d) = true ∧
        Frame (fun k => k == ⟨.prs .xOLD, d, 0, 0⟩ || evcKeys k) s t) ∧
      (s.flag (.prs .xOLD) d = false ∨ s.slotOld d = true →
        ∃ t, exec (.rulesetSlotRetire d) s = .next t ∧ Still s t)) ∧
    ∀ line : Fin 16384,
      (s.safe = true ∨ s.dieUp d = false → ∀ good, ∃ t, exec (.nodeLineRefetch d line good) s = .next t ∧ Still s t) ∧
      (s.safe = false → s.dieUp d = true →
        (∃ t, exec (.nodeLineRefetch d line true) s = .next t ∧
          t.get (.prs .CNT) d 8 = (s.get (.prs .CNT) d 8 + 1) % 2 ^ 64 ∧ Frame (fun k => k == ⟨.prs .CNT, d, 8, 0⟩) s t) ∧
        ∃ t, exec (.nodeLineRefetch d line false) s = .next t ∧ t.flag (.prs .xNODE_BAD) d line = true ∧
          t.get (.prs .CNT) d 8 = (s.get (.prs .CNT) d 8 + 1) % 2 ^ 64 ∧
          t.get (.flt .CNT) 2 = (s.get (.flt .CNT) 2 + 1) % 2 ^ 64 ∧
          Frame (fun k => k == ⟨.prs .CNT, d, 8, 0⟩ || k == ⟨.prs .xNODE_BAD, d, line, 0⟩ || fltKeys k) s t))

-- Tables

/-- The commands that a write of a table register starts, with their table and operation (R260). -/
def Sys2Proof.tableCmds (p : Party) (d : Die) (v : Word) : List (TableId × Nat × Instr) :=
  [(.route, 1, .rtRead p d v), (.route, 3, .rtInsert p d v), (.route, 4, .rtDelete p d v), (.route, 5, .rtSearch p d v),
   (.flow, 1, .flRead p d v), (.flow, 2, .flWrite p d v), (.flow, 3, .flInsert p d v), (.flow, 4, .flDelete p d v),
   (.flow, 5, .flSearch p d v), (.bridge, 1, .brRead p d v), (.bridge, 2, .brWrite p d v), (.bridge, 3, .brInsert p d v),
   (.bridge, 4, .brDelete p d v), (.bridge, 5, .brSearch p d v), (.bridge, 6, .brFlush p d v),
   (.route, unsupportedOp .route (v.toNat % 8), .tableCmdUnsupported p d .route v),
   (.flow, unsupportedOp .flow (v.toNat % 8), .tableCmdUnsupported p d .flow v),
   (.bridge, 7, .tableCmdUnsupported p d .bridge v)]

/-- The end of a table command: its STATUS, BUSY clear, and CMD_DONE (R258). -/
def Sys2Proof.EndsWith (d : Die) (tb : TableId) (status : Nat) (t : State) : Prop :=
  t.get (cmdSTATUS tb) d = status ∧ t.flag (cmdBUSY tb) d = false ∧
  t.flag (.evc .SRC_CFG_PENDING) (848 + 8 * d + tblIx tb) = true

/-- The staging data of a route command (R260). -/
def Sys2Proof.staged (d : Die) (handle len : Nat) (t : State) : Prop :=
  t.get (.fwd .RT_DATA_HANDLE) d = handle % 2 ^ 12 ∧ t.get (.fwd .RT_DATA_MATCH_LEN) d = len % 2 ^ (Fld.fwd .RT_DATA_MATCH_LEN).width

/-- The key of a route, and a route with another handle. -/
def Sys2Proof.isRoute (d : Die) (fam len a : Nat) (r : Route) : Bool :=
  r.die == d.val && r.fam == fam && r.len == len && r.pfx == a
def Sys2Proof.Machine.Route.withHandle (same : Route → Bool) (h : Nat) (r : Route) : Route := if same r then { r with handle := h } else r

/-- What a route command leaves (R242, R243, R260, R262), for its operation, family, prefix length and key: READ and SEARCH stage
a handle, INSERT adds a prefix that fits or changes the handle of one that is there, and DELETE takes it away. -/
def Sys2Proof.RouteEnds (d : Die) (op fam len a handle : Nat) (u t : State) : Prop :=
  let same := isRoute d fam len a
  (op = 1 → t.routes = u.routes ∧
    (prefixOk fam len a = false → EndsWith d .route tsBADENTRY t) ∧
    (prefixOk fam len a = true →
      (∀ r, u.routes.find? same = some r → EndsWith d .route tsOK t ∧ t.get (.fwd .RT_DATA_HANDLE) d = r.handle % 2 ^ 12) ∧
      (u.routes.find? same = none → EndsWith d .route tsNOT_FOUND t ∧ staged d 0 0 t))) ∧
  (op = 3 →
    (prefixOk fam len a = false → EndsWith d .route tsBADENTRY t ∧ t.routes = u.routes) ∧
    (prefixOk fam len a = true → u.routes.any same = true →
      EndsWith d .route tsOK t ∧ t.routes = u.routes.map (Machine.Route.withHandle same (handle % 4096))) ∧
    (prefixOk fam len a = true → u.routes.any same = false →
      (trieFits fam (⟨d, fam, len, a, handle % 4096⟩ :: u.routesOf d fam) = true →
        EndsWith d .route tsOK t ∧ t.routes = u.routes ++ [⟨d, fam, len, a, handle % 4096⟩]) ∧
      (trieFits fam (⟨d, fam, len, a, handle % 4096⟩ :: u.routesOf d fam) = false →
        EndsWith d .route tsFULL t ∧ t.routes = u.routes))) ∧
  (op = 4 →
    (prefixOk fam len a = false → EndsWith d .route tsBADENTRY t ∧ t.routes = u.routes) ∧
    (prefixOk fam len a = true →
      (u.routes.any same = true → EndsWith d .route tsOK t ∧ t.routes = u.routes.filter (fun r => !same r)) ∧
      (u.routes.any same = false → EndsWith d .route tsNOT_FOUND t ∧ staged d 0 0 t ∧ t.routes = u.routes))) ∧
  (op = 5 → t.routes = u.routes ∧
    (∀ r, u.trieBad d fam a = false → u.lpm d fam a = some r → EndsWith d .route tsOK t ∧ staged d r.handle r.len t) ∧
    (u.trieBad d fam a = true ∨ u.lpm d fam a = none → EndsWith d .route tsNOT_FOUND t ∧ staged d 0 0 t)) ∧
  (op = 7 → EndsWith d .route tsUNSUPPORTED t ∧ t.routes = u.routes)

/-- What a flow command leaves (R246, R260, R262), for its operation, handle and entry: READ and SEARCH stage the entry, WRITE
and INSERT write one that may be written, INSERT only where none is valid, and DELETE clears it; the entries of other handles
stay. -/
def Sys2Proof.FlowEnds (d : Die) (op h e : Nat) (u t : State) : Prop :=
  (∀ g, g ≠ h → t.get (.fwd .xFLOW) d g = u.get (.fwd .xFLOW) d g) ∧
  (op = 1 ∨ op = 5 → EndsWith d .flow tsOK t ∧ t.get (.fwd .xFLOW) d h = u.get (.fwd .xFLOW) d h ∧
    t.get (.fwd .FL_DATA_LO_ENTRY_LO) d = u.get (.fwd .xFLOW) d h % 2 ^ 32 ∧
    t.get (.fwd .FL_DATA_HI_ENTRY_HI) d = u.get (.fwd .xFLOW) d h / 2 ^ 32 % 2 ^ 32) ∧
  (op = 2 ∨ op = 3 →
    (flowOk d e = false → EndsWith d .flow tsBADENTRY t ∧ t.get (.fwd .xFLOW) d h = u.get (.fwd .xFLOW) d h) ∧
    (flowOk d e = true →
      (op = 3 → bitOf (u.get (.fwd .xFLOW) d h) 63 = true →
        EndsWith d .flow tsEXISTS t ∧ t.get (.fwd .xFLOW) d h = u.get (.fwd .xFLOW) d h) ∧
      (op = 2 ∨ bitOf (u.get (.fwd .xFLOW) d h) 63 = false → EndsWith d .flow tsOK t ∧ t.get (.fwd .xFLOW) d h = e % 2 ^ 64 ∧
        t.flag (.fwd .xFL_BAD) d (h / 16) = false))) ∧
  (op = 4 → EndsWith d .flow tsOK t ∧ t.get (.fwd .xFLOW) d h = 0 ∧ t.flag (.fwd .xFL_BAD) d (h / 16) = false) ∧
  (op = 7 → EndsWith d .flow tsUNSUPPORTED t ∧ t.get (.fwd .xFLOW) d h = u.get (.fwd .xFLOW) d h)

/-- A bridge entry cut to the widths of its fields. -/
def Sys2Proof.Machine.BrEntry.cut (e : BrEntry) : BrEntry :=
  { e with vid := e.vid % 2 ^ 12, mac := e.mac % 2 ^ 48, iface := e.iface % 16 }

/-- The bridge key staged. -/
def Sys2Proof.brKeyStaged (d : Die) (vid mac : Nat) (t : State) : Prop :=
  t.get (.fwd .BR_KEY_LO_MAC_LO) d = mac % 2 ^ 32 ∧ t.get (.fwd .BR_KEY_HI_MAC_HI) d = mac / 2 ^ 32 % 2 ^ 16 ∧
  t.get (.fwd .BR_KEY_HI_VID) d = vid % 2 ^ 12

/-- What a bridge command leaves where no entry that it reads has a parity error (R249, R252, R260), for its operation, INDEX,
key and data: READ stages a slot, WRITE writes one in a bucket of the key, INSERT enters a key that is not there, DELETE takes
it away, SEARCH stages it with its slot, and FLUSH takes away the dynamic entries of one interface or of all. -/
def Sys2Proof.BridgeEnds (d : Die) (op ix vid mac data : Nat) (u t : State) : Prop :=
  let slot := ix % 32768
  let keep := ∀ m, t.br d m = u.br d m
  (op = 1 → keep ∧
    (∀ e, e = u.br d slot → e.valid = true → EndsWith d .bridge tsOK t ∧ brKeyStaged d e.vid e.mac t ∧
      t.get (.fwd .BR_DATA_IF) d = e.iface % 16 ∧ t.flag (.fwd .BR_DATA_VALID) d = true) ∧
    ((u.br d slot).valid = false → EndsWith d .bridge tsNOT_FOUND t ∧ brKeyStaged d 0 0 t ∧ t.brStage d = 0)) ∧
  (op = 2 →
    (slot / 4 = (brBuckets vid mac).1 ∨ slot / 4 = (brBuckets vid mac).2 → EndsWith d .bridge tsOK t ∧
      t.br d slot = (if bitOf data 31 then (brOf vid mac data).cut else brNone) ∧ ∀ m, m ≠ slot → t.br d m = u.br d m) ∧
    (slot / 4 ≠ (brBuckets vid mac).1 ∧ slot / 4 ≠ (brBuckets vid mac).2 → EndsWith d .bridge tsBADENTRY t ∧ keep)) ∧
  (op = 3 →
    (u.brFind d vid mac ≠ none → EndsWith d .bridge tsEXISTS t ∧ keep) ∧
    (u.brFind d vid mac = none → ∀ e, e = { brOf vid mac data with valid := true } →
      (brInsert d e u = none → EndsWith d .bridge tsFULL t ∧ keep) ∧
      (∀ n, u.brFree d (brBuckets vid mac).1 = some n → EndsWith d .bridge tsOK t ∧ t.br d n = e.cut ∧
        ∀ m, m ≠ n → t.br d m = u.br d m) ∧
      (∀ r, brInsert d e u = some r → EndsWith d .bridge tsOK t))) ∧
  (op = 4 →
    (∀ n, u.brFind d vid mac = some n → EndsWith d .bridge tsOK t ∧ (t.br d n).valid = false ∧
      ∀ m, m ≠ n → t.br d m = u.br d m) ∧
    (u.brFind d vid mac = none → EndsWith d .bridge tsNOT_FOUND t ∧ keep ∧ t.brStage d = 0)) ∧
  (op = 5 → keep ∧
    (∀ n, u.brFind d vid mac = some n → EndsWith d .bridge tsOK t ∧ t.get (.fwd .BR_CMD_INDEX) d = n % 2 ^ 16 ∧
      t.get (.fwd .BR_DATA_IF) d = u.get (.fwd .xBR_IF) d n % 16) ∧
    (u.brFind d vid mac = none → EndsWith d .bridge tsNOT_FOUND t ∧ t.brStage d = 0)) ∧
  (op = 6 → EndsWith d .bridge tsOK t ∧ ∀ m < 32768, (u.br d m).valid = true →
    ((u.br d m).static = true ∨ (bitOf ix 15 = true ∧ (u.br d m).iface ≠ ix % 16) → t.br d m = u.br d m) ∧
    ((u.br d m).static = false → bitOf ix 15 = false ∨ (u.br d m).iface = ix % 16 → (t.br d m).valid = false)) ∧
  (op = 7 → EndsWith d .bridge tsUNSUPPORTED t ∧ keep)

/-- Table commands (R258, R260, R261, R263, R264). Once the tables are loaded a command sets BUSY with its operation and
index; while one runs it sets LOST and starts nothing; before, it starts nothing. At its end STATUS and BUSY change with
CMD_DONE, and no byte of memory does; a command on a poisoned line of a route or flow table has STATUS 7 and changes no entry;
any other leaves what its operation says: a prefix added, changed, deleted or staged, a flow entry written, cleared or staged,
a bridge entry written, entered, taken away or staged, and an operation that a table does not support has STATUS 6. A bridge
READ, DELETE or SEARCH that meets a slot of bad parity removes that entry, and READ has STATUS 7 and counts it. A command that
outlasts its timeout has STATUS 5, is counted, and leaves the prefixes and the flow entries, and but for a flush the bridge
entries, as they were. What does not run and is not late changes nothing. -/
def Obligations.TableEnds : Prop :=
  (∀ (d : Die) (now : Now) (s u : State), s.live = true → u = s.atNow now →
    (∀ (tb : TableId) (poisoned : Bool) (slots : List Nat),
      (u.flag (cmdBUSY tb) d = false →
        ∃ t, exec (.tableCmdComplete d tb ⟨poisoned, slots⟩ now) s = .next t ∧ Still u t) ∧
      (u.flag (cmdBUSY tb) d = true →
        ∃ t, exec (.tableCmdComplete d tb ⟨poisoned, slots⟩ now) s = .next t ∧ t.flag (cmdBUSY tb) d = false ∧
          t.flag (.evc .SRC_CFG_PENDING) (848 + 8 * d + tblIx tb) = true ∧ SameBytes u t ∧
          SameRegs (fun k => (k.fld.home == .fwd && k.i == d.val) || evcKeys k) u t)) ∧
    (∀ (slots : List Nat) (op : Nat), u.flag (.fwd .RT_CMD_BUSY) d = true → op = u.get (.fwd .xCMD_OP) d 0 →
      (op ≠ 7 → ∃ t, exec (.tableCmdComplete d .route ⟨true, slots⟩ now) s = .next t ∧ EndsWith d .route tsPOISON t ∧ staged d 0 0 t ∧
        t.routes = u.routes) ∧
      ∀ fam, fam = u.get (.fwd .xCMD_FAM) d 0 → ∃ t, exec (.tableCmdComplete d .route ⟨false, slots⟩ now) s = .next t ∧
        RouteEnds d op fam (u.get (.fwd .xCMD_IX) d 0 % 128)
          (routeKey fam (u.get (.fwd .xCMD_K0) d 0) (u.get (.fwd .xCMD_K1) d 0)) (u.get (.fwd .xCMD_D0) d 0) u t) ∧
    (∀ (slots : List Nat) (op : Nat), u.flag (.fwd .FL_CMD_BUSY) d = true → op = u.get (.fwd .xCMD_OP) d 1 →
      (op ≠ 7 → ∃ t, exec (.tableCmdComplete d .flow ⟨true, slots⟩ now) s = .next t ∧ EndsWith d .flow tsPOISON t ∧
        t.get (.fwd .FL_DATA_LO_ENTRY_LO) d = 0 ∧ t.get (.fwd .FL_DATA_HI_ENTRY_HI) d = 0 ∧
        ∀ g, t.get (.fwd .xFLOW) d g = u.get (.fwd .xFLOW) d g) ∧
      ∃ t, exec (.tableCmdComplete d .flow ⟨false, slots⟩ now) s = .next t ∧
        FlowEnds d op (u.get (.fwd .xCMD_IX) d 1 % 4096) (u.get (.fwd .xCMD_D0) d 1 + u.get (.fwd .xCMD_D1) d 1 * 2 ^ 32) u t) ∧
    (∀ (poisoned : Bool) (slots : List Nat) (op ix mac vid : Nat), u.flag (.fwd .BR_CMD_BUSY) d = true →
      op = u.get (.fwd .xCMD_OP) d 2 → ix = u.get (.fwd .xCMD_IX) d 2 →
      mac = u.get (.fwd .xCMD_K0) d 2 + u.get (.fwd .xCMD_K1) d 2 % 65536 * 2 ^ 32 → vid = bitsOf (u.get (.fwd .xCMD_K1) d 2) 16 12 →
      ((∀ n ∈ slots, (u.br d n).valid = false ∨
          brReads op ix (u.get (.fwd .xCMD_K0) d 2) (u.get (.fwd .xCMD_K1) d 2) n = false) →
        ∃ t, exec (.tableCmdComplete d .bridge ⟨poisoned, slots⟩ now) s = .next t ∧
          BridgeEnds d op ix vid mac (u.get (.fwd .xCMD_D0) d 2) u t) ∧
      (op = 1 → ix % 32768 ∈ slots → (u.br d (ix % 32768)).valid = true →
        ∃ t, exec (.tableCmdComplete d .bridge ⟨poisoned, slots⟩ now) s = .next t ∧ EndsWith d .bridge tsPOISON t ∧
          (t.br d (ix % 32768)).valid = false ∧ t.get (.fwd .CNT) d 13 = (u.get (.fwd .CNT) d 13 + 1) % 2 ^ 64) ∧
      (∀ n ∈ slots, op = 4 ∨ op = 5 → n / 4 = (brBuckets vid mac).1 ∨ n / 4 = (brBuckets vid mac).2 → (u.br d n).valid = true →
        ∃ t, exec (.tableCmdComplete d .bridge ⟨poisoned, slots⟩ now) s = .next t ∧ (t.br d n).valid = false)) ∧
    ∀ tb : TableId,
      (u.flag (cmdBUSY tb) d = true → u.expired (.fwd .xCMD_DUE) d (tblIx tb) = true →
        ∃ t, exec (.tableCmdTimeout d tb now) s = .next t ∧ EndsWith d tb tsTIMEOUT t ∧
          t.get (.fwd .CNT) d 15 = (u.get (.fwd .CNT) d 15 + 1) % 2 ^ 64 ∧ t.routes = u.routes ∧ SameBytes u t ∧
          (∀ h, t.get (.fwd .xFLOW) d h = u.get (.fwd .xFLOW) d h) ∧
          (tb ≠ .bridge ∨ u.get (.fwd .xCMD_OP) d 2 ≠ 6 → ∀ m, t.br d m = u.br d m) ∧
          ∀ m, t.br d m = u.br d m ∨ (t.br d m).valid = false) ∧
      (u.flag (cmdBUSY tb) d = false ∨ u.expired (.fwd .xCMD_DUE) d (tblIx tb) = false →
        ∃ t, exec (.tableCmdTimeout d tb now) s = .next t ∧ Still u t)) ∧
  ∀ (p : Party) (d : Die) (v : Word) (s : State) (c : TableId × Nat × Instr), s.live = true →
    s.gateOf p .fwd (some d.val) = .pass → c ∈ tableCmds p d v →
    (s.flag (.fwd .STATUS_READY) d = true → s.flag (cmdBUSY c.1) d = false →
      ∃ t, exec c.2.2 s = .next t ∧ t.flag (cmdBUSY c.1) d = true ∧ t.get (cmdOP c.1) d = c.2.1 ∧
        t.get (.fwd .xCMD_OP) d (tblIx c.1) = c.2.1 ∧ t.get (.fwd .xCMD_IX) d (tblIx c.1) = v.toNat / 2 ^ 16 ∧
        Frame (fun k => k.fld.home == .fwd && k.i == d.val) s t) ∧
    (s.flag (.fwd .STATUS_READY) d = true → s.flag (cmdBUSY c.1) d = true →
      ∃ t, exec c.2.2 s = .next t ∧ t.flag (cmdLOST c.1) d = true ∧ Frame (fun k => k == ⟨cmdLOST c.1, d, 0, 0⟩) s t) ∧
    (s.flag (.fwd .STATUS_READY) d = false →
      ∃ t, exec c.2.2 s = .next t ∧ Frame (fun k => k == ⟨cmdLOST c.1, d, 0, 0⟩) s t)

/-- A route lookup takes the longest prefix that covers the address (R242): what it finds is a prefix of the family that covers
the address, no other that covers it is longer, and it finds nothing only where none covers it. -/
def Obligations.LongestPrefix : Prop :=
  ∀ (d fam a : Nat) (s : State),
    (∀ r, s.lpm d fam a = some r → r ∈ s.routes ∧ r.die = d ∧ r.fam = fam ∧ r.covers a = true ∧
      ∀ q ∈ s.routes, q.die = d → q.fam = fam → q.covers a = true → q.len ≤ r.len) ∧
    (s.lpm d fam a = none → ∀ q ∈ s.routes, q.die = d → q.fam = fam → q.covers a = false)

/-- Learning, aging and the protection of the tables (R251, R255 to R257, R262, R263, R394): a learn request marks an entry
that is there, enters where its first bucket has room, and is dropped with its count where no way is free; the aging period
makes a sweep due; a sweep that is due starts where the spec lets it, inverts the parity and leaves static entries alone, and
a shed one is counted; its end is an event; a line that stays bad is marked with a Contained fault, a bridge entry of bad
parity is removed, and a trie line is rebuilt from the prefix list or lost. On a die that is down, in the safe state, and
where nothing is due, nothing changes. -/
def Obligations.TableUpkeep : Prop :=
  ∀ (d : Die) (now : Now) (s u : State), s.live = true → u = s.atNow now →
    (u.safe = true ∨ u.dieUp d = false → ∀ i ∈ [Instr.learnInsert d now, .agingSweep d now, .agingSweepEnd d now],
      ∃ t, exec i s = .next t ∧ Still u t) ∧
    (u.safe = false → u.dieUp d = true →
      (u.learns.find? (fun l => l.die == d.val) = none → ∃ t, exec (.learnInsert d now) s = .next t ∧ Still u t) ∧
      (∀ (l : Learn) (r : State), u.learns.find? (fun l => l.die == d.val) = some l →
        r = { u with learns := u.learns.eraseP (fun x => x.die == d.val) } →
        (∀ n, u.brFind d l.vid l.mac = some n → ∃ t, exec (.learnInsert d now) s = .next t ∧
          t.flag (.fwd .xBR_HIT) d n = true ∧ Frame (fun k => k == ⟨.fwd .xBR_HIT, d, n, 0⟩) r t) ∧
        (u.brFind d l.vid l.mac = none →
          (∀ n, u.brFree d (brBuckets l.vid l.mac).1 = some n → ∃ t, exec (.learnInsert d now) s = .next t ∧
            t.br d n = ⟨true, l.vid % 2 ^ 12, l.mac % 2 ^ 48, l.iface % 16, false, true, false, u.flag (.fwd .STATUS_PARITY) d⟩ ∧
            t.get (.fwd .CNT) d 6 = (u.get (.fwd .CNT) d 6 + 1) % 2 ^ 64 ∧
            Frame (fun k => (k.fld.home == .fwd && k.i == d.val && k.j == n) || k == ⟨.fwd .CNT, d, 6, 0⟩) r t) ∧
          (brInsert d { brLearned l with sweep := u.flag (.fwd .STATUS_PARITY) d } r = none →
            ∃ t, exec (.learnInsert d now) s = .next t ∧
              t.get (.fwd .CNT) d 9 = (u.get (.fwd .CNT) d 9 + 1) % 2 ^ 64 ∧
              Frame (fun k => k == ⟨.fwd .CNT, d, 9, 0⟩) r t) ∧
          ∃ t, exec (.learnInsert d now) s = .next t ∧ t.learns = r.learns)) ∧
      (u.flag (.fwd .xAGE_DUE) d = true → u.sweepMayStart d = true → u.flag (.fwd .STATUS_SWEEP_ACTIVE) d = false →
        (u.get (.ost .STATUS_SHED_LEVEL) d < 3 → ∃ t, exec (.agingSweep d now) s = .next t ∧
          t.flag (.fwd .STATUS_SWEEP_ACTIVE) d = true ∧ t.flag (.fwd .xAGE_DUE) d = false ∧
          t.flag (.fwd .STATUS_PARITY) d = !u.flag (.fwd .STATUS_PARITY) d ∧
          (∀ n, (u.br d n).static = true → t.br d n = u.br d n) ∧
          Frame (fun k => k.fld.home == .fwd && k.i == d.val) u t) ∧
        (3 ≤ u.get (.ost .STATUS_SHED_LEVEL) d → ∃ t, exec (.agingSweep d now) s = .next t ∧
          t.get (.fwd .CNT) d 14 = (u.get (.fwd .CNT) d 14 + 1) % 2 ^ 64 ∧ t.flag (.fwd .xAGE_DUE) d = false ∧
          t.get (.ost .CNT) d 8 = (u.get (.ost .CNT) d 8 + 1) % 2 ^ 64 ∧
          Frame (fun k => k == ⟨.fwd .CNT, d, 14, 0⟩ || k == ⟨.fwd .xAGE_DUE, d, 0, 0⟩ || k == ⟨.ost .CNT, d, 8, 0⟩) u t)) ∧
      (u.flag (.fwd .xAGE_DUE) d = false ∨ u.sweepMayStart d = false ∨ u.flag (.fwd .STATUS_SWEEP_ACTIVE) d = true →
        ∃ t, exec (.agingSweep d now) s = .next t ∧ Still u t) ∧
      (u.flag (.fwd .STATUS_SWEEP_ACTIVE) d = true → ∃ t, exec (.agingSweepEnd d now) s = .next t ∧
        t.flag (.fwd .STATUS_SWEEP_ACTIVE) d = false ∧ t.flag (.evc .SRC_CFG_PENDING) (853 + 8 * d) = true ∧
        Frame (fun k => k == ⟨.fwd .STATUS_SWEEP_ACTIVE, d, 0, 0⟩ || evcKeys k) u t) ∧
      (u.flag (.fwd .STATUS_SWEEP_ACTIVE) d = false → ∃ t, exec (.agingSweepEnd d now) s = .next t ∧ Still u t)) ∧
    (u.expired (.fwd .xAGE_NEXT) d = true → ∃ t, exec (.agePeriodExpiry d now) s = .next t ∧
      t.flag (.fwd .xAGE_DUE) d = true ∧ t.get (.fwd .xAGE_NEXT) d = u.dueIn (u.agePeriodNs d) % 2 ^ 64 ∧
      t.get (.fwd .xAGE_TAI) d = (if u.tbState = tbFREE then 0 else u.tai) ∧
      Frame (fun k => k == ⟨.fwd .xAGE_DUE, d, 0, 0⟩ || k == ⟨.fwd .xAGE_NEXT, d, 0, 0⟩ || k == ⟨.fwd .xAGE_TAI, d, 0, 0⟩) u t) ∧
    (u.expired (.fwd .xAGE_NEXT) d = false → ∃ t, exec (.agePeriodExpiry d now) s = .next t ∧ Still u t) ∧
    ∀ line : Nat,
      (s.safe = true ∨ s.dieUp d = false → ∀ (tb : TableId) (good : Bool),
        ∀ i ∈ [Instr.tableLineRefetch d tb line good, .trieLineRebuild d line good], ∃ t, exec i s = .next t ∧ Still s t) ∧
      (s.safe = false → s.dieUp d = true →
        (∀ tb : TableId, tb ≠ .bridge → ∃ t, exec (.tableLineRefetch d tb line true) s = .next t ∧
          t.get (.fwd .CNT) d 11 = (s.get (.fwd .CNT) d 11 + 1) % 2 ^ 64 ∧
          Frame (fun k => k == ⟨.fwd .CNT, d, 11, 0⟩) s t) ∧
        (∀ tb : TableId, tb ≠ .bridge → ∃ t, exec (.tableLineRefetch d tb line false) s = .next t ∧
          t.flag (if tb = .flow then .fwd .xFL_BAD else .fwd .xRT_BAD) d (if tb = .flow then line % 256 else line) = true ∧
          t.get (.fwd .CNT) d 12 = (s.get (.fwd .CNT) d 12 + 1) % 2 ^ 64 ∧
          t.get (.flt .CNT) 2 = (s.get (.flt .CNT) 2 + 1) % 2 ^ 64 ∧
          Frame (fun k => (k.fld.home == .fwd && k.i == d.val) || fltKeys k) s t) ∧
        (∀ good, ∃ t, exec (.tableLineRefetch d .bridge line good) s = .next t ∧ (t.br d (line % 32768)).valid = false ∧
          t.get (.fwd .CNT) d 13 = (s.get (.fwd .CNT) d 13 + 1) % 2 ^ 64 ∧
          Frame (fun k => k == ⟨.fwd .CNT, d, 13, 0⟩ || (k.fld.home == .fwd && k.i == d.val && k.j == line % 32768)) s t) ∧
        (∃ t, exec (.trieLineRebuild d line true) s = .next t ∧ t.flag (.fwd .xRT_BAD) d line = false ∧
          Frame (fun k => k == ⟨.fwd .xRT_BAD, d, line, 0⟩) s t) ∧
        ∃ t, exec (.trieLineRebuild d line false) s = .next t ∧ t.flag (.fwd .STATUS_RT_LOST) d = true ∧
          Frame (fun k => k == ⟨.fwd .STATUS_RT_LOST, d, 0, 0⟩) s t)

-- Pools

/-- A buffer that a pool grants is one that nobody holds (R284, R288): whichever free buffer it is, no held buffer has its
group, class and index, and it is the only one that is added. -/
def Obligations.GrantedBufferFree : Prop :=
  ∀ (d g c o : Nat) (s : State), (grantBuf d g c o s).2.bufs = s.bufs ++ [(grantBuf d g c o s).1] ∧
    (grantBuf d g c o s).1.owner = o ∧
    ∀ b ∈ s.bufs, ¬(b.grp = g ∧ b.cls = c ∧ b.ix = (grantBuf d g c o s).1.ix)

/-- The class of a host's request (R289, R298): the one it names, or the smallest that holds its size. -/
def Sys2Proof.reqClass (v : Word) : Nat := if bitOf v.toNat 2 then bitsOf v.toNat 4 3 else classFor (bitsOf v.toNat 4 28 * 1024)

/-- The result of a host's request stands in HRES within 1,500 edges of the local oscillator (R298). -/
def Sys2Proof.Resulted (d : Die) (n : HostPort) (status : Nat) (s t : State) : Prop :=
  t.flag (.pdk .HRES_VALID) d n = true ∧ t.get (.pdk .HRES_STATUS) d n = status ∧ t.get (.pdk .xHRES_AT) d n ≤ s.osc + 1500

/-- Host requests of the buffer pools (R287, R288, R289, R291, R292, R298, R299): before the pools are ready an allocation
answers NOTREADY; an allocation alone on its edge with a buffer available grants one of its class from the owner's home group,
and one that finds none, that may not grow, or that exceeds the largest class answers EMPTY; beside others it has one of the
two results; a free of an owned handle returns it, and any other is refused with its status and a Notice; a request while the
last one has not completed is lost with HLOST, and one in another port's window does nothing. A reserve is set where it does
not grow or the free pool covers it, a class reserve also before its pool is ready, and is otherwise kept with RSV_ERR and its
count; a channel's class reserve ignores writes. -/
def Obligations.HostBuffers : Prop :=
  ∀ (p : Party) (d : Die) (v : Word) (s : State), s.live = true → s.gateOf p .pdk (some d.val) = .pass →
    (∀ (n : HostPort) (rivals : List Rival), p.port = some n.val → s.hostBusy d n = true →
      ∀ i ∈ [Instr.hostAlloc p d n v rivals, .hostFree p d n v], ∃ t, exec i s = .next t ∧
        t.flag (.pdk .STATUS_HLOST) d = true ∧ Frame (fun k => k == ⟨.pdk .STATUS_HLOST, d, 0, 0⟩) s t) ∧
    (∀ n : HostPort, p.port = some n.val → s.hostBusy d n = false →
      (∀ rivals : List Rival, s.flag (.pdk .STATUS_DRAM_READY) d = false →
        ∃ t, exec (.hostAlloc p d n v rivals) s = .next t ∧ Resulted d n stNOTREADY s t ∧
          Frame (fun k => k.fld.home == .pdk && k.i == d.val && (k.j == n.val || k == ⟨.pdk .CNT, d, 1, 0⟩)) s t) ∧
      (s.flag (.pdk .STATUS_DRAM_READY) d = true →
        (s.availBuf d (s.homeGroup d (56 + n)) (reqClass v) (56 + n) = true → reqClass v < 8 →
          ∃ t, exec (.hostAlloc p d n v []) s = .next t ∧ Resulted d n stOK s t ∧
            ∃ b : Buf, t.bufs = s.bufs ++ [b] ∧ b.owner = 56 + n ∧
              b.cls = reqClass v ∧ b.grp = s.homeGroup d (56 + n) ∧ t.get (.pdk .HRES_HANDLE) d n = b.handle % 2 ^ 22) ∧
        (8 ≤ reqClass v ∨ (s.availBuf d (s.homeGroup d (56 + n)) (reqClass v) (56 + n) = false ∧
            (s.maxUp d (56 + n) = 0 ∨ reqClass v = 7)) →
          ∃ t, exec (.hostAlloc p d n v []) s = .next t ∧ Resulted d n stEMPTY s t ∧ t.bufs = s.bufs) ∧
        ∀ rivals : List Rival, ∃ t, exec (.hostAlloc p d n v rivals) s = .next t ∧
          (Resulted d n stOK s t ∨ Resulted d n stEMPTY s t) ∧ s.bufs <+: t.bufs ∧ SameBytes s t) ∧
      (s.freeStatus d (56 + n) v.toNat = stOK → ∃ t, exec (.hostFree p d n v) s = .next t ∧ Resulted d n stOK s t ∧
        t.bufs = s.bufs.filter (fun b => b.handle != v.toNat % 2 ^ 22) ∧ SameBytes s t) ∧
      (s.freeStatus d (56 + n) v.toNat ≠ stOK → ∃ t, exec (.hostFree p d n v) s = .next t ∧
        Resulted d n (s.freeStatus d (56 + n) v.toNat) s t ∧ t.bufs = s.bufs ∧
        t.get (.flt .CNT) 0 = (s.get (.flt .CNT) 0 + 1) % 2 ^ 64 ∧ SameBytes s t)) ∧
    (∀ (n : HostPort) (rivals : List Rival), p.port ≠ some n.val → ∀ i ∈ [Instr.hostAlloc p d n v rivals, .hostFree p d n v],
      ∃ t, exec i s = .next t ∧ Still s t) ∧
    ∀ o : Fin 64,
      (v.toNat % 2 ^ 17 ≤ s.cellRsv d o ∨ s.cellCovers d o (v.toNat % 2 ^ 17) = true →
        ∃ t, exec (.reserveWrite p d o none v) s = .next t ∧ t.get (.pdk .OWN_CELL_RSV) d o = v.toNat % 2 ^ 17 ∧
          t.get (.pdk .OWN_CELL_MAX) d o = bitsOf v.toNat 17 15 ∧
          Frame (fun k => k == ⟨.pdk .OWN_CELL_RSV, d, o, 0⟩ || k == ⟨.pdk .OWN_CELL_MAX, d, o, 0⟩) s t) ∧
      (s.cellRsv d o < v.toNat % 2 ^ 17 → s.cellCovers d o (v.toNat % 2 ^ 17) = false →
        ∃ t, exec (.reserveWrite p d o none v) s = .next t ∧
          t.get (.pdk .OWN_CELL_RSV) d o = s.get (.pdk .OWN_CELL_RSV) d o ∧ t.flag (.pdk .STATUS_RSV_ERR) d = true ∧
          t.get (.pdk .CNT) d 9 = (s.get (.pdk .CNT) d 9 + 1) % 2 ^ 64 ∧
          Frame (fun k => k == ⟨.pdk .OWN_CELL_MAX, d, o, 0⟩ || k == ⟨.pdk .STATUS_RSV_ERR, d, 0, 0⟩ ||
            k == ⟨.pdk .CNT, d, 9, 0⟩) s t) ∧
      ∀ c : Fin 8,
        (o.val < 48 → ∃ t, exec (.reserveWrite p d o (some c) v) s = .next t ∧ Still s t) ∧
        (48 ≤ o.val → s.flag (.pdk .STATUS_DRAM_READY) d = false ∨ v.toNat % 2 ^ 16 ≤ s.get (.pdk .OWN_RSV_RSV) d o c ∨
            s.classCovers d o c (v.toNat % 2 ^ 16) = true →
          ∃ t, exec (.reserveWrite p d o (some c) v) s = .next t ∧ t.get (.pdk .OWN_RSV_RSV) d o c = v.toNat % 2 ^ 16 ∧
            Frame (fun k => k == ⟨.pdk .OWN_RSV_RSV, d, o, c⟩) s t) ∧
        (48 ≤ o.val → s.flag (.pdk .STATUS_DRAM_READY) d = true → s.get (.pdk .OWN_RSV_RSV) d o c < v.toNat % 2 ^ 16 →
            s.classCovers d o c (v.toNat % 2 ^ 16) = false →
          ∃ t, exec (.reserveWrite p d o (some c) v) s = .next t ∧ t.flag (.pdk .STATUS_RSV_ERR) d = true ∧
            t.get (.pdk .CNT) d 9 = (s.get (.pdk .CNT) d 9 + 1) % 2 ^ 64 ∧
            Frame (fun k => k == ⟨.pdk .STATUS_RSV_ERR, d, 0, 0⟩ || k == ⟨.pdk .CNT, d, 9, 0⟩) s t)

-- Memory

/-- A line write (R305, R307, R308, R311, R312): the write-back of the line that waits is settled first, and a write of fewer
than 256 bytes to a line that has been written reads it. Where that read finds nothing, or there is none, the write changes
the bytes it names, no byte of another line and, with no write-back waiting, no other byte of any memory, and the poison of
its line by the rule of R308. Where the read finds something, and no device reaches the threshold of R309, the bytes that are
not named stand as the read left them. In a LOST group the write is dropped, and where its die does not serve, or it names no
byte, nothing changes. -/
def Obligations.LineWrites : Prop :=
  ∀ (g : Group) (la : Fin 16777216) (off : Fin 256) (bytes b : List Byte) (tags : Nat) (side : Option Nat) (flips : List Flip)
      (s m u : State),
    s.live = true → b = bytes.take (256 - off) → m = meetWriteBack g la s → u = lineCheck g la flips m →
    (s.safe = false → s.dieUp (g / 4) = true → s.grpLost g = false → b ≠ [] →
      (b.length = 256 ∨ s.flag (.dmc .xINIT) g (la / 32) = false ∨ m.readsClean g la flips = true →
        ∃ t, exec (.dramWrite g la off bytes tags ⟨side, flips⟩) s = .next t ∧
          (∀ (i : Nat) (h : i < b.length), t.dram.get (dramAddr g (la * 256 + off) + i) = b[i]) ∧
          (∀ a : Nat, a < dramAddr g (la * 256) ∨ dramAddr g (la * 256) + 256 ≤ a → t.dram.get a = s.dram.get a) ∧
          (s.get (.dmc .xWB) g la = 0 →
            (∀ a : Nat, a < dramAddr g (la * 256 + off) ∨ dramAddr g (la * 256 + off) + b.length ≤ a →
              t.dram.get a = s.dram.get a) ∧
            t.get (.dmc .xPOIS) g la = poisonAfter (s.linePoison g la) off b.length tags % 16) ∧
          t.get (.dmc .xWB) g la = 0 ∧ t.flag (.dmc .xINIT) g (la / 32) = true ∧ t.flash = s.flash ∧ t.stores = s.stores ∧
          t.host = s.host ∧ t.chains = s.chains ∧ t.bufs = s.bufs ∧ SameRegs (blkKeys .dmc) s t) ∧
      (b.length ≠ 256 → s.flag (.dmc .xINIT) g (la / 32) = true → m.readsClean g la flips = false →
        (∀ k < 6, s.get (.dmc .DEV_ERR_PASS_ERR) g k + 1 < s.eraseThr (g / 4)) →
        ∃ t, exec (.dramWrite g la off bytes tags ⟨side, flips⟩) s = .next t ∧
          (∀ (i : Nat) (h : i < b.length), t.dram.get (dramAddr g (la * 256 + off) + i) = b[i]) ∧
          (∀ a : Nat, a < dramAddr g (la * 256) ∨ dramAddr g (la * 256) + 256 ≤ a → t.dram.get a = s.dram.get a) ∧
          (∀ a : Nat, a < dramAddr g (la * 256 + off) ∨ dramAddr g (la * 256 + off) + b.length ≤ a →
            t.dram.get a = u.dram.get a) ∧
          t.get (.dmc .xPOIS) g la = poisonAfter (u.linePoison g la) off b.length tags % 16 ∧
          t.get (.dmc .xWB) g la = 0 ∧ t.flash = s.flash ∧ t.stores = s.stores ∧
          t.host = s.host ∧ t.chains = s.chains ∧ t.bufs = s.bufs ∧ SameRegs (fun k => blkKeys .dmc k || fltKeys k) s t)) ∧
    (s.safe = true ∨ s.dieUp (g / 4) = false ∨ s.grpLost g = true ∨ b = [] →
      ∃ t, exec (.dramWrite g la off bytes tags ⟨side, flips⟩) s = .next t ∧ Still s t)

/-- The payload of a line after a read (R307): the slices of a mask stand as they were read, the others and every byte of
another line as before. -/
def Sys2Proof.WroteBack (g la mask : Nat) (flips : List Flip) (s t : State) : Prop :=
  (∀ k < 4, t.dramRead g (la * 256 + 64 * k) 64 =
    if bitOf mask k then s.sliceRead g la flips k else s.dramRead g (la * 256 + 64 * k) 64) ∧
  (∀ a : Nat, a < dramAddr g (la * 256) ∨ dramAddr g (la * 256) + 256 ≤ a → t.dram.get a = s.dram.get a) ∧
  t.flash = s.flash ∧ t.stores = s.stores ∧ t.host = s.host

/-- A line read (R303, R304, R306 to R308, R310, R312): one whose checks find nothing amiss changes nothing, and so does one
of a row that nothing has written, of a LOST group, or of a die that does not serve. Where no device reaches the threshold of
R309, one that is corrected counts, one that poisons slices adds them to the line's poison and counts, and one whose check
line is lost clears poison and sideband and takes a new SEQ; what it read is written back in those slices, and no other byte
of memory moves. A line whose devices return every bit as it was written is clean, unless a device missed its last write while
it retrained. In normal mode one bad slice of four with a good XOR slice and a good LCRC is corrected, and two bad data slices
are poisoned. -/
def Obligations.LineReads : Prop :=
  (∀ (g : Group) (la : Fin 16777216) (flips : List Flip) (s : State), s.live = true →
    (s.safe = true ∨ s.dieUp (g / 4) = false ∨ s.grpLost g = true ∨ s.flag (.dmc .xINIT) g (la / 32) = false ∨
        s.readFate g la flips = .clean →
      ∃ t, exec (.dramRead g la flips) s = .next t ∧ Still s t) ∧
    (s.safe = false → s.dieUp (g / 4) = true → s.grpLost g = false → s.flag (.dmc .xINIT) g (la / 32) = true →
      (∀ k < 6, s.get (.dmc .DEV_ERR_PASS_ERR) g k + 1 < s.eraseThr (g / 4)) →
      (s.readFate g la flips = .corrected →
        ∃ t, exec (.dramRead g la flips) s = .next t ∧
          t.get (.dmc .CNT) (g / 4) 0 = (s.get (.dmc .CNT) (g / 4) 0 + 1) % 2 ^ 64 ∧
          t.get (.flt .CNT) 1 = (s.get (.flt .CNT) 1 + 1) % 2 ^ 64 ∧
          Frame (fun k => blkKeys .dmc k || fltKeys k) s t) ∧
      (∀ m, s.readFate g la flips = .poisoned m →
        ∃ t, exec (.dramRead g la flips) s = .next t ∧
          t.get (.dmc .xPOIS) g la = Nat.lor (s.linePoison g la) m % 16 ∧
          t.get (.dmc .CNT) (g / 4) 1 = (s.get (.dmc .CNT) (g / 4) 1 + 1) % 2 ^ 64 ∧
          t.get (.flt .CNT) 2 = (s.get (.flt .CNT) 2 + 1) % 2 ^ 64 ∧ WroteBack g la m flips s t ∧
          SameRegs (fun k => blkKeys .dmc k || fltKeys k) s t) ∧
      (s.readFate g la flips = .rebuilt →
        ∃ t, exec (.dramRead g la flips) s = .next t ∧ t.get (.dmc .xPOIS) g la = 0 ∧ t.get (.dmc .xSIDE) g la = 0 ∧
          t.lineSeq g la = s.get (.dmc .xWSEQ) g ∧
          t.get (.dmc .CNT) (g / 4) 2 = (s.get (.dmc .CNT) (g / 4) 2 + 1) % 2 ^ 64 ∧ WroteBack g la 15 flips s t ∧
          SameRegs (fun k => blkKeys .dmc k || fltKeys k) s t))) ∧
  (∀ (g : Group) (la : Fin 16777216) (s : State), s.lineStale g la = false → s.readFate g la [] = .clean) ∧
  (∀ (e : LineErr) (k : Nat), k < 4 → e.bad = 2 ^ k → e.lcrcGood = true → bitOf e.rebuilt k = false →
    fateNormal e = .corrected) ∧
  (∀ e : LineErr, e.bad = 0 → e.lcrcGood = true → fateNormal e = .clean) ∧
  (∀ (e : LineErr) (j k : Nat), j < k → k < 4 → e.bad = 2 ^ j + 2 ^ k → e.lcrcGood = true →
    fateNormal e = .poisoned (2 ^ j + 2 ^ k))

/-- Scrub and refresh of a group that serves (R313, R315, R316, R318 to R320): a scrub credit comes once at each picture
boundary of the busiest domain and moves the position by its lines, and where nothing is amiss changes no byte; lines that are
amiss move the collector too, and it is not said here what follows where one of them takes a device to its threshold; none
runs while scrub is paused. An interval that comes due is taken from those refreshed in advance, issued, postponed within the
limit, or forced and counted; a catch-up, once in each blanking, clears the debt; an MR4 read sets the rate; an age cap that
is hit is counted, and while a request that still waits has reached the cap the die reads saturated. What is not due, and what
a group does not serve, changes nothing. -/
def Sys2Proof.ScrubbedAndRefreshed (g : Group) (now : Now) (s u : State) : Prop :=
  (∀ errs : List (Nat × List Flip),
    (u.grpServes g = false ∨ u.scrubPaused = true ∨ u.boundarySince (u.get (.dmc .xSCRUB_TAI) g) = false →
      ∃ t, exec (.scrubCredit g errs now) s = .next t ∧ Still u t) ∧
    (u.grpServes g = true → u.scrubPaused = false → u.boundarySince (u.get (.dmc .xSCRUB_TAI) g) = true →
      (errs = [] ∨ ∀ k < 6, u.get (.dmc .DEV_ERR_PASS_ERR) g k + errs.length < u.eraseThr (g / 4)) →
      ∃ t, exec (.scrubCredit g errs now) s = .next t ∧ t.get (.dmc .SCRUB_POS_LINE) g =
          (u.get (.dmc .SCRUB_POS_LINE) g + u.get (.dmc .CFG_SCRUB_LINES) (g / 4)) % 2 ^ 24 ∧
        t.get (.dmc .CNT) (g / 4) 5 =
          (u.get (.dmc .CNT) (g / 4) 5 + u.get (.dmc .CFG_SCRUB_LINES) (g / 4)) % 2 ^ 64 ∧
        t.get (.dmc .xSCRUB_TAI) g = u.tai ∧ (errs = [] → Frame (blkKeys .dmc) u t) ∧
        SameRegs (fun k => blkKeys .dmc k || fltKeys k) u t)) ∧
  (∀ (busy : Bool) (rate : Fin 4), u.grpServes g = false →
    ∀ i ∈ [Instr.refreshInterval g busy now, .refreshCatchup g rate now, .mr4Read g rate now],
      ∃ t, exec i s = .next t ∧ Still u t) ∧
  (u.grpServes g = true →
    (u.intervalDue g = false → ∀ busy, ∃ t, exec (.refreshInterval g busy now) s = .next t ∧
      Frame (fun k => !busy && k == ⟨.dmc .xRT_OLD, g, 0, 0⟩) u t) ∧
    (u.intervalDue g = true → ∀ busy, ∃ t, exec (.refreshInterval g busy now) s = .next t ∧
      t.get (.dmc .xREF_AT) g = u.get (.dmc .xREF_AT) g + u.refi g ∧ Frame (blkKeys .dmc) u t ∧
      (busy = false → t.get (.dmc .xRT_OLD) g = 0) ∧
      (u.get (.dmc .xADV) g ≠ 0 → t.get (.dmc .xADV) g = u.get (.dmc .xADV) g - 1 ∧
        t.get (.dmc .GRP_STATUS_REF_DEBT) g = u.get (.dmc .GRP_STATUS_REF_DEBT) g) ∧
      (u.get (.dmc .xADV) g = 0 →
        (busy = false → t.get (.dmc .GRP_STATUS_REF_DEBT) g = u.get (.dmc .GRP_STATUS_REF_DEBT) g - 1) ∧
        (busy = true → u.get (.dmc .GRP_STATUS_REF_DEBT) g < u.postpone (g / 4) →
          t.get (.dmc .GRP_STATUS_REF_DEBT) g = u.get (.dmc .GRP_STATUS_REF_DEBT) g + 1) ∧
        (busy = true → u.postpone (g / 4) ≤ u.get (.dmc .GRP_STATUS_REF_DEBT) g →
          t.get (.dmc .GRP_STATUS_REF_DEBT) g = u.get (.dmc .GRP_STATUS_REF_DEBT) g ∧
          t.get (.dmc .CNT) (g / 4) 8 = (u.get (.dmc .CNT) (g / 4) 8 + 1) % 2 ^ 64))) ∧
    ∀ rate : Fin 4,
      (u.scrubPaused = false → u.blankBegun g = true → ∃ t, exec (.refreshCatchup g rate now) s = .next t ∧
        t.get (.dmc .GRP_STATUS_REF_DEBT) g = 0 ∧ t.get (.dmc .xADV) g = u.postpone (g / 4) ∧
        t.get (.dmc .GRP_STATUS_REF_RATE) g = rate ∧
        t.get (.dmc .CNT) (g / 4) 9 = (u.get (.dmc .CNT) (g / 4) 9 + 1) % 2 ^ 64 ∧
        Frame (fun k => blkKeys .dmc k || k.fld == .pwr .xMR4_AT) u t) ∧
      (u.scrubPaused = true ∨ u.blankBegun g = false → ∃ t, exec (.refreshCatchup g rate now) s = .next t ∧ Still u t) ∧
      ∃ t, exec (.mr4Read g rate now) s = .next t ∧ t.get (.dmc .GRP_STATUS_REF_RATE) g = rate ∧
        Frame (fun k => k == ⟨.dmc .GRP_STATUS_REF_RATE, g, 0, 0⟩ || k == ⟨.pwr .xMR4_AT, g, 0, 0⟩) u t) ∧
  ∀ (since : Nat) (waiting : Option Nat),
    (u.safe = false → u.dieUp (g / 4) = true → u.ageCapped g since = true →
      ∃ t, exec (.ageCapHit g ⟨since, waiting, now⟩) s = .next t ∧
        t.get (.dmc .CNT) (g / 4) 7 = (u.get (.dmc .CNT) (g / 4) 7 + 1) % 2 ^ 64 ∧
        (∀ e, waiting = some e → e < u.osc → e + 1 < 2 ^ 64 → u.ageCapped g e = true → t.rtSat (g / 4) = true) ∧
        Frame (fun k => k == ⟨.dmc .CNT, g / 4, 7, 0⟩ || k == ⟨.dmc .xRT_OLD, g, 0, 0⟩) u t) ∧
    (u.safe = true ∨ u.dieUp (g / 4) = false ∨ u.ageCapped g since = false →
      ∃ t, exec (.ageCapHit g ⟨since, waiting, now⟩) s = .next t ∧ Still u t)

/-- Scrub, refresh and failed devices (R309, R311, R313, R315, R316, R318 to R320, R326): scrub credits, refresh intervals,
catch-ups, MR4 reads and age caps act as `ScrubbedAndRefreshed` says. FORCE_ERASE on a group in normal mode puts it in erasure
mode for its device, with work of class FLASH for the Ostler where ERASE_PERSIST asks for it, and otherwise only names the
device; a drift retrain in a blanking of the busiest domain does so until it ends, well in normal mode again, otherwise with
its device declared failed, and a group that was in erasure mode for another device is LOST, so that its die falls. What is
not due changes nothing. -/
def Obligations.ScrubAndRefresh : Prop :=
  (∀ (g : Group) (now : Now) (s u : State), s.live = true → u = s.atNow now → ScrubbedAndRefreshed g now s u) ∧
  (∀ (p : Party) (g : Group) (v : Word) (s : State), s.live = true → s.gateOf p .dmc (some (g / 4)) = .pass →
    (s.grpMode g = 0 → v.toNat % 8 < 6 →
      ∃ t, exec (.forceErase p g v) s = .next t ∧ t.grpMode g = 1 ∧ t.erasedDev g = v.toNat % 8 ∧
        t.get (.dmc .CNT) (g / 4) 11 = (s.get (.dmc .CNT) (g / 4) 11 + 1) % 2 ^ 64 ∧
        t.get (.flt .CNT) 1 = (s.get (.flt .CNT) 1 + 1) % 2 ^ 64 ∧
        (s.ostSheds (g / 4) 4 = false → t.get (.ost .xITEMS) (g / 4) 4 = s.get (.ost .xITEMS) (g / 4) 4 +
          if s.flag (.dmc .CFG_ERASE_PERSIST) (g / 4) then 1 else 0) ∧
        Frame (fun k => blkKeys .dmc k || fltKeys k || k == ⟨.ost .xITEMS, g / 4, 4, 0⟩ || k == ⟨.ost .CNT, g / 4, 11, 0⟩) s t) ∧
    (s.grpMode g ≠ 0 ∨ 6 ≤ v.toNat % 8 → ∃ t, exec (.forceErase p g v) s = .next t ∧
      t.get (.dmc .GRP_CTRL_DEV) g = v.toNat % 8 ∧ Frame (fun k => k == ⟨.dmc .GRP_CTRL_DEV, g, 0, 0⟩) s t)) ∧
  ∀ (g : Group) (now : Now) (s u : State), s.live = true → u = s.atNow now →
    (∀ k : Device,
      (u.grpServes g = true → u.flag (.dmc .GRP_STATUS_RETRAINING) g = false → u.grpLost g = false →
        u.scrubPaused = false → u.inBlank = true →
        ∃ t, exec (.driftRetrain g k now) s = .next t ∧ t.flag (.dmc .GRP_STATUS_RETRAINING) g = true ∧
          t.get (.dmc .xRETR_DEV) g = k ∧ Frame (blkKeys .dmc) u t ∧
          (u.grpMode g = 0 → t.grpMode g = 1 ∧ t.erasedDev g = k ∧ t.flag (.dmc .xRETR_MODE) g = true) ∧
          (u.grpMode g ≠ 0 → t.grpMode g = u.grpMode g ∧ t.erasedDev g = u.erasedDev g)) ∧
      (u.grpServes g = false ∨ u.flag (.dmc .GRP_STATUS_RETRAINING) g = true ∨ u.grpLost g = true ∨
          u.scrubPaused = true ∨ u.inBlank = false →
        ∃ t, exec (.driftRetrain g k now) s = .next t ∧ Still u t)) ∧
    (u.grpServes g = true → u.flag (.dmc .GRP_STATUS_RETRAINING) g = true →
      (∃ t, exec (.driftRetrainDone g true now) s = .next t ∧ t.flag (.dmc .GRP_STATUS_RETRAINING) g = false ∧
        Frame (blkKeys .dmc) u t ∧
        (u.flag (.dmc .xRETR_MODE) g = true → t.grpMode g = 0 ∧ t.erasedDev g = 7) ∧
        (u.flag (.dmc .xRETR_MODE) g = false → t.grpMode g = u.grpMode g ∧ t.erasedDev g = u.erasedDev g)) ∧
      ∃ t, exec (.driftRetrainDone g false now) s = .next t ∧ t.flag (.dmc .GRP_STATUS_RETRAINING) g = false ∧
        (u.grpMode g = 1 → u.erasedDev g = u.get (.dmc .xRETR_DEV) g →
          t.grpMode g = 1 ∧ t.erasedDev g = u.get (.dmc .xRETR_DEV) g ∧ t.flag (.dmc .xRETR_MODE) g = false) ∧
        (u.grpMode g = 1 → u.erasedDev g ≠ u.get (.dmc .xRETR_DEV) g → t.dieUp (g / 4) = false ∨ t.safe = true)) ∧
    ((u.grpServes g = false ∨ u.flag (.dmc .GRP_STATUS_RETRAINING) g = false) → ∀ ok,
      ∃ t, exec (.driftRetrainDone g ok now) s = .next t ∧ Still u t)

/-- The boot area holds what was last written to it (R329, R330, R421, R444): after a slot state changes, the directory in use
gives that state to its slot, and keeps the other slot's state, the preferred slot and the number of repair entries; an append
to the repair map with room adds one entry, and marks a unit that it retires as persisted; a full map takes none, with a
Notice; and nothing outside the boot area moves. An append that is not due, as that of a unit that is not retired or whose
record is not asked for, does nothing, and in the safe state none does. -/
def Obligations.SlotStatePersists : Prop :=
  (∀ (x st : Nat) (s : State), x < 2 → st < 5 → s.get (.mid .BOOT_BOOT_COPY) < 2 →
    (setSlot x st s).dir.slot x = st ∧ (setSlot x st s).dir.slot (1 - x) = s.dir.slot (1 - x) ∧
    (setSlot x st s).dir.pref = s.dir.pref ∧ (setSlot x st s).repairMap.length = s.repairMap.length ∧
    ∀ a : Nat, 0x20000 ≤ a → (setSlot x st s).flash.get a = s.flash.get a) ∧
  ∀ (e : RepairEntry) (s : State), s.live = true →
    (s.safe = false → s.repairDue e = true → s.get (.mid .BOOT_BOOT_COPY) < 2 → s.repairMap.length < 4094 →
      ∃ t, exec (.repairMapAppend e) s = .next t ∧
        t.repairMap.length = s.repairMap.length + 1 ∧ (∀ a : Nat, 0x20000 ≤ a → t.flash.get a = s.flash.get a) ∧
        (e.kind = 3 → t.flag (.cus .UNIT_PERSISTED) e.target = true) ∧ t.dram = s.dram ∧ t.host = s.host ∧
        SameRegs (fun k => k.fld == .mid .BOOT_BOOT_COPY || k.fld == .fwu .SLOT_STATE || k.fld == .fwu .SLOT_VER_VERSION ||
          k == ⟨.cus .UNIT_PERSISTED, e.target, 0, 0⟩) s t) ∧
    (s.safe = false → s.repairDue e = true → 4094 ≤ s.repairMap.length → ∃ t, exec (.repairMapAppend e) s = .next t ∧
      t.get (.flt .CNT) 0 = (s.get (.flt .CNT) 0 + 1) % 2 ^ 64 ∧ Frame fltKeys s t) ∧
    (s.safe = true ∨ s.repairDue e = false → ∃ t, exec (.repairMapAppend e) s = .next t ∧ Still s t)

-- Field update

/-- What the session and activation commands of a field update may touch: its registers, its event, and a Winter request that waits
for it (R451). -/
def Sys2Proof.fwuKeys (k : Key) : Bool := blkKeys .fwu k || blkKeys .pwr k || evcKeys k

/-- The fields of `FWU_CTRL`, `PWR_CTRL` or the like that a write takes: here KIND and SLOT of `FWU_CTRL`. -/
def Sys2Proof.fwuCtrlKeys (k : Key) : Bool := k.fld == .fwu .CTRL_KIND || k.fld == .fwu .CTRL_SLOT

/-- A write of `FWU_CTRL` asks for nothing but action `n`: 0 OPEN, 1 CLOSE, 2 ACTIVATE, 3 REVERT. -/
def Sys2Proof.fwuAlone (n : Nat) (v : Word) : Prop := ∀ k < 4, k ≠ n → bitOf v.toNat k = false

/-- The state is one that a FWU_DONE has left, with Winter no longer put off (R451, R455). -/
def Sys2Proof.FwuEnds (s t : State) : Prop :=
  t.fwuState = 0 ∧ t.flag (.evc .SRC_CFG_PENDING) 898 = true ∧
  (s.flag (.pwr .STATUS_WINTER_PENDING) = true → s.get (.pwr .xWIN_STEP) = 0 →
    t.get (.pwr .xWIN_STEP) = 1 ∧ t.flag (.pwr .CTRL_WINTER) = false)

/-- Where a session started now would have its inactivity timeout (R66, R438). -/
def Sys2Proof.xferDue (s : State) : Nat := s.dueIn (clampTo 1 3600 (s.get (.fwu .XFER_TO_S)) * secNs) % 2 ^ 64

/-- The target of a session that a write opens (R438, R453): of a bundle the slot that is not active, or in recovery mode the one
that the write names; of records the copy that is not in force. -/
def Sys2Proof.openTarget (v : Word) (s : State) : Nat :=
  if bitOf v.toNat 4 then s.recTarget % 2
  else if s.flag (.mid .BOOT_RECOVERY) then bitsOf v.toNat 5 1 else (1 - s.activeSlot) % 2

/-- Sessions (R438, R439, R442, R453). A party that does not hold the session that exists changes nothing by a write of
FWU_CTRL or of FWU_BLK_CMD. Otherwise a write of FWU_CTRL takes KIND and SLOT, and one that asks for a single action does
this: OPEN by a host port with nothing in the way opens a session of the KIND written with that port as its owner, an empty
map, its target EMPTY where it is a bundle slot, and its inactivity timeout; with a session or an activation there it is
refused BUSY; by a party without a port, or for records in recovery mode, it opens nothing. CLOSE ends the session, and
without one does nothing. SUBMIT hands its block over, unless one waits. The inactivity timeout ends the session, and
otherwise does nothing. A Winter that waited for the session is accepted (R451). What OPEN does without a port, and whose
reason comes first, are the model's reading (log entry 87). -/
def Obligations.UpdateSessions : Prop :=
  (∀ (p : Party) (v : Word) (s : State), s.live = true → s.gateOf p .fwu none = .pass →
    (s.fwuForeign p = true →
      ∀ i ∈ [Instr.fwuOpen p v, .fwuClose p v, .fwuActivate p v, .fwuRevert p v, .fwuSubmit p v],
        ∃ t, exec i s = .next t ∧ Still s t) ∧
    (s.fwuForeign p = false →
      (∀ i ∈ [Instr.fwuOpen p v, .fwuClose p v, .fwuActivate p v, .fwuRevert p v],
        ∃ t, exec i s = .next t ∧ t.get (.fwu .CTRL_KIND) = bitsOf v.toNat 4 1 ∧
          t.get (.fwu .CTRL_SLOT) = bitsOf v.toNat 5 1) ∧
      (fwuAlone 0 v →
        (∀ n, p.port = some n → s.session = false → s.fwuState < 4 →
          s.flag (.mid .BOOT_RECOVERY) = false ∨ bitOf v.toNat 4 = false →
          ∃ t, exec (.fwuOpen p v) s = .next t ∧ t.fwuState = fuOPEN ∧ t.get (.fwu .STATUS_OWNER) = n ∧
            t.get (.fwu .STATUS_REASON) = 0 ∧ t.get (.fwu .xKIND) = bitsOf v.toNat 4 1 ∧
            t.get (.fwu .xTGT) = openTarget v s ∧ (∀ b < 768, t.blkMapped b = false) ∧
            t.get (.fwu .xXFER_DUE) = xferDue s ∧
            (bitOf v.toNat 4 = false → t.dir.slot (openTarget v s) = slEMPTY ∧
              t.get (.fwu .SLOT_STATE) (openTarget v s) = slEMPTY) ∧
            (bitOf v.toNat 4 = true → t.flash = s.flash) ∧
            (∀ a : Nat, 0x20000 ≤ a → t.flash.get a = s.flash.get a) ∧ t.dram = s.dram ∧ t.host = s.host ∧
            SameRegs (fun k => blkKeys .fwu k || k.fld == .mid .BOOT_BOOT_COPY) s t) ∧
        (∀ n, p.port = some n → s.session = true ∨ 4 ≤ s.fwuState →
          ∃ t, exec (.fwuOpen p v) s = .next t ∧ t.get (.fwu .STATUS_REASON) = 1 ∧ t.fwuState = s.fwuState ∧
            Frame (fun k => fwuCtrlKeys k || k.fld == .fwu .STATUS_REASON) s t) ∧
        (p.port = none ∨ (s.session = false ∧ s.fwuState < 4 ∧ s.flag (.mid .BOOT_RECOVERY) = true ∧ bitOf v.toNat 4 = true) →
          ∃ t, exec (.fwuOpen p v) s = .next t ∧ Frame fwuCtrlKeys s t)) ∧
      (fwuAlone 1 v →
        (s.session = true →
          ∃ t, exec (.fwuClose p v) s = .next t ∧ FwuEnds s t ∧ t.get (.fwu .STATUS_REASON) = 0 ∧ Frame fwuKeys s t) ∧
        (s.session = false → ∃ t, exec (.fwuClose p v) s = .next t ∧ Frame fwuCtrlKeys s t)) ∧
      (s.flag (.fwu .BLK_CMD_SUBMIT) = false →
        ∃ t, exec (.fwuSubmit p v) s = .next t ∧ t.flag (.fwu .BLK_CMD_SUBMIT) = true ∧
          t.flag (.fwu .BLK_RES_VALID) = false ∧ t.fwuState = s.fwuState ∧
          t.get (.fwu .xSUB_DUE) = s.dueIn (clampTo 1 1000 (s.get (.fwu .FLASH_TO_MS)) * msNs) % 2 ^ 64 ∧
          t.get (.fwu .xXFER_DUE) = (if s.session then xferDue s else s.get (.fwu .xXFER_DUE)) ∧ Frame (blkKeys .fwu) s t) ∧
      (s.flag (.fwu .BLK_CMD_SUBMIT) = true → ∃ t, exec (.fwuSubmit p v) s = .next t ∧ Still s t))) ∧
  (∀ (now : Now) (s u : State), s.live = true → u = s.atNow now →
    (u.safe = false → u.inWinter = false → u.session = true → u.expired (.fwu .xXFER_DUE) = true →
      ∃ t, exec (.xferTimeout now) s = .next t ∧ FwuEnds u t ∧ t.get (.fwu .STATUS_REASON) = 0 ∧
        t.get (.flt .CNT) 0 = (u.get (.flt .CNT) 0 + 1) % 2 ^ 64 ∧ Frame (fun k => fwuKeys k || fltKeys k) u t) ∧
    (u.safe = true ∨ u.inWinter = true ∨ u.session = false ∨ u.expired (.fwu .xXFER_DUE) = false →
      ∃ t, exec (.xferTimeout now) s = .next t ∧ Still u t))

/-- Where in flash the block in the window belongs (R420, R440). -/
def Sys2Proof.blkAt (s : State) : Nat := s.tgtBase + s.get (.fwu .BLK_OFS_BLOCK) * 65536

/-- A block has its result (R440). -/
def Sys2Proof.BlockDone (st : Nat) (u t : State) : Prop :=
  t.get (.fwu .BLK_RES_STATUS) = st ∧ t.get (.fwu .BLK_RES_BLOCK) = u.get (.fwu .BLK_OFS_BLOCK) ∧
  t.flag (.fwu .BLK_RES_VALID) = true ∧ t.flag (.fwu .BLK_CMD_SUBMIT) = false ∧
  (4 ≤ u.get (.fwu .xSUB_BY) →
    .blockResult (u.get (.fwu .xSUB_BY) - 4) (u.get (.fwu .BLK_OFS_BLOCK)) st ∈ t.outs)

/-- Blocks (R439, R440, R442). A block waits until field-update work may be done. Then it gets the first STATUS of these that
holds: 1 for a bad CRC, 2 for a place or a length out of range, 4 for a bad manifest, 5 for a party that holds no session, 2
or 4 for a block of a bundle that comes before block 0, and 0; a partner's is answered over its link. With a STATUS other than
0 the flash stays as it is. With 0 the block is in its place, the rest of its 64 KiB is erased, every byte outside that is
unchanged, its bit is set in the map, and with every block held the read-back comes. A flash operation of such a block that
times out gives STATUS 3 with a Notice, and takes its bit away. The order of the checks and the block before block 0 are the
model's reading (log entry 90), as are the Farrier's wait that starts again (log entry 91) and a partner's answer (log entry
93). -/
def Obligations.UpdateBlocks : Prop :=
  ∀ (now : Now) (s u : State), s.live = true → u = s.atNow now →
    (u.stageRuns = false ∨ u.flag (.fwu .BLK_CMD_SUBMIT) = false →
      ∃ t, exec (.blockChecked now) s = .next t ∧ Still u t) ∧
    (u.blkCrcBad = true → (blockStatus u).1 = 1) ∧
    (u.blkCrcBad = false →
      (u.blkRangeBad = true → (blockStatus u).1 = 2) ∧
      (u.blkRangeBad = false →
        (u.blkManifestBad = true → (blockStatus u).1 = 4) ∧
        (u.blkManifestBad = false →
          (u.blkNoSession = true → (blockStatus u).1 = 5) ∧
          (u.blkNoSession = false → u.get (.fwu .xKIND) = 0 → u.get (.fwu .BLK_OFS_BLOCK) ≠ 0 → u.blkMapped 0 = false →
            (blockStatus u).1 = 2 ∨ (blockStatus u).1 = 4) ∧
          (u.blkNoSession = false → u.get (.fwu .xKIND) ≠ 0 ∨ u.get (.fwu .BLK_OFS_BLOCK) = 0 ∨ u.blkMapped 0 = true →
            (blockStatus u).1 = 0)))) ∧
    (u.stageRuns = true → u.flag (.fwu .BLK_CMD_SUBMIT) = true →
      ((blockStatus u).1 ≠ 0 →
        ∃ t, exec (.blockChecked now) s = .next t ∧ BlockDone (blockStatus u).1 u t ∧ Frame (blkKeys .fwu) u t) ∧
      ((blockStatus u).1 = 0 →
        ∃ t, exec (.blockChecked now) s = .next t ∧ BlockDone 0 u t ∧
          t.blkMapped (u.get (.fwu .BLK_OFS_BLOCK)) = true ∧ t.fwuState = (if t.allHeld then fuVERIFYING else fuOPEN) ∧
          (u.flag (.mid .BOOT_RECOVERY) = true →
            t.get (.fwu .xFAR_DUE) = u.dueIn (clampTo 1 600 (u.get (.fwu .FARRIER_TO_S)) * secNs) % 2 ^ 64) ∧
          (∀ (i : Nat) (h : i < u.blkBytes.length), t.flash.get (blkAt u + i) = u.blkBytes[i]) ∧
          (∀ i : Nat, u.blkBytes.length ≤ i → i < 65536 → t.flash.get (blkAt u + i) = 0xFF#8) ∧
          (∀ a : Nat, a < blkAt u ∨ blkAt u + 65536 ≤ a → t.flash.get a = u.flash.get a) ∧
          t.dram = u.dram ∧ t.host = u.host ∧ SameRegs (blkKeys .fwu) u t)) ∧
    (u.stageRuns = true → u.flag (.fwu .BLK_CMD_SUBMIT) = true → u.expired (.fwu .xSUB_DUE) = true → (blockStatus u).1 = 0 →
      ∃ t, exec (.flashOpTimeout now) s = .next t ∧ BlockDone 3 u t ∧
        t.blkMapped (u.get (.fwu .BLK_OFS_BLOCK)) = false ∧
        t.get (.flt .CNT) 0 = (u.get (.flt .CNT) 0 + 1) % 2 ^ 64 ∧
        (∀ a : Nat, a < blkAt u ∨ blkAt u + 65536 ≤ a → t.flash.get a = u.flash.get a) ∧ t.dram = u.dram ∧ t.host = u.host ∧
        SameRegs (fun k => blkKeys .fwu k || fltKeys k) u t) ∧
    (u.stageRuns = false ∨ u.flag (.fwu .BLK_CMD_SUBMIT) = false ∨ u.expired (.fwu .xSUB_DUE) = false ∨ (blockStatus u).1 ≠ 0 →
      ∃ t, exec (.flashOpTimeout now) s = .next t ∧ Still u t)

/-- The read-back of a target and recovery mode (R441, R443, R453, R454). With no read-back due nothing happens. With every
digest of a bundle good its slot is STAGED, or in recovery mode it starts as a trial; otherwise the session is open again with
REASON 6, and the blocks of the components that are bad leave the map. A records image that is good ends the session; a bad
one is erased, and the session stays open with REASON 7 and an empty map. A download wait that ends ends its session and tries
a slot again, and so ends in step 6 or in another wait: a slot that is GOOD and holds a good image runs, and one that holds
none ends in another wait; a wait that does not end changes nothing. A block of a Tether partner in recovery mode opens a
session of its own where there is none, and is submitted; with a host's session it is answered NO_SESSION, which with the
block that is lost while another waits is the model's reading (log entry 93). -/
def Obligations.UpdateReadback : Prop :=
  (∀ (now : Now) (s u : State), s.live = true → u = s.atNow now →
    (u.stageRuns = false ∨ u.fwuState ≠ fuVERIFYING → ∃ t, exec (.slotReadback now) s = .next t ∧ Still u t) ∧
    (u.stageRuns = true → u.fwuState = fuVERIFYING → u.get (.fwu .xKIND) = 0 → ∀ x, x = u.get (.fwu .xTGT) →
      ((compsOf (u.manifest x)).all (u.compGood x) = true →
        ∃ t, exec (.slotReadback now) s = .next t ∧ t.flag (.evc .SRC_CFG_PENDING) 898 = true ∧
          (∀ a : Nat, 0x20000 ≤ a → t.flash.get a = u.flash.get a) ∧
          (u.flag (.mid .BOOT_RECOVERY) = false → t.fwuState = fuSTAGED ∧ t.dir.slot x = slSTAGED) ∧
          (u.flag (.mid .BOOT_RECOVERY) = true → t.get (.mid .BOOT_STEP) = 6 ∧ t.flag (.mid .BOOT_RECOVERY) = false ∧
            t.activeSlot = x ∧ t.dir.slot x = slTRIAL)) ∧
      ((compsOf (u.manifest x)).all (u.compGood x) = false →
        ∃ t, exec (.slotReadback now) s = .next t ∧ t.fwuState = fuOPEN ∧ t.get (.fwu .STATUS_REASON) = 6 ∧
          t.flag (.evc .SRC_CFG_PENDING) 898 = true ∧
          (∀ c ∈ compsOf (u.manifest x), u.compGood x c = false →
            ∀ b < 768, c.ofs / 65536 ≤ b → b < (c.ofs + c.len + 65535) / 65536 → t.blkMapped b = false) ∧
          Frame fwuKeys u t)) ∧
    (u.stageRuns = true → u.fwuState = fuVERIFYING → u.get (.fwu .xKIND) ≠ 0 → ∀ c, c = u.get (.fwu .xTGT) →
      (u.recordsGood c = true → ∃ t, exec (.slotReadback now) s = .next t ∧ FwuEnds u t ∧ Frame fwuKeys u t) ∧
      (u.recordsGood c = false →
        ∃ t, exec (.slotReadback now) s = .next t ∧ t.fwuState = fuOPEN ∧ t.get (.fwu .STATUS_REASON) = 7 ∧
          (∀ b < 768, t.blkMapped b = false) ∧
          (∀ i : Nat, i < 0x800000 → t.flash.get (recBase c + i) = 0xFF#8) ∧
          (∀ a : Nat, a < recBase c ∨ recBase c + 0x800000 ≤ a → t.flash.get a = u.flash.get a) ∧
          t.dram = u.dram ∧ t.host = u.host ∧ SameRegs (blkKeys .fwu) u t)) ∧
    (u.safe = false → u.flag (.mid .BOOT_RECOVERY) = true → u.expired (.fwu .xFAR_DUE) = true →
      ∃ t, exec (.farrierTimeout now) s = .next t ∧ (t.get (.mid .BOOT_STEP) = 6 ∨ t.flag (.mid .BOOT_RECOVERY) = true) ∧
        t.session = false ∧ t.flag (.fwu .BLK_CMD_SUBMIT) = false ∧
        (∀ a : Nat, 0x20000 ≤ a → t.flash.get a = u.flash.get a) ∧
        ∀ x, x = (if u.flag (.mid .STRAP_RECOVERY) then (u.slotOrder (u.flag (.mid .STRAP_SLOT_SWAP))).headD 0
            else 1 - u.get (.fwu .CTRL_SLOT)) →
          (u.dir.slot x = slGOOD → u.slotGood x = true →
            t.get (.mid .BOOT_STEP) = 6 ∧ t.activeSlot = x ∧ t.flag (.mid .BOOT_RECOVERY) = false) ∧
          (u.flag (.mid .STRAP_RECOVERY) = false → u.slotGood x = false →
            t.flag (.mid .BOOT_RECOVERY) = true ∧ t.get (.mid .BOOT_STEP) = u.get (.mid .BOOT_STEP) ∧
            t.get (.fwu .xFAR_DUE) = u.dueIn (clampTo 1 600 (u.get (.fwu .FARRIER_TO_S)) * secNs) % 2 ^ 64)) ∧
    (u.safe = true ∨ u.flag (.mid .BOOT_RECOVERY) = false ∨ u.expired (.fwu .xFAR_DUE) = false →
      ∃ t, exec (.farrierTimeout now) s = .next t ∧ Still u t)) ∧
  (∀ (l : Link) (b : Nat) (crc : Word) (bytes : List Byte) (s : State), s.live = true →
    (s.safe = true ∨ s.tetherRecovery = false ∨ s.flag (.mid .TTH_REV_UP) l = false →
      ∃ t, exec (.tetherRecoveryBlock l b crc bytes) s = .next t ∧ Still s t) ∧
    (s.safe = false → s.tetherRecovery = true → s.flag (.mid .TTH_REV_UP) l = true →
      (s.session = true → s.get (.fwu .STATUS_OWNER) ≠ 2 →
        ∃ t, exec (.tetherRecoveryBlock l b crc bytes) s = .next t ∧ t.outs = [.blockResult l b 5] ∧ Still s t) ∧
      (s.session = false ∨ s.get (.fwu .STATUS_OWNER) = 2 →
        (s.flag (.fwu .BLK_CMD_SUBMIT) = true →
          ∃ t, exec (.tetherRecoveryBlock l b crc bytes) s = .next t ∧ Still s t) ∧
        (s.flag (.fwu .BLK_CMD_SUBMIT) = false →
          ∃ t, exec (.tetherRecoveryBlock l b crc bytes) s = .next t ∧
            t.fwuState = (if s.session then s.fwuState else fuOPEN) ∧
            t.get (.fwu .STATUS_OWNER) = 2 ∧ t.flag (.fwu .BLK_CMD_SUBMIT) = true ∧ t.get (.fwu .xSUB_BY) = 4 + l ∧
            t.get (.fwu .BLK_OFS_BLOCK) = min b 1023 ∧ t.get (.fwu .BLK_LEN_LEN) = min bytes.length 131071 ∧
            t.get (.fwu .BLK_CRC_CRC) = crc.toNat ∧ (bytes.length ≤ 65536 → t.blkBytes = bytes) ∧
            t.dram = s.dram ∧ t.host = s.host))))

/-- Activation, trial and revert (R445 to R451). A write of FWU_CTRL that asks for ACTIVATE alone starts preparation with
nothing in the way, and otherwise is refused with its REASON; one that asks for REVERT alone fails a trial, and otherwise does
nothing. Preparation ends ARMED: with a raster slot 15 is armed for a picture boundary of the slowest domain 20 ms on, and
with none the switch comes after that time. Near the edge no routine starts. The edge switches the bundle, forward into TRIAL,
with the time for its confirmation, or back to IDLE with REVERTED and the slot BAD. A trial whose heartbeat has arrived and
whose Ostlers run is confirmed, which makes its slot GOOD; its timeout, with a Notice, starts the way back. Each of these does
nothing where it is not due. The order of the reasons, and the edge of a revert, are the model's reading (log entries 88, 92).
-/
def Obligations.Activation : Prop :=
  (∀ (p : Party) (v : Word) (s : State), s.live = true → s.gateOf p .fwu none = .pass → s.fwuForeign p = false →
    (fwuAlone 2 v →
      ∃ t, exec (.fwuActivate p v) s = .next t ∧
        match s.activateBar with
        | none => t.fwuState = fuPREPARING ∧ t.get (.fwu .STATUS_REASON) = 0 ∧ Frame (blkKeys .fwu) s t
        | some r => t.fwuState = s.fwuState ∧ t.get (.fwu .STATUS_REASON) = r ∧ t.flag (.fwu .STATUS_REFUSED) = true ∧
            t.flag (.evc .SRC_CFG_PENDING) 898 = true ∧ Frame fwuKeys s t) ∧
    (fwuAlone 3 v →
      (s.fwuState = fuTRIAL →
        ∃ t, exec (.fwuRevert p v) s = .next t ∧ t.fwuState = fuREVERTING ∧ Frame (blkKeys .fwu) s t) ∧
      (s.fwuState ≠ fuTRIAL → ∃ t, exec (.fwuRevert p v) s = .next t ∧ Frame fwuCtrlKeys s t))) ∧
  (∀ (now : Now) (s u : State), s.live = true → u = s.atNow now →
    (u.safe = false → u.fwuState = fuPREPARING →
      ∃ t, exec (.preparationEnd now) s = .next t ∧ t.fwuState = fuARMED ∧ t.flash = u.flash ∧ t.host = u.host ∧
        (u.tbState ≠ tbFREE → u.anyDomInUse = true →
          t.flag (.trs .HO_CTRL_ARM) 15 = true ∧ t.get (.trs .HO_CTRL_DOMAIN) 15 = u.slowest % 2 ^ 3 ∧
          t.flag (.fwu .xARM15) = true ∧
          t.get (.trs .xHO_AT) 15 = u.boundaryFrom u.slowest (u.tai + 20 * msNs)) ∧
        (u.tbState = tbFREE ∨ u.anyDomInUse = false → t.get (.fwu .xSW_DUE) = u.dueIn (20 * msNs) % 2 ^ 64)) ∧
    (u.safe = true ∨ u.fwuState ≠ fuPREPARING → ∃ t, exec (.preparationEnd now) s = .next t ∧ Still u t) ∧
    (u.safe = false → u.switchWithin (10 * msNs) = true →
      ∃ t, exec (.ostlerQuiesce now) s = .next t ∧ (∀ d : Die, t.flag (.ost .xQUIET) d = true) ∧
        Frame (fun k => k.fld == .ost .xQUIET) u t) ∧
    (u.safe = true ∨ u.switchWithin (10 * msNs) = false → ∃ t, exec (.ostlerQuiesce now) s = .next t ∧ Still u t) ∧
    (u.safe = false → u.fwuState = fuARMED → u.switchWithin 0 = true →
      ∃ t, exec (.bundleSwitch now) s = .next t ∧ t.fwuState = fuTRIAL ∧ t.activeSlot = 1 - u.activeSlot ∧
        t.dir.slot (1 - u.activeSlot) = slTRIAL ∧ t.flag (.evc .SRC_CFG_PENDING) 898 = true ∧
        t.get (.fwu .xACT_DUE) = u.dueIn (clampTo 1 60 (u.get (.fwu .ACT_TO_S)) * secNs) % 2 ^ 64 ∧
        (∀ a : Nat, 0x20000 ≤ a → t.flash.get a = u.flash.get a)) ∧
    (u.safe = false → u.fwuState = fuREVERTING → u.switchWithin 0 = true →
      ∃ t, exec (.bundleSwitch now) s = .next t ∧ FwuEnds u t ∧ t.activeSlot = 1 - u.activeSlot ∧
        t.dir.slot u.activeSlot = slBAD ∧ t.flag (.fwu .STATUS_REVERTED) = true ∧
        (∀ a : Nat, 0x20000 ≤ a → t.flash.get a = u.flash.get a)) ∧
    (u.safe = true ∨ u.switchWithin 0 = false → ∃ t, exec (.bundleSwitch now) s = .next t ∧ Still u t) ∧
    (u.safe = false → u.fwuState = fuTRIAL → u.expired (.fwu .xACT_DUE) = false → u.flag (.pwr .STATUS_HB_OK) = true →
      (∀ d < 2, u.dieUp d = true → u.ostState d ≠ 0) →
      ∃ t, exec (.trialConfirm now) s = .next t ∧ FwuEnds u t ∧ t.activeSlot = u.activeSlot ∧
        t.dir.slot u.activeSlot = slGOOD ∧ t.dir.pref = u.activeSlot ∧
        (∀ a : Nat, 0x20000 ≤ a → t.flash.get a = u.flash.get a)) ∧
    (u.safe = true ∨ u.fwuState ≠ fuTRIAL ∨ u.expired (.fwu .xACT_DUE) = true ∨ u.flag (.pwr .STATUS_HB_OK) = false ∨
        (∃ d < 2, u.dieUp d = true ∧ u.ostState d = 0) →
      ∃ t, exec (.trialConfirm now) s = .next t ∧ Still u t) ∧
    (u.safe = false → u.fwuState = fuTRIAL → u.expired (.fwu .xACT_DUE) = true →
      ∃ t, exec (.actTimeout now) s = .next t ∧ t.fwuState = fuREVERTING ∧
        t.get (.flt .CNT) 0 = (u.get (.flt .CNT) 0 + 1) % 2 ^ 64 ∧ Frame (fun k => fwuKeys k || fltKeys k) u t) ∧
    (u.safe = true ∨ u.fwuState ≠ fuTRIAL ∨ u.expired (.fwu .xACT_DUE) = false →
      ∃ t, exec (.actTimeout now) s = .next t ∧ Still u t))

-- Seasons and links

/-- What a write of `PWR_CTRL` may touch: the power registers and its event. -/
def Sys2Proof.pwrKeys (k : Key) : Bool := blkKeys .pwr k || evcKeys k

/-- No request for Winter or Spring has moved. -/
def Sys2Proof.NoRequest (s t : State) : Prop :=
  t.flag (.pwr .STATUS_WINTER_PENDING) = s.flag (.pwr .STATUS_WINTER_PENDING) ∧
  t.flag (.pwr .STATUS_WINTER_REFUSED) = s.flag (.pwr .STATUS_WINTER_REFUSED) ∧
  t.get (.pwr .xWIN_STEP) = s.get (.pwr .xWIN_STEP) ∧ t.flag (.pwr .CTRL_WINTER) = s.flag (.pwr .CTRL_WINTER) ∧
  t.flag (.pwr .CTRL_SPRING) = s.flag (.pwr .CTRL_SPRING) ∧ t.flag (.pwr .xSPRING_PEND) = s.flag (.pwr .xSPRING_PEND)

/-- A cluster is due to be gated (R484): AUTUMN_EN is set in Summer or Autumn, and it has been idle for 1 ms. -/
def Sys2Proof.gateDue (c : ClusterIx) (u : State) : Bool :=
  !u.safe && u.flag (.pwr .CTRL_AUTUMN_EN) && decide (u.get (.pwr .STATUS_SEASON) ≤ 1) && !u.gatedC c && u.gateIdle c &&
  u.get (.pwr .xGATE_AT) c != 0 && elapsedNs (u.get (.pwr .xGATE_AT) c - 1) u.osc msNs

/-- The requests of PWR_CTRL (R484, R486, R487, R489, R490). Every write of it takes AUTUMN_EN, and clearing that ungates
every cluster. A write that asks for WINTER alone is refused where Winter is barred, deferred for a field update, and else
accepted at that moment; one that finds a request still pending changes none. A write that asks for SPRING alone begins Spring
in Winter, where what Winter did not keep reads as never written and what it kept is as it was; after E it waits; before E it
cancels the entry; otherwise, or where CTRL.SPRING still reads 1, it does nothing. A cluster that is due is gated, and the
season is AUTUMN; otherwise nothing changes. What bars Winter, and that it is deferred in every FWU state but IDLE, are the
model's reading (log entry 94). -/
def Obligations.SeasonRequests : Prop :=
  (∀ (p : Party) (v : Word) (s : State), s.live = true → s.gateOf p .pwr none = .pass →
    (∀ i ∈ [Instr.winter p v, .spring p v, .autumnEnWrite p v],
      ∃ t, exec i s = .next t ∧ t.flag (.pwr .CTRL_AUTUMN_EN) = bitOf v.toNat 0 ∧
        (bitOf v.toNat 0 = false → t.get (.pwr .STATUS_GATED) = 0)) ∧
    (bitOf v.toNat 2 = false →
      (s.flag (.pwr .STATUS_WINTER_PENDING) = true ∨ s.flag (.pwr .CTRL_WINTER) = true →
        ∃ t, exec (.winter p v) s = .next t ∧ NoRequest s t ∧ Frame pwrKeys s t) ∧
      (s.flag (.pwr .STATUS_WINTER_PENDING) = false → s.flag (.pwr .CTRL_WINTER) = false →
        (s.winterBar = true → ∃ t, exec (.winter p v) s = .next t ∧ t.flag (.pwr .STATUS_WINTER_REFUSED) = true ∧
          t.flag (.pwr .STATUS_WINTER_PENDING) = false ∧ Frame pwrKeys s t) ∧
        (s.winterBar = false → s.fwuState = 0 → ∃ t, exec (.winter p v) s = .next t ∧
          t.flag (.pwr .STATUS_WINTER_PENDING) = true ∧ t.get (.pwr .xWIN_STEP) = 1 ∧
          t.get (.pwr .xWIN_TAI) = s.tai ∧ Frame pwrKeys s t) ∧
        (s.winterBar = false → s.fwuState ≠ 0 → ∃ t, exec (.winter p v) s = .next t ∧
          t.flag (.pwr .STATUS_WINTER_PENDING) = true ∧ t.flag (.pwr .CTRL_WINTER) = true ∧
          t.get (.pwr .xWIN_STEP) = s.get (.pwr .xWIN_STEP) ∧ Frame pwrKeys s t))) ∧
    (bitOf v.toNat 1 = false →
      (s.flag (.pwr .CTRL_SPRING) = true →
        ∃ t, exec (.spring p v) s = .next t ∧ NoRequest s t ∧ t.inWinter = s.inWinter ∧ Frame pwrKeys s t) ∧
      (s.flag (.pwr .CTRL_SPRING) = false →
        (s.inWinter = true → ∃ t, exec (.spring p v) s = .next t ∧ t.get (.pwr .STATUS_SEASON) = 3 ∧ t.flash = s.flash ∧
          t.host = s.host ∧ t.flag (.pwr .CTRL_SPRING) = false ∧
          (∀ (g j : Nat), segDropped s g (32 * j) = true → t.flag (.dmc .xINIT) g j = false) ∧
          (∀ a : Nat, segDropped s (a / 2 ^ 32) (a % 2 ^ 32 / 256) = false → t.dram.get a = s.dram.get a)) ∧
        (s.inWinter = false → s.get (.pwr .xWIN_STEP) = 2 →
          ∃ t, exec (.spring p v) s = .next t ∧ t.flag (.pwr .CTRL_SPRING) = true ∧ t.flag (.pwr .xSPRING_PEND) = true ∧
            t.get (.pwr .xWIN_STEP) = 2 ∧ Frame pwrKeys s t) ∧
        (s.inWinter = false → s.get (.pwr .xWIN_STEP) ≠ 2 → s.flag (.pwr .STATUS_WINTER_PENDING) = true →
          ∃ t, exec (.spring p v) s = .next t ∧ t.flag (.pwr .STATUS_WINTER_PENDING) = false ∧ t.get (.pwr .xWIN_STEP) = 0 ∧
            t.flag (.pwr .CTRL_WINTER) = false ∧ Frame pwrKeys s t) ∧
        (s.inWinter = false → s.get (.pwr .xWIN_STEP) ≠ 2 → s.flag (.pwr .STATUS_WINTER_PENDING) = false →
          ∃ t, exec (.spring p v) s = .next t ∧ NoRequest s t ∧ Frame pwrKeys s t))) ∧
    (∃ t, exec (.autumnEnWrite p v) s = .next t ∧ t.flag (.pwr .CTRL_AUTUMN_EN) = bitOf v.toNat 0 ∧
      (bitOf v.toNat 0 = false → t.get (.pwr .STATUS_GATED) = 0) ∧
      (bitOf v.toNat 0 = true → t.get (.pwr .STATUS_GATED) = s.get (.pwr .STATUS_GATED)) ∧ NoRequest s t ∧ Frame pwrKeys s t)) ∧
  (∀ (c : ClusterIx) (now : Now) (s u : State), s.live = true → u = s.atNow now →
    (gateDue c u = true →
      ∃ t, exec (.clusterGate c now) s = .next t ∧ t.gatedC c = true ∧ t.get (.pwr .STATUS_SEASON) = 1 ∧
        Frame pwrKeys u t) ∧
    (gateDue c u = false → ∃ t, exec (.clusterGate c now) s = .next t ∧ Still u t))

/-- The entry to Winter and Spring (R487, R489, R490). At E no channel runs, the Ostlers are quiet and every Tether link is
down. Once all is drained the Winter request is done, with no refresh owed, the PASR masks that keep the segments in use, and
every port's links down; it is WINTER, or SPRING where that was asked for since E. When rails, DRAM and links are up it is
SUMMER with nothing gated and every enabled link up. Each of these does nothing where it is not due. The links' state in
Winter, and that Spring ungates every cluster, are the model's reading (log entries 95, 96). -/
def Obligations.SeasonSteps : Prop :=
  ∀ (now : Now) (s u : State), s.live = true → u = s.atNow now →
    (u.safe = false → u.get (.pwr .xWIN_STEP) = 1 → u.atE = true →
      ∃ t, exec (.winterQuiesce now) s = .next t ∧ t.get (.pwr .xWIN_STEP) = 2 ∧
        (∀ ch : Chan, t.get (.cch .STATUS_STATE) ch ≠ chRUNNING ∧ t.get (.cch .STATUS_STATE) ch ≠ chLEAVING) ∧
        (∀ d : Die, t.flag (.ost .xQUIET) d = true) ∧ (∀ l : Link, t.flag (.mid .TTH_REV_UP) l = false) ∧
        t.flash = u.flash ∧ t.host = u.host) ∧
    (u.safe = true ∨ u.get (.pwr .xWIN_STEP) ≠ 1 ∨ u.atE = false → ∃ t, exec (.winterQuiesce now) s = .next t ∧ Still u t) ∧
    (u.safe = false → u.get (.pwr .xWIN_STEP) = 2 → u.drained = true →
      ∃ t, exec (.winterDrained now) s = .next t ∧ t.flag (.pwr .STATUS_WINTER_PENDING) = false ∧
        t.get (.pwr .xWIN_STEP) = 0 ∧ (∀ g : Group, t.get (.dmc .GRP_STATUS_REF_DEBT) g = 0) ∧
        (∀ (g : Group) (k : Fin 8), bitOf (t.get (.dmc .PASR_KEEP) g) k = (u.keptSegs g).contains k.val) ∧
        (∀ (d : Die) (q : Fin 2), t.get (.prs .PORT_CFG_LINK_UP) d q = 0) ∧
        (u.flag (.pwr .xSPRING_PEND) = false → t.inWinter = true ∧ SameBytes u t) ∧
        (u.flag (.pwr .xSPRING_PEND) = true → t.get (.pwr .STATUS_SEASON) = 3 ∧ t.flag (.pwr .CTRL_SPRING) = false ∧
          t.flag (.pwr .xSPRING_PEND) = false ∧ t.flash = u.flash ∧ t.host = u.host)) ∧
    (u.safe = true ∨ u.get (.pwr .xWIN_STEP) ≠ 2 ∨ u.drained = false →
      ∃ t, exec (.winterDrained now) s = .next t ∧ Still u t) ∧
    (u.safe = false → u.get (.pwr .STATUS_SEASON) = 3 →
      ∃ t, exec (.springComplete now) s = .next t ∧ t.get (.pwr .STATUS_SEASON) = 0 ∧ t.get (.pwr .STATUS_GATED) = 0 ∧
        (∀ (d : Die) (q : Fin 2), t.get (.prs .PORT_CFG_LINK_UP) d q =
          u.get (.prs .PORT_CFG_EN) d q % 2 ^ subPorts (u.get (.prs .PORT_CFG_MODE) d q)) ∧
        t.flash = u.flash ∧ t.host = u.host ∧ t.dram = u.dram) ∧
    (u.safe = true ∨ u.get (.pwr .STATUS_SEASON) ≠ 3 → ∃ t, exec (.springComplete now) s = .next t ∧ Still u t)

/-- What a Tether link may touch: its own registers and its event. -/
def Sys2Proof.linkKeys (l : Link) (k : Key) : Bool := (blkKeys .mid k && k.i == l.val) || evcKeys k

/-- The Tether links and the inter-die link (R25, R67, R413, R454). A link that is up, or met in the safe state or after E or
in Winter, stays as it is; in recovery mode it comes up at revision 1.0; before step 6 it stays down; after that a link to
another module with a common major comes up at the lesser minor, and one with no common major, or to a module of the same
number, stays down and is noticed. TTH_KA_TO with no keepalive, since the last and since the link came up, takes a link down
with a Notice. The inter-die link that has waited 1,000 ns for a credit stalls and retrains; a retrain that fails is retried
each second with a Notice; and one that succeeds ends it, and what crosses waits for its domain. Each of these does nothing
where it is not due. Which timer makes the link stall, and what is noticed, is the model's reading (log entry 86). -/
def Obligations.Links : Prop :=
  (∀ (l : Link) (major minor modNo : Nat) (s : State), s.live = true →
    (s.safe = true ∨ s.flag (.mid .TTH_REV_UP) l = true ∨ 2 ≤ s.get (.pwr .xWIN_STEP) ∨ s.inWinter = true →
      ∃ t, exec (.tetherLinkUp l major minor modNo) s = .next t ∧ Still s t) ∧
    (s.safe = false → s.flag (.mid .TTH_REV_UP) l = false → s.get (.pwr .xWIN_STEP) < 2 → s.inWinter = false →
      (s.tetherRecovery = true →
        ∃ t, exec (.tetherLinkUp l major minor modNo) s = .next t ∧ t.flag (.mid .TTH_REV_UP) l = true ∧
          t.get (.mid .TTH_REV_MAJOR) l = 1 ∧ t.get (.mid .TTH_REV_MINOR) l = 0 ∧ .tetherLink l true ∈ t.outs ∧
          t.flag (.evc .SRC_CFG_PENDING) 902 = true ∧ Frame (linkKeys l) s t) ∧
      (s.tetherRecovery = false → s.get (.mid .BOOT_STEP) < 6 →
        ∃ t, exec (.tetherLinkUp l major minor modNo) s = .next t ∧ Still s t) ∧
      (s.tetherRecovery = false → 6 ≤ s.get (.mid .BOOT_STEP) → modNo = s.get (.mid .STATUS_MODULE) →
        ∃ t, exec (.tetherLinkUp l major minor modNo) s = .next t ∧ t.flag (.mid .TTH_REV_UP) l = false ∧
          t.get (.flt .CNT) 0 = (s.get (.flt .CNT) 0 + 1) % 2 ^ 64 ∧ Frame fltKeys s t) ∧
      (s.tetherRecovery = false → 6 ≤ s.get (.mid .BOOT_STEP) → modNo ≠ s.get (.mid .STATUS_MODULE) →
        (major = s.get (.mid .TTH_LOCAL_MAJOR) →
          ∃ t, exec (.tetherLinkUp l major minor modNo) s = .next t ∧ t.flag (.mid .TTH_REV_UP) l = true ∧
            t.get (.mid .TTH_REV_MAJOR) l = major ∧
            t.get (.mid .TTH_REV_MINOR) l = min minor (s.get (.mid .TTH_LOCAL_MINOR_MAX)) ∧ .tetherLink l true ∈ t.outs ∧
            t.flag (.evc .SRC_CFG_PENDING) 902 = true ∧ Frame (linkKeys l) s t) ∧
        (major ≠ s.get (.mid .TTH_LOCAL_MAJOR) →
          ∃ t, exec (.tetherLinkUp l major minor modNo) s = .next t ∧ t.flag (.mid .TTH_REV_UP) l = false ∧
            t.flag (.evc .SRC_CFG_PENDING) 902 = true ∧
            t.get (.flt .CNT) 0 = (s.get (.flt .CNT) 0 + 1) % 2 ^ 64 ∧ Frame fltKeys s t)))) ∧
  (∀ (l : Link) (since : Nat) (now : Now) (s u : State), s.live = true → u = s.atNow now →
    (u.flag (.mid .TTH_REV_UP) l = true → u.expired (.mid .xKA_DUE) l = true →
      u.waitedOut (.tth .KA_TO_MS) 0 since 1 1000 msNs = true →
      ∃ t, exec (.tetherKeepaliveTimeout l ⟨since, now⟩) s = .next t ∧ t.flag (.mid .TTH_REV_UP) l = false ∧
        .tetherLink l false ∈ t.outs ∧ t.flag (.evc .SRC_CFG_PENDING) 902 = true ∧
        t.get (.flt .CNT) 0 = (u.get (.flt .CNT) 0 + 1) % 2 ^ 64 ∧
        Frame (fun k => linkKeys l k || fltKeys k) u t) ∧
    (u.flag (.mid .TTH_REV_UP) l = false ∨ u.expired (.mid .xKA_DUE) l = false ∨
        u.waitedOut (.tth .KA_TO_MS) 0 since 1 1000 msNs = false →
      ∃ t, exec (.tetherKeepaliveTimeout l ⟨since, now⟩) s = .next t ∧ Still u t)) ∧
  (∀ (now : Now) (s u : State), s.live = true → u = s.atNow now →
    (∀ since : Nat,
      (u.safe = false → u.flag (.mid .xLINK_DOWN) = false → elapsedNs since u.osc 1000 = true →
        ∃ t, exec (.linkCreditTimeout ⟨since, now⟩) s = .next t ∧ t.flag (.mid .xLINK_DOWN) = true ∧
          t.get (.mid .xLINK_RETRY) = 0 ∧ t.get (.flt .CNT) 2 = (u.get (.flt .CNT) 2 + 1) % 2 ^ 64 ∧
          Frame (fun k => blkKeys .mid k || fltKeys k) u t) ∧
      (u.safe = true ∨ u.flag (.mid .xLINK_DOWN) = true ∨ elapsedNs since u.osc 1000 = false →
        ∃ t, exec (.linkCreditTimeout ⟨since, now⟩) s = .next t ∧ Still u t)) ∧
    (u.flag (.mid .xLINK_DOWN) = true → elapsedNs (u.get (.mid .xLINK_AT)) u.osc secNs = true →
      ∃ t, exec (.linkRetrainRetry now) s = .next t ∧ t.get (.mid .xLINK_RETRY) = min (u.get (.mid .xLINK_RETRY) + 1) 65535 ∧
        t.flag (.mid .xLINK_DOWN) = true ∧ t.get (.flt .CNT) 0 = (u.get (.flt .CNT) 0 + 1) % 2 ^ 64 ∧
        Frame (fun k => blkKeys .mid k || fltKeys k) u t) ∧
    (u.flag (.mid .xLINK_DOWN) = false ∨ elapsedNs (u.get (.mid .xLINK_AT)) u.osc secNs = false →
      ∃ t, exec (.linkRetrainRetry now) s = .next t ∧ Still u t) ∧
    (u.flag (.mid .xLINK_DOWN) = true →
      ∃ t, exec (.linkRetrainDone now) s = .next t ∧ t.flag (.mid .xLINK_DOWN) = false ∧
        (∀ dom < 8, t.get (.mid .xX_HOLD) dom = u.tai + 1) ∧ Frame (blkKeys .mid) u t) ∧
    (u.flag (.mid .xLINK_DOWN) = false → ∃ t, exec (.linkRetrainDone now) s = .next t ∧ Still u t))

-- DMA

/-- The keys of one queue, and the queue last granted a slot on its die. -/
def Sys2Proof.queueKeys (d q : Nat) (k : Key) : Bool := k.fld.home == .dma && k.i == d && k.j == q
def Sys2Proof.grantKeys (d q : Nat) (k : Key) : Bool := queueKeys d q k || k.fld == .dma .xLAST_Q

/-- The commands of the operations of R337, by their code: those of memory, and with RECV and SEND. -/
def Sys2Proof.dmaMemOps (d : Die) (q : Queue) (env : DmaEnv) (now : Now) : List (Nat × Instr) :=
  [(opNOP, .dmaNop d q env now), (opCOPY, .dmaCopy d q env now), (opRESH_IN, .dmaReshIn d q env now),
   (opRESH_OUT, .dmaReshOut d q env now), (opDEINT, .dmaDeint d q env now), (opINTER, .dmaInter d q env now),
   (opFILL, .dmaFill d q env now), (opCOMPARE, .dmaCompare d q env now), (opCHECK, .dmaCheck d q env now)]
def Sys2Proof.dmaOps (d : Die) (q : Queue) (env : DmaEnv) (now : Now) : List (Nat × Instr) :=
  dmaMemOps d q env now ++ [(opRECV, .dmaRecv d q env now), (opSEND, .dmaSend d q env now)]

/-- A queue has its turn (R334): it is ready and is granted a free engine slot. -/
def Sys2Proof.qTurn (d : Die) (q : Queue) (u : State) : Bool := u.qReady d q && u.qGranted d q

/-- The fetch of the descriptor at HEAD succeeds, without poison (R348). -/
def Sys2Proof.fetched (d : Die) (q : Queue) (env : DmaEnv) (u : State) : Bool := env.fetchOk && !(u.slotBytes d q).any (·.2)

/-- The descriptor at HEAD of a queue starts (R334, R346, R348): the queue has its turn, the fetch succeeds, the descriptor is not
refused, its unit is free, and no host read of it fails. -/
def Sys2Proof.DescStarts (d : Die) (q : Queue) (env : DmaEnv) (x : Desc) (u : State) : Prop :=
  qTurn d q u = true ∧ fetched d q env u = true ∧ u.headDesc d q = x ∧ u.refusal d q x = none ∧ u.unitFree d x = true ∧
  (env.hostErr && x.readsHost (u.qHost d q)) = false

/-- The unit of a descriptor has been fed bytes, after the bytes of `fold` where the descriptor folds (R345, R347, R353). -/
def Sys2Proof.FedUnit (d : Die) (x : Desc) (fold : Nat) (l : List TByte) (u t : State) : Prop :=
  x.chkEn = true →
    let poly := u.chkPoly d x.unit
    let v := u.chkVal d x.unit
    let v := if x.chkFold then chkRun poly v (u.foldBytes d x.unit fold) % 2 ^ chkWidth poly else v
    t.chkVal d x.unit = chkRun poly v (l.map (·.1)) % 2 ^ chkWidth poly ∧
    (l.any (·.2) = true → t.flag (.chk .CFG_POISON) d x.unit = true)

/-- The running descriptor of a queue is to end with a status and a RESULT. -/
def Sys2Proof.RunsTo (d : Die) (q : Queue) (st res : Nat) (t : State) : Prop :=
  t.qRuns d q = true ∧ t.get (.dma .xST) d q = st ∧ t.get (.dma .xRES) d q = res

/-- A queue has halted (R348): its descriptor has ended with a status that halts, HEAD has advanced, and the fault and the
queue's event are raised. -/
def Sys2Proof.Halted (d : Die) (q : Queue) (st : Nat) (u t : State) : Prop :=
  t.qRuns d q = false ∧ t.get (.dma .Q_STATUS_LAST_STATUS) d q = st ∧ t.flag (.dma .Q_STATUS_HALTED) d q = true ∧
  t.get (.dma .Q_HEAD_HEAD) d q = (u.qHead d q + 1) % u.ringSize d q ∧
  t.get (.dma .CNT) d 6 = (u.get (.dma .CNT) d 6 + 1) % 2 ^ 64 ∧ t.get (.flt .CNT) 2 = (u.get (.flt .CNT) 2 + 1) % 2 ^ 64 ∧
  t.flag (.evc .SRC_CFG_PENDING) (768 + 32 * d + q) = true ∧ t.flash = u.flash ∧ t.stores = u.stores

/-- A descriptor starts in its turn (R334, R337, R344 to R348). One of an operation of memory occupies its queue and runs to
the status that its data gives: for an operation that writes OK, or POISONED with the number of the first tagged byte; for NOP
OK with nothing else touched; for COMPARE what the comparison gives; for CHECK OK, and no byte of memory changed; a unit that
it holds is fed the bytes. Its queue is the last granted, and nothing else of the data path moves. A command whose operation
is another one's, that names a queue without its turn, or that is RECV without a frame, changes nothing. A descriptor that is
refused runs to that status and touches nothing but its queue; one whose unit is not free waits, and its timeout runs; and a
reserved operation is refused with BAD_DESC. -/
def Obligations.DescRuns : Prop :=
  ∀ (d : Die) (q : Queue) (env : DmaEnv) (x : Desc) (now : Now) (s u : State), s.live = true → u = s.atNow now →
    (∀ i ∈ dmaMemOps d q env now, DescStarts d q env x u → x.op = i.1 →
      ∃ t, exec i.2 s = .next t ∧ t.qRuns d q = true ∧ t.get (.dma .xOP) d q = i.1 ∧ t.get (.dma .xLAST_Q) d = q ∧
        (1 ≤ i.1 → i.1 ≤ 6 → ∀ l, l = Pieces.bytes (u.pieces env.ep (u.qHost d q) x) →
          RunsTo d q (if (firstTag l).isSome then dsPOISONED else dsOK) ((firstTag l).getD 0) t ∧ FedUnit d x x.w2 l u t) ∧
        (i.1 = opNOP → RunsTo d q dsOK 0 t ∧ Frame (grantKeys d q) u t) ∧
        (i.1 = opCOMPARE →
          (∀ r, r = compareAt 0 (u.readSpan env.ep ⟨spOf (u.qHost d q) x.srcSp, x.w1, x.len⟩)
              (u.readSpan env.ep ⟨spOf (u.qHost d q) x.dstSp, x.w2, x.len⟩) → RunsTo d q r.1 r.2 t) ∧
          Frame (grantKeys d q) u t) ∧
        (i.1 = opCHECK → RunsTo d q dsOK 0 t ∧ SameBytes u t ∧
          FedUnit d x x.w1 (u.readSpan env.ep ⟨spOf (u.qHost d q) x.srcSp, x.w1, x.len⟩) u t) ∧
        t.chains = u.chains ∧ t.flash = u.flash ∧ t.stores = u.stores) ∧
    (∀ i ∈ dmaOps d q env now,
      (qTurn d q u = false ∨ (fetched d q env u = true ∧ (u.headDesc d q).op ≠ i.1) ∨
          (fetched d q env u = true ∧ i.1 = opRECV ∧ u.get (.dma .Q_CFG_MODE) d q = 1 ∧ u.rxWaiting d q = 0) →
        ∃ t, exec i.2 s = .next t ∧ Still u t) ∧
      (qTurn d q u = true → fetched d q env u = true → u.headDesc d q = x → x.op = i.1 →
        ¬(i.1 = opRECV ∧ u.get (.dma .Q_CFG_MODE) d q = 1 ∧ u.rxWaiting d q = 0) →
        (∀ st, u.refusal d q x = some st →
          ∃ t, exec i.2 s = .next t ∧ RunsTo d q st 0 t ∧ Frame (grantKeys d q) u t) ∧
        (u.refusal d q x = none → u.unitFree d x = false →
          ∃ t, exec i.2 s = .next t ∧
            t.get (.dma .xDUE) d q =
              (if u.get (.dma .xDUE) d q = 0 then u.dueIn (u.qToNs d q) % 2 ^ 64 else u.get (.dma .xDUE) d q) ∧
            Frame (fun k => k == ⟨.dma .xDUE, d, q, 0⟩) u t))) ∧
    (qTurn d q u = true → fetched d q env u = true → opSEND < (u.headDesc d q).op →
      ∃ t, exec (.dmaOpReserved d q env now) s = .next t ∧ RunsTo d q dsBAD_DESC 0 t ∧ Frame (grantKeys d q) u t) ∧
    (qTurn d q u = false ∨ (fetched d q env u = true ∧ (u.headDesc d q).op ≤ opSEND) →
      ∃ t, exec (.dmaOpReserved d q env now) s = .next t ∧ Still u t)

/-- The place of a piece of a destination in host memory. -/
def Sys2Proof.hostAt (sp a : Nat) : Nat := (sp - 1) * 2 ^ 64 + a

/-- The bytes of pieces are where they belong (R336, R340): each in DRAM of a group that is not LOST (R311), or in host memory. -/
def Sys2Proof.Written (l : Pieces) (u t : State) : Prop :=
  ∀ p ∈ l,
    (p.1 = 0 → u.grpLost (p.2.1 / 2 ^ 32) = false → t.dram.read p.2.1 p.2.2.length = p.2.2.map (·.1)) ∧
    (p.1 ≠ 0 → t.host.read (hostAt p.1 p.2.1) p.2.2.length = p.2.2.map (·.1))

/-- No byte of DRAM or of host memory outside the pieces has changed. -/
def Sys2Proof.NotElsewhere (l : Pieces) (u t : State) : Prop :=
  (∀ b : Nat, (∀ p ∈ l, p.1 = 0 → b < p.2.1 ∨ p.2.1 + p.2.2.length ≤ b) → t.dram.get b = u.dram.get b) ∧
  (∀ b : Nat, (∀ p ∈ l, p.1 ≠ 0 → b < hostAt p.1 p.2.1 ∨ hostAt p.1 p.2.1 + p.2.2.length ≤ b) →
    t.host.get b = u.host.get b)

/-- The bytes of a frame that a RECV stores, with their tags (R347, R349). -/
def Sys2Proof.recvBody (c : Chain) (x : Desc) : List TByte :=
  ((c.data.zip (List.range c.data.length)).map (fun b => (b.1, c.poison.contains b.2))).take x.len

/-- What the operations that write do (R340 to R344, R349, R350). The destination of a memory operation reads as the bytes
that the operation gives, computed from the source as it was; a host write of them is sent; and every other byte of host
memory and of DRAM is as it was. A group that is LOST drops what is written to it (R311). RECV takes the oldest frame that
waits for its queue: its bytes stand at the destination, where the words of the slot do not overwrite them, and its time stamp
in the slot; the status is TRUNC where the frame is longer than LEN, POISONED for a tagged byte of it, else OK, with the
frame's length; no byte of memory beyond the destination and those words changes; and it is counted. SEND takes its bytes as a
new frame with OK, or POISONED for a tagged byte, or where the cells do not suffice ends DROPPED, counted, with no frame; no
byte of memory changes. -/
def Obligations.DescWrites : Prop :=
  ∀ (d : Die) (q : Queue) (env : DmaEnv) (x : Desc) (now : Now) (s u : State), s.live = true → u = s.atNow now →
    DescStarts d q env x u →
    (∀ i ∈ dmaMemOps d q env now, 1 ≤ i.1 → i.1 ≤ 6 → x.op = i.1 → ∀ l, l = u.pieces env.ep (u.qHost d q) x →
      ∃ t, exec i.2 s = .next t ∧ Written l u t ∧ NotElsewhere l u t ∧
        (∀ p ∈ l, p.1 ≠ 0 → .dmaWrite (p.1 - 1) p.2.1 (p.2.2.map (·.1)) (p.2.2.any (·.2)) ∈ t.outs) ∧
        ((∀ p ∈ l, p.1 = 0) → t.host = u.host) ∧ ((∀ p ∈ l, p.1 ≠ 0) → t.dram = u.dram) ∧
        (∀ p ∈ l, p.1 = 0 → u.grpLost (p.2.1 / 2 ^ 32) = true → t.dram.read p.2.1 p.2.2.length = u.dram.read p.2.1 p.2.2.length)) ∧
    (x.op = opRECV → ∀ (r : Rx) (c : Chain),
      u.rxs.find? (fun r => r.die == d.val && r.q == q.val) = some r → u.chain? r.chain = some c →
      ∀ body, body = recvBody c x → ∀ dst slot : Pieces, dst = [(spOf (u.qHost d q) x.dstSp, x.w2, body)] →
        slot = [(u.qHost d q, u.slotAddr d q + 32, List.replicate 12 (0, false))] →
        ∃ t, exec (.dmaRecv d q env now) s = .next t ∧ t.get (.dma .xCHAIN) d q = r.chain + 1 ∧
          RunsTo d q (if (firstTag body).isSome then dsPOISONED else if x.len < c.data.length then dsTRUNC else dsOK)
            (((firstTag body).getD c.data.length) % 2 ^ 32) t ∧
          t.get (.dma .CNT) d 3 = (u.get (.dma .CNT) d 3 + 1) % 2 ^ 64 ∧ t.rxs = u.rxs ∧ t.chains = u.chains ∧
          (spOf (u.qHost d q) x.dstSp ≠ u.qHost d q ∨ x.w2 + body.length ≤ u.slotAddr d q + 32 ∨ u.slotAddr d q + 44 ≤ x.w2 →
            Written dst u t) ∧
          Written [(u.qHost d q, u.slotAddr d q + 32, (leBytes 6 c.ts).map (·, false))] u t ∧
          NotElsewhere (dst ++ slot) u t) ∧
    (x.op = opSEND →
      (u.availCells d (56 + u.qOwner d q) (cellsFor (x.len + 4)) = false →
        ∃ t, exec (.dmaSend d q env now) s = .next t ∧ RunsTo d q dsDROPPED 0 t ∧
          t.get (.dma .CNT) d 5 = (u.get (.dma .CNT) d 5 + 1) % 2 ^ 64 ∧ SameBytes u t ∧ t.chains = u.chains) ∧
      (u.availCells d (56 + u.qOwner d q) (cellsFor (x.len + 4)) = true →
        ∀ body, body = u.readSpan env.ep ⟨spOf (u.qHost d q) x.srcSp, x.w1, x.len⟩ →
          ∃ t, exec (.dmaSend d q env now) s = .next t ∧
            RunsTo d q (if (firstTag body).isSome then dsPOISONED else dsOK) ((firstTag body).getD 0) t ∧
            t.nextId = u.nextId + 1 ∧ SameBytes u t))

/-- The last word of a slot, as a completion writes it (R335, R348). -/
def Sys2Proof.lastWord (st res : Nat) : List TByte := (leBytes 8 (st + 2 ^ 8 + res * 2 ^ 32)).map (·, false)

/-- Whether the read-back of a running descriptor fails, and with what (R339, R348). -/
def Sys2Proof.backFails (d : Die) (q : Queue) (rb : ReadBack) (u : State) : Option Nat :=
  if u.get (.dma .xRB) d q = 2 ∧ rb.hostErr then some dsHOST_ERR
  else if u.get (.dma .xRB) d q ≠ 0 ∧ (rb.poison || u.backPoison d q) ∧ !u.flag (.dma .xRBTAG) d q then some dsWB_FAIL
  else none

/-- A completion that a running descriptor waits for has not come in HPT_CPL_TO (R67). -/
def Sys2Proof.cplLate (d : Die) (q : Queue) (since : Nat) (u : State) : Bool :=
  !u.safe && u.dieUp d && u.qRuns d q && u.qHost d q != 0 && u.waitedOut (.hpt .CPL_TO_TO) 0 since 50 50000 usNs

/-- A running descriptor ends (R67, R334, R339, R345, R348). With a clean read-back its status shows, HEAD advances, it is
counted, its completion word stands in its slot and is the one word of memory that has changed, and its event is raised where
it asks for one; a read-back that fails, its timeout, running or as it waits for its unit, or a completion that does not come
in time, halts the queue; what is not due changes nothing. A host read that fails halts the queue, and so does a fetch that
fails, whose status the model leaves open (log entry 58). The queue registers act for the owner of the queue alone (R332,
R333): a post sets TAIL, RESUME ends a halt, and RESET of a queue that is disabled clears its indexes and its halt, and of one
that is not does nothing. -/
def Obligations.DescEnds : Prop :=
  (∀ (d : Die) (q : Queue) (now : Now) (s u : State), s.live = true → u = s.atNow now →
    (∀ rb : ReadBack,
      (u.safe = true ∨ u.dieUp d = false ∨ u.qRuns d q = false ∨ u.finWaits d q = true →
        ∃ t, exec (.descComplete d q rb now) s = .next t ∧ Still u t) ∧
      (u.safe = false → u.dieUp d = true → u.qRuns d q = true → u.finWaits d q = false →
        (∀ st, backFails d q rb u = some st → ∃ t, exec (.descComplete d q rb now) s = .next t ∧ Halted d q st u t) ∧
        (backFails d q rb u = none → u.get (.dma .xST) d q < dsTIMEOUT →
          ∃ t, exec (.descComplete d q rb now) s = .next t ∧ t.qRuns d q = false ∧
            t.get (.dma .Q_STATUS_LAST_STATUS) d q = u.get (.dma .xST) d q ∧
            t.get (.dma .Q_HEAD_HEAD) d q = (u.qHead d q + 1) % u.ringSize d q ∧
            t.get (.dma .CNT) d 0 = (u.get (.dma .CNT) d 0 + 1) % 2 ^ 64 ∧
            t.get (.dma .CNT) d 2 = (u.get (.dma .CNT) d 2 + if u.get (.dma .xST) d q = dsPOISONED then 1 else 0) % 2 ^ 64 ∧
            (u.flag (.dma .xEVT) d q = true → t.flag (.evc .SRC_CFG_PENDING) (768 + 32 * d + q) = true) ∧
            ∀ (sp a res : Nat), sp = u.get (.dma .xSLOT) d q / 2 ^ 64 → a = u.get (.dma .xSLOT) d q % 2 ^ 64 + 56 →
              (res = if u.flag (.dma .xFIN) d q = true ∧ u.get (.dma .xUNIT) d q ≠ 0 ∧ u.get (.dma .xST) d q ≠ dsDROPPED ∧
                    u.get (.dma .xOP) d q = opCHECK then t.get (.chk .RES_RES) d (u.get (.dma .xUNIT) d q - 1)
                else u.get (.dma .xRES) d q) →
              Written [(sp, a, lastWord (u.get (.dma .xST) d q) res)] u t ∧
                NotElsewhere [(sp, a, lastWord (u.get (.dma .xST) d q) res)] u t))) ∧
    (u.safe = false → u.dieUp d = true → u.expired (.dma .xDUE) d q = true → u.qRuns d q = true ∨ u.qReady d q = true →
      ∃ t, exec (.dmaDescTimeout d q now) s = .next t ∧ Halted d q dsTIMEOUT u t) ∧
    (u.safe = true ∨ u.dieUp d = false ∨ u.expired (.dma .xDUE) d q = false ∨ (u.qRuns d q = false ∧ u.qReady d q = false) →
      ∃ t, exec (.dmaDescTimeout d q now) s = .next t ∧ Still u t) ∧
    (∀ since : Nat,
      (cplLate d q since u = true →
        ∃ t, exec (.pcieCplTimeout d q ⟨since, now⟩) s = .next t ∧ Halted d q dsHOST_ERR u t) ∧
      (cplLate d q since u = false → ∃ t, exec (.pcieCplTimeout d q ⟨since, now⟩) s = .next t ∧ Still u t)) ∧
    (∀ env : DmaEnv,
      (qTurn d q u = true → fetched d q env u = false →
        ∀ i ∈ Instr.dmaOpReserved d q env now :: (dmaOps d q env now).map (·.2),
          ∃ t, exec i s = .next t ∧ t.flag (.dma .Q_STATUS_HALTED) d q = true ∧
            t.flag (.dma .Q_STATUS_FETCH_ERR) d q = true ∧ t.qRuns d q = false ∧
            t.get (.dma .CNT) d 6 = (u.get (.dma .CNT) d 6 + 1) % 2 ^ 64 ∧
            Frame (fun k => blkKeys .dma k || fltKeys k) u t) ∧
      ∀ (x : Desc), qTurn d q u = true → fetched d q env u = true → u.headDesc d q = x → u.refusal d q x = none →
        u.unitFree d x = true → env.hostErr = true → x.readsHost (u.qHost d q) = true →
        ∀ i ∈ dmaOps d q env now, x.op = i.1 → ∃ t, exec i.2 s = .next t ∧ Halted d q dsHOST_ERR u t)) ∧
  ∀ (p : Party) (d : Die) (q : Queue) (v : Word) (s : State), s.live = true → s.gateOf p .dma (some d.val) = .pass →
    (s.ownsQueue p d q = true →
      (∃ t, exec (.dmaPost p d q v) s = .next t ∧ t.get (.dma .Q_TAIL_TAIL) d q = v.toNat % 2 ^ (Fld.dma .Q_TAIL_TAIL).width ∧
        Frame (fun k => k == ⟨.dma .Q_TAIL_TAIL, d, q, 0⟩) s t) ∧
      (∃ t, exec (.dmaResume p d q v) s = .next t ∧ t.flag (.dma .Q_STATUS_HALTED) d q = false ∧
        (bitOf v.toNat 1 = false → Frame (fun k => k == ⟨.dma .Q_STATUS_HALTED, d, q, 0⟩) s t) ∧
        Frame (queueKeys d q) s t) ∧
      (s.flag (.dma .Q_CFG_EN) d q = false →
        ∃ t, exec (.dmaReset p d q v) s = .next t ∧ t.get (.dma .Q_HEAD_HEAD) d q = 0 ∧
          t.get (.dma .Q_TAIL_TAIL) d q = 0 ∧ t.flag (.dma .Q_STATUS_HALTED) d q = false ∧ Frame (queueKeys d q) s t) ∧
      (s.flag (.dma .Q_CFG_EN) d q = true →
        ∃ t, exec (.dmaReset p d q v) s = .next t ∧
          t.flag (.dma .Q_STATUS_HALTED) d q = (!bitOf v.toNat 0 && s.flag (.dma .Q_STATUS_HALTED) d q) ∧
          Frame (fun k => k == ⟨.dma .Q_STATUS_HALTED, d, q, 0⟩) s t)) ∧
    (s.ownsQueue p d q = false → ∀ i ∈ [Instr.dmaPost p d q v, .dmaResume p d q v, .dmaReset p d q v],
      ∃ t, exec i s = .next t ∧ Still s t)
end

