-- ==== Sys2Proof/Laws/State.lean ====
section
/-!
SUPPORT. One lemma for each field of the state under each of the named updates of Ops.lean, and the laws of reading a register
field back: what was put, and every other key unchanged.
-/

namespace Sys2Proof.Machine

variable (s t : State) (f g : Fld) (v w i j k a b c : Nat)

@[simp] theorem State.put_pending : (s.put f v i j k).pending = s.pending := rfl
@[simp] theorem State.put_osc : (s.put f v i j k).osc = s.osc := rfl
@[simp] theorem State.put_tb : (s.put f v i j k).tb = s.tb := rfl
@[simp] theorem State.put_safe : (s.put f v i j k).safe = s.safe := rfl
@[simp] theorem State.put_freeCtr : (s.put f v i j k).freeCtr = s.freeCtr := rfl
@[simp] theorem State.put_dram : (s.put f v i j k).dram = s.dram := rfl
@[simp] theorem State.put_flash : (s.put f v i j k).flash = s.flash := rfl
@[simp] theorem State.put_stores : (s.put f v i j k).stores = s.stores := rfl
@[simp] theorem State.put_host : (s.put f v i j k).host = s.host := rfl
@[simp] theorem State.put_fifo : (s.put f v i j k).fifo = s.fifo := rfl
@[simp] theorem State.put_claims : (s.put f v i j k).claims = s.claims := rfl
@[simp] theorem State.put_restarts : (s.put f v i j k).restarts = s.restarts := rfl
@[simp] theorem State.put_image : (s.put f v i j k).image = s.image := rfl
@[simp] theorem State.put_nextId : (s.put f v i j k).nextId = s.nextId := rfl
@[simp] theorem State.put_chains : (s.put f v i j k).chains = s.chains := rfl
@[simp] theorem State.put_copies : (s.put f v i j k).copies = s.copies := rfl
@[simp] theorem State.put_cross : (s.put f v i j k).cross = s.cross := rfl
@[simp] theorem State.put_mheld : (s.put f v i j k).mheld = s.mheld := rfl
@[simp] theorem State.put_mdone : (s.put f v i j k).mdone = s.mdone := rfl
@[simp] theorem State.put_learns : (s.put f v i j k).learns = s.learns := rfl
@[simp] theorem State.put_routes : (s.put f v i j k).routes = s.routes := rfl
@[simp] theorem State.put_bufs : (s.put f v i j k).bufs = s.bufs := rfl
@[simp] theorem State.put_recircs : (s.put f v i j k).recircs = s.recircs := rfl
@[simp] theorem State.put_rxs : (s.put f v i j k).rxs = s.rxs := rfl
@[simp] theorem State.put_inputs : (s.put f v i j k).inputs = s.inputs := rfl
@[simp] theorem State.put_units : (s.put f v i j k).units = s.units := rfl
@[simp] theorem State.put_undo : (s.put f v i j k).undo = s.undo := rfl
@[simp] theorem State.put_plog : (s.put f v i j k).plog = s.plog := rfl
@[simp] theorem State.put_quotes : (s.put f v i j k).quotes = s.quotes := rfl
@[simp] theorem State.put_outs : (s.put f v i j k).outs = s.outs := rfl
@[simp] theorem State.keepKeys_pending (p : Key → Bool) : (s.keepKeys p).pending = s.pending := rfl
@[simp] theorem State.keepKeys_osc (p : Key → Bool) : (s.keepKeys p).osc = s.osc := rfl
@[simp] theorem State.keepKeys_tb (p : Key → Bool) : (s.keepKeys p).tb = s.tb := rfl
@[simp] theorem State.keepKeys_safe (p : Key → Bool) : (s.keepKeys p).safe = s.safe := rfl
@[simp] theorem State.keepKeys_freeCtr (p : Key → Bool) : (s.keepKeys p).freeCtr = s.freeCtr := rfl
@[simp] theorem State.keepKeys_dram (p : Key → Bool) : (s.keepKeys p).dram = s.dram := rfl
@[simp] theorem State.keepKeys_flash (p : Key → Bool) : (s.keepKeys p).flash = s.flash := rfl
@[simp] theorem State.keepKeys_stores (p : Key → Bool) : (s.keepKeys p).stores = s.stores := rfl
@[simp] theorem State.keepKeys_host (p : Key → Bool) : (s.keepKeys p).host = s.host := rfl
@[simp] theorem State.keepKeys_fifo (p : Key → Bool) : (s.keepKeys p).fifo = s.fifo := rfl
@[simp] theorem State.keepKeys_claims (p : Key → Bool) : (s.keepKeys p).claims = s.claims := rfl
@[simp] theorem State.keepKeys_restarts (p : Key → Bool) : (s.keepKeys p).restarts = s.restarts := rfl
@[simp] theorem State.keepKeys_image (p : Key → Bool) : (s.keepKeys p).image = s.image := rfl
@[simp] theorem State.keepKeys_nextId (p : Key → Bool) : (s.keepKeys p).nextId = s.nextId := rfl
@[simp] theorem State.keepKeys_chains (p : Key → Bool) : (s.keepKeys p).chains = s.chains := rfl
@[simp] theorem State.keepKeys_copies (p : Key → Bool) : (s.keepKeys p).copies = s.copies := rfl
@[simp] theorem State.keepKeys_cross (p : Key → Bool) : (s.keepKeys p).cross = s.cross := rfl
@[simp] theorem State.keepKeys_mheld (p : Key → Bool) : (s.keepKeys p).mheld = s.mheld := rfl
@[simp] theorem State.keepKeys_mdone (p : Key → Bool) : (s.keepKeys p).mdone = s.mdone := rfl
@[simp] theorem State.keepKeys_learns (p : Key → Bool) : (s.keepKeys p).learns = s.learns := rfl
@[simp] theorem State.keepKeys_routes (p : Key → Bool) : (s.keepKeys p).routes = s.routes := rfl
@[simp] theorem State.keepKeys_bufs (p : Key → Bool) : (s.keepKeys p).bufs = s.bufs := rfl
@[simp] theorem State.keepKeys_recircs (p : Key → Bool) : (s.keepKeys p).recircs = s.recircs := rfl
@[simp] theorem State.keepKeys_rxs (p : Key → Bool) : (s.keepKeys p).rxs = s.rxs := rfl
@[simp] theorem State.keepKeys_inputs (p : Key → Bool) : (s.keepKeys p).inputs = s.inputs := rfl
@[simp] theorem State.keepKeys_units (p : Key → Bool) : (s.keepKeys p).units = s.units := rfl
@[simp] theorem State.keepKeys_undo (p : Key → Bool) : (s.keepKeys p).undo = s.undo := rfl
@[simp] theorem State.keepKeys_plog (p : Key → Bool) : (s.keepKeys p).plog = s.plog := rfl
@[simp] theorem State.keepKeys_quotes (p : Key → Bool) : (s.keepKeys p).quotes = s.quotes := rfl
@[simp] theorem State.keepKeys_outs (p : Key → Bool) : (s.keepKeys p).outs = s.outs := rfl
@[simp] theorem State.emit_pending (o : Out) : (s.emit o).pending = s.pending := rfl
@[simp] theorem State.emit_osc (o : Out) : (s.emit o).osc = s.osc := rfl
@[simp] theorem State.emit_tb (o : Out) : (s.emit o).tb = s.tb := rfl
@[simp] theorem State.emit_safe (o : Out) : (s.emit o).safe = s.safe := rfl
@[simp] theorem State.emit_freeCtr (o : Out) : (s.emit o).freeCtr = s.freeCtr := rfl
@[simp] theorem State.emit_store (o : Out) : (s.emit o).store = s.store := rfl
@[simp] theorem State.emit_dram (o : Out) : (s.emit o).dram = s.dram := rfl
@[simp] theorem State.emit_flash (o : Out) : (s.emit o).flash = s.flash := rfl
@[simp] theorem State.emit_stores (o : Out) : (s.emit o).stores = s.stores := rfl
@[simp] theorem State.emit_host (o : Out) : (s.emit o).host = s.host := rfl
@[simp] theorem State.emit_fifo (o : Out) : (s.emit o).fifo = s.fifo := rfl
@[simp] theorem State.emit_claims (o : Out) : (s.emit o).claims = s.claims := rfl
@[simp] theorem State.emit_restarts (o : Out) : (s.emit o).restarts = s.restarts := rfl
@[simp] theorem State.emit_image (o : Out) : (s.emit o).image = s.image := rfl
@[simp] theorem State.emit_nextId (o : Out) : (s.emit o).nextId = s.nextId := rfl
@[simp] theorem State.emit_chains (o : Out) : (s.emit o).chains = s.chains := rfl
@[simp] theorem State.emit_copies (o : Out) : (s.emit o).copies = s.copies := rfl
@[simp] theorem State.emit_cross (o : Out) : (s.emit o).cross = s.cross := rfl
@[simp] theorem State.emit_mheld (o : Out) : (s.emit o).mheld = s.mheld := rfl
@[simp] theorem State.emit_mdone (o : Out) : (s.emit o).mdone = s.mdone := rfl
@[simp] theorem State.emit_learns (o : Out) : (s.emit o).learns = s.learns := rfl
@[simp] theorem State.emit_routes (o : Out) : (s.emit o).routes = s.routes := rfl
@[simp] theorem State.emit_bufs (o : Out) : (s.emit o).bufs = s.bufs := rfl
@[simp] theorem State.emit_recircs (o : Out) : (s.emit o).recircs = s.recircs := rfl
@[simp] theorem State.emit_rxs (o : Out) : (s.emit o).rxs = s.rxs := rfl
@[simp] theorem State.emit_inputs (o : Out) : (s.emit o).inputs = s.inputs := rfl
@[simp] theorem State.emit_units (o : Out) : (s.emit o).units = s.units := rfl
@[simp] theorem State.emit_undo (o : Out) : (s.emit o).undo = s.undo := rfl
@[simp] theorem State.emit_plog (o : Out) : (s.emit o).plog = s.plog := rfl
@[simp] theorem State.emit_quotes (o : Out) : (s.emit o).quotes = s.quotes := rfl
@[simp] theorem State.emit_outs (o : Out) : (s.emit o).outs = s.outs ++ [o] := rfl
@[simp] theorem State.free_fst : s.free.1 = Config.free s.freeCtr := rfl
@[simp] theorem State.free_pending : s.free.2.pending = s.pending := rfl
@[simp] theorem State.free_osc : s.free.2.osc = s.osc := rfl
@[simp] theorem State.free_tb : s.free.2.tb = s.tb := rfl
@[simp] theorem State.free_safe : s.free.2.safe = s.safe := rfl
@[simp] theorem State.free_store : s.free.2.store = s.store := rfl
@[simp] theorem State.free_dram : s.free.2.dram = s.dram := rfl
@[simp] theorem State.free_flash : s.free.2.flash = s.flash := rfl
@[simp] theorem State.free_stores : s.free.2.stores = s.stores := rfl
@[simp] theorem State.free_host : s.free.2.host = s.host := rfl
@[simp] theorem State.free_fifo : s.free.2.fifo = s.fifo := rfl
@[simp] theorem State.free_claims : s.free.2.claims = s.claims := rfl
@[simp] theorem State.free_restarts : s.free.2.restarts = s.restarts := rfl
@[simp] theorem State.free_image : s.free.2.image = s.image := rfl
@[simp] theorem State.free_nextId : s.free.2.nextId = s.nextId := rfl
@[simp] theorem State.free_chains : s.free.2.chains = s.chains := rfl
@[simp] theorem State.free_copies : s.free.2.copies = s.copies := rfl
@[simp] theorem State.free_cross : s.free.2.cross = s.cross := rfl
@[simp] theorem State.free_mheld : s.free.2.mheld = s.mheld := rfl
@[simp] theorem State.free_mdone : s.free.2.mdone = s.mdone := rfl
@[simp] theorem State.free_learns : s.free.2.learns = s.learns := rfl
@[simp] theorem State.free_routes : s.free.2.routes = s.routes := rfl
@[simp] theorem State.free_bufs : s.free.2.bufs = s.bufs := rfl
@[simp] theorem State.free_recircs : s.free.2.recircs = s.recircs := rfl
@[simp] theorem State.free_rxs : s.free.2.rxs = s.rxs := rfl
@[simp] theorem State.free_inputs : s.free.2.inputs = s.inputs := rfl
@[simp] theorem State.free_units : s.free.2.units = s.units := rfl
@[simp] theorem State.free_undo : s.free.2.undo = s.undo := rfl
@[simp] theorem State.free_plog : s.free.2.plog = s.plog := rfl
@[simp] theorem State.free_quotes : s.free.2.quotes = s.quotes := rfl
@[simp] theorem State.free_outs : s.free.2.outs = s.outs := rfl
@[simp] theorem State.free_freeCtr : s.free.2.freeCtr = s.freeCtr + 1 := rfl
@[simp] theorem noteRate_pending (o b : Nat) : (noteRate o b s).pending = s.pending := by unfold noteRate; (repeat' split) <;> rfl
@[simp] theorem noteRate_osc (o b : Nat) : (noteRate o b s).osc = s.osc := by unfold noteRate; (repeat' split) <;> rfl
@[simp] theorem noteRate_tb (o b : Nat) : (noteRate o b s).tb = s.tb := by unfold noteRate; (repeat' split) <;> rfl
@[simp] theorem noteRate_safe (o b : Nat) : (noteRate o b s).safe = s.safe := by unfold noteRate; (repeat' split) <;> rfl
@[simp] theorem noteRate_freeCtr (o b : Nat) : (noteRate o b s).freeCtr = s.freeCtr := by unfold noteRate; (repeat' split) <;> rfl
@[simp] theorem noteRate_dram (o b : Nat) : (noteRate o b s).dram = s.dram := by unfold noteRate; (repeat' split) <;> rfl
@[simp] theorem noteRate_flash (o b : Nat) : (noteRate o b s).flash = s.flash := by unfold noteRate; (repeat' split) <;> rfl
@[simp] theorem noteRate_stores (o b : Nat) : (noteRate o b s).stores = s.stores := by unfold noteRate; (repeat' split) <;> rfl
@[simp] theorem noteRate_host (o b : Nat) : (noteRate o b s).host = s.host := by unfold noteRate; (repeat' split) <;> rfl
@[simp] theorem noteRate_fifo (o b : Nat) : (noteRate o b s).fifo = s.fifo := by unfold noteRate; (repeat' split) <;> rfl
@[simp] theorem noteRate_claims (o b : Nat) : (noteRate o b s).claims = s.claims := by unfold noteRate; (repeat' split) <;> rfl
@[simp] theorem noteRate_restarts (o b : Nat) : (noteRate o b s).restarts = s.restarts := by unfold noteRate; (repeat' split) <;> rfl
@[simp] theorem noteRate_image (o b : Nat) : (noteRate o b s).image = s.image := by unfold noteRate; (repeat' split) <;> rfl
@[simp] theorem noteRate_nextId (o b : Nat) : (noteRate o b s).nextId = s.nextId := by unfold noteRate; (repeat' split) <;> rfl
@[simp] theorem noteRate_chains (o b : Nat) : (noteRate o b s).chains = s.chains := by unfold noteRate; (repeat' split) <;> rfl
@[simp] theorem noteRate_copies (o b : Nat) : (noteRate o b s).copies = s.copies := by unfold noteRate; (repeat' split) <;> rfl
@[simp] theorem noteRate_cross (o b : Nat) : (noteRate o b s).cross = s.cross := by unfold noteRate; (repeat' split) <;> rfl
@[simp] theorem noteRate_mheld (o b : Nat) : (noteRate o b s).mheld = s.mheld := by unfold noteRate; (repeat' split) <;> rfl
@[simp] theorem noteRate_mdone (o b : Nat) : (noteRate o b s).mdone = s.mdone := by unfold noteRate; (repeat' split) <;> rfl
@[simp] theorem noteRate_learns (o b : Nat) : (noteRate o b s).learns = s.learns := by unfold noteRate; (repeat' split) <;> rfl
@[simp] theorem noteRate_routes (o b : Nat) : (noteRate o b s).routes = s.routes := by unfold noteRate; (repeat' split) <;> rfl
@[simp] theorem noteRate_bufs (o b : Nat) : (noteRate o b s).bufs = s.bufs := by unfold noteRate; (repeat' split) <;> rfl
@[simp] theorem noteRate_recircs (o b : Nat) : (noteRate o b s).recircs = s.recircs := by unfold noteRate; (repeat' split) <;> rfl
@[simp] theorem noteRate_rxs (o b : Nat) : (noteRate o b s).rxs = s.rxs := by unfold noteRate; (repeat' split) <;> rfl
@[simp] theorem noteRate_inputs (o b : Nat) : (noteRate o b s).inputs = s.inputs := by unfold noteRate; (repeat' split) <;> rfl
@[simp] theorem noteRate_units (o b : Nat) : (noteRate o b s).units = s.units := by unfold noteRate; (repeat' split) <;> rfl
@[simp] theorem noteRate_undo (o b : Nat) : (noteRate o b s).undo = s.undo := by unfold noteRate; (repeat' split) <;> rfl
@[simp] theorem noteRate_plog (o b : Nat) : (noteRate o b s).plog = s.plog := by unfold noteRate; (repeat' split) <;> rfl
@[simp] theorem noteRate_quotes (o b : Nat) : (noteRate o b s).quotes = s.quotes := by unfold noteRate; (repeat' split) <;> rfl
@[simp] theorem noteRate_outs (o b : Nat) : (noteRate o b s).outs = s.outs := by unfold noteRate; (repeat' split) <;> rfl
@[simp] theorem State.clock_pending (n : Now) : (s.clock n).pending = s.pending := noteRate_pending s _ _
@[simp] theorem State.clock_safe (n : Now) : (s.clock n).safe = s.safe := noteRate_safe s _ _
@[simp] theorem State.clock_freeCtr (n : Now) : (s.clock n).freeCtr = s.freeCtr := noteRate_freeCtr s _ _
@[simp] theorem State.clock_dram (n : Now) : (s.clock n).dram = s.dram := noteRate_dram s _ _
@[simp] theorem State.clock_flash (n : Now) : (s.clock n).flash = s.flash := noteRate_flash s _ _
@[simp] theorem State.clock_stores (n : Now) : (s.clock n).stores = s.stores := noteRate_stores s _ _
@[simp] theorem State.clock_host (n : Now) : (s.clock n).host = s.host := noteRate_host s _ _
@[simp] theorem State.clock_fifo (n : Now) : (s.clock n).fifo = s.fifo := noteRate_fifo s _ _
@[simp] theorem State.clock_claims (n : Now) : (s.clock n).claims = s.claims := noteRate_claims s _ _
@[simp] theorem State.clock_restarts (n : Now) : (s.clock n).restarts = s.restarts := noteRate_restarts s _ _
@[simp] theorem State.clock_image (n : Now) : (s.clock n).image = s.image := noteRate_image s _ _
@[simp] theorem State.clock_nextId (n : Now) : (s.clock n).nextId = s.nextId := noteRate_nextId s _ _
@[simp] theorem State.clock_chains (n : Now) : (s.clock n).chains = s.chains := noteRate_chains s _ _
@[simp] theorem State.clock_copies (n : Now) : (s.clock n).copies = s.copies := noteRate_copies s _ _
@[simp] theorem State.clock_cross (n : Now) : (s.clock n).cross = s.cross := noteRate_cross s _ _
@[simp] theorem State.clock_mheld (n : Now) : (s.clock n).mheld = s.mheld := noteRate_mheld s _ _
@[simp] theorem State.clock_mdone (n : Now) : (s.clock n).mdone = s.mdone := noteRate_mdone s _ _
@[simp] theorem State.clock_learns (n : Now) : (s.clock n).learns = s.learns := noteRate_learns s _ _
@[simp] theorem State.clock_routes (n : Now) : (s.clock n).routes = s.routes := noteRate_routes s _ _
@[simp] theorem State.clock_bufs (n : Now) : (s.clock n).bufs = s.bufs := noteRate_bufs s _ _
@[simp] theorem State.clock_recircs (n : Now) : (s.clock n).recircs = s.recircs := noteRate_recircs s _ _
@[simp] theorem State.clock_rxs (n : Now) : (s.clock n).rxs = s.rxs := noteRate_rxs s _ _
@[simp] theorem State.clock_inputs (n : Now) : (s.clock n).inputs = s.inputs := noteRate_inputs s _ _
@[simp] theorem State.clock_units (n : Now) : (s.clock n).units = s.units := noteRate_units s _ _
@[simp] theorem State.clock_undo (n : Now) : (s.clock n).undo = s.undo := noteRate_undo s _ _
@[simp] theorem State.clock_plog (n : Now) : (s.clock n).plog = s.plog := noteRate_plog s _ _
@[simp] theorem State.clock_quotes (n : Now) : (s.clock n).quotes = s.quotes := noteRate_quotes s _ _
@[simp] theorem State.clock_outs (n : Now) : (s.clock n).outs = s.outs := noteRate_outs s _ _
@[simp] theorem State.clock_osc (n : Now) : (s.clock n).osc = max s.osc n.osc := rfl
@[simp] theorem State.commit_tb : (s.commit t).tb = t.tb := rfl
@[simp] theorem State.commit_freeCtr : (s.commit t).freeCtr = t.freeCtr := rfl
@[simp] theorem State.commit_store : (s.commit t).store = t.store := rfl
@[simp] theorem State.commit_dram : (s.commit t).dram = t.dram := rfl
@[simp] theorem State.commit_flash : (s.commit t).flash = t.flash := rfl
@[simp] theorem State.commit_stores : (s.commit t).stores = t.stores := rfl
@[simp] theorem State.commit_host : (s.commit t).host = t.host := rfl
@[simp] theorem State.commit_fifo : (s.commit t).fifo = t.fifo := rfl
@[simp] theorem State.commit_claims : (s.commit t).claims = t.claims := rfl
@[simp] theorem State.commit_restarts : (s.commit t).restarts = t.restarts := rfl
@[simp] theorem State.commit_image : (s.commit t).image = t.image := rfl
@[simp] theorem State.commit_nextId : (s.commit t).nextId = t.nextId := rfl
@[simp] theorem State.commit_chains : (s.commit t).chains = t.chains := rfl
@[simp] theorem State.commit_copies : (s.commit t).copies = t.copies := rfl
@[simp] theorem State.commit_cross : (s.commit t).cross = t.cross := rfl
@[simp] theorem State.commit_mheld : (s.commit t).mheld = t.mheld := rfl
@[simp] theorem State.commit_mdone : (s.commit t).mdone = t.mdone := rfl
@[simp] theorem State.commit_learns : (s.commit t).learns = t.learns := rfl
@[simp] theorem State.commit_routes : (s.commit t).routes = t.routes := rfl
@[simp] theorem State.commit_bufs : (s.commit t).bufs = t.bufs := rfl
@[simp] theorem State.commit_recircs : (s.commit t).recircs = t.recircs := rfl
@[simp] theorem State.commit_rxs : (s.commit t).rxs = t.rxs := rfl
@[simp] theorem State.commit_inputs : (s.commit t).inputs = t.inputs := rfl
@[simp] theorem State.commit_units : (s.commit t).units = t.units := rfl
@[simp] theorem State.commit_undo : (s.commit t).undo = t.undo := rfl
@[simp] theorem State.commit_plog : (s.commit t).plog = t.plog := rfl
@[simp] theorem State.commit_quotes : (s.commit t).quotes = t.quotes := rfl
@[simp] theorem State.commit_pending : (s.commit t).pending = s.pending := rfl
@[simp] theorem State.commit_safe : (s.commit t).safe = (s.safe || t.safe) := rfl
@[simp] theorem State.commit_osc : (s.commit t).osc = max s.osc t.osc := rfl

-- A read depends on the store alone

theorem State.get_of_store (h : t.store = s.store) : t.get f i j k = s.get f i j k := by
  unfold State.get; rw [h]

@[simp] theorem State.get_emit (o : Out) : (s.emit o).get f i j k = s.get f i j k := rfl
@[simp] theorem State.get_free : s.free.2.get f i j k = s.get f i j k := rfl
@[simp] theorem State.get_commit : (s.commit t).get f i j k = t.get f i j k := rfl
@[simp] theorem State.flag_emit (o : Out) : (s.emit o).flag f i j k = s.flag f i j k := rfl
@[simp] theorem State.flag_free : s.free.2.flag f i j k = s.flag f i j k := rfl
@[simp] theorem State.flag_commit : (s.commit t).flag f i j k = t.flag f i j k := rfl

-- Reading back

/-- A field takes its value, cut to its width. -/
@[simp] theorem State.get_put_same : (s.put f v i j k).get f i j k = Key.cut ⟨f, i, j, k⟩ v :=
  Store.get_set_same _ _ _

/-- A field of another name or index keeps its value. -/
theorem State.get_put_ne (h : ¬ (g = f ∧ a = i ∧ b = j ∧ c = k)) :
    (s.put f v i j k).get g a b c = s.get g a b c :=
  Store.get_set_other _ _ (by simpa [Key.mk.injEq] using h)

theorem State.get_put : (s.put f v i j k).get g a b c =
    if g = f ∧ a = i ∧ b = j ∧ c = k then Key.cut ⟨f, i, j, k⟩ v else s.get g a b c := by
  split
  · rename_i h; obtain ⟨rfl, rfl, rfl, rfl⟩ := h; exact State.get_put_same ..
  · rename_i h; exact State.get_put_ne _ _ _ _ _ _ _ _ _ _ h

/-- A field of another name keeps its value. -/
@[simp] theorem State.get_put_fld (h : g ≠ f) : (s.put f v i j k).get g a b c = s.get g a b c :=
  State.get_put_ne _ _ _ _ _ _ _ _ _ _ (fun e => h e.1)

theorem State.flag_eq : s.flag f i j k = (s.get f i j k != 0) := rfl
theorem State.putB_eq (b : Bool) : s.putB f b i j k = s.put f (if b then 1 else 0) i j k := rfl
theorem State.bump_eq : s.bump f i j k v = s.put f (s.get f i j k + v) i j k := rfl
theorem State.bumpSat_eq : s.bumpSat f i j k v = s.put f (min (s.get f i j k + v) (2 ^ f.width - 1)) i j k := rfl

/-- A cut value that fits is the value. -/
theorem Key.cut_fit (x : Key) (h : v < 2 ^ x.fld.width) : x.cut v = v := by
  unfold Key.cut; split
  · rfl
  · exact Nat.mod_eq_of_lt h

-- Conditional and repeated steps

@[simp] theorem State.when_true (h : State → State) : s.when true h = h s := rfl
@[simp] theorem State.when_false (h : State → State) : s.when false h = s := rfl
theorem State.when_eq (p : Bool) (h : State → State) : s.when p h = if p then h s else s := rfl
@[simp] theorem forEach_nil {α : Type} (h : α → State → State) : forEach [] h s = s := rfl
@[simp] theorem forEach_cons {α : Type} (x : α) (l : List α) (h : α → State → State) :
    forEach (x :: l) h s = forEach l h (h x s) := rfl

-- The form of every meaning

theorem State.run_live (h : State → State) (hl : s.live = true) : s.run h = .next (s.commit (h s.quiet)) := by
  simp [State.run, State.quiet, hl]

theorem State.runAt_live (n : Now) (h : State → State) (hl : s.live = true) :
    s.runAt n h = .next (s.commit (h (s.atNow n))) := by
  simp [State.runAt, State.run, State.atNow, State.quiet, hl]

@[simp] theorem State.get_quiet : s.quiet.get f i j k = s.get f i j k := rfl
@[simp] theorem State.flag_quiet : s.quiet.flag f i j k = s.flag f i j k := rfl
@[simp] theorem State.quiet_outs : s.quiet.outs = [] := rfl
@[simp] theorem State.quiet_pending : s.quiet.pending = s.pending := rfl
@[simp] theorem State.quiet_osc : s.quiet.osc = s.osc := rfl
@[simp] theorem State.quiet_tb : s.quiet.tb = s.tb := rfl
@[simp] theorem State.quiet_safe : s.quiet.safe = s.safe := rfl
@[simp] theorem State.quiet_freeCtr : s.quiet.freeCtr = s.freeCtr := rfl
@[simp] theorem State.quiet_store : s.quiet.store = s.store := rfl
@[simp] theorem State.quiet_dram : s.quiet.dram = s.dram := rfl
@[simp] theorem State.quiet_flash : s.quiet.flash = s.flash := rfl
@[simp] theorem State.quiet_stores : s.quiet.stores = s.stores := rfl
@[simp] theorem State.quiet_host : s.quiet.host = s.host := rfl
@[simp] theorem State.quiet_fifo : s.quiet.fifo = s.fifo := rfl
@[simp] theorem State.quiet_claims : s.quiet.claims = s.claims := rfl
@[simp] theorem State.quiet_restarts : s.quiet.restarts = s.restarts := rfl
@[simp] theorem State.quiet_image : s.quiet.image = s.image := rfl
@[simp] theorem State.quiet_nextId : s.quiet.nextId = s.nextId := rfl
@[simp] theorem State.quiet_chains : s.quiet.chains = s.chains := rfl
@[simp] theorem State.quiet_copies : s.quiet.copies = s.copies := rfl
@[simp] theorem State.quiet_cross : s.quiet.cross = s.cross := rfl
@[simp] theorem State.quiet_mheld : s.quiet.mheld = s.mheld := rfl
@[simp] theorem State.quiet_mdone : s.quiet.mdone = s.mdone := rfl
@[simp] theorem State.quiet_learns : s.quiet.learns = s.learns := rfl
@[simp] theorem State.quiet_routes : s.quiet.routes = s.routes := rfl
@[simp] theorem State.quiet_bufs : s.quiet.bufs = s.bufs := rfl
@[simp] theorem State.quiet_recircs : s.quiet.recircs = s.recircs := rfl
@[simp] theorem State.quiet_rxs : s.quiet.rxs = s.rxs := rfl
@[simp] theorem State.quiet_inputs : s.quiet.inputs = s.inputs := rfl
@[simp] theorem State.quiet_units : s.quiet.units = s.units := rfl
@[simp] theorem State.quiet_undo : s.quiet.undo = s.undo := rfl
@[simp] theorem State.quiet_plog : s.quiet.plog = s.plog := rfl
@[simp] theorem State.quiet_quotes : s.quiet.quotes = s.quotes := rfl

-- Invariants of a step over a list

/-- What every step of a list keeps, the list keeps. -/
theorem forEach_inv {α : Type} (P : State → Prop) (l : List α) (h : α → State → State)
    (hs : ∀ x ∈ l, ∀ u, P u → P (h x u)) : ∀ u, P u → P (forEach l h u) := by
  induction l with
  | nil => intro u hu; exact hu
  | cons x l ih =>
    intro u hu
    exact ih (fun y hy => hs y (List.mem_cons_of_mem _ hy)) _ (hs x (List.mem_cons_self ..) u hu)

/-- What a step keeps, it keeps under a condition. -/
theorem when_inv (P : State → Prop) (p : Bool) (h : State → State) (hs : ∀ u, P u → P (h u)) (u : State) (hu : P u) :
    P (u.when p h) := by
  unfold State.when; split
  · exact hs u hu
  · exact hu

end Sys2Proof.Machine
end

