-- ==== Sys2Proof/Laws/Frame.lean ====
section
/-!
SUPPORT. What the shared operations leave unchanged: the frame of a put, of a conditional and a repeated step, of every
operation of the event controller, and of a recorded occurrence.
-/

namespace Sys2Proof

open Machine

variable {B C : Key → Bool} {s t u : State}

theorem Frame.refl (B : Key → Bool) (s : State) : Frame B s s :=
  ⟨fun _ _ => rfl, ⟨rfl, rfl, rfl, rfl⟩, by simp [SameTraffic], rfl, ⟨rfl, rfl⟩, fun _ => ⟨rfl, rfl⟩⟩

theorem Frame.trans (h : Frame B s t) (g : Frame B t u) : Frame B s u := by
  refine ⟨fun k hk => (g.regs k hk).trans (h.regs k hk), ?_, ?_, g.safe.trans h.safe,
    ⟨g.clock.1.trans h.clock.1, g.clock.2.trans h.clock.2⟩,
    fun e => ⟨(g.events e).1.trans (h.events e).1, (g.events e).2.trans (h.events e).2⟩⟩
  · have a := h.bytes; have b := g.bytes
    unfold SameBytes at *; simp [a, b]
  · have a := h.traffic; have b := g.traffic
    unfold SameTraffic at *; simp [a, b]

theorem Frame.mono (h : Frame B s t) (hb : ∀ k, B k = true → C k = true) : Frame C s t := by
  have off : ∀ k, C k = false → B k = false := fun k hk => by
    cases e : B k with
    | false => rfl
    | true => simp [hb k e] at hk
  exact ⟨fun k hk => h.regs k (off k hk), h.bytes, h.traffic, h.safe, h.clock, fun e => h.events (off _ e)⟩

/-- A step that changes only what a frame leaves free. -/
theorem Frame.of_eq (hs : t.store = s.store) (hb : SameBytes s t) (ht : SameTraffic s t) (hf : t.safe = s.safe)
    (hc : t.osc = s.osc ∧ t.tb = s.tb) (he : t.fifo = s.fifo ∧ t.claims = s.claims) :
    Frame B s t := ⟨fun _ _ => by rw [hs], hb, ht, hf, hc, fun _ => he⟩

theorem Frame.emit (s : State) (o : Out) : Frame B s (s.emit o) :=
  Frame.of_eq rfl ⟨rfl, rfl, rfl, rfl⟩ (by simp [SameTraffic]) rfl ⟨rfl, rfl⟩ ⟨rfl, rfl⟩

theorem Frame.free (s : State) : Frame B s s.free.2 :=
  Frame.of_eq rfl ⟨rfl, rfl, rfl, rfl⟩ (by simp [SameTraffic]) rfl ⟨rfl, rfl⟩ ⟨rfl, rfl⟩

theorem Frame.quiet (s : State) : Frame B s s.quiet :=
  Frame.of_eq rfl ⟨rfl, rfl, rfl, rfl⟩ (by simp [SameTraffic]) rfl ⟨rfl, rfl⟩ ⟨rfl, rfl⟩

theorem Frame.commit (h : Frame B s t) : Frame B s (s.commit t) :=
  ⟨h.regs, h.bytes, h.traffic, by simp [h.safe], ⟨by simp [h.clock.1], h.clock.2⟩, h.events⟩

theorem Frame.put (s : State) (f : Fld) (v i j k : Nat) (h : B ⟨f, i, j, k⟩ = true) : Frame B s (s.put f v i j k) := by
  refine ⟨fun x hx => ?_, ⟨rfl, rfl, rfl, rfl⟩, by simp [SameTraffic], rfl, ⟨rfl, rfl⟩, fun _ => ⟨rfl, rfl⟩⟩
  refine Store.get_set_other _ _ (fun e => ?_)
  rw [e, h] at hx; exact Bool.noConfusion hx

theorem Frame.putB (s : State) (f : Fld) (b : Bool) (i j k : Nat) (h : B ⟨f, i, j, k⟩ = true) :
    Frame B s (s.putB f b i j k) := Frame.put s f _ i j k h

theorem Frame.bump (s : State) (f : Fld) (i j k n : Nat) (h : B ⟨f, i, j, k⟩ = true) :
    Frame B s (s.bump f i j k n) := Frame.put s f _ i j k h

theorem Frame.bumpSat (s : State) (f : Fld) (i j k n : Nat) (h : B ⟨f, i, j, k⟩ = true) :
    Frame B s (s.bumpSat f i j k n) := Frame.put s f _ i j k h

theorem Frame.when (p : Bool) (f : State → State) (h : p = true → Frame B s (f s)) : Frame B s (s.when p f) := by
  unfold State.when; split
  · rename_i e; exact h e
  · exact Frame.refl B s

theorem Frame.ite {c : Prop} [Decidable c] (h : Frame B s t) (g : Frame B s u) : Frame B s (if c then t else u) := by
  split
  · exact h
  · exact g

theorem Frame.forEach {α : Type} (l : List α) (f : α → State → State) (h : ∀ x ∈ l, ∀ v, Frame B v (f x v))
    (s : State) : Frame B s (forEach l f s) :=
  forEach_inv (fun v => Frame B s v) l f (fun x hx v hv => hv.trans (h x hx v)) s (Frame.refl B s)

/-- A change of the event FIFOs and the claims alone. -/
theorem Frame.fifo (s : State) (l : List FifoEntry) (c : List Claim) (h : B ⟨.evc .SRC_CFG_PENDING, 0, 0, 0⟩ = true) :
    Frame B s { s with fifo := l, claims := c } :=
  ⟨fun _ _ => rfl, ⟨rfl, rfl, rfl, rfl⟩, by simp [SameTraffic], rfl, ⟨rfl, rfl⟩, fun e => by rw [h] at e; exact Bool.noConfusion e⟩

-- The event controller

theorem evcKeys_evc (f : Evc) (i j k : Nat) : evcKeys ⟨.evc f, i, j, k⟩ = true := rfl
theorem evcKeys_pba (i j k : Nat) : evcKeys ⟨.hpt .PBA_WORD, i, j, k⟩ = true := rfl

theorem sendMsix_frame (n : Nat) (s : State) : Frame evcKeys s (sendMsix n s) := by
  unfold sendMsix; split
  · exact Frame.put _ _ _ _ _ _ rfl
  · exact Frame.emit _ _

theorem settleTarget_frame (t : Nat) (s : State) : Frame evcKeys s (settleTarget t s) := by
  unfold settleTarget
  dsimp only
  split
  · exact (Frame.putB _ _ _ _ _ _ rfl).trans (sendMsix_frame _ _)
  · exact Frame.putB _ _ _ _ _ _ rfl

theorem settle_frame (s : State) : Frame evcKeys s (settle s) :=
  (((settleTarget_frame 0 s).trans (settleTarget_frame 1 _)).trans (settleTarget_frame 2 _)).trans
    (settleTarget_frame 3 _)

theorem fifoWrite_frame (t data : Nat) (p : Bool) (s : State) : Frame evcKeys s (fifoWrite t data p s) := by
  unfold fifoWrite; split
  · exact (Frame.fifo s _ s.claims rfl).trans (Frame.put _ _ _ _ _ _ rfl)
  · exact (Frame.bump _ _ _ _ _ _ rfl).trans (Frame.put _ _ _ _ _ _ rfl)

theorem srcEntry_frame (n det : Nat) (s : State) : Frame evcKeys s (srcEntry n det s) :=
  Frame.when _ _ (fun _ => fifoWrite_frame _ _ _ _)

theorem srcPend_frame (n : Nat) (s : State) : Frame evcKeys s (srcPend n s) := by
  unfold srcPend; split
  · exact Frame.bump _ _ _ _ _ _ rfl
  · exact Frame.put _ _ _ _ _ _ rfl

theorem thrPulse_frame (b : State) (t : Nat) (s : State) : Frame evcKeys s (thrPulse b t s) := by
  unfold thrPulse; split
  · exact ((Frame.put _ _ _ _ _ _ rfl).trans (srcEntry_frame _ _ _)).trans (srcPend_frame _ _)
  · exact Frame.refl _ _

theorem thrAll_frame (b s : State) : Frame evcKeys s (thrAll b s) := by
  unfold thrAll
  refine (Frame.forEach _ _ (fun x _ v => thrPulse_frame _ _ _) s).trans
    (Frame.forEach _ _ (fun x _ v => Frame.ite (Frame.refl _ _) (thrPulse_frame _ _ _)) _)

theorem evPulse_frame (n det : Nat) (s : State) : Frame evcKeys s (evPulse n det s) := by
  unfold evPulse; split
  · exact Frame.refl _ _
  · exact (((srcEntry_frame _ _ _).trans (srcPend_frame _ _)).trans (thrAll_frame _ _)).trans (settle_frame _)

theorem evLevel_frame (n : Nat) (on : Bool) (det : Nat) (s : State) : Frame evcKeys s (evLevel n on det s) := by
  have h1 : Frame evcKeys s (s.putB (.evc .SRC_CFG_ASSERTED) on n) := Frame.putB _ _ _ _ _ _ rfl
  have h2 := Frame.ite (c := (on && !s.flag (.evc .SRC_CFG_ASSERTED) n) = true)
    ((h1.trans (srcEntry_frame n det _)).trans (thrAll_frame s _)) h1
  exact (Frame.ite (h2.trans (Frame.put _ _ _ _ _ _ rfl)) h2).trans (settle_frame _)

theorem levelRepend_frame (n : Nat) (s : State) : Frame evcKeys s (levelRepend n s) :=
  Frame.when _ _ (fun _ => Frame.put _ _ _ _ _ _ rfl)

theorem eventAssert_frame (n det : Nat) (l : Bool) (s : State) : Frame evcKeys s (eventAssert n det l s) := by
  unfold eventAssert; split
  · exact evLevel_frame _ _ _ _
  · exact evPulse_frame _ _ _

-- The clock and the handovers that come due

/-- What the clock and a handover may touch: the rates kept for a holdover, the slots, the banks that a slot switches, and the
slots' events (R47, R59, R61). -/
def tickKeys (k : Key) : Bool :=
  evcKeys k || (match k.fld with
    | .trs f => f == .xF_TB || f == .xF_OSC || f == .xTRIM || f == .xH_TB || f == .HO_CTRL_ARM || f == .HO_CTRL_FIRED ||
        f == .HO_CTRL_FIRE_COUNT
    | .cch _ | .qrc _ | .ref _ => k.k == 1
    | .shp _ | .prs _ => true
    | _ => false)

theorem evcKeys_tick {k : Key} (h : evcKeys k = true) : tickKeys k = true := by simp [tickKeys, h]

theorem SameRegs.put (B : Key → Bool) (s : State) (f : Fld) (v i j k : Nat) (h : B ⟨f, i, j, k⟩ = true) :
    SameRegs B s (s.put f v i j k) := (Frame.put s f v i j k h).regs

theorem SameRegs.trans (h : SameRegs B s t) (g : SameRegs B t u) : SameRegs B s u := fun k hk => (g k hk).trans (h k hk)

/-- The clock moves, and of the registers only the rates kept for a holdover (R47, R50). -/
theorem State.clock_regs (s : State) (n : Now) : SameRegs tickKeys s (s.clock n) := by
  show SameRegs tickKeys s (noteRate _ _ s)
  unfold noteRate
  split
  · split
    · exact (SameRegs.put _ _ _ _ _ _ _ rfl).trans (SameRegs.put _ _ _ _ _ _ _ rfl)
    · exact fun _ _ => rfl
  · split
    · exact (SameRegs.put _ _ _ _ _ _ _ rfl).trans (SameRegs.put _ _ _ _ _ _ _ rfl)
    · exact fun _ _ => rfl

theorem evPulse_tick (n det : Nat) (s : State) : Frame tickKeys s (evPulse n det s) :=
  (evPulse_frame n det s).mono (fun _ => evcKeys_tick)

theorem bankCopy_frame (f : Fld) (i j : Nat) (h : B ⟨f, i, j, 1⟩ = true) (s : State) : Frame B s (bankCopy f i j s) :=
  Frame.put s f _ i j 1 h

theorem setTokens_frame (d n : Nat) (v : Int) (s : State) : Frame tickKeys s (setTokens d n v s) :=
  (Frame.put _ _ _ _ _ _ rfl).trans (Frame.put _ _ _ _ _ _ rfl)

/-- A bucket's switch touches the bridle's keys alone (R270, R271). -/
theorem switchBucket_frame (d n : Nat) (s : State) : Frame tickKeys s (switchBucket d n s) := by
  have bank : ∀ f ∈ bktFields ++ tplFields, ∀ v : State, Frame tickKeys v (bankCopy f d n v) := by
    intro f hf v
    refine bankCopy_frame f d n ?_ v
    simp only [bktFields, tplFields, List.cons_append, List.nil_append, List.mem_cons, List.not_mem_nil, or_false] at hf
    obtain h | h | h | h | h | h | h | h | h | h | h | h | h | h | h := hf <;> subst h <;> rfl
  unfold switchBucket
  dsimp only
  refine Frame.trans ?_ (Frame.when _ _ (fun _ => Frame.put _ _ _ _ _ _ rfl))
  refine Frame.trans ?_ (Frame.when _ _ (fun _ =>
    ((setTokens_frame _ _ _ _).trans (Frame.put _ _ _ _ _ _ rfl)).trans (Frame.put _ _ _ _ _ _ rfl)))
  refine Frame.trans ?_ (Frame.when _ _ (fun _ =>
    (Frame.forEach _ _ (fun f hf v => bank f (List.mem_append_right _ hf) v) _).trans
      (Frame.forEach _ _ (fun w _ v => bankCopy_frame _ _ _ rfl v) _)))
  exact (Frame.when _ _ (fun _ => setTokens_frame _ _ _ _)).trans
    (Frame.forEach _ _ (fun f hf v => bank f (List.mem_append_left _ hf) v) _)

/-- The banked fields of a channel are registers of CCH, QRC and REF (R61). -/
theorem chanBankFields_tick : ∀ f ∈ chanBankFields, ∀ i : Nat, tickKeys ⟨f, i, 0, 1⟩ = true := by
  have h : chanBankFields.all (fun f => match f with
    | .cch _ | .qrc _ | .ref _ => true
    | _ => false) = true := by decide
  intro f hf i
  have hc := (List.all_eq_true.mp h) f hf
  cases f <;> simp_all [tickKeys]

theorem retireSlot_frame (d : Nat) (s : State) : Frame tickKeys s (retireSlot d s) := by
  unfold retireSlot; split
  · exact (Frame.put _ _ _ _ _ _ rfl).trans (evPulse_tick _ _ _)
  · exact Frame.refl _ _

theorem publishNow_frame (d : Nat) (s : State) : Frame tickKeys s (publishNow d s) := by
  unfold publishNow
  dsimp only
  refine Frame.trans ?_ (evPulse_tick _ _ _)
  refine Frame.trans ((Frame.put _ _ _ _ _ _ rfl).trans (Frame.put _ _ _ _ _ _ rfl)) (Frame.ite (Frame.put _ _ _ _ _ _ rfl) ?_)
  exact (((retireSlot_frame _ _).trans (Frame.put _ _ _ _ _ _ rfl)).trans (Frame.bump _ _ _ _ _ _ rfl)).trans
    (Frame.put _ _ _ _ _ _ rfl)

theorem sendDigests_frame (n : Nat) (s : State) : Frame tickKeys s (sendDigests n s) := by
  refine Frame.forEach _ _ (fun g _ v => ?_) s
  split
  · exact Frame.when _ _ (fun _ => Frame.emit _ _)
  · exact Frame.refl _ _

theorem switchChans_frame (l : List Nat) (s : State) : Frame tickKeys s (forEach l switchChan s) :=
  Frame.forEach _ _ (fun ch _ v => Frame.forEach _ _ (fun f hf w =>
    bankCopy_frame f ch 0 (chanBankFields_tick f hf ch) w) v) s

theorem fireBuckets_frame (n : Nat) (s : State) : Frame tickKeys s (fireBuckets n s) :=
  Frame.forEach _ _ (fun d _ v => Frame.when _ _ (fun _ => Frame.forEach _ _ (fun m _ w => switchBucket_frame d m w) v)) s

theorem firePublish_frame (n : Nat) (s : State) : Frame tickKeys s (firePublish n s) :=
  Frame.forEach _ _ (fun d _ v => Frame.when _ _ (fun _ => publishNow_frame d v)) s

/-- A slot that fires touches its own fields, the banks, the publications and its event (R61). -/
theorem fireSlot_frame (n : Nat) (s : State) : Frame tickKeys s (fireSlot n s) := by
  have hb : Frame tickKeys s (if n < 15 then firePublish n (fireBuckets n (sendDigests n
      (forEach (s.chansAt n) switchChan s))) else s) :=
    Frame.ite ((((switchChans_frame _ s).trans (sendDigests_frame n _)).trans (fireBuckets_frame n _)).trans
      (firePublish_frame n _)) (Frame.refl _ _)
  exact (((hb.trans (Frame.put _ _ _ _ _ _ rfl)).trans (Frame.put _ _ _ _ _ _ rfl)).trans
    (Frame.bump _ _ _ _ _ _ rfl)).trans (evPulse_tick _ _ _)

theorem fireDue_frame (s : State) : Frame tickKeys s (fireDue s) := by
  refine Frame.forEach _ _ (fun _ _ v => ?_) s
  split
  · exact fireSlot_frame _ _
  · exact Frame.refl _ _

/-- The move of the clock to a command's moment, with the handovers that come due, touches those keys alone (R59). -/
theorem State.atNow_regs (s : State) (n : Now) : SameRegs tickKeys s (s.atNow n) :=
  (State.clock_regs s.quiet n).trans (fireDue_frame _).regs

/-- With no armed slot reached, the clock alone moves. -/
theorem fireDue_none (s : State) (h : s.nextHandover = none) : fireDue s = s := by
  unfold fireDue
  refine forEach_inv (fun u => u = s) _ _ (fun x _ u hu => ?_) s rfl
  subst hu; simp [h]

theorem State.tick_none (s : State) (n : Now) (h : (s.clock n).nextHandover = none) : s.tick n = s.clock n :=
  fireDue_none _ h

-- What an event and a handover leave of the rest of the state

/-- Only registers, event FIFOs and what is sent differ: the queue, the clock, the free values, the claims, the memories and the
traffic are the same. -/
def Kept (s t : State) : Prop := ∃ st ff os, t = { s with store := st, fifo := ff, outs := os }

theorem Kept.refl (s : State) : Kept s s := ⟨s.store, s.fifo, s.outs, rfl⟩

theorem Kept.trans (h : Kept s t) (g : Kept t u) : Kept s u := by
  obtain ⟨a, b, c, rfl⟩ := h; obtain ⟨x, y, z, rfl⟩ := g; exact ⟨x, y, z, rfl⟩

theorem Kept.put (s : State) (f : Fld) (v i j k : Nat) : Kept s (s.put f v i j k) := ⟨_, s.fifo, s.outs, rfl⟩
theorem Kept.emit (s : State) (o : Out) : Kept s (s.emit o) := ⟨s.store, s.fifo, _, rfl⟩

theorem Kept.when (p : Bool) (f : State → State) (h : Kept s (f s)) : Kept s (s.when p f) := by
  unfold State.when; split
  · exact h
  · exact Kept.refl s

theorem Kept.ite {c : Prop} [Decidable c] (h : Kept s t) (g : Kept s u) : Kept s (if c then t else u) := by
  split
  · exact h
  · exact g

theorem Kept.forEach {α : Type} (l : List α) (f : α → State → State) (h : ∀ x v, Kept v (f x v)) (s : State) :
    Kept s (forEach l f s) :=
  forEach_inv (fun v => Kept s v) l f (fun x _ v hv => hv.trans (h x v)) s (Kept.refl s)

theorem sendMsix_kept (n : Nat) (s : State) : Kept s (sendMsix n s) := Kept.ite (Kept.put _ _ _ _ _ _) (Kept.emit _ _)

theorem settleTarget_kept (t : Nat) (s : State) : Kept s (settleTarget t s) := by
  unfold settleTarget
  dsimp only
  exact Kept.ite ((Kept.put s _ _ _ _ _).trans (sendMsix_kept _ _)) (Kept.put s _ _ _ _ _)

theorem settle_kept (s : State) : Kept s (settle s) :=
  (((settleTarget_kept 0 s).trans (settleTarget_kept 1 _)).trans (settleTarget_kept 2 _)).trans (settleTarget_kept 3 _)

theorem fifoWrite_kept (t data : Nat) (p : Bool) (s : State) : Kept s (fifoWrite t data p s) := by
  unfold fifoWrite; split
  · exact Kept.trans (t := { s with fifo := s.fifo ++ [⟨t, data % 2 ^ 24, p, s.flag (.evc .FIFO_STAT_LOST_PEND) t⟩] })
      ⟨s.store, _, s.outs, rfl⟩ (Kept.put _ _ _ _ _ _)
  · exact (Kept.put _ _ _ _ _ _).trans (Kept.put _ _ _ _ _ _)

theorem srcEntry_kept (n det : Nat) (s : State) : Kept s (srcEntry n det s) := Kept.when _ _ (fifoWrite_kept _ _ _ _)

theorem srcPend_kept (n : Nat) (s : State) : Kept s (srcPend n s) := Kept.ite (Kept.put _ _ _ _ _ _) (Kept.put _ _ _ _ _ _)

theorem thrPulse_kept (b : State) (t : Nat) (s : State) : Kept s (thrPulse b t s) :=
  Kept.ite (((Kept.put _ _ _ _ _ _).trans (srcEntry_kept _ _ _)).trans (srcPend_kept _ _)) (Kept.refl s)

theorem thrAll_kept (b s : State) : Kept s (thrAll b s) :=
  (Kept.forEach _ _ (fun _ _ => thrPulse_kept _ _ _) s).trans
    (Kept.forEach _ _ (fun _ _ => Kept.ite (Kept.refl _) (thrPulse_kept _ _ _)) _)

theorem evPulse_kept (n det : Nat) (s : State) : Kept s (evPulse n det s) :=
  Kept.ite (Kept.refl s) ((((srcEntry_kept _ _ _).trans (srcPend_kept _ _)).trans (thrAll_kept _ _)).trans (settle_kept _))

theorem setTokens_kept (d n : Nat) (v : Int) (s : State) : Kept s (setTokens d n v s) :=
  (Kept.put _ _ _ _ _ _).trans (Kept.put _ _ _ _ _ _)

theorem switchBucket_kept (d n : Nat) (s : State) : Kept s (switchBucket d n s) := by
  unfold switchBucket
  dsimp only
  refine Kept.trans ?_ (Kept.when _ _ (Kept.put _ _ _ _ _ _))
  refine Kept.trans ?_ (Kept.when _ _ (((setTokens_kept _ _ _ _).trans (Kept.put _ _ _ _ _ _)).trans (Kept.put _ _ _ _ _ _)))
  refine Kept.trans ?_ (Kept.when _ _ ((Kept.forEach _ _ (fun _ _ => Kept.put _ _ _ _ _ _) _).trans
    (Kept.forEach _ _ (fun _ _ => Kept.put _ _ _ _ _ _) _)))
  exact (Kept.when _ _ (setTokens_kept _ _ _ _)).trans (Kept.forEach _ _ (fun _ _ => Kept.put _ _ _ _ _ _) _)

theorem publishNow_kept (d : Nat) (s : State) : Kept s (publishNow d s) := by
  have hr : ∀ v, Kept v (retireSlot d v) := fun v => Kept.ite ((Kept.put _ _ _ _ _ _).trans (evPulse_kept _ _ _)) (Kept.refl v)
  unfold publishNow
  dsimp only
  refine Kept.trans ?_ (evPulse_kept _ _ _)
  refine Kept.trans ((Kept.put _ _ _ _ _ _).trans (Kept.put _ _ _ _ _ _)) (Kept.ite (Kept.put _ _ _ _ _ _) ?_)
  exact (((hr _).trans (Kept.put _ _ _ _ _ _)).trans (Kept.put _ _ _ _ _ _)).trans (Kept.put _ _ _ _ _ _)

theorem switchChans_kept (l : List Nat) (s : State) : Kept s (forEach l switchChan s) :=
  Kept.forEach _ _ (fun _ v => Kept.forEach _ _ (fun _ _ => Kept.put _ _ _ _ _ _) v) s

theorem sendDigests_kept (n : Nat) (s : State) : Kept s (sendDigests n s) := by
  refine Kept.forEach _ _ (fun g v => ?_) s
  split
  · exact Kept.when _ _ (Kept.emit _ _)
  · exact Kept.refl v

theorem fireBuckets_kept (n : Nat) (s : State) : Kept s (fireBuckets n s) :=
  Kept.forEach _ _ (fun d v => Kept.when _ _ (Kept.forEach _ _ (fun m w => switchBucket_kept d m w) v)) s

theorem firePublish_kept (n : Nat) (s : State) : Kept s (firePublish n s) :=
  Kept.forEach _ _ (fun d v => Kept.when _ _ (publishNow_kept d v)) s

theorem fireSlot_kept (n : Nat) (s : State) : Kept s (fireSlot n s) := by
  have hb : Kept s (if n < 15 then firePublish n (fireBuckets n (sendDigests n (forEach (s.chansAt n) switchChan s))) else s) :=
    Kept.ite ((((switchChans_kept _ s).trans (sendDigests_kept n _)).trans (fireBuckets_kept n _)).trans
      (firePublish_kept n _)) (Kept.refl s)
  exact (((hb.trans (Kept.put _ _ _ _ _ _)).trans (Kept.put _ _ _ _ _ _)).trans (Kept.put _ _ _ _ _ _)).trans (evPulse_kept _ _ _)

/-- A handover that comes due leaves everything but registers, event FIFOs and what is sent as it was. -/
theorem fireDue_kept (s : State) : Kept s (fireDue s) := by
  refine Kept.forEach _ _ (fun _ v => ?_) s
  split
  · exact fireSlot_kept _ _
  · exact Kept.refl v

theorem State.tick_kept (s : State) (n : Now) : Kept (s.clock n) (s.tick n) := fireDue_kept _

-- The collector

theorem evcKeys_flt {k : Key} (h : evcKeys k = true) : fltKeys k = true := by simp [fltKeys, h]

theorem writeRec_frame (f : Flt) (i : Nat) (ws : List Nat) (s : State) :
    Frame fltKeys s (writeRec (.flt f) i ws s) :=
  Frame.forEach _ _ (fun _ _ _ => Frame.put _ _ _ _ _ _ rfl) s

/-- A recorded occurrence touches the collector and its event alone (R462). -/
theorem record_frame (o : Occ) (wire inj : Bool) (s : State) : Frame fltKeys s (record o wire inj s) := by
  unfold record
  split
  · exact Frame.refl _ _
  · dsimp only
    have ev : ∀ n d v, Frame fltKeys v (evPulse n d v) := fun n d v => (evPulse_frame n d v).mono (fun _ => evcKeys_flt)
    have h0 : ∀ c, Frame fltKeys s (s.bump (.flt .CNT) c) := fun c => Frame.bump s (.flt .CNT) c 0 0 1 rfl
    split
    · exact (((h0 _).trans (Frame.put _ _ _ _ _ _ rfl)).trans (Frame.put _ _ _ _ _ _ rfl)).trans (ev _ _ _)
    · refine Frame.trans ?_ (ev _ _ _)
      refine Frame.trans ?_ (Frame.bump _ _ _ _ _ _ rfl)
      refine Frame.trans ?_ (Frame.put _ _ _ _ _ _ rfl)
      refine Frame.trans ?_ (Frame.when _ _ (fun _ => writeRec_frame _ _ _ _))
      exact ((h0 _).trans (Frame.free _)).trans (writeRec_frame _ _ _ _)

/-- An occurrence of class 0 to 2 is recorded and nothing more (R459, R474). -/
theorem raise_minor {code : Nat} (c : Nat) (hc : faultClass code = some c) (h : c < 3) (die loc det : Nat) (s : State) :
    raise code die loc det s = record ⟨code, die, loc, det⟩ false false s := by
  have e3 : c ≠ 3 := by omega
  have e4 : c ≠ 4 := by omega
  have hr : restartDie ⟨code, die, loc, det⟩ = none := by simp [restartDie, hc, e3]
  have ha : asHeld s ⟨code, die, loc, det⟩ = ⟨code, die, loc, det⟩ := by simp [asHeld, hr]
  simp [raise, raiseAll, occSort, occInsert, hc, e4, ha, hr]

theorem raise_minor_frame {code : Nat} (c : Nat) (hc : faultClass code = some c) (h : c < 3) (die loc det : Nat) (s : State) :
    Frame fltKeys s (raise code die loc det s) := by
  rw [raise_minor c hc h]; exact record_frame _ _ _ _

end Sys2Proof
end

