-- ==== Sys2Proof/Laws/Exec.lean ====
section
/-!
SUPPORT. The form that every meaning has: a command that does not act on the supply or on RESET_N is one effect inside
`State.run`, which keeps the queue, the safe state and the clock.
-/

namespace Sys2Proof

open Machine

/-- Every command but those of the supply and RESET_N has its effect inside `State.run`. -/
theorem exec_run (i : Instr) (hp : i.powers = false) (s : State) : ∃ f, exec i s = s.run f := by
  cases i <;> simp only [Instr.powers, Bool.true_eq_false] at hp <;> simp only [exec,
    execCaseLoHoldEnd, execDramTrained, execStartupChannelStart, execPcieConfigRequest, execVinDip, execBrownOut, 
    execVinOvervoltage, execRailOutOfWindow, execPwrHeartbeatTimeout, execThermalSample, execSafeReq, 
    execCollectorSelfTest, execFaultLands, execCollector, execTimeIntegrity, execWireBreak, execFaultOccurrence, 
    execDieUp, execRestartChannelResume, execFailoverStart, execSwRestart, execFaultInject, execSyncReceived, 
    execAnnounceReceived, execDelayReqSend, execSyncReceiptTimeout, execAnnounceReceiptTimeout, execHoldoverTimeout, 
    execFirstLockTimeout, execRealign, execPpsInEdge, execPpsOut, execArm, execDisarm, execHandoverFire, 
    execCchStart, execChannelStart, execCchStop, execMoveDie, execDieMove, execHandover, execHandoverOffer, 
    execHandoverReply, execHandoverPicture, execTetherHoTimeout, execTileDigest, execPictureBoundary, execDropLt, 
    execRowReady, execStripeSlotStart, execShadowCheck, execReexecDone, execSpareTakeover, execFailsWindowExpiry, 
    execRetire, execUnitStallTimeout, execClusterStallTimeout, execStripeWithheld, execRasterRelease, 
    execSt2110Release, execDecodeDeadline, execRefreshHoldoffEnd, execDecodeStripeDone, execRefreshRequestReceived, 
    execModelUpdate, execFrameReceive, execRecircPass, execXdieCopyReceive, execMergeWindowExpiry, 
    execPipeStallTimeout, execNodeLineRefetch, execNodeRead, execNodeWrite, execPublish, execRulesetSlotRetire, 
    execPortModeChange, execMergePairWrite, execLinkChange, execRtRead, execRtInsert, execRtDelete, execRtSearch, 
    execFlRead, execFlWrite, execFlInsert, execFlDelete, execFlSearch, execBrRead, execBrWrite, execBrInsert, 
    execBrDelete, execBrSearch, execBrFlush, execTableCmdUnsupported, execTableCmdComplete, execTableCmdTimeout, 
    execLearnInsert, execAgePeriodExpiry, execAgingSweep, execAgingSweepEnd, execTableLineRefetch, 
    execTrieLineRebuild, execBktApply, execTemplateRead, execTemplateWrite, execTemplateRefetch, 
    execShapedFrameStart, execInterfaceFrameBoundary, execSeqMirrorUpdate, execHostAlloc, execHostFree, 
    execReserveWrite, execDramRead, execDramWrite, execForceErase, execScrubCredit, execRefreshInterval, 
    execRefreshCatchup, execMr4Read, execDriftRetrain, execDriftRetrainDone, execXbarGrantTimeout, execAgeCapHit, 
    execRepairMapAppend, execDmaPost, execDmaNop, execDmaCopy, execDmaReshIn, execDmaReshOut, execDmaDeint, 
    execDmaInter, execDmaFill, execDmaCompare, execDmaCheck, execDmaRecv, execDmaSend, execDmaOpReserved, 
    execDescComplete, execDmaDescTimeout, execPcieCplTimeout, execDmaResume, execDmaReset, execChkData, 
    execChkDataB, execChkFold, execChkStart, execChkFinish, execChkFinishEffect, execChkContextWrite, 
    execEventAssert, execMsixUnmask, execEvcClaim, execEvcComplete, execClaimTimeout, execEvcFifoPop, 
    execEvcFifoPush, execEvcSwSet, execEvcSwClr, execEvcSrcCfgWrite, execEvcTgtCtrlWrite, execOstAdd, execOstSub, 
    execOstAnd, execOstOr, execOstXor, execOstShl, execOstShr, execOstSar, execOstMin, execOstMax, execOstMov, 
    execOstLdlc, execOstCrc32c, execOstLoad, execOstStore, execOstRdreg, execOstWrreg, execOstPop, execOstPush, 
    execOstLimm, execOstCont, execOstJmp, execOstBrt, execOstBrf, execOstCall, execOstRet, execOstYield, execOstEnd, 
    execShedClear, execOstlerWatchdog, execRegisterWrite, execCounterLoRead, execStirrupTake, execStirrupRelease, 
    execStirrupForce, execLease, execHirSel, execPortReset, execQuoteGo, execQuoteComplete, execTetherQuoteRequest, 
    execFwuOpen, execFwuClose, execFwuSubmit, execBlockChecked, execSlotReadback, execFlashOpTimeout, 
    execXferTimeout, execFwuActivate, execPreparationEnd, execOstlerQuiesce, execBundleSwitch, execTrialConfirm, 
    execFwuRevert, execActTimeout, execFarrierTimeout, execTetherRecoveryBlock, execWinter, execWinterQuiesce, 
    execWinterDrained, execSpring, execSpringComplete, execClusterGate, execAutumnEnWrite, execTetherLinkUp, 
    execTetherKeepaliveTimeout, execLinkCreditTimeout, execLinkRetrainRetry, execFollowUpReceived, 
    execDelayRespReceived, execRef10InChange, execPlaneDown, execOstlerOverload, execStoreReloadDone, execVinLowEnd, 
    execLinkRetrainDone, execHostLinkUp, tableCmd, dmaOp, State.runAt] <;> exact ⟨_, rfl⟩

end Sys2Proof
end

