-- ==== Sys2Proof/Tests/Slice0.lean ====
section
/-!
SUPPORT. Tests: for every statement a state and operands that meet its hypotheses, clause by clause, on small states; the
well-formedness of commands; and a few single steps whose expected result the spec gives.
-/

namespace Sys2Proof.Tests

open Machine

set_option Elab.async false

/-- A module that is up: both dies run, start-up has ended and both host ports have negotiated. -/
def tUp : State :=
  (((State.reset.put (.mid .BOOT_STEP) 9).put (.mid .STATUS_DIE_UP) 3).put (.hpt .PORT_STATUS_HIR_OK) 1 0).put
    (.hpt .PORT_STATUS_HIR_OK) 1 1

/-- A moment: two milliseconds of the local oscillator, and ten seconds of the time base. -/
def tNow : Now := ⟨3000000, 10000000000 * 65536⟩

/-- The same with the time base in a state. -/
def tTb (st : Nat) : State := { tUp.put (.trs .STATUS_STATE) st with tb := 10000000000 * 65536 }

/-- The same, LOCKED, with domain 0 at 1125 lines and 60 Hz. -/
def tDom : State :=
  ((((tTb tbLOCKED).put (.trs .DOM_FMT_TOTAL_LINES) 1125).put (.trs .DOM_FMT_ACTIVE_LINES) 1080).put
    (.trs .DOM_RATE_NUM) 60000).put (.trs .DOM_FMT_ENABLE) 1

/-- The time base LOCKED, with domain 0 at 100 lines, 16 of them active, and 24 Hz. -/
def tSmall : State :=
  ((((tTb tbLOCKED).put (.trs .DOM_FMT_TOTAL_LINES) 100).put (.trs .DOM_FMT_ACTIVE_LINES) 16).put
    (.trs .DOM_RATE_NUM) 24000).put (.trs .DOM_FMT_ENABLE) 1

/-- The same, with the units of the first cluster of each die FREE, and channel 0 set to a kind of work on pictures of 16 by
16 samples, 4:4:4. -/
def tChan (kind : Nat) : State :=
  let s := [0, 1, 2, 3, 4, 80, 81, 82, 83, 84].foldl (fun s u => s.put (.cus .UNIT_STATE) 1 u) tSmall
  let s := [0, 16].foldl (fun s c => (s.put (.cus .CLUSTER_LINEBUF_OK) 1 c).put (.cus .CLUSTER_SHADOW_OK) 1 c) s
  (((s.put (.cch .FMT_WORK) kind 0 0 1).put (.cch .FMT_WIDTH) 16 0 0 1).put (.cch .FMT_CHROMA) 1 0 0 1).put
    (.qrc .CAP_CAP_KBPS) 1000000 0 0 1

/-- The state after a command that completes. -/
def after (i : Instr) (s : State) : State :=
  match exec i s with
  | .next t => t
  | _ => s

/-- Channel 0 waits for the boundary that `tNow` is. -/
def tWait (kind : Nat) : State := (tChan kind).put (.cch .STATUS_STATE) chWAITING 0

/-- Channel 0 runs on unit 0 and has opened its first picture, picture 240 of domain 0; one that encodes has a slab. -/
def tRun (kind : Nat) : State :=
  let s := [0, 1, 18].foldl (fun s k => ((s.put (.cch .xL_N) 1 0 0 k).put (.cch .xL_G) 1 0 0 k).put (.cch .xL_UNIT) 0 0 0 k)
    (tChan kind)
  let s := (((((s.put (.cch .FMT_WORK) kind 0 0 18).put (.cch .FMT_WIDTH) 16 0 0 18).put (.cch .FMT_CHROMA) 1 0 0 18).put
    (.qrc .CAP_CAP_KBPS) 1000000 0 0 18).put (.cch .xSNAP) 241 0 0 18).put (.cch .xBANK) 18
  let s := ((((((s.put (.cch .STATUS_STATE) chRUNNING).put (.cch .STATUS_COST) 1).put (.cch .UNIT_UNIT) 0).put
    (.cus .UNIT_STATE) 2).put (.cch .xDONE) 240).put (.cch .xPIC) 241).put (.cch .xSTART_PIC) 240
  let s := s.put (.pdk .OWN_RSV_RSV) 5
  let s := if kind = 0 then { s.put (.qrc .xSLAB) 65537 with bufs := [⟨0, 1, 0, 0⟩] } else s
  s.tick tNow

/-- Half of row 0 of the same picture later: a picture of 100 lines at 24 Hz. -/
def tNext : Now := ⟨3000000 + 60000000, 10041667000 * 65536⟩

/-- 44 lines further on, past the channel's offset of 42 lines. -/
def tLater : Now := ⟨3000000 + 90000000, 10060000000 * 65536⟩

/-- A chain of one frame of die 1, and a copy that has crossed to die 1. -/
def tFrame (id cells : Nat) (l : List Byte) : Chain := ⟨id, 1, 48, 1, cells, l, 15, 0, 0, [], false, noMeta⟩
def tCross (l : List Byte) : Cross :=
  ⟨1, none, 0, 0, l, 15, 0, 0, [], false, noMeta, false, false, 0, 0, 0, 0, 0, false, 0, 0, 0⟩

/-- Queue 31 of die 1, of host port HB, enabled in a mode, with one descriptor posted in a ring at 0x10000 of its host
memory. -/
def tQueue (mode : Nat) (desc : List Byte) : State :=
  { ((((tUp.put (.dma .Q_CFG_EN) 1 1 31).put (.dma .Q_CFG_OWNER) 1 1 31).put (.dma .Q_CFG_MODE) mode 1 31).put
      (.dma .Q_RING_LO_BASE_LO) 0x400 1 31).put (.dma .Q_TAIL_TAIL) 1 1 31 with
    host := (Mem.empty 0).write (2 ^ 64 + 0x10000) desc }

/-- A descriptor from its words. -/
def tDesc (w0 w1 w2 w3 w4 w5 : Nat) : List Byte :=
  leBytes 8 w0 ++ leBytes 8 w1 ++ leBytes 8 w2 ++ leBytes 8 w3 ++ leBytes 8 w4 ++ leBytes 8 w5

/-- What PCI Express answers where nothing fails. -/
def tEnv : DmaEnv := ⟨false, [], true⟩

/-- One command of each kind that is a register write. -/
def gatedCmds : List Instr :=
  [.cchStart .ha 0 3 1, .cchStop .ha 1 3 1, .moveDie .ha 0 3 1, .handover .ha 0 3 1, .dropLt .ha 0 3 1, .retire .ha 3 1,
  .nodeRead .ha 0 1, .nodeWrite .ha 0 1, .publish .ha 0 1, .portModeChange .ha 0 1 1, .mergePairWrite .ha 0 1 1,
  .rtRead .ha 0 1, .rtInsert .ha 0 1, .rtDelete .ha 0 1, .rtSearch .ha 0 1, .flRead .ha 0 1, .flWrite .ha 0 1, .flInsert .ha 0 1,
  .flDelete .ha 0 1, .flSearch .ha 0 1, .brRead .ha 0 1, .brWrite .ha 0 1, .brInsert .ha 0 1, .brDelete .ha 0 1, .brSearch .ha 0 1,
  .brFlush .ha 0 1, .bktApply .ha 0 3 1, .templateRead .ha 0 1, .templateWrite .ha 0 1, .hostAlloc .ha 0 0 1 [], .hostFree .ha 0 0 1,
  .reserveWrite .ha 0 50 none 1, .forceErase .ha 5 1, .dmaPost .ha 0 3 1, .dmaResume .ha 0 3 1, .dmaReset .ha 0 3 1,
  .chkData .ha 0 3 1, .chkDataB .ha 0 3 1, .chkFold .ha 0 3 1, .chkStart .ha 0 3 1, .chkFinish .ha 0 3 1, .chkContextWrite .ha 0 3 .val 1,
  .evcComplete .ha 0 1, .evcFifoPush .ha 0 1, .evcSwSet .ha 928, .evcSwClr .ha 928, .evcSrcCfgWrite .ha 3 1, .evcTgtCtrlWrite .ha 0 1,
  .swRestart .ha 0, .faultInject .ha 1, .realign .ha 1, .arm .ha 3 1, .disarm .ha 3 1, .stirrupRelease .ha 3 1, .stirrupForce .ha 3 1,
  .hirSel .ha 0 1, .quoteGo .ha 0 1, .fwuOpen .ha 1, .fwuClose .ha 1, .fwuSubmit .ha 1, .fwuActivate .ha 1, .fwuRevert .ha 1,
  .winter .ha 1, .spring .ha 1, .autumnEnWrite .ha 1, .registerWrite .ha 0x30004 1 15 1]

/-- Bytes stand in host port HB's memory. -/
def tHost (a : Nat) (l : List Byte) (s : State) : State := { s with host := s.host.write (2 ^ 64 + a) l }
/-- The head of a boot area whose directory gives the two slots these states. -/
@[irreducible] def tDirHead (a b : Nat) : List Byte :=
  beBytes 4 0x45544452 ++ beBytes 2 1 ++ [0, 0] ++ beBytes 4 6 ++ [0, BitVec.ofNat 8 a, BitVec.ofNat 8 b] ++ List.replicate 4077 0

/-- A boot area with that head and its CRC, and an empty repair map. -/
@[irreducible] def tBootBytes (a b crc : Nat) : List Byte :=
  tDirHead a b ++ beBytes 4 crc ++
    (beBytes 4 0x4554524D ++ beBytes 4 0 ++ beBytes 4 (crc32c (beBytes 4 0x4554524D ++ beBytes 4 0)) ++ List.replicate 32756 0xFF)

/-- That boot area in flash, as copy 0. -/
def tBoot (a b crc : Nat) (s : State) : State := { s with flash := s.flash.write 0 (tBootBytes a b crc) }

theorem tBe_length (n v : Nat) : (beBytes n v).length = n := by
  induction n with
  | zero => rfl
  | succ n ih => rw [beBytes, List.length_cons, ih]

theorem tDirHead_length (a b : Nat) : (tDirHead a b).length = 4092 := by
  unfold tDirHead
  simp only [List.length_append, tBe_length, List.length_replicate, List.length_cons, List.length_nil]

theorem tBootBytes_length (a b crc : Nat) : (tBootBytes a b crc).length = 36864 := by
  unfold tBootBytes
  simp only [List.length_append, tDirHead_length, tBe_length, List.length_replicate]

theorem tBoot_head (a b crc : Nat) : (((tBootBytes a b crc).drop 0).take 4096).take 4092 = tDirHead a b := by
  unfold tBootBytes
  rw [List.drop_zero, List.take_take, List.append_assoc]
  exact List.take_left' (tDirHead_length a b)

theorem tBoot_read (a b crc i n : Nat) (s : State) (h : i + n ≤ 36864) :
    (tBoot a b crc s).flashAt i n = ((tBootBytes a b crc).drop i).take n := by
  have := Mem.read_write_inside s.flash 0 i n (tBootBytes a b crc) (by rw [tBootBytes_length]; exact h)
  rwa [Nat.zero_add] at this

/-- The directory that the bytes of a boot area spell, where they are valid and its CRC is this. -/
def tDirOf (crc : Nat) (l : List Byte) : Option Dir :=
  let d := (l.drop (bootBase 0)).take 4096
  let m := (l.drop (bootBase 0 + 4096)).take 32768
  let n := beAt m 4 2
  if beAt d 0 4 == 0x45544452 && beAt d 4 2 == 1 && beAt d 4092 4 == crc && beAt m 0 4 == 0x4554524D &&
      decide (n ≤ 4094) && beAt m 8 4 == crc32c (m.take 8 ++ slice m 16 (8 * n)) then
    let d := (l.drop (bootBase 0)).take 16
    some ⟨beAt d 8 4, byteAt d 12, byteAt d 13, byteAt d 14⟩
  else none

theorem tBoot_valid (a b crc : Nat) (s : State) (hc : crc32c (tDirHead a b) = crc)
    (hx : (tDirOf crc (tBootBytes a b crc)).isSome = true) : (tBoot a b crc s).bootValid 0 = true := by
  have f1 := tBoot_read a b crc (bootBase 0) 4096 s (by decide)
  have f2 := tBoot_read a b crc (bootBase 0 + 4096) 32768 s (by decide)
  have e : (((tBootBytes a b crc).drop (bootBase 0)).take 4096).take 4092 = tDirHead a b := tBoot_head a b crc
  unfold State.bootValid
  rw [f1, f2]
  simp only [e, hc]
  unfold tDirOf at hx
  simp only at hx
  split at hx
  · assumption
  · cases hx

theorem tFlash_get (m : Mem 0xFF) (s : State) (f : Fld) : ({ s with flash := m } : State).get f = s.get f := rfl

theorem tBoot_dir (a b crc : Nat) (s : State) (x : Dir) (h : s.get (.mid .BOOT_BOOT_COPY) = 0)
    (hc : crc32c (tDirHead a b) = crc) (hx : tDirOf crc (tBootBytes a b crc) = some x) : (tBoot a b crc s).dir = x := by
  have h' : (tBoot a b crc s).get (.mid .BOOT_BOOT_COPY) = 0 := by rw [tBoot, tFlash_get]; exact h
  have v := tBoot_valid a b crc s hc (by rw [hx]; rfl)
  have f3 := tBoot_read a b crc (bootBase 0) 16 s (by decide)
  unfold State.dir
  rw [h']
  simp only [v, if_true, f3]
  unfold tDirOf at hx
  simp only at hx
  split at hx
  · exact Option.some.inj hx
  · cases hx

theorem tManifest (bs : List Byte) (s : State) (h : bs.length ≤ 83886080) :
    ({ s with flash := s.flash.write 0 bs } : State).manifest 1 = s.manifest 1 :=
  Mem.read_write_outside s.flash 0 83886080 672 bs (.inr (by omega))

theorem tBoot_manifest (a b crc : Nat) (s : State) : (tBoot a b crc s).manifest 1 = s.manifest 1 :=
  tManifest _ s (by rw [tBootBytes_length]; omega)

/-- A CRC over bytes that come in parts. -/
theorem tCrc_append (p v : Nat) (a b : List Byte) : crcR p v (a ++ b) = crcR p (crcR p v a) b := List.foldl_append

theorem tCrc_head (a b n0 n1 n2 n3 n : Nat) (h0 : crcR 0x82F63B78 0xFFFFFFFF (beBytes 4 0x45544452 ++ beBytes 2 1 ++ [0, 0] ++
      beBytes 4 6 ++ [0, BitVec.ofNat 8 a, BitVec.ofNat 8 b]) = n0)
    (h1 : crcR 0x82F63B78 n0 (List.replicate 1000 0) = n1) (h2 : crcR 0x82F63B78 n1 (List.replicate 1000 0) = n2)
    (h3 : crcR 0x82F63B78 n2 (List.replicate 1000 0) = n3) (h4 : crcR 0x82F63B78 n3 (List.replicate 1077 0) = n) :
    crc32c (tDirHead a b) = Nat.xor n 0xFFFFFFFF := by
  have e : List.replicate 4077 (0 : Byte) =
      List.replicate 1000 0 ++ (List.replicate 1000 0 ++ (List.replicate 1000 0 ++ List.replicate 1077 0)) := by
    simp only [List.replicate_append_replicate]
  unfold crc32c tDirHead
  rw [e, tCrc_append, h0, tCrc_append, h1, tCrc_append, h2, tCrc_append, h3, h4]

set_option maxRecDepth 100000 in
theorem tCrc_staged : crc32c (tDirHead slGOOD slSTAGED) = 1016572309 :=
  tCrc_head _ _ 2486121921 140733006 2029734419 655410760 3278394986 (by decide +kernel) (by decide +kernel) (by decide +kernel)
    (by decide +kernel) (by decide +kernel)

set_option maxRecDepth 100000 in
theorem tCrc_bad : crc32c (tDirHead slGOOD slBAD) = 1126634889 :=
  tCrc_head _ _ 2715689437 3465558497 964429605 3448468412 3168332406 (by decide +kernel) (by decide +kernel) (by decide +kernel)
    (by decide +kernel) (by decide +kernel)

/-- No update runs, and the slot that is not active is STAGED. -/
def tStaged : State :=
  tBoot slGOOD slSTAGED 1016572309 (((((tUp.put (.mid .CFG_IMG_NONE) 1).put (.hpt .PORT_STATUS_HIR_OK) 0 0).put
    (.hpt .PORT_STATUS_HIR_OK) 0 1).put (.hpt .PORT_STATUS_HIR_OK) 1 1).put (.hpt .PORT_STATUS_MINOR) 255 1)

/-- No update runs, and the slot that is not active is BAD. -/
def tBad : State := tBoot slGOOD slBAD 1126634889 tUp

theorem tStaged_bar : tStaged.activateBar = none := by
  have hd : tStaged.dir = ⟨6, 0, slGOOD, slSTAGED⟩ := tBoot_dir _ _ _ _ _ (by decide +kernel) tCrc_staged (by decide +kernel)
  have hm : tStaged.manifest 1 = _ := tBoot_manifest _ _ _ _
  have ha : tStaged.activeSlot = 0 := by decide +kernel
  unfold State.activateBar
  simp only [hd, hm, ha]
  decide +kernel

theorem tBad_bar : tBad.activateBar = some 2 := by
  have hd : tBad.dir = ⟨6, 0, slGOOD, slBAD⟩ := tBoot_dir _ _ _ _ _ (by decide +kernel) tCrc_bad (by decide +kernel)
  have ha : tBad.activeSlot = 0 := by decide +kernel
  unfold State.activateBar
  simp only [hd, ha]
  decide +kernel

/-- A bundle is being verified whose second component has another DIGEST than the first over the same bytes. -/
def tVerify : State :=
  { ((tUp.put (.ost .STATUS_STATE) 1 0).put (.fwu .STATUS_STATE) 2).put (.fwu .MAP_MAP) 0xFFFFFFFF 0 with
    flash := tUp.flash.set (slotBase 0 + 191) 0 }

theorem tVerify_bad : (compsOf ((tVerify.atNow tNow).manifest ((tVerify.atNow tNow).get (.fwu .xTGT)))).all
    ((tVerify.atNow tNow).compGood ((tVerify.atNow tNow).get (.fwu .xTGT))) = false := by
  have h : (compsOf ((tVerify.atNow tNow).manifest ((tVerify.atNow tNow).get (.fwu .xTGT)))).take 2 =
      [⟨65535, 4294967295, 4294967295, 2 ^ 384 - 1⟩, ⟨65535, 4294967295, 4294967295, 2 ^ 384 - 256⟩] := by decide +kernel
  generalize compsOf ((tVerify.atNow tNow).manifest ((tVerify.atNow tNow).get (.fwu .xTGT))) = l at h ⊢
  match l, h with
  | a :: b :: r, h =>
    simp only [List.take_succ_cons, List.take_zero, List.cons.injEq, and_true] at h
    obtain ⟨rfl, rfl⟩ := h
    simp only [List.all_cons, State.compGood, State.compBytes, Bool.and_eq_false_iff, beq_eq_false_iff_ne]
    omega

-- Well-formedness: what each check of WellFormed.lean refuses, and a neighbour that it passes

theorem test_wf_dramTrained :
    Instr.wellFormed (.dramTrained 0 [(3, 1), (3, 1)] tNow) = false ∧
    Instr.wellFormed (.dramTrained 0 [(3, 1), (3, 2)] tNow) = true := by
  decide +kernel
theorem test_wf_dieUp :
    Instr.wellFormed (.dieUp 1 [(0, 5), (0, 5)] tNow) = false ∧
    Instr.wellFormed (.dieUp 1 [(0, 5)] tNow) = true := by
  decide +kernel
theorem test_wf_wireBreak :
    Instr.wellFormed (.wireBreak ⟨256, 0, 0, 0⟩ 1) = false ∧
    Instr.wellFormed (.wireBreak ⟨255, 3, 0, 0⟩ 1) = true := by
  decide +kernel
theorem test_wf_faultOccurrence :
    Instr.wellFormed (.faultOccurrence [] tNow) = false ∧
    Instr.wellFormed (.faultOccurrence [⟨1, 1, 0, 0⟩] tNow) = true := by
  decide +kernel
theorem test_wf_announceReceived :
    Instr.wellFormed (.announceReceived 0 ⟨⟨.udp4, false, 0, 256⟩, []⟩ tNow) = false ∧
    Instr.wellFormed (.announceReceived 0 ⟨⟨.udp6, true, 3, 255⟩, []⟩ tNow) = true := by
  decide +kernel
theorem test_wf_announceDataset :
    Instr.wellFormed (.announceReceived 0 ⟨⟨.udp4, false, 0, 0⟩, List.replicate 17 1⟩ tNow) = false ∧
    Instr.wellFormed (.announceReceived 0 ⟨⟨.udp4, false, 0, 0⟩, List.replicate 16 1⟩ tNow) = true := by
  decide +kernel
theorem test_wf_syncReceived :
    Instr.wellFormed (.syncReceived 0 ⟨⟨.udp4, false, 0, 0⟩, true, 65536, 0, 0⟩ tNow) = false ∧
    Instr.wellFormed (.syncReceived 0 ⟨⟨.udp4, false, 0, 0⟩, true, 65535, -1, -1⟩ tNow) = true := by
  decide +kernel
theorem test_wf_followUpReceived :
    Instr.wellFormed (.followUpReceived 0 ⟨⟨.ethernet, false, 0, 256⟩, true, 0, 0, 0⟩ tNow) = false ∧
    Instr.wellFormed (.followUpReceived 0 ⟨⟨.ethernet, false, 0, 255⟩, true, 0, 0, 0⟩ tNow) = true := by
  decide +kernel
theorem test_wf_delayRespReceived :
    Instr.wellFormed (.delayRespReceived 0 ⟨⟨.udp4, true, 0, 256⟩, true, 0, 0⟩ tNow) = false ∧
    Instr.wellFormed (.delayRespReceived 0 ⟨⟨.udp4, true, 0, 255⟩, true, 0, -8⟩ tNow) = true := by
  decide +kernel
theorem test_wf_handoverOffer :
    Instr.wellFormed (.handoverOffer 0 ⟨48, [], 0, 0, 0⟩ tNow) = false ∧
    Instr.wellFormed (.handoverOffer 0 ⟨47, [(0x30000, 1)], 0, 0, 0⟩ tNow) = true := by
  decide +kernel
theorem test_wf_handoverPicture :
    Instr.wellFormed (.handoverPicture 0 ⟨4294967296, tNow⟩) = false ∧
    Instr.wellFormed (.handoverPicture 0 ⟨4294967295, tNow⟩) = true := by
  decide +kernel
theorem test_wf_tileDigest :
    Instr.wellFormed (.tileDigest 0 64 0) = false ∧
    Instr.wellFormed (.tileDigest 0 63 0) = true := by
  decide +kernel
theorem test_wf_rowReady :
    Instr.wellFormed (.rowReady 0 8192 tNow) = false ∧
    Instr.wellFormed (.rowReady 0 8191 tNow) = true := by
  decide +kernel
theorem test_wf_stripeSlotStart :
    Instr.wellFormed (.stripeSlotStart 0 0 0 ⟨[1048576], tNow⟩) = false ∧
    Instr.wellFormed (.stripeSlotStart 0 8191 0 ⟨[1048575], tNow⟩) = true := by
  decide +kernel
theorem test_wf_shadowCheck :
    Instr.wellFormed (.shadowCheck 0 0 0 1048576 [] tNow) = false ∧
    Instr.wellFormed (.shadowCheck 0 0 0 1048575 [⟨0, 8191, 8191, 65535⟩] tNow) = true := by
  decide +kernel
theorem test_wf_reexecDone :
    Instr.wellFormed (.reexecDone 0 8191 0 [⟨2, 8192, 0, 1⟩] tNow) = false ∧
    Instr.wellFormed (.reexecDone 0 8191 0 [⟨2, 8191, 0, 1⟩] tNow) = true := by
  decide +kernel
theorem test_wf_stripeWithheld :
    Instr.wellFormed (.stripeWithheld 0 8192 0 tNow) = false ∧
    Instr.wellFormed (.stripeWithheld 0 0 0 tNow) = true := by
  decide +kernel
theorem test_wf_rasterRelease :
    Instr.wellFormed (.rasterRelease 0 8192 0 tNow) = false ∧
    Instr.wellFormed (.rasterRelease 0 0 0 tNow) = true := by
  decide +kernel
theorem test_wf_decodeDeadline :
    Instr.wellFormed (.decodeDeadline 0 8192 tNow) = false ∧
    Instr.wellFormed (.decodeDeadline 0 0 tNow) = true := by
  decide +kernel
theorem test_wf_decodeStripeDone :
    Instr.wellFormed (.decodeStripeDone 0 0 0 [4, 4] tNow) = false ∧
    Instr.wellFormed (.decodeStripeDone 0 0 0 [4] tNow) = true := by
  decide +kernel
theorem test_wf_frameReceive :
    Instr.wellFormed (.frameReceive 0 [1, 2] true [0, 2] tNow) = false ∧
    Instr.wellFormed (.frameReceive 0 [1, 2] true [0, 1] tNow) = true := by
  decide +kernel
theorem test_wf_pipeStallTimeout :
    Instr.wellFormed (.pipeStallTimeout 0 8 ⟨0, tNow⟩) = false ∧
    Instr.wellFormed (.pipeStallTimeout 0 7 ⟨0, tNow⟩) = true := by
  decide +kernel
theorem test_wf_dramWrite :
    Instr.wellFormed (.dramWrite 0 0 255 [1, 2] 0 ⟨none, []⟩) = false ∧
    Instr.wellFormed (.dramWrite 0 0 254 [1, 2] 0 ⟨none, []⟩) = true := by
  decide +kernel
theorem test_wf_scrubCredit :
    Instr.wellFormed (.scrubCredit 0 [(16777216, [])] tNow) = false ∧
    Instr.wellFormed (.scrubCredit 0 [(16777215, [⟨5, 63, 1⟩])] tNow) = true := by
  decide +kernel
theorem test_wf_repairMapAppend :
    Instr.wellFormed (.repairMapAppend ⟨5, 0, 0, 0, 0⟩) = false ∧
    Instr.wellFormed (.repairMapAppend ⟨4, 1, 38, 0, 0⟩) = true := by
  decide +kernel
theorem test_wf_hostAlloc :
    Instr.wellFormed (.hostAlloc .ha 0 0 0 [⟨1, 0⟩, ⟨1, 1⟩]) = false ∧
    Instr.wellFormed (.hostAlloc .ha 0 0 0 [⟨1, 0⟩, ⟨2, 1⟩]) = true := by
  decide +kernel
theorem test_wf_counterLoRead :
    Instr.wellFormed (.counterLoRead .ha 2) = false ∧
    Instr.wellFormed (.counterLoRead .ha 4) = true := by
  decide +kernel
theorem test_wf_registerWrite :
    Instr.wellFormed (.registerWrite .ha 0 0 15 0) = false ∧
    Instr.wellFormed (.registerWrite .ha 0 0 15 1) = true := by
  decide +kernel
theorem test_wf_stirrupTake :
    Instr.wellFormed (.stirrupTake 0 []) = false ∧
    Instr.wellFormed (.stirrupTake 0 [.ha]) = true := by
  decide +kernel
theorem test_wf_tetherQuoteRequest :
    Instr.wellFormed (.tetherQuoteRequest 0 [1]) = false ∧
    Instr.wellFormed (.tetherQuoteRequest 0 (List.replicate 32 1)) = true := by
  decide +kernel
theorem test_wf_tetherRecoveryBlock :
    Instr.wellFormed (.tetherRecoveryBlock 0 65536 0 []) = false ∧
    Instr.wellFormed (.tetherRecoveryBlock 0 65535 0 []) = true := by
  decide +kernel
theorem test_wf_tetherLinkUp :
    Instr.wellFormed (.tetherLinkUp 0 1 0 4) = false ∧
    Instr.wellFormed (.tetherLinkUp 0 1 0 3) = true := by
  decide +kernel
theorem test_wf_hostLinkUp :
    Instr.wellFormed (.hostLinkUp 0 5 16) = false ∧
    Instr.wellFormed (.hostLinkUp 0 5 8) = true := by
  decide +kernel

-- Single steps with the results of the worked examples of spec/

/-- The text of the check values of R352. -/
def tDigits : List Byte := [0x31, 0x32, 0x33, 0x34, 0x35, 0x36, 0x37, 0x38, 0x39]

/-- R352: the check values of the four polynomials. -/
theorem test_check_values :
    Nat.xor (chkRun 0 (chkInit 0) tDigits) (chkXor 0) = 0xCBF43926 ∧
    Nat.xor (chkRun 1 (chkInit 1) tDigits) (chkXor 1) = 0xE3069283 ∧
    Nat.xor (chkRun 2 (chkInit 2) tDigits) (chkXor 2) = 0x29B1 ∧
    Nat.xor (chkRun 3 (chkInit 3) tDigits) (chkXor 3) = 0x21CF02 := by
  decide +kernel

/-- The worked example of 14_dma_check.md, its last feed by registers. -/
theorem test_check_feed :
    (let s := (tUp.put (.chk .CFG_POLY) 1 0 3).put (.chk .VAL_VAL) (chkRun 1 (chkInit 1) (tDigits.take 8)) 0 3
     let t := after (.chkDataB .ha 0 3 0x39) s
     t.chkResult 0 3 = 0xE3069283 ∧ t.get (.chk .CNT_CNT) 0 3 = 1) := by
  decide +kernel

/-- The worked example of 02_raster_time.md: picture count, line and tick of domain 1 at 1080p59.94. -/
theorem test_raster_position :
    (let s := { ((((tTb tbLOCKED).put (.trs .DOM_FMT_TOTAL_LINES) 1125 1).put (.trs .DOM_RATE_NUM) 60000 1).put
       (.trs .DOM_RATE_NTSC) 1 1).put (.trs .DOM_FMT_ENABLE) 1 1 with tb := 1700000000010000000 * 65536 }
     s.picNow 1 % 2 ^ 32 = 3113854090 ∧ s.ticksNow 1 % (1125 * 65536) = 788 * 65536 + 62982) := by
  decide +kernel

/-- The worked example of 17_host_ports.md, steps 1 and 2. -/
theorem test_stirrup_take :
    (let s := tUp.put (.hpt .STR_STATUS_GEN) 0x41 13
     (after (.stirrupTake 13 [.ha]) s).outs = [.read 0 0x110D0 0x80410000]) ∧
    (let s := (tUp.put (.hpt .STR_STATUS_GEN) 0x41 13).put (.hpt .STR_STATUS_OWNER) 0 13
     (after (.stirrupTake 13 [.hb]) s).outs = [.read 1 0x110D0 0x00410000]) := by
  decide +kernel

/-- The worked example of 15_events.md, step 2: the claim of source 97. -/
theorem test_event_claim :
    (let s := ((tUp.put (.evc .TGT_CTRL_EN) 1 0).put (.evc .SRC_CFG_EN) 1 97).put (.evc .SRC_CFG_PENDING) 1 97
     let t := after (.evcClaim .ha 0) s
     t.outs.contains (.read 0 (evcAddr 0 4) 0x00000061) = true ∧ t.srcActive 97 = true) := by
  decide +kernel

/-- The worked example of 22_register_index.md: the addresses of CUS_UNIT[139] and of SHP_SEQ[0x2A7] of die 0. -/
theorem test_register_addresses :
    (findReg 0x020101EC).map (fun l => (l.die, l.i)) = some (some 1, 139) ∧
    (findReg 0x010B4A9C).map (fun l => (l.die, l.j)) = some (some 0, 0x2A7) ∧
    findReg 0x020101EE = none := by
  decide +kernel

/-- The worked example of 12_paddock.md, step 4: HB may not free the buffer of channel 27. -/
theorem test_foreign_free :
    ({ tUp.put (.pdk .STATUS_DRAM_READY) 1 1 with bufs := [⟨6, 7, 45, 27⟩] } : State).freeStatus 1 (hostOwner 1) 0x0037002D =
      stFOREIGN := by
  decide +kernel

/-- The worked example of 13_memory.md, step 3: the repair entry of the erasure of device channel 38. -/
theorem test_repair_entry : repairBytes ⟨4, 1, 38, 0, 0⟩ = [4, 1, 0, 0x26, 0, 0, 0, 0] := by decide +kernel

/-- The worked example of 10_tables.md: the longest prefix that covers 239.10.200.17, and a neighbour's. -/
theorem test_longest_prefix :
    (let s : State := { tUp with routes :=
       [⟨0, 0, 8, 0xEF000000, 0x010⟩, ⟨0, 0, 24, 0xEF0AC800, 0x123⟩, ⟨0, 0, 32, 0xEF0AC811, 0x2A7⟩] }
     (s.lpm 0 0 0xEF0AC811).map (·.handle) = some 0x2A7 ∧ (s.lpm 0 0 0xEF0AC812).map (·.handle) = some 0x123 ∧
       (s.lpm 0 0 0xEF0AC900).map (·.handle) = some 0x010 ∧ s.lpm 1 0 0xEF0AC811 = none) := by
  decide +kernel

/-- The worked example of 14_dma_check.md: the fields of a RESH_IN descriptor. -/
theorem test_descriptor_fields :
    (let x : Desc := ⟨0x0000000000010902, 0, 0x00000002E8000000, 0x00000002E8800000, 0x00000002E9000000, 0x0780168012C00438⟩
     x.op = opRESH_IN ∧ x.evt = 1 ∧ x.srcSp = 0 ∧ x.dstSp = 1 ∧ x.fmt = 1 ∧ x.pixels = 1920 ∧ x.dstStride = 5760 ∧
       x.srcStride = 4800 ∧ x.lines = 1080) := by
  decide +kernel

/-- The worked example of 13_memory.md: where line 0xFC96C8 of a group lies. -/
theorem test_device_address :
    devAddr 0xFC96C8 = { burst := 8, bankGroup := 1, bank := 3, row := 0x7E4B } ∧ segOf 0xFC96C8 = 7 := by
  decide +kernel

-- What the statements assume can hold

/-- What StepRunsFront assumes, clause by clause, can hold. -/
theorem test_wit_StepRunsFront :
    (let s := { tUp with pending := [.mr4Read 0 2 tNow] }
     s.pending = .mr4Read 0 2 tNow :: []) ∧
    (let s := tUp
     s.pending = []) := by
  refine ⟨?_, ?_⟩ <;> decide +kernel

/-- What EveryCommandCompletes assumes, clause by clause, can hold. -/
theorem test_wit_EveryCommandCompletes :
    (let s := (tUp.put (.pwr .xDOWN) 1)
     Instr.powers (.mr4Read 0 2 tNow) = false ∧ s.live = false) := by
  decide +kernel

/-- What InputSupply assumes, clause by clause, can hold. -/
theorem test_wit_InputSupply :
    ((12000 : Nat) < 65536) ∧
    (let s := tUp
     s.live = true ∧ 8999 < 9000 ∧ s.flag (.pwr .STATUS_VIN_LOW) = false) ∧
    (let s := tUp.put (.pwr .STATUS_VIN_LOW) 1
     s.live = true ∧ (9000 ≤ 9000 ∨ s.flag (.pwr .STATUS_VIN_LOW) = true)) ∧
    (let s := tUp.put (.pwr .STATUS_VIN_LOW) 1
     s.live = true) ∧
    (70000 < 70001 ∨ 70001 < 6000) ∧
    (6000 ≤ 70000 ∧ 70000 ≤ 70000) ∧
    (let s := tUp
     s.flag (.pwr .xRAILS_OFF) = false) ∧
    (let s := State.reset.put (.pwr .xRAILS_OFF) 1
     s.flag (.pwr .xRAILS_OFF) = true) := by
  refine ⟨?_, ?_, ?_, ?_, ?_, ?_, ?_, ?_⟩ <;> decide +kernel

/-- What GraveCauses assumes, clause by clause, can hold. -/
theorem test_wit_GraveCauses :
    (let s := (tUp.put (.pwr .xTRIP) 2 10).put (.pwr .HB_TO_MS) 1
     let l : List Int := List.replicate 11 500
     let v : Word := 0x85#32
     s.live = true ∧ s.safe = false ∧ (s.atNow tNow).waitedOut (.pwr .HB_TO_MS) 0 0 1 100 msNs = true ∧ 1000 ≤ 1000 ∧
       (true != s.landsRun || false == s.landsRun) = true ∧ 10 ≤ 10 ∧ s.dieUp 0 = true ∧ s.dieUp 1 = true ∧ 10 <
       l.length ∧ 500 ≤ l.getD 10 0 ∧ 2 ≤ s.get (.pwr .xTRIP) 10 ∧ faultClass 0x89 = some 4 ∧ s.gateOf .ha .flt none =
       .pass ∧ faultClass (v.toNat % 256) = some 4) := by
  decide +kernel

/-- What SafeStateSticky assumes, clause by clause, can hold. -/
theorem test_wit_SafeStateSticky :
    (let s := { (tUp.put (.flt .STATUS_SAFE) 1) with safe := true, pending := [.mr4Read 0 2 tNow] }
     SafeHolds s) := by
  unfold SafeHolds
  decide +kernel

/-- What SyncMeasures assumes, clause by clause, can hold. -/
theorem test_wit_SyncMeasures :
    (let m : PtpTiming := ⟨⟨.udp4, false, 0, 0⟩, false, 7, 3, -2⟩
     let s := (((tUp.put (.trs .PTP_CFG_DOMAIN) 0).put (.trs .PORT_CFG_PTP_EN) 1 1).put (.trs .xANN_OK) 1 1).put (.trs
       .xDELAY) 5 1
     let u := s.atNow tNow
     s.live = true ∧ u.ptpOn 1 m.path = true ∧ m.twoStep = false ∧ SoleMaster 1 u ∧ u.tbState = tbFREE) ∧
    (let m : PtpTiming := ⟨⟨.udp4, false, 0, 0⟩, false, 7, 3, -2⟩
     let s := (tUp.put (.trs .PTP_CFG_DOMAIN) 0).put (.trs .PORT_CFG_PTP_EN) 1 1
     let u := s.atNow tNow
     s.live = true ∧ u.ptpOn 1 m.path = true ∧ m.twoStep = false ∧ u.hasMaster 1 = false ∧ u.flag (.trs .xANN_OK) 1 =
       false) ∧
    (let m : PtpTiming := ⟨⟨.udp4, false, 0, 0⟩, true, 65543, 3, -2⟩
     let s := (tUp.put (.trs .PTP_CFG_DOMAIN) 0).put (.trs .PORT_CFG_PTP_EN) 1 1
     let u := s.atNow tNow
     s.live = true ∧ u.ptpOn 1 m.path = true ∧ m.twoStep = true) ∧
    (let m : PtpTiming := ⟨⟨.udp6, false, 0, 0⟩, true, 65543, 0, 0⟩
     let s := (((((tUp.put (.trs .PTP_CFG_DOMAIN) 0).put (.trs .PTP_CFG_IPV6) 1).put (.trs .PORT_CFG_PTP_EN) 1 1).put
       (.trs .xANN_OK) 1 1).put (.trs .xSYNC_PEND) 1 1).put (.trs .xSYNC_SEQ) 7 1
     let u := s.atNow tNow
     s.live = true ∧ u.ptpOn 1 m.path = true ∧ u.flag (.trs .xSYNC_PEND) 1 = true ∧ u.get (.trs .xSYNC_SEQ) 1 =
       m.seqId % 65536 ∧ SoleMaster 1 u ∧ u.tbState = tbFREE) ∧
    (let m : PtpTiming := ⟨⟨.udp4, false, 0, 0⟩, true, 8, 0, 0⟩
     let s := (tUp.put (.trs .PTP_CFG_DOMAIN) 0).put (.trs .PORT_CFG_PTP_EN) 1 1
     let u := s.atNow tNow
     s.live = true ∧ u.ptpOn 1 m.path = true ∧ (u.flag (.trs .xSYNC_PEND) 1 = false ∨ u.get (.trs .xSYNC_SEQ) 1 ≠
       m.seqId % 65536)) ∧
    (let m : PtpTiming := ⟨⟨.udp4, true, 0, 0⟩, true, 8, 0, 0⟩
     let s := (tUp.put (.trs .PTP_CFG_DOMAIN) 0).put (.trs .PORT_CFG_PTP_EN) 1 1
     let u := s.atNow tNow
     s.live = true ∧ u.ptpOn 1 m.path = false) ∧
    (let s := tUp
     s.tbState = tbFREE) ∧
    (let s := (tTb tbLOCKING).put (.trs .xGOOD) 15
     s.tbState = tbLOCKING ∧ s.get (.trs .xGOOD) = 15 ∧ (-100 : Int) ≤ 100 ∧ (100 : Int) ≤ 100) ∧
    (let s := (tTb tbLOCKING).put (.trs .xGOOD) 14
     s.tbState = tbLOCKING ∧ s.get (.trs .xGOOD) < 15) ∧
    (let s := (tTb tbLOCKED).put (.trs .xBAD) 3
     s.tbState = tbLOCKED ∧ s.get (.trs .xBAD) = 3 ∧ ((1000 : Int) < 1001 ∨ (1001 : Int) < -1000)) ∧
    (let s := (tTb tbLOCKED).put (.trs .xBAD) 3
     s.tbState = tbLOCKED ∧ (-1000 : Int) ≤ -1000 ∧ (-1000 : Int) ≤ 1000) ∧
    (let s := tTb tbHOLDOVER
     (s.tbState = tbHOLDOVER ∨ s.tbState = tbUNLOCKED) ∧ s.tbState ≠ tbFREE) := by
  unfold SoleMaster
  refine ⟨?_, ?_, ?_, ?_, ?_, ?_, ?_, ?_, ?_, ?_, ?_, ?_⟩ <;> decide +kernel

/-- What TimeInputs assumes, clause by clause, can hold. -/
theorem test_wit_TimeInputs :
    (let a : Announce := ⟨⟨.udp4, false, 0, 0⟩, [128]⟩
     let s := (tUp.put (.trs .PTP_CFG_DOMAIN) 0).put (.trs .PORT_CFG_PTP_EN) 1 1
     let u := s.atNow tNow
     s.live = true ∧ u.ptpOn 1 a.path = true) ∧
    (let a : Announce := ⟨⟨.ethernet, false, 0, 0⟩, [128]⟩
     let s := (tUp.put (.trs .PTP_CFG_DOMAIN) 0).put (.trs .PORT_CFG_PTP_EN) 1 1
     let u := s.atNow tNow
     s.live = true ∧ u.ptpOn 1 a.path = false) ∧
    (let r : DelayResp := ⟨⟨.udp4, false, 0, 0⟩, false, -3, 0⟩
     let s := (tUp.put (.trs .PTP_CFG_DOMAIN) 0).put (.trs .PORT_CFG_PTP_EN) 1 1
     let u := s.atNow tNow
     s.live = true ∧ (u.ptpOn 1 r.path && r.p2p == u.flag (.trs .PTP_CFG_DELAY_MECH)) = true) ∧
    (let r : DelayResp := ⟨⟨.udp4, false, 0, 0⟩, true, -3, 0⟩
     let s := (tUp.put (.trs .PTP_CFG_DOMAIN) 0).put (.trs .PORT_CFG_PTP_EN) 1 1
     let u := s.atNow tNow
     s.live = true ∧ (u.ptpOn 1 r.path && r.p2p == u.flag (.trs .PTP_CFG_DELAY_MECH)) = false) ∧
    (let s := (((((tUp.put (.trs .PTP_CFG_DOMAIN) 0).put (.trs .PORT_CFG_PTP_EN) 1 1).put (.trs .xANN_OK) 1 1).put
       (.trs .xMASTER) 1 1).put (.prs .PORT_CFG_EN) 1 0 1).put (.prs .PORT_CFG_LINK_UP) 1 0 1
     let u := s.atNow tNow
     s.live = true ∧ mayAsk 1 u = true ∧ u.flag (.shp .xWIRE) (u.ptpIface 1) = false) ∧
    (let s := ((((((tUp.put (.trs .PTP_CFG_DOMAIN) 0).put (.trs .PORT_CFG_PTP_EN) 1 1).put (.trs .xANN_OK) 1 1).put
       (.trs .xMASTER) 1 1).put (.prs .PORT_CFG_EN) 1 0 1).put (.prs .PORT_CFG_LINK_UP) 1 0 1).put (.shp .xWIRE) 1 4
     let u := s.atNow tNow
     s.live = true ∧ mayAsk 1 u = true ∧ u.flag (.shp .xWIRE) (u.ptpIface 1) = true) ∧
    (let s := tUp
     let u := s.atNow tNow
     s.live = true ∧ mayAsk 1 u = false) ∧
    (let s := (((tTb tbLOCKED).put (.trs .PORT_CFG_PTP_EN) 1 2).put (.trs .xANN_OK) 1 2).put (.trs .xSYNC_DUE) 1 2
     let u := s.atNow tNow
     s.live = true ∧ u.expired (.trs .xSYNC_DUE) 2 = true) ∧
    (let s := tUp
     let u := s.atNow tNow
     s.live = true ∧ u.expired (.trs .xSYNC_DUE) 2 = false ∧ u.expired (.trs .xANN_DUE) 2 = false) ∧
    (let s := (((tTb tbLOCKED).put (.trs .PORT_CFG_PTP_EN) 1 2).put (.trs .xANN_OK) 1 2).put (.trs .xANN_DUE) 1 2
     let u := s.atNow tNow
     s.live = true ∧ u.expired (.trs .xANN_DUE) 2 = true) ∧
    (let s := tUp.put (.trs .xPPS_AT) 2 
     s.live = true) ∧
    (let s := { tTb tbLOCKED with osc := 3000000 }
     let u := s.atNow tNow
     s.live = true ∧ u.flag (.trs .xPPS) = false ∧ u.tbState ≠ tbFREE ∧ u.ppsSecond = some 10 ∧ u.get (.trs .xPPS_SEC)
       ≠ 11) ∧
    (let s := ((tTb tbLOCKED).put (.trs .xPPS) 1).put (.trs .xPPS_SEC) 11
     let u := s.atNow tNow
     s.live = true ∧ u.flag (.trs .xPPS) = true ∧ (u.tbState = tbFREE ∨ elapsedNs (u.get (.trs .xPPS_RISE)) u.osc
       1000000 = true)) ∧
    (let s := (tTb tbLOCKED).put (.trs .xPPS_SEC) 11
     let u := s.atNow tNow
     s.live = true ∧ u.flag (.trs .xPPS) = false ∧ (u.tbState = tbFREE ∨ u.ppsSecond = none ∨ u.ppsSecond = some
       (u.get (.trs .xPPS_SEC) - 1) ∧ u.get (.trs .xPPS_SEC) ≠ 0)) ∧
    (let s := (tTb tbHOLDOVER).put (.trs .xHOLD_DUE) 1
     let u := s.atNow tNow
     s.live = true ∧ u.tbState = tbHOLDOVER ∧ u.expired (.trs .xHOLD_DUE) = true) ∧
    (let s := tTb tbHOLDOVER
     let u := s.atNow tNow
     s.live = true ∧ (u.tbState ≠ tbHOLDOVER ∨ u.expired (.trs .xHOLD_DUE) = false)) ∧
    (let s := tUp.put (.trs .CTRL_FREE_START) 1
     let n : Now := ⟨3000000000000, 0⟩
     let u := s.atNow n
     s.live = true ∧ u.tbState = tbFREE ∧ u.flag (.trs .xFREE_T0) = false ∧ elapsedNs (u.get (.trs .xFIRST_AT)) u.osc
       u.firstLockNs = true) ∧
    (let s := tTb tbLOCKED
     let u := s.atNow tNow
     s.live = true ∧ (u.tbState ≠ tbFREE ∨ u.flag (.trs .xFREE_T0) = true ∨ elapsedNs (u.get (.trs .xFIRST_AT)) u.osc
       u.firstLockNs = false)) ∧
    (let s := tUp
     s.live = true) := by
  refine ⟨?_, ?_, ?_, ?_, ?_, ?_, ?_, ?_, ?_, ?_, ?_, ?_, ?_, ?_, ?_, ?_, ?_, ?_, ?_⟩ <;> decide +kernel

/-- What HandoverSlots assumes, clause by clause, can hold. -/
theorem test_wit_HandoverSlots :
    (let s := (tDom.put (.fwu .STATUS_STATE) 4).put (.trs .HO_CTRL_ARM) 1 15
     s.live = true ∧ s.gateOf .ha .trs none = .pass ∧ (15 : HoSlot).val = 15 ∧ s.slot15Held = true) ∧
    (let s := tDom.put (.trs .HO_TGT_HI_PICTURE) 700 15
     let v : Word := 0x3000#32
     s.live = true ∧ s.gateOf .ha .trs none = .pass ∧ ((15 : HoSlot).val < 15 ∨ s.slot15Held = false) ∧ s.flag (.trs
       .HO_CTRL_ARM) 15 = false ∧ bitOf v.toNat 9 = false ∧ s.rasterRuns (v.toNat % 8) = true ∧ (s.hoTarget 15 (v.toNat
       % 8)).any (fun k => s.armLead (v.toNat % 8) k) = true) ∧
    (let s := tDom.put (.trs .HO_TGT_HI_PICTURE) 600 3
     let v : Word := 0#32
     s.live = true ∧ s.gateOf .ha .trs none = .pass ∧ ((3 : HoSlot).val < 15 ∨ s.slot15Held = false) ∧ s.flag (.trs
       .HO_CTRL_ARM) 3 = false ∧ bitOf v.toNat 9 = false ∧ (s.rasterRuns (v.toNat % 8) = false ∨ (s.hoTarget 3 (v.toNat
       % 8)).all (fun k => !s.armLead (v.toNat % 8) k) = true)) ∧
    (let s := tDom
     s.live = true ∧ s.gateOf .ha .trs none = .pass ∧ ((14 : HoSlot).val < 15 ∨ s.slot15Held = false) ∧ s.flag (.trs
       .HO_CTRL_ARM) 14 = false) ∧
    (let s := (tDom.put (.trs .HO_CTRL_ARM) 1 14).put (.trs .xHO_AT) (2 ^ 70) 14
     let v : Word := 0x3105#32
     s.live = true ∧ s.gateOf .ha .trs none = .pass ∧ ((14 : HoSlot).val < 15 ∨ s.slot15Held = false) ∧ s.flag (.trs
       .HO_CTRL_ARM) 14 = true ∧ s.slotReached 14 = false ∧ bitOf v.toNat 9 = false) ∧
    (let s := tDom.put (.trs .HO_CTRL_ARM) 1 14
     s.live = true ∧ s.gateOf .ha .trs none = .pass ∧ ((14 : HoSlot).val < 15 ∨ s.slot15Held = false) ∧ s.flag (.trs
       .HO_CTRL_ARM) 14 = true ∧ s.slotReached 14 = true) ∧
    (let s := (((tDom.put (.trs .HO_CTRL_ARM) 1 2).put (.trs .HO_CTRL_ARM) 1 3).put (.cch .CTRL_HO_SLOT) 2 7).put
       (.cch .FMT_WIDTH) 77 7 0 0
     let w := s.quiet.clock tNow
     s.live = true ∧ w.flag (.trs .HO_CTRL_ARM) 2 = true ∧ w.slotReached 2 = true ∧ (2 : HoSlot).val < 15 ∧ slotOf
       (w.get (.cch .CTRL_HO_SLOT) 7) = (2 : HoSlot).val ∧ w.dieUp (w.get (.cch .CTRL_HOME_DIE) 7) = true) ∧
    (let s := tDom.put (.trs .HO_CTRL_ARM) 1 3
     let w := s.quiet.clock tNow
     s.live = true ∧ (w.flag (.trs .HO_CTRL_ARM) 2 = false ∨ w.slotReached 2 = false)) ∧
    (let s := (tDom.put (.trs .HO_CTRL_ARM) 1 3).put (.trs .xHO_AT) (2 ^ 70) 3
     let u := s.atNow tNow
     let w := s.quiet.clock tNow
     s.live = true ∧ u.flag (.trs .HO_CTRL_ARM) 3 = true ∧ (∀ m : HoSlot, w.flag (.trs .HO_CTRL_ARM) m = true →
       w.slotReached m = false)) ∧
    (let s := ((tTb tbLOCKED).put (.trs .OFFSET_OFFSET) 7).put (.trs .xM_TB) (2 ^ 60)
     s.live = true ∧ s.gateOf .ha .trs none = .pass ∧ (s.tbState = tbLOCKING ∨ s.tbState = tbLOCKED) ∧ (List.range
       48).all (fun ch => s.get (.cch .STATUS_STATE) ch != chRUNNING && s.get (.cch .STATUS_STATE) ch != chLEAVING) =
       true ∧ s.rasterPaced = false) ∧
    (let s := tTb tbHOLDOVER
     s.live = true ∧ s.gateOf .ha .trs none = .pass ∧ (s.tbState ≠ tbLOCKING ∧ s.tbState ≠ tbLOCKED)) := by
  refine ⟨?_, ?_, ?_, ?_, ?_, ?_, ?_, ?_, ?_, ?_, ?_⟩ <;> decide +kernel

/-- What StartUpRuns assumes, clause by clause, can hold. -/
theorem test_wit_StartUpRuns :
    (let s := State.reset
     let b : BootInputs := ⟨0, true, caseMin - 20⟩
     s.flag (.pwr .xRAILS_OFF) = false ∧ caseMin - 20 ≤ b.caseQ ∧ b.flashOk = true) ∧
    (let s := State.reset.put (.pwr .xDOWN) 1
     let b : BootInputs := ⟨0, true, caseMin - 20⟩
     s.flag (.pwr .xDOWN) = true ∧ s.flag (.pwr .xRAILS_OFF) = false ∧ caseMin - 20 ≤ b.caseQ ∧ b.flashOk = true) ∧
    (let s := State.reset.put (.pwr .xCASE_HOLD) 1
     s.live = true ∧ s.safe = false ∧ s.flag (.pwr .xCASE_HOLD) = true ∧ caseMin - 20 ≤ caseMin - 20) ∧
    (let s := State.reset
     let b : BootInputs := ⟨0, true, caseMin - 21⟩
     s.flag (.pwr .xRAILS_OFF) = false ∧ b.caseQ < caseMin - 20) ∧
    (let s := State.reset
     let b : BootInputs := ⟨0, false, caseMin - 20⟩
     s.flag (.pwr .xRAILS_OFF) = false ∧ caseMin - 20 ≤ b.caseQ ∧ b.flashOk = false) ∧
    (let s := State.reset.put (.pwr .xRAILS_OFF) 1
     s.flag (.pwr .xRAILS_OFF) = true) ∧
    (let s := State.reset
     s.live = true ∧ (s.flag (.pwr .xCASE_HOLD) = false ∨ (400 : Int) < caseMin - 20)) := by
  exact ⟨⟨by decide +kernel, Int.le_refl _, rfl⟩,
    ⟨by decide +kernel, by decide +kernel, Int.le_refl _, rfl⟩,
    ⟨by decide +kernel, by decide +kernel, by decide +kernel, Int.le_refl _⟩,
    ⟨by decide +kernel, by show caseMin - 21 < caseMin - 20; omega⟩,
    ⟨by decide +kernel, Int.le_refl _, rfl⟩,
    by decide +kernel,
    ⟨by decide +kernel, Or.inl (by decide +kernel)⟩⟩

/-- What FaultRecorded assumes, clause by clause, can hold. -/
theorem test_wit_FaultRecorded :
    (let o : Occ := ⟨0x22, 1, 5, 6⟩
     let s := ((((tUp.put (.flt .REC_WORD) 1 239 3).put (.flt .REC_WORD) (0x22 + 3 * 2 ^ 13) 239 0).put (.flt
       .REC_WORD) 5 239 1))
     s.live = true ∧ faultClass o.code = some 1 ∧ 1 < 3 ∧ o.code ≠ 0x47 ∧ o.takesEngine = false) ∧
    (let o : Occ := ⟨0x49, 1, 5, 6⟩
     let s := tUp
     s.live = true ∧ faultClass o.code = some 2 ∧ 2 < 3 ∧ o.code ≠ 0x47 ∧ o.takesEngine = false) ∧
    (let s := tUp
     let v : Word := 0x344#32
     s.live = true ∧ s.gateOf .ha .flt none = .pass ∧ faultClass (v.toNat % 256) = some 2 ∧ 2 < 3) ∧
    (let s := tUp
     let v : Word := 0x3FF#32
     s.live = true ∧ s.gateOf .ha .flt none = .pass ∧ faultClass (v.toNat % 256) = none) ∧
    (let o : Occ := ⟨0x22, 3, 5, 6⟩
     let s := tUp
     s.live = true ∧ faultClass o.code = some 1 ∧ 1 < 3 ∧ 2 ≤ 2) ∧
    (let o : Occ := ⟨0x0E, 3, 5, 6⟩
     let s := tUp
     s.live = true ∧ (9 < 2 ∨ faultClass o.code = none)) ∧
    (let s := tUp
     s.live = true ∧ s.safe = false) ∧
    (let s := { tUp with safe := true }
     s.live = true ∧ s.safe = true) ∧
    (let s := tUp
     let u := s.atNow tNow
     s.live = true ∧ u.waitedOut (.pwr .HB_TO_MS) 0 2999000 1 100 msNs = false) ∧
    (let s := tUp
     let l : List Int := List.replicate 12 400
     let u := s.atNow tNow
     s.live = true ∧ 11 < l.length ∧ (List.range 11).all (fun n => decide (l.getD n 0 < 500)) = true ∧ (List.range
       8).all (fun g => !u.groupHot g) = true) := by
  refine ⟨?_, ?_, ?_, ?_, ?_, ?_, ?_, ?_, ?_, ?_⟩ <;> decide +kernel

/-- What DieRestarts assumes, clause by clause, can hold. -/
theorem test_wit_DieRestarts :
    (let s := tUp
     s.live = true ∧ s.safe = false ∧ s.gateOf .ha .flt none = .pass ∧ s.dieUp 1 = true ∧ s.wouldHold 1 = false) ∧
    (let s := { tUp with restarts := [(1, 0), (1, 0), (1, 0)] }
     s.live = true ∧ s.safe = false ∧ s.gateOf .ha .flt none = .pass ∧ s.dieUp 1 = true ∧ s.wouldHold 1 = true ∧
       s.dieHeld 1 = false) ∧
    (let s := tUp.put (.mid .STATUS_DIE_UP) 1
     s.live = true ∧ s.safe = false ∧ s.gateOf .ha .flt none = .pass ∧ s.dieUp 1 = false) ∧
    (let s := tUp
     let u := s.atNow tNow
     let o : Occ := ⟨0x66, 1, 0, 0⟩
     s.live = true ∧ s.safe = false ∧ u.dieHeld 1 = false ∧ u.dieUp 1 = true ∧ u.waitedOut (.prs .STALL_TO_STALL) 1 0
       100 5000 1 = true ∧ (7 : Group) / 4 = (1 : Group) ∧ u.waitedOut (.dmc .XBAR_TO_TO) 1 0 200 20000 1 = true ∧
       faultClass o.code = some 3 ∧ faultDie o = some 1) ∧
    (let s := tUp
     let u := s.atNow tNow
     s.live = true ∧ s.safe = false ∧ u.dieHeld 1 = false ∧ (u.dieUp 1 = false ∨ u.waitedOut (.prs .STALL_TO_STALL) 1
       3000000 100 5000 1 = false) ∧ (u.dieUp 1 = false ∨ u.waitedOut (.dmc .XBAR_TO_TO) 1 3000000 200 20000 1 = false))
       ∧
    (let s := tUp
     let o : Occ := ⟨0x66, 1, 0, 0⟩
     let v : Word := 0x260#32
     s.live = true ∧ s.safe = false ∧ s.dieHeld 1 = false ∧ faultClass o.code = some 3 ∧ faultDie o = some 1 ∧ 2 ≤ 2 ∧
       s.gateOf .ha .flt none = .pass ∧ faultClass (v.toNat % 256) = some 3 ∧ bitsOf v.toNat 9 1 = (1 : Die).val) ∧
    (let s := { (tUp.put (.flt .STATUS_DIE_DOWN) 1).put (.mid .STATUS_DIE_UP) 2 with image := [1] }
     let u := s.atNow tNow
     s.live = true ∧ s.safe = false ∧ u.dieOff 0 = true ∧ u.dieHeld 0 = false ∧ u.inWinter = false ∧ u.restartImage 0
       = none) ∧
    (let s := (tUp.put (.flt .STATUS_DIE_DOWN) 1).put (.mid .STATUS_DIE_UP) 2
     let u := s.atNow tNow
     s.live = true ∧ s.safe = false ∧ u.dieOff 0 = true ∧ u.dieHeld 0 = false ∧ u.inWinter = false ∧ (u.restartImage
       0).isSome = true) ∧
    (let s := (tUp.put (.mid .STATUS_DIE_UP) 0).put (.mid .BOOT_STEP) 6
     let u := s.atNow tNow
     s.live = true ∧ s.safe = false ∧ u.get (.mid .BOOT_STEP) = 6 ∧ u.dieUp 1 = false ∧ u.dieOff 1 = false ∧ u.dieHeld
       1 = false ∧ (trainGroups 1 (failPairs []) u.mapErased u).lostGroups 1 = []) ∧
    (let s := (tUp.put (.mid .STATUS_DIE_UP) 0).put (.mid .BOOT_STEP) 6
     let l : List (Fin 4 × Device) := [(0, 1), (0, 2)]
     let u := s.atNow tNow
     s.live = true ∧ s.safe = false ∧ u.get (.mid .BOOT_STEP) = 6 ∧ u.dieUp 1 = false ∧ u.dieOff 1 = false ∧ u.dieHeld
       1 = false ∧ (trainGroups 1 (failPairs l) u.mapErased u).lostGroups 1 ≠ []) := by
  refine ⟨?_, ?_, ?_, ?_, ?_, ?_, ?_, ?_, ?_, ?_⟩ <;> decide +kernel

/-- What EventAssert assumes, clause by clause, can hold. -/
theorem test_wit_EventAssert :
    (let s := tUp
     s.live = true ∧ isLevelSrc 900 = false ∧ isReservedSrc 900 = false) ∧
    (let s := ((tUp.put (.evc .SRC_CFG_FIFO_EN) 1 900).put (.evc .SRC_CFG_TARGET) 2 900).put (.evc .FIFO_CFG_THR) 1 2
     s.live = true ∧ isLevelSrc 900 = false ∧ isReservedSrc 900 = false ∧ s.flag (.evc .SRC_CFG_FIFO_EN) 900 = true ∧
       s.fifoLevel (s.srcTarget 900) < 512) ∧
    (let s :=
       { (tUp.put (.evc .SRC_CFG_FIFO_EN) 1 900).put (.evc .SRC_CFG_TARGET) 2 900 with fifo := List.replicate 512 ⟨2, 5, false, false⟩ }
     s.live = true ∧ isLevelSrc 900 = false ∧ isReservedSrc 900 = false ∧ s.flag (.evc .SRC_CFG_FIFO_EN) 900 = true ∧
       512 ≤ s.fifoLevel (s.srcTarget 900)) ∧
    (let s := (tUp.put (.evc .SRC_CFG_PENDING) 1 900).put (.evc .SRC_CFG_TARGET) 3 900
     s.live = true ∧ isLevelSrc 900 = false ∧ isReservedSrc 900 = false ∧ s.flag (.evc .SRC_CFG_PENDING) 900 = true ∧
       s.flag (.evc .SRC_CFG_FIFO_EN) 900 = false) ∧
    (let s := tUp.put (.evc .SRC_CFG_FIFO_EN) 1 832
     s.live = true ∧ isLevelSrc 832 = true ∧ s.flag (.evc .SRC_CFG_ASSERTED) 832 = false) ∧
    (let s := (tUp.put (.evc .SRC_CFG_FIFO_EN) 1 832).put (.evc .SRC_CFG_ASSERTED) 1 832
     s.live = true ∧ isLevelSrc 832 = true ∧ s.flag (.evc .SRC_CFG_ASSERTED) 832 = true) ∧
    (let s := tUp
     s.live = true ∧ isReservedSrc 897 = true) := by
  refine ⟨?_, ?_, ?_, ?_, ?_, ?_, ?_⟩ <;> decide +kernel

/-- What ClaimsBestSource assumes, clause by clause, can hold. -/
theorem test_wit_ClaimsBestSource :
    (let s := tUp.put (.evc .SRC_CFG_EN) 1 900
     s.flag (.evc .TGT_CTRL_EN) 0 = false) ∧
    (let s := ((tUp.put (.evc .TGT_CTRL_EN) 1 0).put (.evc .SRC_CFG_EN) 1 900).put (.evc .SRC_CFG_PENDING) 1 901
     s.flag (.evc .TGT_CTRL_EN) 0 = true ∧ s.bestSrc 0 = none ∧ 901 ∈ s.pendingSrcs) ∧
    (let s := ((((tUp.put (.evc .TGT_CTRL_EN) 1 0).put (.evc .SRC_CFG_EN) 1 900).put (.evc .SRC_CFG_EN) 1 901).put
       (.evc .SRC_CFG_PENDING) 1 900).put (.evc .SRC_CFG_PENDING) 1 901
     s.bestSrc 0 = some 900 ∧ 901 ∈ s.pendingSrcs ∧ s.deliverable 0 901 = true ∧ 901 ≠ 900) ∧
    (let s := tUp
     s.live = true ∧ s.takes .hb 0 = false) ∧
    (let s := tUp
     s.live = true ∧ s.takes .ha 0 = true ∧ s.bestSrc 0 = none) ∧
    (let s := (((tUp.put (.evc .TGT_CTRL_EN) 1 0).put (.evc .SRC_CFG_EN) 1 900).put (.evc .SRC_CFG_PENDING) 1 900).put
       (.evc .xCLAIM_CNT) 15 0
     s.live = true ∧ s.takes .ha 0 = true ∧ s.bestSrc 0 = some 900 ∧ s.get (.evc .xCLAIM_CNT) 0 = 15) := by
  refine ⟨?_, ?_, ?_, ?_, ?_, ?_⟩ <;> decide +kernel

/-- What ClaimEnds assumes, clause by clause, can hold. -/
theorem test_wit_ClaimEnds :
    (let s := tUp
     s.live = true ∧ s.gateOf .ha .evc none = .pass ∧ Party.ha.num = (0 : Target).val ∧ s.claims.any (fun c => c.src
       == 900 && c.tgt == 0 && c.seq == 0) = false) ∧
    (let c : Claim := { src := 901, tgt := 0, seq := 15, due := 0 }
     let e : Claim := { src := 900, tgt := 0, seq := 14, due := 0 }
     let s := { tUp.put (.evc .SRC_CFG_ASSERTED) 1 901 with claims := [c, e] }
     let v : Word := 0x000F0385#32
     s.live = true ∧ s.gateOf .ha .evc none = .pass ∧ Party.ha.num = (0 : Target).val ∧ s.claims.any (fun c => c.src
       == v.toNat % 1024 && c.tgt == 0 && c.seq == bitsOf v.toNat 16 4) = true ∧ s.flag (.evc .SRC_CFG_ASSERTED)
       (v.toNat % 1024) = true) ∧
    (let s := tUp
     s.live = true ∧ s.gateOf .ha .evc none = .pass ∧ Party.ha.num ≠ (1 : Target).val) ∧
    (let c : Claim := { src := 901, tgt := 0, seq := 15, due := 0 }
     let s := { tUp with claims := [c] }
     let t : State := { tUp.put (.evc .SRC_CFG_PENDING) 1 901 with claims := [c] }
     t.claims = s.claims ∧ t.get (.evc .TGT_CTRL_BINPOINT) 0 = s.get (.evc .TGT_CTRL_BINPOINT) 0 ∧ t.get (.evc
       .SRC_CFG_PRIO) 901 = s.get (.evc .SRC_CFG_PRIO) 901) ∧
    (let c : Claim := { src := 900, tgt := 0, seq := 0, due := 0 }
     let s := { tUp with claims := [c] }
     let u := s.atNow tNow
     s.live = true ∧ u.inWinter = false ∧ u.claims.find? (fun c => c.src == 900 && decide (c.due ≤ u.osc)) = some c) ∧
    (let c : Claim := { src := 900, tgt := 0, seq := 0, due := 3000001 }
     let s := { tUp with claims := [c] }
     let u := s.atNow tNow
     s.live = true ∧ u.claims.find? (fun c => c.src == 900 && decide (c.due ≤ u.osc)) = none) := by
  refine ⟨?_, ?_, ?_, ?_, ?_, ?_⟩ <;> decide +kernel

/-- What EventFifos assumes, clause by clause, can hold. -/
theorem test_wit_EventFifos :
    (let s := tUp
     s.live = true ∧ s.gateOf .ha .evc none = .pass ∧ s.fifoLevel 2 < 512) ∧
    (let s := { tUp with fifo := List.replicate 512 ⟨2, 5, false, false⟩ }
     s.live = true ∧ s.gateOf .ha .evc none = .pass ∧ 512 ≤ s.fifoLevel 2) ∧
    (let e : FifoEntry := ⟨0, 9, true, true⟩
     let s := { tUp with fifo := [⟨1, 4, false, false⟩, e] }
     s.live = true ∧ s.takes .ha 0 = true ∧ s.fifo.find? (fun e => e.tgt == 0) = some e) ∧
    (let s := tUp
     s.live = true ∧ (s.takes .ha 0 = false ∨ s.fifo.find? (fun e => e.tgt == 0) = none)) := by
  refine ⟨?_, ?_, ?_, ?_⟩ <;> decide +kernel

/-- What EventSetup assumes, clause by clause, can hold. -/
theorem test_wit_EventSetup :
    (let s := tUp
     let v : Word := 928#32
     s.live = true ∧ s.gateOf .ha .evc none = .pass ∧ isSoftware (v.toNat % 1024) = true ∧ s.srcActive (v.toNat %
       1024) = false) ∧
    (let c : Claim := { src := 928, tgt := 0, seq := 0, due := 0 }
     let s := { tUp with claims := [c] }
     let v : Word := 901#32
     let w : Word := 928#32
     s.live = true ∧ s.gateOf .ha .evc none = .pass ∧ isSoftware (v.toNat % 1024) = false ∧ s.srcActive (w.toNat %
       1024) = true) ∧
    (let s := tUp
     s.live = true ∧ s.gateOf .ha .evc none = .pass ∧ s.srcActive 5 = false) ∧
    (let c : Claim := { src := 5, tgt := 0, seq := 0, due := 0 }
     let s := { tUp with claims := [c] }
     let v : Word := 0x1213#32
     s.live = true ∧ s.gateOf .ha .evc none = .pass ∧ s.srcActive 5 = true ∧ bitsOf v.toNat 4 2 ≠ s.get (.evc
       .SRC_CFG_TARGET) 5) ∧
    (let s := tUp
     s.live = true ∧ s.gateOf .ha .evc none = .pass ∧ Party.ha.num = (0 : Target).val ∧ s.activeOf 0 = []) ∧
    (let c : Claim := { src := 5, tgt := 0, seq := 0, due := 0 }
     let s := { tUp with claims := [c] }
     let v : Word := 0x53#32
     s.live = true ∧ s.gateOf .ha .evc none = .pass ∧ Party.ha.num = (0 : Target).val ∧ s.activeOf 0 ≠ [] ∧ bitsOf
       v.toNat 4 3 ≠ s.get (.evc .TGT_CTRL_BINPOINT) 0) ∧
    (let s := tUp
     s.live = true ∧ s.gateOf .ha .evc none = .pass ∧ Party.ha.num ≠ (1 : Target).val) ∧
    (let s := (tUp.put (.hpt .PBA_WORD) 1 1).put (.hpt .xMSIX_EN) 1 1
     s.live = true ∧ s.flag (.hpt .xMSIX_EN) 1 = true) ∧
    (let s := (tUp.put (.hpt .PBA_WORD) 1 1).put (.hpt .xMSIX_EN) 0 1
     s.live = true ∧ s.flag (.hpt .xMSIX_EN) 1 = false) := by
  refine ⟨?_, ?_, ?_, ?_, ?_, ?_, ?_, ?_, ?_⟩ <;> decide +kernel

/-- What ChkFeeds assumes, clause by clause, can hold. -/
theorem test_wit_ChkFeeds :
    (let s := (tUp.put (.chk .CFG_POLY) 0 1 5).put (.chk .VAL_VAL) 0xFFFFFFFF 1 5
     s.live = true ∧ s.gateOf .ha .chk (some 1) = .pass ∧ s.flag (.chk .CTRL_HELD) 1 5 = false) ∧
    (let s := tUp.put (.chk .CTRL_HELD) 1 1 5
     s.live = true ∧ s.gateOf .ha .chk (some 1) = .pass ∧ s.flag (.chk .CTRL_HELD) 1 5 = true) ∧
    (let s := tUp.put (.chk .CFG_POLY) 3 1 5
     let v : Word := 0xFF00010A#32
     s.live = true ∧ s.gateOf .ha .chk (some 1) = .pass ∧ s.flag (.chk .CTRL_HELD) 1 5 = false ∧ bitOf v.toNat 0 =
       false ∧ s.flag (.chk .CTRL_FINISH) 1 5 = false) ∧
    (let s := tUp.put (.chk .CTRL_FINISH) 1 1 5
     s.live = true ∧ s.gateOf .ha .chk (some 1) = .pass ∧ s.flag (.chk .CTRL_HELD) 1 5 = false ∧ s.flag (.chk
       .CTRL_FINISH) 1 5 = true) ∧
    (let s := (tUp.put (.chk .CTRL_FINISH) 1 1 5).put (.chk .xFIN_AT) (3000000 - 16) 1 5
     let u := s.atNow tNow
     s.live = true ∧ u.safe = false ∧ u.dieUp 1 = true ∧ u.flag (.chk .CTRL_FINISH) 1 5 = true ∧ u.get (.chk .xFIN_AT)
       1 5 + 16 ≤ u.osc) ∧
    (let s := (tUp.put (.chk .CTRL_FINISH) 1 1 5).put (.chk .xFIN_AT) (3000000 - 15) 1 5
     let u := s.atNow tNow
     s.live = true ∧ u.osc < u.get (.chk .xFIN_AT) 1 5 + 16) := by
  refine ⟨?_, ?_, ?_, ?_, ?_, ?_⟩ <;> decide +kernel

/-- What ChkWordIsBytes assumes, clause by clause, can hold. -/
theorem test_wit_ChkWordIsBytes :
    (let s := (tUp.put (.chk .CFG_POLY) 0 1 5).put (.chk .VAL_VAL) 0xFFFFFFFF 1 5
     let v : Word := 0x64636261#32
     s.gateOf .ha .chk (some 1) = .pass ∧ (Instr.chkData .ha 1 5 v).wellFormed = true) := by
  decide +kernel

/-- What OstlerAlu assumes, clause by clause, can hold. -/
theorem test_wit_OstlerAlu :
    (let s := ((tUp.put (.ost .STATUS_STATE) 2 1).put (.ost .xG) (2 ^ 64 - 1) 1 5).put (.ost .xG) 63 1 6
     let r := ostWake 1 s.quiet
     let w : Nano := ⟨0, 7, 5, 6, false, true, 0⟩
     OstlerOn 1 s r ∧ w.flags = true ∧ r.ostB 1 w 0 < 64) ∧
    (let s := (tUp.put (.ost .STATUS_STATE) 2 1).put (.ost .xG) 9 1 5
     let r := ostWake 1 s.quiet
     let w : Nano := ⟨0, 7, 5, 6, true, false, 0⟩
     OstlerOn 1 s r ∧ 64 ≤ r.ostB 1 w 64) ∧
    (let s := ((tUp.put (.ost .STATUS_STATE) 1 1).put (.ost .CLASS_SUSPENDED) 1 1 2).put (.ost .xG) 9 1 5
     let r := ostWake 1 s.quiet
     OstlerOn 1 s r ∧ s.ostRuns 1 = false) ∧
    (let s := tUp.put (.pwr .STATUS_SEASON) 2
     s.ostAwake 1 = false) := by
  unfold OstlerOn
  refine ⟨?_, ?_, ?_, ?_⟩ <;> decide +kernel

/-- What OstlerAccess assumes, clause by clause, can hold. -/
theorem test_wit_OstlerAccess :
    (let s := tUp.put (.ost .STATUS_STATE) 2 1
     let w : Nano := ⟨3, 7, 0, 6, false, false, BitVec.ofNat 64 (2 ^ 35 - 8)⟩
     let r := ostWake 1 s.quiet
     OstlerOn 1 s r ∧ w.func < 4 ∧ inDram 1 (r.ostAddr 1 w) (2 ^ w.func) = true ∧ r.grpLost (r.ostAddr 1 w / 2 ^ 32) =
       false ∧ r.firstPoison (r.ostAddr 1 w / 2 ^ 32) (r.ostAddr 1 w % 2 ^ 32) (2 ^ w.func) = none) ∧
    (let s := (tUp.put (.ost .STATUS_STATE) 2 1).put (.ost .xG) 0x1122334455667788 1 6
     let w : Nano := ⟨3, 7, 0, 6, false, false, BitVec.ofNat 64 (2 ^ 35 - 8)⟩
     let r := ostWake 1 s.quiet
     OstlerOn 1 s r ∧ w.func < 4 ∧ inDram 1 (r.ostAddr 1 w) (2 ^ w.func) = true ∧ r.grpLost (r.ostAddr 1 w / 2 ^ 32) =
       false) ∧
    (let s := tUp.put (.ost .STATUS_STATE) 2 1
     let w : Nano := ⟨2, 7, 0, 6, false, true, BitVec.ofNat 64 (2 ^ 35 - 3)⟩
     let r := ostWake 1 s.quiet
     OstlerOn 1 s r ∧ w.func < 4 ∧ inDram 1 (r.ostAddr 1 w) (2 ^ w.func) = false) ∧
    (let e : FifoEntry := ⟨3, 2 ^ 24 - 1, false, true⟩
     let s := { tUp.put (.ost .STATUS_STATE) 2 1 with fifo := [e] }
     let r := ostWake 1 s.quiet
     OstlerOn 1 s r ∧ r.fifo.find? (fun e => e.tgt == 2 + 1) = some e ∧ e.poison = false ∧ e.data < 2 ^ 24) ∧
    (let s := tUp.put (.ost .STATUS_STATE) 2 1
     let r := ostWake 1 s.quiet
     OstlerOn 1 s r ∧ r.fifo.find? (fun e => e.tgt == 2 + 1) = none) ∧
    (let s := tUp.put (.ost .STATUS_STATE) 2 1
     let r := ostWake 1 s.quiet
     let w : Nano := ⟨0, 7, 0, 6, false, true, 0⟩
     OstlerOn 1 s r ∧ r.fifoLevel (r.ostReg 1 w.srca % 4) < 512) ∧
    (let s := { tUp.put (.ost .STATUS_STATE) 2 1 with fifo := List.replicate 512 ⟨0, 5, false, false⟩ }
     let r := ostWake 1 s.quiet
     let w : Nano := ⟨0, 7, 0, 6, false, true, 0⟩
     OstlerOn 1 s r ∧ 512 ≤ r.fifoLevel (r.ostReg 1 w.srca % 4)) ∧
    (let s := tUp.put (.ost .STATUS_STATE) 2 1
     let r := ostWake 1 s.quiet
     let w : Nano := ⟨0, 7, 0, 6, false, true, 0x101⟩
     OstlerOn 1 s r ∧ findReg (r.ostAddr 1 w) = none ∧ r.ostAddr 1 w ≠ evcAddr 3 0x10) ∧
    (let s := ((tUp.put (.ost .STATUS_STATE) 2 1).put (.ost .xG) 0x00FF0F07 1 6).put (.ost .xG) 0x30004 1 0
     let r := ostWake 1 s.quiet
     let w : Nano := ⟨0, 7, 0, 6, false, true, 0⟩
     OstlerOn 1 s r ∧ r.ostAddr 1 w ≠ evcAddr 3 0x10) ∧
    (let s := ((tUp.put (.ost .STATUS_STATE) 2 1).put (.evc .TGT_CTRL_EN) 1 3).put (.ost .xG) (evcAddr 3 4) 1 0
     let r := ostWake 1 s.quiet
     let w : Nano := ⟨0, 7, 0, 6, false, true, 0⟩
     OstlerOn 1 s r ∧ r.ostAddr 1 w = evcAddr 3 4) ∧
    (let s := tUp.put (.ost .STATUS_STATE) 2 1
     let r := ostWake 1 s.quiet
     let w : Nano := ⟨0, 7, 0, 6, false, true, 0x10000⟩
     OstlerOn 1 s r ∧ r.ostAddr 1 w = 0x10000) ∧
    (let s := tUp.put (.ost .STATUS_STATE) 2 1
     let r := ostWake 1 s.quiet
     let w : Nano := ⟨4, 7, 0, 6, false, true, 0x10000⟩
     let x : Nano := ⟨3, 7, 0, 6, false, true, 0x10000⟩
     OstlerOn 1 s r ∧ r.mcRecent 1 = false ∧ 3 < w.func ∧ x.func < 4) ∧
    (let s := (tUp.put (.ost .STATUS_STATE) 2 1).put (.dmc .GRP_STATUS_MODE) 2 7
     let r := ostWake 1 s.quiet
     let w : Nano := ⟨3, 7, 0, 6, false, false, BitVec.ofNat 64 (2 ^ 35 - 8)⟩
     OstlerOn 1 s r ∧ r.mcRecent 1 = false ∧ inDram 1 (r.ostAddr 1 w) (2 ^ w.func) = true ∧ (r.grpLost (r.ostAddr 1 w
       / 2 ^ 32) = true ∨ (r.firstPoison (r.ostAddr 1 w / 2 ^ 32) (r.ostAddr 1 w % 2 ^ 32) (2 ^ w.func)).isSome = true))
       ∧
    (let e : FifoEntry := ⟨3, 2 ^ 24 - 1, true, false⟩
     let s := { (tUp.put (.ost .STATUS_STATE) 2 1).put (.ost .xG) (evcAddr 3 0x10) 1 0 with fifo := [e] }
     let r := ostWake 1 s.quiet
     let w : Nano := ⟨0, 7, 0, 6, false, false, 0⟩
     OstlerOn 1 s r ∧ r.mcRecent 1 = false ∧ r.fifo.find? (fun e => e.tgt == 2 + 1) = some e ∧ r.ostAddr 1 w = evcAddr
       3 0x10 ∧ bitOf (regRead (ostParty 1) (r.ostAddr 1 w) r).1 24 = true) := by
  unfold OstlerOn
  refine ⟨?_, ?_, ?_, ?_, ?_, ?_, ?_, ?_, ?_, ?_, ?_, ?_, ?_, ?_⟩ <;> decide +kernel

/-- What OstlerNextAddress assumes, clause by clause, can hold. -/
theorem test_wit_OstlerNextAddress :
    (let s := ((tUp.put (.ost .STATUS_STATE) 2 0).put (.ost .xPC) 16383 0).put (.ost .xDEPTH) 7 0
     let n : Fin 1024 := 0x3F
     let r := ostWake 0 s.quiet
     OstlerOn 0 s r ∧ r.get (.ost .xDEPTH) 0 < 8 ∧ (ostCond 0 (n.val / 64) r).1 = some true ∧ r.ostPc 0 = 16383 ∧
       r.get (.ost .xDEPTH) 0 = 7) ∧
    (let s := tUp.put (.ost .STATUS_STATE) 2 0
     let n : Fin 1024 := 0x141
     let r := ostWake 0 s.quiet
     let b := decide ((r.get (.ost .xLC) 0 + 65535) % 65536 ≠ 0)
     OstlerOn 0 s r ∧ n.val / 64 = 5 ∧ (ostCond 0 (n.val / 64) r).1 = some b) ∧
    (let s := tUp.put (.ost .STATUS_STATE) 2 0
     let r := ostWake 0 s.quiet
     OstlerOn 0 s r) ∧
    (let s := (tUp.put (.ost .STATUS_STATE) 2 0).put (.ost .xDEPTH) 8 0
     let r := ostWake 0 s.quiet
     let n : Fin 1024 := 0x300
     OstlerOn 0 s r ∧ 12 ≤ n.val / 64 ∧ r.mcRecent 0 = false ∧ 8 ≤ r.get (.ost .xDEPTH) 0) ∧
    (let s := ((tUp.put (.ost .STATUS_STATE) 2 0).put (.ost .xDEPTH) 8 0).put (.ost .xSTK) 100 0 7
     let r := ostWake 0 s.quiet
     OstlerOn 0 s r ∧ r.get (.ost .xDEPTH) 0 = 8) ∧
    (let s := tUp.put (.ost .STATUS_STATE) 2 0
     let r := ostWake 0 s.quiet
     OstlerOn 0 s r ∧ r.get (.ost .xDEPTH) 0 = 0 ∧ r.mcRecent 0 = false) := by
  unfold OstlerOn
  refine ⟨?_, ?_, ?_, ?_, ?_, ?_⟩ <;> decide +kernel

/-- What OstlerDispatch assumes, clause by clause, can hold. -/
theorem test_wit_OstlerDispatch :
    (let s := ((tUp.put (.ost .STATUS_STATE) 2 1).put (.ost .STATUS_CLASS) 9 1).put (.ost .xPC) 16383 1
     let u := s.atNow tNow
     let r := ostWake 1 u
     s.live = true ∧ u.ostAwake 1 = true ∧ r.ostRuns 1 = true) ∧
    (let s := (((tUp.put (.ost .STATUS_STATE) 2 1).put (.ost .STATUS_CLASS) 9 1).put (.ost .xWDOG_DUE) 1 1).put (.ost
       .xPC) 5 1
     let u := s.atNow tNow
     s.live = true ∧ u.ostAwake 1 = true ∧ u.ostRuns 1 = true ∧ u.mcRecent 1 = false ∧ u.expired (.ost .xWDOG_DUE) 1 =
       true) ∧
    (let s := ((tUp.put (.ost .STATUS_STATE) 2 1).put (.ost .xWDOG_DUE) 1 1).put (.ost .xMC_AT) 2999999 1
     let u := s.atNow tNow
     s.live = true ∧ u.ostAwake 1 = true ∧ u.ostRuns 1 = true ∧ u.mcRecent 1 = true ∧ u.expired (.ost .xWDOG_DUE) 1 =
       true ∧ u.dieHeld 1 = false) ∧
    (let s := (tUp.put (.ost .STATUS_STATE) 2 1).put (.ost .SHED_BUSY_HI) 255 1
     let u := s.atNow tNow
     s.live = true ∧ u.ostAwake 1 = true ∧ u.expired (.ost .xWDOG_DUE) 1 = false ∧ u.get (.ost .SHED_BUSY_HI) 1 = 255
       ∧ u.ostLate 1 2999999 = false) ∧
    (let s := ((tUp.put (.ost .STATUS_STATE) 2 1).put (.ost .SHED_BUSY_HI) 254 1).put (.ost .xITEMS) 1 1 2
     let u := s.atNow tNow
     s.live = true ∧ u.ostAwake 1 = true ∧ u.get (.ost .SHED_BUSY_HI) 1 = 254 ∧ u.ostLate 1 0 = true) ∧
    (let s := ((tUp.put (.ost .STATUS_OVERLOAD) 1 1).put (.ost .STATUS_SHED_LEVEL) 4 1).put (.ost .STATUS_BUSY) 255 1
     let u := s.atNow tNow
     s.live = true ∧ u.ostAwake 1 = true ∧ elapsedNs (u.get (.ost .xOVER_AT) 1) u.osc msNs = true) ∧
    (let s := (tUp.put (.ost .xOVER_AT) 2999999 1).put (.ost .STATUS_STATE) 2 1
     let u := s.atNow tNow
     s.live = true ∧ u.ostAwake 1 = true ∧ elapsedNs (u.get (.ost .xOVER_AT) 1) u.osc msNs = false ∧ u.ostState 1 ≠ 0)
       ∧
    (let s := tUp
     let u := s.atNow tNow
     s.live = true ∧ u.ostAwake 1 = true ∧ u.ostState 1 = 0) ∧
    (let s := tUp.put (.pwr .STATUS_SEASON) 2
     let u := s.atNow tNow
     s.live = true ∧ u.ostAwake 1 = false) := by
  refine ⟨?_, ?_, ?_, ?_, ?_, ?_, ?_, ?_, ?_⟩ <;> decide +kernel

/-- What WriteCountedOnce assumes, clause by clause, can hold. -/
theorem test_wit_WriteCountedOnce :
    (let s := tUp.put (.hpt .ERR_BAD_ACCESS) 65535 0
     let a : Fin 67108864 := 0x30005
     s.live = true ∧ wellFormedWrite a 15 1 = false ∧ Party.ha.port = some 0 ∧ Party.o1.port = none) ∧
    (let s := { tUp with safe := true }
     let i : Instr := .registerWrite .ha 0x40000 1 15 1
     s.live = true ∧ i.writes.isSome = true ∧ (i.writes.all (fun x => s.gateOf x.1 x.2.1 x.2.2 == .ignore)) = true) ∧
    (let s := tUp.put (.mid .BOOT_STEP) 5
     let i : Instr := .registerWrite .ha 0x30004 1 15 1
     s.live = true ∧ i.writes.isSome = true ∧ (i.writes.all (fun x => s.gateOf x.1 x.2.1 x.2.2 == .early)) = true) ∧
    (let s := tUp.put (.hpt .PORT_STATUS_HIR_OK) 0 1
     let i : Instr := .stirrupRelease .hb 3 1
     let j : Instr := .arm .hb 3 1
     s.live = true ∧ i.writes = some (.hb, .hpt, none) ∧ j.writes = some (.hb, .trs, none) ∧ s.gateOf .hb .trs none =
       .unneg) ∧
    (let s := tUp
     s.live = true ∧ s.gateOf .ha .flt none = .pass) ∧
    (let s := { tUp with safe := true }
     s.live = true ∧ gatedCmds.all (fun i => i.writes.isSome) = true) ∧
    (let s := tUp.put (.mid .BOOT_STEP) 5
     s.live = true ∧ gatedCmds.all (fun i => i.writes.isSome) = true) ∧
    (let s := tUp.put (.hpt .PORT_STATUS_HIR_OK) 0 0
     s.live = true ∧ gatedCmds.all (fun i => i.writes.isSome) = true) := by
  refine ⟨?_, ?_, ?_, ?_, ?_, ?_, ?_, ?_⟩ <;> decide +kernel

/-- What CounterPairsLatch assumes, clause by clause, can hold. -/
theorem test_wit_CounterPairsLatch :
    (let s := tUp.put (.evc .CNT) (2 ^ 64 - 1) 0 0
     let a : Fin 67108864 := 0x20240
     s.live = true ∧ (findReg a).any (fun l => l.rd.kind == .lo (.evc .CNT) && l.i == 0 && l.j == 0 && answers .ha a l
       s) = true) ∧
    (let a : Fin 67108864 := 0x20244
     let s := { tUp with store := tUp.store.set (latchKey .ha 0x20240) (7 * 2 ^ 32 + 5) }
     s.live = true ∧ (findReg a).any (fun l => l.rd.kind == .hi (.evc .CNT) && answers .ha a l s) = true) ∧
    (let s := tUp
     let a : Fin 67108864 := 0x30004
     s.live = true ∧ (findReg a).any (fun l => l.rd.kind == .plain && l.rd.reg == .FLT_CFG && answers .ha a l s) =
       true) ∧
    (let s := tUp.put (.flt .STATUS_DIE_DOWN) 2
     let a : Fin 67108864 := 0x2000000
     s.live = true ∧ (findReg a).any (fun l => !answers .ha a l s) = true) ∧
    (Party.ha ≠ Party.o1) := by
  refine ⟨?_, ?_, ?_, ?_, ?_⟩ <;> decide +kernel

/-- What EmptyOffsets assumes, clause by clause, can hold. -/
theorem test_wit_EmptyOffsets :
    (let s := tUp
     let a : Fin 67108864 := 67108860
     s.live = true ∧ findReg a = none ∧ a.val % 4 = 0) ∧
    (let a : Fin 67108864 := 0x100000
     let b : Fin 67108864 := 0xFFFFFC
     let c : Fin 67108864 := 0x3000008
     0x100000 ≤ a.val ∧ a.val < 0x1000000 ∧ 0x100000 ≤ b.val ∧ b.val < 0x1000000 ∧ 0x3000008 ≤ c.val) := by
  refine ⟨?_, ?_⟩ <;> decide +kernel

/-- What Stirrups assumes, clause by clause, can hold. -/
theorem test_wit_Stirrups :
    (let s := (tUp.put (.hpt .xRR) 3 5).put (.hpt .STR_LEASE_MS) 20000 5
     s.live = true ∧ s.get (.hpt .STR_STATUS_OWNER) 5 = 7 ∧ ([Party.ha, .hb].all (fun q => decide ((Party.ha.num + 4 -
       s.get (.hpt .xRR) 5) % 4 ≤ (q.num + 4 - s.get (.hpt .xRR) 5) % 4))) = true) ∧
    (let s := tUp.put (.hpt .STR_STATUS_OWNER) 2 5
     s.live = true ∧ s.get (.hpt .STR_STATUS_OWNER) 5 = 2) ∧
    (let s := (tUp.put (.hpt .STR_STATUS_OWNER) 1 63).put (.hpt .xLEASE_DUE) 3000000 63
     let u := s.atNow tNow
     s.live = true ∧ u.get (.hpt .STR_STATUS_OWNER) 63 ≠ 7 ∧ u.expired (.hpt .xLEASE_DUE) 63 = true ∧ u.inWinter =
       false) ∧
    (let s := (tUp.put (.hpt .STR_STATUS_OWNER) 1 63).put (.hpt .xLEASE_DUE) 3000001 63
     let u := s.atNow tNow
     s.live = true ∧ u.expired (.hpt .xLEASE_DUE) 63 = false) := by
  refine ⟨?_, ?_, ?_, ?_⟩ <;> decide +kernel

/-- What StirrupReleases assumes, clause by clause, can hold. -/
theorem test_wit_StirrupReleases :
    (let s := (tUp.put (.hpt .STR_STATUS_OWNER) 0 9).put (.hpt .STR_STATUS_GEN) 255 9
     let v : Word := 0x00FF0000#32
     s.live = true ∧ s.gateOf .ha .hpt none = .pass ∧ s.gateOf .hb .hpt none = .pass ∧ s.get (.hpt .STR_STATUS_OWNER)
       9 = Party.ha.num ∧ bitsOf v.toNat 16 8 = s.get (.hpt .STR_STATUS_GEN) 9 ∧ s.get (.hpt .STR_STATUS_OWNER) 9 ≠ 7) ∧
    (let s := tUp.put (.hpt .STR_STATUS_OWNER) 0 9
     s.live = true ∧ s.gateOf .hb .hpt none = .pass ∧ s.get (.hpt .STR_STATUS_OWNER) 9 ≠ Party.hb.num) ∧
    (let s := tUp
     s.live = true ∧ s.gateOf .ha .hpt none = .pass ∧ s.get (.hpt .STR_STATUS_OWNER) 9 = 7) := by
  refine ⟨?_, ?_, ?_⟩ <;> decide +kernel

/-- What HostPorts assumes, clause by clause, can hold. -/
theorem test_wit_HostPorts :
    (let s := tUp.put (.mid .STRAP_HB_EN) 1
     s.live = true ∧ s.portEnabled 1 = true) ∧
    (let s := ((tUp.put (.mid .STRAP_HB_EN) 1).put (.hpt .PBA_WORD) 1 1).put (.hpt .MSIX_WORD) 2 1 3
     s.live = true ∧ s.portEnabled 1 = true ∧ retried s = false) ∧
    (let s := (tUp.put (.mid .STRAP_HB_EN) 1).put (.mid .BOOT_STEP) 5
     s.live = true ∧ s.portEnabled 1 = true ∧ retried s = true) ∧
    (let s := tUp.put (.mid .STRAP_HB_EN) 0
     s.live = true ∧ s.portEnabled 1 = false) ∧
    (let s := (tUp.put (.mid .BOOT_STEP) 5).put (.hpt .PORT_STATUS_HIR_OK) 0 1
     let v : Word := 0x1FF#32
     s.live = true ∧ s.gateOf .hb .hpt none = .pass ∧ Party.hb.num = (1 : HostPort).val ∧ 5 ≤ s.get (.mid .BOOT_STEP)
       ∧ bitsOf v.toNat 8 8 = 1) ∧
    (let s := tUp.put (.mid .BOOT_STEP) 4
     s.live = true ∧ s.gateOf .hb .hpt none = .pass ∧ s.gateOf .ha .hpt none = .pass ∧ s.get (.mid .BOOT_STEP) < 5 ∧
       Party.ha.num ≠ (1 : HostPort).val) ∧
    (let s :=
       { ((((tUp.put (.hpt .STR_STATUS_OWNER) 1 9).put (.hpt .STR_STATUS_OWNER) 0 63).put (.hpt .ERR_UNNEG_WRITE) 7 1).put (.dma .Q_CFG_EN) 1 1 31).put (.dma .Q_CFG_OWNER) 1 1 31 with quotes := [⟨1, [], 0⟩, ⟨2, [], 0⟩] }
     s.live = true) := by
  refine ⟨?_, ?_, ?_, ?_, ?_, ?_, ?_⟩ <;> decide +kernel

/-- What Quotes assumes, clause by clause, can hold. -/
theorem test_wit_Quotes :
    (let s := tUp.put (.mid .QUOTE_NONCE_NONCE) 5 1 3
     s.live = true ∧ s.gateOf .hb .mid none = .pass ∧ Party.hb.num = (1 : HostPort).val ∧ s.flag (.mid
       .QUOTE_CTRL_BUSY) 1 = false) ∧
    (let s := { tUp.put (.mid .QUOTE_CTRL_BUSY) 1 0 with quotes := [⟨2, [], 0⟩] }
     s.live = true ∧ s.gateOf .hb .mid none = .pass ∧ s.gateOf .ha .mid none = .pass ∧ s.flag (.mid .QUOTE_CTRL_BUSY)
       0 = true ∧ s.flag (.mid .QUOTE_CTRL_BUSY) 1 = false) ∧
    (let s := tUp.put (.mid .TTH_REV_UP) 1 2
     s.live = true ∧ s.flag (.mid .TTH_REV_UP) 2 = true ∧ s.quotes.any (fun q => q.who == 4) = false) ∧
    (let s := { tUp.put (.mid .TTH_REV_UP) 1 2 with quotes := [⟨4, [], 0⟩] }
     s.live = true ∧ s.quotes.any (fun q => q.who == 4) = true) ∧
    (let s := { tUp with quotes := [⟨1, [1], 7⟩, ⟨2, [], 0⟩] }
     let u := s.atNow tNow
     let q : QuoteReq := ⟨1, [1], 7⟩
     s.live = true ∧ u.quotes = q :: [⟨2, [], 0⟩] ∧ q.who < 2) ∧
    (let s := { tUp with quotes := [⟨4, [1], 7⟩, ⟨0, [], 0⟩] }
     let u := s.atNow tNow
     let q : QuoteReq := ⟨4, [1], 7⟩
     s.live = true ∧ u.quotes = q :: [⟨0, [], 0⟩] ∧ 2 ≤ q.who ∧ u.safe = false) ∧
    (let s := tUp
     let u := s.atNow tNow
     s.live = true ∧ u.quotes = []) := by
  refine ⟨?_, ?_, ?_, ?_, ?_, ?_, ?_⟩ <;> decide +kernel

/-- What ChannelControl assumes, clause by clause, can hold. -/
theorem test_wit_ChannelControl :
    (let s := tDom
     let v : Word := 0xF2FB0#32
     s.live = true ∧ s.gateOf .ha .cch (some 0) = .pass ∧ s.get (.cch .CTRL_HOME_DIE) 47 = 0 ∧ bitsOf v.toNat 1 3 = 0
       ∧ s.flag (.cch .CTRL_START) 47 = false ∧ s.chStarted 47 = false ∧ s.domOn (s.get (.cch .FMT_DOMAIN) 47 0 1) =
       true) ∧
    (let s := tWait 1
     s.live = true ∧ s.gateOf .ha .cch (some 0) = .pass ∧ s.get (.cch .CTRL_HOME_DIE) 0 = 0) ∧
    (let s := tRun 1
     s.live = true ∧ s.gateOf .ha .cch (some 0) = .pass ∧ s.get (.cch .CTRL_HOME_DIE) 0 = 0) ∧
    (let s := tUp
     s.live = true ∧ s.gateOf .ha .cch (some 0) = .pass ∧ s.get (.cch .CTRL_HOME_DIE) 47 = 0 ∧ s.flag (.cch
       .CTRL_START) 47 = false ∧ s.chStarted 47 = false ∧ s.domOn (s.get (.cch .FMT_DOMAIN) 47 0 1) = false ∧ s.flag
       (.cch .CTRL_MOVE_DIE) 47 = false ∧ s.get (.cch .STATUS_STATE) 47 = chSTOPPED) ∧
    (let s := tWait 1
     s.live = true ∧ s.gateOf .ha .cch (some 0) = .pass ∧ s.get (.cch .CTRL_HOME_DIE) 0 = 0 ∧ s.flag (.cch .CTRL_STOP)
       0 = false ∧ s.get (.cch .STATUS_STATE) 0 = chWAITING) ∧
    (let s := (tRun 0).put (.cch .xDONE) ((tRun 0).get (.cch .xPIC) 0) 0
     s.live = true ∧ s.gateOf .ha .cch (some 0) = .pass ∧ s.get (.cch .CTRL_HOME_DIE) 0 = 0 ∧ s.flag (.cch .CTRL_STOP)
       0 = false ∧ s.chStarted 0 = true ∧ s.picsDone 0 = true) ∧
    (let s := tRun 1
     let s3 := (s.put (.mid .TTH_REV_UP) 1 1).put (.mid .xTTH_MOD) 4 1
     s.live = true ∧ s.gateOf .ha .cch (some 0) = .pass ∧ s.get (.cch .CTRL_HOME_DIE) 0 = 0 ∧ s.flag (.cch .CTRL_STOP)
       0 = false ∧ s.get (.cch .STATUS_STATE) 0 = chRUNNING ∧ s.picsDone 0 = false ∧ s.flag (.cch .CTRL_MOVE_DIE) 0 =
       false ∧ s.flag (.cch .CTRL_HANDOVER) 0 = false ∧ s.rasterRuns (s.chDom 0) = true ∧ s3.linkTo (bitsOf
       (48#32).toNat 4 2) = some 1) ∧
    (let s := ((tRun 1).put (.cch .STATUS_STATE) chLEAVING 0).put (.cch .CTRL_MOVE_DIE) 1
     s.live = true ∧ s.gateOf .ha .cch (some 0) = .pass ∧ s.get (.cch .CTRL_HOME_DIE) 0 = 0 ∧ s.flag (.cch .CTRL_STOP)
       0 = false ∧ s.get (.cch .STATUS_STATE) 0 = chLEAVING ∧ s.picsDone 0 = false) ∧
    (let s := tUp
     s.live = true ∧ s.gateOf .ha .cch (some 0) = .pass ∧ s.gateOf .ha .ref (some 0) = .pass ∧ s.get (.cch
       .CTRL_HOME_DIE) 47 = 0) ∧
    (let s := tUp
     s.live = true ∧ s.gateOf .ha .cch (some 1) = .pass ∧ s.gateOf .ha .ref (some 1) = .pass ∧ s.get (.cch
       .CTRL_HOME_DIE) 47 ≠ 1) := by
  refine ⟨?_, ?_, ?_, ?_, ?_, ?_, ?_, ?_, ?_, ?_⟩ <;> decide +kernel

/-- What ChannelStarts assumes, clause by clause, can hold. -/
theorem test_wit_ChannelStarts :
    (let s := tUp
     let u := s.atNow tNow
     s.live = true ∧ mayStart 47 u = false ∧ recordDue 47 u = false ∧ mayFailOver 47 u = false ∧ (u.safe = true ∨
       u.dieUp 0 = false ∨ u.pastUp 7 = false ∨ u.inWinter = true ∨ resumers 0 7 u = [])) ∧
    (let s := tUp.put (.cch .STATUS_STATE) chWAITING 47
     let u := s.atNow tNow
     s.live = true ∧ mayStart 47 u = true ∧ u.domOn (u.get (.cch .FMT_DOMAIN) 47 0 1) = false) ∧
    (let s := (tWait 1).put (.cch .xWAIT) 100000 0
     let u := s.atNow tNow
     s.live = true ∧ mayStart 0 u = true ∧ u.domOn (u.get (.cch .FMT_DOMAIN) 0 0 1) = true ∧ u.atStart 0 = false) ∧
    (let s := (tWait 1).put (.cch .xRESUME) 3 0
     let u := s.atNow tNow
     s.live = true ∧ mayStart 0 u = true ∧ u.domOn (u.get (.cch .FMT_DOMAIN) 0 0 1) = true ∧ u.atStart 0 = true ∧
       u.get (.cch .xRESUME) 0 = 3) ∧
    (let s := tWait 0
     let u := s.atNow tNow
     s.live = true ∧ mayStart 0 u = true ∧ u.domOn (u.get (.cch .FMT_DOMAIN) 0 0 1) = true ∧ u.atStart 0 = true ∧
       u.get (.cch .xRESUME) 0 ≠ 3 ∧ Starts 0 0 240 true u = true) ∧
    (let s := (tWait 1).put (.pwr .GATE_CLUSTERS) 1 0
     let u := s.atNow tNow
     s.live = true ∧ mayStart 0 u = true ∧ u.domOn (u.get (.cch .FMT_DOMAIN) 0 0 1) = true ∧ u.atStart 0 = true ∧
       u.get (.cch .xRESUME) 0 ≠ 3 ∧ Starts 0 0 240 true u = false ∧ Refused 0 0 240 true u = false) ∧
    (let s := [80, 81, 82, 83, 84].foldl (fun s u => s.put (.cus .UNIT_STATE) 3 u) ((tWait 1).put (.cch
       .CTRL_HOME_DIE) 1 0)
     let u := s.atNow tNow
     let s2 := s.put (.cch .CTRL_ALT_DIE) 1 0
     let u2 := s2.atNow tNow
     s.live = true ∧ mayStart 0 u = true ∧ u.domOn (u.get (.cch .FMT_DOMAIN) 0 0 1) = true ∧ u.atStart 0 = true ∧
       u.get (.cch .xRESUME) 0 ≠ 3 ∧ Refused 1 0 240 true u = true ∧ Starts 0 0 240 true u2 = true) ∧
    (let s := (tSmall.put (.mid .xSTART) 1 47).put (.mid .xSTART) 2 46
     let u := s.atNow tNow
     s.live = true ∧ recordDue 47 u = true ∧ recordDue 46 u = true ∧ u.chStarted 47 = false ∧ u.chStarted 46 = false ∧
       u.domOn (u.get (.cch .FMT_DOMAIN) 47 0 1) = true ∧ u.domOn (u.get (.cch .FMT_DOMAIN) 46 0 1) = true) ∧
    (let s := ((tSmall.put (.mid .xSTART) 1 47).put (.cch .STATUS_STATE) chWAITING 47).put (.mid .xSTART) 1 46 |>.put
       (.cch .FMT_DOMAIN) 5 46 0 1
     let u := s.atNow tNow
     s.live = true ∧ recordDue 47 u = true ∧ recordDue 46 u = true ∧ u.chStarted 47 = true ∧ u.chStarted 46 = false ∧
       u.domOn (u.get (.cch .FMT_DOMAIN) 46 0 1) = false) ∧
    (let s := (tChan 1).put (.cch .xRESUME) 1 0
     let u := s.atNow tNow
     s.live = true ∧ u.safe = false ∧ u.dieUp 0 = true ∧ u.pastUp 0 = true ∧ u.inWinter = false ∧ resumers 0 0 u = [0]
       ∧ Starts 0 0 (u.picNow 0) true u = true) ∧
    (let s := (((((tChan 1).put (.cch .xRESUME) 1 0).put (.cch .xRESUME) 1 1).put (.cch .FMT_WORK) 1 1 0 1).put (.cch
       .FMT_WIDTH) 16 1 0 1).put (.cch .xRESUME) 3 2
     let u := s.atNow tNow
     s.live = true ∧ u.safe = false ∧ u.dieUp 0 = true ∧ u.pastUp 0 = true ∧ u.inWinter = false ∧ resumers 0 0 u = [0,
       1]) ∧
    (let s := ((((tChan 1).put (.cch .xRESUME) 2 0).put (.mid .STATUS_DIE_UP) 2).put (.flt .STATUS_DIE_DOWN) 1).put
       (.shp .xMIRROR) 9 0 0
     let u := s.atNow tNow
     let w := reloaded 0 u
     s.live = true ∧ mayFailOver 0 u = true ∧ failsOverLater 0 w (failingOver 0 u) = false ∧ w.failoverDue 0 = true ∧
       u.get (.cch .CTRL_HOME_DIE) 0 = 0 ∧ Starts 1 0 (w.picNow (w.get (.cch .FMT_DOMAIN) 0 0 1)) true w = true) ∧
    (let s := ((((tChan 1).put (.cch .xRESUME) 2 0).put (.cch .xRESUME) 2 1).put (.mid .STATUS_DIE_UP) 2).put (.flt
       .STATUS_DIE_DOWN) 1
     let u := s.atNow tNow
     let w := reloaded 1 u
     s.live = true ∧ mayFailOver 1 u = true ∧ failsOverLater 1 w (failingOver 1 u) = true) ∧
    (let s := [80, 81, 82, 83, 84].foldl (fun s u => s.put (.cus .UNIT_STATE) 3 u) ((((tChan 1).put (.cch .xRESUME) 2
       0).put (.mid .STATUS_DIE_UP) 2).put (.flt .STATUS_DIE_DOWN) 1)
     let u := s.atNow tNow
     let w := reloaded 0 u
     s.live = true ∧ mayFailOver 0 u = true ∧ failsOverLater 0 w (failingOver 0 u) = false ∧ w.failoverDue 0 = true ∧
       u.get (.cch .CTRL_HOME_DIE) 0 = 0 ∧ Refused 1 0 (w.picNow (w.get (.cch .FMT_DOMAIN) 0 0 1)) true w = true) := by
  refine ⟨?_, ?_, ?_, ?_, ?_, ?_, ?_, ?_, ?_, ?_, ?_, ?_, ?_, ?_⟩ <;> decide +kernel

/-- What Handovers assumes, clause by clause, can hold. -/
theorem test_wit_Handovers :
    (let s := (tChan 1).put (.mid .TTH_REV_UP) 1 2
     let u := s.atNow tNow
     let o : Offer := ⟨0, (tChan 1).offerBank 0, 7, 1000, 0⟩
     s.live = true ∧ u.safe = false ∧ u.flag (.mid .TTH_REV_UP) 2 = true ∧ o.ch < 48 ∧ offerTaken o u = true) ∧
    (let s := tUp.put (.mid .TTH_REV_UP) 1 2
     let u := s.atNow tNow
     let o : Offer := ⟨47, [], 7, 1000, 0⟩
     s.live = true ∧ u.safe = false ∧ u.flag (.mid .TTH_REV_UP) 2 = true ∧ o.ch < 48 ∧ offerTaken o u = false ∧ u.flag
       (.mid .TTH_REV_UP) 1 = false) ∧
    (let s := ((tRun 1).put (.cch .xHO) 1 0).put (.cch .STATUS_STATE) chLEAVING 0
     let s2 := s.put (.cch .xHO_DUE) 1 0
     let u := s.atNow tNow
     let u2 := s2.atNow tNow
     s.live = true ∧ u.safe = false ∧ u.get (.cch .xHO) 0 = 1 ∧ u.get (.cch .STATUS_STATE) 0 = chLEAVING ∧ u2.expired
       (.cch .xHO_DUE) 0 = true) ∧
    (let s := (tRun 1).put (.cch .xHO) 2
     let u := s.atNow tNow
     s.live = true ∧ u.get (.cch .xHO) 0 ≠ 1) ∧
    (let s := (((tRun 1).put (.cch .xHO) 2 0).put (.cch .xHO_FLOW) 1 0).put (.cch .xHO_PIC) 240 0
     let u := s.atNow tNow
     s.live = true ∧ handoverDue 0 u = true ∧ u.get (.cch .xHO) 0 = 2 ∧ u.dieUp (u.get (.cch .CTRL_HOME_DIE) 0) = true
       ∧ u.picsDone 0 = false) ∧
    (let s := (((tRun 1).put (.cch .xHO) 2 0).put (.cch .xHO_FLOW) 1 0).put (.cch .xDONE) ((tRun 1).get (.cch .xPIC)
       0) 0
     let u := s.atNow tNow
     s.live = true ∧ handoverDue 0 u = true ∧ u.get (.cch .xHO) 0 = 2 ∧ u.dieUp (u.get (.cch .CTRL_HOME_DIE) 0) = true
       ∧ u.picsDone 0 = true) ∧
    (let s := ((((tSmall.put (.cch .xHO) 2 0).put (.cch .xHO_FLOW) 1 0).put (.mid .STATUS_DIE_UP) 2).put (.flt
       .STATUS_DIE_DOWN) 1).put (.shp .xMIRROR) 9 0 0
     let u := s.atNow tNow
     s.live = true ∧ handoverDue 0 u = true ∧ u.get (.cch .xHO) 0 = 2 ∧ u.dieUp (u.get (.cch .CTRL_HOME_DIE) 0) =
       false) ∧
    (let s := ((tChan 1).put (.cch .xHO) 3 0).put (.cch .xHO_PIC) 240 0
     let u := s.atNow tNow
     let d := u.get (.cch .CTRL_HOME_DIE) 0
     let n := u.picNow (u.get (.cch .xHO_DOM) 0)
     let v := u.put (.cch .xHO) 0 0
     s.live = true ∧ handoverDue 0 u = true ∧ u.get (.cch .xHO) 0 = 3 ∧ u.get (.cch .STATUS_STATE) 0 = chSTOPPED ∧
       u.dieUp d = true ∧ Starts d 0 n true v = true) ∧
    (let s := ((((tSmall.put (.cch .xHO) 3 0).put (.cch .xHO_FLOW) 1 0).put (.mid .STATUS_DIE_UP) 2).put (.flt
       .STATUS_DIE_DOWN) 1)
     let u := s.atNow tNow
     s.live = true ∧ handoverDue 0 u = true ∧ u.get (.cch .xHO) 0 = 3 ∧ u.get (.cch .STATUS_STATE) 0 = chSTOPPED ∧
       u.dieUp (u.get (.cch .CTRL_HOME_DIE) 0) = false) ∧
    (let s := tRun 1
     let u := s.atNow tNow
     s.live = true ∧ u.get (.cch .xHO) 0 ≠ 2 ∧ u.get (.cch .xHO) 0 ≠ 3) ∧
    (let s := (((tUp.put (.cch .STATUS_STATE) chRUNNING 47).put (.cch .TIME_TILE_GRP) 63 47 0 1).put (.mid
       .TTH_REV_UP) 1 2)
     s.live = true ∧ s.safe = false ∧ s.flag (.mid .TTH_REV_UP) 2 = true ∧ 63 ≠ 0) ∧
    (let s := tUp
     s.live = true ∧ (s.flag (.mid .TTH_REV_UP) 2 = false ∨ tilesOff 63 12345 s = [])) := by
  refine ⟨?_, ?_, ?_, ?_, ?_, ?_, ?_, ?_, ?_, ?_, ?_, ?_⟩ <;> decide +kernel

/-- What Pictures assumes, clause by clause, can hold. -/
theorem test_wit_Pictures :
    (let s := tUp
     let u := s.atNow tNow
     s.live = true ∧ u.chRuns 0 = false ∧ moveDue 0 u = false) ∧
    (let s := ((tRun 1).put (.cch .xSTOP) 1 0).put (.cch .xDONE) ((tRun 1).get (.cch .xPIC) 0) 0
     let u := s.atNow tNext
     s.live = true ∧ u.chRuns 0 = true ∧ u.newPic 0 = some 241 ∧ u.leaves 0 241 = false ∧ u.get (.cch .xSTOP) 0 ≠ 0 ∧
       u.picsDone 0 = true) ∧
    (let s := (tRun 1).put (.cch .xSTOP) 1 0
     let u := s.atNow tNext
     s.live = true ∧ u.chRuns 0 = true ∧ u.newPic 0 = some 241 ∧ u.leaves 0 241 = false ∧ u.get (.cch .xSTOP) 0 ≠ 0 ∧
       u.picsDone 0 = false) ∧
    (let s := tRun 0
     let u := s.atNow tNext
     s.live = true ∧ u.chRuns 0 = true ∧ u.newPic 0 = some 241 ∧ u.leaves 0 241 = false ∧ u.get (.cch .xSTOP) 0 = 0 ∧
       u.mustRestart 0 = false ∧ u.flag (.cch .xREPLAN) 0 = false) ∧
    (let s := (tRun 0).put (.cch .xREPLAN) 1
     let u := s.atNow tNext
     s.live = true ∧ u.chRuns 0 = true ∧ u.newPic 0 = some 241 ∧ u.leaves 0 241 = false ∧ u.get (.cch .xSTOP) 0 = 0 ∧
       u.mustRestart 0 = false ∧ u.flag (.cch .xREPLAN) 0 = true) ∧
    (let s := (tRun 0).put (.cch .FMT_WIDTH) 32 0 0 1
     let u := s.atNow tNext
     s.live = true ∧ u.chRuns 0 = true ∧ u.newPic 0 = some 241 ∧ u.leaves 0 241 = false ∧ u.get (.cch .xSTOP) 0 = 0 ∧
       u.mustRestart 0 = true ∧ Starts 0 0 241 false u = true) ∧
    (let s := (tRun 0).put (.cch .FMT_WIDTH) 8 0 0 1
     let u := s.atNow tNext
     s.live = true ∧ u.chRuns 0 = true ∧ u.newPic 0 = some 241 ∧ u.leaves 0 241 = false ∧ u.get (.cch .xSTOP) 0 = 0 ∧
       u.mustRestart 0 = true ∧ Refused 0 0 241 false u = true) ∧
    (let s := (((tRun 1).put (.cch .FMT_WIDTH) 32 0 0 1).put (.cch .TIME_TILE_GRP) 5 0 0 1).put (.cch .STATUS_STATE) 2
       1 |>.put (.cch .TIME_TILE_GRP) 5 1 0 1
     let u := s.atNow tNext
     s.live = true ∧ u.chRuns 0 = true ∧ u.newPic 0 = some 241 ∧ u.leaves 0 241 = false ∧ u.get (.cch .xSTOP) 0 = 0 ∧
       u.mustRestart 0 = true ∧ Refused 0 0 241 false u = true) ∧
    (let s := ((tRun 0).put (.cch .xMOVE_AT) 1 0).put (.cch .STATUS_STATE) chLEAVING 0
     let u := s.atNow tNext
     s.live = true ∧ u.chRuns 0 = true ∧ u.newPic 0 = some 241 ∧ u.leaves 0 241 = true ∧ moveDue 0 u = true ∧ u.get
       (.cch .CTRL_HOME_DIE) 0 = 0 ∧ u.dieUp 1 = true ∧ Starts 1 0 241 false u = true) ∧
    (let s := ((((tRun 1).put (.cch .xMOVE_AT) 1 0).put (.cch .STATUS_STATE) chLEAVING 0).put (.mid .STATUS_DIE_UP)
       1).put (.flt .STATUS_DIE_DOWN) 2
     let u := s.atNow tNext
     s.live = true ∧ u.chRuns 0 = true ∧ u.newPic 0 = some 241 ∧ moveDue 0 u = true ∧ u.get (.cch .CTRL_HOME_DIE) 0 =
       0 ∧ u.dieUp 1 = false ∧ u.mustRestart 0 = false ∧ u.flag (.cch .xREPLAN) 0 = false) ∧
    (let s := tRun 0
     let u := s.atNow tLater
     s.live = true ∧ u.chRuns 0 = true ∧ u.rowPic 0 0 = some 240 ∧ u.chDecodes 0 = false ∧ u.get (.cch .xROW) 0 0 (240
       % 2) = 0) ∧
    (let s := tRun 1
     let u := s.atNow tLater
     let w := commitAllLate 0 u
     s.live = true ∧ u.chRuns 0 = true ∧ u.chDecodes 0 = true ∧ w.rowPic 0 0 = some 240 ∧ w.get (.cch .xROW) 0 0 (240
       % 2) = 0 ∧ w.mayWork 0 240 = true) ∧
    (let s := ((tRun 1).put (.cch .xSTR) 1 0 0 0).put (.cch .xROW) 1
     let u := s.atNow tLater
     let w := commitAllLate 0 u
     s.live = true ∧ u.chRuns 0 = true ∧ u.chDecodes 0 = true ∧ w.rowPic 0 0 = some 240 ∧ w.strSt 0 240 0 0 = 1 ∧
       (w.decUnit 0 240 0 0).isSome = true) ∧
    (let s := tRun 1
     let u := s.atNow tLater
     let w := commitAllLate 0 u
     s.live = true ∧ u.chRuns 0 = true ∧ u.chDecodes 0 = true ∧ w.rowPic 0 0 = some 240 ∧ w.strSt 0 240 0 0 ≠ 1) := by
  refine ⟨?_, ?_, ?_, ?_, ?_, ?_, ?_, ?_, ?_, ?_, ?_, ?_, ?_, ?_⟩ <;> decide +kernel

/-- What RefreshAndModel assumes, clause by clause, can hold. -/
theorem test_wit_RefreshAndModel :
    (let s := tRun 1
     let u := s.atNow tNow
     s.live = true ∧ requestDue 0 u = false ∧ u.flag (.qrc .xMODEL) 0 = false) ∧
    (let s := ((((tRun 1).put (.ref .xHOLD) 1 0).put (.ref .xCOL_R) 2 0).put (.ref .xCOL_PIC) 70000 0).put (.cch
       .RTP_FB_EN) 1 0 0 ((tRun 1).chBank 0)
     let u := s.atNow tNow
     s.live = true ∧ requestDue 0 u = true) ∧
    (let s := (tRun 0).put (.cch .RTP_FB_EN) 1 0 0 ((tRun 0).chBank 0)
     let u := s.atNow tNow
     let b : List Byte := [0x82, 204, 0, 5, 0, 0, 0, 0, 0x45, 0x4C, 0x43, 0x42, 0, 0, 0, 0, 0, 0, 0, 0, 0, 0, 0, 0]
     let c : List Byte := [0x82, 204, 0, 5, 0, 0, 0, 0, 0x45, 0x4C, 0x43, 0x42, 0, 0, 0, 1, 0, 0, 0, 0, 0, 0, 0, 0]
     let e : List Byte := [0x81, 204, 0, 5, 0, 0, 0, 0, 0x45, 0x4C, 0x43, 0x42, 0, 0, 0, 0, 0, 0, 0, 255, 0, 0, 0, 0]
     s.live = true ∧ u.chRuns 0 = true ∧ u.chWork 0 = 0 ∧ bitOf (u.chGet (.cch .RTP_FB_EN) 0) 0 = true ∧ isRequest b =
       true ∧ isRequest c = true ∧ isRequest e = true ∧ beAt b 12 4 = u.chGet (.cch .SSRC_SSRC) 0 ∧ u.get (.qrc .xFULL)
       0 = 0 ∧ beAt c 12 4 ≠ u.chGet (.cch .SSRC_SSRC) 0) ∧
    (let s := ((tRun 0).put (.cch .RTP_FB_EN) 1 0 0 ((tRun 0).chBank 0)).put (.qrc .xFULL) 241
     let u := s.atNow tNow
     let b : List Byte := [0x82, 204, 0, 5, 0, 0, 0, 0, 0x45, 0x4C, 0x43, 0x42, 0, 0, 0, 0, 0, 0, 0, 0, 0, 0, 0, 0]
     let n := servedIn 0 u
     s.live = true ∧ u.chRuns 0 = true ∧ u.chWork 0 = 0 ∧ bitOf (u.chGet (.cch .RTP_FB_EN) 0) 0 = true ∧ isRequest b =
       true ∧ beAt b 12 4 = u.chGet (.cch .SSRC_SSRC) 0 ∧ u.get (.qrc .xFULL) 0 ≠ 0 ∧ u.get (.qrc .xFULL) 0 - 1 < n ∧ n
       ≤ u.get (.qrc .xFULL) 0 - 1 + clampTo 1 255 (u.chGet (.cch .FB_FULL_HOLD) 0)) ∧
    (let s := ((((((tUp.put (.qrc .xMODEL) 1 47).put (.qrc .xM_N) 16 47 7 2).put (.qrc .xM_B) 1600 47 7 2).put (.qrc
       .xM_N) 15 47 0 2).put (.qrc .xM_Q) 2000 47 7 2).put (.qrc .xT_N) 31 47 0 2).put (.qrc .xT_B) 5000 47 0 2
     let u := s.atNow tNow
     s.live = true ∧ u.safe = false ∧ u.dieUp (u.get (.cch .CTRL_HOME_DIE) 47) = true ∧ u.flag (.qrc .xMODEL) 47 =
       true ∧ u.get (.qrc .xM_N) 47 0 2 < 16 ∧ 16 ≤ u.get (.qrc .xM_N) 47 7 2 ∧ u.get (.qrc .xT_N) 47 0 2 ≠ 0) := by
  refine ⟨?_, ?_, ?_, ?_, ?_⟩ <;> decide +kernel

/-- What CommitPoint assumes, clause by clause, can hold. -/
theorem test_wit_CommitPoint :
    (let s := (((tRun 0).put (.cch .xROW) 1).put (.ref .xH_OK) 1).put (.ref .xHDR)
       0xe1c010100000100010000000f000000000000000000000000000000000a086c1
     let u := s.atNow tLater
     s.live = true ∧ u.chRuns 0 = true ∧ u.rowPic 0 0 = some 240 ∧ u.chDecodes 0 = false ∧ slotDue 0 240 0 0 u = true
       ∧ ((u.picWork 0 240).hevc = true ∨ ((openWork 0 240 u).hdrOf 0 240).isSome = true)) ∧
    (let s := ((((tRun 0).put (.cch .xROW) 1).put (.ref .xH_OK) 1).put (.ref .xHDR)
       0xe1c010100000100010000000f000000000000000000000000000000000a086c1).put (.cus .UNIT_STATE) 3 0
     let u := s.atNow tLater
     s.live = true ∧ u.chRuns 0 = true ∧ u.rowPic 0 0 = some 240 ∧ u.chDecodes 0 = false ∧ slotDue 0 240 0 0 u = true
       ∧ ((u.picWork 0 240).hevc = true ∨ ((openWork 0 240 u).hdrOf 0 240).isSome = true) ∧ unitFree 0 240 0 u = false)
       ∧
    (let s := tRun 0
     let u := s.atNow tLater
     s.live = true ∧ u.chRuns 0 = true ∧ u.rowPic 0 0 = some 240 ∧ u.chDecodes 0 = false ∧ slotDue 0 240 0 0 u =
       false) ∧
    (let s := tUp
     let u := s.atNow tLater
     s.live = true ∧ (u.chRuns 3 = false ∨ u.rowPic 3 5 = none)) ∧
    (let s := (((tRun 1).put (.cch .xSTR) 1 0 0 0).put (.cch .xROW) 1).put (.cus .UNIT_STATE) 3 0
     let u := s.atNow tLater
     let k := (u.rexUnit 0 240 0).getD 0
     s.live = true ∧ u.chRuns 0 = true ∧ u.rowPic 0 0 = some 240 ∧ u.chDecodes 0 = true ∧ unitGone 0 240 0 0 u = true
       ∧ u.ticksNow (u.picWork 0 240).dom + u.strTicks 0 240 0 ≤ u.rowTicks 0 240 0 + (u.picWork 0 240).decTicks ∧
       u.rexUnit 0 240 0 = some k) ∧
    (let s := ((((((tRun 1).put (.cch .xSTR) 1 0 0 0).put (.cch .xROW) 1).put (.cus .UNIT_STATE) 3 0).put (.cus
       .UNIT_STATE) 3 1).put (.cus .UNIT_STATE) 3 2).put (.cus .UNIT_STATE) 3 3
     let s := s.put (.cus .UNIT_STATE) 3 4
     let s := (List.range 80).foldl (fun s k => s.put (.cus .UNIT_STATE) 3 k) s
     let u := s.atNow tLater
     s.live = true ∧ u.chRuns 0 = true ∧ u.rowPic 0 0 = some 240 ∧ u.chDecodes 0 = true ∧ unitGone 0 240 0 0 u = true
       ∧ (u.rowTicks 0 240 0 + (u.picWork 0 240).decTicks < u.ticksNow (u.picWork 0 240).dom + u.strTicks 0 240 0 ∨
       u.rexUnit 0 240 0 = none)) ∧
    (let s := ((tRun 1).put (.cch .xSTR) 1 0 0 0).put (.cch .xROW) 1
     let u := s.atNow tLater
     s.live = true ∧ u.chRuns 0 = true ∧ u.rowPic 0 0 = some 240 ∧ u.chDecodes 0 = true ∧ unitGone 0 240 0 0 u =
       false) ∧
    (let s := tRun 1
     let u := s.atNow tLater
     s.live = true ∧ (u.chRuns 0 = false ∨ u.chDecodes 0 = true ∨ u.workPic 0 0 = none)) ∧
    (let s := ((tRun 0).put (.cch .xROW) 1 0 0 0).put (.cch .xSTR) 1 0 0 0
     let u := s.atNow tLater
     s.live = true ∧ u.chRuns 0 = true ∧ u.chDecodes 0 = false ∧ u.workPic 0 0 = some 240 ∧ u.strSt 0 240 0 0 = 1 ∧ 0
       = checkAt 0 240 0 0 u ∧ u.blockOk 0 240 0 0 0 [] = true ∧ 0 + 1 < (u.strBlocks 0 240 0 0).length) ∧
    (let s := ((tRun 0).put (.cch .xROW) 1 0 0 0).put (.cch .xSTR) 1 0 0 0
     let u := s.atNow tLater
     let f : List SmpFlip := [⟨0, 1, 1, 3⟩]
     s.live = true ∧ u.chRuns 0 = true ∧ u.chDecodes 0 = false ∧ u.workPic 0 0 = some 240 ∧ u.strSt 0 240 0 0 = 1 ∧ 0
       = checkAt 0 240 0 0 u ∧ u.blockOk 0 240 0 0 0 f = false) ∧
    (let s := (((tRun 0).put (.cch .xROW) 1 0 0 0).put (.cch .xSTR) 1 0 0 0).put (.cch .xCHKD) 1 0 0 0
     let u := s.atNow tLater
     s.live = true ∧ u.chRuns 0 = true ∧ u.chDecodes 0 = false ∧ u.workPic 0 0 = some 240 ∧ u.strSt 0 240 0 0 = 1 ∧ 1
       = checkAt 0 240 0 0 u ∧ u.blockOk 0 240 0 0 1 [] = true ∧ (u.strBlocks 0 240 0 0).length ≤ 1 + 1) ∧
    (let s := (((tRun 0).put (.cch .xROW) 1 0 0 0).put (.cch .xSTR) 3 0 0 0).put (.cch .xRX) 2 0 0 0
     let u := s.atNow tLater
     s.live = true ∧ u.chRuns 0 = true ∧ u.chDecodes 0 = false ∧ u.workPic 0 0 = some 240 ∧ u.strSt 0 240 0 0 = 3 ∧
       u.get (.cch .xRX) 0 (strIx 0 0) (240 % 2) = 1 + 1 ∧ ((List.range (u.strBlocks 0 240 0 0).length).all (fun b =>
       u.blockOk 0 240 0 0 b [])) = true) ∧
    (let s := (((tRun 0).put (.cch .xROW) 1 0 0 0).put (.cch .xSTR) 3 0 0 0).put (.cch .xRX) 2 0 0 0
     let u := s.atNow tLater
     let f : List SmpFlip := [⟨0, 1, 1, 3⟩]
     s.live = true ∧ u.chRuns 0 = true ∧ u.chDecodes 0 = false ∧ u.workPic 0 0 = some 240 ∧ u.strSt 0 240 0 0 = 3 ∧
       u.get (.cch .xRX) 0 (strIx 0 0) (240 % 2) = 1 + 1 ∧ ((List.range (u.strBlocks 0 240 0 0).length).all (fun b =>
       u.blockOk 0 240 0 0 b f)) = false) ∧
    (let s := (tRun 0).put (.cch .xROW) 1 0 0 0
     let u := s.atNow tLater
     s.live = true ∧ u.chRuns 0 = true ∧ u.chDecodes 0 = false ∧ u.workPic 0 0 = some 240 ∧ (u.strSt 0 240 0 0 ≠ 3 ∨
       u.get (.cch .xRX) 0 (strIx 0 0) (240 % 2) = 0) ∧ withholdDue 0 240 0 0 u = false) ∧
    (let s := (tRun 0).put (.cch .xROW) 1 0 0 0
     let n : Now := ⟨3000000 + 300000000, 10200000000 * 65536⟩
     let u := s.atNow n
     s.live = true ∧ u.chRuns 0 = true ∧ u.chDecodes 0 = false ∧ u.workPic 0 0 = some 240 ∧ withholdDue 0 240 0 0 u =
       true) := by
  refine ⟨?_, ?_, ?_, ?_, ?_, ?_, ?_, ?_, ?_, ?_, ?_, ?_, ?_, ?_, ?_⟩ <;> decide +kernel

/-- What UnitFailures assumes, clause by clause, can hold. -/
theorem test_wit_UnitFailures :
    (let s := tUp
     s.live = true ∧ s.gateOf .ha .cus (some (unitDie 159)) = .pass ∧ s.unitSt 159 ≠ 3) ∧
    (let s := ((((tRun 0).put (.cch .xROW) 1 0 0 0).put (.cch .xSTR) 1 0 0 0).put (.cus .CLUSTER_SPARE) 4 0).put (.cus
       .UNIT_STATE) 0 4
     s.live = true ∧ s.gateOf .ha .cus (some (unitDie 0)) = .pass ∧ s.unitSt 0 ≠ 3 ∧ anyOn 0 (fun _ => true) (fun j =>
       j == 0) s = true) ∧
    (let s := ((((tRun 1).put (.cch .xROW) 1 0 0 0).put (.cch .xSTR) 1 0 0 0).put (.cus .CLUSTER_SPARE) 4 0).put (.cus
       .UNIT_STATE) 0 4
     s.live = true ∧ s.gateOf .ha .cus (some (unitDie 0)) = .pass ∧ s.unitSt 0 ≠ 3 ∧ anyOn 0 (fun _ => true) (fun j =>
       j == 0) s = true) ∧
    (let s := tUp.put (.cus .UNIT_STATE) 3 159
     s.live = true ∧ s.gateOf .ha .cus (some (unitDie 159)) = .pass ∧ s.unitSt 159 = 3) ∧
    (let s := ((((tSmall.put (.cus .CFG_RETIRE_WIN) 0 1).put (.cus .xFAIL_AT) 240 159).put (.cus .UNIT_FAILS) 3
       159).put (.cus .xFAIL_DOM) 0 159)
     let u := s.atNow tNow
     s.live = true ∧ u.get (.cus .xFAIL_AT) 159 ≠ 0 ∧ u.get (.cus .xFAIL_AT) 159 - 1 + u.retireWin (unitDie 159) ≤
       u.picNow (u.get (.cus .xFAIL_DOM) 159)) ∧
    (let s := tSmall
     let u := s.atNow tNow
     s.live = true ∧ (u.get (.cus .xFAIL_AT) 159 = 0 ∨ u.picNow (u.get (.cus .xFAIL_DOM) 159) < u.get (.cus .xFAIL_AT)
       159 - 1 + u.retireWin (unitDie 159))) ∧
    (let s := ((tRun 0).put (.cch .xROW) 1 0 0 0).put (.cch .xSTR) 1 0 0 0
     let u := s.atNow tLater
     s.live = true ∧ u.safe = false ∧ u.dieUp (unitDie 0) = true ∧ u.waitedOut (.cus .STALL_TO_UNIT) (unitDie 0) 5 100
       10000 1 = true ∧ anyOn (unitDie 0) (fun _ => true) (fun j => j == 0) u = true) ∧
    (let s := ((tRun 1).put (.cch .xROW) 1 0 0 0).put (.cch .xSTR) 1 0 0 0
     let u := s.atNow tLater
     s.live = true ∧ u.safe = false ∧ u.dieUp (unitDie 0) = true ∧ u.waitedOut (.cus .STALL_TO_UNIT) (unitDie 0) 5 100
       10000 1 = true ∧ anyOn (unitDie 0) (fun _ => true) (fun j => j == 0) u = true) ∧
    (let s := tRun 0
     let u := s.atNow tLater
     s.live = true ∧ (u.safe = true ∨ u.dieUp (unitDie 3) = false ∨ u.waitedOut (.cus .STALL_TO_UNIT) (unitDie 3)
       tLater.osc 100 10000 1 = false ∨ anyOn (unitDie 3) (fun _ => true) (fun j => j == 3) u = false)) ∧
    (let s := (tUp.put (.cus .CLUSTER_SHADOW_OK) 1 31).put (.cus .CLUSTER_CABAC_OK) 1 31
     let w := s.atNow tNow
     s.live = true ∧ w.safe = false ∧ w.dieUp (31 / 16) = true ∧ w.waitedOut (.cus .STALL_TO_CLUSTER) (31 / 16) 5 100
       10000 1 = true ∧ w.flag (.cus .CLUSTER_SHADOW_OK) 31 = true ∧ w.flag (.cus .CLUSTER_CABAC_OK) 31 = true ∧
       w.waitedOut (.cus .STALL_TO_CLUSTER) (31 / 16) tNow.osc 100 10000 1 = false) ∧
    (let s := (((tRun 0).put (.cch .xROW) 1 0 0 0).put (.cch .xSTR) 1 0 0 0).put (.cus .CLUSTER_SHADOW_OK) 1 0
     let w := s.atNow tLater
     s.live = true ∧ w.safe = false ∧ w.dieUp 0 = true ∧ w.waitedOut (.cus .STALL_TO_CLUSTER) (0 / 16) 5 100 10000 1 =
       true ∧ w.flag (.cus .CLUSTER_SHADOW_OK) 0 = true) ∧
    (let s := ((tRun 0).put (.cch .xROW) 1 0 0 0).put (.cch .xSTR) 1 0 0 0
     let w := s.atNow tLater
     s.live = true ∧ w.safe = false ∧ w.dieUp 0 = true) ∧
    (let s := ((tRun 1).put (.cch .xROW) 1 0 0 0).put (.cch .xSTR) 1 0 0 0
     let w := s.atNow tLater
     s.live = true ∧ w.safe = false ∧ w.dieUp 0 = true) ∧
    (let s := tUp.put (.mid .STATUS_DIE_UP) 1
     let w := s.atNow tLater
     s.live = true ∧ w.safe = false ∧ w.dieUp 1 = false) ∧
    (let s := (tUp.put (.cus .xSLOTS) 1 158).put (.cus .CLUSTER_SPARE) 4 31
     let u := s.atNow tNow
     s.live = true ∧ u.safe = false ∧ u.dieUp (31 / 16) = true ∧ waitingUnit 31 u = some 3 ∧ idleSpare 31 u = true) ∧
    (let s := ((tRun 0).put (.cus .xSLOTS) 1 0).put (.cus .CLUSTER_SPARE) 4 0
     let s := (s.put (.cus .UNIT_STATE) 0 4).put (.cus .UNIT_STATE) 3 0
     let u := s.atNow tNow
     s.live = true ∧ u.safe = false ∧ u.dieUp (0 / 16) = true ∧ waitingUnit 0 u = some 0 ∧ idleSpare 0 u = true) ∧
    (let s := tUp
     let u := s.atNow tNow
     s.live = true ∧ (u.safe = true ∨ u.dieUp (31 / 16) = false ∨ waitingUnit 31 u = none ∨ idleSpare 31 u = false))
       := by
  refine ⟨?_, ?_, ?_, ?_, ?_, ?_, ?_, ?_, ?_, ?_, ?_, ?_, ?_, ?_, ?_, ?_, ?_⟩ <;> decide +kernel

/-- What EgressOrder assumes, clause by clause, can hold. -/
theorem test_wit_EgressOrder :
    (let c : Copy := ⟨7, 1, 15, 0, none, false, true, false, 5, 47, 0, 3, 2, false, false, 0, 0, 0⟩
     let x : Cross := { tCross [] with raster := true, due := false, relAt := 5, ch := 47, row := 3, ix := 2 }
     let s := { tTb tbLOCKED with copies := [c], cross := [x] }
     let u := s.atNow tNow
     let w := if (u.chRuns 47 && u.chDecodes 47) then commitAllLate 47 u else u
     s.live = true ∧ u.txStopped = false ∧ u.tbState ≠ tbFREE ∧ w.txStopped = false ∧ w.tbState ≠ tbFREE) ∧
    (let s := tRun 1
     let u := s.atNow tLater
     let w := if (u.chRuns 0 && u.chDecodes 0) then commitAllLate 0 u else u
     s.live = true ∧ u.txStopped = false ∧ w.txStopped = false ∧ w.tbState ≠ tbFREE ∧ u.chRuns 0 = true ∧ u.chDecodes
       0 = true) ∧
    (let c : Copy := ⟨7, 1, 15, 0, none, false, true, false, 5, 47, 0, 3, 2, false, false, 0, 0, 0⟩
     let s := { tTb tbFREE with copies := [c] }
     let u := s.atNow tNow
     let w := if (u.chRuns 47 && u.chDecodes 47) then commitAllLate 47 u else u
     s.live = true ∧ (u.txStopped = true ∨ u.tbState = tbFREE) ∧ (w.txStopped = true ∨ w.tbState = tbFREE)) ∧
    (let c : Copy := ⟨7, 1, 15, 0, none, false, true, true, 5, 47, 0, 3, 2, false, false, 0, 0, 0⟩
     let x : Chain := tFrame 7 1 (List.replicate 60 0)
     let s :=
       { ((tUp.put (.prs .PORT_CFG_MODE) 2 1 1).put (.prs .PORT_CFG_EN) 15 1 1).put (.prs .PORT_CFG_LINK_UP) 15 1 1 with copies := [c], chains := [x] }
     let u := s.atNow tNow
     s.live = true ∧ nextCopy 15 u = some c ∧ u.chain? c.chain = some x) ∧
    (let c : Copy := ⟨7, 1, 15, 3, none, false, false, false, 5, 47, 0, 3, 2, false, false, 0, 0, 0⟩
     let d : Copy := ⟨8, 1, 15, 2, none, false, false, false, 5, 47, 0, 3, 2, false, true, 0, 0, 0⟩
     let x : Chain := { tFrame 7 1 (List.replicate 60 0) with refs := 2 }
     let y : Chain := tFrame 8 1 (List.replicate 61 0)
     let s :=
       { ((tUp.put (.prs .PORT_CFG_MODE) 2 1 1).put (.prs .PORT_CFG_EN) 15 1 1).put (.prs .PORT_CFG_LINK_UP) 15 1 1 with copies := [d, c, c], chains := [x, y] }
     let u := s.atNow tNow
     s.live = true ∧ nextCopy 15 u = some c ∧ u.chain? c.chain = some x) ∧
    (let c : Copy := ⟨8, 1, 15, 2, none, false, false, false, 5, 47, 0, 3, 2, false, true, 0, 0, 0⟩
     let x : Chain := tFrame 8 1 (List.replicate 61 0)
     let s :=
       { ((tUp.put (.prs .PORT_CFG_MODE) 2 1 1).put (.prs .PORT_CFG_EN) 15 1 1).put (.prs .PORT_CFG_LINK_UP) 15 1 1 with copies := [c], chains := [x] }
     let u := s.atNow tNow
     s.live = true ∧ nextCopy 15 u = some c ∧ u.chain? c.chain = some x) ∧
    (let s := (((((tUp.put (.prs .PORT_CFG_MODE) 2 1 1).put (.prs .PORT_CFG_EN) 15 1 1).put (.prs .PORT_CFG_LINK_UP)
       15 1 1).put (.trs .xDREQ) 1 3).put (.trs .PORT_CFG_PTP_EN) 1 3).put (.trs .PORT_CFG_SUBPORT) 3 3
     let u := s.atNow tNow
     s.live = true ∧ u.txStopped = false ∧ u.ifaceUp 15 = true ∧ u.ptpWaits 15 = true) ∧
    (let s := tUp.put (.shp .xWIRE) 1 15
     let u := s.atNow tNow
     s.live = true ∧ (u.txStopped = true ∨ u.ifaceUp 15 = false ∨ (u.ptpWaits 15 = false ∧ nextCopy 15 u = none))) ∧
    (let c : Copy := ⟨7, 1, 15, 0, some 4095, true, false, false, 0, 0, 0, 0, 0, false, false, 0, 0, 0⟩
     let b : Copy := ⟨7, 1, 14, 0, some 4095, true, false, false, 0, 0, 0, 0, 0, false, false, 0, 0, 0⟩
     let d : Copy := ⟨9, 1, 14, 0, none, false, false, false, 0, 0, 0, 0, 0, false, false, 0, 0, 0⟩
     let s := { tUp with copies := [c, b, d] }
     let u := s.atNow tNow
     s.live = true ∧ u.txStopped = false ∧ u.copies.find? (fun c => c.die == 1 && c.wait && c.handle == some 4095) =
       some c ∧ (0 : Int) ≤ (refill 1 4095 u.tai u).tokens 1 4095) ∧
    (let c : Copy := ⟨7, 1, 15, 0, some 4095, true, false, false, 0, 0, 0, 0, 0, false, false, 0, 0, 0⟩
     let s :=
       { ((tUp.put (.shp .xTOK) (toSigned (Fld.shp .xTOK).width (-5)) 1 4095).put (.shp .xTOK_SET) 1 1 4095).put (.shp .xREFILL) 10000000000 1 4095 with copies := [c] }
     let u := s.atNow tNow
     s.live = true ∧ u.txStopped = false ∧ u.copies.find? (fun c => c.die == 1 && c.wait && c.handle == some 4095) =
       some c ∧ (refill 1 4095 u.tai u).tokens 1 4095 < (0 : Int)) ∧
    (let s := tUp
     let u := s.atNow tNow
     s.live = true ∧ (u.txStopped = true ∨ u.copies.find? (fun c => c.die == 1 && c.wait && c.handle == some 4095) =
       none)) ∧
    (let s := tUp.put (.flt .STATUS_UNLOCKED) 1
     let s := { s with safe := true }
     let u := s.atNow tNow
     s.live = true ∧ u.txStopped = true) ∧
    (let s := tUp.put (.shp .xWIRE) 1 15
     let u := s.atNow tNow
     s.live = true ∧ u.txStopped = false ∧ u.flag (.shp .xWIRE) 15 = true) ∧
    (let c : Copy := ⟨7, 1, 15, 7, none, false, false, false, 5, 47, 0, 3, 2, false, false, 0, 0, 0⟩
     let x : Chain := tFrame 7 1 (List.replicate 60 0)
     let s :=
       { ((tUp.put (.prs .PORT_CFG_MODE) 2 1 1).put (.prs .PORT_CFG_EN) 15 1 1).put (.prs .PORT_CFG_LINK_UP) 15 1 1 with copies := [c], chains := [x] }
     let u := s.atNow tNow
     let w := refill 1 4159 u.tai u
     s.live = true ∧ u.txStopped = false ∧ u.flag (.shp .xWIRE) 15 = false ∧ nextCopy 15 w = some c ∧ w.chain? c.chain
       = some x) ∧
    (let s := (((((tUp.put (.prs .PORT_CFG_MODE) 2 1 1).put (.prs .PORT_CFG_EN) 15 1 1).put (.prs .PORT_CFG_LINK_UP)
       15 1 1).put (.trs .xDREQ) 1 3).put (.trs .PORT_CFG_PTP_EN) 1 3).put (.trs .PORT_CFG_SUBPORT) 3 3
     let u := s.atNow tNow
     s.live = true ∧ u.txStopped = false ∧ u.flag (.shp .xWIRE) 15 = false ∧ u.ifaceUp 15 = true ∧ u.ptpWaits 15 =
       true) ∧
    (let s := tUp
     let u := s.atNow tNow
     let w := refill 1 4159 u.tai u
     s.live = true ∧ u.txStopped = false ∧ u.flag (.shp .xWIRE) 15 = false ∧ (u.ifaceUp 15 = false ∨ (u.ptpWaits 15 =
       false ∧ nextCopy 15 w = none))) ∧
    (let s := (tUp.put (.shp .BKT_RATE_RATE) 1000 1 4095 1).put (.shp .BKT_BURST_BURST) 3 1 4095 1
     s.lastRefill 1 4095 < 1000000000000) ∧
    (let s := tUp
     let t := after (.seqMirrorUpdate 1 4095 (2 ^ 32 - 1)) s
     s.live = true ∧ s.get (.shp .xMIRROR) 1 4095 = 0 ∧ seqBefore 32 (2 ^ 32 - 2) (2 ^ 32 - 1) = true ∧ t.get (.shp
       .xMIRROR) 1 4095 ≠ 0) := by
  refine ⟨?_, ?_, ?_, ?_, ?_, ?_, ?_, ?_, ?_, ?_, ?_, ?_, ?_, ?_, ?_, ?_, ?_, ?_⟩ <;> decide +kernel

/-- What EgressSetup assumes, clause by clause, can hold. -/
theorem test_wit_EgressSetup :
    (let s := ((tUp.put (.shp .BKT_CFG_HO_EN) 0 1 4095).put (.shp .BKT_RATE_RATE) 77 1 4095 0).put (.shp .xTPL) 3 1
       (4095 * 64 + 5) 0
     let m := [Fld.shp .BKT_CFG_MODE, .shp .BKT_RATE_RATE, .shp .BKT_BURST_BURST, .shp .BKT_CFG_OVERHEAD]
     s.live = true ∧ s.gateOf .ha .shp (some 1) = .pass ∧ s.flag (.shp .BKT_CFG_HO_EN) 1 4095 = false ∧ (m.any (fun f
       => s.get f 1 4095 0 != s.get f 1 4095 1)) = true) ∧
    (let s := (tUp.put (.shp .BKT_CFG_HO_EN) 0 1 4100).put (.shp .BKT_CFG_RESET_FILL) 1 1 4100 0
     let m := [Fld.shp .BKT_CFG_MODE, .shp .BKT_RATE_RATE, .shp .BKT_BURST_BURST, .shp .BKT_CFG_OVERHEAD]
     s.live = true ∧ s.gateOf .ha .shp (some 1) = .pass ∧ s.flag (.shp .BKT_CFG_HO_EN) 1 4100 = false ∧ (m.any (fun f
       => s.get f 1 4100 0 != s.get f 1 4100 1)) = false ∧ -(2 ^ 63) ≤ s.tokens 1 4100 ∧ s.tokens 1 4100 < 2 ^ 63) ∧
    (let s := tUp.put (.shp .BKT_CFG_HO_EN) 1 1 4095
     s.live = true ∧ s.gateOf .ha .shp (some 1) = .pass ∧ s.flag (.shp .BKT_CFG_HO_EN) 1 4095 = true) ∧
    (let s := (tUp.put (.shp .xTPL) 99 1 (4095 * 64 + 63)).put (.shp .TPL_DATA_DATA) 55 1
     s.live = true ∧ s.gateOf .ha .shp (some 1) = .pass) ∧
    (let s := tUp
     s.live = true) ∧
    (let c : Copy := ⟨7, 1, 15, 0, none, false, true, true, 5, 47, 0, 3, 2, false, false, 0, 0, 0⟩
     let d : Copy := ⟨9, 1, 14, 0, none, false, true, true, 5, 47, 0, 3, 2, false, false, 0, 0, 0⟩
     let s := { tUp with copies := [c, d], chains := [tFrame 7 1 [], tFrame 9 1 []] }
     s.live = true) := by
  refine ⟨?_, ?_, ?_, ?_, ?_, ?_⟩ <;> decide +kernel

/-- What FramesReceived assumes, clause by clause, can hold. -/
theorem test_wit_FramesReceived :
    (let s := tUp
     let u := s.atNow tNow
     s.live = true ∧ (u.rxStopped = true ∨ u.ifaceUp 15 = false)) ∧
    (let s := ((tUp.put (.prs .PORT_CFG_MODE) 2 1 1).put (.prs .PORT_CFG_EN) 15 1 1).put (.prs .PORT_CFG_LINK_UP) 15 1
       1
     let w := s.atNow tNow
     let b : List Byte := List.replicate 59 0
     let c : List Byte := List.replicate 12 0 ++ [0x88, 0x08] ++ List.replicate 46 0
     s.live = true ∧ w.rxStopped = false ∧ w.ifaceUp 15 = true ∧ b.length + 4 < 64 ∧ 64 ≤ c.length + 4 ∧ c.length + 4
       ≤ w.mtu 15 ∧ beAt c 12 2 = 0x8808) ∧
    (let s := ((tUp.put (.prs .PORT_CFG_MODE) 2 1 1).put (.prs .PORT_CFG_EN) 15 1 1).put (.prs .PORT_CFG_LINK_UP) 15 1
       1
     let u := s.atNow tNow
     let b : List Byte := List.replicate 60 0
     s.live = true ∧ u.rxStopped = false ∧ u.ifaceUp 15 = true ∧ 64 ≤ b.length + 4 ∧ b.length + 4 ≤ u.mtu 15 ∧ beAt b
       12 2 ≠ 0x8808 ∧ u.availCells (15 / 8) (48 + 2 * (15 / 4)) (cellsFor (b.length + 4)) = true) ∧
    (let s :=
       { ((tUp.put (.prs .PORT_CFG_MODE) 2 1 1).put (.prs .PORT_CFG_EN) 15 1 1).put (.prs .PORT_CFG_LINK_UP) 15 1 1 with chains := [tFrame 1 4194304 []] }
     let u := s.atNow tNow
     let b : List Byte := List.replicate 60 0
     s.live = true ∧ u.rxStopped = false ∧ u.ifaceUp 15 = true ∧ 64 ≤ b.length + 4 ∧ b.length + 4 ≤ u.mtu 15 ∧ beAt b
       12 2 ≠ 0x8808 ∧ u.availCells (15 / 8) (48 + 2 * (15 / 4)) (cellsFor (b.length + 4)) = false) ∧
    (let s := tUp.put (.mid .STATUS_DIE_UP) 1
     let u := s.atNow tNow
     s.live = true ∧ (u.safe = true ∨ u.dieUp 1 = false)) ∧
    (let r : Recirc := ⟨1, 7, 0, 0, 0, 0, 0⟩
     let c : Chain := tFrame 7 1 (List.replicate 60 0)
     let s := { tUp with recircs := [⟨0, 9, 0, 0, 0, 0, 0⟩, r], chains := [c] }
     let u := s.atNow tNow
     s.live = true ∧ u.safe = false ∧ u.dieUp 1 = true ∧ u.recircs.find? (fun x => x.die == 1) = some r ∧ u.chain?
       r.chain = some c) ∧
    (let s := { tUp with recircs := [⟨1, 9, 0, 0, 0, 0, 0⟩] }
     let u := s.atNow tNow
     s.live = true ∧ u.safe = false ∧ u.dieUp 1 = true ∧ u.recircs.find? (fun x => x.die == 0) = none ∧ u.cross.find?
       (fun x => x.dst == 0) = none ∧ u.dieUp 0 = true ∧ (u.mergePairs 0 = [] : Bool) = true) ∧
    (let x : Cross := tCross (List.replicate 60 0)
     let s := { tUp with cross := [x] }
     let u := s.atNow tNow
     s.live = true ∧ u.safe = false ∧ u.dieUp 1 = true ∧ u.cross.find? (fun x => x.dst == 1) = some x ∧ u.availCells 1
       59 (cellsFor (x.data.length + 4)) = true) ∧
    (let y : MHeld := ⟨1, 2047, 11, false, 0, 1, 700000000, 8, 0, false⟩
     let x : Cross :=
       { tCross (List.replicate 12 0 ++ [8, 0, 0x45, 0] ++ List.replicate 44 0) with handle := some 1, info := { noMeta with rtp := some 20 } }
     let s :=
       { ((tUp.put (.prs .MERGE_EN) 1 1 2047).put (.prs .MERGE_FLOW_B) 1 1 2047).put (.prs .xME) 0 1 2047 with cross := [x], mheld := [y], chains := [tFrame 8 1 []] }
     let s := s.put (.fwd .xFLOW) (2 ^ 63 + 2 ^ 44) 1 0
     let u := s.atNow tNow
     s.live = true ∧ u.safe = false ∧ u.dieUp 1 = true ∧ u.cross.find? (fun x => x.dst == 1) = some x ∧ u.availCells 1
       59 (cellsFor (x.data.length + 4)) = true) ∧
    (let x : Cross := tCross (List.replicate 60 0)
     let s := { tUp with cross := [x], chains := [tFrame 1 4194304 []] }
     let u := s.atNow tNow
     s.live = true ∧ u.safe = false ∧ u.dieUp 1 = true ∧ u.cross.find? (fun x => x.dst == 1) = some x ∧ u.availCells 1
       59 (cellsFor (x.data.length + 4)) = false) ∧
    (let s := ((tUp.put (.prs .MERGE_STAT_A_OK) 1 1 2047).put (.prs .MERGE_STAT_B_OK) 1 1 2047)
     let w := s.atNow tLater
     s.live = true ∧ w.safe = false ∧ w.dieUp 1 = true ∧ w.flag (.prs .MERGE_STAT_A_OK) 1 2047 = true ∧ w.get (.prs
       .xMLAST) 1 2047 false.toNat ≤ w.osc ∧ w.flag (.prs .MERGE_STAT_B_OK) 1 2047 = true ∧ w.get (.prs .xMLAST) 1 2047
       true.toNat ≤ w.osc) ∧
    (let s := (tUp.put (.prs .MERGE_STAT_A_OK) 1 1 2047).put (.prs .xMLAST) (tLater.osc + 1) 1 2047 0
     let w := s.atNow tLater
     s.live = true ∧ (w.flag (.prs .MERGE_STAT_A_OK) 1 2047 = false ∨ w.osc < w.get (.prs .xMLAST) 1 2047 false.toNat)
       ∧ (w.flag (.prs .MERGE_STAT_B_OK) 1 2047 = false ∨ w.osc < w.get (.prs .xMLAST) 1 2047 true.toNat)) ∧
    (let h : MHeld := ⟨1, 2047, 12, false, 0, 1, 5, 7, 0, false⟩
     let s :=
       { ((tUp.put (.prs .MERGE_EN) 1 1 2047).put (.prs .MERGE_FLOW_B) 1 1 2047).put (.prs .xME) 10 1 2047 with mheld := [h], chains := [tFrame 7 1 (List.replicate 60 0)] }
     let u := s.atNow tLater
     s.live = true ∧ u.safe = false ∧ u.dieUp 1 = true ∧ ((u.mergePairs 1).find? (fun p => p.m == 2047)).any (fun p =>
       u.lowestHeld 1 p == some h && p.bits == 16) = true ∧ h.due ≤ u.osc) ∧
    (let h : MHeld := ⟨1, 2047, 12, false, 0, 93000000, 94000000, 7, 0, false⟩
     let s :=
       { ((tUp.put (.prs .MERGE_EN) 1 1 2047).put (.prs .MERGE_FLOW_B) 1 1 2047).put (.prs .xME) 10 1 2047 with mheld := [h] }
     let u := s.atNow tLater
     s.live = true ∧ u.safe = false ∧ u.dieUp 1 = true ∧ ((u.mergePairs 1).find? (fun p => p.m == 2047)).any (fun p =>
       u.lowestHeld 1 p == some h) = true ∧ u.osc < h.due) := by
  refine ⟨?_, ?_, ?_, ?_, ?_, ?_, ?_, ?_, ?_, ?_, ?_, ?_, ?_, ?_⟩ <;> decide +kernel

/-- What RuleSets assumes, clause by clause, can hold. -/
theorem test_wit_RuleSets :
    (let s := ((tUp.put (.prs .xNODE) 0x123456789 1 65535).put (.prs .NODE_LO_NODE_LO) 5 1).put (.prs
       .NODE_HI_NODE_HI) 6 1
     let v : Word := 0xFFFF#32
     let w : Word := 0x3FFFF#32
     s.live = true ∧ s.gateOf .ha .prs (some 1) = .pass ∧ bitOf v.toNat 17 = false ∧ bitOf v.toNat 16 = false ∧ bitOf
       w.toNat 16 = true ∧ bitOf w.toNat 17 = true) ∧
    (let s := tUp
     s.live = true ∧ s.gateOf .ha .prs (some 1) = .pass ∧ s.flag (.prs .GEN_STATUS_PUB_PENDING) 1 = false ∧ s.slotOld
       1 = false ∧ bitOf (1#32).toNat 1 = false ∧ bitOf (3#32).toNat 1 = true) ∧
    (let s := tUp.put (.prs .GEN_STATUS_PUB_PENDING) 1 1
     s.live = true ∧ s.gateOf .ha .prs (some 1) = .pass ∧ s.flag (.prs .GEN_STATUS_PUB_PENDING) 1 = true) ∧
    (let s := { tUp.put (.prs .xOLD) 1 1 with recircs := [⟨1, 9, 1 - tUp.ruleSlot 1, 0, 0, 0, 0⟩] }
     s.live = true ∧ s.gateOf .ha .prs (some 1) = .pass ∧ s.safe = false ∧ s.dieUp 1 = true ∧ s.flag (.prs
       .GEN_STATUS_PUB_PENDING) 1 = false ∧ s.slotOld 1 = true) ∧
    (let s := tUp.put (.prs .xOLD) 1 1
     s.live = true ∧ s.safe = false ∧ s.dieUp 1 = true ∧ s.flag (.prs .xOLD) 1 = true ∧ s.slotOld 1 = false) ∧
    (let s := (tUp.put (.mid .STATUS_DIE_UP) 1).put (.prs .xOLD) 1 1
     s.live = true ∧ (s.safe = true ∨ s.dieUp 1 = false)) ∧
    (let v : Word := BitVec.ofNat 32 (2 + 15 * 16 + 9216 * 65536)
     let s := tUp.put (.prs .PORT_CFG_EN) 1 1 1
     s.live = true ∧ s.gateOf .ha .prs (some 1) = .pass ∧ bitsOf v.toNat 0 2 ≠ s.get (.prs .PORT_CFG_MODE) 1 1 ∧ s.get
       (.prs .PORT_CFG_EN) 1 1 ≠ 0) ∧
    (let v : Word := BitVec.ofNat 32 (2 + 15 * 16 + 9216 * 65536)
     let s := tUp
     s.live = true ∧ s.gateOf .ha .prs (some 1) = .pass ∧ bitsOf v.toNat 0 2 ≠ s.get (.prs .PORT_CFG_MODE) 1 1 ∧ s.get
       (.prs .PORT_CFG_EN) 1 1 = 0) ∧
    (let v : Word := BitVec.ofNat 32 (2 + 7 * 16 + 1500 * 65536)
     let c : Copy := ⟨7, 1, 15, 0, none, false, true, true, 5, 47, 0, 3, 2, false, false, 0, 0, 0⟩
     let d : Copy := ⟨9, 1, 14, 0, none, false, true, true, 5, 47, 0, 3, 2, false, false, 0, 0, 0⟩
     let s :=
       { ((tUp.put (.prs .PORT_CFG_MODE) 2 1 1).put (.prs .PORT_CFG_EN) 15 1 1).put (.prs .PORT_CFG_LINK_UP) 15 1 1 with copies := [c, d], chains := [tFrame 7 1 [], tFrame 9 1 []] }
     s.live = true ∧ s.gateOf .ha .prs (some 1) = .pass ∧ bitsOf v.toNat 0 2 = s.get (.prs .PORT_CFG_MODE) 1 1) ∧
    (let s :=
       { tUp.put (.prs .MERGE_STAT_A_OK) 1 1 2047 with mheld := [⟨1, 2047, 12, false, 0, 1, 7, 7, 0, false⟩, ⟨1, 2046, 12, false, 0, 1, 7, 7, 0, false⟩], chains := [tFrame 7 1 []] }
     s.live = true ∧ s.gateOf .ha .prs (some 1) = .pass) ∧
    (let s := tUp
     s.live = true ∧ s.safe = false ∧ s.dieUp 1 = true) := by
  refine ⟨?_, ?_, ?_, ?_, ?_, ?_, ?_, ?_, ?_, ?_, ?_⟩ <;> decide +kernel

/-- What TableEnds assumes, clause by clause, can hold. -/
theorem test_wit_TableEnds :
    (let s := (tUp.put (.fwd .FL_CMD_BUSY) 1 1).put (.fwd .xCMD_OP) 7 1 1
     let u := s.atNow tNow
     s.live = true ∧ u.flag (cmdBUSY .flow) 1 = true ∧ u.flag (cmdBUSY .route) 1 = false ∧ u.flag (cmdBUSY .bridge) 1
       = false) ∧
    (let s := ((((tUp.put (.fwd .RT_CMD_BUSY) 1 1).put (.fwd .xCMD_OP) 3 1 0).put (.fwd .xCMD_IX) 32 1 0).put (.fwd
       .xCMD_K0) 0xFFFFFFFF 1 0).put (.fwd .xCMD_D0) 4095 1 0
     let u := s.atNow tNow
     s.live = true ∧ u.flag (.fwd .RT_CMD_BUSY) 1 = true) ∧
    (let s := (((tUp.put (.fwd .FL_CMD_BUSY) 1 1).put (.fwd .xCMD_OP) 2 1 1).put (.fwd .xCMD_IX) 4095 1 1).put (.fwd
       .xCMD_D0) 0x100 1 1
     let u := s.atNow tNow
     s.live = true ∧ u.flag (.fwd .FL_CMD_BUSY) 1 = true) ∧
    (let n := 4 * (brBuckets 5 6).1 + 3
     let s := ((((brPut 1 n ⟨true, 5, 6, 15, false, false, false, false⟩ tUp).put (.fwd .BR_CMD_BUSY) 1 1).put (.fwd
       .xCMD_OP) 3 1 2).put (.fwd .xCMD_K0) 6 1 2).put (.fwd .xCMD_K1) (5 * 65536) 1 2
     let s := brPut 1 77 ⟨true, 9, 9, 3, true, false, false, false⟩ s
     let u := s.atNow tNow
     s.live = true ∧ u.flag (.fwd .BR_CMD_BUSY) 1 = true) ∧
    (let n := 4 * (brBuckets 5 6).1 + 3
     let m := 4 * (brBuckets 5 6).2 + 1
     let s := ((((brPut 1 n ⟨true, 5, 6, 15, false, false, false, false⟩ tUp).put (.fwd .BR_CMD_BUSY) 1 1).put (.fwd
       .xCMD_OP) 1 1 2).put (.fwd .xCMD_K0) 6 1 2).put (.fwd .xCMD_K1) (5 * 65536) 1 2
     let s := (brPut 1 m ⟨true, 9, 9, 3, true, false, false, false⟩ s).put (.fwd .xCMD_IX) n 1 2
     let u := s.atNow tNow
     s.live = true ∧ u.flag (.fwd .BR_CMD_BUSY) 1 = true ∧ u.get (.fwd .xCMD_OP) 1 2 = 1 ∧ u.get (.fwd .xCMD_IX) 1 2 %
       32768 = n ∧ (u.br 1 n).valid = true ∧ (u.br 1 m).valid = true ∧ bitsOf (u.get (.fwd .xCMD_K1) 1 2) 16 12 = 5 ∧
       u.get (.fwd .xCMD_K0) 1 2 = 6 ∧ u.get (.fwd .xCMD_K1) 1 2 % 65536 = 0) ∧
    (let s := (((tUp.put (.fwd .BR_CMD_BUSY) 1 1).put (.fwd .xCMD_DUE) 1 1 2).put (.fwd .xCMD_OP) 6 1 2).put (.fwd
       .FL_CMD_BUSY) 1 1
     let s := brPut 1 77 ⟨true, 9, 9, 3, false, false, false, false⟩ s
     let u := s.atNow tNow
     s.live = true ∧ u.flag (cmdBUSY .bridge) 1 = true ∧ u.expired (.fwd .xCMD_DUE) 1 (tblIx .bridge) = true) ∧
    (let s := tUp.put (.fwd .STATUS_READY) 1 1
     s.live = true ∧ s.gateOf .ha .fwd (some 1) = .pass ∧ s.flag (.fwd .STATUS_READY) 1 = true ∧ (tableCmds .ha 1
       0xFFFF0000).all (fun c => !s.flag (cmdBUSY c.1) 1) = true) ∧
    (let s := (tUp.put (.fwd .STATUS_READY) 1 1).put (.fwd .RT_CMD_BUSY) 1 1
     s.live = true ∧ s.gateOf .ha .fwd (some 1) = .pass ∧ s.flag (.fwd .STATUS_READY) 1 = true ∧ s.flag (cmdBUSY
       .route) 1 = true ∧ (.route, 1, .rtRead .ha 1 0) ∈ tableCmds .ha 1 0 ∧ tUp.flag (.fwd .STATUS_READY) 1 = false)
       := by
  refine ⟨?_, ?_, ?_, ?_, ?_, ?_, ?_, ?_⟩ <;> decide +kernel

/-- What LongestPrefix assumes, clause by clause, can hold. -/
theorem test_wit_LongestPrefix :
    (let r : Route := ⟨1, 0, 24, 0xC0A80100, 5⟩
     let q : Route := ⟨1, 0, 16, 0xC0A80000, 4⟩
     let s : State := { tUp with routes := [q, r] }
     s.lpm 1 0 0xC0A80107 = some r ∧ s.routes = [q, r] ∧ q.covers 0xC0A80107 = true ∧ tUp.lpm 1 0 7 = none) := by
  decide +kernel

/-- What TableUpkeep assumes, clause by clause, can hold. -/
theorem test_wit_TableUpkeep :
    (let n := 4 * (brBuckets 5 6).1 + 3
     let l : Learn := ⟨1, 5, 6, 15⟩
     let s := { brPut 1 n ⟨true, 5, 6, 15, false, false, false, false⟩ tUp with learns := [l] }
     let u := s.atNow tNow
     s.live = true ∧ u.safe = false ∧ u.dieUp 1 = true ∧ u.learns.find? (fun l => l.die == 1) = some l ∧ u.brFind 1
       l.vid l.mac = some n) ∧
    (let n := 4 * (brBuckets 5 6).1
     let l : Learn := ⟨1, 5, 6, 15⟩
     let s := { tUp with learns := [l] }
     let u := s.atNow tNow
     s.live = true ∧ u.safe = false ∧ u.dieUp 1 = true ∧ u.learns.find? (fun l => l.die == 1) = some l ∧ u.brFind 1
       l.vid l.mac = none ∧ u.brFree 1 (brBuckets l.vid l.mac).1 = some n) ∧
    (let l : Learn := ⟨1, 5, 6, 15⟩
     let full := fun (b : Nat) (s : State) => [0, 1, 2, 3].foldl (fun s k => brPut 1 (4 * b + k) ⟨true, 7, 8, 15,
       true, false, false, false⟩ s) s
     let s :=
       { full (brBuckets 5 6).1 (full (brBuckets 5 6).2 (full (brBuckets 7 8).1 (full (brBuckets 7 8).2 tUp))) with learns := [l] }
     let u := s.atNow tNow
     let r : State := { u with learns := u.learns.eraseP (fun x => x.die == 1) }
     s.live = true ∧ u.safe = false ∧ u.dieUp 1 = true ∧ u.learns.find? (fun l => l.die == 1) = some l ∧ u.brFind 1
       l.vid l.mac = none ∧ (brInsert 1 { brLearned l with sweep := u.flag (.fwd .STATUS_PARITY) 1 } r).isNone = true) ∧
    (let s := ((brPut 1 7 ⟨true, 5, 6, 15, true, false, false, false⟩ (tTb tbLOCKED)).put (.fwd .xAGE_DUE) 1 1).put
       (.fwd .xAGE_TAI) 1 1
     let u := s.atNow tNow
     s.live = true ∧ u.safe = false ∧ u.dieUp 1 = true ∧ u.flag (.fwd .xAGE_DUE) 1 = true ∧ u.sweepMayStart 1 = true ∧
       u.flag (.fwd .STATUS_SWEEP_ACTIVE) 1 = false ∧ u.get (.ost .STATUS_SHED_LEVEL) 1 < 3) ∧
    (let s := (((brPut 1 7 ⟨true, 5, 6, 15, true, false, false, false⟩ (tTb tbLOCKED)).put (.fwd .xAGE_DUE) 1 1).put
       (.fwd .xAGE_TAI) 1 1).put (.ost .STATUS_SHED_LEVEL) 3 1
     let u := s.atNow tNow
     s.live = true ∧ u.safe = false ∧ u.dieUp 1 = true ∧ u.flag (.fwd .xAGE_DUE) 1 = true ∧ u.sweepMayStart 1 = true ∧
       u.flag (.fwd .STATUS_SWEEP_ACTIVE) 1 = false ∧ 3 ≤ u.get (.ost .STATUS_SHED_LEVEL) 1) ∧
    (let s := tUp.put (.fwd .STATUS_SWEEP_ACTIVE) 1 1
     let u := s.atNow tNow
     s.live = true ∧ u.safe = false ∧ u.dieUp 1 = true ∧ u.flag (.fwd .STATUS_SWEEP_ACTIVE) 1 = true ∧ u.flag (.fwd
       .STATUS_SWEEP_ACTIVE) 0 = false ∧ u.dieUp 0 = true ∧ u.learns = []) ∧
    (let s := { (tUp.put (.mid .STATUS_DIE_UP) 1).put (.fwd .STATUS_SWEEP_ACTIVE) 1 1 with learns := [⟨1, 5, 6, 15⟩] }
     let u := s.atNow tNow
     s.live = true ∧ (u.safe = true ∨ u.dieUp 1 = false) ∧ (s.safe = true ∨ s.dieUp 1 = false)) ∧
    (let s := brPut 1 32767 ⟨true, 5, 6, 15, true, false, false, false⟩ tUp
     s.live = true ∧ s.safe = false ∧ s.dieUp 1 = true ∧ TableId.flow ≠ TableId.bridge) ∧
    (let s := (tTb tbLOCKED).put (.fwd .xAGE_NEXT) 1 1
     let u := s.atNow tNow
     s.live = true ∧ u.expired (.fwd .xAGE_NEXT) 1 = true) := by
  refine ⟨?_, ?_, ?_, ?_, ?_, ?_, ?_, ?_, ?_⟩ <;> decide +kernel

/-- What GrantedBufferFree assumes, clause by clause, can hold. -/
theorem test_wit_GrantedBufferFree :
    (let s := { tUp with bufs := [⟨4, 0, 0, 48⟩] }
     (⟨4, 0, 0, 48⟩ : Buf) ∈ s.bufs) := by
  decide +kernel

/-- What HostBuffers assumes, clause by clause, can hold. -/
theorem test_wit_HostBuffers :
    (let s := tUp
     s.live = true ∧ s.gateOf .hb .pdk (some 1) = .pass ∧ s.hostBusy 1 1 = false ∧ s.flag (.pdk .STATUS_DRAM_READY) 1
       = false ∧ Party.hb.port = some (1 : HostPort).val ∧ Party.hb.port ≠ some (0 : HostPort).val) ∧
    (let s := tUp.put (.pdk .xHRES_AT) 5 1 1
     s.live = true ∧ s.gateOf .hb .pdk (some 1) = .pass ∧ s.hostBusy 1 1 = true) ∧
    (let s := ((tUp.put (.pdk .STATUS_DRAM_READY) 1 1).put (.pdk .OWN_CFG_GROUP) 7 1 57).put (.pdk .CLS_COUNT) 3 7 7
     let v : Word := 0x74#32
     let w : Word := BitVec.ofNat 32 (16 * 60000)
     s.live = true ∧ s.gateOf .hb .pdk (some 1) = .pass ∧ s.hostBusy 1 1 = false ∧ s.flag (.pdk .STATUS_DRAM_READY) 1
       = true ∧ reqClass v = 7 ∧ reqClass w = 7 ∧ s.availBuf 1 (s.homeGroup 1 57) 7 57 = true) ∧
    (let s := ((tUp.put (.pdk .STATUS_DRAM_READY) 1 1).put (.pdk .OWN_CFG_GROUP) 7 1 57).put (.pdk .CLS_COUNT) 0 7 7
     let v : Word := 0x74#32
     s.live = true ∧ s.gateOf .hb .pdk (some 1) = .pass ∧ s.hostBusy 1 1 = false ∧ s.flag (.pdk .STATUS_DRAM_READY) 1
       = true ∧ s.availBuf 1 (s.homeGroup 1 57) (reqClass v) 57 = false ∧ (s.maxUp 1 57 = 0 ∨ reqClass v = 7)) ∧
    (let s := tUp.put (.pdk .STATUS_DRAM_READY) 1 1
     let v : Word := BitVec.ofNat 32 (2 ^ 32 - 16)
     s.live = true ∧ s.gateOf .hb .pdk (some 1) = .pass ∧ s.hostBusy 1 1 = false ∧ s.flag (.pdk .STATUS_DRAM_READY) 1
       = true ∧ 8 ≤ reqClass v) ∧
    (let s := (((tUp.put (.pdk .STATUS_DRAM_READY) 1 1).put (.pdk .OWN_CFG_GROUP) 7 1 57).put (.pdk .CLS_COUNT) 1 7
       3).put (.pdk .OWN_CFG_GROUP) 7 1 58
     s.live = true ∧ s.gateOf .hb .pdk (some 1) = .pass ∧ s.hostBusy 1 1 = false ∧ s.flag (.pdk .STATUS_DRAM_READY) 1
       = true) ∧
    (let b : Buf := ⟨7, 7, 2, 57⟩
     let s := { (tUp.put (.pdk .STATUS_DRAM_READY) 1 1).put (.pdk .CLS_COUNT) 3 7 7 with bufs := [b] }
     let v : Word := BitVec.ofNat 32 b.handle
     s.live = true ∧ s.gateOf .hb .pdk (some 1) = .pass ∧ s.hostBusy 1 1 = false ∧ s.freeStatus 1 57 v.toNat = stOK ∧
       s.freeStatus 1 57 0 ≠ stOK) ∧
    (let s := tUp
     s.live = true ∧ s.gateOf .ha .pdk (some 1) = .pass ∧ s.cellCovers 1 63 100 = true ∧ s.cellRsv 1 63 < 0xFFFFFFFF %
       2 ^ 17 ∧ s.cellCovers 1 63 (0xFFFFFFFF % 2 ^ 17) = false ∧ 47 < 48) ∧
    (let s := (tUp.put (.pdk .OWN_CFG_GROUP) 7 1 48).put (.pdk .CLS_COUNT) 3 7 7
     let s2 := s.put (.pdk .STATUS_DRAM_READY) 0 1
     s.live = true ∧ s.gateOf .ha .pdk (some 1) = .pass ∧ 48 ≤ 48 ∧ s.classCovers 1 48 7 (3 % 2 ^ 16) = true ∧ s2.flag
       (.pdk .STATUS_DRAM_READY) 1 = false) ∧
    (let s := ((tUp.put (.pdk .OWN_CFG_GROUP) 7 1 48).put (.pdk .CLS_COUNT) 3 7 7).put (.pdk .STATUS_DRAM_READY) 1 1
     s.live = true ∧ s.gateOf .ha .pdk (some 1) = .pass ∧ s.flag (.pdk .STATUS_DRAM_READY) 1 = true ∧ s.get (.pdk
       .OWN_RSV_RSV) 1 48 7 < 333 ∧ s.classCovers 1 48 7 (333 % 2 ^ 16) = false) := by
  refine ⟨?_, ?_, ?_, ?_, ?_, ?_, ?_, ?_, ?_, ?_⟩ <;> decide +kernel

/-- What LineWrites assumes, clause by clause, can hold. -/
theorem test_wit_LineWrites :
    (let s := { tUp with dram := (Mem.empty 0).write (2 ^ 35 - 300) (List.replicate 300 7) }
     s.live = true ∧ s.safe = false ∧ s.dieUp (7 / 4) = true ∧ s.grpLost 7 = false ∧ s.get (.dmc .xWB) 7 16777215 = 0)
       ∧
    (let s :=
       { ((tUp.put (.dmc .xWB) 4 7 16777215).put (.dmc .xWB_SLICE) 99 7 16777215 2).put (.dmc .xINIT) 1 7 (16777215 / 32) with dram := (Mem.empty 0).write (2 ^ 35 - 300) (List.replicate 300 7) }
     let b : List Byte := List.replicate 256 3
     s.live = true ∧ s.safe = false ∧ s.dieUp (7 / 4) = true ∧ s.grpLost 7 = false ∧ s.get (.dmc .xWB) 7 16777215 ≠ 0
       ∧ b.length = 256) ∧
    (let s :=
       { tUp.put (.dmc .xINIT) 1 7 (16777215 / 32) with dram := (Mem.empty 0).write (2 ^ 35 - 300) (List.replicate 300 7) }
     let h : List Flip := [⟨0, 5, 7⟩, ⟨1, 63, 1⟩]
     let b : List Byte := [1, 2]
     let m := meetWriteBack 7 16777215 s
     s.live = true ∧ s.safe = false ∧ s.dieUp (7 / 4) = true ∧ s.grpLost 7 = false ∧ b.length ≠ 256 ∧ s.flag (.dmc
       .xINIT) 7 (16777215 / 32) = true ∧ m.readsClean 7 16777215 h = false ∧ (List.range 6).all (fun k => decide (s.get
       (.dmc .DEV_ERR_PASS_ERR) 7 k + 1 < s.eraseThr (7 / 4))) = true) ∧
    (let s := tUp.put (.dmc .GRP_STATUS_MODE) 2 7
     s.live = true ∧ s.grpLost 7 = true) := by
  refine ⟨?_, ?_, ?_, ?_⟩ <;> decide +kernel

set_option maxRecDepth 100000000 in
/-- What LineReads assumes, clause by clause, can hold. -/
theorem test_wit_LineReads :
    (let s := tUp
     s.live = true ∧ (s.flag (.dmc .xINIT) 7 (16777215 / 32) = false ∨ s.grpLost 7 = true)) ∧
    (let s :=
       { tUp.put (.dmc .xINIT) 1 7 (16777215 / 32) with dram := (Mem.empty 0).write (2 ^ 35 - 300) (List.replicate 300 7) }
     let f : List Flip := [⟨3, 5, 7⟩]
     let h : List Flip := [⟨0, 5, 7⟩, ⟨1, 63, 1⟩]
     s.live = true ∧ s.safe = false ∧ s.dieUp (7 / 4) = true ∧ s.grpLost 7 = false ∧ s.flag (.dmc .xINIT) 7 (16777215
       / 32) = true ∧ (List.range 6).all (fun k => decide (s.get (.dmc .DEV_ERR_PASS_ERR) 7 k + 1 < s.eraseThr (7 / 4)))
       = true ∧ s.readFate 7 16777215 f = .corrected ∧ s.readFate 7 16777215 h = .poisoned 3) ∧
    (let s :=
       { (tUp.put (.dmc .xINIT) 1 7 (16777215 / 32)).put (.dmc .xPOIS) 9 7 16777215 with dram := (Mem.empty 0).write (2 ^ 35 - 300) (List.replicate 300 7), plog := [⟨7, 16777215, 9⟩, ⟨7, 3, 1⟩] }
     let f : List Flip := [⟨5, 0, 7⟩, ⟨5, 4, 7⟩, ⟨5, 8, 7⟩, ⟨5, 12, 7⟩]
     let h : List Flip := [⟨5, 29, 7⟩]
     s.live = true ∧ s.safe = false ∧ s.dieUp (7 / 4) = true ∧ s.grpLost 7 = false ∧ s.flag (.dmc .xINIT) 7 (16777215
       / 32) = true ∧ (List.range 6).all (fun k => decide (s.get (.dmc .DEV_ERR_PASS_ERR) 7 k + 1 < s.eraseThr (7 / 4)))
       = true ∧ s.readFate 7 16777215 f = .rebuilt ∧ s.readFate 7 16777215 h = .poisoned 15) ∧
    (let s :=
       { ((tUp.put (.dmc .xINIT) 1 7 (16777215 / 32)).put (.dmc .GRP_STATUS_MODE) 1 7).put (.dmc .GRP_STATUS_ERASED_DEV) 2 7 with dram := (Mem.empty 0).write (2 ^ 35 - 300) (List.replicate 300 7) }
     let h : List Flip := [⟨0, 5, 7⟩]
     s.live = true ∧ s.safe = false ∧ s.dieUp (7 / 4) = true ∧ s.grpMode 7 = 1 ∧ s.flag (.dmc .xINIT) 7 (16777215 /
       32) = true ∧ (List.range 6).all (fun k => decide (s.get (.dmc .DEV_ERR_PASS_ERR) 7 k + 1 < s.eraseThr (7 / 4))) =
       true ∧ s.readFate 7 16777215 h = .poisoned 5) ∧
    (fateNormal ⟨8, 0, true, true⟩ = .corrected ∧ bitOf 0 3 = false ∧ fateNormal ⟨3, 0, true, false⟩ = .poisoned (2 ^
       0 + 2 ^ 1)) := by
  refine ⟨?_, ?_, ?_, ?_, ?_⟩ <;> decide +kernel

/-- What ScrubAndRefresh assumes, clause by clause, can hold. -/
theorem test_wit_ScrubAndRefresh :
    (let s := (((tRun 0).put (.dmc .STATUS_READY) 1 1).put (.dmc .SCRUB_POS_LINE) (2 ^ 24 - 1) 7).put (.dmc
       .xSCRUB_TAI) 1 7
     let u := s.atNow tLater
     s.live = true ∧ u.grpServes 7 = true ∧ u.scrubPaused = false ∧ u.boundarySince (u.get (.dmc .xSCRUB_TAI) 7) =
       true ∧ u.get (.dmc .CFG_SCRUB_LINES) (7 / 4) ≠ 0) ∧
    (let s := (((tRun 0).put (.dmc .STATUS_READY) 1 1).put (.dmc .CFG_SCRUB_LINES) 0 1).put (.dmc .xSCRUB_TAI) 1 7
     let u := s.atNow tLater
     s.live = true ∧ u.grpServes 7 = true ∧ u.scrubPaused = false ∧ u.boundarySince (u.get (.dmc .xSCRUB_TAI) 7) =
       true) ∧
    (let s := tUp
     let u := s.atNow tNow
     s.live = true ∧ u.grpServes 7 = false) ∧
    (let s := (tUp.put (.dmc .STATUS_READY) 1 1).put (.dmc .GRP_STATUS_REF_DEBT) 1 7
     let u := s.atNow tNow
     s.live = true ∧ u.grpServes 7 = true ∧ u.intervalDue 7 = true) ∧
    (let s := (tUp.put (.dmc .STATUS_READY) 1 1).put (.dmc .GRP_STATUS_REF_DEBT) 8 7
     let u := s.atNow tNow
     s.live = true ∧ u.grpServes 7 = true ∧ u.intervalDue 7 = true ∧ u.get (.dmc .xADV) 7 = 0 ∧ u.postpone (7 / 4) ≤
       u.get (.dmc .GRP_STATUS_REF_DEBT) 7) ∧
    (let s := ((tUp.put (.dmc .STATUS_READY) 1 1).put (.dmc .xADV) 3 7).put (.dmc .xREF_AT) (4 * tNow.osc) 7
     let s2 := s.put (.dmc .xREF_AT) 0 7
     let u := s.atNow tNow
     s.live = true ∧ u.grpServes 7 = true ∧ u.intervalDue 7 = false ∧ s2.get (.dmc .xADV) 7 ≠ 0) ∧
    (let s := (((tRun 0).put (.dmc .STATUS_READY) 1 1).put (.dmc .GRP_STATUS_REF_DEBT) 5 7).put (.dmc .xCATCH_TAI) 1 7
     let u := s.atNow tLater
     s.live = true ∧ u.grpServes 7 = true ∧ u.scrubPaused = false ∧ u.blankBegun 7 = true) ∧
    (let s := tUp.put (.dmc .STATUS_READY) 1 1
     let u := s.atNow tNow
     s.live = true ∧ u.grpServes 7 = true ∧ (u.scrubPaused = true ∨ u.blankBegun 7 = false)) ∧
    (let s := tUp
     let u := s.atNow tNow
     s.live = true ∧ u.safe = false ∧ u.dieUp (7 / 4) = true ∧ u.ageCapped 7 5 = true ∧ u.ageCapped 7 6 = true ∧
       u.ageCapped 7 tNow.osc = false) ∧
    (let s := tUp
     s.live = true ∧ s.gateOf .ha .dmc (some (7 / 4)) = .pass ∧ s.grpMode 7 = 0 ∧ (5#32).toNat % 8 < 6 ∧ s.ostSheds (7
       / 4) 4 = false) ∧
    (let s := tUp.put (.dmc .GRP_STATUS_MODE) 1 7
     s.live = true ∧ s.gateOf .ha .dmc (some (7 / 4)) = .pass ∧ s.grpMode 7 ≠ 0) ∧
    (let s := ((tRun 0).put (.dmc .STATUS_READY) 1 1).put (.trs .DOM_RATE_FIRST_ACTIVE) 42
     let n : Now := ⟨3000001, 10000000000 * 65536⟩
     let u := s.atNow n
     s.live = true ∧ u.grpServes 7 = true ∧ u.flag (.dmc .GRP_STATUS_RETRAINING) 7 = false ∧ u.grpLost 7 = false ∧
       u.scrubPaused = false ∧ u.inBlank = true) ∧
    (let s := (((tUp.put (.dmc .STATUS_READY) 1 1).put (.dmc .GRP_STATUS_RETRAINING) 1 7).put (.dmc .xRETR_MODE) 1
       7).put (.dmc .xRETR_DEV) 3 7
     let s := (s.put (.dmc .GRP_STATUS_MODE) 1 7).put (.dmc .GRP_STATUS_ERASED_DEV) 3 7
     let u := s.atNow tNow
     s.live = true ∧ u.grpServes 7 = true ∧ u.flag (.dmc .GRP_STATUS_RETRAINING) 7 = true ∧ u.grpMode 7 = 1) ∧
    (let s := (((tUp.put (.dmc .STATUS_READY) 1 1).put (.dmc .GRP_STATUS_RETRAINING) 1 7).put (.dmc .xRETR_MODE) 0
       7).put (.dmc .xRETR_DEV) 3 7
     let s := (s.put (.dmc .GRP_STATUS_MODE) 1 7).put (.dmc .GRP_STATUS_ERASED_DEV) 2 7
     let u := s.atNow tNow
     s.live = true ∧ u.grpServes 7 = true ∧ u.flag (.dmc .GRP_STATUS_RETRAINING) 7 = true ∧ u.flag (.dmc .xRETR_MODE)
       7 = false ∧ u.grpMode 7 = 1 ∧ u.erasedDev 7 ≠ u.get (.dmc .xRETR_DEV) 7) ∧
    (let s := tUp
     let u := s.atNow tNow
     s.live = true ∧ u.flag (.dmc .GRP_STATUS_RETRAINING) 7 = false) := by
  refine ⟨?_, ?_, ?_, ?_, ?_, ?_, ?_, ?_, ?_, ?_, ?_, ?_, ?_, ?_, ?_⟩ <;> decide +kernel

/-- What SlotStatePersists assumes, clause by clause, can hold. -/
theorem test_wit_SlotStatePersists :
    (let s := (tUp.put (.cus .CFG_PERSIST) 1 0).put (.cus .UNIT_STATE) 3 5
     let e : RepairEntry := ⟨3, 0, 5, 9, 2⟩
     1 < 2 ∧ 4 < 5 ∧ s.get (.mid .BOOT_BOOT_COPY) < 2 ∧ s.live = true ∧ s.safe = false ∧ s.repairDue e = true ∧
       s.repairMap.length < 4094) ∧
    (let s := { tUp with safe := true }
     s.live = true ∧ s.safe = true) ∧
    (let s := tUp
     s.live = true ∧ s.safe = false ∧ s.repairDue ⟨3, 0, 5, 9, 2⟩ = false) := by
  refine ⟨?_, ?_, ?_⟩ <;> decide +kernel

/-- What UpdateSessions assumes, clause by clause, can hold. -/
theorem test_wit_UpdateSessions :
    (let s := ((tUp.put (.fwu .STATUS_STATE) 1).put (.fwu .STATUS_OWNER) 1)
     s.live = true ∧ s.gateOf .ha .fwu none = .pass ∧ s.fwuForeign .ha = true) ∧
    (let s := tUp
     s.live = true ∧ s.gateOf .hb .fwu none = .pass ∧ s.fwuForeign .hb = false) ∧
    (let s := tUp
     let v : Word := 0x21#32
     let w : Word := 0x10#32
     s.live = true ∧ s.gateOf .hb .fwu none = .pass ∧ s.fwuForeign .hb = false ∧ fwuAlone 0 v ∧ fwuAlone 0 w ∧
       Party.hb.port = some 1 ∧ s.session = false ∧ s.fwuState < 4 ∧ (s.flag (.mid .BOOT_RECOVERY) = false ∨ bitOf
       v.toNat 4 = false) ∧ (s.flag (.mid .BOOT_RECOVERY) = false ∨ bitOf w.toNat 4 = false)) ∧
    (let s := tUp.put (.mid .BOOT_RECOVERY) 1
     let v : Word := 0x21#32
     let w : Word := 0x10#32
     s.live = true ∧ s.gateOf .hb .fwu none = .pass ∧ s.fwuForeign .hb = false ∧ fwuAlone 0 v ∧ fwuAlone 0 w ∧
       Party.hb.port = some 1 ∧ s.session = false ∧ s.fwuState < 4 ∧ (s.flag (.mid .BOOT_RECOVERY) = false ∨ bitOf
       v.toNat 4 = false) ∧ s.flag (.mid .BOOT_RECOVERY) = true ∧ bitOf w.toNat 4 = true) ∧
    (let s := ((tUp.put (.fwu .STATUS_STATE) 1).put (.fwu .STATUS_OWNER) 1)
     let s2 := s.put (.fwu .STATUS_STATE) 7
     s.live = true ∧ s.gateOf .hb .fwu none = .pass ∧ s.fwuForeign .hb = false ∧ fwuAlone 0 0x31 ∧ (s.session = true ∨
       4 ≤ s.fwuState) ∧ s2.session = false ∧ s2.gateOf .ha .fwu none = .pass) ∧
    (let s := tUp.put (.ost .STATUS_STATE) 2 0
     s.live = true ∧ s.gateOf .o0 .fwu none = .pass ∧ s.fwuForeign .o0 = false ∧ fwuAlone 0 0x31 ∧ Party.o0.port =
       none ∧ fwuAlone 1 0x32 ∧ s.session = false) ∧
    (let s := (((tUp.put (.fwu .STATUS_STATE) 2).put (.fwu .STATUS_OWNER) 1).put (.pwr .STATUS_WINTER_PENDING) 1).put
       (.pwr .CTRL_WINTER) 1
     s.live = true ∧ s.gateOf .hb .fwu none = .pass ∧ s.fwuForeign .hb = false ∧ fwuAlone 1 2 ∧ s.session = true ∧
       s.flag (.fwu .BLK_CMD_SUBMIT) = false) ∧
    (let s := tUp
     let s2 := s.put (.fwu .BLK_CMD_SUBMIT) 1
     s.live = true ∧ s.gateOf .ha .fwu none = .pass ∧ s.fwuForeign .ha = false ∧ s.session = false ∧ s.flag (.fwu
       .BLK_CMD_SUBMIT) = false ∧ s2.flag (.fwu .BLK_CMD_SUBMIT) = true) ∧
    (let s := (((tUp.put (.fwu .STATUS_STATE) 1).put (.fwu .STATUS_OWNER) 1).put (.fwu .xXFER_DUE) 1).put (.pwr
       .STATUS_WINTER_PENDING) 1
     let u := s.atNow tNow
     s.live = true ∧ u.safe = false ∧ u.inWinter = false ∧ u.session = true ∧ u.expired (.fwu .xXFER_DUE) = true) ∧
    (let s := tUp.put (.fwu .STATUS_STATE) 1
     let u := s.atNow tNow
     s.live = true ∧ (u.safe = true ∨ u.inWinter = true ∨ u.session = false ∨ u.expired (.fwu .xXFER_DUE) = false))
       := by
  unfold fwuAlone
  refine ⟨?_, ?_, ?_, ?_, ?_, ?_, ?_, ?_, ?_, ?_⟩ <;> decide +kernel

/-- What UpdateBlocks assumes, clause by clause, can hold. -/
theorem test_wit_UpdateBlocks :
    (let s := tUp
     let u := s.atNow tNow
     s.live = true ∧ (u.stageRuns = false ∨ u.flag (.fwu .BLK_CMD_SUBMIT) = false)) ∧
    (let s := ((((tUp.put (.ost .STATUS_STATE) 1 0).put (.fwu .BLK_CMD_SUBMIT) 1).put (.fwu .BLK_LEN_LEN) 16).put
       (.fwu .STATUS_STATE) 1).put (.fwu .xSUB_BY) 6
     let u := s.atNow tNow
     s.live = true ∧ u.stageRuns = true ∧ u.flag (.fwu .BLK_CMD_SUBMIT) = true ∧ u.blkCrcBad = true ∧ (blockStatus
       u).1 ≠ 0) ∧
    (let s := ((((tUp.put (.ost .STATUS_STATE) 1 0).put (.fwu .BLK_CMD_SUBMIT) 1).put (.fwu .BLK_LEN_LEN) 0).put (.fwu
       .STATUS_STATE) 1)
     let s := s.put (.fwu .BLK_CRC_CRC) (crc32c (beBytes 4 0 ++ s.blkBytes))
     let u := s.atNow tNow
     s.live = true ∧ u.stageRuns = true ∧ u.flag (.fwu .BLK_CMD_SUBMIT) = true ∧ u.blkCrcBad = false ∧ u.blkRangeBad =
       true) ∧
    (let s := ((((tUp.put (.ost .STATUS_STATE) 1 0).put (.fwu .BLK_CMD_SUBMIT) 1).put (.fwu .BLK_LEN_LEN) 16).put
       (.fwu .STATUS_STATE) 1)
     let s := s.put (.fwu .BLK_DATA_DATA) 16 3
     let s := s.put (.fwu .BLK_CRC_CRC) (crc32c (beBytes 4 0 ++ s.blkBytes))
     let u := s.atNow tNow
     s.live = true ∧ u.stageRuns = true ∧ u.flag (.fwu .BLK_CMD_SUBMIT) = true ∧ u.blkCrcBad = false ∧ u.blkRangeBad =
       false ∧ u.blkManifestBad = true) ∧
    (let s := ((((tUp.put (.ost .STATUS_STATE) 1 0).put (.fwu .BLK_CMD_SUBMIT) 1).put (.fwu .BLK_LEN_LEN) 4).put (.fwu
       .STATUS_STATE) 1).put (.fwu .BLK_OFS_BLOCK) 767
     let s := s.put (.fwu .BLK_CRC_CRC) (crc32c (beBytes 4 (767 * 65536) ++ s.blkBytes))
     let u := s.atNow tNow
     s.live = true ∧ u.stageRuns = true ∧ u.flag (.fwu .BLK_CMD_SUBMIT) = true ∧ u.blkCrcBad = false ∧ u.blkRangeBad =
       false ∧ u.blkManifestBad = false ∧ u.blkNoSession = false ∧ u.get (.fwu .xKIND) = 0 ∧ u.get (.fwu .BLK_OFS_BLOCK)
       ≠ 0 ∧ u.blkMapped 0 = false) ∧
    (let s := ((((tUp.put (.ost .STATUS_STATE) 1 0).put (.fwu .BLK_CMD_SUBMIT) 1).put (.fwu .BLK_LEN_LEN) 18).put
       (.fwu .STATUS_STATE) 1)
     let s := (((s.put (.fwu .xKIND) 1).put (.fwu .BLK_DATA_DATA) 18 2).put (.fwu .xSUB_DUE) 1).put (.mid
       .BOOT_RECOVERY) 1
     let s := s.put (.fwu .BLK_CRC_CRC) (crc32c (beBytes 4 0 ++ s.blkBytes))
     let s := { s with flash := s.flash.write (blkAt s + 3) (List.replicate 40 7) }
     let n := tNow
     let u := s.atNow n
     s.live = true ∧ u.stageRuns = true ∧ u.flag (.fwu .BLK_CMD_SUBMIT) = true ∧ (blockStatus u).1 = 0 ∧ u.safe =
       false ∧ u.expired (.fwu .xSUB_DUE) = true ∧ u.blkNoSession = false) ∧
    (let s := ((((tUp.put (.ost .STATUS_STATE) 1 0).put (.fwu .BLK_CMD_SUBMIT) 1).put (.fwu .BLK_LEN_LEN) 18).put
       (.fwu .STATUS_STATE) 0)
     let s := ((s.put (.fwu .xKIND) 1).put (.fwu .BLK_DATA_DATA) 18 2)
     let s := s.put (.fwu .BLK_CRC_CRC) (crc32c (beBytes 4 0 ++ s.blkBytes))
     let u := s.atNow tNow
     s.live = true ∧ u.stageRuns = true ∧ u.flag (.fwu .BLK_CMD_SUBMIT) = true ∧ u.blkCrcBad = false ∧ u.blkRangeBad =
       false ∧ u.blkManifestBad = false ∧ u.blkNoSession = true ∧ u.expired (.fwu .xSUB_DUE) = false) := by
  refine ⟨?_, ?_, ?_, ?_, ?_, ?_, ?_⟩ <;> decide +kernel

/-- What UpdateReadback assumes, clause by clause, can hold. -/
theorem test_wit_UpdateReadback :
    (let s := tUp
     let u := s.atNow tNow
     s.live = true ∧ (u.stageRuns = false ∨ u.fwuState ≠ fuVERIFYING) ∧ (u.safe = true ∨ u.flag (.mid .BOOT_RECOVERY)
       = false ∨ u.expired (.fwu .xFAR_DUE) = false)) ∧
    (let u := tVerify.atNow tNow
     let x := u.get (.fwu .xTGT)
     let m := compsOf (u.manifest x)
     tVerify.live = true ∧ u.stageRuns = true ∧ u.fwuState = fuVERIFYING ∧ u.get (.fwu .xKIND) = 0 ∧ m.all (u.compGood
       x) = false) ∧
    (let s := (((tUp.put (.ost .STATUS_STATE) 1 0).put (.fwu .STATUS_STATE) 2).put (.fwu .xKIND) 1).put (.fwu
       .MAP_MAP) 0xFFFFFFFF 23
     let s := { s with flash := s.flash.write 0x100000 (List.replicate 40 7) }
     let u := s.atNow tNow
     let c := u.get (.fwu .xTGT)
     s.live = true ∧ u.stageRuns = true ∧ u.fwuState = fuVERIFYING ∧ u.get (.fwu .xKIND) ≠ 0 ∧ u.recordsGood c =
       false) ∧
    (let s := (((tUp.put (.mid .BOOT_RECOVERY) 1).put (.fwu .xFAR_DUE) 1).put (.fwu .STATUS_STATE) 2).put (.fwu
       .BLK_CMD_SUBMIT) 1
     let u := s.atNow tNow
     let x := 1 - u.get (.fwu .CTRL_SLOT)
     s.live = true ∧ u.safe = false ∧ u.flag (.mid .BOOT_RECOVERY) = true ∧ u.expired (.fwu .xFAR_DUE) = true ∧ u.flag
       (.mid .STRAP_RECOVERY) = false ∧ u.slotGood x = false) ∧
    (let s := ((tUp.put (.mid .BOOT_RECOVERY) 1).put (.fwu .xFAR_DUE) 1).put (.mid .STRAP_RECOVERY) 1
     let u := s.atNow tNow
     s.live = true ∧ u.safe = false ∧ u.flag (.mid .BOOT_RECOVERY) = true ∧ u.expired (.fwu .xFAR_DUE) = true ∧ u.flag
       (.mid .STRAP_RECOVERY) = true) ∧
    (let s := ((tUp.put (.mid .BOOT_RECOVERY) 1).put (.mid .STRAP_TETHER_RCV) 1).put (.mid .TTH_REV_UP) 1 2
     s.live = true ∧ s.safe = false ∧ s.tetherRecovery = true ∧ s.flag (.mid .TTH_REV_UP) 2 = true ∧ (s.session =
       false ∨ s.get (.fwu .STATUS_OWNER) = 2) ∧ s.flag (.fwu .BLK_CMD_SUBMIT) = false) ∧
    (let s := (((tUp.put (.mid .BOOT_RECOVERY) 1).put (.mid .STRAP_TETHER_RCV) 1).put (.mid .TTH_REV_UP) 1 2).put
       (.fwu .STATUS_STATE) 1
     let s2 := s.put (.fwu .STATUS_OWNER) 2
     let s3 := s2.put (.fwu .BLK_CMD_SUBMIT) 1
     s.live = true ∧ s.safe = false ∧ s.tetherRecovery = true ∧ s.flag (.mid .TTH_REV_UP) 2 = true ∧ s.session = true
       ∧ s.get (.fwu .STATUS_OWNER) ≠ 2 ∧ s2.get (.fwu .STATUS_OWNER) = 2 ∧ s2.flag (.fwu .BLK_CMD_SUBMIT) = false ∧
       s3.flag (.fwu .BLK_CMD_SUBMIT) = true) ∧
    (let s := tUp
     s.live = true ∧ (s.safe = true ∨ s.tetherRecovery = false ∨ s.flag (.mid .TTH_REV_UP) 2 = false)) := by
  refine ⟨?_, ?_, ?_, ?_, ?_, ?_, ?_, ?_⟩
  · decide +kernel
  · exact ⟨by decide +kernel, by decide +kernel, by decide +kernel, by decide +kernel, tVerify_bad⟩
  · decide +kernel
  · decide +kernel
  · decide +kernel
  · decide +kernel
  · decide +kernel
  · decide +kernel

set_option maxRecDepth 100000000 in
/-- What Activation assumes, clause by clause, can hold. -/
theorem test_wit_Activation :
    (let s := tUp.put (.fwu .STATUS_STATE) 4
     let v : Word := 4#32
     let s2 := tUp.put (.fwu .STATUS_STATE) 6
     s.live = true ∧ s.gateOf .hb .fwu none = .pass ∧ s.fwuForeign .hb = false ∧ fwuAlone 2 v ∧ s2.fwuState = fuTRIAL
       ∧ s2.fwuForeign .hb = false ∧ s2.gateOf .hb .fwu none = .pass ∧ fwuAlone 3 8 ∧ s2.live = true ∧ s.fwuState ≠
       fuTRIAL) ∧
    (let s := tStaged
     let s2 := tBad
     let v : Word := 0x34#32
     s.live = true ∧ s.gateOf .hb .fwu none = .pass ∧ s.fwuForeign .hb = false ∧ fwuAlone 2 v ∧ s.activateBar = none ∧
       s2.activateBar = some 2) ∧
    (let s := (tRun 0).put (.fwu .STATUS_STATE) 4
     let u := s.atNow tNow
     s.live = true ∧ u.safe = false ∧ u.fwuState = fuPREPARING ∧ u.tbState ≠ tbFREE ∧ u.anyDomInUse = true) ∧
    (let s := tUp.put (.fwu .STATUS_STATE) 4
     let u := s.atNow tNow
     s.live = true ∧ u.safe = false ∧ u.fwuState = fuPREPARING ∧ (u.tbState = tbFREE ∨ u.anyDomInUse = false)) ∧
    (let s := tUp
     let u := s.atNow tNow
     s.live = true ∧ (u.safe = true ∨ u.fwuState ≠ fuPREPARING) ∧ (u.safe = true ∨ u.switchWithin (10 * msNs) = false)
       ∧ (u.safe = true ∨ u.switchWithin 0 = false) ∧ (u.safe = true ∨ u.fwuState ≠ fuTRIAL)) ∧
    (let s := (tUp.put (.fwu .STATUS_STATE) 5).put (.fwu .xSW_DUE) 1
     let u := s.atNow tNow
     s.live = true ∧ u.safe = false ∧ u.switchWithin (10 * msNs) = true ∧ u.fwuState = fuARMED ∧ u.switchWithin 0 =
       true) ∧
    (let s := ((tRun 0).put (.fwu .STATUS_STATE) 5).put (.fwu .xARM15) 1
     let s := (s.put (.trs .HO_CTRL_ARM) 1 15).put (.trs .xHO_AT) 1 15
     let u := s.atNow tNow
     s.live = true ∧ u.safe = false ∧ u.fwuState = fuARMED ∧ u.switchWithin 0 = true) ∧
    (let s := (tUp.put (.fwu .STATUS_STATE) 7).put (.pwr .STATUS_WINTER_PENDING) 1
     let n : Now := ⟨300000000, 0⟩
     let u := s.atNow n
     s.live = true ∧ u.safe = false ∧ u.fwuState = fuREVERTING ∧ u.switchWithin 0 = true) ∧
    (let s := ((tUp.put (.fwu .STATUS_STATE) 6).put (.fwu .xACT_DUE) 1).put (.pwr .STATUS_HB_OK) 1
     let u := s.atNow tNow
     s.live = true ∧ u.safe = false ∧ u.fwuState = fuTRIAL ∧ u.expired (.fwu .xACT_DUE) = true) ∧
    (let s := ((tUp.put (.fwu .STATUS_STATE) 6).put (.fwu .xACT_DUE) 0).put (.pwr .STATUS_HB_OK) 1
     let s := (s.put (.ost .STATUS_STATE) 1 0).put (.ost .STATUS_STATE) 1 1
     let u := s.atNow tNow
     s.live = true ∧ u.safe = false ∧ u.fwuState = fuTRIAL ∧ u.expired (.fwu .xACT_DUE) = false ∧ u.flag (.pwr
       .STATUS_HB_OK) = true ∧ ∀ d < 2, u.dieUp d = true → u.ostState d ≠ 0) ∧
    (let s := tUp.put (.fwu .STATUS_STATE) 6
     let u := s.atNow tNow
     s.live = true ∧ (u.safe = true ∨ u.fwuState ≠ fuTRIAL ∨ u.expired (.fwu .xACT_DUE) = true ∨ u.flag (.pwr
       .STATUS_HB_OK) = false ∨ (∃ d < 2, u.dieUp d = true ∧ u.ostState d = 0))) := by
  unfold fwuAlone
  refine ⟨?_, ?_, ?_, ?_, ?_, ?_, ?_, ?_, ?_, ?_, ?_⟩
  · decide +kernel
  · exact ⟨by decide +kernel, by decide +kernel, by decide +kernel, by decide +kernel, tStaged_bar, tBad_bar⟩
  · decide +kernel
  · decide +kernel
  · decide +kernel
  · decide +kernel
  · decide +kernel
  · decide +kernel
  · decide +kernel
  · decide +kernel
  · decide +kernel

/-- What SeasonRequests assumes, clause by clause, can hold. -/
theorem test_wit_SeasonRequests :
    (let s := ((tUp.put (.pwr .GATE_CLUSTERS) 0x8000 1).put (.pwr .STATUS_GATED) 1).put (.pwr .STATUS_SEASON) 1
     s.live = true ∧ s.gateOf .ha .pwr none = .pass) ∧
    (let s := tUp.put (.pwr .STATUS_WINTER_PENDING) 1
     let s2 := tUp.put (.pwr .CTRL_WINTER) 1
     s.live = true ∧ s.gateOf .ha .pwr none = .pass ∧ bitOf (2#32).toNat 2 = false ∧ (s.flag (.pwr
       .STATUS_WINTER_PENDING) = true ∨ s.flag (.pwr .CTRL_WINTER) = true) ∧ s2.flag (.pwr .CTRL_WINTER) = true) ∧
    (let s := tUp.put (.mid .STATUS_DIE_UP) 1
     s.live = true ∧ s.gateOf .ha .pwr none = .pass ∧ bitOf (2#32).toNat 2 = false ∧ s.flag (.pwr
       .STATUS_WINTER_PENDING) = false ∧ s.flag (.pwr .CTRL_WINTER) = false ∧ s.winterBar = true) ∧
    (let s := tUp
     s.live = true ∧ s.gateOf .ha .pwr none = .pass ∧ s.flag (.pwr .STATUS_WINTER_PENDING) = false ∧ s.flag (.pwr
       .CTRL_WINTER) = false ∧ s.winterBar = false ∧ s.fwuState = 0) ∧
    (let s := tUp.put (.fwu .STATUS_STATE) 6
     s.live = true ∧ s.gateOf .ha .pwr none = .pass ∧ s.flag (.pwr .STATUS_WINTER_PENDING) = false ∧ s.flag (.pwr
       .CTRL_WINTER) = false ∧ s.winterBar = false ∧ s.fwuState ≠ 0) ∧
    (let s :=
       { ((((tUp.put (.pwr .STATUS_SEASON) 2).put (.dmc .PASR_KEEP) 1 7).put (.dmc .xINIT) 1 7 5).put (.dmc .xINIT) 1 7 (2 ^ 19 - 1)) with dram := (Mem.empty 0).write (2 ^ 35 - 300) (List.replicate 300 7) }
     s.live = true ∧ s.gateOf .ha .pwr none = .pass ∧ bitOf (4#32).toNat 1 = false ∧ s.flag (.pwr .CTRL_SPRING) =
       false ∧ s.inWinter = true) ∧
    (let s := ((tUp.put (.pwr .STATUS_WINTER_PENDING) 1).put (.pwr .xWIN_STEP) 1).put (.pwr .CTRL_WINTER) 1
     s.live = true ∧ s.gateOf .ha .pwr none = .pass ∧ s.flag (.pwr .CTRL_SPRING) = false ∧ s.inWinter = false ∧ s.get
       (.pwr .xWIN_STEP) ≠ 2 ∧ s.flag (.pwr .STATUS_WINTER_PENDING) = true) ∧
    (let s := (tUp.put (.pwr .STATUS_WINTER_PENDING) 1).put (.pwr .xWIN_STEP) 2
     s.live = true ∧ s.gateOf .ha .pwr none = .pass ∧ s.flag (.pwr .CTRL_SPRING) = false ∧ s.inWinter = false ∧ s.get
       (.pwr .xWIN_STEP) = 2) ∧
    (let s := tUp
     let s2 := (s.put (.pwr .CTRL_SPRING) 1).put (.pwr .STATUS_SEASON) 2
     s.live = true ∧ s.gateOf .ha .pwr none = .pass ∧ s.flag (.pwr .CTRL_SPRING) = false ∧ s.inWinter = false ∧ s.get
       (.pwr .xWIN_STEP) ≠ 2 ∧ s.flag (.pwr .STATUS_WINTER_PENDING) = false ∧ s2.gateOf .ha .pwr none = .pass) ∧
    (let s := (tUp.put (.pwr .CTRL_AUTUMN_EN) 1).put (.pwr .xGATE_AT) 1 31
     let u := s.atNow tNow
     s.live = true ∧ gateDue 31 u = true ∧ gateDue 30 u = false) := by
  refine ⟨?_, ?_, ?_, ?_, ?_, ?_, ?_, ?_, ?_, ?_⟩ <;> decide +kernel

/-- What SeasonSteps assumes, clause by clause, can hold. -/
theorem test_wit_SeasonSteps :
    (let s := ((tRun 1).put (.pwr .xWIN_STEP) 1).put (.mid .TTH_REV_UP) 1 2
     let u := s.atNow tLater
     s.live = true ∧ u.safe = false ∧ u.get (.pwr .xWIN_STEP) = 1 ∧ u.atE = true) ∧
    (let s := tUp
     let u := s.atNow tNow
     s.live = true ∧ (u.safe = true ∨ u.get (.pwr .xWIN_STEP) ≠ 1 ∨ u.atE = false) ∧ (u.safe = true ∨ u.get (.pwr
       .xWIN_STEP) ≠ 2 ∨ u.drained = false) ∧ (u.safe = true ∨ u.get (.pwr .STATUS_SEASON) ≠ 3)) ∧
    (let s := { (tUp.put (.pwr .xWIN_STEP) 2).put (.dmc .GRP_STATUS_REF_DEBT) 3 7 with bufs := [⟨7, 1, 0, 0⟩] }
     let u := s.atNow tNow
     s.live = true ∧ u.safe = false ∧ u.get (.pwr .xWIN_STEP) = 2 ∧ u.drained = true ∧ u.flag (.pwr .xSPRING_PEND) =
       false) ∧
    (let s := ((tUp.put (.pwr .xWIN_STEP) 2).put (.pwr .xSPRING_PEND) 1).put (.pwr .CTRL_SPRING) 1
     let u := s.atNow tNow
     s.live = true ∧ u.safe = false ∧ u.get (.pwr .xWIN_STEP) = 2 ∧ u.drained = true ∧ u.flag (.pwr .xSPRING_PEND) =
       true) ∧
    (let s := (tUp.put (.pwr .STATUS_SEASON) 3).put (.pwr .STATUS_GATED) 5
     let u := s.atNow tNow
     s.live = true ∧ u.safe = false ∧ u.get (.pwr .STATUS_SEASON) = 3) := by
  refine ⟨?_, ?_, ?_, ?_, ?_⟩ <;> decide +kernel

/-- What Links assumes, clause by clause, can hold. -/
theorem test_wit_Links :
    (let s := tUp.put (.mid .TTH_REV_UP) 1 1
     s.live = true ∧ (s.safe = true ∨ s.flag (.mid .TTH_REV_UP) 1 = true ∨ 2 ≤ s.get (.pwr .xWIN_STEP) ∨ s.inWinter =
       true)) ∧
    (let s := (tUp.put (.mid .BOOT_RECOVERY) 1).put (.mid .STRAP_TETHER_RCV) 1
     s.live = true ∧ s.safe = false ∧ s.flag (.mid .TTH_REV_UP) 2 = false ∧ s.get (.pwr .xWIN_STEP) < 2 ∧ s.inWinter =
       false ∧ s.tetherRecovery = true) ∧
    (let s := tUp.put (.mid .BOOT_STEP) 5
     s.live = true ∧ s.safe = false ∧ s.flag (.mid .TTH_REV_UP) 2 = false ∧ s.get (.pwr .xWIN_STEP) < 2 ∧ s.inWinter =
       false ∧ s.tetherRecovery = false ∧ s.get (.mid .BOOT_STEP) < 6) ∧
    (let s := tUp
     s.live = true ∧ s.safe = false ∧ s.flag (.mid .TTH_REV_UP) 2 = false ∧ s.get (.pwr .xWIN_STEP) < 2 ∧ s.inWinter =
       false ∧ s.tetherRecovery = false ∧ 6 ≤ s.get (.mid .BOOT_STEP) ∧ 9 ≠ s.get (.mid .STATUS_MODULE)) ∧
    (let s := ((tUp.put (.mid .TTH_REV_UP) 1 2).put (.mid .xKA_DUE) 1 2).put (.tth .KA_TO_MS) 1
     let u := s.atNow tNow
     s.live = true ∧ u.flag (.mid .TTH_REV_UP) 2 = true ∧ u.expired (.mid .xKA_DUE) 2 = true ∧ u.waitedOut (.tth
       .KA_TO_MS) 0 0 1 1000 msNs = true ∧ u.waitedOut (.tth .KA_TO_MS) 0 2999000 1 1000 msNs = false ∧ (u.flag (.mid
       .TTH_REV_UP) 1 = false ∨ u.expired (.mid .xKA_DUE) 1 = false)) ∧
    (let s := tUp
     let u := s.atNow tNow
     s.live = true ∧ u.safe = false ∧ u.flag (.mid .xLINK_DOWN) = false ∧ elapsedNs 0 u.osc 1000 = true ∧ elapsedNs
       u.osc u.osc 1000 = false) ∧
    (let s := tUp.put (.mid .xLINK_DOWN) 1
     let n : Now := ⟨3000000000, 0⟩
     let u := s.atNow n
     s.live = true ∧ u.flag (.mid .xLINK_DOWN) = true ∧ elapsedNs (u.get (.mid .xLINK_AT)) u.osc secNs = true) := by
  refine ⟨?_, ?_, ?_, ?_, ?_, ?_, ?_⟩ <;> decide +kernel

/-- What DescRuns assumes, clause by clause, can hold. -/
theorem test_wit_DescRuns :
    (let s := tQueue 0 (tDesc 0 0 0 0 0 0)
     let u := s.atNow tNow
     let x := u.headDesc 1 31
     s.live = true ∧ DescStarts 1 31 tEnv x u ∧ x.op = opNOP) ∧
    (let s := tHost 0x20003 [9] (tQueue 0 (tDesc (1 + 2 ^ 27 + 2 ^ 28 + 3 * 2 ^ 24 + 4 * 2 ^ 32) 0x20000 0x30000 0 0
       0))
     let u := s.atNow tNow
     let x := u.headDesc 1 31
     s.live = true ∧ DescStarts 1 31 tEnv x u ∧ x.op = opCOPY) ∧
    (let s := tHost 0x20003 [9] (tQueue 0 (tDesc (1 + 4 * 2 ^ 32) 0x20000 0x20002 0 0 0))
     let e : DmaEnv := ⟨false, [0x800], true⟩
     let u := s.atNow tNow
     let x := u.headDesc 1 31
     s.live = true ∧ DescStarts 1 31 e x u ∧ x.op = opCOPY) ∧
    (let s := tHost 0x20000 [1, 2, 3, 4, 5, 6, 7, 8, 9, 10] (tQueue 0 (tDesc (2 + 2 ^ 16 + 0 * 2 ^ 32) 0x20000 0x30000
       0x40000 0x50000 (2 + 5 * 2 ^ 16 + 6 * 2 ^ 32 + 2 * 2 ^ 48)))
     let u := s.atNow tNow
     let x := u.headDesc 1 31
     s.live = true ∧ DescStarts 1 31 tEnv x u ∧ x.op = opRESH_IN) ∧
    (let s := tHost 0x20000 [0, 1, 2, 0, 3, 4] (tQueue 0 (tDesc (3 + 2 ^ 16 + 0 * 2 ^ 32) 0x20000 0x30000 0x40000
       0x50000 (2 + 6 * 2 ^ 16 + 5 * 2 ^ 32 + 2 * 2 ^ 48)))
     let u := s.atNow tNow
     let x := u.headDesc 1 31
     s.live = true ∧ DescStarts 1 31 tEnv x u ∧ x.op = opRESH_OUT) ∧
    (let s := tHost 0x20000 [1, 2, 3, 4, 5, 6] (tQueue 0 (tDesc (4 + 6 * 2 ^ 32) 0x20000 0x30000 0 0 (3 * 2 ^ 32 + 2 *
       2 ^ 48)))
     let u := s.atNow tNow
     let x := u.headDesc 1 31
     s.live = true ∧ DescStarts 1 31 tEnv x u ∧ x.op = opDEINT) ∧
    (let s := tHost 0x20000 [1, 2, 3, 4, 5, 6] (tQueue 0 (tDesc (5 + 6 * 2 ^ 32) 0x20000 0x30000 0 0 (3 * 2 ^ 16 + 2 *
       2 ^ 48)))
     let u := s.atNow tNow
     let x := u.headDesc 1 31
     s.live = true ∧ DescStarts 1 31 tEnv x u ∧ x.op = opINTER) ∧
    (let s :=
       { tQueue 0 (tDesc (6 + 2 ^ 11 + 4 * 2 ^ 32) 0 (7 * 2 ^ 32 + 16380) 0x0102030405 0 0) with bufs := [⟨7, 0, 3, 57⟩] }
     let u := s.atNow tNow
     let x := u.headDesc 1 31
     s.live = true ∧ DescStarts 1 31 tEnv x u ∧ x.op = opFILL) ∧
    (let s := tHost 0x20003 [9] (tQueue 0 (tDesc (7 + 4 * 2 ^ 32) 0x20000 0x30000 0 0 0))
     let u := s.atNow tNow
     let x := u.headDesc 1 31
     s.live = true ∧ DescStarts 1 31 tEnv x u ∧ x.op = opCOMPARE) ∧
    (let s := tHost 0x20003 [9] (tQueue 0 (tDesc (8 + 2 ^ 27 + 2 ^ 28 + 3 * 2 ^ 24 + 4 * 2 ^ 32) 0x20000 0 0 0 0))
     let e : DmaEnv := ⟨false, [0x800], true⟩
     let u := s.atNow tNow
     let x := u.headDesc 1 31
     s.live = true ∧ DescStarts 1 31 e x u ∧ x.op = opCHECK ∧ x.chkEn = true ∧ x.chkFold = true) ∧
    (let s := tQueue 1 (tDesc (1 + 4 * 2 ^ 32) 0x20000 0x30000 0 0 0)
     let s2 := tQueue 0 (tDesc (1 + 4 * 2 ^ 32) 0x20000 0x30000 0 0 0)
     let s2 := (((s2.put (.dma .Q_CFG_EN) 0 1 31)))
     let u := s.atNow tNow
     let x := u.headDesc 1 31
     s.live = true ∧ qTurn 1 31 u = true ∧ fetched 1 31 tEnv u = true ∧ u.refusal 1 31 x = some dsBAD_DESC ∧ x.op =
       opCOPY ∧ qTurn 1 31 (s2.atNow tNow) = false) ∧
    (let s := (tQueue 0 (tDesc (8 + 2 ^ 27 + 3 * 2 ^ 24 + 4 * 2 ^ 32) 0x20000 0 0 0 0)).put (.chk .CTRL_HELD) 1 1 3
     let u := s.atNow tNow
     let x := u.headDesc 1 31
     s.live = true ∧ qTurn 1 31 u = true ∧ fetched 1 31 tEnv u = true ∧ u.refusal 1 31 x = none ∧ x.op = opCHECK ∧
       u.unitFree 1 x = false) ∧
    (let s := tQueue 1 (tDesc (9 + 59 * 2 ^ 32) 0 0x30000 0 0 0)
     let u := s.atNow tNow
     s.live = true ∧ fetched 1 31 tEnv u = true ∧ u.get (.dma .Q_CFG_MODE) 1 31 = 1 ∧ u.rxWaiting 1 31 = 0) ∧
    (let s := tQueue 0 (tDesc 255 0 0 0 0 0)
     let u := s.atNow tNow
     s.live = true ∧ qTurn 1 31 u = true ∧ fetched 1 31 tEnv u = true ∧ opSEND < (u.headDesc 1 31).op) := by
  unfold DescStarts
  refine ⟨?_, ?_, ?_, ?_, ?_, ?_, ?_, ?_, ?_, ?_, ?_, ?_, ?_, ?_⟩ <;> decide +kernel

/-- What DescWrites assumes, clause by clause, can hold. -/
theorem test_wit_DescWrites :
    (let s :=
       { (tHost 0x20003 [9] (tQueue 0 (tDesc (1 + 2 ^ 11 + 4 * 2 ^ 32) 0x20000 (7 * 2 ^ 32 + 16380) 0 0 0))).put (.dmc .GRP_STATUS_MODE) 2 7 with bufs := [⟨7, 0, 3, 57⟩] }
     let u := s.atNow tNow
     let x := u.headDesc 1 31
     s.live = true ∧ DescStarts 1 31 tEnv x u ∧ x.op = opCOPY ∧ u.grpLost 7 = true) ∧
    (let s :=
       { tQueue 0 (tDesc (6 + 2 ^ 11 + 4 * 2 ^ 32) 0 (7 * 2 ^ 32 + 16380) 0x0102030405 0 0) with bufs := [⟨7, 0, 3, 57⟩] }
     let u := s.atNow tNow
     let x := u.headDesc 1 31
     s.live = true ∧ DescStarts 1 31 tEnv x u ∧ x.op = opFILL ∧ u.grpLost 7 = false ∧ x.op ≤ 6) ∧
    (let r : Rx := ⟨1, 31, 7, none⟩
     let c : Chain := { tFrame 7 1 (List.replicate 60 5) with ts := 0x0102030405 }
     let s := { tQueue 1 (tDesc (9 + 59 * 2 ^ 32) 0 0x30000 0 0 0) with rxs := [r], chains := [c] }
     let u := s.atNow tNow
     let x := u.headDesc 1 31
     s.live = true ∧ DescStarts 1 31 tEnv x u ∧ x.op = opRECV ∧ u.rxs.find? (fun r => r.die == 1 && r.q == 31) = some
       r ∧ u.chain? r.chain = some c) ∧
    (let r : Rx := ⟨1, 31, 7, some 5⟩
     let c : Chain := { tFrame 7 1 (List.replicate 60 5) with ts := 0x0102030405, poison := [58] }
     let s :=
       { tQueue 1 (tDesc (9 + 60 * 2 ^ 32 + 2 ^ 11) 0 (7 * 2 ^ 32 + 16380 - 100) 0 0 0) with rxs := [r], chains := [c], bufs := [⟨7, 0, 3, 57⟩] }
     let u := s.atNow tNow
     let x := u.headDesc 1 31
     s.live = true ∧ DescStarts 1 31 tEnv x u ∧ x.op = opRECV ∧ u.rxs.find? (fun r => r.die == 1 && r.q == 31) = some
       r ∧ u.chain? r.chain = some c) ∧
    (let s := (tQueue 2 (tDesc (10 + 60 * 2 ^ 32) 0x20000 0 0 0 (15 * 2 ^ 48))).put (.prs .PORT_CFG_EN) 8 1 1
     let s := s.put (.prs .PORT_CFG_MODE) 2 1 1
     let u := s.atNow tNow
     let x := u.headDesc 1 31
     s.live = true ∧ DescStarts 1 31 tEnv x u ∧ x.op = opSEND ∧ u.availCells 1 (56 + u.qOwner 1 31) (cellsFor (x.len +
       4)) = true) ∧
    (let s :=
       { ((tQueue 2 (tDesc (10 + 60 * 2 ^ 32) 0x20000 0 0 0 (15 * 2 ^ 48))).put (.prs .PORT_CFG_EN) 8 1 1).put (.prs .PORT_CFG_MODE) 2 1 1 with chains := [tFrame 1 4194304 []] }
     let u := s.atNow tNow
     let x := u.headDesc 1 31
     s.live = true ∧ DescStarts 1 31 tEnv x u ∧ x.op = opSEND ∧ u.availCells 1 (56 + u.qOwner 1 31) (cellsFor (x.len +
       4)) = false) ∧
    (let s := (tQueue 2 (tDesc (10 + 60 * 2 ^ 32) 0x20000 0 0 0 (15 * 2 ^ 48))).put (.prs .PORT_CFG_EN) 8 1 1
     let s := s.put (.prs .PORT_CFG_MODE) 2 1 1
     let e : DmaEnv := ⟨false, [0x800], true⟩
     let u := s.atNow tNow
     let x := u.headDesc 1 31
     s.live = true ∧ DescStarts 1 31 e x u ∧ x.op = opSEND ∧ u.availCells 1 (56 + u.qOwner 1 31) (cellsFor (x.len +
       4)) = true) := by
  unfold DescStarts
  refine ⟨?_, ?_, ?_, ?_, ?_, ?_, ?_⟩ <;> decide +kernel

/-- What DescEnds assumes, clause by clause, can hold. -/
theorem test_wit_DescEnds :
    (let s := tUp
     let u := s.atNow tNow
     s.live = true ∧ (u.safe = true ∨ u.dieUp 1 = false ∨ u.qRuns 1 31 = false ∨ u.finWaits 1 31 = true) ∧ (u.safe =
       true ∨ u.dieUp 1 = false ∨ u.expired (.dma .xDUE) 1 31 = false ∨ (u.qRuns 1 31 = false ∧ u.qReady 1 31 = false))
       ∧ cplLate 1 31 0 u = false) ∧
    (let s := after (.dmaNop 1 31 tEnv tNow) (tQueue 0 (tDesc (2 ^ 8) 0 0 0 0 0))
     let u := s.atNow tNow
     let st := u.get (.dma .xST) 1 31
     s.live = true ∧ u.safe = false ∧ u.dieUp 1 = true ∧ u.qRuns 1 31 = true ∧ u.finWaits 1 31 = false ∧ backFails 1
       31 ⟨true, true⟩ u = none ∧ st < dsTIMEOUT) ∧
    (let s := tHost 0x20003 [9] (tQueue 0 (tDesc (8 + 2 ^ 27 + 2 ^ 29 + 3 * 2 ^ 24 + 4 * 2 ^ 32) 0x20000 0 0 0 0))
     let s := after (.dmaCheck 1 31 tEnv tNow) s
     let n : Now := ⟨tNow.osc + 16, tNow.tb⟩
     let u := s.atNow n
     let st := u.get (.dma .xST) 1 31
     s.live = true ∧ u.safe = false ∧ u.dieUp 1 = true ∧ u.qRuns 1 31 = true ∧ u.finWaits 1 31 = false ∧ backFails 1
       31 ⟨false, false⟩ u = none ∧ st < dsTIMEOUT ∧ u.flag (.dma .xFIN) 1 31 = true) ∧
    (let s := after (.dmaCopy 1 31 tEnv tNow) (tQueue 0 (tDesc (1 + 4 * 2 ^ 32) 0x20000 0x30000 0 0 0))
     let u := s.atNow tNow
     s.live = true ∧ u.safe = false ∧ u.dieUp 1 = true ∧ u.qRuns 1 31 = true ∧ u.finWaits 1 31 = false ∧ backFails 1
       31 ⟨false, true⟩ u = some dsHOST_ERR ∧ backFails 1 31 ⟨true, false⟩ u = some dsWB_FAIL ∧ cplLate 1 31 0 ((s.put
       (.hpt .CPL_TO_TO) 50).atNow tNow) = true ∧ cplLate 1 31 tNow.osc u = false) ∧
    (let s := (after (.dmaNop 1 31 tEnv tNow) (tQueue 0 (tDesc 0 0 0 0 0 0))).put (.dma .xDUE) 1 1 31
     let u := s.atNow tNow
     s.live = true ∧ u.safe = false ∧ u.dieUp 1 = true ∧ u.expired (.dma .xDUE) 1 31 = true ∧ u.qRuns 1 31 = true) ∧
    (let s := (tQueue 0 (tDesc 0 0 0 0 0 0)).put (.dma .xDUE) 1 1 31
     let u := s.atNow tNow
     let e : DmaEnv := ⟨false, [], false⟩
     s.live = true ∧ u.safe = false ∧ u.dieUp 1 = true ∧ u.expired (.dma .xDUE) 1 31 = true ∧ u.qReady 1 31 = true ∧
       qTurn 1 31 u = true ∧ fetched 1 31 e u = false) ∧
    (let s := tHost 0x20003 [9] (tQueue 0 (tDesc (1 + 2 ^ 27 + 2 ^ 28 + 3 * 2 ^ 24 + 4 * 2 ^ 32) 0x20000 0x30000 0 0
       0))
     let u := s.atNow tNow
     let e : DmaEnv := ⟨true, [], true⟩
     let x := u.headDesc 1 31
     s.live = true ∧ qTurn 1 31 u = true ∧ fetched 1 31 e u = true ∧ u.refusal 1 31 x = none ∧ u.unitFree 1 x = true ∧
       e.hostErr = true ∧ x.readsHost (u.qHost 1 31) = true ∧ x.op = opCOPY) ∧
    (let s := (tQueue 2 (tDesc (10 + 60 * 2 ^ 32) 0x20000 0 0 0 (15 * 2 ^ 48))).put (.prs .PORT_CFG_EN) 8 1 1
     let s := s.put (.prs .PORT_CFG_MODE) 2 1 1
     let u := s.atNow tNow
     let e : DmaEnv := ⟨true, [], true⟩
     let x := u.headDesc 1 31
     s.live = true ∧ qTurn 1 31 u = true ∧ fetched 1 31 e u = true ∧ u.refusal 1 31 x = none ∧ u.unitFree 1 x = true ∧
       e.hostErr = true ∧ x.readsHost (u.qHost 1 31) = true ∧ x.op = opSEND) ∧
    (let s := (tUp.put (.dma .Q_CFG_OWNER) 1 1 31).put (.dma .Q_STATUS_HALTED) 1 1 31
     s.live = true ∧ s.gateOf .hb .dma (some 1) = .pass ∧ s.ownsQueue .hb 1 31 = true ∧ s.flag (.dma .Q_CFG_EN) 1 31 =
       false ∧ s.ownsQueue .ha 1 31 = false ∧ s.gateOf .ha .dma (some 1) = .pass) ∧
    (let s := ((tUp.put (.dma .Q_CFG_OWNER) 1 1 31).put (.dma .Q_STATUS_HALTED) 1 1 31).put (.dma .Q_CFG_EN) 1 1 31
     s.live = true ∧ s.gateOf .hb .dma (some 1) = .pass ∧ s.ownsQueue .hb 1 31 = true ∧ s.flag (.dma .Q_CFG_EN) 1 31 =
       true) := by
  refine ⟨?_, ?_, ?_, ?_, ?_, ?_, ?_, ?_, ?_, ?_⟩ <;> decide +kernel

end Sys2Proof.Tests
end

section
/-!
SUPPORT. What the proofs of several blocks share: a write that passes the list of R513, a flag after a put, and the low bits of a
written word.
-/

namespace Sys2Proof

open Machine

/-- A write that passes has its effect on the state as found (R513). -/
theorem exec_gated_pass {i : Instr} {p : Party} {b : Blk} {d : Option Nat} {f : State → State} {s : State}
    (he : exec i s = s.run (gated p b d f)) (hl : s.live = true) (hg : s.gateOf p b d = .pass) :
    exec i s = .next (s.commit (f s.quiet)) := by
  have hq : s.quiet.gateOf p b d = .pass := hg
  rw [he, State.run_live _ _ hl, gated, hq]

/-- What a command leaves of a frame, from what its effect leaves of the state as found. -/
theorem Frame.ofQuiet {B : Key → Bool} {s t : State} (h : Frame B s.quiet t) : Frame B s (s.commit t) :=
  ((Frame.quiet s).trans h).commit

@[simp] theorem flag_put_fld (s : State) {f g : Fld} (v i j k a b c : Nat) (h : g ≠ f) :
    (s.put f v i j k).flag g a b c = s.flag g a b c := by
  simp [State.flag_eq, h]

@[simp] theorem flag_put_same (s : State) (f : Fld) (v i j k : Nat) :
    (s.put f v i j k).flag f i j k = (Key.cut ⟨f, i, j, k⟩ v != 0) := by
  simp [State.flag_eq]

/-- The four low bits of a word with one of them set. -/
theorem bitOf_withBits {lo n : Nat} (v : Nat) (hlo : lo < 4) (hn : n < 4) :
    bitOf (withBits v lo 1 1) n = (n == lo || bitOf v n) := by
  rw [Bool.eq_iff_iff]
  simp only [bitOf, withBits, bitsOf, Bool.or_eq_true, beq_iff_eq]
  interval_cases lo <;> interval_cases n <;> omega

/-- The bits above the four low ones of a word with one of these set. -/
theorem withBits_div {lo : Nat} (v : Nat) (hlo : lo < 4) : withBits v lo 1 1 / 16 = v / 16 := by
  simp only [withBits, bitsOf]
  interval_cases lo <;> omega

end Sys2Proof
end

section
/-!
PROOFS. Register reads: what a read by COUNTER_LO_READ comes to, and the latches of the 64-bit pairs (R14, R401, R403).
-/

namespace Sys2Proof

open Machine

/-- What a register read leaves: its effect on the state, and the value sent to the party. -/
theorem exec_counterLoRead {p : Party} {a : Fin 67108864} {s t : State} {v : Nat} (hl : s.live = true)
    (h : regRead p a s.quiet = (v, t)) : exec (.counterLoRead p a) s = .next (s.commit (t.emit (.read p.num a v))) := by
  have e : exec (.counterLoRead p a) s =
      s.run (fun u => (regRead p a u).2.emit (.read p.num a (regRead p a u).1)) := rfl
  rw [e, State.run_live _ _ hl, h]

/-- A value read is sent whatever the safe state stops. -/
theorem commit_emit_read_outs (s t : State) (n a v : Nat) (h : t.outs = []) :
    (s.commit (t.emit (.read n a v))).outs = [.read n a v] := by
  simp [State.commit, h, Out.stopped]

/-- The places that `regRead` finds shut are those that do not answer. -/
theorem shut_eq_not_answers (p : Party) (a : Nat) (l : Loc) (s : State) :
    (s.quiet.readShut p (placeOf a).blk l.die || s.quiet.awayChan l || noMsix p l || s.quiet.noRate (placeOf a).blk l) =
      !answers p a l s := (Bool.not_not _).symm

/-- A place that answers a party is read by `locRead`. -/
theorem regRead_answers {p : Party} {a : Nat} {l : Loc} {s : State} (h : findReg a = some l)
    (ha : answers p a l s = true) : regRead p a s.quiet = locRead p a l s.quiet := by
  simp [regRead, h, shut_eq_not_answers, ha]

/-- A place that is shut to a party reads 0 (R401). -/
theorem regRead_shut {p : Party} {a : Nat} {l : Loc} {s : State} (h : findReg a = some l)
    (ha : answers p a l s = false) : regRead p a s.quiet = (0, s.quiet) := by
  simp [regRead, h, shut_eq_not_answers, ha]

/-- A plain register that no read takes from reads as its fields. -/
theorem locRead_plain {p : Party} {a : Nat} {l : Loc} (s : State) (hk : l.rd.kind = .plain) (h1 : l.rd.reg ≠ .HPT_SELF)
    (h2 : l.rd.reg ≠ .HPT_STR_TAKE) (h3 : l.rd.reg ≠ .EVC_CLAIM) (h4 : l.rd.reg ≠ .EVC_FIFO_POP) :
    locRead p a l s = (s.fieldsRead p l, s) := by
  unfold locRead
  rw [hk]
  dsimp only
  split
  next e => exact absurd e h1
  next e => exact absurd e h2
  next e => exact absurd e h3
  next e => exact absurd e h4
  next => rfl

/-- The parties have numbers of their own (R405). -/
theorem Party.num_injective : Function.Injective Party.num := by
  intro p q h
  cases p <;> cases q <;> simp_all [Party.num]

/-- A read that takes nothing leaves the state as it was. -/
theorem counterLoRead_still {p : Party} {a : Fin 67108864} {s : State} {v : Nat} (hl : s.live = true)
    (h : regRead p a s.quiet = (v, s.quiet)) :
    ∃ t, exec (.counterLoRead p a) s = .next t ∧ t.outs = [.read p.num a v] ∧ Still s t :=
  ⟨_, exec_counterLoRead hl h, commit_emit_read_outs _ _ _ _ _ rfl, ((Frame.quiet s).trans (Frame.emit _ _)).commit⟩

/-- A read of the low half of a pair takes the reader's latch and nothing else (R14, R403). -/
theorem counterLoRead_lo {p : Party} {a : Fin 67108864} {l : Loc} {s : State} {f : Fld} (hl : s.live = true)
    (hr : findReg a = some l) (ha : answers p a l s = true) (hk : l.rd.kind = .lo f) :
    ∃ t, exec (.counterLoRead p a) s = .next t ∧ t.outs = [.read p.num a (s.pairValue f l.i l.j % 2 ^ 32)] ∧
      t.store.get (latchKey p a) = s.pairValue f l.i l.j % 2 ^ 64 ∧ Frame (fun k => k == latchKey p a) s t := by
  have h : regRead p a s.quiet = (s.pairValue f l.i l.j % 2 ^ 32,
      s.quiet.put (.hpt .xLATCH) (s.pairValue f l.i l.j) p.num a) := by
    rw [regRead_answers hr ha]
    simp only [locRead, hk]
    rfl
  refine ⟨_, exec_counterLoRead hl h, commit_emit_read_outs _ _ _ _ _ rfl, State.get_put_same .., ?_⟩
  exact (((Frame.quiet s).trans (Frame.put _ _ _ _ _ _ (by simp [latchKey]))).trans (Frame.emit _ _)).commit

/-- Settles O25: the three kinds of read by their lemmas, and the latches of two parties are apart by the parties' numbers. -/
theorem counterPairsLatch : Obligations.CounterPairsLatch := by
  unfold Obligations.CounterPairsLatch
  refine ⟨fun p a l s hl hr ha => ⟨fun f hk => counterLoRead_lo hl hr ha hk, fun f hk => ?_, fun hk h1 h2 h3 h4 => ?_⟩,
    fun p a l s hl hr ha => counterLoRead_still hl (regRead_shut hr ha), fun p q a b hpq h => ?_⟩
  · refine counterLoRead_still hl ((regRead_answers hr ha).trans ?_)
    simp only [locRead, hk, State.quiet_store]
  · exact counterLoRead_still hl ((regRead_answers hr ha).trans (locRead_plain s.quiet hk h1 h2 h3 h4))
  · exact hpq (Party.num_injective (by simpa [latchKey] using congrArg Key.i h))

end Sys2Proof
end

section
/-!
PROOFS. Register writes by the rule of R513: what becomes of one that is refused, and the effect of one that passes.
-/

namespace Sys2Proof

open Machine

/-- Every register command of the table is a write by the rule of R513 to the block and die that it names. -/
theorem exec_of_writes {i : Instr} {p : Party} {b : Blk} {d : Option Nat} (h : i.writes = some (p, b, d)) (s : State) :
    ∃ f, exec i s = s.run (gated p b d f) := by
  cases i
  case registerWrite q a v be n =>
    simp only [Instr.writes] at h
    split at h
    · rename_i hw
      cases hr : findReg a with
      | none => rw [hr] at h; cases h
      | some l =>
        rw [hr] at h
        cases h
        refine ⟨regAct p (placeOf a).blk l v.toNat, ?_⟩
        show s.run (writeRequest p a v.toNat be n) = _
        congr 1
        funext u
        simp only [writeRequest, hw, if_true, regWrite, hr]
    · cases h
  all_goals cases h
  all_goals exact ⟨_, rfl⟩

/-- A field that came with the first minor of the HIR exists for every party (R411). -/
theorem fieldFor_of_hirMinor_zero {f : Fld} (h : f.hirMinor = 0) (p : Party) (s : State) : s.fieldFor p f = true := by
  cases p <;> simp [State.fieldFor, Party.port, h]

/-- FLT_CFG in the register map, by its own fields. -/
def fltCfg : Loc where
  rd := ⟨.FLT_CFG, .glob, 0x4, [], .plain, false,
    [⟨0, 1, .flt .CFG_UNLOCK_ACT, .rw, true⟩, ⟨1, 1, .flt .CFG_SAFE_LINK_DOWN, .rw, true⟩, ⟨2, 1, .flt .CFG_FAILOVER, .rw, true⟩,
      ⟨8, 4, .flt .CFG_HOLD_COUNT, .rw, true⟩, ⟨16, 8, .flt .CFG_HOLD_WIN, .rw, true⟩]⟩
  die := none
  i := 0
  j := 0
  k := 0

theorem findReg_fltCfg : findReg 0x30004 = some fltCfg := by decide

/-- A write of FLT_CFG puts the written bits into its five fields (R10, R13). -/
theorem regAct_fltCfg (p : Party) (v : Nat) (s : State) :
    regAct p .flt fltCfg v s =
      ((((s.put (.flt .CFG_UNLOCK_ACT) (bitsOf v 0 1)).put (.flt .CFG_SAFE_LINK_DOWN) (bitsOf v 1 1)).put
        (.flt .CFG_FAILOVER) (bitsOf v 2 1)).put (.flt .CFG_HOLD_COUNT) (bitsOf v 8 4)).put (.flt .CFG_HOLD_WIN) (bitsOf v 16 8) := by
  have hf : fltCfg.rd.fields.filter (fun f => s.fieldFor p f.fld) = fltCfg.rd.fields := by
    rw [List.filter_eq_self]
    intro f hf
    refine fieldFor_of_hirMinor_zero ?_ p s
    simp only [fltCfg, List.mem_cons, List.not_mem_nil, or_false] at hf
    obtain rfl | rfl | rfl | rfl | rfl := hf <;> rfl
  show writeFields p fltCfg v s = _
  rw [writeFields, hf]
  rfl

/-- A write that passes and is one of its register's act has that act's effect (R513). -/
theorem exec_registerWrite_pass {p : Party} {a : Fin 67108864} {v : Word} {be : Fin 16} {n : Nat} {s : State} {l : Loc}
    (hl : s.live = true) (hw : wellFormedWrite a be n = true) (hr : findReg a = some l)
    (hg : s.gateOf p (placeOf a).blk l.die = .pass) :
    exec (.registerWrite p a v be n) s = s.run (regAct p (placeOf a).blk l v.toNat) := by
  have hq : s.quiet.gateOf p (placeOf a).blk l.die = .pass := hg
  have e : exec (.registerWrite p a v be n) s = s.run (writeRequest p a v.toNat be n) := rfl
  rw [e, State.run_live _ _ hl, State.run_live _ _ hl]
  simp only [writeRequest, hw, if_true, regWrite, hr, gated, hq]

/-- A write of a bad form by a port is reported and counted (R400, R513). -/
theorem exec_registerWrite_bad {p : Party} {a : Fin 67108864} {be : Fin 16} {n : Nat} {s : State} (v : Word) (hl : s.live = true)
    (hw : wellFormedWrite a be n = false) : exec (.registerWrite p a v be n) s = .next (s.commit (badAccess p s.quiet)) := by
  have e : exec (.registerWrite p a v be n) s = s.run (writeRequest p a v.toNat be n) := rfl
  rw [e, State.run_live _ _ hl]
  simp [writeRequest, hw]

/-- What a refused write comes to: nothing, or a count in one place (R513). -/
theorem exec_of_writes_gate {i : Instr} {p : Party} {b : Blk} {d : Option Nat} (h : i.writes = some (p, b, d)) (s : State)
    (hl : s.live = true) : ∃ f, exec i s = .next (s.commit (gated p b d f s.quiet)) := by
  obtain ⟨f, hf⟩ := exec_of_writes h s
  exact ⟨f, hf.trans (State.run_live _ _ hl)⟩

/-- A count of 16 bits saturates, and nothing else moves. -/
theorem bumpSat_counted (s : State) (f : Fld) (i : Nat) (hw : f.width = 16) :
    (s.commit (s.quiet.bumpSat f i)).outs = [] ∧
    (s.commit (s.quiet.bumpSat f i)).get f i = min (s.get f i + 1) 65535 ∧
    Frame (fun k => k == ⟨f, i, 0, 0⟩) s (s.commit (s.quiet.bumpSat f i)) := by
  refine ⟨by simp [State.commit, State.bumpSat], ?_, (Frame.bumpSat _ _ _ _ _ _ (by simp)).ofQuiet⟩
  rw [State.get_commit, State.bumpSat_eq, State.get_put_same, Key.cut_fit]
  · rw [hw]; rfl
  · show _ < 2 ^ f.width
    rw [hw]; omega

/-- A field takes bits of a written value that fit it. -/
theorem get_put_bits (s : State) (f : Fld) (v lo len i j k : Nat) (hw : f.width = len) :
    (s.put f (bitsOf v lo len) i j k).get f i j k = bitsOf v lo len := by
  rw [State.get_put_same, Key.cut_fit]
  exact hw ▸ Nat.mod_lt _ (Nat.two_pow_pos _)

/-- A write of FLT_CFG that passes (R10, R13). -/
theorem exec_registerWrite_fltCfg {p : Party} {s : State} (v : Word) (hl : s.live = true) (hg : s.gateOf p .flt none = .pass) :
    exec (.registerWrite p 0x30004 v 15 1) s = .next (s.commit (regAct p .flt fltCfg v.toNat s.quiet)) :=
  (exec_registerWrite_pass hl (by decide) findReg_fltCfg hg).trans (State.run_live _ _ hl)

/-- FLT_CFG takes the bits of a value that passes into its fields, and nothing else moves. -/
theorem registerWrite_fltCfg_takes {p : Party} {s : State} (v : Word) (hl : s.live = true) (hg : s.gateOf p .flt none = .pass) :
    ∃ t, exec (.registerWrite p 0x30004 v 15 1) s = .next t ∧ t.outs = [] ∧
      t.get (.flt .CFG_UNLOCK_ACT) = bitsOf v.toNat 0 1 ∧ t.get (.flt .CFG_SAFE_LINK_DOWN) = bitsOf v.toNat 1 1 ∧
      t.get (.flt .CFG_FAILOVER) = bitsOf v.toNat 2 1 ∧ t.get (.flt .CFG_HOLD_COUNT) = bitsOf v.toNat 8 4 ∧
      t.get (.flt .CFG_HOLD_WIN) = bitsOf v.toNat 16 8 ∧
      Frame (fun k => k.fld == .flt .CFG_UNLOCK_ACT || k.fld == .flt .CFG_SAFE_LINK_DOWN || k.fld == .flt .CFG_FAILOVER ||
        k.fld == .flt .CFG_HOLD_COUNT || k.fld == .flt .CFG_HOLD_WIN) s t := by
  refine ⟨_, exec_registerWrite_fltCfg v hl hg, ?_⟩
  rw [regAct_fltCfg]
  refine ⟨by simp [State.commit], ?_, ?_, ?_, ?_, ?_, Frame.ofQuiet ?_⟩
  · simpa using get_put_bits s.quiet (.flt .CFG_UNLOCK_ACT) _ 0 1 0 0 0 rfl
  · simpa using get_put_bits s.quiet (.flt .CFG_SAFE_LINK_DOWN) _ 1 1 0 0 0 rfl
  · simpa using get_put_bits s.quiet (.flt .CFG_FAILOVER) _ 2 1 0 0 0 rfl
  · simpa using get_put_bits s.quiet (.flt .CFG_HOLD_COUNT) _ 8 4 0 0 0 rfl
  · exact get_put_bits _ (.flt .CFG_HOLD_WIN) _ 16 8 0 0 0 rfl
  · exact ((((Frame.put _ _ _ _ _ _ rfl).trans (Frame.put _ _ _ _ _ _ rfl)).trans (Frame.put _ _ _ _ _ _ rfl)).trans
      (Frame.put _ _ _ _ _ _ rfl)).trans (Frame.put _ _ _ _ _ _ rfl)

/-- Settles O24: a write is refused or passes by the four outcomes of `gateOf`, each with its one count. -/
theorem writeCountedOnce : Obligations.WriteCountedOnce := by
  unfold Obligations.WriteCountedOnce
  refine ⟨fun p a v be n s hl => ⟨fun hw => ⟨fun q hq => ?_, fun hq => ?_⟩, fun l hw hr hg => exec_registerWrite_pass hl hw hr hg⟩,
    fun i p b d s hl hi => ?_, fun p v s hl hg => registerWrite_fltCfg_takes v hl hg⟩
  · refine ⟨_, exec_registerWrite_bad v hl hw, ?_⟩
    obtain ⟨-, hget, -⟩ := bumpSat_counted s (.hpt .ERR_BAD_ACCESS) q rfl
    simp only [badAccess, hq]
    exact ⟨by simp [State.commit, State.bumpSat, Out.stopped], hget,
      ((Frame.bumpSat _ _ _ _ _ _ (by simp)).trans (Frame.emit _ _)).ofQuiet⟩
  · refine ⟨_, exec_registerWrite_bad v hl hw, ?_⟩
    simp only [badAccess, hq]
    exact ⟨by simp [State.commit], (Frame.refl _ _).ofQuiet⟩
  · obtain ⟨f, hf⟩ := exec_of_writes_gate hi s hl
    have hq : s.quiet.gateOf p b d = s.gateOf p b d := rfl
    rw [gated, hq] at hf
    refine ⟨fun hg => ?_, fun hg => ?_, fun hg => ?_⟩ <;> rw [hg] at hf
    · exact ⟨_, hf, by simp [State.commit], (Frame.refl _ _).ofQuiet⟩
    · exact ⟨_, hf, bumpSat_counted s _ 0 rfl⟩
    · exact ⟨_, hf, bumpSat_counted s _ p.num rfl⟩

end Sys2Proof
end

section
/-!
PROOFS. The check-value units: a FINISH effect gives the result the POISON of the context, cut to one bit.
-/

namespace Sys2Proof

open Machine

/-- The pulse of an effect touches no field of a check-value unit. -/
theorem evPulse_chk_get (f : Chk) (i j n det : Nat) (s : State) : (evPulse n det s).get (.chk f) i j = s.get (.chk f) i j :=
  (evPulse_frame n det s).regs _ rfl

/-- The result's POISON is that of the context, as the one bit of its field holds it (R354). -/
theorem chkFinish_poison (d c : Nat) (s : State) :
    (chkFinish d c s).get (.chk .RSTAT_POISON) d c = s.get (.chk .CFG_POISON) d c % 2 := by
  simp [chkFinish, evPulse_chk_get, State.bump, Key.cut, Fld.width, Chk.width]

/-- A register store that holds 2 as the POISON of a unit, which the list of a store may, with FINISH pending on die 0. -/
def wideStore : Store where
  cells := [(⟨.mid .STATUS_DIE_UP, 0, 0, 0⟩, 1), (⟨.chk .CFG_POISON, 0, 0, 0⟩, 2), (⟨.chk .CTRL_FINISH, 0, 0, 0⟩, 1)]
  ok := by decide

/-- The state after reset but for that store, 16 edges on. -/
def wideState : State := { State.reset with store := wideStore, osc := 16 }

/-- What the effect of FINISH assumes holds there, with a POISON of 2. -/
theorem wideState_finishes :
    wideState.live = true ∧ (wideState.atNow ⟨0, 0⟩).safe = false ∧ (wideState.atNow ⟨0, 0⟩).dieUp (0 : Die) = true ∧
    (wideState.atNow ⟨0, 0⟩).flag (.chk .CTRL_FINISH) (0 : Die) (0 : ChkUnit) = true ∧
    (wideState.atNow ⟨0, 0⟩).get (.chk .xFIN_AT) (0 : Die) (0 : ChkUnit) + 16 ≤ (wideState.atNow ⟨0, 0⟩).osc ∧
    (wideState.atNow ⟨0, 0⟩).get (.chk .CFG_POISON) (0 : Die) (0 : ChkUnit) = 2 := by decide +kernel

/-- A FINISH effect that is due is the effect of `chkFinish` (R354). -/
theorem exec_chkFinishEffect {d : Die} {c : ChkUnit} {n : Now} {s : State} (hl : s.live = true)
    (hs : (s.atNow n).safe = false) (hd : (s.atNow n).dieUp d = true) (hf : (s.atNow n).flag (.chk .CTRL_FINISH) d c = true)
    (ho : (s.atNow n).get (.chk .xFIN_AT) d c + 16 ≤ (s.atNow n).osc) :
    exec (.chkFinishEffect d c n) s = .next (s.commit (chkFinish d c (s.atNow n))) := by
  have e : exec (.chkFinishEffect d c n) s = s.runAt n (fun s => s.when (!s.safe && s.dieUp d && s.flag (.chk .CTRL_FINISH) d c &&
    decide (s.get (.chk .xFIN_AT) d c + 16 ≤ s.osc)) (chkFinish d c)) := rfl
  rw [e, State.runAt_live _ _ _ hl]
  simp [hs, hd, hf, ho]

/-- Refutes O18: the statement takes every register store, and a store whose list holds 2 as the one-bit POISON of a unit's context
gives a result with POISON 0, which is not the value held. -/
theorem not_chkFeeds : ¬ Obligations.ChkFeeds := by
  unfold Obligations.ChkFeeds
  rintro ⟨-, -, h⟩
  obtain ⟨hl, hs, hd, hf, ho, hp⟩ := wideState_finishes
  have hu := (h 0 0 ⟨0, 0⟩ wideState (wideState.atNow ⟨0, 0⟩) hl rfl).1
  obtain ⟨t, ht, -, hpoison, -⟩ := hu hs hd hf ho
  rw [exec_chkFinishEffect hl hs hd hf ho] at ht
  obtain rfl := Host.Outcome.next.inj ht
  rw [State.get_commit, chkFinish_poison, hp] at hpoison
  exact absurd hpoison (by decide)

end Sys2Proof
end

section
/-!
PROOFS. What the end of a run leaves alone: the release of buffers and chains, the refresh of units and clusters, and the pools'
marks, each by the register keys that it may touch (R207, R291).
-/

namespace Sys2Proof

open Machine

variable {B : Key → Bool} {s t u : State}

/-- Of registers only those that pass `touched` differ, and the memories, the safe state, the clock and the units of stripes not at
all; buffers, chains and what is sent may. -/
structure Mild (touched : Key → Bool) (s t : State) : Prop where
  regs  : SameRegs touched s t
  bytes : SameBytes s t
  safe  : t.safe = s.safe
  osc   : t.osc = s.osc
  units : t.units = s.units

theorem Frame.mild (h : Frame B s t) : Mild B s t := by
  obtain ⟨hr, hb, ht, hs, hc, -⟩ := h
  unfold SameTraffic at ht
  exact ⟨hr, hb, hs, hc.1, by simp only [ht]⟩

theorem Mild.refl (B : Key → Bool) (s : State) : Mild B s s := (Frame.refl B s).mild

theorem Mild.trans (h : Mild B s t) (g : Mild B t u) : Mild B s u := by
  refine ⟨h.regs.trans g.regs, ?_, g.safe.trans h.safe, g.osc.trans h.osc, g.units.trans h.units⟩
  obtain ⟨h1, h2, h3, h4⟩ := h.bytes
  obtain ⟨g1, g2, g3, g4⟩ := g.bytes
  exact ⟨g1.trans h1, g2.trans h2, g3.trans h3, g4.trans h4⟩

theorem Mild.put (s : State) (f : Fld) (v i j k : Nat) (h : B ⟨f, i, j, k⟩ = true) : Mild B s (s.put f v i j k) :=
  (Frame.put s f v i j k h).mild

/-- A step that changes no register and none of what `Mild` names. -/
theorem Mild.of_store (hr : t.store = s.store) (hb : SameBytes s t) (hs : t.safe = s.safe) (ho : t.osc = s.osc)
    (hu : t.units = s.units) : Mild B s t := ⟨fun _ _ => by rw [hr], hb, hs, ho, hu⟩

theorem Mild.when (p : Bool) (f : State → State) (h : Mild B s (f s)) : Mild B s (s.when p f) := by
  unfold State.when
  split
  · exact h
  · exact Mild.refl B s

theorem Mild.ite {c : Prop} [Decidable c] (h : Mild B s t) (g : Mild B s u) : Mild B s (if c then t else u) := by
  split
  · exact h
  · exact g

theorem Mild.forEach {α : Type} (l : List α) (f : α → State → State) (h : ∀ x ∈ l, ∀ v, Mild B v (f x v)) (s : State) :
    Mild B s (forEach l f s) :=
  forEach_inv (fun v => Mild B s v) l f (fun x hx v hv => hv.trans (h x hx v)) s (Mild.refl B s)

/-- The settings of a channel's control register and its home die, which no action of a run touches. -/
def ctlSetting (f : Cch) : Bool :=
  f == .CTRL_HO_MODULE || f == .CTRL_HO_SLOT || f == .CTRL_ALT_DIE || f == .CTRL_PRIORITY || f == .CTRL_HOME_DIE

/-- What an action on the run of a channel may touch: the channel's registers but for its control settings, the units and
clusters, the marks of the gating, the pools' marks and the event controller. -/
def runKeys (ch : Nat) (k : Key) : Bool :=
  match k.fld with
  | .cch f => k.i == ch && !ctlSetting f
  | .ref _ | .qrc _ => k.i == ch
  | .cus _ | .pdk _ | .evc _ => true
  | .pwr f => f == .xGATE_AT
  | .hpt f => f == .PBA_WORD
  | _ => false

theorem runKeys_of_evcKeys (ch : Nat) {k : Key} (h : evcKeys k = true) : runKeys ch k = true := by
  obtain ⟨f, i, j, n⟩ := k
  cases f <;> simp_all [evcKeys, Fld.home, runKeys]

theorem runKeys_cch (ch : Nat) {f : Cch} (h : ctlSetting f = false) (j k : Nat) : runKeys ch ⟨.cch f, ch, j, k⟩ = true := by
  simp [runKeys, h]

theorem runKeys_ref (ch : Nat) (f : Ref) (j k : Nat) : runKeys ch ⟨.ref f, ch, j, k⟩ = true := by simp [runKeys]

theorem runKeys_qrc (ch : Nat) (f : Qrc) (j k : Nat) : runKeys ch ⟨.qrc f, ch, j, k⟩ = true := by simp [runKeys]

theorem Frame.run_of_evc (ch : Nat) (h : Frame evcKeys s t) : Frame (runKeys ch) s t := h.mono (fun _ => runKeys_of_evcKeys ch)

-- Buffers and chains

theorem giveBack_mild (h : Nat) (s : State) : Mild B s (giveBack h s) := Mild.of_store rfl ⟨rfl, rfl, rfl, rfl⟩ rfl rfl rfl

theorem dropWork_mild (ch n : Nat) (s : State) : Mild (runKeys ch) s (dropWork ch n s) := by
  unfold dropWork
  exact Mild.when _ _ ((giveBack_mild _ s).trans (Mild.put _ _ _ _ _ _ (runKeys_ref ch _ _ _)))

theorem dropSlab_mild (ch : Nat) (s : State) : Mild (runKeys ch) s (dropSlab ch s) := by
  unfold dropSlab
  exact Mild.when _ _ ((giveBack_mild _ s).trans (Mild.put _ _ _ _ _ _ (runKeys_qrc ch _ _ _)))

theorem dropReserves_mild (d ch : Nat) (s : State) : Mild (runKeys ch) s (dropReserves d ch s) :=
  Mild.forEach _ _ (fun _ _ v => Mild.when _ _ (Mild.put v _ _ _ _ _ rfl)) s

theorem lowerReserves_mild (ch d : Nat) (s : State) : Mild (runKeys ch) s (lowerReserves d s) :=
  Mild.ite (Mild.refl _ _) ((Mild.forEach _ _ (fun _ _ v => Mild.when _ _ (Mild.put v _ _ _ _ _ rfl)) s).trans
    (Mild.put _ _ _ _ _ _ rfl))

theorem returnChain_mild (ch : Nat) (c : Chain) (s : State) : Mild (runKeys ch) s (returnChain c s) := by
  have h0 : Mild (runKeys ch) s { s with chains := s.chains.filter (fun x => x.id != c.id) } :=
    Mild.of_store rfl ⟨rfl, rfl, rfl, rfl⟩ rfl rfl rfl
  have h1 := h0.trans (Frame.free _).mild
  exact Mild.ite h0 (Mild.ite h1 (((h1.trans (Mild.put _ _ _ _ _ _ rfl)).trans (Mild.put _ _ _ _ _ _ rfl)).trans
    (lowerReserves_mild ch _ _)))

theorem dropRef_mild (ch id : Nat) (s : State) : Mild (runKeys ch) s (dropRef id s) := by
  unfold dropRef
  split
  · exact Mild.refl _ _
  · exact Mild.ite (returnChain_mild ch _ s) (Mild.of_store rfl ⟨rfl, rfl, rfl, rfl⟩ rfl rfl rfl)

theorem eraseInput_mild (i : Inp) (s : State) : Mild B s { s with inputs := s.inputs.erase i } :=
  Mild.of_store rfl ⟨rfl, rfl, rfl, rfl⟩ rfl rfl rfl

theorem consume_mild (ch : Nat) (l : List Inp) (s : State) : Mild (runKeys ch) s (consume l s) :=
  Mild.forEach _ _ (fun i _ v => (eraseInput_mild i v).trans (dropRef_mild ch _ _)) s

-- Units, clusters and pools

/-- What the units, the clusters and the pools' marks take with them when a channel's work changes. -/
def settleKeys (k : Key) : Bool :=
  match k.fld with
  | .cus _ | .pdk _ | .evc _ => true
  | .pwr f => f == .xGATE_AT
  | .hpt f => f == .PBA_WORD
  | _ => false

theorem settleKeys_of_evcKeys {k : Key} (h : evcKeys k = true) : settleKeys k = true := by
  obtain ⟨f, i, j, n⟩ := k
  cases f <;> simp_all [evcKeys, Fld.home, settleKeys]

theorem runKeys_of_settleKeys (ch : Nat) {k : Key} (h : settleKeys k = true) : runKeys ch k = true := by
  obtain ⟨f, i, j, n⟩ := k
  cases f <;> simp_all [settleKeys, runKeys]

theorem gateTouch_frame (c : Nat) (s : State) : Frame settleKeys s (gateTouch c s) :=
  Frame.ite (Frame.when _ _ (fun _ => Frame.put s _ _ _ _ _ rfl)) (Frame.put s _ _ _ _ _ rfl)

theorem cusRefresh_frame (d : Nat) (s : State) : Frame settleKeys s (cusRefresh d s) := by
  unfold cusRefresh
  refine ((Frame.forEach _ _ (fun u _ v => ?_) s).trans (Frame.forEach _ _ (fun c _ v => gateTouch_frame c v) _)).trans
    (Frame.forEach _ _ (fun c _ v => Frame.put v _ _ _ _ _ rfl) _)
  exact (((Frame.when _ _ (fun _ => Frame.put v _ _ _ _ _ rfl)).trans (Frame.put _ _ _ _ _ _ rfl)).trans
    (Frame.put _ _ _ _ _ _ rfl)).trans (Frame.putB _ _ _ _ _ _ rfl)

theorem poolSettle_frame (d : Nat) (s : State) : Frame settleKeys s (poolSettle d s) := by
  unfold poolSettle
  refine ((Frame.when _ _ (fun _ => Frame.putB s _ _ _ _ _ rfl)).trans
    (Frame.when _ _ (fun _ => (evLevel_frame _ _ _ _).mono (fun _ => settleKeys_of_evcKeys)))).trans (Frame.forEach _ _ (fun r _ v => ?_) _)
  exact (Frame.forEach _ _ (fun c _ w => Frame.when _ _ (fun _ => Frame.putB w _ _ _ _ _ rfl)) v).trans
    (Frame.when _ _ (fun _ => (evLevel_frame _ _ _ _).mono (fun _ => settleKeys_of_evcKeys)))

-- The end of a run

theorem setChState_frame (ch st : Nat) (s : State) : Frame (runKeys ch) s (setChState ch st s) :=
  Frame.ite (Frame.refl _ _) ((Frame.put s _ _ _ _ _ (runKeys_cch ch rfl _ _)).trans ((evPulse_frame _ _ _).run_of_evc ch))

/-- The state of a channel after its STATE changes. -/
theorem setChState_state (ch st : Nat) (h : st < 8) (s : State) : (setChState ch st s).get (.cch .STATUS_STATE) ch = st := by
  unfold setChState
  split
  · assumption
  · exact ((evPulse_frame _ _ _).regs _ rfl).trans ((State.get_put_same ..).trans (Key.cut_fit _ _ h))

/-- The buffers and reserves of a channel on a die are released. -/
def dropHeld (d ch : Nat) (s : State) : State := dropReserves d ch (dropSlab ch (dropWork ch 0 (dropWork ch 1 s)))

/-- What a channel has received is released. -/
def consumeAll (ch : Nat) (s : State) : State := consume (s.inputs.filter (fun i => i.ch == ch)) s

/-- What a channel held is released. -/
def runRelease (ch : Nat) (s : State) : State := consumeAll ch (dropHeld (s.get (.cch .CTRL_HOME_DIE) ch) ch s)

/-- The registers show no layout of a channel. -/
def clearLayout (ch : Nat) (s : State) : State :=
  forEach (List.range 8) (fun j s => (s.put (.cch .UNIT_UNIT) 255 ch j).put (.cch .UNIT_OFS) 0 ch j) s

/-- The marks of a run return to their start. -/
def clearMarks (ch : Nat) (s : State) : State :=
  let s := ((s.put (.cch .xSTOP) 0 ch).put (.cch .STATUS_COST) 0 ch).put (.cch .STATUS_STRIPES_M1) 0 ch
  let s := ((s.put (.cch .CTRL_STOP) 0 ch).put (.cch .CTRL_MOVE_DIE) 0 ch).put (.cch .CTRL_HANDOVER) 0 ch
  let s := ((s.put (.cch .xBANK) 0 ch).put (.cch .xMOVE_AT) 0 ch).put (.cch .xHO) 0 ch
  ((s.put (.cch .xL_N) 0 ch 0 1).put (.cch .xL_N) 0 ch).put (.cch .xP_NEW) 0 ch

theorem runRelease_mild (ch : Nat) (s : State) : Mild (runKeys ch) s (runRelease ch s) :=
  ((((dropWork_mild ch 1 s).trans (dropWork_mild ch 0 _)).trans (dropSlab_mild ch _)).trans (dropReserves_mild _ ch _)).trans
    (consume_mild ch _ _)

/-- The stripe units of a channel go. -/
def dropUnits (ch : Nat) (s : State) : State := { s with units := s.units.filter (fun u => u.ch != ch) }

theorem endRun_eq (ch st : Nat) (s : State) :
    endRun ch st s = poolSettle (s.get (.cch .CTRL_HOME_DIE) ch) (cusRefresh (s.get (.cch .CTRL_HOME_DIE) ch)
      (clearLayout ch (clearMarks ch (setChState ch st (dropUnits ch (runRelease ch s)))))) := rfl

/-- The cells of a channel's layout as registers show them. -/
def unitKeys (k : Key) : Bool := k.fld == .cch .UNIT_UNIT || k.fld == .cch .UNIT_OFS

theorem clearLayout_frame {B : Key → Bool} (ch : Nat) (h : ∀ j, B ⟨.cch .UNIT_UNIT, ch, j, 0⟩ = true)
    (g : ∀ j, B ⟨.cch .UNIT_OFS, ch, j, 0⟩ = true) (s : State) : Frame B s (clearLayout ch s) :=
  Frame.forEach _ _ (fun j _ v => (Frame.put v _ _ _ _ _ (h j)).trans (Frame.put _ _ _ _ _ _ (g j))) s

theorem runPut_frame {ch : Nat} {f : Cch} (h : ctlSetting f = false) (v j k : Nat) (s : State) :
    Frame (runKeys ch) s (s.put (.cch f) v ch j k) := Frame.put s _ _ _ _ _ (runKeys_cch ch h j k)

theorem clearMarks_frame (ch : Nat) (s : State) : Frame (runKeys ch) s (clearMarks ch s) := by
  have p : ∀ {f : Cch} (h : ctlSetting f = false) (j k : Nat) {u : State}, Frame (runKeys ch) s u →
      Frame (runKeys ch) s (u.put (.cch f) 0 ch j k) := fun h j k _ hu => hu.trans (runPut_frame h 0 j k _)
  exact p rfl 0 0 (p rfl 0 0 (p rfl 0 1 (p rfl 0 0 (p rfl 0 0 (p rfl 0 0 (p rfl 0 0 (p rfl 0 0 (p rfl 0 0 (p rfl 0 0 (p rfl 0 0
    (p rfl 0 0 (Frame.refl _ s))))))))))))

theorem clearLayout_get (ch : Nat) {f : Cch} (h : f ≠ .UNIT_UNIT) (g : f ≠ .UNIT_OFS) (s : State) :
    (clearLayout ch s).get (.cch f) ch = s.get (.cch f) ch :=
  (clearLayout_frame (B := unitKeys) ch (fun _ => rfl) (fun _ => rfl) s).regs _ (by simp [unitKeys, h, g])

/-- What the marks leave: no cost, no stop that waits, and the STATE as it is. -/
theorem clearMarks_reads (ch : Nat) (s : State) :
    (clearLayout ch (clearMarks ch s)).get (.cch .STATUS_STATE) ch = s.get (.cch .STATUS_STATE) ch ∧
    (clearLayout ch (clearMarks ch s)).get (.cch .STATUS_COST) ch = 0 ∧
    (clearLayout ch (clearMarks ch s)).get (.cch .CTRL_STOP) ch = 0 := by
  simp [clearMarks, clearLayout_get, Key.cut]

/-- What the end of a run leaves (R207, R291). -/
theorem endRun_ends (ch st : Nat) (h : st < 8) (s : State) :
    SameRegs (runKeys ch) s (endRun ch st s) ∧ SameBytes s (endRun ch st s) ∧ (endRun ch st s).safe = s.safe ∧
    (endRun ch st s).osc = s.osc ∧ (endRun ch st s).units = s.units.filter (fun u => u.ch != ch) ∧
    (endRun ch st s).get (.cch .STATUS_STATE) ch = st ∧ (endRun ch st s).get (.cch .STATUS_COST) ch = 0 ∧
    (endRun ch st s).flag (.cch .CTRL_STOP) ch = false := by
  rw [endRun_eq]
  generalize s.get (.cch .CTRL_HOME_DIE) ch = d
  have h1 := runRelease_mild ch s
  generalize runRelease ch s = r at h1
  have hst := setChState_state ch st h (dropUnits ch r)
  have h2 := ((setChState_frame ch st (dropUnits ch r)).trans (clearMarks_frame ch _)).trans
    (clearLayout_frame ch (fun j => runKeys_cch ch rfl j 0) (fun j => runKeys_cch ch rfl j 0) _)
  obtain ⟨m1, m2, m3⟩ := clearMarks_reads ch (setChState ch st (dropUnits ch r))
  rw [hst] at m1
  generalize clearLayout ch _ = m at h2 m1 m2 m3
  have h3 := (cusRefresh_frame d m).trans (poolSettle_frame d _)
  have h4 := h2.trans (h3.mono (fun _ => runKeys_of_settleKeys ch))
  refine ⟨h1.regs.trans h4.regs, ?_, h4.safe.trans h1.safe, h4.clock.1.trans h1.osc, ?_, (h3.regs _ rfl).trans m1,
    (h3.regs _ rfl).trans m2, ?_⟩
  · obtain ⟨a1, a2, a3, a4⟩ := h1.bytes
    obtain ⟨b1, b2, b3, b4⟩ := h4.bytes
    exact ⟨b1.trans a1, b2.trans a2, b3.trans a3, b4.trans a4⟩
  · rw [h4.mild.units, dropUnits, h1.units]
  · have hs : (poolSettle d (cusRefresh d m)).get (.cch .CTRL_STOP) ch = 0 := (h3.regs _ rfl).trans m3
    rw [State.flag_eq, hs]; rfl

end Sys2Proof
end

section
/-!
PROOFS. What a command has sent, and the commands that wait, decide nothing: two states that differ in these alone still differ in
these alone after the end of a run, a move or an offer.
-/

namespace Sys2Proof

open Machine

/-- Two states that differ at most in what was sent and in the commands that wait. -/
def Sim (s t : State) : Prop := ∃ o p, t = { s with outs := o, pending := p }

variable {s t u : State}

theorem Sim.refl (s : State) : Sim s s := ⟨s.outs, s.pending, rfl⟩

theorem Sim.symm (h : Sim s t) : Sim t s := by
  obtain ⟨o, p, rfl⟩ := h
  exact ⟨s.outs, s.pending, rfl⟩

theorem Sim.trans (h : Sim s t) (g : Sim t u) : Sim s u := by
  obtain ⟨o, p, rfl⟩ := h
  obtain ⟨a, b, rfl⟩ := g
  exact ⟨a, b, rfl⟩

/-- What does not look at these is the same. -/
theorem Sim.read {α : Type} (h : Sim s t) (g : State → α) (hg : ∀ u o p, g { u with outs := o, pending := p } = g u) :
    g t = g s := by
  obtain ⟨o, p, rfl⟩ := h
  exact hg s o p

theorem Sim.get (h : Sim s t) (f : Fld) (i j k : Nat) : t.get f i j k = s.get f i j k :=
  h.read (fun u => u.get f i j k) (fun _ _ _ => rfl)

theorem Sim.flag (h : Sim s t) (f : Fld) (i j k : Nat) : t.flag f i j k = s.flag f i j k :=
  h.read (fun u => u.flag f i j k) (fun _ _ _ => rfl)

theorem Sim.put (h : Sim s t) (f : Fld) (v i j k : Nat) : Sim (s.put f v i j k) (t.put f v i j k) := by
  obtain ⟨o, p, rfl⟩ := h
  exact ⟨o, p, rfl⟩

theorem Sim.emit (s : State) (o : Out) : Sim s (s.emit o) := ⟨s.outs ++ [o], s.pending, rfl⟩

theorem Sim.when (h : Sim s t) (b : Bool) {f g : State → State} (hf : Sim (f s) (g t)) : Sim (s.when b f) (t.when b g) := by
  cases b
  · exact h
  · exact hf

theorem Sim.ite {c : Prop} [Decidable c] {s' t' : State} (h : Sim s t) (g : Sim s' t') :
    Sim (if c then s else s') (if c then t else t') := by
  split
  · exact h
  · exact g

theorem Sim.forEach {α : Type} (l : List α) {f g : α → State → State} (hf : ∀ x u v, Sim u v → Sim (f x u) (g x v)) :
    ∀ {s t : State}, Sim s t → Sim (forEach l f s) (forEach l g t) := by
  induction l with
  | nil => exact fun h => h
  | cons x l ih => exact fun h => ih (hf x _ _ h)

/-- A step whose parameter is read off the state. -/
theorem Sim.step {α : Type} (h : Sim s t) (g : State → α) (hg : ∀ u o p, g { u with outs := o, pending := p } = g u)
    {F : α → State → State} (hF : ∀ a u v, Sim u v → Sim (F a u) (F a v)) : Sim (F (g s) s) (F (g t) t) := by
  rw [h.read g hg]
  exact hF _ _ _ h

-- Events

theorem sendMsix_sim (n : Nat) (h : Sim s t) : Sim (sendMsix n s) (sendMsix n t) :=
  h.step (fun u => u.msixMasked n) (fun _ _ _ => rfl)
    (F := fun b u => if b = true then u.put (.hpt .PBA_WORD) 1 n else u.emit (.msix n))
    (fun _ _ _ h => Sim.ite (h.put _ _ _ _ _) ((Sim.emit _ _).symm.trans (h.trans (Sim.emit _ _))))

theorem settleTarget_sim (n : Nat) (h : Sim s t) : Sim (settleTarget n s) (settleTarget n t) :=
  h.step (fun u => ((u.bestSrc n).isSome, u.flag (.evc .TGT_STATUS_SIGNAL) n)) (fun _ _ _ => rfl)
    (F := fun a u => if (a.1 && !a.2 && decide (n < 2)) = true then sendMsix n (u.putB (.evc .TGT_STATUS_SIGNAL) a.1 n)
      else u.putB (.evc .TGT_STATUS_SIGNAL) a.1 n)
    (fun _ _ _ h => Sim.ite (sendMsix_sim n (h.put _ _ _ _ _)) (h.put _ _ _ _ _))

theorem settle_sim (h : Sim s t) : Sim (settle s) (settle t) :=
  settleTarget_sim 3 (settleTarget_sim 2 (settleTarget_sim 1 (settleTarget_sim 0 h)))

theorem fifoWrite_sim (n data : Nat) (b : Bool) (h : Sim s t) : Sim (fifoWrite n data b s) (fifoWrite n data b t) := by
  obtain ⟨o, p, rfl⟩ := h
  exact Sim.ite ⟨o, p, rfl⟩ ⟨o, p, rfl⟩

theorem srcEntry_sim (n det : Nat) (h : Sim s t) : Sim (srcEntry n det s) (srcEntry n det t) :=
  h.step (fun u => (u.flag (.evc .SRC_CFG_FIFO_EN) n, u.srcTarget n)) (fun _ _ _ => rfl)
    (F := fun a u => u.when a.1 (fifoWrite a.2 (n * 2 ^ 14 + det % 2 ^ 14) false))
    (fun _ _ _ h => h.when _ (fifoWrite_sim _ _ _ h))

theorem srcPend_sim (n : Nat) (h : Sim s t) : Sim (srcPend n s) (srcPend n t) := by
  obtain ⟨o, p, rfl⟩ := h
  exact Sim.ite ⟨o, p, rfl⟩ ⟨o, p, rfl⟩

theorem crossed_sim {b b' : State} (hb : Sim b b') (h : Sim s t) (n : Nat) : crossed b' t n = crossed b s n := by
  obtain ⟨o, p, rfl⟩ := hb
  obtain ⟨o', p', rfl⟩ := h
  rfl

theorem thrPulse_sim {b b' : State} (hb : Sim b b') (n : Nat) (h : Sim s t) : Sim (thrPulse b n s) (thrPulse b' n t) := by
  unfold thrPulse
  rw [crossed_sim hb h, h.read (fun u => u.fifoLevel n) (fun _ _ _ => rfl)]
  exact Sim.ite (srcPend_sim _ (srcEntry_sim _ _ (h.put _ _ _ _ _))) h

theorem thrAll_sim {b b' : State} (hb : Sim b b') (h : Sim s t) : Sim (thrAll b s) (thrAll b' t) := by
  unfold thrAll
  refine Sim.forEach _ (fun n u v hu => ?_) (Sim.forEach _ (fun n u v hu => thrPulse_sim hb n hu) h)
  rw [crossed_sim hb h]
  exact Sim.ite hu (thrPulse_sim hb n hu)

theorem evPulse_sim (n det : Nat) (h : Sim s t) : Sim (evPulse n det s) (evPulse n det t) :=
  Sim.ite h (settle_sim (thrAll_sim h (srcPend_sim n (srcEntry_sim n det h))))

theorem evLevel_sim (n : Nat) (on : Bool) (det : Nat) (h : Sim s t) : Sim (evLevel n on det s) (evLevel n on det t) := by
  have h1 : Sim (s.putB (.evc .SRC_CFG_ASSERTED) on n) (t.putB (.evc .SRC_CFG_ASSERTED) on n) := h.put _ _ _ _ _
  have h2 : Sim (if on && !s.flag (.evc .SRC_CFG_ASSERTED) n then thrAll s (srcEntry n det (s.putB (.evc .SRC_CFG_ASSERTED) on n))
      else s.putB (.evc .SRC_CFG_ASSERTED) on n)
      (if on && !t.flag (.evc .SRC_CFG_ASSERTED) n then thrAll t (srcEntry n det (t.putB (.evc .SRC_CFG_ASSERTED) on n))
      else t.putB (.evc .SRC_CFG_ASSERTED) on n) := by
    rw [h.flag]
    exact Sim.ite (thrAll_sim h (srcEntry_sim _ _ h1)) h1
  exact settle_sim (h2.step (fun u => (u.flag (.evc .SRC_CFG_PENDING) n, u.srcActive n)) (fun _ _ _ => rfl)
    (F := fun a u => if (on && !a.1 && !a.2) = true then u.put (.evc .SRC_CFG_PENDING) 1 n else u)
    (fun _ _ _ h => Sim.ite (h.put _ _ _ _ _) h))

theorem setChState_sim (ch st : Nat) (h : Sim s t) : Sim (setChState ch st s) (setChState ch st t) :=
  h.step (fun u => u.get (.cch .STATUS_STATE) ch) (fun _ _ _ => rfl)
    (F := fun a u => if a = st then u else evPulse (8 * ch + 1) st (u.put (.cch .STATUS_STATE) st ch))
    (fun _ _ _ h => Sim.ite h (evPulse_sim _ _ (h.put _ _ _ _ _)))

-- Buffers and chains

theorem giveBack_sim (b : Nat) (h : Sim s t) : Sim (giveBack b s) (giveBack b t) := by
  obtain ⟨o, p, rfl⟩ := h
  exact ⟨o, p, rfl⟩

theorem dropWork_sim (ch n : Nat) (h : Sim s t) : Sim (dropWork ch n s) (dropWork ch n t) :=
  h.step (fun u => u.get (.ref .xWB) ch 0 (n % 2)) (fun _ _ _ => rfl)
    (F := fun b u => u.when (b != 0) (fun s => (giveBack (b - 1) s).put (.ref .xWB) 0 ch 0 (n % 2)))
    (fun _ _ _ h => h.when _ ((giveBack_sim _ h).put _ _ _ _ _))

theorem dropSlab_sim (ch : Nat) (h : Sim s t) : Sim (dropSlab ch s) (dropSlab ch t) :=
  h.step (fun u => u.get (.qrc .xSLAB) ch) (fun _ _ _ => rfl)
    (F := fun b u => u.when (b != 0) (fun s => (giveBack (b - 1) s).put (.qrc .xSLAB) 0 ch))
    (fun _ _ _ h => h.when _ ((giveBack_sim _ h).put _ _ _ _ _))

theorem dropReserves_sim (d ch : Nat) (h : Sim s t) : Sim (dropReserves d ch s) (dropReserves d ch t) := by
  refine Sim.forEach _ (fun c u v hu => ?_) h
  obtain ⟨o, p, rfl⟩ := hu
  exact Sim.when ⟨o, p, rfl⟩ _ ⟨o, p, rfl⟩

theorem lowerReserves_sim (d : Nat) (h : Sim s t) : Sim (lowerReserves d s) (lowerReserves d t) := by
  unfold lowerReserves
  rw [h.read (fun u => u.cellDeficit d) (fun _ _ _ => rfl)]
  refine Sim.ite h (Sim.put (Sim.forEach _ (fun o u v hu => ?_) h) _ _ _ _ _)
  obtain ⟨a, p, rfl⟩ := hu
  exact Sim.when ⟨a, p, rfl⟩ _ ⟨a, p, rfl⟩

theorem returnChain_sim (c : Chain) (h : Sim s t) : Sim (returnChain c s) (returnChain c t) := by
  obtain ⟨o, p, rfl⟩ := h
  exact Sim.ite ⟨o, p, rfl⟩ (Sim.ite ⟨o, p, rfl⟩ (lowerReserves_sim _ ⟨o, p, rfl⟩))

theorem dropRef_sim (id : Nat) (h : Sim s t) : Sim (dropRef id s) (dropRef id t) := by
  unfold dropRef
  rw [h.read (fun u => u.chain? id) (fun _ _ _ => rfl)]
  split
  · exact h
  · refine Sim.ite (returnChain_sim _ h) ?_
    obtain ⟨o, p, rfl⟩ := h
    exact ⟨o, p, rfl⟩

theorem consume_sim (l : List Inp) (h : Sim s t) : Sim (consume l s) (consume l t) := by
  refine Sim.forEach l (fun i u v hu => ?_) h
  refine dropRef_sim _ ?_
  obtain ⟨o, p, rfl⟩ := hu
  exact ⟨o, p, rfl⟩

-- Units, clusters and pools

theorem gateTouch_sim (c : Nat) (h : Sim s t) : Sim (gateTouch c s) (gateTouch c t) := by
  obtain ⟨o, p, rfl⟩ := h
  exact Sim.ite (Sim.when ⟨o, p, rfl⟩ _ ⟨o, p, rfl⟩) ⟨o, p, rfl⟩

/-- The LOW bit and the level source of a die's cells. -/
def settleCells (d : Nat) (s : State) : State :=
  let low := decide (s.cellFree d < s.get (.pdk .CELL_THR_THR) d)
  let det := s.cellFree d / 8
  let s := s.when (s.flag (.pdk .STATUS_CELL_LOW) d != low) (fun s => s.putB (.pdk .STATUS_CELL_LOW) low d)
  s.when (s.flag (.evc .SRC_CFG_ASSERTED) (832 + 8 * d) != low) (evLevel (832 + 8 * d) low det)

/-- The LOW bits and the level source of a group's classes, with those that are low. -/
def settleClasses (d r : Nat) (lows : List Nat) (s : State) : State :=
  let s := forEach (List.range 8) (fun c s => s.when (s.flag (.pdk .CLS_THR_LOW) (4 * d + r) c != lows.contains c)
    (fun s => s.putB (.pdk .CLS_THR_LOW) (lows.contains c) (4 * d + r) c)) s
  s.when (s.flag (.evc .SRC_CFG_ASSERTED) (833 + 8 * d + r) == lows.isEmpty)
    (evLevel (833 + 8 * d + r) (!lows.isEmpty) (lows.headD 0))

/-- The classes of a group that are low. -/
def lowClasses (g : Nat) (s : State) : List Nat :=
  (List.range 8).filter (fun c => decide (s.classFree g c < s.get (.pdk .CLS_THR_THR) g c))

theorem poolSettle_eq (d : Nat) (s : State) : poolSettle d s =
    forEach (List.range 4) (fun r s => settleClasses d r (lowClasses (4 * d + r) s) s) (settleCells d s) := rfl

theorem settleCells_sim (d : Nat) (h : Sim s t) : Sim (settleCells d s) (settleCells d t) := by
  have h1 : Sim (s.when (s.flag (.pdk .STATUS_CELL_LOW) d != decide (s.cellFree d < s.get (.pdk .CELL_THR_THR) d))
      (fun u => u.putB (.pdk .STATUS_CELL_LOW) (decide (s.cellFree d < s.get (.pdk .CELL_THR_THR) d)) d))
      (t.when (s.flag (.pdk .STATUS_CELL_LOW) d != decide (s.cellFree d < s.get (.pdk .CELL_THR_THR) d))
      (fun u => u.putB (.pdk .STATUS_CELL_LOW) (decide (s.cellFree d < s.get (.pdk .CELL_THR_THR) d)) d)) :=
    h.when _ (h.put _ _ _ _ _)
  unfold settleCells
  rw [h.read (fun u => u.cellFree d) (fun _ _ _ => rfl), h.get, h.flag]
  dsimp only
  rw [h1.flag]
  exact h1.when _ (evLevel_sim _ _ _ h1)

theorem settleClasses_sim (d r : Nat) (lows : List Nat) (h : Sim s t) : Sim (settleClasses d r lows s) (settleClasses d r lows t) := by
  have h1 := Sim.forEach (List.range 8)
    (f := fun c s => s.when (s.flag (.pdk .CLS_THR_LOW) (4 * d + r) c != lows.contains c)
      (fun s => s.putB (.pdk .CLS_THR_LOW) (lows.contains c) (4 * d + r) c))
    (fun c u v hu => hu.step (fun w => w.flag (.pdk .CLS_THR_LOW) (4 * d + r) c) (fun _ _ _ => rfl)
      (F := fun b w => w.when (b != lows.contains c) (fun s => s.putB (.pdk .CLS_THR_LOW) (lows.contains c) (4 * d + r) c))
      (fun _ _ _ hw => hw.when _ (hw.put _ _ _ _ _))) h
  exact h1.step (fun w => w.flag (.evc .SRC_CFG_ASSERTED) (833 + 8 * d + r)) (fun _ _ _ => rfl)
    (F := fun b w => w.when (b == lows.isEmpty) (evLevel (833 + 8 * d + r) (!lows.isEmpty) (lows.headD 0)))
    (fun _ _ _ hw => hw.when _ (evLevel_sim _ _ _ hw))

theorem poolSettle_sim (d : Nat) (h : Sim s t) : Sim (poolSettle d s) (poolSettle d t) := by
  rw [poolSettle_eq, poolSettle_eq]
  exact Sim.forEach _ (fun r _ _ hu => hu.step (lowClasses (4 * d + r)) (fun _ _ _ => rfl)
    (fun lows _ _ hw => settleClasses_sim d r lows hw)) (settleCells_sim d h)

/-- A unit shows whether it is booked. -/
def showBooked (u : Nat) (mine : List Slot) (s : State) : State :=
  s.when (s.get (.cus .UNIT_STATE) u == 1 || s.get (.cus .UNIT_STATE) u == 2)
    (fun s => s.put (.cus .UNIT_STATE) (if mine.isEmpty then 1 else 2) u)

/-- The work of the channel of a slot, with the settings that it runs with. -/
def slotWork (s : State) (x : Slot) : Work := s.work x.ch (s.chBank x.ch)

/-- A unit shows its load, its domain and whether it is on HEVC work. -/
def showLoad (u : Nat) (mine : List Slot) (work : Slot → Work) (s : State) : State :=
  let turns := fun x : Slot => if x.hevc then max 1 (work x).hevcUnits else 1
  let fill := mine.foldl (fun a x => a + ((x.len : Nat) : Rat) / (x.per * (turns x : Nat))) (0 : Rat)
  ((s.put (.cus .UNIT_LOAD) (min 255 fill.floor.toNat) u).put (.cus .UNIT_DOMAIN) ((mine.head?.map (·.dom)).getD 0) u).putB
    (.cus .UNIT_HEVC) (mine.any (·.hevc)) u

/-- A unit shows what the slots in force take of it. -/
def showUnit (all : List Slot) (u : Nat) (s : State) : State :=
  let mine := all.filter (fun x => x.unit == u)
  let s := showBooked u mine s
  showLoad u mine (slotWork s) s

/-- A cluster shows the load of its CABAC engine. -/
def showCabac (all : List Slot) (c : Nat) (work : Slot → Work) (s : State) : State :=
  let load := (all.filter (fun x => x.hevc && x.unit / 5 == c)).foldl (fun a x => a + (work x).share) (0 : Rat)
  s.put (.cus .CLUSTER_CABAC_LOAD) (load / 10).ceil.toNat c

/-- The units and clusters of a die show what the slots in force take. -/
def showDie (d : Nat) (all : List Slot) (s : State) : State :=
  let s := forEach ((List.range 16).map (· + 16 * d)) gateTouch (forEach (dieUnits d) (showUnit all) s)
  forEach ((List.range 16).map (· + 16 * d)) (fun c s => showCabac all c (slotWork s) s) s

theorem cusRefresh_eq (d : Nat) (s : State) : cusRefresh d s = showDie d (s.slotsInForce d) s := rfl

theorem showUnit_sim (all : List Slot) (u : Nat) (h : Sim s t) : Sim (showUnit all u s) (showUnit all u t) := by
  have hb : Sim (showBooked u (all.filter (fun x => x.unit == u)) s) (showBooked u (all.filter (fun x => x.unit == u)) t) := by
    obtain ⟨o, p, rfl⟩ := h
    exact Sim.when ⟨o, p, rfl⟩ _ ⟨o, p, rfl⟩
  exact hb.step slotWork (fun _ _ _ => rfl) (F := showLoad u (all.filter (fun x => x.unit == u)))
    (fun _ _ _ hw => ((hw.put _ _ _ _ _).put _ _ _ _ _).put _ _ _ _ _)

theorem showCabac_sim (all : List Slot) (c : Nat) (h : Sim s t) :
    Sim (showCabac all c (slotWork s) s) (showCabac all c (slotWork t) t) :=
  h.step slotWork (fun _ _ _ => rfl) (F := showCabac all c) (fun _ _ _ hw => hw.put _ _ _ _ _)

theorem cusRefresh_sim (d : Nat) (h : Sim s t) : Sim (cusRefresh d s) (cusRefresh d t) := by
  rw [cusRefresh_eq, cusRefresh_eq]
  refine h.step (fun u => u.slotsInForce d) (fun _ _ _ => rfl) (F := showDie d) (fun all u v hu => ?_)
  exact Sim.forEach _ (fun c _ _ hw => showCabac_sim all c hw) (Sim.forEach _ (fun c _ _ hw => gateTouch_sim c hw)
    (Sim.forEach _ (fun c _ _ hw => showUnit_sim all c hw) hu))

-- The end of a run

theorem dropHeld_sim (d ch : Nat) (h : Sim s t) : Sim (dropHeld d ch s) (dropHeld d ch t) :=
  dropReserves_sim d ch (dropSlab_sim ch (dropWork_sim ch 0 (dropWork_sim ch 1 h)))

theorem consumeAll_sim (ch : Nat) (h : Sim s t) : Sim (consumeAll ch s) (consumeAll ch t) :=
  h.step (fun u => u.inputs.filter (fun i : Inp => i.ch == ch)) (fun _ _ _ => rfl) (F := consume) (fun l _ _ hu => consume_sim l hu)

theorem runRelease_sim (ch : Nat) (h : Sim s t) : Sim (runRelease ch s) (runRelease ch t) := by
  rw [runRelease, runRelease, h.get]
  exact consumeAll_sim ch (dropHeld_sim _ ch h)

theorem dropUnits_sim (ch : Nat) (h : Sim s t) : Sim (dropUnits ch s) (dropUnits ch t) := by
  obtain ⟨o, p, rfl⟩ := h
  exact ⟨o, p, rfl⟩

theorem clearMarks_sim (ch : Nat) (h : Sim s t) : Sim (clearMarks ch s) (clearMarks ch t) := by
  have h1 := ((h.put (.cch .xSTOP) 0 ch 0 0).put (.cch .STATUS_COST) 0 ch 0 0).put (.cch .STATUS_STRIPES_M1) 0 ch 0 0
  have h2 := ((h1.put (.cch .CTRL_STOP) 0 ch 0 0).put (.cch .CTRL_MOVE_DIE) 0 ch 0 0).put (.cch .CTRL_HANDOVER) 0 ch 0 0
  have h3 := ((h2.put (.cch .xBANK) 0 ch 0 0).put (.cch .xMOVE_AT) 0 ch 0 0).put (.cch .xHO) 0 ch 0 0
  exact ((h3.put (.cch .xL_N) 0 ch 0 1).put (.cch .xL_N) 0 ch 0 0).put (.cch .xP_NEW) 0 ch 0 0

theorem clearLayout_sim (ch : Nat) (h : Sim s t) : Sim (clearLayout ch s) (clearLayout ch t) := by
  unfold clearLayout
  refine Sim.forEach _ (fun j _ _ hu => ?_) h
  exact (hu.put (.cch .UNIT_UNIT) 255 ch j 0).put (.cch .UNIT_OFS) 0 ch j 0

theorem endRun_sim (ch st : Nat) (h : Sim s t) : Sim (endRun ch st s) (endRun ch st t) := by
  rw [endRun_eq, endRun_eq, h.get]
  exact poolSettle_sim _ (cusRefresh_sim _ (clearLayout_sim ch (clearMarks_sim ch (setChState_sim ch st (dropUnits_sim ch
    (runRelease_sim ch h))))))

theorem tryStop_sim (ch : Nat) (h : Sim s t) : Sim (tryStop ch s) (tryStop ch t) :=
  h.step (fun u => (u.get (.cch .xSTOP) ch, u.picsDone ch)) (fun _ _ _ => rfl)
    (F := fun a u => u.when (a.1 != 0 && a.2) (fun w => endRun ch (w.get (.cch .xSTOP) ch - 1) w))
    (fun _ _ _ hu => hu.when _ (hu.step (fun w => w.get (.cch .xSTOP) ch) (fun _ _ _ => rfl)
      (F := fun x w => endRun ch (x - 1) w) (fun _ _ _ hw => endRun_sim ch _ hw)))

-- The actions of the control register

theorem stopChan_sim (ch : Nat) (h : Sim s t) : Sim (stopChan ch s) (stopChan ch t) := by
  refine h.step (fun u => u.get (.cch .STATUS_STATE) ch) (fun _ _ _ => rfl)
    (F := fun st u => if st = chRUNNING ∨ st = chLEAVING then
        tryStop ch (((u.when (st == chLEAVING) (fun s => (((s.put (.cch .CTRL_MOVE_DIE) 0 ch).put (.cch .CTRL_HANDOVER) 0 ch).put
          (.cch .xMOVE_AT) 0 ch).put (.cch .xHO) 0 ch)).put (.cch .CTRL_STOP) 1 ch).put (.cch .xSTOP) 1 ch)
      else if st = chWAITING then endRun ch chSTOPPED ((u.put (.cch .CTRL_START) 0 ch).put (.cch .xRESUME) 0 ch)
      else u) (fun st _ _ hu => Sim.ite (tryStop_sim ch ?_) (Sim.ite (endRun_sim ch _ ((hu.put _ _ _ _ _).put _ _ _ _ _)) hu))
  exact ((hu.when _ ((((hu.put _ _ _ _ _).put _ _ _ _ _).put _ _ _ _ _).put _ _ _ _ _)).put _ _ _ _ _).put _ _ _ _ _

theorem moveReq_sim (ch : Nat) (h : Sim s t) : Sim (moveReq ch s) (moveReq ch t) := by
  obtain ⟨o, p, rfl⟩ := h
  exact Sim.ite (setChState_sim ch _ ⟨o, p, rfl⟩) (Sim.ite ⟨o, p, rfl⟩ ⟨o, p, rfl⟩)

end Sys2Proof
end

section
/-!
PROOFS. The four actions of a channel's control register, each by what it may touch and what it leaves (R204, R205, R207).
-/

namespace Sys2Proof

open Machine

variable {s t u : State} {B : Key → Bool}

-- Keys

/-- What an action may touch that does not end a run: the channel's registers but for its control settings, and its event. -/
def actKeys (ch : Nat) (k : Key) : Bool :=
  match k.fld with
  | .cch f => k.i == ch && !ctlSetting f
  | .evc _ => true
  | .hpt f => f == .PBA_WORD
  | _ => false

/-- The marks that ungating clusters leaves (R484, R485). -/
def gateMark (f : Pwr) : Bool :=
  f == .GATE_CLUSTERS || f == .GATE_REGIONS || f == .STATUS_GATED || f == .STATUS_SEASON || f == .xGATE_AT

/-- What ungating clusters may touch: its marks, and the event of the season. -/
def gateKeys (k : Key) : Bool :=
  match k.fld with
  | .pwr f => gateMark f
  | .evc _ => true
  | .hpt f => f == .PBA_WORD
  | _ => false

/-- What START may touch: what any action may, and what ungating may. -/
def startKeys (ch : Nat) (k : Key) : Bool := actKeys ch k || gateKeys k

theorem actKeys_of_evcKeys (ch : Nat) {k : Key} (h : evcKeys k = true) : actKeys ch k = true := by
  obtain ⟨f, i, j, n⟩ := k
  cases f <;> simp_all [evcKeys, Fld.home, actKeys]

theorem chanKeys_of_actKeys (ch : Nat) {k : Key} (h : actKeys ch k = true) : chanKeys ch k = true := by
  obtain ⟨f, i, j, n⟩ := k
  cases f <;> simp_all [evcKeys, Fld.home, actKeys, chanKeys]

theorem endKeys_of_runKeys (ch : Nat) {k : Key} (h : runKeys ch k = true) : endKeys ch k = true := by
  obtain ⟨f, i, j, n⟩ := k
  cases f <;> simp_all [evcKeys, Fld.home, runKeys, endKeys, poolKeys]

theorem Frame.act_of_evc (ch : Nat) (h : Frame evcKeys s t) : Frame (actKeys ch) s t := h.mono (fun _ => actKeys_of_evcKeys ch)

theorem Frame.start_of_act {ch : Nat} (h : Frame (actKeys ch) s t) : Frame (startKeys ch) s t :=
  h.mono (fun _ hk => by simp [startKeys, hk])

theorem actPut_frame {ch : Nat} {f : Cch} (h : ctlSetting f = false) (v j k : Nat) (s : State) :
    Frame (actKeys ch) s (s.put (.cch f) v ch j k) := Frame.put s _ _ _ _ _ (by simp [actKeys, h])

/-- One more put to a frame of an action. -/
theorem Frame.actPut {ch : Nat} (h : Frame (actKeys ch) s t) {f : Cch} (hf : ctlSetting f = false) (v j k : Nat) :
    Frame (actKeys ch) s (t.put (.cch f) v ch j k) := h.trans (actPut_frame hf v j k t)

theorem setChState_act (ch st : Nat) (s : State) : Frame (actKeys ch) s (setChState ch st s) :=
  Frame.ite (Frame.refl _ _) ((actPut_frame rfl _ _ _ s).trans ((evPulse_frame _ _ _).act_of_evc ch))

/-- A channel's change of STATE leaves its other registers. -/
theorem setChState_get (ch st : Nat) {f : Cch} (hf : f ≠ .STATUS_STATE) (i j k : Nat) (s : State) :
    (setChState ch st s).get (.cch f) i j k = s.get (.cch f) i j k := by
  unfold setChState
  split
  · rfl
  · refine ((evPulse_frame _ _ _).regs ⟨.cch f, i, j, k⟩ rfl).trans ?_
    exact State.get_put_fld _ _ _ _ _ _ _ _ _ _ (by simpa using hf)

-- START

/-- A start request that waits for its boundary (R207). -/
def startWaits (ch wait : Nat) (s : State) : State :=
  setChState ch chWAITING (((s.put (.cch .CTRL_START) 1 ch).put (.cch .xWAIT) wait ch).put (.cch .xP_AT) 0 ch)

theorem startWaits_frame (ch wait : Nat) (s : State) : Frame (actKeys ch) s (startWaits ch wait s) :=
  ((((Frame.refl _ s).actPut rfl _ _ _).actPut rfl _ _ _).actPut rfl _ _ _).trans (setChState_act _ _ _)

theorem startWaits_reads (ch wait : Nat) (s : State) :
    (startWaits ch wait s).get (.cch .STATUS_STATE) ch = chWAITING ∧ (startWaits ch wait s).get (.cch .CTRL_START) ch = 1 := by
  refine ⟨setChState_state ch _ (by decide) _, ?_⟩
  rw [startWaits, setChState_get ch _ (by decide)]
  simp [Key.cut, Fld.width, Cch.width]

/-- Of a start that is refused, put off or done, one that is put off. -/
theorem later_of_fate {a b : Prop} [Decidable a] [Decidable b] {why : List Nat} {x y t : State}
    (h : (if a then StartFate.refused why else if b then .later x else .started y) = .later t) : t = x := by
  split at h
  · cases h
  · split at h
    · cases h; rfl
    · cases h

/-- A start that is put off ungates clusters and notes the edge from which it may go on, and nothing else (R485). -/
theorem startOn_later {d ch n : Nat} {fresh : Bool} {s t : State} (h : startOn d ch n fresh s = .later t) :
    ∃ l, t = (ungate l s).put (.cch .xP_AT) (s.dueIn (200 * usNs)) ch := by
  unfold startOn at h
  dsimp only at h
  split at h
  · cases h
  · split at h
    · cases h
    · exact ⟨_, later_of_fate h⟩

-- Ungating (R484, R485)

/-- The gates themselves. -/
def gateBits (k : Key) : Bool :=
  k.fld == .pwr .GATE_CLUSTERS || k.fld == .pwr .GATE_REGIONS || k.fld == .pwr .STATUS_GATED

/-- The gates and their count, without the season that follows. -/
def gatesOnly (l : List Nat) (on : Bool) (s : State) : State :=
  let s := forEach l (fun c s => s.putBit (.pwr .GATE_CLUSTERS) (c % 16) on (c / 16)) s
  let s := forEach [0, 1] (fun d s => forEach (List.range 4) (fun r s =>
    s.putBit (.pwr .GATE_REGIONS) r ((List.range 4).all (fun k => s.gatedC (16 * d + 4 * r + k))) d) s) s
  s.put (.pwr .STATUS_GATED) ((List.range 32).filter s.gatedC).length

/-- The season that the count of gated clusters gives, where it is one of the two that follow it. -/
def seasonFollows (n : Nat) (s : State) : State :=
  s.when (decide (s.get (.pwr .STATUS_SEASON) ≤ 1)) (setSeason (if n = 0 then 0 else 1))

theorem setGates_eq (l : List Nat) (on : Bool) (s : State) : ∃ n, setGates l on s = seasonFollows n (gatesOnly l on s) :=
  ⟨_, rfl⟩

theorem gatesOnly_frame (l : List Nat) (on : Bool) (s : State) : Frame gateBits s (gatesOnly l on s) :=
  ((Frame.forEach _ _ (fun _ _ v => Frame.put v _ _ _ _ _ rfl) s).trans
    (Frame.forEach _ _ (fun _ _ v => Frame.forEach _ _ (fun _ _ w => Frame.put w _ _ _ _ _ rfl) v) _)).trans
    (Frame.put _ _ _ _ _ _ rfl)

theorem gateKeys_of_evcKeys {k : Key} (h : evcKeys k = true) : gateKeys k = true := by
  obtain ⟨f, i, j, n⟩ := k
  cases f <;> simp_all [evcKeys, Fld.home, gateKeys]

theorem gateKeys_of_gateBits {k : Key} (h : gateBits k = true) : gateKeys k = true := by
  obtain ⟨f, i, j, n⟩ := k
  cases f <;> simp_all [gateBits, gateKeys, gateMark]

theorem seasonFollows_frame (n : Nat) (s : State) : Frame gateKeys s (seasonFollows n s) :=
  Frame.when _ _ (fun _ => Frame.when _ _ (fun _ =>
    (Frame.put s _ _ _ _ _ rfl).trans ((evPulse_frame _ _ _).mono (fun _ => gateKeys_of_evcKeys))))

theorem ungate_frame (l : List Nat) (s : State) : Frame gateKeys s (ungate l s) := by
  obtain ⟨n, hn⟩ := setGates_eq l false s
  rw [ungate, hn]
  refine Frame.trans (((gatesOnly_frame l false s).mono (fun _ => gateKeys_of_gateBits)).trans (seasonFollows_frame n _)) ?_
  exact Frame.forEach _ _ (fun c _ v => Frame.put v _ _ _ _ _ rfl) _

theorem Frame.start_of_gate (ch : Nat) (h : Frame gateKeys s t) : Frame (startKeys ch) s t :=
  h.mono (fun _ hk => by simp [startKeys, hk])

/-- A change between the seasons that follow the gates is not one into or out of Winter. -/
theorem setSeason_inWinter {v : Nat} (hv : v ≤ 1) {s : State} (h : s.get (.pwr .STATUS_SEASON) ≤ 1) :
    (setSeason v s).inWinter = s.inWinter := by
  unfold setSeason State.when
  split
  · have hp : (evPulse 900 v (s.put (.pwr .STATUS_SEASON) v)).get (.pwr .STATUS_SEASON) = v :=
      ((evPulse_frame 900 v _).regs _ rfl).trans ((State.get_put_same ..).trans (Key.cut_fit _ _ (hv.trans_lt (by decide))))
    rw [State.inWinter, State.inWinter, hp, Bool.eq_iff_iff, beq_iff_eq, beq_iff_eq]
    omega
  · rfl

theorem seasonFollows_inWinter (n : Nat) (s : State) : (seasonFollows n s).inWinter = s.inWinter := by
  unfold seasonFollows
  rw [State.when_eq]
  split
  · next h => exact setSeason_inWinter (by split <;> omega) (by simpa using h)
  · rfl

theorem ungate_inWinter (l : List Nat) (s : State) : (ungate l s).inWinter = s.inWinter := by
  obtain ⟨n, hn⟩ := setGates_eq l false s
  rw [ungate, hn]
  have h1 : ∀ v, (forEach l (fun c s => s.put (.pwr .xGATE_AT) (s.dueIn secNs + 1) c) v).inWinter = v.inWinter := fun v =>
    forEach_inv (fun u => u.inWinter = v.inWinter) _ _ (fun c _ u hu => by rw [← hu]; simp [State.inWinter]) v rfl
  rw [h1, seasonFollows_inWinter, State.inWinter, State.inWinter]
  exact congrArg (· == 2) ((gatesOnly_frame l false s).regs ⟨.pwr .STATUS_SEASON, 0, 0, 0⟩ rfl)

theorem chStarted_iff (ch : Nat) (s : State) : s.chStarted ch = true ↔ s.get (.cch .STATUS_STATE) ch = chWAITING ∨
    s.get (.cch .STATUS_STATE) ch = chRUNNING ∨ s.get (.cch .STATUS_STATE) ch = chLEAVING := by
  simp [State.chStarted, or_assoc]

/-- A start that waits, with the clusters ungated that its plan needs or without any. -/
theorem requestStart_waits {ch : Nat} {s : State} (h : s.chStarted ch = false)
    (hd : s.domOn (s.get (.cch .FMT_DOMAIN) ch 0 1) = true) :
    ∃ w, requestStart ch s = startWaits ch w s ∨
      ∃ l, requestStart ch s = (ungate l (startWaits ch w s)).put (.cch .xP_AT) ((startWaits ch w s).dueIn (200 * usNs)) ch := by
  have hs := fun e => Bool.false_ne_true (h.symm.trans ((chStarted_iff ch s).mpr e))
  refine ⟨if s.rasterRuns (s.get (.cch .FMT_DOMAIN) ch 0 1) then s.picNow (s.get (.cch .FMT_DOMAIN) ch 0 1) + 1 else 0, ?_⟩
  unfold requestStart
  dsimp only
  rw [if_neg hs, hd]
  simp only [Bool.not_true, Bool.false_eq_true, if_false]
  split
  · next t ht =>
    obtain ⟨l, rfl⟩ := startOn_later ht
    exact .inr ⟨l, rfl⟩
  · exact .inl rfl

/-- A started channel takes no further start. -/
theorem requestStart_started {ch : Nat} {s : State} (h : s.chStarted ch = true) : requestStart ch s = s := by
  exact if_pos ((chStarted_iff ch s).mp h)

/-- A domain that is not enabled refuses a start at once. -/
theorem requestStart_refused {ch : Nat} {s : State} (h : s.chStarted ch = false)
    (hd : s.domOn (s.get (.cch .FMT_DOMAIN) ch 0 1) = false) : requestStart ch s = refuseStart ch [whyFORMAT] s := by
  have hs := fun e => Bool.false_ne_true (h.symm.trans ((chStarted_iff ch s).mpr e))
  unfold requestStart
  dsimp only
  rw [if_neg hs, hd]
  rfl

theorem evPulse_cch_get (n det : Nat) (f : Cch) (i j k : Nat) (s : State) :
    (evPulse n det s).get (.cch f) i j k = s.get (.cch f) i j k := (evPulse_frame n det s).regs _ rfl

/-- A start that waits, or waits for clusters that it has ungated, touches its keys alone. -/
theorem requestStart_waits_frame {ch : Nat} {s : State} (h : s.chStarted ch = false)
    (hd : s.domOn (s.get (.cch .FMT_DOMAIN) ch 0 1) = true) :
    Frame (startKeys ch) s (requestStart ch s) ∧ (requestStart ch s).get (.cch .STATUS_STATE) ch = chWAITING ∧
    (requestStart ch s).get (.cch .CTRL_START) ch = 1 ∧ (requestStart ch s).inWinter = s.inWinter := by
  obtain ⟨w, hw⟩ := requestStart_waits h hd
  have hf := startWaits_frame ch w s
  obtain ⟨h1, h2⟩ := startWaits_reads ch w s
  have hwin : (startWaits ch w s).inWinter = s.inWinter := congrArg (· == 2) (hf.regs ⟨.pwr .STATUS_SEASON, 0, 0, 0⟩ rfl)
  obtain hw | ⟨l, hw⟩ := hw <;> rw [hw]
  · exact ⟨hf.start_of_act, h1, h2, hwin⟩
  · have hu := ungate_frame l (startWaits ch w s)
    have hg : ∀ f : Cch, f ≠ .xP_AT → ((ungate l (startWaits ch w s)).put (.cch .xP_AT) ((startWaits ch w s).dueIn (200 * usNs))
        ch).get (.cch f) ch = (startWaits ch w s).get (.cch f) ch := fun f hf => by
      rw [State.get_put_fld _ _ _ _ _ _ _ _ _ _ (by simpa using hf)]
      exact hu.regs ⟨.cch f, ch, 0, 0⟩ rfl
    refine ⟨(hf.start_of_act.trans (hu.start_of_gate ch)).trans (actPut_frame rfl _ _ _ _).start_of_act, (hg _ (by decide)).trans h1,
      (hg _ (by decide)).trans h2, ?_⟩
    rw [← hwin, ← ungate_inWinter l (startWaits ch w s)]
    simp [State.inWinter]

/-- A refusal shows its reason. -/
theorem chRefuse_reads (ch why : Nat) (hw : why < 16) (s : State) :
    Frame (actKeys ch) s (chRefuse ch why s) ∧ (chRefuse ch why s).get (.cch .STATUS_REASON) ch = why ∧
    (chRefuse ch why s).flag (.cch .STATUS_CFG_REFUSED) ch = true ∧
    (chRefuse ch why s).get (.cch .STATUS_STATE) ch = s.get (.cch .STATUS_STATE) ch := by
  refine ⟨(((Frame.refl _ s).actPut rfl _ _ _).actPut rfl _ _ _).trans ((evPulse_frame _ _ _).act_of_evc ch), ?_, ?_, ?_⟩
  · rw [chRefuse, evPulse_cch_get, State.get_put_same, Key.cut_fit _ _ hw]
  · rw [chRefuse, State.flag_eq, evPulse_cch_get]
    simp [Key.cut, Fld.width, Cch.width]
  · rw [chRefuse, evPulse_cch_get]
    simp

/-- A start refused for its format (R207). -/
theorem refuseStart_format (ch : Nat) (s : State) :
    Frame (actKeys ch) s (refuseStart ch [whyFORMAT] s) ∧
    (refuseStart ch [whyFORMAT] s).get (.cch .STATUS_STATE) ch = chREFUSED ∧
    (refuseStart ch [whyFORMAT] s).get (.cch .STATUS_REASON) ch = whyFORMAT ∧
    (refuseStart ch [whyFORMAT] s).flag (.cch .STATUS_CFG_REFUSED) ch = true := by
  have e : refuseStart ch [whyFORMAT] s = chRefuse ch whyFORMAT (setChState ch chREFUSED
      ((s.free.2.put (.cch .CTRL_START) 0 ch).put (.cch .xRESUME) 0 ch)) := by
    simp [refuseStart, Nat.mod_one]
  obtain ⟨h1, h2, h3, h4⟩ := chRefuse_reads ch whyFORMAT (by decide) (setChState ch chREFUSED
      ((s.free.2.put (.cch .CTRL_START) 0 ch).put (.cch .xRESUME) 0 ch))
  rw [e]
  refine ⟨Frame.trans ?_ h1, h4.trans (setChState_state ch _ (by decide) _), h2, h3⟩
  exact (((Frame.free s).actPut rfl _ _ _).actPut rfl _ _ _).trans (setChState_act _ _ _)

-- STOP

/-- A running channel is to stop after its picture; one that leaves stays (R207). -/
def stopMarks (ch : Nat) (s : State) : State :=
  let s := s.when (s.get (.cch .STATUS_STATE) ch == chLEAVING) (fun s =>
    (((s.put (.cch .CTRL_MOVE_DIE) 0 ch).put (.cch .CTRL_HANDOVER) 0 ch).put (.cch .xMOVE_AT) 0 ch).put (.cch .xHO) 0 ch)
  (s.put (.cch .CTRL_STOP) 1 ch).put (.cch .xSTOP) 1 ch

theorem stopMarks_frame (ch : Nat) (s : State) : Frame (actKeys ch) s (stopMarks ch s) :=
  ((Frame.when _ _ (fun _ => ((((Frame.refl _ s).actPut rfl 0 0 0).actPut rfl 0 0 0).actPut rfl 0 0 0).actPut rfl 0 0 0)).actPut
    rfl _ _ _).actPut rfl _ _ _

theorem stopMarks_get (ch : Nat) {f : Cch} (h : f ≠ .CTRL_MOVE_DIE ∧ f ≠ .CTRL_HANDOVER ∧ f ≠ .xMOVE_AT ∧ f ≠ .xHO ∧
    f ≠ .CTRL_STOP ∧ f ≠ .xSTOP) (s : State) : (stopMarks ch s).get (.cch f) ch = s.get (.cch f) ch := by
  obtain ⟨h1, h2, h3, h4, h5, h6⟩ := h
  unfold stopMarks State.when
  split <;> simp [h1, h2, h3, h4, h5, h6]

theorem stopMarks_reads (ch : Nat) (s : State) :
    (stopMarks ch s).flag (.cch .CTRL_STOP) ch = true ∧ (stopMarks ch s).get (.cch .xSTOP) ch = 1 ∧
    (s.get (.cch .STATUS_STATE) ch = chLEAVING → (stopMarks ch s).flag (.cch .CTRL_MOVE_DIE) ch = false ∧
      (stopMarks ch s).flag (.cch .CTRL_HANDOVER) ch = false) := by
  refine ⟨?_, ?_, fun h => ?_⟩
  · simp [stopMarks, Key.cut, Fld.width, Cch.width]
  · simp [stopMarks, Key.cut, Fld.width, Cch.width]
  · simp [stopMarks, h, Key.cut]

theorem stopChan_running {ch : Nat} {s : State}
    (h : s.get (.cch .STATUS_STATE) ch = chRUNNING ∨ s.get (.cch .STATUS_STATE) ch = chLEAVING) :
    stopChan ch s = tryStop ch (stopMarks ch s) := if_pos h

theorem stopChan_waiting {ch : Nat} {s : State} (h : s.get (.cch .STATUS_STATE) ch = chWAITING) :
    stopChan ch s = endRun ch chSTOPPED ((s.put (.cch .CTRL_START) 0 ch).put (.cch .xRESUME) 0 ch) := by
  unfold stopChan
  dsimp only
  rw [h]
  rfl

/-- STOP of a channel that is not started does nothing. -/
theorem stopChan_idle {ch : Nat} {s : State} (h : s.chStarted ch = false) : stopChan ch s = s := by
  have hs := fun e => Bool.false_ne_true (h.symm.trans ((chStarted_iff ch s).mpr e))
  unfold stopChan
  dsimp only
  rw [if_neg (fun e => hs (.inr e)), if_neg (fun e => hs (.inl e))]

theorem picsDone_stopMarks (ch : Nat) (s : State) : (stopMarks ch s).picsDone ch = s.picsDone ch := by
  rw [State.picsDone, State.picsDone, stopMarks_get ch (by decide), stopMarks_get ch (by decide)]

/-- STOP of a channel with a picture in progress is noted (R207). -/
theorem stopChan_noted {ch : Nat} {s : State}
    (h : s.get (.cch .STATUS_STATE) ch = chRUNNING ∨ s.get (.cch .STATUS_STATE) ch = chLEAVING) (hp : s.picsDone ch = false) :
    stopChan ch s = stopMarks ch s := by
  rw [stopChan_running h, tryStop, picsDone_stopMarks, hp, Bool.and_false, State.when_false]

/-- STOP of a channel that waits, or that has no picture in progress, ends its run (R207). -/
theorem stopChan_ends {ch : Nat} {s : State} (h : s.get (.cch .STATUS_STATE) ch = chWAITING ∨
    s.chStarted ch = true ∧ s.picsDone ch = true) :
    ∃ u, Frame (actKeys ch) s u ∧ stopChan ch s = endRun ch chSTOPPED u := by
  by_cases hw : s.get (.cch .STATUS_STATE) ch = chWAITING
  · exact ⟨_, ((Frame.refl _ s).actPut rfl _ _ _).actPut rfl _ _ _, stopChan_waiting hw⟩
  · obtain ⟨hs, hp⟩ := h.resolve_left hw
    obtain ⟨-, hx, -⟩ := stopMarks_reads ch s
    refine ⟨_, stopMarks_frame ch s, ?_⟩
    rw [stopChan_running (((chStarted_iff ch s).mp hs).resolve_left hw), tryStop, picsDone_stopMarks, hp, hx]
    refine (State.when_true _ _).trans ?_
    rw [hx]
    rfl

-- MOVE_DIE

/-- MOVE_DIE of a running channel: it leaves (R204). -/
theorem armMove_reads (ch : Nat) (s : State) :
    Frame (actKeys ch) s (armMove ch s) ∧ (armMove ch s).get (.cch .STATUS_STATE) ch = chLEAVING ∧
    (armMove ch s).flag (.cch .CTRL_MOVE_DIE) ch = true := by
  refine ⟨(((Frame.refl _ s).actPut rfl _ _ _).actPut rfl _ _ _).trans (setChState_act _ _ _),
    setChState_state ch _ (by decide) _, ?_⟩
  rw [armMove, State.flag_eq, setChState_get ch _ (by decide)]
  simp [Key.cut, Fld.width, Cch.width]

theorem moveReq_running {ch : Nat} {s : State} (h : s.get (.cch .STATUS_STATE) ch = chRUNNING) : moveReq ch s = armMove ch s :=
  if_pos h

theorem moveReq_stopped {ch : Nat} {s : State} (h : s.get (.cch .STATUS_STATE) ch = chSTOPPED) :
    moveReq ch s = s.put (.cch .CTRL_HOME_DIE) (1 - s.get (.cch .CTRL_HOME_DIE) ch) ch := by
  unfold moveReq
  dsimp only
  rw [h]
  rfl

theorem moveReq_idle {ch : Nat} {s : State} (h : s.get (.cch .STATUS_STATE) ch ≠ chRUNNING)
    (h0 : s.get (.cch .STATUS_STATE) ch ≠ chSTOPPED) : moveReq ch s = s := by
  unfold moveReq
  dsimp only
  rw [if_neg h, if_neg h0]

-- HANDOVER

/-- A channel leaves for an offer: what it notes (R205). -/
def offerMarks (ch : Nat) (s : State) : State :=
  let dom := s.chDom ch
  let h := s.chGet (.cch .FLOW_OUT_FLOW) ch
  let n := s.picAfter dom (2 * s.hoToNs)
  let s := ((s.put (.cch .CTRL_HANDOVER) 1 ch).put (.cch .xHO) 1 ch).put (.cch .xHO_PIC) n ch
  let s := ((s.put (.cch .xHO_DUE) (s.dueIn s.hoToNs) ch).put (.cch .xHO_FLOW) (h + 1) ch).put (.cch .xHO_DOM) dom ch
  setChState ch chLEAVING s

/-- An offer goes to a module that a link reaches (R205). -/
def sendOffer (ch d m h n : Nat) (s : State) : State :=
  match s.linkTo m with
  | none => s
  | some l => (s.put (.cch .xHO_LINK) l ch).emit (.hoOffer m ⟨ch, s.offerBank ch, s.get (.shp .SEQ_NEXT) d h, n, s.offerMinor ch⟩)

/-- HANDOVER of a running channel whose domain runs (R205). -/
theorem handoverReq_running {ch : Nat} {s : State} (h : s.get (.cch .STATUS_STATE) ch = chRUNNING)
    (hr : s.rasterRuns (s.chDom ch) = true) :
    handoverReq ch s = sendOffer ch (s.get (.cch .CTRL_HOME_DIE) ch) (s.get (.cch .CTRL_HO_MODULE) ch)
      (s.chGet (.cch .FLOW_OUT_FLOW) ch) (s.picAfter (s.chDom ch) (2 * s.hoToNs)) (offerMarks ch s) := by
  have hc : ¬ (s.get (.cch .STATUS_STATE) ch ≠ chRUNNING ∨ (!s.rasterRuns (s.chDom ch)) = true) := by simp [h, hr]
  exact if_neg hc

theorem handoverReq_idle {ch : Nat} {s : State}
    (h : s.get (.cch .STATUS_STATE) ch ≠ chRUNNING ∨ s.rasterRuns (s.chDom ch) = false) : handoverReq ch s = s :=
  if_pos (h.imp_right (fun e => by rw [e]; rfl))

theorem offerMarks_reads (ch : Nat) (s : State) :
    Frame (actKeys ch) s (offerMarks ch s) ∧ (offerMarks ch s).get (.cch .STATUS_STATE) ch = chLEAVING ∧
    (offerMarks ch s).get (.cch .CTRL_HANDOVER) ch = 1 ∧ (offerMarks ch s).get (.cch .xHO) ch = 1 := by
  refine ⟨?_, setChState_state ch _ (by decide) _, ?_, ?_⟩
  · exact (((((((Frame.refl _ s).actPut rfl _ _ _).actPut rfl _ _ _).actPut rfl _ _ _).actPut rfl _ _ _).actPut rfl _ _ _).actPut
      rfl _ _ _).trans (setChState_act _ _ _)
  · rw [offerMarks, setChState_get ch _ (by decide)]
    simp [Key.cut, Fld.width, Cch.width]
  · rw [offerMarks, setChState_get ch _ (by decide)]
    simp [Key.cut, Fld.width, Cch.width]

theorem sendOffer_frame (ch d m h n : Nat) (s : State) : Frame (actKeys ch) s (sendOffer ch d m h n s) := by
  unfold sendOffer
  split
  · exact Frame.refl _ _
  · exact (actPut_frame rfl _ _ _ s).trans (Frame.emit _ _)

theorem sendOffer_get (ch d m h n : Nat) {f : Cch} (hf : f ≠ .xHO_LINK) (s : State) :
    (sendOffer ch d m h n s).get (.cch f) ch = s.get (.cch f) ch := by
  unfold sendOffer
  split
  · rfl
  · simp [hf]

/-- The links are not the channels' to change. -/
theorem Frame.linkTo {ch : Nat} (h : Frame (actKeys ch) s t) (m : Nat) : t.linkTo m = s.linkTo m := by
  have e : (fun l => t.flag (.mid .TTH_REV_UP) l && t.get (.mid .xTTH_MOD) l == m + 1) =
      (fun l => s.flag (.mid .TTH_REV_UP) l && s.get (.mid .xTTH_MOD) l == m + 1) := by
    funext l
    have h1 : t.get (.mid .TTH_REV_UP) l = s.get (.mid .TTH_REV_UP) l := h.regs _ rfl
    have h2 : t.get (.mid .xTTH_MOD) l = s.get (.mid .xTTH_MOD) l := h.regs _ rfl
    rw [State.flag_eq, State.flag_eq, h1, h2]
  rw [State.linkTo, State.linkTo, e]

/-- The offer that goes out carries the channel's number and its next sequence number. -/
theorem sendOffer_offers {ch d m h n l : Nat} (hs : Frame (actKeys ch) s t) (hl : s.linkTo m = some l) :
    ∃ o : Offer, Out.hoOffer m o ∈ (sendOffer ch d m h n t).outs ∧ o.ch = ch ∧ o.nextSeq = s.get (.shp .SEQ_NEXT) d h := by
  have hq : t.get (.shp .SEQ_NEXT) d h = s.get (.shp .SEQ_NEXT) d h := hs.regs _ rfl
  rw [sendOffer, hs.linkTo m, hl]
  exact ⟨⟨ch, t.offerBank ch, t.get (.shp .SEQ_NEXT) d h, n, t.offerMinor ch⟩, by simp, rfl, hq⟩

end Sys2Proof
end

section
/-!
PROOFS. A write of a channel's control register (R12, R22, R207): the settings that it takes, and its actions in their order.
-/

namespace Sys2Proof

open Machine

variable {s t u : State} {B : Key → Bool}

-- Settings

/-- The settings of a written word. -/
def ctlSet (ch v : Nat) (s : State) : State :=
  let s := (s.put (.cch .CTRL_HO_MODULE) (bitsOf v 4 2) ch).put (.cch .CTRL_HO_SLOT) (bitsOf v 8 4) ch
  (s.put (.cch .CTRL_ALT_DIE) (bitsOf v 13 1) ch).put (.cch .CTRL_PRIORITY) (bitsOf v 16 4) ch

/-- A field that is none of the settings. -/
def notSet (f : Fld) : Bool :=
  f != .cch .CTRL_HO_MODULE && f != .cch .CTRL_HO_SLOT && f != .cch .CTRL_ALT_DIE && f != .cch .CTRL_PRIORITY

theorem ctlSet_frame (ch v : Nat) (s : State) : Frame (ctlKeys ch) s (ctlSet ch v s) :=
  (((Frame.put s _ _ _ _ _ (by simp [ctlKeys])).trans (Frame.put _ _ _ _ _ _ (by simp [ctlKeys]))).trans
    (Frame.put _ _ _ _ _ _ (by simp [ctlKeys]))).trans (Frame.put _ _ _ _ _ _ (by simp [ctlKeys]))

theorem ctlSet_get (ch v : Nat) (s : State) {f : Fld} (h : notSet f = true) (i j k : Nat) :
    (ctlSet ch v s).get f i j k = s.get f i j k := by
  refine (ctlSet_frame ch v s).regs ⟨f, i, j, k⟩ ?_
  simp only [notSet, Bool.and_eq_true, bne_iff_ne, ne_eq] at h
  simp [ctlKeys, h]

theorem ctlSet_flag (ch v : Nat) (s : State) {f : Fld} (h : notSet f = true) (i j k : Nat) :
    (ctlSet ch v s).flag f i j k = s.flag f i j k := by
  rw [State.flag_eq, ctlSet_get ch v s h]; rfl

/-- A state holds the settings of a word. -/
def HoldsSettings (ch v : Nat) (s : State) : Prop :=
  s.get (.cch .CTRL_HO_MODULE) ch = bitsOf v 4 2 ∧ s.get (.cch .CTRL_HO_SLOT) ch = bitsOf v 8 4 ∧
  s.get (.cch .CTRL_ALT_DIE) ch = bitsOf v 13 1 ∧ s.get (.cch .CTRL_PRIORITY) ch = bitsOf v 16 4

theorem ctlSet_holds (ch v : Nat) (s : State) : HoldsSettings ch v (ctlSet ch v s) := by
  refine ⟨?_, ?_, ?_, ?_⟩
  · simpa [ctlSet] using get_put_bits s (.cch .CTRL_HO_MODULE) v 4 2 ch 0 0 rfl
  · simpa [ctlSet] using get_put_bits s (.cch .CTRL_HO_SLOT) v 8 4 ch 0 0 rfl
  · simpa [ctlSet] using get_put_bits s (.cch .CTRL_ALT_DIE) v 13 1 ch 0 0 rfl
  · exact get_put_bits _ (.cch .CTRL_PRIORITY) v 16 4 ch 0 0 rfl

theorem mem_of_assocGet {α β : Type} [DecidableEq α] {l : List (α × β)} {a : α} {b : β} (h : assocGet l a = some b) :
    (a, b) ∈ l := by
  induction l with
  | nil => simp [assocGet] at h
  | cons p l ih =>
    obtain ⟨x, y⟩ := p
    by_cases hx : x = a
    · simp_all [assocGet]
    · simp only [assocGet, hx, if_false] at h
      exact List.mem_cons_of_mem _ (ih h)

/-- What a store lists is what it gives, where that is not the value at reset. -/
theorem assocGet_eq_of_get (a : Store) (k : Key) : assocGet a.cells k = if a.get k = k.reset then none else some (a.get k) := by
  cases h : assocGet a.cells k with
  | none => simp [Store.get, h]
  | some v =>
    have hv : v ≠ k.reset := (Store.wf_iff.mp a.ok).2 _ (mem_of_assocGet h)
    simp [Store.get, h, hv]

/-- Two stores that give every key the same value are one. -/
theorem store_ext {a b : Store} (h : ∀ k, a.get k = b.get k) : a = b := by
  have e : a.cells = b.cells := assoc_ext keyOrder (Store.wf_iff.mp a.ok).1 (Store.wf_iff.mp b.ok).1
    (fun k => by rw [assocGet_eq_of_get, assocGet_eq_of_get, h])
  cases a
  cases b
  simpa using e

/-- A put of the value that a field holds changes nothing. -/
theorem put_self (s : State) (f : Fld) (v i j k : Nat) (h : s.get f i j k = Key.cut ⟨f, i, j, k⟩ v) : s.put f v i j k = s := by
  have e : s.store.set ⟨f, i, j, k⟩ v = s.store := store_ext (fun x => by
    by_cases hx : x = ⟨f, i, j, k⟩
    · rw [hx, Store.get_set_same]; exact h.symm
    · exact Store.get_set_other _ _ hx)
  rw [State.put, e]

/-- Settings that a state holds already are written without effect. -/
theorem ctlSet_of_holds {ch v : Nat} (h : HoldsSettings ch v s) : ctlSet ch v s = s := by
  obtain ⟨h1, h2, h3, h4⟩ := h
  have fit : ∀ {f : Fld} {lo len : Nat}, s.get f ch = bitsOf v lo len → f.width = len → s.put f (bitsOf v lo len) ch = s :=
    fun hg hw => put_self s _ _ _ _ _ (hg.trans (Key.cut_fit _ _ (hw ▸ Nat.mod_lt _ (Nat.two_pow_pos _))).symm)
  rw [ctlSet, fit h1 rfl, fit h2 rfl, fit h3 rfl, fit h4 rfl]

/-- Bits above the four lowest depend on the value of those alone. -/
theorem bitsOf_of_div {v w lo : Nat} (h : v / 16 = w / 16) (hlo : 4 ≤ lo) (len : Nat) : bitsOf v lo len = bitsOf w lo len := by
  obtain ⟨k, rfl⟩ := Nat.exists_eq_add_of_le hlo
  have e : ∀ x : Nat, x / 2 ^ (4 + k) = x / 16 / 2 ^ k := fun x => by rw [pow_add, Nat.div_div_eq_div_mul]; rfl
  rw [bitsOf, bitsOf, e, e, h]

theorem ctlSet_of_div {ch v w : Nat} (h : v / 16 = w / 16) (s : State) : ctlSet ch v s = ctlSet ch w s := by
  simp only [ctlSet, bitsOf_of_div h (Nat.le_refl 4), bitsOf_of_div h (show 4 ≤ 8 by decide),
    bitsOf_of_div h (show 4 ≤ 13 by decide), bitsOf_of_div h (show 4 ≤ 16 by decide)]

-- Actions

/-- The bit of the control register that asks for an action. -/
def ctlBit (n : Nat) : Fld :=
  match n with
  | 0 => .cch .CTRL_START
  | 1 => .cch .CTRL_STOP
  | 2 => .cch .CTRL_MOVE_DIE
  | _ => .cch .CTRL_HANDOVER

/-- What an action does. -/
def ctlReq (ch n : Nat) (s : State) : State :=
  match n with
  | 0 => requestStart ch s
  | 1 => stopChan ch s
  | 2 => moveReq ch s
  | _ => handoverReq ch s

theorem ctlReq_stop (ch : Nat) (s : State) : ctlReq ch 1 s = stopChan ch s := rfl

theorem ctlReq_handover (ch : Nat) (s : State) : ctlReq ch 3 s = handoverReq ch s := rfl

/-- One of the four actions, which has no effect while its bit reads 1 (R12). -/
def ctlAct (ch n : Nat) (s : State) : State := s.when (!s.flag (ctlBit n) ch) (ctlReq ch n)

theorem ctlAct_clear {ch n : Nat} (h : s.flag (ctlBit n) ch = false) : ctlAct ch n s = ctlReq ch n s := by
  rw [ctlAct, h]; rfl

/-- An action whose bit reads 1, or that does nothing, has no effect. -/
theorem ctlAct_idle {ch n : Nat} (h : s.flag (ctlBit n) ch = true ∨ ctlReq ch n s = s) : ctlAct ch n s = s := by
  rw [ctlAct, State.when_eq]
  rcases h with h | h <;> simp [h]

/-- The actions that `b` asks for, in their order. -/
def ctlRun (ch : Nat) (b : Nat → Bool) (s : State) : State :=
  (((s.when (b 0) (ctlAct ch 0)).when (b 1) (ctlAct ch 1)).when (b 2) (ctlAct ch 2)).when (b 3) (ctlAct ch 3)

theorem when_start (ch : Nat) (s : State) (b : Bool) : s.when (b && !s.flag (.cch .CTRL_START) ch) (requestStart ch) = s.when b (ctlAct ch 0) := by
  cases b <;> rfl

theorem when_stop (ch : Nat) (s : State) (b : Bool) : s.when (b && !s.flag (.cch .CTRL_STOP) ch) (stopChan ch) = s.when b (ctlAct ch 1) := by
  cases b <;> rfl

theorem when_moveDie (ch : Nat) (s : State) (b : Bool) : s.when (b && !s.flag (.cch .CTRL_MOVE_DIE) ch) (moveReq ch) = s.when b (ctlAct ch 2) := by
  cases b <;> rfl

theorem when_handover (ch : Nat) (s : State) (b : Bool) : s.when (b && !s.flag (.cch .CTRL_HANDOVER) ch) (handoverReq ch) = s.when b (ctlAct ch 3) := by
  cases b <;> rfl

/-- A write in the home window takes the settings and then the actions of its word (R22, R207). -/
theorem cchCtrlWrite_home {d ch : Nat} (v : Nat) (h : s.get (.cch .CTRL_HOME_DIE) ch = d) :
    cchCtrlWrite d ch v s = ctlRun ch (bitOf v) (ctlSet ch v s) := by
  unfold cchCtrlWrite
  rw [if_neg (not_not_intro h)]
  simp only [when_start, when_stop, when_moveDie, when_handover]
  rfl

theorem cchCtrlWrite_away {d ch : Nat} (v : Nat) (h : s.get (.cch .CTRL_HOME_DIE) ch ≠ d) : cchCtrlWrite d ch v s = s := if_pos h

/-- The command of an action. -/
def ctlCmd (p : Party) (d : Die) (ch : Chan) (v : Word) (n : Nat) : Instr :=
  match n with
  | 0 => .cchStart p d ch v
  | 1 => .cchStop p d ch v
  | 2 => .moveDie p d ch v
  | _ => .handover p d ch v

variable {p : Party} {d : Die} {ch : Chan} {v : Word} {n : Nat}

/-- The command of an action writes its word with the bit of that action set. -/
theorem exec_ctlCmd (hn : n < 4) (hl : s.live = true) (hg : s.gateOf p .cch (some d.val) = .pass) :
    exec (ctlCmd p d ch v n) s = .next (s.commit (cchCtrlWrite d ch (withBits v.toNat n 1 1) s.quiet)) := by
  interval_cases n <;> exact exec_gated_pass rfl hl hg

/-- The actions of a command: its own, and those that its word asks for. -/
def asked (v n k : Nat) : Bool := k == n || bitOf v k

/-- What a command does in the home window of its channel. -/
theorem exec_ctlCmd_home (hn : n < 4) (hl : s.live = true) (hg : s.gateOf p .cch (some d.val) = .pass)
    (hd : s.get (.cch .CTRL_HOME_DIE) ch = d) :
    exec (ctlCmd p d ch v n) s = .next (s.commit (ctlRun ch (asked v.toNat n) (ctlSet ch v.toNat s.quiet))) := by
  rw [exec_ctlCmd hn hl hg, cchCtrlWrite_home (s := s.quiet) _ hd, ctlSet_of_div (withBits_div _ hn)]
  simp only [ctlRun, bitOf_withBits _ hn (show 0 < 4 by decide), bitOf_withBits _ hn (show 1 < 4 by decide),
    bitOf_withBits _ hn (show 2 < 4 by decide), bitOf_withBits _ hn (show 3 < 4 by decide), asked]

/-- What a command does elsewhere. -/
theorem exec_ctlCmd_away (hn : n < 4) (hl : s.live = true) (hg : s.gateOf p .cch (some d.val) = .pass)
    (hd : s.get (.cch .CTRL_HOME_DIE) ch ≠ d) : exec (ctlCmd p d ch v n) s = .next (s.commit s.quiet) := by
  rw [exec_ctlCmd hn hl hg, cchCtrlWrite_away (s := s.quiet) _ hd]

end Sys2Proof
end

section
/-!
PROOFS. The actions of a control register that are written together leave what they leave one after the other: no action changes what
the next one's write looks at, and what has been sent decides nothing.
-/

namespace Sys2Proof

open Machine

variable {s t u : State} {kept : Key → Bool}

-- What every action keeps

/-- The registers on which it depends whether a write passes, but for the season. -/
def gateReads (k : Key) : Bool :=
  match k.fld with
  | .mid _ | .flt _ => true
  | .hpt f => f != .PBA_WORD
  | .pwr f => f == .xDOWN
  | _ => false

/-- Those, and the settings of the control registers. -/
def ctlKept (k : Key) : Bool := gateReads k || !notSet k.fld

/-- Those, and the home dies. -/
def homeKept (k : Key) : Bool := ctlKept k || k.fld == .cch .CTRL_HOME_DIE

/-- Some registers, the safe state, the clock, and whether it is Winter, are the same. -/
structure Keeps (kept : Key → Bool) (s t : State) : Prop where
  regs   : ∀ k, kept k = true → t.store.get k = s.store.get k
  safe   : t.safe = s.safe
  osc    : t.osc = s.osc
  winter : t.inWinter = s.inWinter

theorem Keeps.refl (s : State) : Keeps kept s s := ⟨fun _ _ => rfl, rfl, rfl, rfl⟩

theorem Keeps.trans (h : Keeps kept s t) (g : Keeps kept t u) : Keeps kept s u :=
  ⟨fun k hk => (g.regs k hk).trans (h.regs k hk), g.safe.trans h.safe, g.osc.trans h.osc, g.winter.trans h.winter⟩

theorem Keeps.mono {less : Key → Bool} (h : Keeps kept s t) (hk : ∀ k, less k = true → kept k = true) : Keeps less s t :=
  ⟨fun k hl => h.regs k (hk k hl), h.safe, h.osc, h.winter⟩

theorem Keeps.when (b : Bool) {f : State → State} (h : Keeps kept s (f s)) : Keeps kept s (s.when b f) := by
  cases b
  · exact Keeps.refl s
  · exact h

theorem ctlKept_of_gateReads {k : Key} (h : gateReads k = true) : ctlKept k = true := by simp [ctlKept, h]
theorem homeKept_of_ctlKept {k : Key} (h : ctlKept k = true) : homeKept k = true := by simp [homeKept, h]

/-- Whether a write passes depends on those registers, the safe state and the season alone (R513). -/
theorem Keeps.gateOf (h : Keeps gateReads s t) (p : Party) (b : Blk) (d : Option Nat) : t.gateOf p b d = s.gateOf p b d := by
  have hdie : ∀ n, t.dieOff n = s.dieOff n := fun n => congrArg (bitOf · n) (h.regs ⟨.flt .STATUS_DIE_DOWN, 0, 0, 0⟩ rfl)
  have hstep : t.get (.mid .BOOT_STEP) = s.get (.mid .BOOT_STEP) := h.regs _ rfl
  have hrec : t.flag (.mid .BOOT_RECOVERY) = s.flag (.mid .BOOT_RECOVERY) :=
    congrArg (· != 0) (h.regs ⟨.mid .BOOT_RECOVERY, 0, 0, 0⟩ rfl)
  have hok : ∀ n, t.flag (.hpt .PORT_STATUS_HIR_OK) n = s.flag (.hpt .PORT_STATUS_HIR_OK) n := fun n =>
    congrArg (· != 0) (h.regs ⟨.hpt .PORT_STATUS_HIR_OK, n, 0, 0⟩ rfl)
  have hneg : t.unnegotiated p = s.unnegotiated p := by
    unfold State.unnegotiated
    cases p.port with
    | none => rfl
    | some n => exact congrArg (!·) (hok n)
  have hearly : t.earlyFor b = s.earlyFor b := by
    unfold State.earlyFor
    rw [hstep]
  have hshut : t.windowShut b d = s.windowShut b d := by
    unfold State.windowShut
    rw [h.winter]
    cases d with
    | none => rfl
    | some n => exact congrArg (· || _) (hdie n)
  unfold State.gateOf State.recoveryOpen
  rw [h.safe, hshut, hrec, hneg, hearly]

theorem Keeps.live (h : Keeps gateReads s t) : t.live = s.live :=
  congrArg (fun x => !(x != 0)) (h.regs ⟨.pwr .xDOWN, 0, 0, 0⟩ rfl)

theorem Keeps.holds {ch v : Nat} (h : Keeps ctlKept s t) (hs : HoldsSettings ch v s) : HoldsSettings ch v t := by
  obtain ⟨h1, h2, h3, h4⟩ := hs
  exact ⟨(h.regs _ rfl).trans h1, (h.regs _ rfl).trans h2, (h.regs _ rfl).trans h3, (h.regs _ rfl).trans h4⟩

theorem homeKept_of_act {ch : Nat} {k : Key} (h : homeKept k = true) : actKeys ch k = false := by
  obtain ⟨f, i, j, n⟩ := k
  cases f <;> simp_all [homeKept, ctlKept, gateReads, notSet, actKeys, ctlSetting]
  grind

theorem homeKept_of_start {ch : Nat} {k : Key} (h : homeKept k = true) : startKeys ch k = false := by
  have ha := homeKept_of_act (ch := ch) h
  obtain ⟨f, i, j, n⟩ := k
  cases f <;> simp_all [homeKept, ctlKept, gateReads, notSet, startKeys, gateKeys, gateMark]

theorem homeKept_of_run {ch : Nat} {k : Key} (h : homeKept k = true) : runKeys ch k = false := by
  obtain ⟨f, i, j, n⟩ := k
  cases f <;> simp_all [homeKept, ctlKept, gateReads, notSet, runKeys, ctlSetting]
  grind

theorem Frame.keeps_act {ch : Nat} (h : Frame (actKeys ch) s t) : Keeps homeKept s t :=
  ⟨fun k hk => h.regs k (homeKept_of_act hk), h.safe, h.clock.1, congrArg (· == 2) (h.regs ⟨.pwr .STATUS_SEASON, 0, 0, 0⟩ rfl)⟩

theorem endRun_keeps (ch st : Nat) (h : st < 8) (s : State) : Keeps homeKept s (endRun ch st s) := by
  obtain ⟨hr, -, hs, ho, -⟩ := endRun_ends ch st h s
  exact ⟨fun k hk => hr k (homeKept_of_run hk), hs, ho, congrArg (· == 2) (hr ⟨.pwr .STATUS_SEASON, 0, 0, 0⟩ rfl)⟩

theorem requestStart_keeps (ch : Nat) (s : State) : Keeps homeKept s (requestStart ch s) := by
  cases hs : s.chStarted ch with
  | true => rw [requestStart_started hs]; exact Keeps.refl s
  | false =>
    cases hd : s.domOn (s.get (.cch .FMT_DOMAIN) ch 0 1) with
    | true =>
      obtain ⟨hf, -, -, hw⟩ := requestStart_waits_frame hs hd
      exact ⟨fun k hk => hf.regs k (homeKept_of_start hk), hf.safe, hf.clock.1, hw⟩
    | false =>
      rw [requestStart_refused hs hd]
      exact (refuseStart_format ch s).1.keeps_act

theorem stopChan_keeps (ch : Nat) (s : State) : Keeps homeKept s (stopChan ch s) := by
  by_cases he : s.get (.cch .STATUS_STATE) ch = chWAITING ∨ s.chStarted ch = true ∧ s.picsDone ch = true
  · obtain ⟨u, hu, e⟩ := stopChan_ends he
    rw [e]
    exact hu.keeps_act.trans (endRun_keeps ch _ (by decide) u)
  · rw [not_or, not_and] at he
    obtain ⟨hw, hp⟩ := he
    cases hs : s.chStarted ch with
    | false => rw [stopChan_idle hs]; exact Keeps.refl s
    | true =>
      rw [stopChan_noted (((chStarted_iff ch s).mp hs).resolve_left hw) (Bool.eq_false_iff.mpr (hp hs))]
      exact (stopMarks_frame ch s).keeps_act

theorem handoverReq_keeps (ch : Nat) (s : State) : Keeps homeKept s (handoverReq ch s) := by
  by_cases h : s.get (.cch .STATUS_STATE) ch = chRUNNING ∧ s.rasterRuns (s.chDom ch) = true
  · rw [handoverReq_running h.1 h.2]
    exact ((offerMarks_reads ch s).1.trans (sendOffer_frame _ _ _ _ _ _)).keeps_act
  · rw [handoverReq_idle (by rw [← Bool.not_eq_true]; exact not_and_or.mp h)]
    exact Keeps.refl s

/-- MOVE_DIE changes a home only where the channel is stopped, and nothing else then (R204). -/
theorem moveReq_keeps (ch : Nat) (s : State) :
    Keeps homeKept s (moveReq ch s) ∨
    (Keeps ctlKept s (moveReq ch s) ∧ (moveReq ch s).get (.cch .STATUS_STATE) ch = chSTOPPED) := by
  by_cases hr : s.get (.cch .STATUS_STATE) ch = chRUNNING
  · rw [moveReq_running hr]
    exact .inl (armMove_reads ch s).1.keeps_act
  · by_cases h0 : s.get (.cch .STATUS_STATE) ch = chSTOPPED
    · rw [moveReq_stopped h0]
      refine .inr ⟨⟨fun k hk => Store.get_set_other _ _ (fun e => ?_), rfl, rfl, by simp [State.inWinter]⟩, by simpa using h0⟩
      rw [e] at hk
      simp [ctlKept, gateReads, notSet] at hk
    · rw [moveReq_idle hr h0]
      exact .inl (Keeps.refl s)

theorem ctlAct_keeps (ch : Nat) {n : Nat} (hn : n ≠ 2) (s : State) : Keeps homeKept s (ctlAct ch n s) := by
  match n with
  | 0 => exact Keeps.when _ (requestStart_keeps ch s)
  | 1 => exact Keeps.when _ (stopChan_keeps ch s)
  | 2 => exact absurd rfl hn
  | _ + 3 => exact Keeps.when _ (handoverReq_keeps ch s)

theorem ctlAct_move_keeps (ch : Nat) (s : State) : Keeps homeKept s (ctlAct ch 2 s) ∨
    (Keeps ctlKept s (ctlAct ch 2 s) ∧ (ctlAct ch 2 s).get (.cch .STATUS_STATE) ch = chSTOPPED) := by
  rw [ctlAct, State.when_eq]
  split
  · exact moveReq_keeps ch s
  · exact .inl (Keeps.refl s)

theorem ctlAct_keeps_set (ch n : Nat) (s : State) : Keeps ctlKept s (ctlAct ch n s) := by
  by_cases hn : n = 2
  · subst hn
    exact (ctlAct_move_keeps ch s).elim (fun h => h.mono (fun _ => homeKept_of_ctlKept)) (fun h => h.1)
  · exact (ctlAct_keeps ch hn s).mono (fun _ => homeKept_of_ctlKept)

theorem ctlSet_keeps (ch v : Nat) (s : State) : Keeps gateReads s (ctlSet ch v s) := by
  have hf := ctlSet_frame ch v s
  refine ⟨fun k hk => hf.regs k ?_, hf.safe, hf.clock.1, by simp [State.inWinter, ctlSet]⟩
  obtain ⟨f, i, j, n⟩ := k
  cases f <;> simp_all [gateReads, ctlKeys]

-- What has been sent decides nothing

theorem offerMarks_sim (ch : Nat) (h : Sim s t) : Sim (offerMarks ch s) (offerMarks ch t) := by
  unfold offerMarks
  dsimp only
  rw [h.read (fun u => u.chDom ch) (fun _ _ _ => rfl), h.read (fun u => u.chGet (.cch .FLOW_OUT_FLOW) ch) (fun _ _ _ => rfl),
    h.read (fun u => u.picAfter (s.chDom ch) (2 * u.hoToNs)) (fun _ _ _ => rfl)]
  generalize s.picAfter _ _ = n
  have h3 := ((h.put (.cch .CTRL_HANDOVER) 1 ch 0 0).put (.cch .xHO) 1 ch 0 0).put (.cch .xHO_PIC) n ch 0 0
  have h4 := h3.put (.cch .xHO_DUE) ((((s.put (.cch .CTRL_HANDOVER) 1 ch).put (.cch .xHO) 1 ch).put (.cch .xHO_PIC) n ch).dueIn
    (((s.put (.cch .CTRL_HANDOVER) 1 ch).put (.cch .xHO) 1 ch).put (.cch .xHO_PIC) n ch).hoToNs) ch 0 0
  have h5 := (h4.put (.cch .xHO_FLOW) (s.chGet (.cch .FLOW_OUT_FLOW) ch + 1) ch 0 0).put (.cch .xHO_DOM) (s.chDom ch) ch 0 0
  rw [h3.read (fun u => u.dueIn u.hoToNs) (fun _ _ _ => rfl)]
  exact setChState_sim ch _ h5

theorem sendOffer_sim (ch d m h n : Nat) (hs : Sim s t) : Sim (sendOffer ch d m h n s) (sendOffer ch d m h n t) := by
  unfold sendOffer
  rw [hs.read (fun u => u.linkTo m) (fun _ _ _ => rfl)]
  cases s.linkTo m with
  | none => exact hs
  | some l => exact (Sim.emit _ _).symm.trans ((hs.put _ _ _ _ _).trans (Sim.emit _ _))

theorem handoverReq_sim (ch : Nat) (h : Sim s t) : Sim (handoverReq ch s) (handoverReq ch t) := by
  have hst := h.get (.cch .STATUS_STATE) ch 0 0
  have hrr : t.rasterRuns (t.chDom ch) = s.rasterRuns (s.chDom ch) :=
    h.read (fun u => u.rasterRuns (u.chDom ch)) (fun _ _ _ => rfl)
  by_cases hc : s.get (.cch .STATUS_STATE) ch = chRUNNING ∧ s.rasterRuns (s.chDom ch) = true
  · rw [handoverReq_running hc.1 hc.2, handoverReq_running (hst.trans hc.1) (hrr.trans hc.2), h.get, h.get,
      h.read (fun u => u.chGet (.cch .FLOW_OUT_FLOW) ch) (fun _ _ _ => rfl),
      h.read (fun u => u.picAfter (u.chDom ch) (2 * u.hoToNs)) (fun _ _ _ => rfl)]
    exact sendOffer_sim _ _ _ _ _ (offerMarks_sim ch h)
  · have hi : s.get (.cch .STATUS_STATE) ch ≠ chRUNNING ∨ s.rasterRuns (s.chDom ch) = false := by
      rw [← Bool.not_eq_true]; exact not_and_or.mp hc
    rw [handoverReq_idle hi, handoverReq_idle (by rwa [hst, hrr])]
    exact h

/-- The actions after START. -/
theorem ctlAct_sim (ch : Nat) {n : Nat} (hn : n ≠ 0) (h : Sim s t) : Sim (ctlAct ch n s) (ctlAct ch n t) := by
  match n with
  | 0 => exact absurd rfl hn
  | 1 =>
    exact h.step (fun u => u.flag (.cch .CTRL_STOP) ch) (fun _ _ _ => rfl) (F := fun b u => u.when (!b) (stopChan ch))
      (fun _ _ _ hu => hu.when _ (stopChan_sim ch hu))
  | 2 =>
    exact h.step (fun u => u.flag (.cch .CTRL_MOVE_DIE) ch) (fun _ _ _ => rfl) (F := fun b u => u.when (!b) (moveReq ch))
      (fun _ _ _ hu => hu.when _ (moveReq_sim ch hu))
  | _ + 3 =>
    exact h.step (fun u => u.flag (.cch .CTRL_HANDOVER) ch) (fun _ _ _ => rfl) (F := fun b u => u.when (!b) (handoverReq ch))
      (fun _ _ _ hu => hu.when _ (handoverReq_sim ch hu))

theorem ctlSet_sim (ch v : Nat) (h : Sim s t) : Sim (ctlSet ch v s) (ctlSet ch v t) :=
  (((h.put (.cch .CTRL_HO_MODULE) _ ch 0 0).put (.cch .CTRL_HO_SLOT) _ ch 0 0).put (.cch .CTRL_ALT_DIE) _ ch 0 0).put
    (.cch .CTRL_PRIORITY) _ ch 0 0

theorem quiet_sim (s : State) : Sim s s.quiet := ⟨[], s.pending, rfl⟩

/-- A commit over an unchanged safe state and clock changes what is sent and what waits, and nothing else. -/
theorem commit_sim (hs : t.safe = s.safe) (ho : t.osc = s.osc) : Sim t (s.commit t) := by
  refine ⟨(s.commit t).outs, s.pending, ?_⟩
  simp [State.commit, ← hs, ← ho]

theorem Sim.still (h : Sim s t) : Still s t := by
  obtain ⟨o, p, rfl⟩ := h
  exact Frame.of_eq rfl ⟨rfl, rfl, rfl, rfl⟩ (by simp [SameTraffic]) rfl ⟨rfl, rfl⟩ ⟨rfl, rfl⟩

theorem Sim.keeps (h : Sim s t) : Keeps kept s t := by
  obtain ⟨o, p, rfl⟩ := h
  exact ⟨fun _ _ => rfl, rfl, rfl, rfl⟩

-- The actions in turn

/-- A word with the settings of another and no action. -/
def settingsOf (v : Word) : Word := BitVec.ofNat 32 (v.toNat / 16 * 16)

theorem settingsOf_toNat (v : Word) : (settingsOf v).toNat = v.toNat / 16 * 16 := by
  rw [settingsOf, BitVec.toNat_ofNat, Nat.mod_eq_of_lt]
  exact (Nat.div_mul_le_self _ _).trans_lt v.isLt

theorem bitOf_settingsOf (v : Word) {k : Nat} (hk : k < 4) : bitOf (settingsOf v).toNat k = false := by
  rw [settingsOf_toNat, bitOf, beq_eq_false_iff_ne]
  interval_cases k <;> omega

/-- A run of one action. -/
theorem ctlRun_only {ch n : Nat} {b : Nat → Bool} (hn : n < 4) (hb : ∀ k < 4, b k = (k == n)) (s : State) :
    ctlRun ch b s = ctlAct ch n s := by
  rw [ctlRun, hb 0 (by decide), hb 1 (by decide), hb 2 (by decide), hb 3 (by decide)]
  interval_cases n <;> rfl

variable {p : Party} {d : Die} {ch : Chan} {v : Word} {n : Nat}

/-- The state that an action written alone leaves, in the home window. -/
theorem leaves_home (hn : n < 4) (hl : s.live = true) (hg : s.gateOf p .cch (some d.val) = .pass)
    (hd : s.get (.cch .CTRL_HOME_DIE) ch = d) :
    leaves (ctlCmd p d ch (settingsOf v) n) s = s.commit (ctlAct ch n (ctlSet ch v.toNat s.quiet)) := by
  have hb : ∀ k < 4, asked (settingsOf v).toNat n k = (k == n) := fun k hk => by
    rw [asked, bitOf_settingsOf v hk, Bool.or_false]
  have hv : (settingsOf v).toNat / 16 = v.toNat / 16 := by rw [settingsOf_toNat]; omega
  rw [leaves, exec_ctlCmd_home hn hl hg hd, ctlRun_only hn hb, ctlSet_of_div hv]

theorem leaves_away (hn : n < 4) (hl : s.live = true) (hg : s.gateOf p .cch (some d.val) = .pass)
    (hd : s.get (.cch .CTRL_HOME_DIE) ch ≠ d) : leaves (ctlCmd p d ch v n) s = s.commit s.quiet := by
  rw [leaves, exec_ctlCmd_away hn hl hg hd]

/-- The next action in turn, where it is asked for. -/
def turn (p : Party) (d : Die) (ch : Chan) (v : Word) (own n : Nat) (s : State) : State :=
  if asked v.toNat own n = true then leaves (ctlCmd p d ch (settingsOf v) n) s else s

theorem ctlInTurn_eq (p : Party) (d : Die) (ch : Chan) (v : Word) (own : Nat) (s : State) :
    ctlInTurn p d ch v own s = turn p d ch v own 3 (turn p d ch v own 2 (turn p d ch v own 1 (turn p d ch v own 0 s))) := by
  rw [ctlInTurn, List.foldl_filter]
  rfl

/-- A state that actions in turn have come to, beside the one that they have come to within one write: they differ in what has been
sent and in what waits, and, until an action has been written in turn (`went`), in the settings. -/
structure InTurn (p : Party) (d : Die) (ch : Chan) (v : Word) (went : Bool) (t c : State) : Prop where
  sim   : Sim (ctlSet ch v.toNat t.quiet) c
  acted : went = true → Sim t c
  holds : HoldsSettings ch v.toNat c
  live  : c.live = true
  gate  : c.gateOf p .cch (some d.val) = .pass

theorem InTurn.quiet_keeps {went : Bool} {c : State} (h : InTurn p d ch v went t c) : Keeps gateReads t c :=
  ((quiet_sim t).keeps.trans (ctlSet_keeps _ _ _)).trans h.sim.keeps

theorem InTurn.home {went : Bool} {c : State} (h : InTurn p d ch v went t c) :
    c.get (.cch .CTRL_HOME_DIE) ch = t.get (.cch .CTRL_HOME_DIE) ch :=
  (h.sim.get _ _ _ _).trans (ctlSet_get _ _ t.quiet rfl _ _ _)

/-- An action that is written alone leaves what it leaves within one write. -/
theorem InTurn.act {went : Bool} {c : State} (h : InTurn p d ch v went t c) (hn : n < 4)
    (hd : c.get (.cch .CTRL_HOME_DIE) ch = d)
    (ha : Sim (ctlAct ch n (ctlSet ch v.toNat t.quiet)) (ctlAct ch n c)) :
    InTurn p d ch v true (leaves (ctlCmd p d ch (settingsOf v) n) t) (ctlAct ch n c) := by
  have hk := h.quiet_keeps
  have hx : Keeps gateReads t (ctlAct ch n (ctlSet ch v.toNat t.quiet)) :=
    ((quiet_sim t).keeps.trans (ctlSet_keeps _ _ _)).trans ((ctlAct_keeps_set ch n _).mono (fun _ => ctlKept_of_gateReads))
  have hc := ctlAct_keeps_set ch n c
  have hcg := hc.mono (fun _ => ctlKept_of_gateReads)
  rw [leaves_home hn (hk.live.symm.trans h.live) ((hk.gateOf p _ _).symm.trans h.gate) (h.home.symm.trans hd)]
  have hs : Sim (t.commit (ctlAct ch n (ctlSet ch v.toNat t.quiet))) (ctlAct ch n c) :=
    (commit_sim hx.safe hx.osc).symm.trans ha
  have hh := hc.holds h.holds
  refine ⟨?_, fun _ => hs, hh, hcg.live.trans h.live, (hcg.gateOf p _ _).trans h.gate⟩
  have e := ctlSet_sim ch v.toNat ((quiet_sim _).symm.trans hs)
  rwa [ctlSet_of_holds hh] at e

/-- One turn beside one action of the write. -/
theorem InTurn.turn {went : Bool} {own : Nat} {c : State} (h : InTurn p d ch v went t c) (hn : n < 4)
    (hd : c.get (.cch .CTRL_HOME_DIE) ch = d)
    (ha : Sim (ctlAct ch n (ctlSet ch v.toNat t.quiet)) (ctlAct ch n c)) :
    InTurn p d ch v (went || asked v.toNat own n) (turn p d ch v own n t) (c.when (asked v.toNat own n) (ctlAct ch n)) := by
  unfold Sys2Proof.turn
  cases asked v.toNat own n with
  | false => rw [Bool.or_false]; exact h
  | true => rw [Bool.or_true]; exact h.act hn hd ha

/-- The last turn, HANDOVER, does nothing once the channel has moved: elsewhere it is not written, and here the channel is stopped. -/
theorem InTurn.last {went : Bool} {own : Nat} {c : State} (h : InTurn p d ch v went t c)
    (hd : c.get (.cch .CTRL_HOME_DIE) ch = d ∨ went = true ∧ c.get (.cch .STATUS_STATE) ch = chSTOPPED)
    (hw : (went || asked v.toNat own 3) = true) :
    Sim (Sys2Proof.turn p d ch v own 3 t) (c.when (asked v.toNat own 3) (ctlAct ch 3)) := by
  by_cases hh : c.get (.cch .CTRL_HOME_DIE) ch = d
  · exact (h.turn (by decide) hh (ctlAct_sim ch (by decide) h.sim)).acted hw
  · obtain ⟨ha, hst⟩ := hd.resolve_left hh
    have hs := h.acted ha
    have hk := h.quiet_keeps
    have hidle : ctlAct ch 3 c = c := ctlAct_idle (.inr (handoverReq_idle (.inl (by rw [hst]; decide))))
    unfold Sys2Proof.turn
    rw [State.when_eq, hidle, ite_self]
    split
    · rw [leaves_away (by decide) (hk.live.symm.trans h.live) ((hk.gateOf p _ _).symm.trans h.gate)
        (fun e => hh (h.home.trans e))]
      exact ((quiet_sim t).trans (commit_sim rfl rfl)).symm.trans hs
    · exact hs

/-- In the home window the actions in turn leave what they leave within one write. -/
theorem ctlInTurn_sim {own : Nat} (ho : own < 4) (hl : s.live = true) (hg : s.gateOf p .cch (some d.val) = .pass)
    (hd : s.get (.cch .CTRL_HOME_DIE) ch = d) :
    Sim (ctlInTurn p d ch v own s) (ctlRun ch (asked v.toNat own) (ctlSet ch v.toNat s.quiet)) := by
  have hk : Keeps gateReads s (ctlSet ch v.toNat s.quiet) := (quiet_sim s).keeps.trans (ctlSet_keeps _ _ _)
  have h0 : InTurn p d ch v false s (ctlSet ch v.toNat s.quiet) :=
    ⟨Sim.refl _, fun e => absurd e Bool.false_ne_true, ctlSet_holds _ _ _, hk.live.trans hl, (hk.gateOf p _ _).trans hg⟩
  have d0 : (ctlSet ch v.toNat s.quiet).get (.cch .CTRL_HOME_DIE) ch = d := (ctlSet_get _ _ s.quiet rfl _ _ _).trans hd
  have h1 := h0.turn (own := own) (n := 0) (by decide) d0 (Sim.refl _)
  rw [ctlInTurn_eq, ctlRun]
  generalize ctlSet ch v.toNat s.quiet = c0 at h1 d0
  have stay : ∀ {m : Nat}, m ≠ 2 → ∀ c : State, (c.when (asked v.toNat own m) (ctlAct ch m)).get (.cch .CTRL_HOME_DIE) ch =
      c.get (.cch .CTRL_HOME_DIE) ch := fun hm c =>
    (Keeps.when _ (ctlAct_keeps ch hm c)).regs ⟨.cch .CTRL_HOME_DIE, ch, 0, 0⟩ rfl
  have d1 := (stay (show 0 ≠ 2 by decide) c0).trans d0
  have h2 := h1.turn (own := own) (n := 1) (by decide) d1 (ctlAct_sim ch (by decide) h1.sim)
  have d2 := (stay (show 1 ≠ 2 by decide) _).trans d1
  have h3 := h2.turn (own := own) (n := 2) (by decide) d2 (ctlAct_sim ch (by decide) h2.sim)
  refine h3.last ?_ (by interval_cases own <;> simp [asked])
  cases hm : asked v.toNat own 2 with
  | false => exact .inl d2
  | true =>
    refine (ctlAct_move_keeps ch _).imp (fun h => (h.regs ⟨.cch .CTRL_HOME_DIE, ch, 0, 0⟩ rfl).trans d2) (fun h => ⟨?_, h.2⟩)
    exact Bool.or_true _

/-- The actions keep the settings, the safe state and the clock. -/
theorem ctlRun_keeps (ch : Nat) (b : Nat → Bool) (s : State) : Keeps ctlKept s (ctlRun ch b s) :=
  (((Keeps.when _ (ctlAct_keeps_set ch 0 s)).trans (Keeps.when _ (ctlAct_keeps_set ch 1 _))).trans
    (Keeps.when _ (ctlAct_keeps_set ch 2 _))).trans (Keeps.when _ (ctlAct_keeps_set ch 3 _))

end Sys2Proof
end

section
/-!
PROOFS. O31: what a write of a channel's control register does, action by action (R12, R22, R167, R204, R205, R207).
-/

namespace Sys2Proof

open Machine

variable {p : Party} {d : Die} {ch : Chan} {v : Word} {n : Nat} {s t : State}

/-- The state on which the actions of a write act: as found, with the settings taken. -/
def ctlFound (ch : Chan) (v : Word) (s : State) : State := ctlSet ch v.toNat s.quiet

theorem ctlFound_get (ch : Chan) (v : Word) (s : State) {f : Fld} (h : notSet f = true) (i j k : Nat) :
    (ctlFound ch v s).get f i j k = s.get f i j k := ctlSet_get _ _ s.quiet h i j k

theorem ctlFound_flag (ch : Chan) (v : Word) (s : State) {f : Fld} (h : notSet f = true) (i j k : Nat) :
    (ctlFound ch v s).flag f i j k = s.flag f i j k := ctlSet_flag _ _ s.quiet h i j k

theorem ctlFound_frame (ch : Chan) (v : Word) (s : State) : Frame (ctlKeys ch) s (ctlFound ch v s) :=
  (Frame.quiet s).trans (ctlSet_frame _ _ _)

theorem ctlFound_ctlBit (ch : Chan) (v : Word) (s : State) (n : Nat) :
    (ctlFound ch v s).flag (ctlBit n) ch = s.flag (ctlBit n) ch := by
  match n with
  | 0 => exact ctlFound_flag _ _ _ rfl _ _ _
  | 1 => exact ctlFound_flag _ _ _ rfl _ _ _
  | 2 => exact ctlFound_flag _ _ _ rfl _ _ _
  | _ + 3 => exact ctlFound_flag _ _ _ rfl _ _ _

theorem ctlFound_chStarted (ch : Chan) (v : Word) (s : State) : (ctlFound ch v s).chStarted ch = s.chStarted ch := by
  rw [State.chStarted, State.chStarted, ctlFound_get ch v s rfl]

theorem ctlFound_picsDone (ch : Chan) (v : Word) (s : State) : (ctlFound ch v s).picsDone ch = s.picsDone ch := by
  rw [State.picsDone, State.picsDone, ctlFound_get ch v s rfl, ctlFound_get ch v s rfl]

theorem ctlFound_chGet (ch : Chan) (v : Word) (s : State) {f : Fld} (h : notSet f = true) :
    (ctlFound ch v s).chGet f ch = s.chGet f ch := by
  rw [State.chGet, State.chGet, State.chBank, State.chBank, ctlFound_get ch v s (f := .cch .xBANK) rfl,
    ctlFound_get ch v s h]

theorem ctlFound_domOn (ch : Chan) (v : Word) (s : State) (n : Nat) : (ctlFound ch v s).domOn n = s.domOn n := by
  have hf : ∀ f : Trs, (ctlFound ch v s).flag (.trs f) n = s.flag (.trs f) n := fun _ => ctlFound_flag ch v s rfl _ _ _
  have hnum : (ctlFound ch v s).domNum n = s.domNum n := ctlFound_get ch v s rfl _ _ _
  have htotal : (ctlFound ch v s).domTotal n = s.domTotal n := ctlFound_get ch v s rfl _ _ _
  have hfirst : (ctlFound ch v s).domFirst n = s.domFirst n := ctlFound_get ch v s rfl _ _ _
  have hactive : (ctlFound ch v s).domActive n = s.domActive n := ctlFound_get ch v s rfl _ _ _
  rw [State.domOn, State.domOn, State.domCfgOk, State.domCfgOk, hf, hf, hnum, htotal, hfirst, hactive]

theorem ctlFound_rasterRuns (ch : Chan) (v : Word) (s : State) (n : Nat) : (ctlFound ch v s).rasterRuns n = s.rasterRuns n := by
  rw [State.rasterRuns, State.rasterRuns, ctlFound_domOn, State.tbState, State.tbState, ctlFound_get ch v s rfl]

theorem ctlFound_linkTo (ch : Chan) (v : Word) (s : State) (m : Nat) : (ctlFound ch v s).linkTo m = s.linkTo m := by
  have e : ∀ (f : Mid) (i : Nat), (ctlFound ch v s).get (.mid f) i = s.get (.mid f) i := fun f i => ctlFound_get ch v s rfl i 0 0
  simp [State.linkTo, State.flag_eq, e]

-- Keys

theorem chanKeys_of_ctlKeys {ch : Nat} {k : Key} (h : ctlKeys ch k = true) : chanKeys ch k = true := by
  obtain ⟨f, i, j, n⟩ := k
  cases f <;> simp_all [ctlKeys, chanKeys, Fld.home]

theorem Frame.chan {ch : Nat} {u : State} (h : Frame (ctlKeys ch) s t) (g : Frame (actKeys ch) t u) : Frame (chanKeys ch) s u :=
  (h.mono (fun _ => chanKeys_of_ctlKeys)).trans (g.mono (fun _ => chanKeys_of_actKeys ch))

theorem SameRegs.mono {B C : Key → Bool} (h : SameRegs B s t) (hb : ∀ k, B k = true → C k = true) : SameRegs C s t :=
  fun k hk => h k (Bool.eq_false_iff.mpr (fun e => Bool.eq_false_iff.mp hk (hb k e)))

/-- The bits of a clear range are clear. -/
theorem bitOf_of_bitsOf {x lo len : Nat} (h : bitsOf x lo len = 0) {k : Nat} (hk : lo ≤ k) (hk2 : k < lo + len) :
    bitOf x k = false := by
  obtain ⟨j, rfl⟩ := Nat.exists_eq_add_of_le hk
  have hdvd : 2 ∣ x / 2 ^ (lo + j) := by
    rw [pow_add, ← Nat.div_div_eq_div_mul]
    refine Nat.dvd_div_of_mul_dvd ?_
    rw [← pow_succ]
    exact (pow_dvd_pow 2 (by omega)).trans (Nat.dvd_of_mod_eq_zero h)
  simp [bitOf, Nat.mod_eq_zero_of_dvd hdvd]

/-- A command whose word asks for no other action. -/
theorem exec_ctlCmd_only (hn : n < 4) (hl : s.live = true) (hg : s.gateOf p .cch (some d.val) = .pass)
    (hd : s.get (.cch .CTRL_HOME_DIE) ch = d) (hb : ∀ k < 4, k ≠ n → bitOf v.toNat k = false) :
    exec (ctlCmd p d ch v n) s = .next (s.commit (ctlAct ch n (ctlFound ch v s))) := by
  rw [exec_ctlCmd_home hn hl hg hd, ctlRun_only hn (fun k hk => ?_)]
  · rfl
  · by_cases e : k = n
    · simp [asked, e]
    · simp [asked, hb k hk e]

theorem ctlFound_chDom (ch : Chan) (v : Word) (s : State) : (ctlFound ch v s).chDom ch = s.chDom ch := ctlFound_chGet ch v s rfl

theorem startFrame_of_ctlKeys {ch : Nat} {k : Key} (h : ctlKeys ch k = true) :
    (chanKeys ch k || k.fld.home == .pwr) = true := by
  rw [chanKeys_of_ctlKeys h, Bool.true_or]

theorem startFrame_of_startKeys {ch : Nat} {k : Key} (h : startKeys ch k = true) :
    (chanKeys ch k || k.fld.home == .pwr) = true := by
  obtain ⟨f, i, j, n⟩ := k
  cases f <;> simp_all [startKeys, actKeys, gateKeys, chanKeys, evcKeys, Fld.home]

theorem endKeys_of_chanKeys {ch : Nat} {k : Key} (h : chanKeys ch k = true) : endKeys ch k = true := by
  obtain ⟨f, i, j, n⟩ := k
  cases f <;> simp_all [evcKeys, Fld.home, chanKeys, endKeys, poolKeys]

/-- A write that passes into the channels is not made in the safe state (R465). -/
theorem safe_of_cch_pass (hg : s.gateOf p .cch (some d.val) = .pass) : s.safe = false := by
  cases hs : s.safe with
  | false => rfl
  | true => simp [State.gateOf, hs, Blk.safeOpen] at hg

/-- Outside the safe state everything is sent. -/
theorem outs_commit_of_open (h : s.safe = false) : (s.commit t).outs = t.outs := by
  rw [State.commit, h]; rfl

-- The clauses

section
variable (hl : s.live = true) (hg : s.gateOf p .cch (some d.val) = .pass)
include hl hg

/-- Elsewhere than in the home window nothing happens (R22). -/
theorem ctlCmd_away (hn : n < 4) (hd : s.get (.cch .CTRL_HOME_DIE) ch ≠ d) :
    ∃ t, exec (ctlCmd p d ch v n) s = .next t ∧ Still s t :=
  ⟨_, exec_ctlCmd_away hn hl hg hd, ((Frame.quiet s).commit)⟩

variable (hd : s.get (.cch .CTRL_HOME_DIE) ch = d)
include hd

/-- Every write takes the settings. -/
theorem ctlCmd_settings (hn : n < 4) : ∃ t, exec (ctlCmd p d ch v n) s = .next t ∧ HoldsSettings ch v.toNat t :=
  ⟨_, exec_ctlCmd_home hn hl hg hd, (ctlRun_keeps _ _ _).holds (ctlSet_holds _ _ _)⟩

/-- A write with several actions leaves what they leave one after the other. -/
theorem ctlCmd_inTurn (hn : n < 4) : ∃ t, exec (ctlCmd p d ch v n) s = .next t ∧ Still (ctlInTurn p d ch v n s) t := by
  refine ⟨_, exec_ctlCmd_home hn hl hg hd, Sim.still ((ctlInTurn_sim hn hl hg hd).trans (commit_sim ?_ ?_))⟩
  · exact (ctlRun_keeps _ _ _).safe.trans (ctlFound_frame ch v s).safe
  · exact (ctlRun_keeps _ _ _).osc.trans (ctlFound_frame ch v s).clock.1

variable (hn : n < 4) (hb : ∀ k < 4, k ≠ n → bitOf v.toNat k = false)
include hn hb

/-- An action without effect leaves the settings. -/
theorem ctlCmd_idle (h : s.flag (ctlBit n) ch = true ∨ ctlReq ch n (ctlFound ch v s) = ctlFound ch v s) :
    ∃ t, exec (ctlCmd p d ch v n) s = .next t ∧ Frame (ctlKeys ch) s t := by
  refine ⟨_, exec_ctlCmd_only hn hl hg hd hb, Frame.commit ?_⟩
  rw [ctlAct_idle (h.imp_left (fun e => (ctlFound_ctlBit ch v s n).trans e))]
  exact ctlFound_frame ch v s

/-- An action that is asked for and whose bit is clear. -/
theorem ctlCmd_acts (h : s.flag (ctlBit n) ch = false) (he : ctlReq ch n (ctlFound ch v s) = t) :
    exec (ctlCmd p d ch v n) s = .next (s.commit t) := by
  rw [exec_ctlCmd_only hn hl hg hd hb, ctlAct_clear ((ctlFound_ctlBit ch v s n).trans h), he]

end

section
variable (hl : s.live = true) (hg : s.gateOf p .cch (some d.val) = .pass) (hd : s.get (.cch .CTRL_HOME_DIE) ch = d)
include hl hg hd

section start
variable (hb : ∀ k < 4, k ≠ 0 → bitOf v.toNat k = false)
include hb

/-- START of a started channel has no effect. -/
theorem cchStart_idle (h : s.flag (.cch .CTRL_START) ch = true ∨ s.chStarted ch = true) :
    ∃ t, exec (.cchStart p d ch v) s = .next t ∧ Frame (ctlKeys ch) s t :=
  ctlCmd_idle hl hg hd (n := 0) (by decide) hb
    (h.imp_right (fun e => requestStart_started ((ctlFound_chStarted ch v s).trans e)))

variable (hf : s.flag (.cch .CTRL_START) ch = false) (hs : s.chStarted ch = false)
include hf hs

/-- START waits for the boundary of a domain that is enabled (R207). -/
theorem cchStart_waits (ho : s.domOn (s.get (.cch .FMT_DOMAIN) ch 0 1) = true) :
    ∃ t, exec (.cchStart p d ch v) s = .next t ∧ t.get (.cch .STATUS_STATE) ch = chWAITING ∧
      t.flag (.cch .CTRL_START) ch = true ∧ Frame (fun k => chanKeys ch k || k.fld.home == .pwr) s t := by
  obtain ⟨h1, h2, h3, -⟩ := requestStart_waits_frame ((ctlFound_chStarted ch v s).trans hs)
    ((ctlFound_domOn ..).trans ((congrArg s.domOn (ctlFound_get ch v s rfl _ _ _)).trans ho))
  refine ⟨_, ctlCmd_acts hl hg hd (n := 0) (by decide) hb hf rfl, h2, congrArg (· != 0) h3, Frame.commit ?_⟩
  exact ((ctlFound_frame ch v s).mono (fun _ => startFrame_of_ctlKeys)).trans (h1.mono (fun _ => startFrame_of_startKeys))

/-- START is refused where the domain is not enabled (R207). -/
theorem cchStart_refused (ho : s.domOn (s.get (.cch .FMT_DOMAIN) ch 0 1) = false) :
    ∃ t, exec (.cchStart p d ch v) s = .next t ∧ t.get (.cch .STATUS_STATE) ch = chREFUSED ∧
      t.get (.cch .STATUS_REASON) ch = whyFORMAT ∧ t.flag (.cch .STATUS_CFG_REFUSED) ch = true ∧ Frame (chanKeys ch) s t := by
  have e : ctlReq ch 0 (ctlFound ch v s) = refuseStart ch [whyFORMAT] (ctlFound ch v s) :=
    requestStart_refused ((ctlFound_chStarted ch v s).trans hs)
      ((ctlFound_domOn ..).trans ((congrArg s.domOn (ctlFound_get ch v s rfl _ _ _)).trans ho))
  obtain ⟨h1, h2, h3, h4⟩ := refuseStart_format ch (ctlFound ch v s)
  refine ⟨_, ctlCmd_acts hl hg hd (n := 0) (by decide) hb hf e, h2, h3, h4, Frame.commit ?_⟩
  exact (ctlFound_frame ch v s).chan h1

end start

section stop
variable (hb : ∀ k < 4, k ≠ 1 → bitOf v.toNat k = false)
include hb

/-- STOP of a channel that is not started has no effect. -/
theorem cchStop_idle (h : s.flag (.cch .CTRL_STOP) ch = true ∨ s.chStarted ch = false) :
    ∃ t, exec (.cchStop p d ch v) s = .next t ∧ Frame (ctlKeys ch) s t :=
  ctlCmd_idle hl hg hd (n := 1) (by decide) hb (h.imp_right (fun e => stopChan_idle ((ctlFound_chStarted ch v s).trans e)))

variable (hf : s.flag (.cch .CTRL_STOP) ch = false)
include hf

/-- STOP ends at once the run of a channel that waits, or that has no picture in progress (R207). -/
theorem cchStop_ends (h : s.get (.cch .STATUS_STATE) ch = chWAITING ∨ s.chStarted ch = true ∧ s.picsDone ch = true) :
    ∃ t, exec (.cchStop p d ch v) s = .next t ∧ RunEnded ch chSTOPPED s t := by
  have h' : (ctlFound ch v s).get (.cch .STATUS_STATE) ch = chWAITING ∨
      (ctlFound ch v s).chStarted ch = true ∧ (ctlFound ch v s).picsDone ch = true := by
    rwa [ctlFound_get ch v s rfl, ctlFound_chStarted, ctlFound_picsDone]
  obtain ⟨u, hu, e⟩ := stopChan_ends h'
  rw [← ctlReq_stop] at e
  have hsu := (ctlFound_frame ch v s).chan hu
  obtain ⟨h1, h2, -, -, h5, h6, h7, h8⟩ := endRun_ends ch chSTOPPED (by decide) u
  rw [hsu.mild.units] at h5
  generalize endRun ch chSTOPPED u = t at e h1 h2 h5 h6 h7 h8
  refine ⟨_, ctlCmd_acts hl hg hd (n := 1) (by decide) hb hf e, h6, h7, h8, h5, ?_, ?_⟩
  · exact (hsu.mono (fun _ => endKeys_of_chanKeys)).regs.trans (SameRegs.mono h1 (fun _ => endKeys_of_runKeys ch))
  · obtain ⟨a1, a2, a3, a4⟩ := hsu.bytes
    obtain ⟨b1, b2, b3, b4⟩ := h2
    exact ⟨b1.trans a1, b2.trans a2, b3.trans a3, b4.trans a4⟩

/-- STOP of a channel with a picture in progress is noted (R207). -/
theorem cchStop_noted (h : s.get (.cch .STATUS_STATE) ch = chRUNNING ∨ s.get (.cch .STATUS_STATE) ch = chLEAVING)
    (hp : s.picsDone ch = false) :
    ∃ t, exec (.cchStop p d ch v) s = .next t ∧ t.get (.cch .STATUS_STATE) ch = s.get (.cch .STATUS_STATE) ch ∧
      t.flag (.cch .CTRL_STOP) ch = true ∧ t.get (.cch .xSTOP) ch = 1 ∧
      (s.get (.cch .STATUS_STATE) ch = chLEAVING → t.flag (.cch .CTRL_MOVE_DIE) ch = false ∧
        t.flag (.cch .CTRL_HANDOVER) ch = false) ∧ Frame (chanKeys ch) s t := by
  have hst : (ctlFound ch v s).get (.cch .STATUS_STATE) ch = s.get (.cch .STATUS_STATE) ch := ctlFound_get ch v s rfl _ _ _
  have e : ctlReq ch 1 (ctlFound ch v s) = stopMarks ch (ctlFound ch v s) :=
    stopChan_noted (by rwa [hst]) ((ctlFound_picsDone ch v s).trans hp)
  obtain ⟨h1, h2, h3⟩ := stopMarks_reads ch (ctlFound ch v s)
  refine ⟨_, ctlCmd_acts hl hg hd (n := 1) (by decide) hb hf e,
    (stopMarks_get ch (by decide) _).trans hst, h1, h2, fun hv => h3 (hst.trans hv), Frame.commit ?_⟩
  exact (ctlFound_frame ch v s).chan (stopMarks_frame ch _)

end stop

section move
variable (hb : ∀ k < 4, k ≠ 2 → bitOf v.toNat k = false)
include hb

/-- MOVE_DIE of a channel that neither runs nor is stopped has no effect. -/
theorem moveDie_idle (h : s.flag (.cch .CTRL_MOVE_DIE) ch = true ∨
      s.get (.cch .STATUS_STATE) ch ≠ chRUNNING ∧ s.get (.cch .STATUS_STATE) ch ≠ chSTOPPED) :
    ∃ t, exec (.moveDie p d ch v) s = .next t ∧ Frame (ctlKeys ch) s t := by
  have hst : (ctlFound ch v s).get (.cch .STATUS_STATE) ch = s.get (.cch .STATUS_STATE) ch := ctlFound_get ch v s rfl _ _ _
  exact ctlCmd_idle hl hg hd (n := 2) (by decide) hb
    (h.imp_right (fun e => moveReq_idle (hst.trans_ne e.1) (hst.trans_ne e.2)))

variable (hf : s.flag (.cch .CTRL_MOVE_DIE) ch = false)
include hf

/-- MOVE_DIE of a running channel: it leaves (R204). -/
theorem moveDie_running (h : s.get (.cch .STATUS_STATE) ch = chRUNNING) :
    ∃ t, exec (.moveDie p d ch v) s = .next t ∧ t.get (.cch .STATUS_STATE) ch = chLEAVING ∧
      t.flag (.cch .CTRL_MOVE_DIE) ch = true ∧ Frame (chanKeys ch) s t := by
  have e : ctlReq ch 2 (ctlFound ch v s) = armMove ch (ctlFound ch v s) :=
    moveReq_running ((ctlFound_get ch v s rfl _ _ _).trans h)
  obtain ⟨h1, h2, h3⟩ := armMove_reads ch (ctlFound ch v s)
  exact ⟨_, ctlCmd_acts hl hg hd (n := 2) (by decide) hb hf e, h2, h3, ((ctlFound_frame ch v s).chan h1).commit⟩

/-- MOVE_DIE of a stopped channel changes its home (R204). -/
theorem moveDie_stopped (h : s.get (.cch .STATUS_STATE) ch = chSTOPPED) :
    ∃ t, exec (.moveDie p d ch v) s = .next t ∧ t.get (.cch .CTRL_HOME_DIE) ch = 1 - d.val ∧
      t.get (.cch .STATUS_STATE) ch = chSTOPPED ∧
      Frame (fun k => ctlKeys ch k || k == ⟨.cch .CTRL_HOME_DIE, ch, 0, 0⟩) s t := by
  have hst : (ctlFound ch v s).get (.cch .STATUS_STATE) ch = chSTOPPED := (ctlFound_get ch v s rfl _ _ _).trans h
  have hhome : (ctlFound ch v s).get (.cch .CTRL_HOME_DIE) ch = d := (ctlFound_get ch v s rfl _ _ _).trans hd
  have e : ctlReq ch 2 (ctlFound ch v s) = (ctlFound ch v s).put (.cch .CTRL_HOME_DIE) (1 - d.val) ch :=
    (moveReq_stopped hst).trans (by rw [hhome])
  refine ⟨_, ctlCmd_acts hl hg hd (n := 2) (by decide) hb hf e, ?_, ?_, Frame.commit ?_⟩
  · exact (State.get_put_same ..).trans (Key.cut_fit _ _ (show 1 - d.val < 2 by omega))
  · simpa using hst
  · exact ((ctlFound_frame ch v s).mono (fun k hk => by simp [hk])).trans (Frame.put _ _ _ _ _ _ (by simp))

end move

section handover
variable (hb : ∀ k < 4, k ≠ 3 → bitOf v.toNat k = false)
include hb

/-- HANDOVER of a channel that does not run, or whose domain does not, has no effect. -/
theorem handover_idle (h : s.flag (.cch .CTRL_HANDOVER) ch = true ∨ s.get (.cch .STATUS_STATE) ch ≠ chRUNNING ∨
      s.rasterRuns (s.chDom ch) = false) :
    ∃ t, exec (.handover p d ch v) s = .next t ∧ Frame (ctlKeys ch) s t := by
  refine ctlCmd_idle hl hg hd (n := 3) (by decide) hb (h.imp_right (fun e => handoverReq_idle ?_))
  rwa [ctlFound_get ch v s rfl, ctlFound_chDom, ctlFound_rasterRuns]

/-- HANDOVER of a running channel: it leaves, and is offered to a module that a link reaches (R205). -/
theorem handover_running (hf : s.flag (.cch .CTRL_HANDOVER) ch = false) (h : s.get (.cch .STATUS_STATE) ch = chRUNNING)
    (hr : s.rasterRuns (s.chDom ch) = true) :
    ∃ t, exec (.handover p d ch v) s = .next t ∧ t.get (.cch .STATUS_STATE) ch = chLEAVING ∧
      t.flag (.cch .CTRL_HANDOVER) ch = true ∧ t.get (.cch .xHO) ch = 1 ∧ Frame (chanKeys ch) s t ∧
      ∀ l, s.linkTo (bitsOf v.toNat 4 2) = some l → ∃ o : Offer, Out.hoOffer (bitsOf v.toNat 4 2) o ∈ t.outs ∧
        o.ch = ch ∧ o.nextSeq = s.get (.shp .SEQ_NEXT) d (s.chGet (.cch .FLOW_OUT_FLOW) ch) := by
  have hst : (ctlFound ch v s).get (.cch .STATUS_STATE) ch = chRUNNING := (ctlFound_get ch v s rfl _ _ _).trans h
  have hhome : (ctlFound ch v s).get (.cch .CTRL_HOME_DIE) ch = d := (ctlFound_get ch v s rfl _ _ _).trans hd
  have hmod : (ctlFound ch v s).get (.cch .CTRL_HO_MODULE) ch = bitsOf v.toNat 4 2 := (ctlSet_holds ch v.toNat s.quiet).1
  have hruns : (ctlFound ch v s).rasterRuns ((ctlFound ch v s).chDom ch) = true := by
    rwa [ctlFound_chDom, ctlFound_rasterRuns]
  have e := (ctlReq_handover ch _).trans (handoverReq_running hst hruns)
  rw [hhome, hmod, ctlFound_chGet ch v s rfl] at e
  generalize State.picAfter _ _ _ = n at e
  obtain ⟨h1, h2, h3, h4⟩ := offerMarks_reads ch (ctlFound ch v s)
  have hsent : ∀ l, s.linkTo (bitsOf v.toNat 4 2) = some l → _ := fun l hlink =>
    sendOffer_offers (d := d) (h := s.chGet (.cch .FLOW_OUT_FLOW) ch) (n := n) h1 ((ctlFound_linkTo ch v s _).trans hlink)
  have hfr := (ctlFound_frame ch v s).chan (h1.trans (sendOffer_frame ch d (bitsOf v.toNat 4 2) (s.chGet (.cch .FLOW_OUT_FLOW) ch) n _))
  have hget : ∀ {f : Cch}, f ≠ .xHO_LINK → _ := fun hne =>
    sendOffer_get ch d (bitsOf v.toNat 4 2) (s.chGet (.cch .FLOW_OUT_FLOW) ch) n hne (offerMarks ch (ctlFound ch v s))
  rw [← hget (by decide)] at h2 h3 h4
  generalize sendOffer _ _ _ _ _ _ = t at e hsent hfr h2 h3 h4
  refine ⟨_, ctlCmd_acts hl hg hd (n := 3) (by decide) hb hf e, h2, congrArg (· != 0) h3, h4, hfr.commit, fun l hlink => ?_⟩
  obtain ⟨o, ho, hch, hseq⟩ := hsent l hlink
  exact ⟨o, by rwa [outs_commit_of_open (safe_of_cch_pass hg)], hch, hseq.trans (ctlFound_get ch v s rfl _ _ _)⟩

end handover

end

-- DROP_LT

section
variable (hl : s.live = true) (hr : s.gateOf p .ref (some d.val) = .pass)
include hl hr

/-- DROP_LT is noted in the home window until it takes effect (R167). -/
theorem dropLt_home (hd : s.get (.cch .CTRL_HOME_DIE) ch = d) :
    ∃ t, exec (.dropLt p d ch v) s = .next t ∧ t.flag (.ref .CTRL_DROP_LT) ch = true ∧
      Frame (fun k => k == ⟨.ref .CTRL_DROP_LT, ch, 0, 0⟩) s t := by
  have e : refCtrlWrite d ch (withBits v.toNat 0 1 1) s.quiet = s.quiet.put (.ref .CTRL_DROP_LT) 1 ch := by
    rw [refCtrlWrite, State.get_quiet, hd, bitOf_withBits _ (by decide) (by decide)]
    simp
  refine ⟨_, (exec_gated_pass rfl hl hr).trans (by rw [e]), ?_, Frame.ofQuiet (Frame.put _ _ _ _ _ _ (by simp))⟩
  simp [Key.cut, Fld.width, Ref.width]

/-- Elsewhere DROP_LT does nothing (R22). -/
theorem dropLt_away (hd : s.get (.cch .CTRL_HOME_DIE) ch ≠ d) :
    ∃ t, exec (.dropLt p d ch v) s = .next t ∧ Still s t := by
  have e : refCtrlWrite d ch (withBits v.toNat 0 1 1) s.quiet = s.quiet := by
    rw [refCtrlWrite, State.get_quiet, beq_false_of_ne hd]
    simp
  exact ⟨_, (exec_gated_pass rfl hl hr).trans (by rw [e]), (Frame.quiet s).commit⟩

end

/-- Settles O31: the settings are kept by every action, an action alone is what its rule says, and what has been sent and the settings
taken again make no difference between actions of one write and the same actions in turn. -/
theorem channelControl : Obligations.ChannelControl := by
  intro p d ch v s hl hg
  refine ⟨fun hd => ⟨?_, ?_, fun hv => ?_, fun h0 hv => ?_, fun hv h3 => ?_, fun hv => ?_⟩, fun hd => ?_,
    fun hr => ⟨dropLt_home hl hr, dropLt_away hl hr⟩⟩
  · simp only [ctlCmds, List.forall_mem_cons]
    exact ⟨ctlCmd_settings hl hg hd (n := 0) (by decide), ctlCmd_settings hl hg hd (n := 1) (by decide),
      ctlCmd_settings hl hg hd (n := 2) (by decide), ctlCmd_settings hl hg hd (n := 3) (by decide), by simp⟩
  · simp only [ctlCmds, List.zipIdx_cons, List.zipIdx_nil, List.forall_mem_cons]
    exact ⟨ctlCmd_inTurn hl hg hd (n := 0) (by decide), ctlCmd_inTurn hl hg hd (n := 1) (by decide),
      ctlCmd_inTurn hl hg hd (n := 2) (by decide), ctlCmd_inTurn hl hg hd (n := 3) (by decide), by simp⟩
  · have hb : ∀ k < 4, k ≠ 0 → bitOf v.toNat k = false := fun k hk h => bitOf_of_bitsOf hv (by omega) (by omega)
    exact ⟨cchStart_idle hl hg hd hb, fun hf hs => ⟨cchStart_waits hl hg hd hb hf hs, cchStart_refused hl hg hd hb hf hs⟩⟩
  · have hb : ∀ k < 4, k ≠ 1 → bitOf v.toNat k = false := fun k hk h => by
      obtain rfl | h2 : k = 0 ∨ 2 ≤ k := by omega
      · exact h0
      · exact bitOf_of_bitsOf hv h2 (by omega)
    exact ⟨cchStop_idle hl hg hd hb, fun hf => ⟨cchStop_ends hl hg hd hb hf, cchStop_noted hl hg hd hb hf⟩⟩
  · have hb : ∀ k < 4, k ≠ 2 → bitOf v.toNat k = false := fun k hk h => by
      obtain rfl | h2 : k = 3 ∨ k < 2 := by omega
      · exact h3
      · exact bitOf_of_bitsOf hv (by omega) (by omega)
    exact ⟨moveDie_idle hl hg hd hb, fun hf => ⟨moveDie_running hl hg hd hb hf, moveDie_stopped hl hg hd hb hf⟩⟩
  · have hb : ∀ k < 4, k ≠ 3 → bitOf v.toNat k = false := fun k hk h => bitOf_of_bitsOf hv (by omega) (by omega)
    exact ⟨handover_idle hl hg hd hb, handover_running hl hg hd hb⟩
  · simp only [ctlCmds, List.forall_mem_cons]
    exact ⟨ctlCmd_away hl hg (n := 0) (by decide) hd, ctlCmd_away hl hg (n := 1) (by decide) hd,
      ctlCmd_away hl hg (n := 2) (by decide) hd, ctlCmd_away hl hg (n := 3) (by decide) hd, by simp⟩

end Sys2Proof
end

section
/-!
PROOFS. Refutations by a register that holds more than its field: the statements on channel starts, pictures and links take every
store, and a value that a command carries on is cut to the width of its field when it is written.
-/

namespace Sys2Proof

open Machine

/-- The state that a command leaves is the one it answers. -/
theorem leaves_of_next {i : Instr} {s t : State} (h : exec i s = .next t) : leaves i s = t := by simp only [leaves, h]

/-- The state whose register `a` holds `v` as it stands, which the list of a store may, where a write would cut it to its field. -/
def holding (s : State) (a : Key) (v : Nat) (h : v ≠ a.reset) : State :=
  { s with store := ⟨assocInsert Key.lt s.store.cells a v, Store.wf_insert s.store.ok a h⟩ }

-- The Tether links

/-- A module at step 9 of its start-up, whose own major holds 256 in eight bits. -/
def majorWide : State := holding (State.reset.put (.mid .BOOT_STEP) 9) ⟨.mid .TTH_LOCAL_MAJOR, 0, 0, 0⟩ 256 (by decide)

/-- A partner of major 256 meets there all that the statement asks of a link that comes up. -/
theorem majorWide_meets :
    majorWide.live = true ∧ majorWide.safe = false ∧ majorWide.flag (.mid .TTH_REV_UP) 0 = false ∧
    majorWide.get (.pwr .xWIN_STEP) < 2 ∧ majorWide.inWinter = false ∧ majorWide.tetherRecovery = false ∧
    6 ≤ majorWide.get (.mid .BOOT_STEP) ∧ 1 ≠ majorWide.get (.mid .STATUS_MODULE) ∧
    256 = majorWide.get (.mid .TTH_LOCAL_MAJOR) := by decide +kernel

/-- The link comes up at major 0, as the eight bits of its field hold 256. -/
theorem majorWide_comesUp : (leaves (.tetherLinkUp 0 256 0 1) majorWide).get (.mid .TTH_REV_MAJOR) 0 = 0 := by decide +kernel

/-- Refutes O57: the statement takes every register store and every major, and a link that comes up at the major 256, which the store
holds as the module's own, shows the major 0. -/
theorem not_links : ¬ Obligations.Links := by
  unfold Obligations.Links
  rintro ⟨h, -, -⟩
  obtain ⟨hl, hs, hu, hw, hi, hr, hb, hm, hj⟩ := majorWide_meets
  obtain ⟨t, ht, -, hmajor, -⟩ := (((h 0 256 0 1 majorWide hl).2 hs hu hw hi).2.2.2 hr hb hm).1 hj
  have hcut := majorWide_comesUp
  rw [leaves_of_next ht] at hcut
  exact absurd (hcut.symm.trans hmajor) (by decide)

-- The start of a channel

/-- Both dies run, a channel waits for its start in a domain that is not enabled, and the season holds 4 in two bits. -/
def seasonWide : State :=
  holding ((State.reset.put (.mid .STATUS_DIE_UP) 3).put (.cch .STATUS_STATE) chWAITING) ⟨.pwr .STATUS_SEASON, 0, 0, 0⟩ 4 (by decide)

/-- By the statement nothing lets that channel start. -/
theorem seasonWide_mayNotStart : seasonWide.live = true ∧ mayStart 0 (seasonWide.atNow ⟨0, 0⟩) = false ∧
    (seasonWide.atNow ⟨0, 0⟩).get (.cch .STATUS_STATE) 0 = chWAITING := by decide +kernel

/-- The model bars a start in Winter and on the way into and out of it, and the season is none of these. -/
theorem seasonWide_unbarred : (seasonWide.atNow ⟨0, 0⟩).safe = false ∧
    (seasonWide.atNow ⟨0, 0⟩).dieUp ((seasonWide.atNow ⟨0, 0⟩).get (.cch .CTRL_HOME_DIE) 0) = true ∧
    (seasonWide.atNow ⟨0, 0⟩).inWinter = false ∧ (seasonWide.atNow ⟨0, 0⟩).get (.pwr .STATUS_SEASON) ≠ 3 ∧
    (seasonWide.atNow ⟨0, 0⟩).get (.pwr .xWIN_STEP) ≠ 2 ∧
    (seasonWide.atNow ⟨0, 0⟩).domOn ((seasonWide.atNow ⟨0, 0⟩).get (.cch .FMT_DOMAIN) 0 0 1) = false := by decide +kernel

/-- A waiting channel that nothing bars is refused where its domain is not enabled (R207). -/
theorem channelStart_offDomain {ch : Nat} {s : State} (hs : s.safe = false) (hd : s.dieUp (s.get (.cch .CTRL_HOME_DIE) ch) = true)
    (hw : s.get (.cch .STATUS_STATE) ch = chWAITING) (hi : s.inWinter = false) (h3 : s.get (.pwr .STATUS_SEASON) ≠ 3)
    (h2 : s.get (.pwr .xWIN_STEP) ≠ 2) (ho : s.domOn (s.get (.cch .FMT_DOMAIN) ch 0 1) = false) :
    channelStart ch s = refuseStart ch [whyFORMAT] s := by
  simp [channelStart, hs, hd, hw, hi, h3, h2, ho]

/-- The marks of the pools of both dies touch what those of one may. -/
theorem poolsSettle_frame (s : State) : Frame settleKeys s (poolsSettle s) :=
  Frame.forEach _ _ (fun d _ w => Frame.when _ _ (fun _ => poolSettle_frame d w)) s

/-- The boundary of a channel whose start is refused leaves it REFUSED. -/
theorem channelStart_leaves_refused {ch : Chan} {now : Now} {s : State} (hl : s.live = true)
    (hc : channelStart ch (s.atNow now) = refuseStart ch [whyFORMAT] (s.atNow now)) :
    (leaves (.channelStart ch now) s).get (.cch .STATUS_STATE) ch = chREFUSED := by
  have e : exec (.channelStart ch now) s = s.runAt now (fun s => poolsSettle (channelStart ch s)) := rfl
  rw [State.runAt_live _ _ _ hl, hc] at e
  rw [leaves_of_next e, State.get_commit]
  exact ((poolsSettle_frame _).regs _ rfl).trans (refuseStart_format ch _).2.1

/-- The channel of that store is refused at its boundary. -/
theorem seasonWide_refused : (leaves (.channelStart 0 ⟨0, 0⟩) seasonWide).get (.cch .STATUS_STATE) 0 = chREFUSED := by
  obtain ⟨hl, -, hw⟩ := seasonWide_mayNotStart
  obtain ⟨hs, hd, hi, h3, h2, ho⟩ := seasonWide_unbarred
  exact channelStart_leaves_refused (ch := 0) hl (channelStart_offDomain hs hd hw hi h3 h2 ho)

/-- Refutes O32: the statement takes every register store, and its own condition for a start asks for a season below 2, where the
model bars the seasons 2 and 3. A waiting channel of a store that holds 4 as the season is not to start, and is refused for its
domain. -/
theorem not_channelStarts : ¬ Obligations.ChannelStarts := by
  unfold Obligations.ChannelStarts
  rintro ⟨h, -, -⟩
  obtain ⟨hl, hm, hw⟩ := seasonWide_mayNotStart
  obtain ⟨t, ht, hf⟩ := (h 0 ⟨0, 0⟩ seasonWide (seasonWide.atNow ⟨0, 0⟩) hl rfl).1 hm
  have hr := seasonWide_refused
  rw [leaves_of_next ht] at hr
  exact absurd (hw.symm.trans ((hf.regs ⟨.cch .STATUS_STATE, 0, 0, 0⟩ rfl).symm.trans hr)) (by decide)

-- The move of a channel

/-- A channel of plain pictures leaves die 0 in the middle of a raster that runs, with a cluster of die 1 free for it. -/
def moving : State :=
  let s := [((.mid .STATUS_DIE_UP : Fld), 3), (.trs .STATUS_STATE, tbLOCKED), (.trs .DOM_FMT_TOTAL_LINES, 100),
    (.trs .DOM_FMT_ACTIVE_LINES, 16), (.trs .DOM_RATE_NUM, 24000), (.trs .DOM_FMT_ENABLE, 1), (.cch .STATUS_STATE, chLEAVING),
    (.cch .xMOVE_AT, 1)].foldl (fun s p => s.put p.1 p.2) State.reset
  let s := [((.cch .FMT_WORK : Fld), 1), (.cch .FMT_WIDTH, 16), (.cch .FMT_CHROMA, 1)].foldl (fun s p => s.put p.1 p.2 0 0 1) s
  { s.put (.cus .CLUSTER_LINEBUF_OK) 1 16 with osc := 1500000, tb := 10000000000 * 65536 }

/-- Its next sequence number holds 2^32 in 32 bits. -/
def seqWide : State := holding moving ⟨.shp .SEQ_NEXT, 0, 0, 0⟩ (2 ^ 32) (by decide)

/-- The move is due at the boundary of picture 240, and the start on the other die is neither refused nor put off. -/
theorem seqWide_moves : seqWide.live = true ∧ (seqWide.atNow ⟨0, 0⟩).chRuns 0 = true ∧ (seqWide.atNow ⟨0, 0⟩).newPic 0 = some 240 ∧
    moveDue 0 (seqWide.atNow ⟨0, 0⟩) = true ∧ (seqWide.atNow ⟨0, 0⟩).dieUp 1 = true ∧
    Starts 1 0 240 false (seqWide.atNow ⟨0, 0⟩) = true := by decide +kernel

/-- The channel's home is die 0, and its output flow there has that number next. -/
theorem seqWide_numbers : (seqWide.atNow ⟨0, 0⟩).get (.cch .CTRL_HOME_DIE) 0 = 0 ∧
    (seqWide.atNow ⟨0, 0⟩).get (.cch .FLOW_OUT_FLOW) 0 0 1 = 0 ∧
    (seqWide.atNow ⟨0, 0⟩).get (.shp .SEQ_NEXT) 0 0 = 2 ^ 32 := by decide +kernel

/-- The move carries the number over as the 32 bits of its field hold it. -/
theorem seqWide_carried : (leaves (.dieMove 0 ⟨0, 0⟩) seqWide).get (.shp .SEQ_NEXT) 1 0 = 0 := by decide +kernel

/-- By the statement a die move from die 0 carries the next number of output flow 0 over as it is held. -/
theorem seqNext_of_pictures (h : Obligations.Pictures) {ch : Chan} {n : Nat} {now : Now} {s : State} (hl : s.live = true)
    (hr : (s.atNow now).chRuns ch = true) (hn : (s.atNow now).newPic ch = some n) (hm : moveDue ch (s.atNow now) = true)
    (hd : (s.atNow now).dieUp 1 = true) (hs : Starts 1 ch n false (s.atNow now) = true)
    (hhome : (s.atNow now).get (.cch .CTRL_HOME_DIE) ch = 0) (hflow : (s.atNow now).get (.cch .FLOW_OUT_FLOW) ch 0 1 = 0) :
    (leaves (.dieMove ch now) s).get (.shp .SEQ_NEXT) 1 0 = (s.atNow now).get (.shp .SEQ_NEXT) 0 0 := by
  have hmove := (((h.1 ch now s _ hl rfl).2.2 n hr hn).2.2 hm).1
  rw [hhome, hflow] at hmove
  obtain ⟨t, ht, -, -, hnum⟩ := hmove hd hs
  rw [leaves_of_next ht, hnum]

/-- Refutes O34: the statement takes every register store, and a die move of a channel whose next sequence number the store holds
as 2^32 goes on with the number 0, which is not the one held. -/
theorem not_pictures : ¬ Obligations.Pictures := by
  intro h
  obtain ⟨hl, hr, hn, hm, hd, hs⟩ := seqWide_moves
  obtain ⟨hhome, hflow, hseq⟩ := seqWide_numbers
  have hcarried := seqNext_of_pictures (ch := 0) h hl hr hn hm hd hs hhome hflow
  exact absurd (seqWide_carried.symm.trans (hcarried.trans hseq)) (by decide)

end Sys2Proof
end

section
/-!
PROOFS. Refutations by a CTU row at work under another rotation index than its own: where a unit leaves service, the model gives up
the decode of the row under the index that the row has now, and a stripe that runs under another goes on (R191, R200, R202).
-/

namespace Sys2Proof

open Machine

/-- An HEVC channel decodes picture 240 on die 0, past the time in which row 1 could be decoded again. Of that row the stripe of
rotation index 1 runs on unit 1; with one unit in the layout the row's own index is 0. -/
def offRotation : State :=
  let s := [((.mid .STATUS_DIE_UP : Fld), 3), (.mid .BOOT_STEP, 9), (.hpt .PORT_STATUS_HIR_OK, 1), (.trs .STATUS_STATE, tbLOCKED),
    (.trs .DOM_FMT_TOTAL_LINES, 100), (.trs .DOM_FMT_ACTIVE_LINES, 64), (.trs .DOM_RATE_NUM, 24000),
    (.trs .DOM_RATE_FIRST_ACTIVE, 36), (.trs .DOM_FMT_ENABLE, 1), (.cch .STATUS_STATE, chRUNNING), (.cch .xBANK, 18),
    (.cch .xPIC, 241), (.cch .xDONE, 240)].foldl (fun s p => s.put p.1 p.2) State.reset
  let s := [((.cch .FMT_WORK : Fld), 3), (.cch .FMT_WIDTH, 64), (.cch .xSNAP, 241), (.cch .xL_N, 1)].foldl
    (fun s p => s.put p.1 p.2 0 0 18) s
  let s := (s.put (.cch .xROW) 1 0 0).put (.cch .xROW) 1 0 1
  let s := (s.put (.cch .xL_UNIT) 1 0 1 18).put (.cch .xSTR) 1 0 (strIx 1 1)
  { s with tb := 10070000000 * 65536 }

-- The commit point

/-- The same with unit 1 out of service. -/
def offRotationLost : State := offRotation.put (.cus .UNIT_STATE) 3 1

/-- The stripe has lost its unit, and none can decode it again. -/
theorem offRotationLost_gone : offRotationLost.live = true ∧ (offRotationLost.atNow ⟨0, 0⟩).chRuns 0 = true ∧
    (offRotationLost.atNow ⟨0, 0⟩).chDecodes 0 = true ∧ (offRotationLost.atNow ⟨0, 0⟩).rowPic 0 1 = some 240 ∧
    unitGone 0 240 1 1 (offRotationLost.atNow ⟨0, 0⟩) = true ∧
    (offRotationLost.atNow ⟨0, 0⟩).rexUnit 0 240 1 = none := by decide +kernel

/-- At its slot the row is given up under index 0, and the stripe is still at work. -/
theorem offRotationLost_goesOn : (leaves (.stripeSlotStart 0 1 1 ⟨[], ⟨0, 0⟩⟩) offRotationLost).strSt 0 240 1 1 = 1 := by decide +kernel

/-- By the statement a decode stripe that has lost its unit, and that no other can decode again, is given up at its slot. -/
theorem givenUp_of_commitPoint (h : Obligations.CommitPoint) {ch : Chan} {row n : Nat} {i : StripeIx} {bad : List Nat} {now : Now}
    {s : State} (hl : s.live = true) (hr : (s.atNow now).chRuns ch = true) (hd : (s.atNow now).chDecodes ch = true)
    (hn : (s.atNow now).rowPic ch row = some n) (hg : unitGone ch n row i (s.atNow now) = true)
    (hk : (s.atNow now).rexUnit ch n i = none) : (leaves (.stripeSlotStart ch row i ⟨bad, now⟩) s).strSt ch n row i ≠ 1 := by
  obtain ⟨t, ht, -, hend⟩ := (((h ch row i now s _ hl rfl).1 bad).2 n hr hn).2 hd |>.1 hg
  rw [leaves_of_next ht]
  exact hend (.inr hk)

/-- Refutes O36: the stripe of `offRotationLost` has lost its unit, none can decode it again, and its slot leaves it at work, since the
row is given up under its own rotation index. -/
theorem not_commitPoint : ¬ Obligations.CommitPoint := by
  intro h
  obtain ⟨hl, hr, hd, hn, hg, hk⟩ := offRotationLost_gone
  exact givenUp_of_commitPoint (ch := 0) (i := 1) h hl hr hd hn hg hk offRotationLost_goesOn

-- A unit that retires

/-- A list that holds a pair gives some value for its key. -/
theorem assocGet_ne_none_of_mem {α β : Type} [DecidableEq α] {l : List (α × β)} {a : α} {b : β} (h : (a, b) ∈ l) :
    assocGet l a ≠ none := by
  induction l with
  | nil => simp at h
  | cons p l ih =>
    by_cases hp : p.1 = a
    · simp [assocGet, hp]
    · have hl : (a, b) ∈ l := (List.mem_cons.mp h).resolve_left (fun e => hp (by rw [← e]))
      simpa [assocGet, hp] using ih hl

/-- A store lists the keys that do not hold their value at reset. -/
theorem listed_iff {m : Store} {k : Key} : (∃ v, (k, v) ∈ m.cells) ↔ m.get k ≠ k.reset := by
  have hget := assocGet_eq_of_get m k
  constructor
  · rintro ⟨v, hv⟩ he
    rw [if_pos he] at hget
    exact assocGet_ne_none_of_mem hv hget
  · intro he
    rw [if_neg he] at hget
    exact ⟨_, mem_of_assocGet hget⟩

theorem mem_keysOf {m : Store} {f : Fld} {k : Key} : k ∈ m.keysOf f ↔ k.fld = f ∧ m.get k ≠ k.reset := by
  rw [← listed_iff]
  simp [Store.keysOf, and_comm]

/-- Two states hold the same in every register of the channels. -/
def SameChans (s t : State) : Prop := ∀ f i j k, t.get (.cch f) i j k = s.get (.cch f) i j k

/-- What touches the fault log and the events alone leaves the registers of the channels. -/
theorem Frame.sameChans {s t : State} (h : Frame fltKeys s t) : SameChans s t := fun _ _ _ _ => h.regs _ rfl

section
variable {s t : State} (h : SameChans s t)
include h

theorem SameChans.strSt (ch n row i : Nat) : t.strSt ch n row i = s.strSt ch n row i := h _ _ _ _

theorem SameChans.unitNow (x : Nat × Nat × Nat × Nat) : t.unitNow x = s.unitNow x := by
  simp only [State.unitNow, State.unitOfStr, h .xRX, h .xL_UNIT]

theorem SameChans.strEnc (x : Nat × Nat × Nat × Nat) : t.strEnc x = s.strEnc x :=
  congrArg (fun v => v % 2 == 0) (h .FMT_WORK x.1 0 (picBank x.2.1))

/-- The stripes that such states have in one state are the same. -/
theorem SameChans.stripesIn {d st : Nat} {x : Nat × Nat × Nat × Nat} (hx : x ∈ t.stripesIn d st) : x ∈ s.stripesIn d st := by
  simp only [State.stripesIn, List.mem_map, List.mem_filter] at hx ⊢
  obtain ⟨⟨f, i, j, k⟩, ⟨hk, hp⟩, rfl⟩ := hx
  obtain ⟨rfl, hr⟩ := mem_keysOf.mp hk
  have hstr : t.store.get ⟨.cch .xSTR, i, j, k⟩ = s.store.get ⟨.cch .xSTR, i, j, k⟩ := h .xSTR i j k
  rw [hstr] at hr
  rw [hstr, h .CTRL_HOME_DIE] at hp
  exact ⟨_, ⟨mem_keysOf.mpr ⟨rfl, hr⟩, hp⟩, by simp only [State.picOf, h .xPIC]⟩

end

/-- With no stripe of an encode channel to re-execute, none starts. -/
theorem pumpRex_of_no_encode {d : Nat} {s : State} (h : ∀ x ∈ s.stripesIn d 3, s.strEnc x = false) : pumpRex d s = s := by
  have he : (s.stripesIn d 3).filter s.strEnc = [] := List.filter_eq_nil_iff.mpr (fun x hx => by simp [h x hx])
  simp [pumpRex, he, inOrder, insSort]

/-- A unit that retires, before its fault is raised (R199, R200). -/
def retiring (u : Nat) (s : State) : State :=
  let d := unitDie u
  let persist := s.flag (.cus .CFG_PERSIST) d
  let s := s.when (s.unitSt u == 2) (fun s => replanUnit u (s.put (.cus .xSLOTS) 1 u))
  let s := s.when (s.get (.cus .CLUSTER_SPARE) (u / 5) == u % 5) (fun s => s.put (.cus .CLUSTER_SPARE) 7 (u / 5))
  let s := (s.put (.cus .UNIT_STATE) 3 u).bump (.cus .CNT) d 4
  let s := takeOff ((s.running d).filter (fun x => s.unitNow x == u)) s
  s.when persist (ostPost d 4)

theorem retireUnit_eq {u : Nat} {s : State} (h : s.unitSt u ≠ 3) : retireUnit u s =
    pumpRex (unitDie u) (raise 0x42 (unitDie u) u (if s.flag (.cus .CFG_PERSIST) (unitDie u) then 1 else 0) (retiring u s)) := by
  simp only [retireUnit, if_neg h, retiring]

/-- Where no stripe of an encode channel waits, what follows a retirement leaves the registers of the channels. -/
theorem retireUnit_sameChans {u : Nat} {s : State} (h : s.unitSt u ≠ 3)
    (he : ∀ x ∈ (retiring u s).stripesIn (unitDie u) 3, (retiring u s).strEnc x = false) :
    SameChans (retiring u s) (retireUnit u s) := by
  rw [retireUnit_eq h]
  have hs := (raise_minor_frame (code := 0x42) 2 rfl (by decide) (unitDie u) u (if s.flag (.cus .CFG_PERSIST) (unitDie u) then 1 else 0)
    (retiring u s)).sameChans
  rw [pumpRex_of_no_encode (fun x hx => (hs.strEnc x).trans (he x (hs.stripesIn hx)))]
  exact hs

/-- RETIRE of a unit that is not retired yet leaves the registers of the channels as the retirement itself does. -/
theorem retire_sameChans {p : Party} {k : UnitIx} {v : Word} {s : State} (hl : s.live = true)
    (hg : s.gateOf p .cus (some (unitDie k)) = .pass) (h : s.unitSt k ≠ 3)
    (he : ∀ x ∈ (retiring k s.quiet).stripesIn (unitDie k) 3, (retiring k s.quiet).strEnc x = false) :
    SameChans (retiring k s.quiet) (leaves (.retire p k v) s) := by
  have hx : exec (.retire p k v) s = .next (s.commit (cusUnitWrite k (withBits v.toNat 31 1 1) s.quiet)) := exec_gated_pass rfl hl hg
  have hb : bitOf (withBits v.toNat 31 1 1) 31 = true := by simp only [bitOf, withBits, bitsOf, beq_iff_eq]; omega
  have hw : cusUnitWrite k (withBits v.toNat 31 1 1) s.quiet = retireUnit k s.quiet := by simp only [cusUnitWrite, State.when, hb, if_true]
  rw [leaves_of_next hx, hw]
  exact retireUnit_sameChans (s := s.quiet) h he

/-- Unit 1 of that state may be retired, and the stripe of index 1 runs on it. -/
theorem offRotation_runs : offRotation.live = true ∧ offRotation.gateOf .ha .cus (some 0) = .pass ∧ offRotation.unitSt 1 ≠ 3 ∧
    (0, 240, 1, 1) ∈ offRotation.running 0 ∧ offRotation.unitNow (0, 240, 1, 1) = 1 := by decide +kernel

/-- As unit 1 retires, the stripe stays at work on it, and no stripe waits for a re-execution but of that decode channel. -/
theorem offRotation_retiring : (retiring 1 offRotation.quiet).strSt 0 240 1 1 = 1 ∧
    (retiring 1 offRotation.quiet).unitNow (0, 240, 1, 1) = 1 ∧
    ∀ x ∈ (retiring 1 offRotation.quiet).stripesIn 0 3, (retiring 1 offRotation.quiet).strEnc x = false := by decide +kernel

/-- RETIRE leaves the stripe at work on the retired unit. -/
theorem offRotation_retired : (leaves (.retire .ha 1 0) offRotation).strSt 0 240 1 1 = 1 ∧
    (leaves (.retire .ha 1 0) offRotation).unitNow (0, 240, 1, 1) = 1 := by
  obtain ⟨hl, hg, hu, -, -⟩ := offRotation_runs
  obtain ⟨hstr, hunit, henc⟩ := offRotation_retiring
  have hs := retire_sameChans (p := .ha) (k := 1) (v := 0) hl hg hu henc
  exact ⟨(hs.strSt 0 240 1 1).trans hstr, (hs.unitNow _).trans hunit⟩

/-- Refutes O37: the stripe of `offRotation` runs on unit 1, and RETIRE of that unit leaves it at work there, since the row is given
up under its own rotation index. -/
theorem not_unitFailures : ¬ Obligations.UnitFailures := by
  rintro ⟨h, -, -⟩
  obtain ⟨hl, hg, hu, hrun, hon⟩ := offRotation_runs
  obtain ⟨hstr, hunit⟩ := offRotation_retired
  obtain ⟨t, ht, -, -, hoff, -⟩ := (h .ha 1 0 offRotation hl hg).1 hu
  rw [leaves_of_next ht] at hstr hunit
  have hx := List.all_eq_true.mp hoff _ hrun
  simp [hstr, hunit, hon] at hx

end Sys2Proof
end

section
/-!
PROOFS. The machine right after reset (R47, R207, R363, R396, R411, R451, R465, R471, R483).
-/

namespace Sys2Proof

open Machine

/-- Settles O10: a field with no held value reads its reset value, and what the machine holds beside its registers is empty. -/
theorem resetValues : Obligations.ResetValues := by
  unfold Obligations.ResetValues
  exact ⟨Store.get_empty, rfl, rfl, rfl, rfl, rfl, rfl, rfl, rfl, rfl, rfl, rfl, rfl, rfl⟩

end Sys2Proof
end

section
/-!
PROOFS. What the time-driven commands share: their effect on the state that they find, what an event leaves pending, and the keys
that a recorded occurrence touches (R59, R361, R462).
-/

namespace Sys2Proof

open Machine

variable {B : Key → Bool} {s t u : State}

-- The state that a time-driven command finds

theorem State.atNow_safe (s : State) (n : Now) : (s.atNow n).safe = s.safe := by
  obtain ⟨st, ff, os, h⟩ := State.tick_kept s.quiet n
  rw [State.atNow, h]
  exact State.clock_safe _ _

theorem State.atNow_osc (s : State) (n : Now) : (s.atNow n).osc = max s.osc n.osc := by
  obtain ⟨st, ff, os, h⟩ := State.tick_kept s.quiet n
  rw [State.atNow, h]
  exact State.clock_osc _ _

/-- A commit over the state that a time-driven command finds keeps the frame of its effect. -/
theorem Frame.atCommit {n : Now} (h : Frame B (s.atNow n) t) : Frame B (s.atNow n) (s.commit t) := by
  refine ⟨h.regs, h.bytes, h.traffic, ?_, ⟨?_, h.clock.2⟩, h.events⟩
  · rw [State.commit_safe, h.safe, State.atNow_safe, Bool.or_self]
  · rw [State.commit_osc, h.clock.1, State.atNow_osc, ← max_assoc, max_self]

/-- What a time-driven command leaves. -/
theorem exec_at {i : Instr} {n : Now} {f : State → State} (he : exec i s = s.runAt n f) (hl : s.live = true) (h : f (s.atNow n) = t) :
    exec i s = .next (s.commit t) := by
  rw [he, State.runAt_live _ _ _ hl, h]

/-- A time-driven command whose effect is none. -/
theorem exec_at_still {i : Instr} {n : Now} {f : State → State} (he : exec i s = s.runAt n f) (hl : s.live = true)
    (h : f (s.atNow n) = s.atNow n) : ∃ t, exec i s = .next t ∧ Still (s.atNow n) t :=
  ⟨_, exec_at he hl h, (Frame.refl _ _).atCommit⟩

/-- A field that a frame does not touch. -/
theorem SameRegs.get (h : SameRegs B s t) {f : Fld} {i j k : Nat} (hb : B ⟨f, i, j, k⟩ = false) : t.get f i j k = s.get f i j k :=
  h _ hb

/-- A flag that a frame does not touch. -/
theorem SameRegs.flag (h : SameRegs B s t) {f : Fld} {i j k : Nat} (hb : B ⟨f, i, j, k⟩ = false) :
    t.flag f i j k = s.flag f i j k := congrArg (· != 0) (h _ hb)

/-- A field that a frame does not touch, read as a signed number. -/
theorem SameRegs.int (h : SameRegs B s t) {f : Fld} {i j k : Nat} (hb : B ⟨f, i, j, k⟩ = false) :
    t.int f i j k = s.int f i j k := congrArg (signedOf f.width) (h _ hb)

theorem SameBytes.trans (h : SameBytes s t) (g : SameBytes t u) : SameBytes s u := by
  unfold SameBytes at *; simp [h, g]

theorem SameTraffic.trans (h : SameTraffic s t) (g : SameTraffic t u) : SameTraffic s u := by
  unfold SameTraffic at *; simp [h, g]

-- What is pending

/-- What was pending is pending still. -/
def StillPends (s t : State) : Prop :=
  ∀ n, s.flag (.evc .SRC_CFG_PENDING) n = true → t.flag (.evc .SRC_CFG_PENDING) n = true

theorem StillPends.refl (s : State) : StillPends s s := fun _ h => h

theorem StillPends.trans (h : StillPends s t) (g : StillPends t u) : StillPends s u := fun n hn => g n (h n hn)

theorem SameRegs.pends (h : SameRegs B s t) (hb : ∀ n, B ⟨.evc .SRC_CFG_PENDING, n, 0, 0⟩ = false) : StillPends s t :=
  fun n hn => (h.flag (hb n)).trans hn

/-- An event's own marks beside what is pending (R362, R368, R372, R376). -/
def evMarks (k : Key) : Bool := evcKeys k && k.fld != .evc .SRC_CFG_PENDING

theorem settleTarget_marks (t : Nat) (s : State) : SameRegs evMarks s (settleTarget t s) := by
  have h (n : Nat) (s : State) : SameRegs evMarks s (sendMsix n s) := by
    unfold sendMsix
    split
    · exact SameRegs.put _ _ _ _ _ _ _ rfl
    · exact fun _ _ => rfl
  unfold settleTarget
  dsimp only
  split
  · exact (SameRegs.put _ _ _ _ _ _ _ rfl).trans (h _ _)
  · exact SameRegs.put _ _ _ _ _ _ _ rfl

theorem settle_marks (s : State) : SameRegs evMarks s (settle s) :=
  (((settleTarget_marks 0 s).trans (settleTarget_marks 1 _)).trans (settleTarget_marks 2 _)).trans (settleTarget_marks 3 _)

theorem srcEntry_marks (n det : Nat) (s : State) : SameRegs evMarks s (srcEntry n det s) := by
  have h (t data : Nat) : SameRegs evMarks s (fifoWrite t data false s) := by
    unfold fifoWrite
    split
    · exact SameRegs.put evMarks ({ s with fifo := _ } : State) _ _ _ _ _ rfl
    · exact (SameRegs.put _ _ _ _ _ _ _ rfl).trans (SameRegs.put _ _ _ _ _ _ _ rfl)
  unfold srcEntry
  rw [State.when_eq]
  split
  · exact h _ _
  · exact fun _ _ => rfl

/-- PENDING of a source sets, and no other source's clears (R361). -/
theorem srcPend_pends (n : Nat) (s : State) :
    StillPends s (srcPend n s) ∧ (srcPend n s).flag (.evc .SRC_CFG_PENDING) n = true := by
  unfold srcPend
  split
  · next h =>
    have hp : StillPends s (s.bump (.evc .CNT) (s.srcTarget n) 7) := (SameRegs.put evMarks _ _ _ _ _ _ rfl).pends (fun _ => rfl)
    exact ⟨hp, hp n h⟩
  · refine ⟨fun m hm => ?_, by simp [Key.cut, Fld.width, Evc.width]⟩
    by_cases e : m = n
    · subst e; simp [Key.cut, Fld.width, Evc.width]
    · rwa [State.flag_eq, State.get_put_ne _ _ _ _ _ _ _ _ _ _ (fun h => e h.2.1)]

theorem thrPulse_pends (b : State) (t : Nat) (s : State) : StillPends s (thrPulse b t s) := by
  unfold thrPulse
  split
  · exact (((SameRegs.put evMarks _ _ _ _ _ _ rfl).trans (srcEntry_marks _ _ _)).pends (fun _ => rfl)).trans (srcPend_pends _ _).1
  · exact StillPends.refl s

theorem thrAll_pends (b s : State) : StillPends s (thrAll b s) := by
  have again (t : Nat) (v : State) : StillPends v (if crossed b s t then v else thrPulse b t v) := by
    split
    · exact StillPends.refl v
    · exact thrPulse_pends b t v
  exact forEach_inv (StillPends s) _ _ (fun t _ v hv => hv.trans (again t v)) _
    (forEach_inv (StillPends s) _ _ (fun t _ v hv => hv.trans (thrPulse_pends b t v)) _ (StillPends.refl s))

/-- A pulse leaves pending what was, and its own source but for a reserved one (R360, R361). -/
theorem evPulse_pends (n det : Nat) (s : State) :
    StillPends s (evPulse n det s) ∧ (isReservedSrc n = false → (evPulse n det s).flag (.evc .SRC_CFG_PENDING) n = true) := by
  unfold evPulse
  split
  · next h => exact ⟨StillPends.refl s, fun hn => absurd h (by simp [hn])⟩
  · obtain ⟨hkeep, hset⟩ := srcPend_pends n (srcEntry n det s)
    have hrest := (thrAll_pends s (srcPend n (srcEntry n det s))).trans ((settle_marks _).pends (fun _ => rfl))
    exact ⟨(((srcEntry_marks n det s).pends (fun _ => rfl)).trans hkeep).trans hrest, fun _ => hrest n hset⟩

-- A recorded occurrence

/-- What an occurrence is written to: its class's count, the ring and the first records (R462, R463). -/
def ringKeys (k : Key) : Bool :=
  match k.fld with
  | .flt f => f == .CNT || f == .REC_WORD || f == .FIRST_WORD || f == .RING_HEAD || f == .RING_TOTAL
  | _ => false

/-- What a record of an occurrence may touch: that, and its event. -/
def recKeys (k : Key) : Bool := ringKeys k || evcKeys k

theorem fltKeys_of_recKeys {k : Key} (h : recKeys k = true) : fltKeys k = true := by
  obtain ⟨f, i, j, n⟩ := k
  cases f <;> simp_all [recKeys, ringKeys, fltKeys, evcKeys, Fld.home]

theorem writeRec_ring {f : Fld} (h : ∀ i j, ringKeys ⟨f, i, j, 0⟩ = true) (i : Nat) (ws : List Nat) (s : State) :
    Frame ringKeys s (writeRec f i ws s) :=
  Frame.forEach _ _ (fun _ _ _ => Frame.put _ _ _ _ _ _ (h _ _)) s

/-- An occurrence is written down, and then its event pulses; one of a reserved code is nothing (R462). -/
theorem record_cases (o : Occ) (wire inj : Bool) (s : State) :
    record o wire inj s = s ∨ ∃ n det u, record o wire inj s = evPulse n det u ∧ Frame ringKeys s u := by
  unfold record
  split
  · exact .inl rfl
  · next c _ =>
    have hcnt : Frame ringKeys s (s.bump (.flt .CNT) c) := Frame.bump s _ _ _ _ _ rfl
    dsimp only
    split
    · exact .inr ⟨_, _, _, rfl, (hcnt.trans (Frame.put _ _ _ _ _ _ rfl)).trans (Frame.put _ _ _ _ _ _ rfl)⟩
    · refine .inr ⟨_, _, _, rfl, Frame.trans (Frame.trans ?_ (Frame.put _ _ _ _ _ _ rfl)) (Frame.bump _ _ _ _ _ _ rfl)⟩
      exact ((hcnt.trans (Frame.free _)).trans (writeRec_ring (fun _ _ => rfl) _ _ _)).trans
        (Frame.when _ _ (fun _ => writeRec_ring (fun _ _ => rfl) _ _ _))

theorem record_recFrame (o : Occ) (wire inj : Bool) (s : State) : Frame recKeys s (record o wire inj s) := by
  obtain h | ⟨n, det, u, h, hu⟩ := record_cases o wire inj s
  · rw [h]; exact Frame.refl _ s
  · rw [h]
    exact (hu.mono (fun k hk => by simp [recKeys, hk])).trans ((evPulse_frame n det u).mono (fun k hk => by simp [recKeys, hk]))

theorem record_pends (o : Occ) (wire inj : Bool) (s : State) : StillPends s (record o wire inj s) := by
  obtain h | ⟨n, det, u, h, hu⟩ := record_cases o wire inj s
  · rw [h]; exact StillPends.refl s
  · rw [h]; exact (hu.regs.pends (fun _ => rfl)).trans (evPulse_pends n det u).1

end Sys2Proof
end

section
/-!
PROOFS. The inputs and the timeouts of the time base (R42, R44, R47, R52, R53, R67, R68).
-/

namespace Sys2Proof

open Machine

variable {s t u : State} {p : Nat}

-- A change of the time base's state

/-- The marks that a change of state leaves in the time base's registers, and the step of start-up that LOCKED ends. -/
def tbMarkKeys (boot : Bool) (k : Key) : Bool :=
  match k.fld with
  | .trs f => f == .STATUS_HOLD_ELAPSED || f == .xHOLD_AT || f == .xH_TB || f == .xH_OSC || f == .xTRIM || f == .xLEFT_TAI ||
      f == .xHOLD_DUE
  | .mid f => boot && f == .BOOT_STEP
  | _ => false

/-- The marks of a change of state from `was` to `st`. -/
def tbMarks (was st : Nat) (s : State) : State :=
  let s := s.when (was == tbHOLDOVER) (fun s =>
    let n := s.osc - s.get (.trs .xHOLD_AT)
    (s.put (.trs .STATUS_HOLD_ELAPSED) (min 255 (n / 1500000000))).put (.trs .xHOLD_AT) n)
  let s := s.when (st == tbHOLDOVER || st == tbUNLOCKED) (fun s =>
    ((s.put (.trs .xH_TB) s.tb).put (.trs .xH_OSC) s.osc).put (.trs .xTRIM) 0)
  let s := s.when (was == tbFREE) (fun s => s.put (.trs .xLEFT_TAI) s.tai)
  let s := s.when (st == tbLOCKED) (fun s => (s.put (.trs .STATUS_HOLD_ELAPSED) 0).put (.trs .xHOLD_AT) 0)
  let s := s.when (st == tbHOLDOVER) (fun s =>
    (s.put (.trs .xHOLD_AT) (s.osc - s.get (.trs .xHOLD_AT))).put (.trs .xHOLD_DUE)
      (s.dueIn (clampTo 1 60 (s.get (.trs .CTRL_HOLD_TO)) * secNs)))
  s.when (st == tbLOCKED && s.get (.mid .BOOT_STEP) == 7) (fun s => s.put (.mid .BOOT_STEP) 8)

theorem tbMarks_frame (was st : Nat) (s : State) : Frame (tbMarkKeys (st == tbLOCKED)) s (tbMarks was st s) := by
  have put (f : Trs) (h : tbMarkKeys (st == tbLOCKED) ⟨.trs f, 0, 0, 0⟩ = true) (v : Nat) (u : State) :
    Frame (tbMarkKeys (st == tbLOCKED)) u (u.put (.trs f) v) := Frame.put u _ _ _ _ _ h
  unfold tbMarks
  dsimp only
  refine Frame.trans ?_ (Frame.when _ _ (fun h => Frame.put _ _ _ _ _ _ (by simp_all [tbMarkKeys])))
  refine Frame.trans ?_ (Frame.when _ _ (fun _ => (put .xHOLD_AT rfl _ _).trans (put .xHOLD_DUE rfl _ _)))
  refine Frame.trans ?_ (Frame.when _ _ (fun _ => (put .STATUS_HOLD_ELAPSED rfl _ _).trans (put .xHOLD_AT rfl _ _)))
  refine Frame.trans ?_ (Frame.when _ _ (fun _ => put .xLEFT_TAI rfl _ _))
  refine Frame.trans ?_ (Frame.when _ _ (fun _ =>
    ((put .xH_TB rfl _ _).trans (put .xH_OSC rfl _ _)).trans (put .xTRIM rfl _ _)))
  exact Frame.when _ _ (fun _ => (put .STATUS_HOLD_ELAPSED rfl _ _).trans (put .xHOLD_AT rfl _ _))

/-- A change of state, neither from nor to UNLOCKED: STATE, the marks, and the event (R47, R360). -/
theorem setTb_eq {st : Nat} (h : s.tbState ≠ st) (hs : st ≠ tbUNLOCKED) (hw : s.tbState ≠ tbUNLOCKED) :
    setTb st s = evPulse 880 st (tbMarks s.tbState st (s.put (.trs .STATUS_STATE) st)) := by
  unfold setTb tbMarks
  simp only [if_neg h, beq_false_of_ne hs, beq_false_of_ne hw, State.when_false]

/-- UNLOCKED is entered: `FLT_STATUS.UNLOCKED` follows and TIME_UNLOCKED is recorded as well (R47, R469). -/
theorem setTb_unlocked_eq (h : s.tbState ≠ tbUNLOCKED) :
    setTb tbUNLOCKED s = evPulse 880 tbUNLOCKED (tbMarks s.tbState tbUNLOCKED
      (record ⟨0x02, 2, 0, 1⟩ false false ((s.put (.trs .STATUS_STATE) tbUNLOCKED).put (.flt .STATUS_UNLOCKED) 1))) := by
  unfold setTb tbMarks
  simp only [if_neg h, beq_false_of_ne h, beq_self_eq_true, State.when_true, State.when_false, raise_minor (code := 0x02) 0 (by decide) (by decide)]

/-- The state of the time base and its marks. -/
def tbKeys (k : Key) : Bool := k.fld == .trs .STATUS_STATE || tbMarkKeys false k

theorem trs_of_tbKeys {k : Key} (h : tbKeys k = true) : blkKeys .trs k = true := by
  obtain ⟨f, i, j, n⟩ := k
  cases f <;> simp_all [tbKeys, tbMarkKeys, blkKeys, Fld.home]

theorem tbState_put (st : Nat) (h : st < 8) (s : State) : (s.put (.trs .STATUS_STATE) st).tbState = st := by
  rw [State.tbState, State.get_put_same, Key.cut_fit _ _ h]

/-- A frame that leaves STATE leaves the state of the time base. -/
theorem SameRegs.tbState {B : Key → Bool} (h : SameRegs B s t) (hb : B ⟨.trs .STATUS_STATE, 0, 0, 0⟩ = false) :
    t.tbState = s.tbState := h _ hb

/-- The new state after the marks and the event. -/
theorem tbState_marks (was st n : Nat) (s : State) : (evPulse 880 n (tbMarks was st s)).tbState = s.tbState := by
  rw [(evPulse_frame 880 n _).regs.tbState rfl, (tbMarks_frame was st s).regs.tbState rfl]

/-- What HOLDOVER leaves of a time base that follows a master (R47). -/
theorem setTb_holdover (h : s.tbState = tbLOCKING ∨ s.tbState = tbLOCKED) :
    (setTb tbHOLDOVER s).tbState = tbHOLDOVER ∧ Frame (fun k => tbKeys k || evcKeys k) s (setTb tbHOLDOVER s) := by
  have h1 : s.tbState ≠ tbHOLDOVER := by rcases h with h | h <;> rw [h] <;> decide
  have h2 : s.tbState ≠ tbUNLOCKED := by rcases h with h | h <;> rw [h] <;> decide
  rw [setTb_eq h1 (by decide) h2]
  refine ⟨(tbState_marks _ _ _ _).trans (tbState_put _ (by decide) s), ?_⟩
  exact ((Frame.put s _ _ _ _ _ rfl).trans ((tbMarks_frame _ tbHOLDOVER _).mono (fun k hk => by simpa [tbKeys] using .inl (.inr hk)))).trans
    ((evPulse_frame _ _ _).mono (fun k hk => by simp [hk]))

/-- What UNLOCKED may touch. -/
def unlockKeys (k : Key) : Bool := tbKeys k || k.fld == .flt .STATUS_UNLOCKED || recKeys k

/-- What UNLOCKED leaves (R47, R469). -/
theorem setTb_unlocked (h : s.tbState ≠ tbUNLOCKED) :
    (setTb tbUNLOCKED s).tbState = tbUNLOCKED ∧ (setTb tbUNLOCKED s).flag (.flt .STATUS_UNLOCKED) = true ∧
    StillPends s (setTb tbUNLOCKED s) ∧ Frame unlockKeys s (setTb tbUNLOCKED s) := by
  rw [setTb_unlocked_eq h]
  have hput : Frame (fun k => k.fld == .trs .STATUS_STATE || k.fld == .flt .STATUS_UNLOCKED) s ((s.put (.trs .STATUS_STATE) tbUNLOCKED).put (.flt .STATUS_UNLOCKED) 1) :=
    (Frame.put _ _ _ _ _ _ rfl).trans (Frame.put _ _ _ _ _ _ rfl)
  have hflag : ((s.put (.trs .STATUS_STATE) tbUNLOCKED).put (.flt .STATUS_UNLOCKED) 1).flag (.flt .STATUS_UNLOCKED) = true :=
    (flag_put_same _ _ _ _ _ _).trans (by decide)
  have hst : ((s.put (.trs .STATUS_STATE) tbUNLOCKED).put (.flt .STATUS_UNLOCKED) 1).tbState = tbUNLOCKED :=
    (State.get_put_fld _ _ _ _ _ _ _ _ _ _ (by decide)).trans (tbState_put _ (by decide) s)
  generalize (s.put (.trs .STATUS_STATE) tbUNLOCKED).put (.flt .STATUS_UNLOCKED) 1 = v at hput hflag hst
  have hrec := record_recFrame ⟨0x02, 2, 0, 1⟩ false false v
  have hpend := record_pends ⟨0x02, 2, 0, 1⟩ false false v
  generalize record _ false false v = w at hrec hpend
  have hmark := tbMarks_frame s.tbState tbUNLOCKED w
  have hev := evPulse_frame 880 tbUNLOCKED (tbMarks s.tbState tbUNLOCKED w)
  refine ⟨?_, ?_, ?_, ?_⟩
  · exact (tbState_marks _ _ _ _).trans ((hrec.regs.tbState rfl).trans hst)
  · rw [hev.regs.flag rfl, hmark.regs.flag rfl, hrec.regs.flag rfl, hflag]
  · exact (((hput.regs.pends (fun _ => rfl)).trans hpend).trans (hmark.regs.pends (fun _ => rfl))).trans (evPulse_pends _ _ _).1
  · exact (((hput.mono (fun k hk => by simp_all [unlockKeys, tbKeys]; grind)).trans (hrec.mono (fun k hk => by simp [unlockKeys, hk]))).trans
      (hmark.mono (fun k hk => by simpa [unlockKeys, tbKeys] using .inl (.inl (.inr hk))))).trans
      (hev.mono (fun k hk => by simp [unlockKeys, recKeys, hk]))

-- Messages

theorem toSigned_lt (w : Nat) (v : Int) : toSigned w v < 2 ^ w := by
  have h := Int.emod_lt_of_pos v (by positivity : (0 : Int) < (2 ^ w : Nat))
  have h0 := Int.emod_nonneg v (by positivity : ((2 ^ w : Nat) : Int) ≠ 0)
  unfold toSigned
  omega

/-- The choice of the active port touches that alone (R44). -/
theorem elect_frame (s : State) : Frame (fun k => k.fld == .trs .STATUS_ACTIVE_PORT) s (elect s) := by
  unfold elect
  dsimp only
  split
  · exact Frame.refl _ s
  · exact Frame.put _ _ _ _ _ _ rfl

/-- The dataset of an Announce, member by member, 0 past its end. -/
def takeDataset (p : Nat) (a : Announce) (s : State) : State :=
  forEach (List.range 16) (fun j s => s.put (.trs .xDATASET) (match a.dataset[j]? with | some v => v + 1 | none => 0) p j) s

theorem takeDataset_frame (p : Nat) (a : Announce) (s : State) : Frame (fun k => k.fld == .trs .xDATASET) s (takeDataset p a s) :=
  Frame.forEach _ _ (fun _ _ v => Frame.put v _ _ _ _ _ rfl) s

/-- An Announce that the port takes qualifies it and starts its receipt timeout (R44, R67). -/
theorem announceMsg_taken {a : Announce} (h : s.ptpOn p a.path = true) :
    (announceMsg p a s).flag (.trs .xANN_OK) p = true ∧
    (announceMsg p a s).get (.trs .xANN_DUE) p = s.dueIn s.annToNs % 2 ^ 64 ∧ Frame (blkKeys .trs) s (announceMsg p a s) := by
  have e : announceMsg p a s = elect (((takeDataset p a s).put (.trs .xANN_DUE)
      ((takeDataset p a s).dueIn (takeDataset p a s).annToNs) p).put (.trs .xANN_OK) 1 p) := if_pos h
  have hd := takeDataset_frame p a s
  have hdue : (takeDataset p a s).dueIn (takeDataset p a s).annToNs = s.dueIn s.annToNs := by
    have hto : (takeDataset p a s).annToNs = s.annToNs := by
      unfold State.annToNs
      rw [hd.regs.int rfl, State.get, hd.regs _ rfl]
      rfl
    rw [State.dueIn, hto, hd.clock.1, State.dueIn]
  rw [e, hdue]
  generalize takeDataset p a s = v at hd
  have he := elect_frame ((v.put (.trs .xANN_DUE) (s.dueIn s.annToNs) p).put (.trs .xANN_OK) 1 p)
  refine ⟨?_, ?_, ?_⟩
  · rw [he.regs.flag rfl, flag_put_same]
    rfl
  · rw [State.get, he.regs _ rfl, ← State.get, State.get_put_fld _ _ _ _ _ _ _ _ _ _ (by decide), State.get_put_same]
    rfl
  · have mono : ∀ {f : Trs} {u v : State}, Frame (fun k => k.fld == .trs f) u v → Frame (blkKeys .trs) u v := fun h =>
      h.mono (fun k hk => by rw [blkKeys, eq_of_beq hk]; rfl)
    exact (((mono hd).trans (Frame.put v _ _ _ _ _ rfl)).trans (Frame.put _ _ _ _ _ _ rfl)).trans (mono he)

/-- A delay response of the mechanism in use gives the path delay and the rate of requests (R42). -/
theorem delayRespMsg_taken {r : DelayResp} (h : (s.ptpOn p r.path && r.p2p == s.flag (.trs .PTP_CFG_DELAY_MECH)) = true) :
    (delayRespMsg p r s).get (.trs .xDELAY) p = toSigned 64 r.delay ∧
    (delayRespMsg p r s).get (.trs .xMIN_LOG) p = toSigned 8 r.minLog ∧
    Frame (fun k => k == ⟨.trs .xDELAY, p, 0, 0⟩ || k == ⟨.trs .xMIN_LOG, p, 0, 0⟩) s (delayRespMsg p r s) := by
  have e : delayRespMsg p r s =
      (s.put (.trs .xDELAY) (toSigned 64 r.delay) p).put (.trs .xMIN_LOG) (toSigned 8 r.minLog) p := by
    rw [delayRespMsg, h]; rfl
  rw [e]
  refine ⟨?_, ?_, (Frame.put _ _ _ _ _ _ (by simp)).trans (Frame.put _ _ _ _ _ _ (by simp))⟩
  · rw [State.get_put_fld _ _ _ _ _ _ _ _ _ _ (by decide), State.get_put_same, Key.cut_fit]
    exact toSigned_lt 64 _
  · rw [State.get_put_same, Key.cut_fit]
    exact toSigned_lt 8 _

-- Delay requests

/-- A request that may leave goes at once on an idle interface, and else at its next frame boundary (R42, R276). -/
theorem delayReq_of_mayAsk {p : NetPort} (h : mayAsk p s = true) :
    delayReq p s = if s.flag (.shp .xWIRE) (s.ptpIface p) = true then
      (s.put (.trs .xREQ_AT) (s.osc + 1) p).put (.trs .xDREQ) 1 p else emitDelayReq p (s.put (.trs .xREQ_AT) (s.osc + 1) p) := by
  simp only [mayAsk, Bool.and_eq_true] at h
  obtain ⟨⟨⟨⟨hen, hm⟩, hs⟩, hi⟩, hdue⟩ := h
  have hp : (s.put (.trs .xREQ_AT) (s.osc + 1) p).ptpIface p = s.ptpIface p := by simp [State.ptpIface]
  simp [delayReq, hen, hm, hs, hi, hdue, hp]

theorem delayReq_of_not_mayAsk {p : NetPort} (h : mayAsk p s = false) : delayReq p s = s := by
  unfold delayReq
  dsimp only
  rw [if_neg]
  intro hc
  simp only [Bool.and_eq_true] at hc
  obtain ⟨⟨⟨⟨hen, hm⟩, hdue⟩, hs⟩, hi⟩ := hc
  simp [mayAsk, hen, hm, hs, hi, hdue] at h

theorem open_of_mayAsk {p : NetPort} (h : mayAsk p s = true) : s.safe = false := by
  simp only [mayAsk, Bool.and_eq_true, Bool.not_eq_true'] at h
  obtain ⟨⟨⟨-, hs⟩, -⟩, -⟩ := h
  exact hs

/-- On an idle interface a request that may leave starts at once and takes the next sequence number (R42). -/
theorem delayReq_sends {p : NetPort} (h : mayAsk p s = true) (hw : s.flag (.shp .xWIRE) (s.ptpIface p) = false) :
    (delayReq p s).outs = s.outs ++
      [.delayReq p (s.flag (.trs .PTP_CFG_DELAY_MECH)) ((s.get (.trs .xREQ_SEQ) p + 1) % 65536)] ∧
    (delayReq p s).get (.trs .xREQ_SEQ) p = (s.get (.trs .xREQ_SEQ) p + 1) % 65536 ∧
    (delayReq p s).get (.trs .xREQ_AT) p = (s.osc + 1) % 2 ^ 64 ∧
    Frame (fun k => blkKeys .trs k && k.i == p.val) s (delayReq p s) := by
  rw [delayReq_of_mayAsk h, if_neg (by simp [hw])]
  refine ⟨?_, ?_, ?_, ?_⟩
  · simp [emitDelayReq, State.bump, Key.cut, Fld.width, Trs.width]
  · simp [emitDelayReq, State.bump, Key.cut, Fld.width, Trs.width]
  · simp [emitDelayReq, State.bump, Key.cut, Fld.width, Trs.width]
  · have put : ∀ (f : Trs) (n : Nat) (w : State), Frame (fun k => blkKeys .trs k && k.i == p.val) w (w.put (.trs f) n p) :=
      fun f n w => Frame.put w _ _ _ _ _ (by simp [blkKeys, Fld.home])
    exact (((put _ _ s).trans (put _ _ _)).trans (put _ _ _)).trans (Frame.emit _ _)

/-- On a busy interface it waits for the next frame boundary (R276). -/
theorem delayReq_queues {p : NetPort} (h : mayAsk p s = true) (hw : s.flag (.shp .xWIRE) (s.ptpIface p) = true) :
    (delayReq p s).outs = s.outs ∧ (delayReq p s).flag (.trs .xDREQ) p = true ∧
    (delayReq p s).get (.trs .xREQ_AT) p = (s.osc + 1) % 2 ^ 64 ∧
    Frame (fun k => k == ⟨.trs .xDREQ, p, 0, 0⟩ || k == ⟨.trs .xREQ_AT, p, 0, 0⟩) s (delayReq p s) := by
  rw [delayReq_of_mayAsk h, if_pos hw]
  refine ⟨by simp, (flag_put_same _ _ _ _ _ _).trans rfl, ?_, ?_⟩
  · simp [Key.cut, Fld.width, Trs.width]
  · exact (Frame.put _ _ _ _ _ _ (by simp)).trans (Frame.put _ _ _ _ _ _ (by simp))

-- A master that falls silent

/-- Whether a port but this one has a master, after this one has lost its own. -/
theorem anyMaster_put (p : NetPort) (s : State) :
    (s.put (.trs .xMASTER) 0 p).anyMaster = true ↔ ∃ q : NetPort, q ≠ p ∧ s.hasMaster q = true := by
  have hq (q : NetPort) : (s.put (.trs .xMASTER) 0 p).hasMaster q = (decide (q ≠ p) && s.hasMaster q) := by
    by_cases e : q = p
    · subst e
      simp [State.hasMaster, Key.cut]
    · have hne : ¬ (Fld.trs .xMASTER = .trs .xMASTER ∧ q.val = p.val ∧ 0 = 0 ∧ 0 = 0) := fun h => e (Fin.ext h.2.1)
      simp [State.hasMaster, State.flag_eq, State.get_put_ne _ _ _ _ _ _ _ _ _ _ hne, e]
  have all : (s.put (.trs .xMASTER) 0 p).anyMaster = true ↔ ∃ q : NetPort, (s.put (.trs .xMASTER) 0 p).hasMaster q = true := by
    rw [State.anyMaster, List.any_eq_true, Fin.exists_iff]
    refine exists_congr (fun n => ?_)
    simp only [List.mem_cons, List.not_mem_nil, or_false]
    exact ⟨fun h => ⟨by omega, h.2⟩, fun ⟨h, g⟩ => ⟨by omega, g⟩⟩
  rw [all]
  exact exists_congr (fun q => by rw [hq, Bool.and_eq_true, decide_eq_true_iff])

/-- A port has lost its master: whether another has one, or the time base follows none, decides its state (R47). -/
theorem masterLost_reads (p : NetPort) (s : State) [Decidable ((∃ q : NetPort, q ≠ p ∧ s.hasMaster q = true) ∨
      s.tbState ≠ tbLOCKING ∧ s.tbState ≠ tbLOCKED)] :
    (masterLost p s).hasMaster p = false ∧ (masterLost p s).flag (.trs .xANN_OK) p = s.flag (.trs .xANN_OK) p ∧
    (masterLost p s).tbState = (if (∃ q : NetPort, q ≠ p ∧ s.hasMaster q = true) ∨ s.tbState ≠ tbLOCKING ∧ s.tbState ≠ tbLOCKED
      then s.tbState else tbHOLDOVER) ∧ Frame (fun k => blkKeys .trs k || evcKeys k) s (masterLost p s) := by
  have hany := anyMaster_put p s
  have hput : Frame (fun k => k.fld == .trs .xMASTER) s (s.put (.trs .xMASTER) 0 p) := Frame.put s _ _ _ _ _ rfl
  have hlost : (s.put (.trs .xMASTER) 0 p).flag (.trs .xMASTER) p = false := by simp [Key.cut]
  have hst : (s.put (.trs .xMASTER) 0 p).tbState = s.tbState := hput.regs.tbState rfl
  have hann : (s.put (.trs .xMASTER) 0 p).flag (.trs .xANN_OK) p = s.flag (.trs .xANN_OK) p := hput.regs.flag rfl
  unfold masterLost
  dsimp only
  generalize s.put (.trs .xMASTER) 0 p = v at hany hput hlost hst hann
  have hv : Frame (fun k => blkKeys .trs k || evcKeys k) s v := hput.mono (fun k hk => by rw [blkKeys, eq_of_beq hk]; rfl)
  have htrs : ∀ k, tbKeys k || evcKeys k → blkKeys .trs k || evcKeys k := fun k hk => by
    simp only [Bool.or_eq_true] at hk ⊢
    exact hk.imp_left trs_of_tbKeys
  by_cases hc : (∃ q : NetPort, q ≠ p ∧ s.hasMaster q = true) ∨ s.tbState ≠ tbLOCKING ∧ s.tbState ≠ tbLOCKED
  · rw [if_pos hc]
    split
    · have he := elect_frame v
      exact ⟨(he.regs.flag rfl).trans hlost, (he.regs.flag rfl).trans hann, (he.regs.tbState rfl).trans hst,
        hv.trans (he.mono (fun k hk => by rw [blkKeys, eq_of_beq hk]; rfl))⟩
    · next hn =>
      have hno : ¬ (v.tbState = tbLOCKING ∨ v.tbState = tbLOCKED) := by
        rw [hst]
        exact not_or.mpr (hc.resolve_left (fun h => hn (hany.mpr h)))
      rw [if_neg hno]
      exact ⟨hlost, hann, hst, hv⟩
  · rw [if_neg hc]
    rw [not_or, not_and_or, not_not, not_not] at hc
    obtain ⟨hn, hs⟩ := hc
    rw [if_neg (fun h => hn (hany.mp h)), if_pos (hst ▸ hs)]
    obtain ⟨hho, hf⟩ := setTb_holdover (s := v) (hst ▸ hs)
    exact ⟨(hf.regs.flag rfl).trans hlost, (hf.regs.flag rfl).trans hann, hho, hv.trans (hf.mono htrs)⟩

/-- Whether a port has a master, and the state of the time base, do not depend on the receipt timeouts. -/
theorem masterLost_after {p : NetPort} {B : Key → Bool} (h : Frame B s u) (hb : ∀ k, B k = true → blkKeys .trs k = true)
    (hm : ∀ q : Nat, B ⟨.trs .xMASTER, q, 0, 0⟩ = false) (hs : B ⟨.trs .STATUS_STATE, 0, 0, 0⟩ = false)
    [Decidable ((∃ q : NetPort, q ≠ p ∧ s.hasMaster q = true) ∨ s.tbState ≠ tbLOCKING ∧ s.tbState ≠ tbLOCKED)] :
    (masterLost p u).hasMaster p = false ∧ (masterLost p u).flag (.trs .xANN_OK) p = u.flag (.trs .xANN_OK) p ∧
    (masterLost p u).tbState = (if (∃ q : NetPort, q ≠ p ∧ s.hasMaster q = true) ∨ s.tbState ≠ tbLOCKING ∧ s.tbState ≠ tbLOCKED
      then s.tbState else tbHOLDOVER) ∧ Frame (fun k => blkKeys .trs k || evcKeys k) s (masterLost p u) := by
  have hq : ∀ q : NetPort, u.hasMaster q = s.hasMaster q := fun q => h.regs.flag (hm q)
  have ht := h.regs.tbState hs
  classical
  obtain ⟨h1, h2, h3, h4⟩ := masterLost_reads p u
  refine ⟨h1, h2, ?_, (h.mono (fun k hk => by simp [hb k hk])).trans h4⟩
  simpa only [hq, ht] using h3

-- PPS

/-- An edge of PPS_IN is timestamped, its spacing decides PPS_OK, and its source pulses (R53, R68). -/
theorem ppsIn_reads (s : State) :
    (ppsIn s).get (.trs .PPS_TS) = s.tai % 2 ^ 64 ∧
    (ppsIn s).flag (.trs .STATUS_PPS_OK) = (s.get (.trs .xPPS_AT) != 0 && elapsedNs (s.get (.trs .xPPS_AT) - 1) s.osc 999999000 &&
      !elapsedNs (s.get (.trs .xPPS_AT) - 1) s.osc 1000001001) ∧
    (ppsIn s).flag (.evc .SRC_CFG_PENDING) 881 = true ∧ Frame (fun k => blkKeys .trs k || evcKeys k) s (ppsIn s) := by
  unfold ppsIn
  dsimp only [secNs, usNs]
  generalize hok : (s.get (.trs .xPPS_AT) != 0 && elapsedNs (s.get (.trs .xPPS_AT) - 1) s.osc 999999000 &&
    !elapsedNs (s.get (.trs .xPPS_AT) - 1) s.osc 1000001001) = ok
  have hput : Frame (blkKeys .trs) s ((s.put (.trs .xPPS_AT) (s.osc + 1)).putB (.trs .STATUS_PPS_OK) ok) :=
    (Frame.put _ _ _ _ _ _ rfl).trans (Frame.put _ _ _ _ _ _ rfl)
  have hflag : ((s.put (.trs .xPPS_AT) (s.osc + 1)).putB (.trs .STATUS_PPS_OK) ok).flag (.trs .STATUS_PPS_OK) = ok := by
    cases ok <;> simp [State.putB, Key.cut, Fld.width, Trs.width]
  generalize (s.put (.trs .xPPS_AT) (s.osc + 1)).putB (.trs .STATUS_PPS_OK) ok = u at hput hflag
  have hev := evPulse_frame 881 0 u
  have hpend := (evPulse_pends 881 0 u).2 rfl
  generalize evPulse 881 0 u = v at hev hpend
  have hwhen := Frame.when (B := fun k => k.fld == .trs .xTRIM) (s := v) (v.tbState == tbHOLDOVER && v.get (.trs .CTRL_HOLD_SRC) == 3)
    (fun s => s.put (.trs .xTRIM) (intCode s.toSecond)) (fun _ => Frame.put v _ _ _ _ _ rfl)
  generalize v.when _ _ = w at hwhen
  have htai : w.tai = s.tai := by rw [State.tai, hwhen.clock.2, hev.clock.2, hput.clock.2, State.tai]
  have trs : ∀ k, blkKeys .trs k = true → (blkKeys .trs k || evcKeys k) = true := fun k hk => by simp [hk]
  refine ⟨?_, ?_, ?_, ?_⟩
  · rw [htai, State.get_put_same]
    rfl
  · rw [flag_put_fld _ _ _ _ _ _ _ _ (by decide), hwhen.regs.flag rfl, hev.regs.flag rfl, hflag]
  · rw [flag_put_fld _ _ _ _ _ _ _ _ (by decide), hwhen.regs.flag rfl, hpend]
  · exact (((hput.mono trs).trans (hev.mono (fun k hk => by simp [hk]))).trans
      (hwhen.mono (fun k hk => by rw [blkKeys, eq_of_beq hk]; rfl))).trans (Frame.put _ _ _ _ _ _ rfl)

/-- PPS_OUT rises (R53). -/
theorem ppsOutEdge_rises {sec : Nat} (h : s.flag (.trs .xPPS) = false) (hf : s.tbState ≠ tbFREE) (hs : s.ppsSecond = some sec)
    (hn : s.get (.trs .xPPS_SEC) ≠ sec + 1) :
    .pps sec true ∈ (ppsOutEdge s).outs ∧ (ppsOutEdge s).flag (.trs .xPPS) = true ∧
    (ppsOutEdge s).get (.trs .xPPS_SEC) = (sec + 1) % 2 ^ 64 ∧ Frame (blkKeys .trs) s (ppsOutEdge s) := by
  have e : ppsOutEdge s = (((s.put (.trs .xPPS_SEC) (sec + 1)).put (.trs .xPPS) 1).put (.trs .xPPS_RISE) s.osc).emit (.pps sec true) := by
    simp [ppsOutEdge, h, hs, hf, hn]
  rw [e]
  refine ⟨by simp, by simp [Key.cut, Fld.width, Trs.width], by simp [Key.cut, Fld.width, Trs.width], ?_⟩
  exact (((Frame.put _ _ _ _ _ _ rfl).trans (Frame.put _ _ _ _ _ _ rfl)).trans (Frame.put _ _ _ _ _ _ rfl)).trans (Frame.emit _ _)

/-- PPS_OUT falls after 1 ms, and in FREE (R53). -/
theorem ppsOutEdge_falls (h : s.flag (.trs .xPPS) = true)
    (hd : s.tbState = tbFREE ∨ elapsedNs (s.get (.trs .xPPS_RISE)) s.osc 1000000 = true) :
    .pps (s.get (.trs .xPPS_SEC) - 1) false ∈ (ppsOutEdge s).outs ∧ (ppsOutEdge s).flag (.trs .xPPS) = false ∧
    Frame (fun k => k.fld == .trs .xPPS) s (ppsOutEdge s) := by
  have e : ppsOutEdge s = (s.put (.trs .xPPS) 0).emit (.pps (s.get (.trs .xPPS_SEC) - 1) false) := by
    simp only [ppsOutEdge, h, if_true]
    exact if_pos (by simpa [msNs] using hd)
  rw [e]
  exact ⟨by simp, by simp [Key.cut], (Frame.put _ _ _ _ _ _ rfl).trans (Frame.emit _ _)⟩

/-- PPS_OUT stays low in FREE, away from a whole second, and within one for which it has risen (R53). -/
theorem ppsOutEdge_stays (h : s.flag (.trs .xPPS) = false)
    (hd : s.tbState = tbFREE ∨ s.ppsSecond = none ∨ s.ppsSecond = some (s.get (.trs .xPPS_SEC) - 1) ∧ s.get (.trs .xPPS_SEC) ≠ 0) :
    ppsOutEdge s = s := by
  simp only [ppsOutEdge, h, Bool.false_eq_true, if_false]
  obtain hf | hn | ⟨hs, h0⟩ := hd
  · split
    · simp [hf]
    · rfl
  · rw [hn]
  · rw [hs]
    exact if_neg (by simp; omega)

-- The timeouts of the time base

/-- What UNLOCKED touches lies in the time base and the fault collector. -/
theorem wide_of_unlockKeys {k : Key} (h : unlockKeys k = true) : (blkKeys .trs k || fltKeys k) = true := by
  simp only [unlockKeys, Bool.or_eq_true, beq_iff_eq] at h
  rcases h with (h | h) | h
  · simp [trs_of_tbKeys h]
  · simp [fltKeys, h, Fld.home]
  · simp [fltKeys_of_recKeys h]

/-- A holdover that has lasted HOLD_TO becomes UNLOCKED (R47). -/
theorem holdTimeout_unlocks (h : s.tbState = tbHOLDOVER) (he : s.expired (.trs .xHOLD_DUE) = true) :
    (holdTimeout s).tbState = tbUNLOCKED ∧ (holdTimeout s).flag (.flt .STATUS_UNLOCKED) = true ∧
    Frame (fun k => blkKeys .trs k || fltKeys k) s (holdTimeout s) := by
  have e : holdTimeout s = setTb tbUNLOCKED s := by rw [holdTimeout, h, he]; rfl
  obtain ⟨h1, h2, -, h4⟩ := setTb_unlocked (s := s) (by rw [h]; decide)
  rw [e]
  exact ⟨h1, h2, h4.mono (fun k hk => wide_of_unlockKeys hk)⟩

/-- The time base starts free: UNLOCKED at the oscillator's time (R52). -/
theorem startFree_reads (h : s.tbState ≠ tbUNLOCKED) :
    (startFree s).tbState = tbUNLOCKED ∧ (startFree s).tb = s.nsUp * 65536 ∧ StillPends s (startFree s) ∧
    SameRegs (fun k => k.fld == .trs .xF_OSC || unlockKeys k) s (startFree s) ∧ SameBytes s (startFree s) ∧
    SameTraffic s (startFree s) := by
  have hput : Frame (fun k => k.fld == .trs .xF_OSC) ({ s with tb := s.nsUp * 65536 } : State)
      (({ s with tb := s.nsUp * 65536 } : State).put (.trs .xF_OSC) 0) := Frame.put _ _ _ _ _ _ rfl
  unfold startFree
  generalize State.put _ (.trs .xF_OSC) 0 = v at hput
  obtain ⟨h1, h2, h3, h4⟩ := setTb_unlocked (s := v) (by rw [hput.regs.tbState rfl]; exact h)
  have hregs : SameRegs (fun k => k.fld == .trs .xF_OSC || unlockKeys k) ({ s with tb := s.nsUp * 65536 } : State) (setTb tbUNLOCKED v) :=
    (hput.regs.mono (fun k hk => by simp [hk])).trans (h4.regs.mono (fun k hk => by simp [hk]))
  exact ⟨h1, by rw [h4.clock.2, hput.clock.2], (hput.regs.pends (s := { s with tb := s.nsUp * 65536 }) (fun _ => rfl)).trans h3, hregs,
    SameBytes.trans hput.bytes h4.bytes, SameTraffic.trans hput.traffic h4.traffic⟩

/-- What the first-lock timeout records, whatever FREE_START says (R52). -/
def noteFirstLock (s : State) : State :=
  evPulse 882 0 (raise 0x01 2 0 2 ((s.put (.trs .xFREE_T0) 1).put (.trs .STATUS_FIRSTLOCK_EXPIRED) 1))

/-- What that may touch. -/
def noteKeys (k : Key) : Bool := k.fld == .trs .xFREE_T0 || k.fld == .trs .STATUS_FIRSTLOCK_EXPIRED || recKeys k

theorem noteFirstLock_reads (s : State) :
    (noteFirstLock s).flag (.trs .STATUS_FIRSTLOCK_EXPIRED) = true ∧ (noteFirstLock s).tbState = s.tbState ∧
    (noteFirstLock s).flag (.evc .SRC_CFG_PENDING) 882 = true ∧ Frame noteKeys s (noteFirstLock s) := by
  unfold noteFirstLock
  rw [raise_minor (code := 0x01) 0 (by decide) (by decide)]
  have hput : Frame (fun k => k.fld == .trs .xFREE_T0 || k.fld == .trs .STATUS_FIRSTLOCK_EXPIRED) s
      ((s.put (.trs .xFREE_T0) 1).put (.trs .STATUS_FIRSTLOCK_EXPIRED) 1) :=
    (Frame.put _ _ _ _ _ _ rfl).trans (Frame.put _ _ _ _ _ _ rfl)
  have hflag : ((s.put (.trs .xFREE_T0) 1).put (.trs .STATUS_FIRSTLOCK_EXPIRED) 1).flag (.trs .STATUS_FIRSTLOCK_EXPIRED) = true :=
    (flag_put_same _ _ _ _ _ _).trans rfl
  generalize (s.put (.trs .xFREE_T0) 1).put (.trs .STATUS_FIRSTLOCK_EXPIRED) 1 = u at hput hflag
  have hrec := record_recFrame ⟨0x01, 2, 0, 2⟩ false false u
  generalize record _ false false u = v at hrec
  have hev := evPulse_frame 882 0 v
  refine ⟨?_, ?_, (evPulse_pends 882 0 v).2 rfl, ?_⟩
  · rw [hev.regs.flag rfl, hrec.regs.flag rfl, hflag]
  · rw [hev.regs.tbState rfl, hrec.regs.tbState rfl, hput.regs.tbState rfl]
  · exact ((hput.mono (fun k hk => by simp_all [noteKeys])).trans (hrec.mono (fun k hk => by simp [noteKeys, hk]))).trans
      (hev.mono (fun k hk => by simp [noteKeys, recKeys, hk]))

/-- A first lock that does not come in time: a Notice, FIRSTLOCK_EXPIRED and its source, and with FREE_START the time base starts free
(R52). -/
theorem firstLock_expires (h : s.tbState = tbFREE) (h0 : s.flag (.trs .xFREE_T0) = false)
    (he : elapsedNs (s.get (.trs .xFIRST_AT)) s.osc s.firstLockNs = true) :
    (firstLock s).flag (.trs .STATUS_FIRSTLOCK_EXPIRED) = true ∧
    (firstLock s).tbState = (if s.flag (.trs .CTRL_FREE_START) then tbUNLOCKED else tbFREE) ∧
    (firstLock s).tb = (if s.flag (.trs .CTRL_FREE_START) then s.nsUp * 65536 else s.tb) ∧
    (firstLock s).flag (.evc .SRC_CFG_PENDING) 882 = true ∧
    SameRegs (fun k => blkKeys .trs k || fltKeys k) s (firstLock s) ∧ SameBytes s (firstLock s) ∧ SameTraffic s (firstLock s) := by
  have e : firstLock s = (noteFirstLock s).when ((noteFirstLock s).flag (.trs .CTRL_FREE_START)) startFree :=
    if_pos (by simp [h, h0, he])
  obtain ⟨hx, hst, hpend, hf⟩ := noteFirstLock_reads s
  have hfree := hf.regs.flag (f := .trs .CTRL_FREE_START) (i := 0) (j := 0) (k := 0) rfl
  have hns : (noteFirstLock s).nsUp = s.nsUp := by rw [State.nsUp, hf.clock.1, State.nsUp]
  rw [e, hfree]
  generalize noteFirstLock s = v at hx hst hpend hf hns
  have wide : ∀ k, noteKeys k = true → (blkKeys .trs k || fltKeys k) = true := fun k hk => by
    simp only [noteKeys, Bool.or_eq_true, beq_iff_eq] at hk
    rcases hk with (hk | hk) | hk
    · simp [blkKeys, hk, Fld.home]
    · simp [blkKeys, hk, Fld.home]
    · simp [fltKeys_of_recKeys hk]
  cases s.flag (.trs .CTRL_FREE_START)
  · exact ⟨hx, hst.trans h, hf.clock.2, hpend, hf.regs.mono wide, hf.bytes, hf.traffic⟩
  · obtain ⟨h1, h2, h3, h4, h5, h6⟩ := startFree_reads (s := v) (by rw [hst, h]; decide)
    refine ⟨(h4.flag rfl).trans hx, h1, h2.trans (by rw [hns]; rfl), h3 _ hpend, (hf.regs.mono wide).trans (h4.mono ?_),
      SameBytes.trans hf.bytes h5, SameTraffic.trans hf.traffic h6⟩
    intro k hk
    simp only [Bool.or_eq_true, beq_iff_eq] at hk
    rcases hk with hk | hk
    · simp [blkKeys, hk, Fld.home]
    · exact wide_of_unlockKeys hk

theorem firstLock_waits (h : s.tbState ≠ tbFREE ∨ s.flag (.trs .xFREE_T0) = true ∨
    elapsedNs (s.get (.trs .xFIRST_AT)) s.osc s.firstLockNs = false) : firstLock s = s :=
  if_neg (by simp only [Bool.and_eq_true, Bool.not_eq_true', beq_iff_eq]; rintro ⟨⟨h1, h2⟩, h3⟩; simp_all)

-- The clauses

/-- A receipt timeout that has come costs the port its master (R47, R67). -/
theorem syncTimeout_loses {p : NetPort} (h : s.expired (.trs .xSYNC_DUE) p = true)
    [Decidable ((∃ q : NetPort, q ≠ p ∧ s.hasMaster q = true) ∨ s.tbState ≠ tbLOCKING ∧ s.tbState ≠ tbLOCKED)] :
    (syncTimeout p s).hasMaster p = false ∧
    (syncTimeout p s).tbState = (if (∃ q : NetPort, q ≠ p ∧ s.hasMaster q = true) ∨ s.tbState ≠ tbLOCKING ∧ s.tbState ≠ tbLOCKED
      then s.tbState else tbHOLDOVER) ∧ Frame (fun k => blkKeys .trs k || evcKeys k) s (syncTimeout p s) := by
  rw [show syncTimeout p s = masterLost p (s.put (.trs .xSYNC_DUE) 0 p) by rw [syncTimeout, h]; rfl]
  have hf : Frame (fun k => k.fld == .trs .xSYNC_DUE) s (s.put (.trs .xSYNC_DUE) 0 p) := Frame.put _ _ _ _ _ _ rfl
  obtain ⟨h1, -, h3, h4⟩ := masterLost_after (p := p) hf (fun k hk => by rw [blkKeys, eq_of_beq hk]; rfl) (fun _ => rfl) rfl
  exact ⟨h1, h3, h4⟩

theorem annTimeout_loses {p : NetPort} (h : s.expired (.trs .xANN_DUE) p = true)
    [Decidable ((∃ q : NetPort, q ≠ p ∧ s.hasMaster q = true) ∨ s.tbState ≠ tbLOCKING ∧ s.tbState ≠ tbLOCKED)] :
    (annTimeout p s).hasMaster p = false ∧ (annTimeout p s).flag (.trs .xANN_OK) p = false ∧
    (annTimeout p s).tbState = (if (∃ q : NetPort, q ≠ p ∧ s.hasMaster q = true) ∨ s.tbState ≠ tbLOCKING ∧ s.tbState ≠ tbLOCKED
      then s.tbState else tbHOLDOVER) ∧ Frame (fun k => blkKeys .trs k || evcKeys k) s (annTimeout p s) := by
  rw [show annTimeout p s = masterLost p ((s.put (.trs .xANN_DUE) 0 p).put (.trs .xANN_OK) 0 p) by rw [annTimeout, h]; rfl]
  have hf : Frame (fun k => k.fld == .trs .xANN_DUE || k.fld == .trs .xANN_OK) s
      ((s.put (.trs .xANN_DUE) 0 p).put (.trs .xANN_OK) 0 p) := (Frame.put _ _ _ _ _ _ rfl).trans (Frame.put _ _ _ _ _ _ rfl)
  obtain ⟨h1, h2, h3, h4⟩ := masterLost_after (p := p) hf (fun k hk => by
    simp only [Bool.or_eq_true, beq_iff_eq] at hk
    rcases hk with hk | hk <;> rw [blkKeys, hk] <;> rfl) (fun _ => rfl) rfl
  exact ⟨h1, h2.trans (by simp [Key.cut]), h3, h4⟩

/-- An output that is not stopped in the safe state is sent. -/
theorem mem_outs_commit {o : Out} (h : o ∈ t.outs) (ho : o.stopped = false) : o ∈ (s.commit t).outs := by
  unfold State.commit
  dsimp only
  split
  · exact List.mem_filter.mpr ⟨h, by simp [ho]⟩
  · exact h

theorem holdTimeout_waits (h : s.tbState ≠ tbHOLDOVER ∨ s.expired (.trs .xHOLD_DUE) = false) : holdTimeout s = s := by
  have e : (s.tbState == tbHOLDOVER && s.expired (.trs .xHOLD_DUE)) = false := by
    rcases h with h | h <;> simp [h]
  rw [holdTimeout, e]; rfl

/-- Settles O7: each message and timeout of the time base by the rule of its handler, over the state that a time-driven command
finds. -/
theorem timeInputs : Obligations.TimeInputs := by
  unfold Obligations.TimeInputs
  refine ⟨?_, ?_, fun b s hl => ?_⟩
  · intro p now s u hl hu
    rw [hu]
    refine ⟨fun a => ⟨fun h => ?_, fun h => ?_⟩, fun r => ⟨fun h => ?_, fun h => ?_⟩, fun h => ⟨fun hw => ?_, fun hw => ?_⟩, fun h => ?_,
      fun h => ?_, fun h => ?_, fun h => ?_, fun h => ?_⟩
    · obtain ⟨h1, h2, h3⟩ := announceMsg_taken h
      generalize hv : announceMsg p a (s.atNow now) = v at h1 h2 h3
      exact ⟨_, exec_at rfl hl hv, h1, h2, h3.atCommit⟩
    · exact exec_at_still rfl hl (if_neg (by simp [h]))
    · obtain ⟨h1, h2, h3⟩ := delayRespMsg_taken h
      generalize hv : delayRespMsg p r (s.atNow now) = v at h1 h2 h3
      exact ⟨_, exec_at rfl hl hv, h1, h2, h3.atCommit⟩
    · exact exec_at_still rfl hl (by rw [delayRespMsg, h]; rfl)
    · have hsafe : s.safe = false := (State.atNow_safe s now).symm.trans (open_of_mayAsk h)
      obtain ⟨h1, h2, h3, h4⟩ := delayReq_sends h hw
      generalize hv : delayReq p (s.atNow now) = v at h1 h2 h3 h4
      exact ⟨_, exec_at rfl hl hv, (outs_commit_of_open hsafe).trans h1, h2, h3, h4.atCommit⟩
    · have hsafe : s.safe = false := (State.atNow_safe s now).symm.trans (open_of_mayAsk h)
      obtain ⟨h1, h2, h3, h4⟩ := delayReq_queues h hw
      generalize hv : delayReq p (s.atNow now) = v at h1 h2 h3 h4
      exact ⟨_, exec_at rfl hl hv, (outs_commit_of_open hsafe).trans h1, h2, h3, h4.atCommit⟩
    · exact exec_at_still rfl hl (delayReq_of_not_mayAsk h)
    · obtain ⟨h1, h2, h3⟩ := syncTimeout_loses h
      generalize hv : syncTimeout p (s.atNow now) = v at h1 h2 h3
      exact ⟨_, exec_at rfl hl hv, h1, h2, h3.atCommit⟩
    · exact exec_at_still rfl hl (by rw [syncTimeout, h]; rfl)
    · obtain ⟨h1, h2, h3, h4⟩ := annTimeout_loses h
      generalize hv : annTimeout p (s.atNow now) = v at h1 h2 h3 h4
      exact ⟨_, exec_at rfl hl hv, h1, h2, h3, h4.atCommit⟩
    · exact exec_at_still rfl hl (by rw [annTimeout, h]; rfl)
  · intro now s u hl hu
    rw [hu]
    refine ⟨?_, fun sec h hf hs hn => ?_, fun h hd => ?_, fun h hd => ?_, fun h he => ?_, fun h => ?_, fun h h0 he => ?_, fun h => ?_⟩
    · obtain ⟨h1, h2, h3, h4⟩ := ppsIn_reads (s.atNow now)
      generalize hv : ppsIn (s.atNow now) = v at h1 h2 h3 h4
      exact ⟨_, exec_at rfl hl hv, h1, h2, h3, h4.atCommit⟩
    · obtain ⟨h1, h2, h3, h4⟩ := ppsOutEdge_rises h hf hs hn
      generalize hv : ppsOutEdge (s.atNow now) = v at h1 h2 h3 h4
      exact ⟨_, exec_at rfl hl hv, mem_outs_commit h1 rfl, h2, h3, h4.atCommit⟩
    · obtain ⟨h1, h2, h3⟩ := ppsOutEdge_falls h hd
      generalize hv : ppsOutEdge (s.atNow now) = v at h1 h2 h3
      exact ⟨_, exec_at rfl hl hv, mem_outs_commit h1 rfl, h2, h3.atCommit⟩
    · exact exec_at_still rfl hl (ppsOutEdge_stays h hd)
    · obtain ⟨h1, h2, h3⟩ := holdTimeout_unlocks h he
      generalize hv : holdTimeout (s.atNow now) = v at h1 h2 h3
      exact ⟨_, exec_at rfl hl hv, h1, h2, h3.atCommit⟩
    · exact exec_at_still rfl hl (holdTimeout_waits h)
    · obtain ⟨h1, h2, h3, h4, h5, h6, h7⟩ := firstLock_expires h h0 he
      generalize hv : firstLock (s.atNow now) = v at h1 h2 h3 h4 h5 h6 h7
      exact ⟨_, exec_at rfl hl hv, h1, h2, h3, h4, h5, h6, h7⟩
    · exact exec_at_still rfl hl (firstLock_waits h)
  · refine ⟨_, State.run_live s (fun s => s.putB (.trs .STATUS_REF10_OK) b) hl, ?_, Frame.ofQuiet (Frame.put s.quiet (.trs .STATUS_REF10_OK) _ 0 0 0 rfl)⟩
    cases b <;> simp [State.putB, Key.cut, Fld.width, Trs.width]

end Sys2Proof
end

section
/-!
PROOFS. Two more refutations by a register that holds more than its field: the count of poisoned descriptors, and the port that the
servo follows.
-/

namespace Sys2Proof

open Machine

-- The end of a descriptor

/-- A descriptor without a read-back runs on queue 0 of die 0, and the count of poisoned descriptors holds 2^64 in 64 bits. -/
def poisonedWide : State :=
  holding (((State.reset.put (.mid .STATUS_DIE_UP) 1).put (.dma .Q_STATUS_IDLE) 0).put (.dma .xSLOT) (2 ^ 64))
    ⟨.dma .CNT, 0, 2, 0⟩ (2 ^ 64) (by decide)

/-- The descriptor may end, with a status that poisons nothing. -/
theorem poisonedWide_ends : poisonedWide.live = true ∧ (poisonedWide.atNow ⟨0, 0⟩).safe = false ∧
    (poisonedWide.atNow ⟨0, 0⟩).dieUp 0 = true ∧ (poisonedWide.atNow ⟨0, 0⟩).qRuns 0 0 = true ∧
    (poisonedWide.atNow ⟨0, 0⟩).finWaits 0 0 = false ∧ backFails 0 0 ⟨false, false⟩ (poisonedWide.atNow ⟨0, 0⟩) = none ∧
    (poisonedWide.atNow ⟨0, 0⟩).get (.dma .xST) 0 0 < dsTIMEOUT ∧ (poisonedWide.atNow ⟨0, 0⟩).get (.dma .xST) 0 0 ≠ dsPOISONED ∧
    (poisonedWide.atNow ⟨0, 0⟩).get (.dma .CNT) 0 2 = 2 ^ 64 := by decide +kernel

/-- Its end leaves the count of poisoned descriptors as it is held. -/
theorem poisonedWide_left : (leaves (.descComplete 0 0 ⟨false, false⟩ ⟨0, 0⟩) poisonedWide).get (.dma .CNT) 0 2 = 2 ^ 64 := by
  decide +kernel

/-- Refutes O60: the statement takes every register store and gives the count of poisoned descriptors modulo 2^64. The end of a
descriptor that poisons nothing leaves a store's count of 2^64 as it is, where the statement asks for 0. -/
theorem not_descEnds : ¬ Obligations.DescEnds := by
  unfold Obligations.DescEnds
  rintro ⟨h, -⟩
  obtain ⟨hl, hs, hd, hr, hf, hb, hst, hp, hc⟩ := poisonedWide_ends
  obtain ⟨t, ht, -, -, -, -, hcount, -⟩ := (((h 0 0 ⟨0, 0⟩ poisonedWide _ hl rfl).1 ⟨false, false⟩).2 hs hd hr hf).2 hb hst
  have hleft := poisonedWide_left
  rw [leaves_of_next ht] at hleft
  simp only [Fin.val_zero, hc, if_neg hp] at hcount
  exact absurd (hleft.symm.trans hcount) (by decide)

-- The first measurement

/-- A free time base, a port 0 with a qualified Announce, and a Sync of number 0 that waits for its Follow_Up; the active port holds 5
in two bits, and the store has a master for that port as well, which the module has not. -/
def activeWide : State :=
  let s := [((.trs .PORT_CFG_PTP_EN : Fld), 1), (.trs .xANN_OK, 1), (.trs .xSYNC_PEND, 1)].foldl (fun s p => s.put p.1 p.2) State.reset
  holding (s.put (.trs .xMASTER) 1 5) ⟨.trs .STATUS_ACTIVE_PORT, 0, 0, 0⟩ 5 (by decide)

/-- A Follow_Up of that Sync, in the domain that the module listens to from reset on. -/
def followUp : PtpTiming := ⟨⟨.udp4, false, 0, 127⟩, false, 0, 0, 0⟩

/-- The Follow_Up meets all that the statement asks of a first measurement. -/
theorem activeWide_follows : activeWide.live = true ∧ (activeWide.atNow ⟨0, 0⟩).ptpOn 0 followUp.path = true ∧
    (activeWide.atNow ⟨0, 0⟩).flag (.trs .xSYNC_PEND) 0 = true ∧
    (activeWide.atNow ⟨0, 0⟩).get (.trs .xSYNC_SEQ) 0 = followUp.seqId % 65536 ∧ SoleMaster 0 (activeWide.atNow ⟨0, 0⟩) ∧
    (activeWide.atNow ⟨0, 0⟩).tbState = tbFREE := by unfold SoleMaster; decide +kernel

/-- The choice of the active port compares port 0 with the port 5 that the register names, keeps 5, and its field holds 1 of it: the
measurement of port 0 is not the active port's, and the time base stays free. -/
theorem activeWide_left : (leaves (.followUpReceived 0 followUp ⟨0, 0⟩) activeWide).tbState = tbFREE := by
  decide +kernel

/-- Refutes O6: the statement takes every register store, and its only port with a master is one among the module's four. Where the
store holds another number as the active port, with a master of its own, the first measurement of port 0 does not take the time base
out of FREE. -/
theorem not_syncMeasures : ¬ Obligations.SyncMeasures := by
  unfold Obligations.SyncMeasures
  rintro ⟨h, -⟩
  obtain ⟨hl, hp, hw, hq, hm, hf⟩ := activeWide_follows
  obtain ⟨t, ht, -, hst, -⟩ := ((h 0 followUp ⟨0, 0⟩ activeWide _ hl rfl).1 hp).2.2.2.1 hw hq hm hf
  have hleft := activeWide_left
  rw [leaves_of_next ht] at hleft
  exact absurd (hleft.symm.trans hst) (by decide)

end Sys2Proof
end

section
/-!
PROOFS. What the firing of a handover slot touches and what it leaves pending (R59, R61, R64).
-/

namespace Sys2Proof

open Machine

variable {B : Key → Bool} {s t u v w : State} {l : List Nat}

-- The banks that a slot switches

/-- The banks of a slot switch, and its waiting publications take effect (R61). -/
def fireBanks (n : Nat) (s : State) : State :=
  if n < 15 then firePublish n (fireBuckets n (sendDigests n (forEach (s.chansAt n) switchChan s))) else s

/-- The marks of a slot that has fired, before its event (R64). -/
def fireMarks (n : Nat) (s : State) : State :=
  ((s.put (.trs .HO_CTRL_ARM) 0 n).put (.trs .HO_CTRL_FIRED) 1 n).bump (.trs .HO_CTRL_FIRE_COUNT) n

theorem fireSlot_eq (n : Nat) (s : State) : fireSlot n s =
    evPulse (864 + n) ((fireMarks n (fireBanks n s)).get (.trs .HO_CTRL_FIRE_COUNT) n % 2 ^ 14) (fireMarks n (fireBanks n s)) := rfl

/-- What the buckets, the publications and their events may touch: nothing of a channel and nothing of the time base. -/
def flowKeys (k : Key) : Bool := evcKeys k || blkKeys .shp k || blkKeys .prs k

theorem flowKeys_of_evcKeys {k : Key} (h : evcKeys k = true) : flowKeys k = true := by simp [flowKeys, h]

theorem shpPut_frame (f : Shp) (x i j k : Nat) (s : State) : Frame (blkKeys .shp) s (s.put (.shp f) x i j k) := Frame.put _ _ _ _ _ _ rfl

theorem prsPut_flow (f : Prs) (x i j k : Nat) (s : State) : Frame flowKeys s (s.put (.prs f) x i j k) := Frame.put _ _ _ _ _ _ rfl

theorem evPulse_flow (n det : Nat) (s : State) : Frame flowKeys s (evPulse n det s) :=
  (evPulse_frame n det s).mono (fun _ => flowKeys_of_evcKeys)

/-- The banked fields of buckets and templates are the bridle's. -/
theorem bankFields_shp : (bktFields ++ tplFields).all (fun f => f.home == .shp) = true := by decide

theorem switchBucket_shp (d n : Nat) (s : State) : Frame (blkKeys .shp) s (switchBucket d n s) := by
  have bank : ∀ f ∈ bktFields ++ tplFields, ∀ v : State, Frame (blkKeys .shp) v (bankCopy f d n v) := fun f hf v =>
    bankCopy_frame f d n (by simp [blkKeys, eq_of_beq (List.all_eq_true.mp bankFields_shp f hf)]) v
  have tokens : ∀ (x : Int) (v : State), Frame (blkKeys .shp) v (setTokens d n x v) := fun x v =>
    (shpPut_frame _ _ _ _ _ _).trans (shpPut_frame _ _ _ _ _ _)
  unfold switchBucket
  dsimp only
  refine Frame.trans ?_ (Frame.when _ _ (fun _ => shpPut_frame _ _ _ _ _ _))
  refine Frame.trans ?_ (Frame.when _ _ (fun _ => ((tokens _ _).trans (shpPut_frame _ _ _ _ _ _)).trans (shpPut_frame _ _ _ _ _ _)))
  refine Frame.trans ?_ (Frame.when _ _ (fun _ =>
    (Frame.forEach _ _ (fun f hf v => bank f (List.mem_append_right _ hf) v) _).trans
      (Frame.forEach _ _ (fun _ _ v => shpPut_frame _ _ _ _ _ v) _)))
  exact (Frame.when _ _ (fun _ => tokens _ _)).trans (Frame.forEach _ _ (fun f hf v => bank f (List.mem_append_left _ hf) v) _)

theorem fireBuckets_shp (n : Nat) (s : State) : Frame (blkKeys .shp) s (fireBuckets n s) :=
  Frame.forEach _ _ (fun d _ v => Frame.when _ _ (fun _ => Frame.forEach _ _ (fun m _ w => switchBucket_shp d m w) v)) s

theorem fireBuckets_flow (n : Nat) (s : State) : Frame flowKeys s (fireBuckets n s) :=
  (fireBuckets_shp n s).mono (fun k hk => by simp [flowKeys, hk])

theorem sendDigests_still (n : Nat) (s : State) : Frame B s (sendDigests n s) := by
  refine Frame.forEach _ _ (fun g _ v => ?_) s
  split
  · exact Frame.when _ _ (fun _ => Frame.emit _ _)
  · exact Frame.refl _ _

theorem retireSlot_flow (d : Nat) (s : State) : Frame flowKeys s (retireSlot d s) :=
  Frame.ite ((prsPut_flow _ _ _ _ _ _).trans (evPulse_flow _ _ _)) (Frame.refl _ _)

theorem publishNow_flow (d : Nat) (s : State) : Frame flowKeys s (publishNow d s) := by
  unfold publishNow
  dsimp only
  refine Frame.trans ?_ (evPulse_flow _ _ _)
  refine Frame.trans ((prsPut_flow _ _ _ _ _ _).trans (prsPut_flow _ _ _ _ _ _)) (Frame.ite (prsPut_flow _ _ _ _ _ _) ?_)
  exact (((retireSlot_flow _ _).trans (prsPut_flow _ _ _ _ _ _)).trans (Frame.bump _ _ _ _ _ _ rfl)).trans (prsPut_flow _ _ _ _ _ _)

theorem firePublish_flow (n : Nat) (s : State) : Frame flowKeys s (firePublish n s) :=
  Frame.forEach _ _ (fun d _ v => Frame.when _ _ (fun _ => publishNow_flow d v)) s

theorem retireSlot_pends (d : Nat) (s : State) : StillPends s (retireSlot d s) := by
  unfold retireSlot
  split
  · exact ((SameRegs.put (fun k => k.fld == .prs .xOLD) s _ _ _ _ _ rfl).pends (fun _ => rfl)).trans (evPulse_pends _ _ _).1
  · exact StillPends.refl s

/-- A register of the rule sets that is written leaves what is pending. -/
theorem prsPut_pends (f : Prs) (x i j k : Nat) (s : State) : StillPends s (s.put (.prs f) x i j k) :=
  (SameRegs.put (blkKeys .prs) s _ _ _ _ _ rfl).pends (fun _ => rfl)

theorem publishNow_pends (d : Nat) (s : State) : StillPends s (publishNow d s) := by
  unfold publishNow
  dsimp only
  refine StillPends.trans ?_ (evPulse_pends _ _ _).1
  split
  · exact ((prsPut_pends _ _ _ _ _ _).trans (prsPut_pends _ _ _ _ _ _)).trans (prsPut_pends _ _ _ _ _ _)
  · exact (((((prsPut_pends _ _ _ _ _ _).trans (prsPut_pends _ _ _ _ _ _)).trans (retireSlot_pends d _)).trans
      (prsPut_pends _ _ _ _ _ _)).trans (prsPut_pends _ _ _ _ _ _)).trans (prsPut_pends _ _ _ _ _ _)

theorem firePublish_pends (n : Nat) (s : State) : StillPends s (firePublish n s) := by
  refine forEach_inv (StillPends s) _ _ (fun d _ v hv => hv.trans ?_) s (StillPends.refl s)
  rw [State.when_eq]
  split
  · exact publishNow_pends d v
  · exact StillPends.refl v

-- The channels of a slot

/-- The active banks of a list of channels. -/
def activeKeys (l : List Nat) (k : Key) : Bool := chanBankFields.contains k.fld && k.j == 0 && k.k == 1 && l.contains k.i

theorem switchChan_active {ch : Nat} (h : ch ∈ l) (s : State) : Frame (activeKeys l) s (switchChan ch s) :=
  Frame.forEach _ _ (fun f hf v => bankCopy_frame f ch 0 (by simp [activeKeys, hf, h]) v) s

theorem switchChans_active (l : List Nat) (s : State) : Frame (activeKeys l) s (forEach l switchChan s) :=
  Frame.forEach _ _ (fun _ h v => switchChan_active h v) s

/-- Copies into the active bank of a channel leave there what its shadow bank holds (R61). -/
theorem bankCopies_get {fs : List Fld} {ch : Nat} {f : Fld} (hf : f ∈ fs) (s : State) :
    (forEach fs (fun f s => bankCopy f ch 0 s) s).get f ch 0 1 = Key.cut ⟨f, ch, 0, 1⟩ (s.get f ch 0 0) := by
  induction fs generalizing s with
  | nil => exact absurd hf (List.not_mem_nil)
  | cons g fs ih =>
    rw [forEach_cons]
    have shadow : (bankCopy g ch 0 s).get f ch 0 0 = s.get f ch 0 0 :=
      State.get_put_ne _ _ _ _ _ _ _ _ _ _ (fun h => absurd h.2.2.2 (by decide))
    by_cases hm : f ∈ fs
    · rw [ih hm, shadow]
    · obtain rfl : f = g := (List.mem_cons.mp hf).resolve_right hm
      have rest : Frame (fun k => fs.contains k.fld) (bankCopy f ch 0 s) (forEach fs (fun f s => bankCopy f ch 0 s) (bankCopy f ch 0 s)) :=
        Frame.forEach _ _ (fun g hg v => bankCopy_frame g ch 0 (by simpa using hg) v) _
      rw [rest.regs.get (by simpa using hm)]
      exact State.get_put_same _ _ _ _ _ _

/-- Every channel of the list runs on with its shadow bank. -/
theorem switchChans_get {ch : Nat} {f : Fld} (hf : f ∈ chanBankFields) (hc : ch ∈ l) (s : State) :
    (forEach l switchChan s).get f ch 0 1 = Key.cut ⟨f, ch, 0, 1⟩ (s.get f ch 0 0) := by
  induction l generalizing s with
  | nil => exact absurd hc (List.not_mem_nil)
  | cons c l ih =>
    rw [forEach_cons]
    by_cases hm : ch ∈ l
    · rw [ih hm, (switchChan_active (List.mem_singleton_self c) s).regs.get (by simp [activeKeys])]
    · obtain rfl : ch = c := (List.mem_cons.mp hc).resolve_right hm
      rw [(switchChans_active l _).regs.get (by simp [activeKeys, hm])]
      exact bankCopies_get hf s

-- A slot that fires

/-- What the switch of a slot's banks may touch: the active banks of the channels that it has, the buckets and the publications. -/
def bankKeys (l : List Nat) (k : Key) : Bool := activeKeys l k || flowKeys k

theorem fireBanks_frame (n : Nat) (s : State) : Frame (bankKeys (s.chansAt n)) s (fireBanks n s) := by
  refine Frame.ite ?_ (Frame.refl _ s)
  exact ((switchChans_active _ s).mono (fun k hk => by simp [bankKeys, hk])).trans
    (((sendDigests_still n _).trans ((fireBuckets_flow n _).trans (firePublish_flow n _))).mono (fun k hk => by simp [bankKeys, hk]))

/-- The fields of channels are none of the time base's, of the events' or of the bridle's. -/
theorem chanBankFields_home : chanBankFields.all (fun f => f.home != .trs && f.home != .evc && f.home != .shp && f.home != .prs &&
    f != .hpt .PBA_WORD) = true := by decide

theorem activeKeys_off {k : Key} (h : (k.fld.home != .trs && k.fld.home != .evc && k.fld.home != .shp && k.fld.home != .prs &&
    k.fld != .hpt .PBA_WORD) = false) : activeKeys l k = false := by
  have hm : k.fld ∉ chanBankFields := fun hm => by
    have ha := List.all_eq_true.mp chanBankFields_home _ hm
    rw [h] at ha
    exact absurd ha (by decide)
  simp [activeKeys, hm]

theorem bankKeys_trs (f : Trs) (i j k : Nat) : bankKeys l ⟨.trs f, i, j, k⟩ = false := by
  rw [bankKeys, activeKeys_off rfl]; rfl

theorem fireBanks_pends (n : Nat) (s : State) : StillPends s (fireBanks n s) := by
  unfold fireBanks
  split
  · have hchan := (switchChans_active (s.chansAt n) s).regs.pends (fun _ => activeKeys_off rfl)
    have hdig := (sendDigests_still (B := fun _ => false) n (forEach (s.chansAt n) switchChan s)).regs.pends (fun _ => rfl)
    have hbkt := (fireBuckets_shp n (sendDigests n (forEach (s.chansAt n) switchChan s))).regs.pends (fun _ => rfl)
    exact ((hchan.trans hdig).trans hbkt).trans (firePublish_pends n _)
  · exact StillPends.refl s

end Sys2Proof
end

section
/-!
PROOFS. Handover slots: arming and disarming, every due handover once before a time-driven command, and REALIGN (R49, R59, R61, R63 to
R65).
-/

namespace Sys2Proof

open Machine

variable {B : Key → Bool} {s t u v w : State} {m n : HoSlot}

-- What raster positions depend on

/-- The registers of the time base on which the raster positions of R55 depend. -/
def rasterFlds : List Trs := [.STATUS_STATE, .DOM_FMT_ENABLE, .DOM_FMT_TOTAL_LINES, .DOM_FMT_ACTIVE_LINES, .DOM_RATE_FIRST_ACTIVE,
  .DOM_RATE_NUM, .DOM_RATE_NTSC]

/-- The rasters stand alike in two states. -/
def SameRaster (s t : State) : Prop := t.tb = s.tb ∧ ∀ f ∈ rasterFlds, ∀ i : Nat, t.get (.trs f) i = s.get (.trs f) i

theorem SameRegs.raster (h : SameRegs B s t) (htb : t.tb = s.tb) (hb : ∀ f ∈ rasterFlds, ∀ i : Nat, B ⟨.trs f, i, 0, 0⟩ = false) :
    SameRaster s t := ⟨htb, fun f hf i => h.get (hb f hf i)⟩

theorem SameRaster.flag (h : SameRaster s t) {f : Trs} (hf : f ∈ rasterFlds) (i : Nat) : t.flag (.trs f) i = s.flag (.trs f) i :=
  congrArg (· != 0) (h.2 f hf i)

theorem SameRaster.domDenOf (h : SameRaster s t) (d : Nat) : t.domDenOf d = s.domDenOf d := by
  simp only [State.domDenOf, h.flag (f := .DOM_RATE_NTSC) (by decide)]

theorem SameRaster.picTicks (h : SameRaster s t) (d : Nat) : t.picTicks d = s.picTicks d := by
  simp only [State.picTicks, State.domTotal, h.2 .DOM_FMT_TOTAL_LINES (by decide)]

theorem SameRaster.domNum (h : SameRaster s t) (d : Nat) : t.domNum d = s.domNum d := h.2 .DOM_RATE_NUM (by decide) d

theorem SameRaster.ticksNow (h : SameRaster s t) (d : Nat) : t.ticksNow d = s.ticksNow d := by
  simp only [State.ticksNow, State.ticksAt, State.tai, h.domDenOf, h.picTicks, h.domNum, h.1]

theorem SameRaster.domCfgOk (h : SameRaster s t) (d : Nat) : t.domCfgOk d = s.domCfgOk d := by
  rw [State.domCfgOk, State.domTotal, State.domFirst, State.domActive, h.domNum, h.flag (f := .DOM_RATE_NTSC) (by decide),
    h.2 .DOM_FMT_TOTAL_LINES (by decide), h.2 .DOM_FMT_ACTIVE_LINES (by decide), h.2 .DOM_RATE_FIRST_ACTIVE (by decide)]
  rfl

theorem SameRaster.rasterRuns (h : SameRaster s t) (d : Nat) : t.rasterRuns d = s.rasterRuns d := by
  rw [State.rasterRuns, State.domOn, State.tbState, h.domCfgOk, h.flag (f := .DOM_FMT_ENABLE) (by decide), h.2 .STATUS_STATE (by decide)]
  rfl

theorem SameRaster.picNow (h : SameRaster s t) (d : Nat) : t.picNow d = s.picNow d := by
  rw [State.picNow, h.picTicks, h.ticksNow, State.picNow]

theorem SameRaster.armLead (h : SameRaster s t) (d k : Nat) : t.armLead d k = s.armLead d k := by
  rw [State.armLead, State.timeOfTicks, h.domDenOf, h.picTicks, h.domNum, h.1, State.armLead, State.timeOfTicks]

/-- A slot with the same target has the same position before it. -/
theorem SameRaster.hoTarget (h : SameRaster s t) (hp : t.get (.trs .HO_TGT_HI_PICTURE) n = s.get (.trs .HO_TGT_HI_PICTURE) n)
    (hl : t.get (.trs .HO_TGT_LO_LINE) n = s.get (.trs .HO_TGT_LO_LINE) n)
    (ht : t.get (.trs .HO_TGT_LO_TICK) n = s.get (.trs .HO_TGT_LO_TICK) n) (d : Nat) : t.hoTarget n d = s.hoTarget n d := by
  rw [State.hoTarget, h.picNow, h.picTicks, hp, hl, ht, State.hoTarget]

/-- A slot with the same domain and position is reached alike. -/
theorem SameRaster.slotReached (h : SameRaster s t) (hd : t.get (.trs .HO_CTRL_DOMAIN) n = s.get (.trs .HO_CTRL_DOMAIN) n)
    (ha : t.get (.trs .xHO_AT) n = s.get (.trs .xHO_AT) n) : t.slotReached n = s.slotReached n := by
  simp only [State.slotReached, hd, ha, h.rasterRuns, h.ticksNow]

-- A slot that fires

/-- A slot's marks of its firing (R64). -/
def firedKeys (n : Nat) (k : Key) : Bool :=
  (k.fld == .trs .HO_CTRL_ARM || k.fld == .trs .HO_CTRL_FIRED || k.fld == .trs .HO_CTRL_FIRE_COUNT) && k.i == n

/-- What the firing of a slot may touch. -/
def fireKeys (n : Nat) (l : List Nat) (k : Key) : Bool := bankKeys l k || firedKeys n k

theorem fireMarks_frame (n : Nat) (s : State) : Frame (firedKeys n) s (fireMarks n s) :=
  ((Frame.put _ _ _ _ _ _ (by simp [firedKeys])).trans (Frame.put _ _ _ _ _ _ (by simp [firedKeys]))).trans
    (Frame.bump _ _ _ _ _ _ (by simp [firedKeys]))

theorem fireSlot_touches (n : Nat) (s : State) : Frame (fireKeys n (s.chansAt n)) s (fireSlot n s) := by
  rw [fireSlot_eq]
  exact (((fireBanks_frame n s).mono (fun k hk => by simp [fireKeys, hk])).trans
    ((fireMarks_frame n _).mono (fun k hk => by simp [fireKeys, hk]))).trans
    ((evPulse_frame _ _ _).mono (fun k hk => by simp [fireKeys, bankKeys, flowKeys, hk]))

theorem fireSlot_pends (n : HoSlot) (s : State) :
    StillPends s (fireSlot n s) ∧ (fireSlot n s).flag (.evc .SRC_CFG_PENDING) (864 + n) = true := by
  rw [fireSlot_eq]
  have hr : isReservedSrc (864 + n) = false := by
    have hn := n.isLt
    simp [isReservedSrc]
    omega
  have hev := evPulse_pends (864 + n) ((fireMarks n (fireBanks n s)).get (.trs .HO_CTRL_FIRE_COUNT) n % 2 ^ 14) (fireMarks n (fireBanks n s))
  exact ⟨((fireBanks_pends n s).trans ((fireMarks_frame n _).regs.pends (fun _ => rfl))).trans hev.1, hev.2 hr⟩

/-- A slot that fires has its marks, its count and its event (R64). -/
theorem fireSlot_fires (n : HoSlot) (s : State) : Fired n s (fireSlot n s) := by
  have hbank := (fireBanks_frame n s).regs.get (bankKeys_trs .HO_CTRL_FIRE_COUNT n 0 0)
  have hmarks : (fireMarks n (fireBanks n s)).flag (.trs .HO_CTRL_ARM) n = false ∧
      (fireMarks n (fireBanks n s)).flag (.trs .HO_CTRL_FIRED) n = true ∧
      (fireMarks n (fireBanks n s)).get (.trs .HO_CTRL_FIRE_COUNT) n = (s.get (.trs .HO_CTRL_FIRE_COUNT) n + 1) % 65536 := by
    rw [← hbank]
    simp [fireMarks, State.bump, State.flag_eq, Key.cut, Fld.width, Trs.width]
  obtain ⟨harm, hfired, hcount⟩ := hmarks
  have hev := (evPulse_frame (864 + n) ((fireMarks n (fireBanks n s)).get (.trs .HO_CTRL_FIRE_COUNT) n % 2 ^ 14)
    (fireMarks n (fireBanks n s))).regs
  have hpend := (fireSlot_pends n s).2
  rw [fireSlot_eq] at hpend ⊢
  exact ⟨(hev.flag rfl).trans harm, (hev.flag rfl).trans hfired, (hev.get rfl).trans hcount, hpend⟩

/-- The keys of a channel's banked fields. -/
theorem bankField_keys {f : Fld} (hf : f ∈ chanBankFields) (ch : Nat) {l : List Nat} (hl : ch ∉ l) :
    fireKeys n l ⟨f, ch, 0, 1⟩ = false ∧ tickKeys ⟨f, ch, 0, 0⟩ = false := by
  have hhome : chanBankFields.all (fun f => match f with
    | .cch _ | .qrc _ | .ref _ => true
    | _ => false) = true := by decide
  have hc := List.all_eq_true.mp hhome f hf
  have hact : activeKeys l ⟨f, ch, 0, 1⟩ = false := by simp [activeKeys, hl]
  cases f <;> simp_all [fireKeys, bankKeys, flowKeys, firedKeys, tickKeys, evcKeys, blkKeys, Fld.home]

/-- The channels attached to a slot. -/
theorem mem_chansAt {ch : Chan} : ch.val ∈ s.chansAt n ↔
    slotOf (s.get (.cch .CTRL_HO_SLOT) ch) = n ∧ s.dieUp (s.get (.cch .CTRL_HOME_DIE) ch) = true := by
  simp [State.chansAt]

/-- Where a slot fires, each channel attached to it has its shadow bank active (R61). -/
theorem fireSlot_switches {ch : Chan} (hn : n.val < 15) (hc : ch.val ∈ s.chansAt n) {f : Fld} (hf : f ∈ chanBankFields) :
    (fireSlot n s).get f ch 0 1 = Key.cut ⟨f, ch, 0, 1⟩ (s.get f ch 0 0) := by
  have hoff := (bankField_keys (n := n) hf ch (l := []) (List.not_mem_nil)).1
  simp only [fireKeys, bankKeys, Bool.or_eq_false_iff] at hoff
  obtain ⟨⟨-, hflow⟩, hfired⟩ := hoff
  have hbanks : fireBanks n s = firePublish n (fireBuckets n (sendDigests n (forEach (s.chansAt n) switchChan s))) := if_pos hn
  rw [fireSlot_eq]
  calc _ = (fireMarks n (fireBanks n s)).get f ch 0 1 := (evPulse_frame _ _ _).regs.get (by
          simp only [flowKeys, Bool.or_eq_false_iff] at hflow
          exact hflow.1.1)
    _ = (fireBanks n s).get f ch 0 1 := (fireMarks_frame n _).regs.get hfired
    _ = (forEach (s.chansAt n) switchChan s).get f ch 0 1 := by
          rw [hbanks]
          exact ((sendDigests_still n _).trans ((fireBuckets_flow n _).trans (firePublish_flow n _))).regs.get hflow
    _ = _ := switchChans_get hf hc s

-- What is due

/-- A slot is armed and its position reached. -/
def dueAt (s : State) (n : HoSlot) : Bool := s.flag (.trs .HO_CTRL_ARM) n && s.slotReached n

theorem fireKeys_trs {f : Trs} (hf : f ≠ .HO_CTRL_ARM ∧ f ≠ .HO_CTRL_FIRED ∧ f ≠ .HO_CTRL_FIRE_COUNT) (i : Nat) (l : List Nat) :
    fireKeys n l ⟨.trs f, i, 0, 0⟩ = false := by
  rw [fireKeys, bankKeys_trs]
  simp [firedKeys, hf]

theorem fireKeys_other {i : Nat} (h : i ≠ n) (f : Trs) (l : List Nat) : fireKeys n l ⟨.trs f, i, 0, 0⟩ = false := by
  rw [fireKeys, bankKeys_trs]
  simp [firedKeys, h]

/-- A slot that fires leaves every slot's position reached or not, as it was. -/
theorem fireSlot_slotReached (m n : HoSlot) (s : State) : (fireSlot n s).slotReached m = s.slotReached m := by
  have h := fireSlot_touches n s
  have hr : SameRaster s (fireSlot n s) := h.regs.raster h.clock.2 (fun f hf i => fireKeys_trs (by
    revert f
    decide) i _)
  exact hr.slotReached (h.regs.get (fireKeys_trs (by decide) _ _)) (h.regs.get (fireKeys_trs (by decide) _ _))

/-- A slot that fires is due no more, and of the others the same are. -/
theorem dueAt_fireSlot (m n : HoSlot) (s : State) : dueAt (fireSlot n s) m = (decide (m ≠ n) && dueAt s m) := by
  rw [dueAt, fireSlot_slotReached]
  by_cases h : m = n
  · obtain ⟨harm, -, -⟩ := fireSlot_fires n s
    rw [h, harm]
    simp
  · rw [(fireSlot_touches n s).regs.flag (fireKeys_other (fun e => h (Fin.ext e)) _ _)]
    simp [dueAt, h]

/-- A fold that keeps what it has or takes the next element. -/
theorem foldl_pick {f : Option Nat → Nat → Option Nat} (hf : ∀ b n, f b n = some n ∨ f b n = b ∧ b ≠ none) (l : List Nat) (b : Option Nat) :
    (l.foldl f b = none ↔ b = none ∧ l = []) ∧ ∀ m, l.foldl f b = some m → b = some m ∨ m ∈ l := by
  induction l generalizing b with
  | nil => simp
  | cons n l ih =>
    obtain ⟨hn, hm⟩ := ih (f b n)
    rw [List.foldl_cons]
    obtain h | ⟨h, hb⟩ := hf b n
    · rw [h] at hn hm ⊢
      exact ⟨by simp [hn], fun m e => by simpa [eq_comm] using Or.inr (hm m e)⟩
    · rw [h] at hn hm ⊢
      exact ⟨by simp [hn, hb], fun m e => (hm m e).imp_right (List.mem_cons_of_mem n)⟩

/-- The next handover is one that is due, and there is one where any is (R59). -/
theorem nextHandover_spec (s : State) : (s.nextHandover = none ↔ ∀ n : HoSlot, dueAt s n = false) ∧
    ∀ m, s.nextHandover = some m → ∃ n : HoSlot, m = n.val ∧ dueAt s n = true := by
  unfold State.nextHandover
  have hpick := foldl_pick (f := fun b n => match b with
      | none => some n
      | some m => if s.handoverNs n < s.handoverNs m then some n else some m)
    (fun b n => by
      cases b with
      | none => exact .inl rfl
      | some m =>
        dsimp only
        split
        · exact .inl rfl
        · exact .inr ⟨rfl, nofun⟩)
    ((List.range 16).filter (fun n => s.flag (.trs .HO_CTRL_ARM) n && s.slotReached n)) none
  refine ⟨hpick.1.trans ?_, fun m hm => ?_⟩
  · rw [List.filter_eq_nil_iff]
    refine ⟨fun ⟨_, h⟩ n => by simpa [dueAt] using h n (List.mem_range.mpr n.isLt), fun h => ⟨rfl, fun n hn => ?_⟩⟩
    simpa [dueAt] using h ⟨n, List.mem_range.mp hn⟩
  · obtain h | h := hpick.2 m hm
    · exact absurd h nofun
    · rw [List.mem_filter, List.mem_range] at h
      exact ⟨⟨m, h.1⟩, rfl, h.2⟩

/-- The next due handover takes effect. -/
def fireNext (s : State) : State :=
  match s.nextHandover with
  | some n => fireSlot n s
  | none => s

theorem fireDue_eq (s : State) : fireDue s = forEach (List.range 16) (fun _ => fireNext) s := rfl

theorem fireNext_cases (s : State) : (∀ n, dueAt s n = false) ∧ fireNext s = s ∨ ∃ n : HoSlot, dueAt s n = true ∧ fireNext s = fireSlot n s := by
  obtain ⟨hnone, hsome⟩ := nextHandover_spec s
  unfold fireNext
  cases h : s.nextHandover with
  | none => exact .inl ⟨hnone.mp h, rfl⟩
  | some m =>
    obtain ⟨n, rfl, hn⟩ := hsome m h
    exact .inr ⟨n, hn, rfl⟩

/-- The slots that are due. -/
def dueSlots (s : State) : Finset HoSlot := Finset.univ.filter (fun n => dueAt s n = true)

theorem dueSlots_fireNext (s : State) : (dueSlots (fireNext s)).card ≤ (dueSlots s).card - 1 := by
  obtain ⟨h, e⟩ | ⟨n, hn, e⟩ := fireNext_cases s
  · have hz : dueSlots s = ∅ := by simp [dueSlots, h]
    simp [e, hz]
  · have he : dueSlots (fireSlot n s) = (dueSlots s).erase n := by
      ext m
      simp [dueSlots, dueAt_fireSlot]
    rw [e, he, Finset.card_erase_of_mem (by simp [dueSlots, hn])]

theorem dueSlots_rounds (l : List Nat) (s : State) : (dueSlots (forEach l (fun _ => fireNext) s)).card ≤ (dueSlots s).card - l.length := by
  induction l generalizing s with
  | nil => exact Nat.le_refl _
  | cons x l ih =>
    rw [forEach_cons, List.length_cons]
    have h1 := ih (fireNext s)
    have h2 := dueSlots_fireNext s
    omega

/-- After the due handovers no slot is due (R59). -/
theorem fireDue_leaves_none (s : State) (n : HoSlot) : dueAt (fireDue s) n = false := by
  have h := dueSlots_rounds (List.range 16) s
  have hc : (dueSlots s).card ≤ 16 := (Finset.card_le_univ _).trans (by simp)
  have hz : dueSlots (fireDue s) = ∅ := Finset.card_eq_zero.mp (by
    rw [List.length_range] at h
    rw [fireDue_eq]
    omega)
  by_contra hn
  have hm : n ∈ dueSlots (fireDue s) := by simpa [dueSlots] using hn
  rw [hz] at hm
  exact absurd hm (Finset.notMem_empty n)

-- Every due handover takes effect once

/-- The channels attached to a slot have in `v` the shadow banks of `w` active. -/
def Switched (n : HoSlot) (w v : State) : Prop :=
  ∀ ch : Chan, n.val < 15 → slotOf (w.get (.cch .CTRL_HO_SLOT) ch) = n → w.dieUp (w.get (.cch .CTRL_HOME_DIE) ch) = true →
    ∀ f ∈ chanBankFields, v.get f ch 0 1 = Key.cut ⟨f, ch, 0, 1⟩ (w.get f ch 0 0)

/-- Some of the slots that are due in `w` have fired, each once, and the others stand as they were. -/
structure Advanced (w v : State) : Prop where
  frame : Frame tickKeys w v
  slots : ∀ m : HoSlot, v.flag (.trs .HO_CTRL_ARM) m = w.flag (.trs .HO_CTRL_ARM) m ∧
      v.get (.trs .HO_CTRL_FIRE_COUNT) m = w.get (.trs .HO_CTRL_FIRE_COUNT) m ∨
    dueAt w m = true ∧ Fired m w v ∧ Switched m w v

theorem Advanced.refl (w : State) : Advanced w w := ⟨Frame.refl _ w, fun _ => .inl ⟨rfl, rfl⟩⟩

/-- The move of the clock and the handovers leave the rasters and the positions of the slots. -/
theorem slotReached_of_tick (h : Frame tickKeys w v) (n : HoSlot) : v.slotReached n = w.slotReached n := by
  have hr : SameRaster w v := h.regs.raster h.clock.2 (fun f hf i => by
    revert f
    simp [rasterFlds]
    exact ⟨rfl, rfl, rfl, rfl, rfl, rfl, rfl⟩)
  exact hr.slotReached (h.regs.get rfl) (h.regs.get rfl)

theorem chansAt_of_tick (h : Frame tickKeys w v) {ch : Chan} : ch.val ∈ v.chansAt n ↔ ch.val ∈ w.chansAt n := by
  rw [mem_chansAt, mem_chansAt, h.regs.get rfl, h.regs.get rfl, State.dieUp, State.dieUp, h.regs.get rfl]

/-- A slot that has not fired yet and is due fires. -/
theorem Advanced.fire (h : Advanced w v) (hn : dueAt v n = true) : Advanced w (fireSlot n v) := by
  have htouch := fireSlot_touches n v
  refine ⟨h.frame.trans (fireSlot_frame n v), fun m => ?_⟩
  by_cases e : m = n
  · subst e
    simp only [dueAt, Bool.and_eq_true] at hn
    obtain ⟨harm, hreach⟩ := hn
    obtain ⟨ha, hc⟩ | ⟨-, ⟨hoff, -⟩, -⟩ := h.slots m
    · refine .inr ⟨?_, ?_, fun ch hlt hs hd f hf => ?_⟩
      · rw [dueAt, ← ha, harm, ← slotReached_of_tick h.frame, hreach]; rfl
      · obtain ⟨h1, h2, h3, h4⟩ := fireSlot_fires m v
        exact ⟨h1, h2, by rw [h3, hc], h4⟩
      · have hmem : ch.val ∈ v.chansAt m := (chansAt_of_tick h.frame).mpr (mem_chansAt.mpr ⟨hs, hd⟩)
        rw [fireSlot_switches hlt hmem hf, h.frame.regs.get (bankField_keys (n := m) hf ch (l := []) (List.not_mem_nil)).2]
    · rw [harm] at hoff
      exact absurd hoff nofun
  · have off : ∀ f : Trs, fireKeys n (v.chansAt n) ⟨.trs f, m, 0, 0⟩ = false := fun f => fireKeys_other (fun h => e (Fin.ext h)) f _
    refine (h.slots m).imp (fun ⟨ha, hc⟩ => ⟨(htouch.regs.flag (off _)).trans ha, (htouch.regs.get (off _)).trans hc⟩) ?_
    rintro ⟨hd, ⟨h1, h2, h3, h4⟩, hsw⟩
    refine ⟨hd, ⟨(htouch.regs.flag (off _)).trans h1, (htouch.regs.flag (off _)).trans h2, (htouch.regs.get (off _)).trans h3,
      (fireSlot_pends n v).1 _ h4⟩, fun ch hlt hs hdie f hf => ?_⟩
    have hnot : ch.val ∉ v.chansAt n := fun hmem => by
      have hat := (mem_chansAt.mp ((chansAt_of_tick h.frame).mp hmem)).1
      exact e (Fin.ext (hs.symm.trans hat))
    rw [htouch.regs.get (bankField_keys hf ch hnot).1]
    exact hsw ch hlt hs hdie f hf

/-- Before a time-driven command every slot that is due fires once (R59). -/
theorem fireDue_advances (w : State) : Advanced w (fireDue w) := by
  rw [fireDue_eq]
  refine forEach_inv (Advanced w) _ _ (fun _ _ v hv => ?_) w (Advanced.refl w)
  obtain ⟨-, e⟩ | ⟨n, hn, e⟩ := fireNext_cases v
  · rw [e]; exact hv
  · rw [e]; exact hv.fire hn

theorem fireDue_fires (h : dueAt w n = true) : Fired n w (fireDue w) ∧ Switched n w (fireDue w) := by
  obtain ⟨ha, -⟩ | ⟨-, hf⟩ := (fireDue_advances w).slots n
  · have hnone := fireDue_leaves_none w n
    rw [dueAt, ha, slotReached_of_tick (fireDue_frame w), ← dueAt, h] at hnone
    exact absurd hnone nofun
  · exact hf

theorem fireDue_spares (h : dueAt w n = false) :
    (fireDue w).get (.trs .HO_CTRL_FIRE_COUNT) n = w.get (.trs .HO_CTRL_FIRE_COUNT) n := by
  obtain ⟨-, hc⟩ | ⟨hd, -⟩ := (fireDue_advances w).slots n
  · exact hc
  · rw [h] at hd
    exact absurd hd nofun

-- A write of a slot's control register

/-- The bits that ARM and DISARM leave in the written word. -/
theorem withBits_arm (v : Nat) : bitOf (withBits v 8 1 1) 8 = true ∧ bitOf (withBits v 8 1 1) 9 = bitOf v 9 ∧ withBits v 8 1 1 % 8 = v % 8 := by
  rw [Bool.eq_iff_iff (a := bitOf (withBits v 8 1 1) 9)]
  simp only [bitOf, withBits, bitsOf, beq_iff_eq]
  omega

theorem withBits_disarm (v : Nat) : bitOf (withBits v 9 1 1) 9 = true ∧ withBits v 9 1 1 % 8 = v % 8 := by
  simp only [bitOf, withBits, bitsOf, beq_iff_eq]
  omega

/-- A write of 1 to FIRED or LATE clears it (R63, R64). -/
def ackMarks (n v : Nat) (s : State) : State :=
  (s.when (bitOf v 12) (fun s => s.put (.trs .HO_CTRL_FIRED) 0 n)).when (bitOf v 13) (fun s => s.put (.trs .HO_CTRL_LATE) 0 n)

/-- The marks of a slot that a write clears. -/
def markKeys (n : Nat) (k : Key) : Bool := (k.fld == .trs .HO_CTRL_FIRED || k.fld == .trs .HO_CTRL_LATE) && k.i == n

theorem ackMarks_frame (n v : Nat) (s : State) : Frame (markKeys n) s (ackMarks n v s) :=
  (Frame.when _ _ (fun _ => Frame.put _ _ _ _ _ _ (by simp [markKeys]))).trans
    (Frame.when _ _ (fun _ => Frame.put _ _ _ _ _ _ (by simp [markKeys])))

theorem slotKeys_of_markKeys {k : Key} (h : markKeys n k = true) : slotKeys n k = true := by
  simp only [markKeys, slotKeys, Bool.and_eq_true, Bool.or_eq_true, beq_iff_eq] at h ⊢
  obtain ⟨hf | hf, hi⟩ := h <;> simp [hf, hi, Fld.home]

theorem trsPut_slot (n : HoSlot) (f : Trs) (v : Nat) (s : State) : Frame (slotKeys n) s (s.put (.trs f) v n) :=
  Frame.put _ _ _ _ _ _ (by simp [slotKeys, Fld.home])

/-- Slot 15 ignores writes while an activation holds it (R65). -/
theorem hoCtrlWrite_held {v : Nat} (hn : n.val = 15) (hh : s.slot15Held = true) : hoCtrlWrite n v s = s := if_pos ⟨hn, hh⟩

/-- A write of a slot that is not held: its marks, then by whether it is armed. -/
theorem hoCtrlWrite_open {v : Nat} (h : n.val < 15 ∨ s.slot15Held = false) : hoCtrlWrite n v s =
    if (ackMarks n v s).flag (.trs .HO_CTRL_ARM) n then
      if (ackMarks n v s).slotReached n then fireSlot n (ackMarks n v s)
      else (ackMarks n v s).when (bitOf v 9) (fun s => s.put (.trs .HO_CTRL_ARM) 0 n)
    else ((ackMarks n v s).put (.trs .HO_CTRL_DOMAIN) (v % 8) n).when (bitOf v 8 && !bitOf v 9) (armSlot n) := by
  refine if_neg ?_
  rintro ⟨h15, hh⟩
  obtain hl | hl := h
  · omega
  · rw [hh] at hl; exact absurd hl nofun

/-- Neither the cleared marks nor the slot's domain move a raster or the slot's target. -/
theorem markKeys_raster : ∀ f ∈ rasterFlds, ∀ i : Nat, markKeys n ⟨.trs f, i, 0, 0⟩ = false := fun f hf i => by
  revert f
  simp [rasterFlds, markKeys]

theorem ackMarks_reads (n : HoSlot) (v : Nat) (s : State) :
    (ackMarks n v s).flag (.trs .HO_CTRL_ARM) n = s.flag (.trs .HO_CTRL_ARM) n ∧ (ackMarks n v s).slotReached n = s.slotReached n ∧
    (ackMarks n v s).get (.trs .HO_CTRL_DOMAIN) n = s.get (.trs .HO_CTRL_DOMAIN) n ∧
    (ackMarks n v s).get (.trs .HO_CTRL_FIRE_COUNT) n = s.get (.trs .HO_CTRL_FIRE_COUNT) n := by
  have h := ackMarks_frame n v s
  have hr : SameRaster s (ackMarks n v s) := h.regs.raster h.clock.2 markKeys_raster
  exact ⟨h.regs.flag rfl, hr.slotReached (h.regs.get rfl) (h.regs.get rfl), h.regs.get rfl, h.regs.get rfl⟩

/-- A write of a slot that is armed and reached: the handover wins (R64). -/
theorem hoCtrlWrite_reached {v : Nat} (h : n.val < 15 ∨ s.slot15Held = false) (ha : s.flag (.trs .HO_CTRL_ARM) n = true)
    (hr : s.slotReached n = true) : Fired n s (hoCtrlWrite n v s) ∧ SameBytes s (hoCtrlWrite n v s) := by
  obtain ⟨harm, hreach, -, hcount⟩ := ackMarks_reads n v s
  rw [hoCtrlWrite_open h, if_pos (harm.trans ha), if_pos (hreach.trans hr)]
  obtain ⟨h1, h2, h3, h4⟩ := fireSlot_fires n (ackMarks n v s)
  exact ⟨⟨h1, h2, by rw [h3, hcount], h4⟩, SameBytes.trans (ackMarks_frame n v s).bytes (fireSlot_touches n _).bytes⟩

/-- A write of a slot that is armed and not reached: DISARM clears ARM, and nothing else moves (R64). -/
theorem hoCtrlWrite_armed {v : Nat} (h : n.val < 15 ∨ s.slot15Held = false) (ha : s.flag (.trs .HO_CTRL_ARM) n = true)
    (hr : s.slotReached n = false) : (hoCtrlWrite n v s).flag (.trs .HO_CTRL_ARM) n = !bitOf v 9 ∧
    (hoCtrlWrite n v s).get (.trs .HO_CTRL_DOMAIN) n = s.get (.trs .HO_CTRL_DOMAIN) n ∧ Frame (slotKeys n) s (hoCtrlWrite n v s) := by
  obtain ⟨harm, hreach, hdom, -⟩ := ackMarks_reads n v s
  have hf := (ackMarks_frame n v s).mono (fun _ => slotKeys_of_markKeys)
  rw [hoCtrlWrite_open h, if_pos (harm.trans ha), if_neg (by rw [hreach, hr]; decide)]
  cases bitOf v 9
  · exact ⟨harm.trans ha, hdom, hf⟩
  · exact ⟨(flag_put_same _ _ _ _ _ _).trans rfl, (State.get_put_fld _ _ _ _ _ _ _ _ _ _ (by decide)).trans hdom,
      hf.trans (trsPut_slot n _ _ _)⟩

/-- A slot that is free takes the written domain (R63). -/
def takeDomain (n v : Nat) (s : State) : State := (ackMarks n v s).put (.trs .HO_CTRL_DOMAIN) (v % 8) n

theorem hoCtrlWrite_free {v : Nat} (h : n.val < 15 ∨ s.slot15Held = false) (ha : s.flag (.trs .HO_CTRL_ARM) n = false) :
    hoCtrlWrite n v s = (takeDomain n v s).when (bitOf v 8 && !bitOf v 9) (armSlot n) := by
  rw [hoCtrlWrite_open h, if_neg (by rw [(ackMarks_reads n v s).1, ha]; decide), takeDomain]

theorem takeDomain_reads (n : HoSlot) (v : Nat) (s : State) :
    (takeDomain n v s).get (.trs .HO_CTRL_DOMAIN) n = v % 8 ∧ (takeDomain n v s).flag (.trs .HO_CTRL_ARM) n = s.flag (.trs .HO_CTRL_ARM) n ∧
    (∀ d, (takeDomain n v s).rasterRuns d = s.rasterRuns d) ∧ (∀ d, (takeDomain n v s).hoTarget n d = s.hoTarget n d) ∧
    (∀ d k, (takeDomain n v s).armLead d k = s.armLead d k) ∧ Frame (slotKeys n) s (takeDomain n v s) := by
  have h : Frame (fun k => markKeys n k || k.fld == .trs .HO_CTRL_DOMAIN) s (takeDomain n v s) :=
    ((ackMarks_frame n v s).mono (fun k hk => by simp [hk])).trans (Frame.put _ _ _ _ _ _ (by simp))
  have hr : SameRaster s (takeDomain n v s) := h.regs.raster h.clock.2 (fun f hf i => by
    rw [markKeys_raster f hf i]
    revert f
    simp [rasterFlds])
  refine ⟨?_, h.regs.flag rfl, hr.rasterRuns, hr.hoTarget (h.regs.get rfl) (h.regs.get rfl) (h.regs.get rfl), hr.armLead, ?_⟩
  · rw [takeDomain, State.get_put_same, Key.cut_fit]
    exact Nat.mod_lt _ (by decide)
  · exact ((ackMarks_frame n v s).mono (fun _ => slotKeys_of_markKeys)).trans (trsPut_slot n _ _ _)

/-- A target far enough ahead arms the slot (R63). -/
theorem armSlot_arms {k d : Nat} (hd : s.get (.trs .HO_CTRL_DOMAIN) n = d) (hr : s.rasterRuns d = true) (ht : s.hoTarget n d = some k)
    (hl : s.armLead d k = true) : (armSlot n s).flag (.trs .HO_CTRL_ARM) n = true ∧ (armSlot n s).get (.trs .xHO_AT) n = k ∧
    (armSlot n s).get (.trs .HO_CTRL_DOMAIN) n = d ∧ Frame (slotKeys n) s (armSlot n s) := by
  have e : armSlot n s = (s.put (.trs .xHO_AT) k n).put (.trs .HO_CTRL_ARM) 1 n := by
    simp only [armSlot, hd, hr, ht, hl, if_true]
  rw [e]
  exact ⟨(flag_put_same _ _ _ _ _ _).trans rfl, by simp [Key.cut, Fld.width, Trs.width], by simp [hd],
    (trsPut_slot n _ _ _).trans (trsPut_slot n _ _ _)⟩

/-- A target in the past or less than 1 us ahead, or a domain without a position, sets LATE (R63). -/
theorem armSlot_late {d : Nat} (hd : s.get (.trs .HO_CTRL_DOMAIN) n = d) (ha : s.flag (.trs .HO_CTRL_ARM) n = false)
    (hl : s.rasterRuns d = false ∨ (s.hoTarget n d).all (fun k => !s.armLead d k) = true) :
    (armSlot n s).flag (.trs .HO_CTRL_ARM) n = false ∧ (armSlot n s).flag (.trs .HO_CTRL_LATE) n = true ∧
    (armSlot n s).get (.trs .HO_CTRL_DOMAIN) n = d ∧ Frame (slotKeys n) s (armSlot n s) := by
  have e : armSlot n s = s.put (.trs .HO_CTRL_LATE) 1 n := by
    unfold armSlot
    dsimp only
    rw [hd]
    cases hr : s.rasterRuns d with
    | false => rfl
    | true =>
      have ht := hl.resolve_left (by rw [hr]; decide)
      rw [if_pos rfl]
      cases hk : s.hoTarget n d with
      | none => rfl
      | some k =>
        rw [hk, Option.all_some, Bool.not_eq_true'] at ht
        exact if_neg (by rw [ht]; decide)
  rw [e]
  exact ⟨(flag_put_fld _ _ _ _ _ _ _ _ (by decide)).trans ha, (flag_put_same _ _ _ _ _ _).trans rfl, by simp [hd], trsPut_slot n _ _ _⟩

-- REALIGN

/-- The settings that a write of `TRS_CTRL` takes. -/
def ctrlSettings (v : Nat) (s : State) : State :=
  let s := (s.put (.trs .CTRL_HOLD_SRC) (bitsOf v 0 2)).put (.trs .CTRL_FREE_START) (bitsOf v 2 1)
  let s := (s.put (.trs .CTRL_SLEW_MAX) (bitsOf v 8 8)).put (.trs .CTRL_HOLD_TO) (bitsOf v 16 6)
  s.put (.trs .CTRL_FIRSTLOCK_TO) (bitsOf v 22 10)

/-- Those settings. -/
def ctrlKeys (k : Key) : Bool := k.fld == .trs .CTRL_HOLD_SRC || k.fld == .trs .CTRL_FREE_START || k.fld == .trs .CTRL_SLEW_MAX ||
  k.fld == .trs .CTRL_HOLD_TO || k.fld == .trs .CTRL_FIRSTLOCK_TO

theorem ctrlSettings_frame (v : Nat) (s : State) : Frame ctrlKeys s (ctrlSettings v s) :=
  ((((Frame.put _ _ _ _ _ _ rfl).trans (Frame.put _ _ _ _ _ _ rfl)).trans (Frame.put _ _ _ _ _ _ rfl)).trans
    (Frame.put _ _ _ _ _ _ rfl)).trans (Frame.put _ _ _ _ _ _ rfl)

theorem trs_of_ctrlKeys {k : Key} (h : ctrlKeys k = true) : blkKeys .trs k = true := by
  simp only [ctrlKeys, Bool.or_eq_true, beq_iff_eq] at h
  rcases h with (((h | h) | h) | h) | h <;> simp [blkKeys, h, Fld.home]

/-- Pacing depends on the bridle's registers alone. -/
theorem rasterPaced_of_regs (h : SameRegs B s t) (hb : ∀ i j k, B ⟨.shp .BKT_CFG_MODE, i, j, k⟩ = false) : t.rasterPaced = s.rasterPaced := by
  have key : ∀ k : Key, k.fld = .shp .BKT_CFG_MODE → t.store.get k = s.store.get k := by
    rintro ⟨f, i, j, k⟩ rfl
    exact h _ (hb i j k)
  rw [Bool.eq_iff_iff, State.rasterPaced, State.rasterPaced, List.any_eq_true, List.any_eq_true]
  refine exists_congr (fun k => ?_)
  rw [mem_keysOf, mem_keysOf]
  constructor
  · rintro ⟨⟨hf, hn⟩, hp⟩
    rw [key k hf] at hn hp
    exact ⟨⟨hf, hn⟩, hp⟩
  · rintro ⟨⟨hf, hn⟩, hp⟩
    rw [← key k hf] at hn hp
    exact ⟨⟨hf, hn⟩, hp⟩

/-- A realignment may take place (R49). -/
def mayRealign (s : State) : Bool := (s.tbState == tbLOCKING || s.tbState == tbLOCKED) &&
  !(List.range 48).any (fun ch => s.get (.cch .STATUS_STATE) ch == chRUNNING || s.get (.cch .STATUS_STATE) ch == chLEAVING) && !s.rasterPaced

theorem realignReq_eq (s : State) : realignReq s =
    if mayRealign s then fireDue (setOffset 0 { s with tb := s.masterTb }) else s.put (.trs .STATUS_REALIGN_BUSY) 1 := rfl

theorem mayRealign_iff : mayRealign s = true ↔ (s.tbState = tbLOCKING ∨ s.tbState = tbLOCKED) ∧
    (∀ ch < 48, s.get (.cch .STATUS_STATE) ch ≠ chRUNNING ∧ s.get (.cch .STATUS_STATE) ch ≠ chLEAVING) ∧ s.rasterPaced = false := by
  simp [mayRealign, and_assoc]

theorem mayRealign_ctrlSettings (v : Nat) (s : State) : mayRealign (ctrlSettings v s) = mayRealign s := by
  have h := (ctrlSettings_frame v s).regs
  have hch : ∀ ch, (ctrlSettings v s).get (.cch .STATUS_STATE) ch = s.get (.cch .STATUS_STATE) ch := fun ch => h.get rfl
  rw [mayRealign, rasterPaced_of_regs h (fun _ _ _ => rfl), h.tbState rfl]
  simp only [hch]
  rfl

theorem setOffset_zero (s : State) : (setOffset 0 s).get (.trs .OFFSET_OFFSET) = 0 ∧
    Frame (fun k => k.fld == .trs .OFFSET_OFFSET || k.fld == .trs .STATUS_OFFSET_LARGE) s (setOffset 0 s) := by
  have e : setOffset 0 s = (s.putInt (.trs .OFFSET_OFFSET) 0).putB (.trs .STATUS_OFFSET_LARGE) false := rfl
  rw [e]
  refine ⟨?_, (Frame.put _ _ _ _ _ _ rfl).trans (Frame.put _ _ _ _ _ _ rfl)⟩
  simp [State.putB, State.putInt, Key.cut, toSigned]

/-- The time base takes the master's time in one step, and TRS_OFFSET reads 0 (R49). -/
theorem trsCtrlWrite_realigns {v : Nat} (hv : bitOf v 3 = true) (h : mayRealign s = true) :
    (trsCtrlWrite v s).get (.trs .OFFSET_OFFSET) = 0 ∧ (trsCtrlWrite v s).tb = s.masterTb ∧
    SameRegs (fun k => blkKeys .trs k || evcKeys k || k.k == 1 || blkKeys .shp k || blkKeys .prs k) s (trsCtrlWrite v s) ∧
    SameBytes s (trsCtrlWrite v s) := by
  have e : trsCtrlWrite v s = realignReq (ctrlSettings v s) := by
    show (ctrlSettings v s).when (bitOf v 3) realignReq = _
    rw [hv]; rfl
  have hset := ctrlSettings_frame v s
  have hm : (ctrlSettings v s).masterTb = s.masterTb := by
    rw [State.masterTb, hset.regs.get rfl, hset.regs.get rfl, hset.clock.1, State.masterTb]
  rw [e, realignReq_eq, mayRealign_ctrlSettings, if_pos h, hm]
  generalize ctrlSettings v s = u at hset
  obtain ⟨hoff, hf⟩ := setOffset_zero { u with tb := s.masterTb }
  have hdue := fireDue_frame (setOffset 0 { u with tb := s.masterTb })
  refine ⟨(hdue.regs.get rfl).trans hoff, hdue.clock.2.trans hf.clock.2, ?_, ?_⟩
  · have h1 : SameRegs (fun k => k.fld == .trs .OFFSET_OFFSET || k.fld == .trs .STATUS_OFFSET_LARGE) u (setOffset 0 { u with tb := s.masterTb }) :=
      hf.regs
    refine ((hset.regs.mono (fun k hk => by simp [trs_of_ctrlKeys hk])).trans (h1.mono (fun k hk => ?_))).trans (hdue.regs.mono (fun k hk => ?_))
    · simp only [Bool.or_eq_true, beq_iff_eq] at hk
      rcases hk with hk | hk <;> simp [blkKeys, hk, Fld.home]
    · obtain ⟨f, i, j, k⟩ := k
      cases f <;> simp_all [tickKeys, blkKeys, Fld.home]
  · have hb : SameBytes u (setOffset 0 { u with tb := s.masterTb }) := hf.bytes
    exact SameBytes.trans (SameBytes.trans hset.bytes hb) hdue.bytes

/-- A realignment that may not take place is refused (R49). -/
theorem trsCtrlWrite_refuses {v : Nat} (hv : bitOf v 3 = true) (h : mayRealign s = false) :
    (trsCtrlWrite v s).flag (.trs .STATUS_REALIGN_BUSY) = true ∧ (trsCtrlWrite v s).tb = s.tb ∧ Frame (blkKeys .trs) s (trsCtrlWrite v s) := by
  have e : trsCtrlWrite v s = (ctrlSettings v s).put (.trs .STATUS_REALIGN_BUSY) 1 := by
    show (ctrlSettings v s).when (bitOf v 3) realignReq = _
    rw [hv, State.when_true, realignReq_eq, mayRealign_ctrlSettings, h]
    rfl
  have hset := ctrlSettings_frame v s
  rw [e]
  exact ⟨(flag_put_same _ _ _ _ _ _).trans rfl, hset.clock.2, (hset.mono (fun _ => trs_of_ctrlKeys)).trans (Frame.put _ _ _ _ _ _ rfl)⟩

-- The clauses

section
variable {p : Party} {v : Word} (hl : s.live = true) (hg : s.gateOf p .trs none = .pass)
include hl hg

/-- What ARM and DISARM leave, from what their write does to the state as found. -/
theorem exec_arm : exec (.arm p n v) s = .next (s.commit (hoCtrlWrite n (withBits v.toNat 8 1 1) s.quiet)) := exec_gated_pass rfl hl hg

theorem exec_disarm : exec (.disarm p n v) s = .next (s.commit (hoCtrlWrite n (withBits v.toNat 9 1 1) s.quiet)) := exec_gated_pass rfl hl hg

theorem exec_realign : exec (.realign p v) s = .next (s.commit (trsCtrlWrite (withBits v.toNat 3 1 1) s.quiet)) := exec_gated_pass rfl hl hg

/-- A slot that an activation holds ignores both (R65). -/
theorem slotHeld (hn : n.val = 15) (hh : s.slot15Held = true) :
    (∃ t, exec (.arm p n v) s = .next t ∧ Still s t) ∧ ∃ t, exec (.disarm p n v) s = .next t ∧ Still s t := by
  have held : ∀ x, hoCtrlWrite n x s.quiet = s.quiet := fun x => hoCtrlWrite_held hn hh
  exact ⟨⟨_, (exec_arm hl hg).trans (by rw [held]), Frame.ofQuiet (Frame.refl _ _)⟩,
    ⟨_, (exec_disarm hl hg).trans (by rw [held]), Frame.ofQuiet (Frame.refl _ _)⟩⟩

/-- ARM of a free slot with a target far enough ahead (R63). -/
theorem arming_arms (hopen : n.val < 15 ∨ s.slot15Held = false) (ha : s.flag (.trs .HO_CTRL_ARM) n = false) (h9 : bitOf v.toNat 9 = false) {k : Nat}
    (hr : s.rasterRuns (v.toNat % 8) = true) (ht : s.hoTarget n (v.toNat % 8) = some k) (hlead : s.armLead (v.toNat % 8) k = true) :
    ∃ t, exec (.arm p n v) s = .next t ∧ t.flag (.trs .HO_CTRL_ARM) n = true ∧ t.get (.trs .xHO_AT) n = k ∧
      t.get (.trs .HO_CTRL_DOMAIN) n = v.toNat % 8 ∧ Frame (slotKeys n) s t := by
  obtain ⟨hb8, hb9, hmod⟩ := withBits_arm v.toNat
  obtain ⟨hdom, -, hruns, htgt, hahead, hf⟩ := takeDomain_reads n (withBits v.toNat 8 1 1) s.quiet
  rw [hmod] at hdom
  obtain ⟨h1, h2, h3, h4⟩ := armSlot_arms hdom ((hruns _).trans hr) ((htgt _).trans ht) ((hahead _ _).trans hlead)
  have e : hoCtrlWrite n (withBits v.toNat 8 1 1) s.quiet = armSlot n (takeDomain n (withBits v.toNat 8 1 1) s.quiet) := by
    rw [hoCtrlWrite_free (s := s.quiet) hopen ha, hb8, hb9, h9]
    rfl
  have hx := exec_arm (n := n) (v := v) hl hg
  rw [e] at hx
  generalize takeDomain n (withBits v.toNat 8 1 1) s.quiet = u at hf h4 h1 h2 h3 hx
  generalize armSlot n u = t at h4 h1 h2 h3 hx
  exact ⟨_, hx, h1, h2, h3, Frame.ofQuiet (hf.trans h4)⟩

/-- ARM of a free slot with a target that is past or too near, or of a domain without a position (R63). -/
theorem arming_late (hopen : n.val < 15 ∨ s.slot15Held = false) (ha : s.flag (.trs .HO_CTRL_ARM) n = false) (h9 : bitOf v.toNat 9 = false)
    (hlate : s.rasterRuns (v.toNat % 8) = false ∨ (s.hoTarget n (v.toNat % 8)).all (fun k => !s.armLead (v.toNat % 8) k) = true) :
    ∃ t, exec (.arm p n v) s = .next t ∧ t.flag (.trs .HO_CTRL_ARM) n = false ∧ t.flag (.trs .HO_CTRL_LATE) n = true ∧
      t.get (.trs .HO_CTRL_DOMAIN) n = v.toNat % 8 ∧ Frame (slotKeys n) s t := by
  obtain ⟨hb8, hb9, hmod⟩ := withBits_arm v.toNat
  obtain ⟨hdom, harm, hruns, htgt, hahead, hf⟩ := takeDomain_reads n (withBits v.toNat 8 1 1) s.quiet
  rw [hmod] at hdom
  have hall : (takeDomain n (withBits v.toNat 8 1 1) s.quiet).rasterRuns (v.toNat % 8) = false ∨
      ((takeDomain n (withBits v.toNat 8 1 1) s.quiet).hoTarget n (v.toNat % 8)).all
        (fun k => !(takeDomain n (withBits v.toNat 8 1 1) s.quiet).armLead (v.toNat % 8) k) = true := by
    simp only [hruns, htgt, hahead]
    exact hlate
  obtain ⟨h1, h2, h3, h4⟩ := armSlot_late hdom (harm.trans ha) hall
  have e : hoCtrlWrite n (withBits v.toNat 8 1 1) s.quiet = armSlot n (takeDomain n (withBits v.toNat 8 1 1) s.quiet) := by
    rw [hoCtrlWrite_free (s := s.quiet) hopen ha, hb8, hb9, h9]
    rfl
  have hx := exec_arm (n := n) (v := v) hl hg
  rw [e] at hx
  clear hall hdom harm hruns htgt hahead e
  generalize takeDomain n (withBits v.toNat 8 1 1) s.quiet = u at hf h4 h1 h2 h3 hx
  generalize armSlot n u = t at h4 h1 h2 h3 hx
  exact ⟨_, hx, h1, h2, h3, Frame.ofQuiet (hf.trans h4)⟩

/-- DISARM of a free slot takes the domain alone (R64). -/
theorem disarm_free (hopen : n.val < 15 ∨ s.slot15Held = false) (ha : s.flag (.trs .HO_CTRL_ARM) n = false) :
    ∃ t, exec (.disarm p n v) s = .next t ∧ t.flag (.trs .HO_CTRL_ARM) n = false ∧ t.get (.trs .HO_CTRL_DOMAIN) n = v.toNat % 8 ∧
      Frame (slotKeys n) s t := by
  obtain ⟨hb9, hmod⟩ := withBits_disarm v.toNat
  obtain ⟨hdom, harm, -, -, -, hf⟩ := takeDomain_reads n (withBits v.toNat 9 1 1) s.quiet
  rw [hmod] at hdom
  have e : hoCtrlWrite n (withBits v.toNat 9 1 1) s.quiet = takeDomain n (withBits v.toNat 9 1 1) s.quiet := by
    rw [hoCtrlWrite_free (s := s.quiet) hopen ha, hb9, Bool.not_true, Bool.and_false, State.when_false]
  have hx := exec_disarm (n := n) (v := v) hl hg
  rw [e] at hx
  have hkeep := harm.trans ha
  clear harm e
  generalize takeDomain n (withBits v.toNat 9 1 1) s.quiet = t at hf hdom hkeep hx
  exact ⟨_, hx, hkeep, hdom, Frame.ofQuiet hf⟩

/-- DISARM and ARM of a slot that is armed and not reached (R64). -/
theorem armed_writes (hopen : n.val < 15 ∨ s.slot15Held = false) (ha : s.flag (.trs .HO_CTRL_ARM) n = true) (hr : s.slotReached n = false) :
    (∃ t, exec (.disarm p n v) s = .next t ∧ t.flag (.trs .HO_CTRL_ARM) n = false ∧
      t.get (.trs .HO_CTRL_DOMAIN) n = s.get (.trs .HO_CTRL_DOMAIN) n ∧ Frame (slotKeys n) s t) ∧
    (bitOf v.toNat 9 = false →
      ∃ t, exec (.arm p n v) s = .next t ∧ t.flag (.trs .HO_CTRL_ARM) n = true ∧
        t.get (.trs .HO_CTRL_DOMAIN) n = s.get (.trs .HO_CTRL_DOMAIN) n ∧ Frame (slotKeys n) s t) := by
  have write : ∀ x, (hoCtrlWrite n x s.quiet).flag (.trs .HO_CTRL_ARM) n = !bitOf x 9 ∧
      (hoCtrlWrite n x s.quiet).get (.trs .HO_CTRL_DOMAIN) n = s.get (.trs .HO_CTRL_DOMAIN) n ∧
      Frame (slotKeys n) s.quiet (hoCtrlWrite n x s.quiet) := fun x => hoCtrlWrite_armed hopen ha hr
  refine ⟨?_, fun h9 => ?_⟩
  · obtain ⟨h1, h2, h3⟩ := write (withBits v.toNat 9 1 1)
    have hx := exec_disarm (n := n) (v := v) hl hg
    rw [(withBits_disarm v.toNat).1] at h1
    generalize hoCtrlWrite n (withBits v.toNat 9 1 1) s.quiet = t at h1 h2 h3 hx
    exact ⟨_, hx, h1, h2, Frame.ofQuiet h3⟩
  · obtain ⟨h1, h2, h3⟩ := write (withBits v.toNat 8 1 1)
    have hx := exec_arm (n := n) (v := v) hl hg
    rw [(withBits_arm v.toNat).2.1, h9] at h1
    generalize hoCtrlWrite n (withBits v.toNat 8 1 1) s.quiet = t at h1 h2 h3 hx
    exact ⟨_, hx, h1, h2, Frame.ofQuiet h3⟩

/-- Both, of a slot that is armed and reached: the handover wins (R64). -/
theorem reached_writes (hopen : n.val < 15 ∨ s.slot15Held = false) (ha : s.flag (.trs .HO_CTRL_ARM) n = true) (hr : s.slotReached n = true) :
    (∃ t, exec (.disarm p n v) s = .next t ∧ Fired n s t ∧ SameBytes s t) ∧ ∃ t, exec (.arm p n v) s = .next t ∧ Fired n s t ∧ SameBytes s t := by
  have write : ∀ x, Fired n s.quiet (hoCtrlWrite n x s.quiet) ∧ SameBytes s.quiet (hoCtrlWrite n x s.quiet) := fun x =>
    hoCtrlWrite_reached hopen ha hr
  have disarm := exec_disarm (n := n) (v := v) hl hg
  have arm := exec_arm (n := n) (v := v) hl hg
  obtain ⟨hd1, hd2⟩ := write (withBits v.toNat 9 1 1)
  obtain ⟨ha1, ha2⟩ := write (withBits v.toNat 8 1 1)
  generalize hoCtrlWrite n (withBits v.toNat 9 1 1) s.quiet = t at hd1 hd2 disarm
  generalize hoCtrlWrite n (withBits v.toNat 8 1 1) s.quiet = u at ha1 ha2 arm
  exact ⟨⟨_, disarm, hd1, hd2⟩, ⟨_, arm, ha1, ha2⟩⟩

/-- REALIGN where a realignment may take place (R49). -/
theorem realign_steps (h : mayRealign s = true) :
    ∃ t, exec (.realign p v) s = .next t ∧ t.get (.trs .OFFSET_OFFSET) = 0 ∧ t.tb = s.masterTb ∧
      SameRegs (fun k => blkKeys .trs k || evcKeys k || k.k == 1 || blkKeys .shp k || blkKeys .prs k) s t ∧ SameBytes s t := by
  have hb : bitOf (withBits v.toNat 3 1 1) 3 = true := by rw [bitOf_withBits _ (by decide) (by decide)]; rfl
  obtain ⟨h1, h2, h3, h4⟩ := trsCtrlWrite_realigns (s := s.quiet) hb h
  have hx := exec_realign (v := v) hl hg
  generalize trsCtrlWrite (withBits v.toNat 3 1 1) s.quiet = t at h1 h2 h3 h4 hx
  exact ⟨_, hx, h1, h2, h3, h4⟩

/-- REALIGN where it may not (R49). -/
theorem realign_refused (h : mayRealign s = false) :
    ∃ t, exec (.realign p v) s = .next t ∧ t.flag (.trs .STATUS_REALIGN_BUSY) = true ∧ t.tb = s.tb ∧ Frame (blkKeys .trs) s t := by
  have hb : bitOf (withBits v.toNat 3 1 1) 3 = true := by rw [bitOf_withBits _ (by decide) (by decide)]; rfl
  obtain ⟨h1, h2, h3⟩ := trsCtrlWrite_refuses (s := s.quiet) hb h
  have hx := exec_realign (v := v) hl hg
  generalize trsCtrlWrite (withBits v.toNat 3 1 1) s.quiet = t at h1 h2 h3 hx
  exact ⟨_, hx, h1, h2, Frame.ofQuiet h3⟩

end

/-- HANDOVER_FIRE of a slot that is due fires it. -/
def fireIfDue (n : HoSlot) (s : State) : State := s.when (dueAt s n) (fireSlot n)

/-- A time-driven command finds the due handovers done, and HANDOVER_FIRE has nothing left to do (R59). -/
theorem handoverFire_leaves (n : HoSlot) (now : Now) (hl : s.live = true) :
    exec (.handoverFire n now) s = .next (s.commit (fireDue (s.quiet.clock now))) := by
  have hx : exec (.handoverFire n now) s = s.runAt now (fireIfDue n) := rfl
  have hn : fireIfDue n (fireDue (s.quiet.clock now)) = fireDue (s.quiet.clock now) := by
    rw [fireIfDue, fireDue_leaves_none, State.when_false]
  exact exec_at hx hl hn

/-- Settles O8: the writes of a slot's control register by whether the slot is held, free, armed or reached; every due slot fires once
before a time-driven command; and a realignment is the one step of the time base or its refusal. -/
theorem handoverSlots : Obligations.HandoverSlots := by
  unfold Obligations.HandoverSlots
  refine ⟨fun p n v s hl hg => ⟨slotHeld hl hg, fun hopen => ⟨fun ha h9 => ⟨?_, ?_⟩, ?_, ?_, ?_⟩⟩, ?_, fun p v s hl hg => ⟨?_, ?_⟩⟩
  · exact fun k hr ht hlead => arming_arms hl hg hopen ha h9 hr ht hlead
  · exact fun hlate => arming_late hl hg hopen ha h9 hlate
  · exact fun ha => disarm_free hl hg hopen ha
  · exact fun ha hr => armed_writes hl hg hopen ha hr
  · exact fun ha hr => reached_writes hl hg hopen ha hr
  · intro n now s w hl hw
    have hx := handoverFire_leaves n now hl
    have hat : s.atNow now = fireDue w := by rw [hw]; rfl
    have hbytes : SameBytes s w := by rw [hw]; simp [SameBytes]
    rw [← hw] at hx
    rw [hat]
    have hframe := fireDue_frame w
    refine ⟨fun ha hr => ?_, fun h => ?_, fun ha => ?_, fun h => ?_⟩
    · obtain ⟨hf, hs⟩ := fireDue_fires (w := w) (n := n) (by rw [dueAt, ha, hr]; rfl)
      generalize fireDue w = t at hf hs hframe hx
      exact ⟨_, hx, hf, SameBytes.trans hbytes hframe.bytes, hframe.clock.2, hs⟩
    · have hcount := fireDue_spares (w := w) (n := n) (by rcases h with h | h <;> simp [dueAt, h])
      have hstill : Still (fireDue w) (s.commit (fireDue w)) := hat ▸ (Frame.refl _ (s.atNow now)).atCommit
      generalize fireDue w = t at hcount hstill hx
      exact ⟨_, hx, hstill, hcount⟩
    · have hnone := fireDue_leaves_none w n
      rw [dueAt, ha, Bool.true_and] at hnone
      exact hnone
    · exact fireDue_none w ((nextHandover_spec w).1.mpr (fun m => by
        rw [dueAt]
        cases hm : w.flag (.trs .HO_CTRL_ARM) m with
        | false => rfl
        | true => rw [h m hm]; rfl))
  · exact fun hst hch hp => realign_steps hl hg (mayRealign_iff.mpr ⟨hst, hch, hp⟩)
  · intro h
    refine realign_refused hl hg (Bool.eq_false_iff.mpr (fun hm => ?_))
    obtain ⟨hst, hch, hp⟩ := mayRealign_iff.mp hm
    obtain ⟨h1, h2⟩ | ⟨ch, hlt, hc⟩ | hpaced := h
    · exact hst.elim h1 h2
    · obtain ⟨hrun, hleave⟩ := hch ch hlt
      exact hc.elim hrun hleave
    · rw [hp] at hpaced
      exact absurd hpaced nofun

end Sys2Proof
end

section
/-!
PROOFS. A die that a second device failure takes down while its memory trains: nothing of the start that follows clears the mark of a
die that is down (R311, R324, R426, R470).
-/

namespace Sys2Proof

open Machine

variable {B : Key → Bool} {dn : Bool} {s t u : State}

/-- No records are in force, and where `dn` says so die 0 is marked as down. -/
def DownBare (dn : Bool) (s : State) : Prop := (dn = true → s.dieOff 0 = true) ∧ s.image = []

namespace DownBare

theorem frame (h : DownBare dn s) (hf : Frame B s t) (hb : B ⟨.flt .STATUS_DIE_DOWN, 0, 0, 0⟩ = false) : DownBare dn t := by
  have himg : t.image = s.image := by
    have ht := hf.traffic
    unfold SameTraffic at ht
    simp [ht]
  exact ⟨by rw [State.dieOff, hf.regs.get hb]; exact h.1, himg.trans h.2⟩

theorem same (h : DownBare dn s) (hs : t.store = s.store) (hi : t.image = s.image) : DownBare dn t := by
  refine ⟨?_, hi.trans h.2⟩
  rw [State.dieOff, State.get, hs, ← State.get]
  exact h.1

@[simp] theorem put_iff {f : Fld} (hf : f ≠ .flt .STATUS_DIE_DOWN) (v i j k : Nat) : DownBare dn (s.put f v i j k) ↔ DownBare dn s := by
  rw [DownBare, State.dieOff, State.get_put_fld _ _ _ _ _ _ _ _ _ _ (Ne.symm hf)]
  rfl

@[simp] theorem bump_iff {f : Fld} (hf : f ≠ .flt .STATUS_DIE_DOWN) (i j k n : Nat) : DownBare dn (s.bump f i j k n) ↔ DownBare dn s :=
  put_iff hf _ _ _ _

@[simp] theorem bumpSat_iff {f : Fld} (hf : f ≠ .flt .STATUS_DIE_DOWN) (i j k n : Nat) :
    DownBare dn (s.bumpSat f i j k n) ↔ DownBare dn s := put_iff hf _ _ _ _

@[simp] theorem putBit_iff {f : Fld} (hf : f ≠ .flt .STATUS_DIE_DOWN) (b : Nat) (on : Bool) (i : Nat) :
    DownBare dn (s.putBit f b on i) ↔ DownBare dn s := put_iff hf _ _ _ _

@[simp] theorem emit_iff (o : Out) : DownBare dn (s.emit o) ↔ DownBare dn s := Iff.rfl

theorem when (h : DownBare dn s) {p : Bool} {f : State → State} (hf : DownBare dn (f s)) : DownBare dn (s.when p f) := by
  unfold State.when
  split
  · exact hf
  · exact h

theorem ite_intro {c : Prop} [Decidable c] (h : DownBare dn s) (g : DownBare dn t) : DownBare dn (if c then s else t) := by
  split
  · exact h
  · exact g

theorem each {α : Type} (h : DownBare dn s) {l : List α} {f : α → State → State} (hf : ∀ x v, DownBare dn v → DownBare dn (f x v)) :
    DownBare dn (forEach l f s) := forEach_inv (DownBare dn) l f (fun x _ v hv => hf x v hv) s h

theorem pulse (h : DownBare dn s) (n det : Nat) : DownBare dn (evPulse n det s) := h.frame (evPulse_frame n det s) rfl

theorem recorded (h : DownBare dn s) (o : Occ) (wire inj : Bool) : DownBare dn (record o wire inj s) := h.frame (record_recFrame o wire inj s) rfl

-- A die that goes down

theorem setDown (h : DownBare dn s) (d : Nat) : DownBare dn (s.putBit (.flt .STATUS_DIE_DOWN) d true) := by
  refine ⟨fun hdn => ?_, h.2⟩
  have h1 := h.1 hdn
  unfold State.dieOff at h1 ⊢
  rw [State.putBit, if_pos rfl, State.get_put_same]
  simp only [bitOf, beq_iff_eq, pow_zero, Nat.div_one] at h1
  have hcut : ∀ v : Nat, v % 2 = 1 → bitOf (Key.cut ⟨.flt .STATUS_DIE_DOWN, 0, 0, 0⟩ v) 0 = true := fun v hv => by
    simp only [bitOf, Key.cut, Fld.width, Flt.width, beq_iff_eq]
    norm_num
    omega
  cases d with
  | zero => rw [if_pos (by simp [bitOf, h1])]; exact hcut _ h1
  | succ d =>
    split
    · exact hcut _ h1
    · refine hcut _ ?_
      rw [pow_succ]
      omega

theorem cutWires (h : DownBare dn s) (l : List Nat) : DownBare dn (cutWires l s) :=
  h.each (fun _ _ hv => hv.when (by simpa using hv))

theorem packetsDieDown (h : DownBare dn s) (d : Nat) : DownBare dn (packetsDieDown d s) := by
  obtain ⟨hoff, himg⟩ := h
  unfold Machine.packetsDieDown
  refine ⟨?_, himg⟩
  rw [State.dieOff, State.bump, State.get_put_fld]
  · exact hoff
  · decide

theorem evcDieDown (h : DownBare dn s) (d : Nat) : DownBare dn (evcDieDown d s) := by
  have hclear : ∀ l : List Nat, DownBare dn (forEach l (fun n s => (s.put (.evc .SRC_CFG_PENDING) 0 n).put (.evc .SRC_CFG_ASSERTED) 0 n) s) :=
    fun l => h.each (fun _ _ hv => by simpa using hv)
  unfold Machine.evcDieDown
  dsimp only
  refine DownBare.frame (B := evcKeys) ?_ (settle_frame _) rfl
  refine DownBare.each ?_ (fun f _ hv => by simpa using hv)
  refine ⟨?_, ?_⟩
  · exact (hclear _).1
  · exact (hclear _).2

theorem freeStirrupsOf (h : DownBare dn s) (p : Nat) : DownBare dn (freeStirrupsOf p s) := by
  refine h.each (fun n v hv => hv.when (DownBare.recorded ?_ _ _ _))
  simpa [freeStirrup] using hv

theorem markResume (h : DownBare dn s) (ch : Nat) : DownBare dn (markResume ch s) := by
  unfold Machine.markResume
  dsimp only
  split
  · simpa using h
  · exact h

theorem keepKeys (h : DownBare dn s) {p : Key → Bool} (hp : p ⟨.flt .STATUS_DIE_DOWN, 0, 0, 0⟩ = true) : DownBare dn (s.keepKeys p) := by
  refine ⟨?_, h.2⟩
  rw [State.dieOff, State.get, State.keepKeys, Store.get_keep, hp, if_pos rfl, ← State.get]
  exact h.1

theorem fwuDieDown (h : DownBare dn s) (d : Nat) : DownBare dn (fwuDieDown d s) := by
  unfold Machine.fwuDieDown
  dsimp only
  split
  · refine DownBare.pulse ?_ _ _
    rw [put_iff (by simp)]
    exact DownBare.when (by simpa using h) (by simpa using h)
  · exact h.when (by simpa using h)

theorem winterAbandon (h : DownBare dn s) : DownBare dn (winterAbandon s) :=
  h.when (DownBare.each (by simpa using h) (fun _ _ hv => by simpa using hv))

theorem dieDown (h : DownBare dn s) (d : Nat) (held : Bool) : DownBare dn (dieDown d held s) := by
  have hgone := ((((h.cutWires ((List.range 8).map (· + 8 * d))).packetsDieDown d).evcDieDown d).freeStirrupsOf (2 + d))
  have hmarked := hgone.each (l := (Machine.freeStirrupsOf (2 + d) (Machine.evcDieDown d (Machine.packetsDieDown d
    (Machine.cutWires ((List.range 8).map (· + 8 * d)) s)))).chansOf d) (fun ch _ hv => hv.markResume ch)
  unfold Machine.dieDown
  dsimp only
  rw [putBit_iff (by simp)]
  refine DownBare.setDown ?_ d
  rw [putBit_iff (by simp)]
  exact ((DownBare.each (hmarked.keepKeys rfl) (fun _ _ hv => by simpa using hv)).fwuDieDown d).winterAbandon

-- An occurrence with its reaction

theorem restartOrHold (h : DownBare dn s) (d : Nat) : DownBare dn (restartOrHold d s) := by
  unfold Machine.restartOrHold
  split
  · exact h
  · split
    · exact h.dieDown d true
    · refine DownBare.dieDown ?_ d false
      rw [bump_iff (by simp)]
      exact h.same rfl rfl

theorem enterSafe (h : DownBare dn s) (code : Nat) : DownBare dn (enterSafe code s) := by
  unfold Machine.enterSafe
  split
  · exact h
  · have hlinks := (h.cutWires (List.range 16)).each (l := [0, 1, 2]) (f := fun l s => s.when (s.flag (.mid .TTH_REV_UP) l)
      (fun s => (s.put (.mid .TTH_REV_UP) 0 l).emit (.tetherLink l false))) (fun _ _ hv => hv.when (by simpa using hv))
    dsimp only
    generalize forEach [0, 1, 2] _ _ = u at hlinks
    have hlanes : DownBare dn (u.when (u.flag (.flt .CFG_SAFE_LINK_DOWN)) (·.emit .lanesOff)) := hlinks.when ((emit_iff _).mpr hlinks)
    generalize u.when _ _ = v at hlanes
    refine ⟨?_, hlanes.2⟩
    have hput : DownBare dn (((((v.put (.flt .STATUS_LAND_P) 0).put (.flt .STATUS_LAND_N) 1).emit (.faultLands false true)).put
        (.flt .STATUS_SAFE) 1).put (.flt .STATUS_GRAVE_CODE) code) := by simpa using hlanes
    exact hput.1

theorem raise (h : DownBare dn s) (code die loc det : Nat) : DownBare dn (raise code die loc det s) := by
  have hrec : ∀ l : List Occ, DownBare dn (forEach l (fun o s => record o false false s) s) := fun l =>
    h.each (fun o _ hv => hv.recorded o false false)
  unfold Machine.raise raiseAll
  dsimp only
  split
  · exact (hrec _).enterSafe _
  · refine ite_intro (hrec _) ((hrec _).each (fun d _ hv => hv.restartOrHold d))

-- Lines of memory

theorem groupLost (h : DownBare dn s) (g k : Nat) : DownBare dn (groupLost g k s) :=
  DownBare.raise (by simpa using h) _ _ _ _

theorem ostPost (h : DownBare dn s) (d c : Nat) : DownBare dn (ostPost d c s) := by
  have hshed : DownBare dn (s.when (s.ostSheds d c) (fun s => s.bump (.ost .CNT) d (5 + shedRank c))) := h.when (by simpa using h)
  unfold Machine.ostPost
  dsimp only
  exact ite_intro hshed (by simpa using hshed)

theorem declareFailed (h : DownBare dn s) (g k : Nat) (known : Bool) : DownBare dn (declareFailed g k known s) := by
  have hcount : DownBare dn (s.bump (.dmc .CNT) (g / 4) 11) := by simpa using h
  unfold Machine.declareFailed
  refine ite_intro h ?_
  dsimp only
  refine ite_intro (hcount.groupLost g k) (DownBare.raise (DownBare.when ?_ (DownBare.ostPost ?_ _ _)) _ _ _ _) <;> simpa using h

theorem slideErr (h : DownBare dn s) (g la k : Nat) : DownBare dn (slideErr g la k s) := by
  unfold Machine.slideErr
  dsimp only
  refine ite_intro (by simpa using h) (DownBare.when ?_ (DownBare.declareFailed ?_ _ _ _)) <;> simpa using h

theorem issued (h : DownBare dn s) (g la : Nat) (old : State) : DownBare dn (issued g la old s) :=
  h.each (fun _ _ hv => by simpa using hv)

theorem writeBack (h : DownBare dn s) (g la mask : Nat) (flips : List Flip) : DownBare dn (writeBack g la mask flips s) :=
  h.each (fun _ _ hv => ⟨hv.1, hv.2⟩)

theorem logPoison (h : DownBare dn s) (g la mask : Nat) : DownBare dn (logPoison g la mask s) := by
  unfold Machine.logPoison
  dsimp only
  rw [put_iff (by simp), put_iff (by simp)]
  exact ⟨h.1, h.2⟩

theorem unlogPoison (h : DownBare dn s) (g la : Nat) : DownBare dn (unlogPoison g la s) := ⟨h.1, h.2⟩

theorem poisonLine (h : DownBare dn s) (g la mask : Nat) : DownBare dn (poisonLine g la mask s) := by
  refine DownBare.raise ?_ _ _ _ _
  rw [bump_iff (by simp)]
  refine DownBare.logPoison ?_ _ _ _
  simpa using h

theorem takeLineSeq (h : DownBare dn s) (g la : Nat) : DownBare dn (takeLineSeq g la s) := by simpa [Machine.takeLineSeq] using h

theorem rebuildCheck (h : DownBare dn s) (g la : Nat) : DownBare dn (rebuildCheck g la s) := by
  have hlost : DownBare dn (s.when (s.linePoison g la != 0) (fun s => s.put (.dmc .POISON_LAST_LOG_LOST) 1 g)) := h.when (by simpa using h)
  refine DownBare.raise ?_ _ _ _ _
  rw [bump_iff (by simp), bump_iff (by simp)]
  refine DownBare.takeLineSeq (DownBare.unlogPoison ?_ _ _) _ _
  simpa using hlost

theorem readAct (h : DownBare dn s) (g la : Nat) (flips : List Flip) (f : ReadFate) : DownBare dn (readAct g la flips f s) := by
  cases f with
  | clean => exact h
  | corrected => exact DownBare.raise (by simpa using h) _ _ _ _
  | rebuilt => exact (h.writeBack _ _ _ _).rebuildCheck _ _
  | poisoned m => exact (h.writeBack _ _ _ _).poisonLine _ _ _

theorem lineCheck (h : DownBare dn s) (g la : Nat) (flips : List Flip) : DownBare dn (lineCheck g la flips s) :=
  ite_intro h (((h.readAct _ _ _ _).issued _ _ _).each (fun _ _ hv => hv.slideErr _ _ _))

theorem undoWriteBack (h : DownBare dn s) (g la : Nat) : DownBare dn (undoWriteBack g la s) := by
  unfold Machine.undoWriteBack
  dsimp only
  rw [bump_iff (by simp)]
  have hold : DownBare dn (forEach (List.range 4) (fun k t =>
      { t with dram := t.dram.write (dramAddr g (la * 256 + 64 * k)) (beBytes 64 (s.get (.dmc .xWB_SLICE) g la k)) })
      ((s.put (.dmc .xPOIS) (s.get (.dmc .xWB) g la - 1) g la).put (.dmc .xSIDE) (s.get (.dmc .xWB_SIDE) g la) g la)) :=
    DownBare.each (by simpa using h) (fun _ _ hv => ⟨hv.1, hv.2⟩)
  exact ite_intro (hold.unlogPoison _ _) ⟨hold.1, hold.2⟩

theorem meetWriteBack (h : DownBare dn s) (g la : Nat) : DownBare dn (meetWriteBack g la s) := by
  have hfree : DownBare dn s.free.2 := ⟨h.1, h.2⟩
  unfold Machine.meetWriteBack
  refine ite_intro h (DownBare.each ?_ (fun _ _ hv => by simpa using hv))
  rw [put_iff (by simp), put_iff (by simp)]
  exact hfree.when (hfree.undoWriteBack g la)

theorem staleRow (h : DownBare dn s) (g row : Nat) : DownBare dn (staleRow g row s) := by
  unfold Machine.staleRow
  split
  · exact h
  · refine h.each (fun i v hv => ?_)
    have hfree : DownBare dn v.free.2 := ⟨hv.1, hv.2⟩
    exact (put_iff (by simp) _ _ _ _).mpr hfree

theorem initRow (h : DownBare dn s) (g row : Nat) : DownBare dn (initRow g row s) := by
  have hrow := h.staleRow g row
  unfold Machine.initRow
  refine ite_intro h ?_
  dsimp only
  exact DownBare.when (by simpa using hrow) (by simpa using hrow)

theorem lineWriteWith (h : DownBare dn s) (flips : List Flip) (g la off : Nat) (bytes : List Byte) (tags : Nat) (side : Option Nat) :
    DownBare dn (lineWriteWith flips g la off bytes tags side s) := by
  unfold Machine.lineWriteWith
  refine ite_intro h ?_
  dsimp only
  have hmet := h.meetWriteBack g la
  generalize Machine.meetWriteBack g la s = a at hmet ⊢
  have hcount : DownBare dn (a.when (!(off == 0 && bytes.length == 256)) (·.bump (.dmc .CNT) (g / 4) 4)) := hmet.when (by simpa using hmet)
  generalize a.when _ (·.bump (.dmc .CNT) (g / 4) 4) = b at hcount ⊢
  have hread : DownBare dn (b.when (!(off == 0 && bytes.length == 256) && !!b.flag (.dmc .xINIT) g (la / 32)) (Machine.lineCheck g la flips)) :=
    hcount.when (hcount.lineCheck g la flips)
  generalize b.when _ (Machine.lineCheck g la flips) = c at hread ⊢
  have hseq : DownBare dn (if !b.flag (.dmc .xINIT) g (la / 32) then Machine.initRow g (la / 32) c else Machine.takeLineSeq g la c) :=
    ite_intro (hread.initRow _ _) (hread.takeLineSeq _ _)
  generalize (if !b.flag (.dmc .xINIT) g (la / 32) then Machine.initRow g (la / 32) c else Machine.takeLineSeq g la c) = e at hseq ⊢
  have hmarks : ∀ x y : Nat, DownBare dn ((e.put (.dmc .xPOIS) x g la).put (.dmc .xSIDE) y g la) := fun x y => by simpa using hseq
  refine DownBare.issued ?_ _ _ _
  have hlog : ∀ (x y m : Nat) (p q : Bool), DownBare dn (if p then Machine.logPoison g la m ((e.put (.dmc .xPOIS) x g la).put (.dmc .xSIDE) y g la)
      else ((e.put (.dmc .xPOIS) x g la).put (.dmc .xSIDE) y g la).when q (Machine.unlogPoison g la)) := fun x y m p q =>
    ite_intro ((hmarks x y).logPoison _ _ _) ((hmarks x y).when ((hmarks x y).unlogPoison _ _))
  exact ⟨(hlog _ _ _ _ _).1, (hlog _ _ _ _ _).2⟩

theorem dramWrite (h : DownBare dn s) (g n off : Nat) (bytes : List Byte) (tag : Nat → Bool) : DownBare dn (dramWrite g n off bytes tag s) := by
  induction n generalizing s off bytes with
  | zero => exact h
  | succ n ih =>
    cases bytes with
    | nil => exact h
    | cons b bytes => exact ih (h.lineWriteWith _ _ _ _ _ _ _) _ _

theorem dramStore (h : DownBare dn s) (g off : Nat) (bytes : List Byte) : DownBare dn (dramStore g off bytes s) := h.dramWrite _ _ _ _ _

-- Buffers

theorem grantBuf (h : DownBare dn s) (d g c o : Nat) : DownBare dn (grantBuf d g c o s).2 := by
  unfold Machine.grantBuf
  dsimp only
  rw [bump_iff (by simp)]
  have hb : ∀ bs : List Buf, DownBare dn { s.free.2 with bufs := bs } := fun _ => ⟨h.1, h.2⟩
  exact (hb _).when (by rw [put_iff (by simp)]; exact hb _)

theorem grantEach (h : DownBare dn s) (d g c : Nat) (l : List ClassReq) : DownBare dn (grantEach d g c l s).2 := by
  unfold Machine.grantEach
  refine List.foldlRecOn (motive := fun p : Grants × State => DownBare dn p.2) l _ h (fun p hp r _ => ?_)
  dsimp only
  split
  · exact hp.grantBuf _ _ _ _
  · exact hp

theorem servePool (h : DownBare dn s) (d g c : Nat) (l : List ClassReq) : DownBare dn (servePool d g c l s).2.2 := by
  unfold Machine.servePool
  dsimp only
  have hin := h.grantEach d g c (l.filter (fun r => s.insideRsv d g c r.owner))
  generalize Machine.grantEach d g c (l.filter (fun r => s.insideRsv d g c r.owner)) s = p at hin ⊢
  have hrest := hin.grantEach d g c (rrSort (p.2.get (.pdk .xRR) d (g % 4) c) (l.filter (fun r => !p.1.has r)))
  generalize Machine.grantEach d g c (rrSort (p.2.get (.pdk .xRR) d (g % 4) c) (l.filter (fun r => !p.1.has r))) p.2 = q at hrest ⊢
  split
  · exact hrest.when (by simpa using hrest)
  · exact hrest

theorem edgeClass (d g : Nat) (l : List ClassReq) {p : EdgeReqs × State} (h : DownBare dn p.2) (c : Nat) : DownBare dn (edgeClass d g l p c).2 := by
  unfold Machine.edgeClass
  dsimp only
  split
  · exact h
  · have hs := h.servePool d g c (p.1.here ++ l.filter (fun r => r.cls == c))
    simpa using hs

theorem groupEdge (d g : Nat) (l : List ClassReq) {p : EdgeReqs × State} (h : DownBare dn p.2) (cs : List Nat) :
    DownBare dn (cs.foldl (Machine.edgeClass d g l) p).2 := by
  induction cs generalizing p with
  | nil => exact h
  | cons c cs ih => exact ih (edgeClass d g l h c)

/-- One edge on the pools of the four groups of a die. -/
def edgeRound (d : Nat) (l : List ClassReq) (rs : List Nat) (p : EdgeReqs × State) : EdgeReqs × State :=
  rs.foldl (fun (p : EdgeReqs × State) r =>
    let mine := l.filter (fun q => p.2.homeGroup d q.owner == 4 * d + r)
    (List.range 8).foldl (Machine.edgeClass d (4 * d + r) mine) ({ p.1 with here := [] }, p.2)) p

theorem edgeRound_rest (d : Nat) (l : List ClassReq) (rs : List Nat) {p : EdgeReqs × State} (h : DownBare dn p.2) :
    DownBare dn (edgeRound d l rs p).2 := by
  induction rs generalizing p with
  | nil => exact h
  | cons r rs ih =>
    rw [edgeRound, List.foldl_cons, ← edgeRound]
    refine ih ?_
    generalize List.range 8 = cs
    exact groupEdge d (4 * d + r) _ (p := ({ p.1 with here := [] }, p.2)) h cs

theorem allocRounds (d n : Nat) {l : List ClassReq} {acc : List (Nat × Buf)} (h : DownBare dn s) : DownBare dn (allocRounds d n l acc s).2 := by
  induction n generalizing s l acc with
  | zero => exact h
  | succ n ih =>
    have hround := edgeRound_rest d l (List.range 4) (p := (⟨[], [], acc⟩, s)) h
    rw [edgeRound] at hround
    unfold Machine.allocRounds
    split
    next e t he =>
      rw [he] at hround
      exact ih hround

theorem allocEdge (h : DownBare dn s) (d : Nat) (l : List (Nat × Nat)) : DownBare dn (allocEdge d l s).2 := by
  unfold Machine.allocEdge
  dsimp only
  have hbad : DownBare dn (forEach (l.filter (fun r => decide (8 ≤ r.2))) (fun _ s => s.bump (.pdk .CNT) d 1) s) :=
    h.each (fun _ _ hv => by simpa using hv)
  generalize forEach (l.filter (fun r => decide (8 ≤ r.2))) (fun _ s => s.bump (.pdk .CNT) d 1) s = t at hbad ⊢
  generalize 8 = n
  exact allocRounds d n hbad

theorem allocOne (h : DownBare dn s) (d o c : Nat) : DownBare dn (allocOne d o c s).2 := by
  have he := h.allocEdge d [(o, c)]
  unfold Machine.allocOne
  generalize Machine.allocEdge d [(o, c)] s = p at he ⊢
  exact he

theorem keepBytes (h : DownBare dn s) (d o : Nat) (bytes : List Byte) : DownBare dn (keepBytes d o bytes s) := by
  have ha := h.allocOne d o (classFor bytes.length)
  unfold Machine.keepBytes
  split
  · next b v e => rw [e] at ha; exact ha.dramStore _ _ _
  · next v e => rw [e] at ha; exact ha

theorem storesKeep (h : DownBare dn s) (d j : Nat) (bytes : List Byte) : DownBare dn (storesKeep d j bytes s) := by
  have ha := h.allocOne d 58 (classFor 0x18000)
  unfold Machine.storesKeep
  split
  · next b v e =>
    rw [e] at ha
    refine DownBare.dramStore ?_ _ _ _
    rw [put_iff (by simp)]
    exact ha
  · next v e => rw [e] at ha; exact ha

-- The start of a die

theorem carveCheck (h : DownBare dn s) (d : Nat) : DownBare dn (carveCheck d s) := by
  refine h.each (fun r v hv => hv.when ?_)
  rw [put_iff (by simp), put_iff (by simp)]
  exact hv.each (fun _ _ hw => by simpa using hw)

theorem dramReady (h : DownBare dn s) (d : Nat) : DownBare dn (dramReady d s) := by
  unfold Machine.dramReady
  dsimp only
  refine DownBare.each (DownBare.each (by simpa using h) (fun _ _ hv => by simpa using hv)) (fun w v hv => ?_)
  exact ite_intro (by simpa using hv) (by simpa [rsvRefused] using hv)

theorem records_nil (h : DownBare dn s) : s.records = [] := by
  rw [State.records, h.2]
  decide

theorem parserDefaults (h : DownBare dn s) (d x : Nat) : DownBare dn (parserDefaults d x s) := by
  unfold Machine.parserDefaults
  refine ite_intro h (DownBare.each (DownBare.each h ?_) ?_)
  · exact fun _ _ hv => by simpa using hv
  · exact fun _ _ hv => by simpa using hv

theorem bucketErrs (h : DownBare dn s) (d : Nat) : DownBare dn (bucketErrs d s) := h.each (fun _ _ hv => by simpa using hv)

theorem dieStart (h : DownBare dn s) (d x : Nat) : DownBare dn (dieStart d x s) := by
  unfold Machine.dieStart
  dsimp only
  have hready := (put_iff (f := .pdk .STATUS_CELL_READY) (by simp) 1 d 0 0).mpr (h.carveCheck d)
  have hpool := hready.dramReady d
  generalize Machine.dramReady d _ = a at hpool ⊢
  have himg : DownBare dn (a.when (!a.image.isEmpty) (Machine.keepBytes d 63 a.image)) := hpool.when (hpool.keepBytes _ _ _)
  generalize a.when _ (Machine.keepBytes d 63 a.image) = b at himg ⊢
  have hown := himg.keepBytes d 58 (List.replicate 4096 0)
  generalize Machine.keepBytes d 58 (List.replicate 4096 0) b = c at hown ⊢
  have hstores := hown.storesKeep d 0 (c.stores.read (d * 2 ^ 20) 0x18000)
  generalize Machine.storesKeep d 0 _ c = e at hstores ⊢
  have hdefaults := (hstores.parserDefaults d x).bucketErrs d
  rw [hstores.records_nil, forEach_nil]
  refine DownBare.each ?_ (fun c v hv => by simpa using hv)
  simpa using hdefaults

-- The end of step 7

theorem bootWrite (h : DownBare dn s) (dir : Dir) (map : List RepairEntry) : DownBare dn (bootWrite dir map s) := by
  refine DownBare.each ?_ (fun _ _ hv => by simpa using hv)
  rw [put_iff (by simp)]
  exact ⟨h.1, h.2⟩

theorem stepSeven (h : DownBare dn s) : DownBare dn (stepSeven s) := by
  unfold Machine.stepSeven
  refine ite_intro ?_ h
  dsimp only
  exact DownBare.when (by simpa using h) (DownBare.pulse (DownBare.bootWrite (by simpa using h) _ _) _ _)

end DownBare

-- The training of a die whose group has already lost a device

/-- What training leaves where no group of die 0 is LOST: the die is marked as down, and each group stands in normal mode. -/
def DownTrained (s : State) : Prop := DownBare true s ∧ ∀ g < 4, s.get (.dmc .GRP_STATUS_MODE) g = 0

theorem DownTrained.frame (h : DownTrained s) (hf : Frame B s t) (hb : B ⟨.flt .STATUS_DIE_DOWN, 0, 0, 0⟩ = false)
    (hm : ∀ g, B ⟨.dmc .GRP_STATUS_MODE, g, 0, 0⟩ = false) : DownTrained t :=
  ⟨h.1.frame hf hb, fun g hg => (hf.regs.get (hm g)).trans (h.2 g hg)⟩

/-- All but the keys of the memory controllers. -/
def offDmc (k : Key) : Bool := k.fld.home != .dmc

theorem fwuDieDown_offDmc (d : Nat) (s : State) : Frame offDmc s (fwuDieDown d s) := by
  have pulse : ∀ (n det : Nat) (v : State), Frame offDmc v (evPulse n det v) := fun n det v =>
    (evPulse_frame n det v).mono (fun k hk => by
      obtain ⟨f, i, j, n⟩ := k
      cases f <;> simp_all [offDmc, evcKeys, Fld.home])
  have pwr : ∀ (f : Pwr) (x : Nat) (v : State), Frame offDmc v (v.put (.pwr f) x) := fun f x v => Frame.put v _ _ _ _ _ rfl
  have fwu : ∀ (f : Fwu) (x : Nat) (v : State), Frame offDmc v (v.put (.fwu f) x) := fun f x v => Frame.put v _ _ _ _ _ rfl
  have idle : Frame offDmc s (fwuIdle s) := by
    unfold fwuIdle
    exact (fwu .STATUS_STATE 0 s).trans (Frame.when _ _ (fun _ => (((pwr _ _ _).trans (pwr _ _ _)).trans (pwr _ _ _)).trans (pwr _ _ _)))
  have abandon : Frame offDmc s (abandonSession 8 s) := (idle.trans (fwu .STATUS_REASON 8 _)).trans (pulse 898 7 _)
  have trial : Frame offDmc s (trialFail s) := Frame.when _ _ (fun _ => ((fwu _ _ _).trans (fwu _ _ _)).trans (fwu _ _ _))
  exact Frame.ite abandon trial

theorem winterAbandon_offDmc (s : State) : Frame offDmc s (winterAbandon s) := by
  have pwr : ∀ (f : Pwr) (x : Nat) (v : State), Frame offDmc v (v.put (.pwr f) x) := fun f x v => Frame.put v _ _ _ _ _ rfl
  refine Frame.when _ _ (fun _ => Frame.trans ?_ (Frame.forEach _ _ (fun d _ v => Frame.put v _ _ _ _ _ rfl) _))
  exact ((((pwr _ _ _).trans (pwr _ _ _)).trans (pwr _ _ _)).trans (pwr _ _ _)).trans (pwr _ _ _)

/-- The groups of a die that goes down stand in normal mode, as everything of it that a restart clears (R470). -/
theorem dieDown_mode {g : Nat} (hg : g < 4) (held : Bool) (s : State) : (dieDown 0 held s).get (.dmc .GRP_STATUS_MODE) g = 0 := by
  have tail : ∀ v : State, Frame offDmc v ((((winterAbandon (fwuDieDown 0 (forEach (List.range 32) (fun q s =>
      s.put (.dma .Q_STATUS_RESTARTED) 1 0 q) v))).putBit (.flt .STATUS_DIE_HELD) 0 held).putBit (.flt .STATUS_DIE_DOWN) 0 true).putBit
      (.mid .STATUS_DIE_UP) 0 false) := fun v =>
    ((((((Frame.forEach _ _ (fun q _ w => Frame.put w _ _ _ _ _ rfl) v).trans (fwuDieDown_offDmc 0 _)).trans (winterAbandon_offDmc _)).trans
      (Frame.put _ _ _ _ _ _ rfl)).trans (Frame.put _ _ _ _ _ _ rfl)).trans (Frame.put _ _ _ _ _ _ rfl))
  have hkeep : ∀ homeOf, keepAtRestart 0 homeOf ⟨.dmc .GRP_STATUS_MODE, g, 0, 0⟩ = false := fun homeOf => by
    simp [keepAtRestart, Key.dieOf]
    omega
  unfold dieDown
  dsimp only
  rw [(tail _).regs.get rfl, State.get, State.keepKeys, Store.get_keep, hkeep]
  rfl

/-- A die that goes down is marked so. -/
theorem dieDown_marked (held : Bool) (h : s.image = []) : DownBare true (dieDown 0 held s) := by
  have himg : (dieDown 0 held s).image = [] := (DownBare.dieDown (dn := false) ⟨nofun, h⟩ 0 held).2
  refine ⟨fun _ => ?_, himg⟩
  unfold dieDown
  dsimp only
  rw [State.dieOff, State.putBit, State.get_put_fld _ _ _ _ _ _ _ _ _ _ (by simp), State.putBit, State.get_put_same, if_pos rfl]
  generalize State.get _ (.flt .STATUS_DIE_DOWN) = v
  split
  · next hv =>
    simp [bitOf, Key.cut, Fld.width, Flt.width] at hv ⊢
    omega
  · next hv =>
    simp [bitOf, Key.cut, Fld.width, Flt.width] at hv ⊢
    omega

theorem restartOrHold_downs (h : s.image = []) (hh : s.dieHeld 0 = false) : DownTrained (restartOrHold 0 s) := by
  have down : ∀ (held : Bool) (v : State), v.image = [] → DownTrained (dieDown 0 held v) := fun held v hv =>
    ⟨dieDown_marked held hv, fun g hg => dieDown_mode hg held v⟩
  unfold restartOrHold
  rw [if_neg (by rw [hh]; decide)]
  split
  · exact down true s h
  · exact down false _ h

/-- An Uncontained occurrence of die 0 outside the safe state is recorded, under its own code or as DIE_HELD, and the die restarts or
is held (R471, R474). -/
theorem raise_groupLost {k : Nat} (hs : s.safe = false) :
    raise 0x64 0 0 k s = restartOrHold 0 (record (asHeld s ⟨0x64, 0, 0, k⟩) false false s) := by
  have hc : faultClass 0x64 = some 3 := by decide
  have hd : restartDie ⟨0x64, 0, 0, k⟩ = some 0 := by simp [restartDie, hc, faultDie]
  have hsafe : (record (asHeld s ⟨0x64, 0, 0, k⟩) false false s).safe = false := (record_recFrame _ _ _ _).safe.trans hs
  simp [raise, raiseAll, occSort, occInsert, hc, hd, hs, hsafe]

/-- The second device failure of a group takes its die down (R311). -/
theorem groupLost_downs {k : Nat} (h : s.image = []) (hs : s.safe = false) (hh : s.dieHeld 0 = false) : DownTrained (groupLost 0 k s) := by
  have hbare : DownBare false ((s.put (.dmc .GRP_STATUS_MODE) 2).putBit (.dmc .STATUS_LOST) 0 true) := ⟨nofun, h⟩
  have hheld : ((s.put (.dmc .GRP_STATUS_MODE) 2).putBit (.dmc .STATUS_LOST) 0 true).dieHeld 0 = false := by
    rw [State.dieHeld, State.putBit, State.get_put_fld _ _ _ _ _ _ _ _ _ _ (by simp), State.get_put_fld _ _ _ _ _ _ _ _ _ _ (by simp)]
    exact hh
  show DownTrained (raise 0x64 0 0 k ((s.put (.dmc .GRP_STATUS_MODE) 2).putBit (.dmc .STATUS_LOST) 0 true))
  rw [raise_groupLost (s := (s.put (.dmc .GRP_STATUS_MODE) 2).putBit (.dmc .STATUS_LOST) 0 true) hs]
  generalize (s.put (.dmc .GRP_STATUS_MODE) 2).putBit (.dmc .STATUS_LOST) 0 true = v at hbare hheld
  have hf := record_recFrame (asHeld v ⟨0x64, 0, 0, k⟩) false false v
  refine restartOrHold_downs (hbare.recorded _ _ _).2 ?_
  rw [State.dieHeld, hf.regs.get rfl]
  exact hheld

-- The groups of a die as they train

/-- What the training of one group does (R323 to R325). -/
def trainRound (d : Nat) (failed erased : List (Nat × Nat)) (r : Nat) (s : State) : State :=
  let g := 4 * d + r
  let bad := (List.range 6).filter (fun k => failed.contains (r, k) || erased.contains (g, k))
  let s := ((s.put (.dmc .xREF_AT) (4 * s.osc) g).put (.dmc .xCATCH_TAI) s.tai g).put (.dmc .xSCRUB_TAI) s.tai g
  let s := s.when (failed.any (fun p => p.1 == r)) (fun s => s.put (.dmc .STATUS_TRAIN_FAIL) 1 d)
  match bad with
  | [] => s.putBit (.dmc .STATUS_TRAINED) r true d
  | [k] => declareFailed g k (erased.contains (g, k)) s
  | k :: _ =>
    let s := (s.put (.dmc .GRP_STATUS_MODE) 2 g).put (.dmc .GRP_STATUS_ERASED_DEV) k g
    (s.putBit (.dmc .STATUS_LOST) r true d).bump (.dmc .CNT) d 11 0 bad.length

/-- The memory of a die as its training begins: nothing of it is initialised. -/
def trainClear (d : Nat) (s : State) : State :=
  let s := s.keepKeys (fun k => match k.fld with
    | .dmc .xINIT | .dmc .xINIT_N | .dmc .xROW_SEQ | .dmc .xRT_OLD | .dmc .xWB | .dmc .xWB_SIDE | .dmc .xWB_SLICE | .dmc .xSTALE | .dmc .xPOIS
    | .dmc .xSEQ | .dmc .xSIDE | .dmc .xPERR | .dmc .GRP_STATUS_INIT_DONE => k.i / 4 != d
    | _ => true)
  { s with dram := s.dram.keep (fun a => a / 2 ^ 32 / 4 != d), plog := s.plog.filter (fun p => p.grp / 4 != d) }

theorem trainGroups_eq (d : Nat) (failed erased : List (Nat × Nat)) (s : State) : trainGroups d failed erased s =
    (forEach (List.range 4) (trainRound d failed erased) (trainClear d s)).put (.dmc .STATUS_READY) 1 d := rfl

/-- The times and the marks that the training of a group sets. -/
def timeKeys (k : Key) : Bool := k.fld == .dmc .xREF_AT || k.fld == .dmc .xCATCH_TAI || k.fld == .dmc .xSCRUB_TAI ||
  k.fld == .dmc .STATUS_TRAIN_FAIL || k.fld == .dmc .STATUS_TRAINED

/-- A group without a failed device trains. -/
theorem trainRound_trains {r : Nat} (hr : r = 1 ∨ r = 2 ∨ r = 3) (s : State) : Frame timeKeys s (trainRound 0 [(0, 2)] [] r s) := by
  have put : ∀ (f : Dmc) (x i : Nat) (v : State), timeKeys ⟨.dmc f, i, 0, 0⟩ = true → Frame timeKeys v (v.put (.dmc f) x i) :=
    fun f x i v h => Frame.put v _ _ _ _ _ h
  have hbad : (List.range 6).filter (fun k => [((0 : Nat), (2 : Nat))].contains (r, k) || ([] : List (Nat × Nat)).contains (4 * 0 + r, k)) = [] := by
    obtain rfl | rfl | rfl := hr <;> decide
  unfold trainRound
  dsimp only
  rw [hbad]
  exact ((((put _ _ _ _ rfl).trans (put _ _ _ _ rfl)).trans (put _ _ _ _ rfl)).trans (Frame.when _ _ (fun _ => put _ _ _ _ rfl))).trans
    (put .STATUS_TRAINED _ _ _ rfl)

/-- A second device of group 0 that is declared failed makes the group LOST and takes the die down (R309, R311). -/
theorem declareFailed_downs {known : Bool} (himg : s.image = []) (hs : s.safe = false) (hh : s.dieHeld 0 = false)
    (hm : s.get (.dmc .GRP_STATUS_MODE) = 1) (he : s.get (.dmc .GRP_STATUS_ERASED_DEV) = 3) : DownTrained (declareFailed 0 2 known s) := by
  have hlost : s.grpLost 0 = false := by rw [State.grpLost, State.grpMode, hm]; rfl
  have hf : Frame (fun k => k.fld == .dmc .CNT) s (s.bump (.dmc .CNT) 0 11) := Frame.bump _ _ _ _ _ _ rfl
  have hbare : DownBare false (s.bump (.dmc .CNT) 0 11) := ⟨nofun, himg⟩
  unfold declareFailed
  rw [if_neg (by rw [hlost]; decide)]
  dsimp only
  rw [if_pos ⟨(hf.regs.get rfl).trans hm, by rw [State.erasedDev, hf.regs.get rfl, he]; decide⟩]
  refine groupLost_downs hbare.2 hs ?_
  rw [State.dieHeld, hf.regs.get rfl]
  exact hh

/-- Group 0, in erasure mode for another device, loses its second one as it trains. -/
theorem trainRound_downs (himg : s.image = []) (hs : s.safe = false) (hh : s.dieHeld 0 = false) (hm : s.get (.dmc .GRP_STATUS_MODE) = 1)
    (he : s.get (.dmc .GRP_STATUS_ERASED_DEV) = 3) : DownTrained (trainRound 0 [(0, 2)] [] 0 s) := by
  have hbad : (List.range 6).filter (fun k => [((0 : Nat), (2 : Nat))].contains (0, k) || ([] : List (Nat × Nat)).contains (4 * 0 + 0, k)) = [2] := by
    decide
  have put : ∀ (f : Dmc) (x i : Nat) (v : State), timeKeys ⟨.dmc f, i, 0, 0⟩ = true → Frame timeKeys v (v.put (.dmc f) x i) :=
    fun f x i v h => Frame.put v _ _ _ _ _ h
  have hf := (((put .xREF_AT (4 * s.osc) 0 s rfl).trans (put .xCATCH_TAI s.tai 0 _ rfl)).trans (put .xSCRUB_TAI s.tai 0 _ rfl)).trans
    (put .STATUS_TRAIN_FAIL 1 0 _ rfl)
  unfold trainRound
  dsimp only
  rw [hbad]
  refine declareFailed_downs himg hs ?_ ((hf.regs.get rfl).trans hm) ((hf.regs.get rfl).trans he)
  rw [State.dieHeld]
  exact (congrArg (bitOf · 0) (hf.regs.get rfl)).trans hh

/-- Training leaves the die down, and none of its groups LOST. -/
theorem trainGroups_downs (himg : s.image = []) (hs : s.safe = false) (hh : s.dieHeld 0 = false) (hm : s.get (.dmc .GRP_STATUS_MODE) = 1)
    (he : s.get (.dmc .GRP_STATUS_ERASED_DEV) = 3) :
    DownBare true (trainGroups 0 [(0, 2)] [] s) ∧ (trainGroups 0 [(0, 2)] [] s).lostGroups 0 = [] := by
  have hkeep : ∀ f : Fld, (f = .dmc .GRP_STATUS_MODE ∨ f = .dmc .GRP_STATUS_ERASED_DEV ∨ f = .flt .STATUS_DIE_HELD) →
      (trainClear 0 s).get f = s.get f := by
    rintro f (rfl | rfl | rfl) <;> exact (Store.get_keep _ _ _).trans (if_pos rfl)
  have hclear := trainRound_downs (s := trainClear 0 s) himg hs (by rw [State.dieHeld, hkeep _ (by simp)]; exact hh)
    ((hkeep _ (by simp)).trans hm) ((hkeep _ (by simp)).trans he)
  have round : ∀ (r : Nat) (v : State), r = 1 ∨ r = 2 ∨ r = 3 → DownTrained v → DownTrained (trainRound 0 [(0, 2)] [] r v) := fun r v hr hv =>
    hv.frame (trainRound_trains hr v) rfl (fun _ => rfl)
  have hall : DownTrained (trainGroups 0 [(0, 2)] [] s) := by
    rw [trainGroups_eq]
    exact (round 3 _ (by simp) (round 2 _ (by simp) (round 1 _ (by simp) hclear))).frame
      (Frame.put (B := fun k => k.fld == .dmc .STATUS_READY) _ _ _ _ _ _ rfl) rfl (fun _ => rfl)
  obtain ⟨hbare, hmode⟩ := hall
  refine ⟨hbare, List.filter_eq_nil_iff.mpr (fun g hg => ?_)⟩
  rw [List.mem_map] at hg
  obtain ⟨r, hr, rfl⟩ := hg
  rw [State.grpLost, State.grpMode, hmode _ (by simpa using hr)]
  decide

/-- Training that takes die 0 down without a LOST group goes on with the start of the die, and leaves it marked as down. -/
theorem dramTrained_downs (hs : s.safe = false) (hb : s.get (.mid .BOOT_STEP) = 6) (hu : s.dieUp 0 = false) (ho : s.dieOff 0 = false)
    (hmap : s.mapErased = []) (htrained : DownBare true (trainGroups 0 [(0, 2)] [] s) ∧ (trainGroups 0 [(0, 2)] [] s).lostGroups 0 = []) :
    DownBare true (dramTrained 0 [(0, 2)] s) := by
  obtain ⟨hd, hl⟩ := htrained
  unfold dramTrained
  rw [if_neg (by simp [hs, hb, hu, ho])]
  dsimp only
  rw [hmap, hl]
  exact DownBare.stepSeven ((DownBare.putBit_iff (by simp) _ _ _).mpr (hd.dieStart 0 _))

/-- Start-up stands in step 6, and group 0 of die 0 has been put in erasure mode for its device 3 before its training ends. -/
def erasedEarly : State :=
  ((State.reset.put (.mid .BOOT_STEP) 6).put (.dmc .GRP_STATUS_MODE) 1).put (.dmc .GRP_STATUS_ERASED_DEV) 3

/-- That state meets all that the statement asks of a training that ends at start-up. -/
theorem erasedEarly_trains : erasedEarly.live = true ∧ erasedEarly.safe = false ∧ (erasedEarly.atNow ⟨0, 0⟩).safe = false ∧
    (erasedEarly.atNow ⟨0, 0⟩).get (.mid .BOOT_STEP) = 6 ∧ (erasedEarly.atNow ⟨0, 0⟩).dieUp 0 = false ∧
    (erasedEarly.atNow ⟨0, 0⟩).dieOff 0 = false ∧ (erasedEarly.atNow ⟨0, 0⟩).dieHeld 0 = false := by decide +kernel

/-- No records and no erasure map stand in that state, and its group 0 does without its device 3. -/
theorem erasedEarly_erased : (erasedEarly.atNow ⟨0, 0⟩).image = [] ∧ (erasedEarly.atNow ⟨0, 0⟩).mapErased = [] ∧
    (erasedEarly.atNow ⟨0, 0⟩).get (.dmc .GRP_STATUS_MODE) = 1 ∧ (erasedEarly.atNow ⟨0, 0⟩).get (.dmc .GRP_STATUS_ERASED_DEV) = 3 := by
  decide +kernel

/-- What the end of training leaves, marked as down where the training leaves the die marked so. -/
theorem dramTrained_leaves_down {failed : List (Fin 4 × Device)} {now : Now} {s : State} (hl : s.live = true)
    (hd : DownBare true (dramTrained 0 (failPairs failed) (s.atNow now))) :
    (leaves (.dramTrained 0 failed now) s).dieOff 0 = true := by
  have e : exec (.dramTrained 0 failed now) s = s.runAt now (fun s => poolsSettle (dramTrained 0 (failPairs failed) s)) := rfl
  rw [State.runAt_live _ _ _ hl] at e
  rw [leaves_of_next e]
  exact (hd.frame (poolsSettle_frame _) rfl).1 rfl

/-- Refutes O12: a group that stands in erasure mode before its die trains, and then fails with a second device, takes its die down
within the training. The restart leaves no group LOST, so the start of the die goes on, but its mark as down stays, where the
statement has the die not marked so. -/
theorem not_dieRestarts : ¬ Obligations.DieRestarts := by
  unfold Obligations.DieRestarts
  rintro ⟨-, -, -, -, h⟩
  obtain ⟨hl, hsafe, hs, hb, hu, ho, hh⟩ := erasedEarly_trains
  obtain ⟨himg, hmap, hm, he⟩ := erasedEarly_erased
  have htrained := trainGroups_downs himg hs hh hm he
  have hdown := dramTrained_leaves_down (failed := [(0, 2)]) hl (dramTrained_downs hs hb hu ho hmap htrained)
  obtain ⟨t, ht, -, hoff⟩ := (h 0 [(0, 2)] ⟨0, 0⟩ erasedEarly _ hl rfl hsafe hb hu ho hh).1 (by rw [hmap]; exact htrained.2)
  rw [leaves_of_next ht] at hdown
  exact absurd (hdown.symm.trans hoff) (by decide)

end Sys2Proof
end

section
/-!
PROOFS. A request for a refresh that a picture owes already: the new debt is the greater of what is owed and what is asked for, cut to
the two bits of its field (R91).
-/

namespace Sys2Proof

open Machine

/-- After a request picture `n` owes the greater of what is held as its debt and what is asked for, as the two bits of its field hold it
(R91). -/
theorem owed_askRefresh {ch n : Nat} {s : State} (h : s.get (.qrc .xRQ_PIC) ch (n % 8) = n + 1) (all : Bool) (rows : List Nat) :
    (askRefresh ch n all rows s).owed ch n = max (s.get (.qrc .xRQ) ch (n % 8)) (if all then 2 else 1) % 4 := by
  have hrows : ∀ (f : Qrc), f ≠ .xRQ_ROW → ∀ u : State,
      (forEach rows (fun r s => s.put (.qrc .xRQ_ROW) 1 ch r (n % 8)) u).get (.qrc f) ch (n % 8) = u.get (.qrc f) ch (n % 8) :=
    fun f hf u => forEach_inv (fun v => v.get (.qrc f) ch (n % 8) = u.get (.qrc f) ch (n % 8)) _ _
      (fun _ _ v hv => by simpa [hf] using hv) u rfl
  simp [askRefresh, State.owed, h, hrows, Key.cut, Fld.width, Qrc.width]

/-- The slice rows of a picture of `rows` rows that a request names (R90). -/
def namedRows (rows : Nat) (b : List Byte) : List Nat :=
  (List.range rows).filter (fun r => decide (byteAt b 18 ≤ r ∧ r ≤ byteAt b 19))

/-- A request alone in its datagram is the datagram's one RTCP packet (R90). -/
theorem rtcpEach_request {b : List Byte} (hb : isRequest b = true) (ch n rows : Nat) (s : State) :
    rtcpEach ch n rows b.length b s = appAct ch n rows b s := by
  simp only [isRequest, Bool.and_eq_true, beq_iff_eq] at hb
  obtain ⟨⟨⟨⟨hlen, hpt⟩, hwords⟩, -⟩, -⟩ := hb
  have htake : b.take 24 = b := List.take_of_length_le hlen.le
  have hdrop : b.drop 24 = [] := List.drop_eq_nil_of_le hlen.le
  simp [hlen, rtcpEach, hwords, hpt, htake, hdrop]

/-- A request for rows, from the channel's own sender, asks for the rows that it names (R91). -/
theorem appAct_rows {ch n rows : Nat} {b : List Byte} {s : State} (hb : isRequest b = true)
    (hs : beAt b 12 4 = s.chGet (.cch .SSRC_SSRC) ch) (hsub : byteAt b 0 % 32 = 1) :
    appAct ch n rows b s = askRefresh ch n false (namedRows rows b) s := by
  simp only [isRequest, Bool.and_eq_true, beq_iff_eq] at hb
  obtain ⟨⟨⟨⟨hlen, -⟩, hwords⟩, hname⟩, -⟩ := hb
  simp [appAct, namedRows, hlen, hwords, hname, hs, hsub]

/-- Its refresh picture is the first whose boundary lies 32 lines or more ahead (R91). -/
theorem refreshRequest_rows {ch : Nat} {b : List Byte} {s : State} (hb : isRequest b = true)
    (hs : beAt b 12 4 = s.chGet (.cch .SSRC_SSRC) ch) (hsub : byteAt b 0 % 32 = 1) : refreshRequest ch b s =
      askRefresh ch (servedIn ch s) false (namedRows (s.work ch (s.chBank ch)).rows b) s :=
  (rtcpEach_request hb _ _ _ s).trans (appAct_rows hb hs hsub)

/-- A request that a running encode channel takes has the effect of `refreshRequest` (R91). -/
theorem exec_refreshRequestReceived {ch : Chan} {b : List Byte} {now : Now} {s : State} (hl : s.live = true)
    (hr : (s.atNow now).chRuns ch = true) (hw : (s.atNow now).chWork ch = 0)
    (he : bitOf ((s.atNow now).chGet (.cch .RTP_FB_EN) ch) 0 = true) :
    exec (.refreshRequestReceived ch b now) s = .next (s.commit (refreshRequest ch b (s.atNow now))) := by
  have e : exec (.refreshRequestReceived ch b now) s = s.runAt now (fun s => s.when (s.chRuns ch && s.chWork ch == 0 &&
    bitOf (s.chGet (.cch .RTP_FB_EN) ch) 0) (refreshRequest ch b)) := rfl
  rw [e, State.runAt_live _ _ _ hl]
  simp [hr, hw, he]

/-- What a command leaves owed is what its effect leaves owed. -/
@[simp] theorem owed_commit (s t : State) (ch n : Nat) : (s.commit t).owed ch n = t.owed ch n := rfl

/-- An encode channel runs at the boundary of picture 240 of a raster of 100 lines, takes requests, and owes a refresh in picture 241
already. -/
def refreshing : State :=
  let s := [((.mid .STATUS_DIE_UP : Fld), 3), (.trs .STATUS_STATE, tbLOCKED), (.trs .DOM_FMT_TOTAL_LINES, 100),
    (.trs .DOM_FMT_ACTIVE_LINES, 16), (.trs .DOM_RATE_NUM, 24000), (.trs .DOM_FMT_ENABLE, 1),
    (.cch .STATUS_STATE, chRUNNING)].foldl (fun s p => s.put p.1 p.2) State.reset
  { (s.put (.cch .RTP_FB_EN) 1 0 0 1).put (.qrc .xRQ_PIC) 242 0 1 with tb := 10000000000 * 65536 }

/-- What picture 241 owes is held as 4 in two bits, which no write leaves there. -/
def debtWide : State := holding refreshing ⟨.qrc .xRQ, 0, 1, 0⟩ 4 (by decide)

/-- A request of R90 for the rows 0 to 255 of a channel of SSRC 0. -/
def rowsRequest : List Byte :=
  [0x81, 204, 0, 5, 0, 0, 0, 0, 0x45, 0x4C, 0x43, 0x42, 0, 0, 0, 0, 0, 0, 0, 255, 0, 0, 0, 0]

/-- The request meets there all that the statement asks of one for rows, and its refresh picture is 241. -/
theorem debtWide_takes : debtWide.live = true ∧ (debtWide.atNow ⟨0, 0⟩).chRuns 0 = true ∧ (debtWide.atNow ⟨0, 0⟩).chWork 0 = 0 ∧
    bitOf ((debtWide.atNow ⟨0, 0⟩).chGet (.cch .RTP_FB_EN) 0) 0 = true ∧ isRequest rowsRequest = true ∧
    241 = servedIn 0 (debtWide.atNow ⟨0, 0⟩) ∧ beAt rowsRequest 12 4 = (debtWide.atNow ⟨0, 0⟩).chGet (.cch .SSRC_SSRC) 0 ∧
    byteAt rowsRequest 0 % 32 = 1 := by decide +kernel

/-- That picture's debt there is held as 4. -/
theorem debtWide_owes : (debtWide.atNow ⟨0, 0⟩).get (.qrc .xRQ_PIC) 0 (241 % 8) = 241 + 1 ∧
    (debtWide.atNow ⟨0, 0⟩).get (.qrc .xRQ) 0 (241 % 8) = 4 := by decide +kernel

/-- Refutes O35: the statement takes every register store, and where the store holds 4 as the debt of the refresh picture, a request for
rows leaves that picture owing nothing: the greater of 4 and 1 is 0 in the two bits of its field. -/
theorem not_refreshAndModel : ¬ Obligations.RefreshAndModel := by
  unfold Obligations.RefreshAndModel
  rintro ⟨-, h, -⟩
  obtain ⟨hl, hr, hw, he, hb, hn, hs, hsub⟩ := debtWide_takes
  obtain ⟨hpic, hdebt⟩ := debtWide_owes
  obtain ⟨t, ht, howed, -⟩ := ((h 0 rowsRequest 241 ⟨0, 0⟩ debtWide _ hl rfl).1 hr hw he hb hn).1 hs |>.1 hsub
  rw [exec_refreshRequestReceived (ch := 0) hl hr hw he] at ht
  obtain rfl := Host.Outcome.next.inj ht
  have hcut : (refreshRequest 0 rowsRequest (debtWide.atNow ⟨0, 0⟩)).owed 0 241 = 0 := by
    rw [refreshRequest_rows hb hs hsub, ← hn, owed_askRefresh hpic, hdebt]
    rfl
  rw [Fin.val_zero, owed_commit, hcut] at howed
  exact absurd howed (by decide)

end Sys2Proof
end

section
/-!
PROOFS. A refutation by a digest in the safe state: a handover slot that comes due sends the digest of a tile group (R206), and the
safe state stops what would leave by a Tether link (R465).
-/

namespace Sys2Proof

open Machine

/-- In the safe state a command sends nothing of what that state stops (R465). -/
theorem stopped_of_mem_commit {s t : State} {o : Out} (hs : s.safe = true) (ho : o ∈ (s.commit t).outs) : o.stopped = false := by
  simp only [State.commit, hs, if_true, List.mem_filter, Bool.not_eq_true'] at ho
  exact ho.2

/-- The offer of a handover that arrives is one effect at its moment (R205). -/
theorem exec_handoverOffer (l : Link) (o : Offer) (now : Now) {s : State} (hl : s.live = true) :
    exec (.handoverOffer l o now) s = .next (s.commit (offerMsg l o (s.atNow now))) :=
  State.runAt_live s now (offerMsg l o) hl

/-- The safe state holds with die 0 and a Tether link up and a raster that runs. The position of handover slot 3 has been reached, and
channel 0 is attached to it, with tile group 1 in its shadow bank. -/
def digestDue : State :=
  let s := [((.mid .STATUS_DIE_UP : Fld), 1), (.mid .TTH_REV_UP, 1), (.trs .STATUS_STATE, tbLOCKED), (.trs .DOM_FMT_TOTAL_LINES, 100),
    (.trs .DOM_FMT_ACTIVE_LINES, 16), (.trs .DOM_RATE_NUM, 24000), (.trs .DOM_FMT_ENABLE, 1), (.cch .CTRL_HO_SLOT, 3),
    (.cch .TIME_TILE_GRP, 1)].foldl (fun s p => s.put p.1 p.2) State.reset
  { s.put (.trs .HO_CTRL_ARM) 1 3 with safe := true, tb := 10000000000 * 65536 }

/-- Slot 3 fires before a time-driven command acts there, and among what that sends is the digest, which the safe state stops. -/
theorem digestDue_fires : digestDue.live = true ∧ digestDue.safe = true ∧
    (digestDue.atNow ⟨0, 0⟩).outs.any Out.stopped = true := by decide +kernel

/-- By the statement an offer in the safe state leaves what the slots that came due have sent as it was, and so nothing of that is what
the safe state stops. -/
theorem unstopped_of_handovers (h : Obligations.Handovers) (l : Link) (o : Offer) (now : Now) {s : State} (hl : s.live = true)
    (hs : s.safe = true) : ∀ x ∈ (s.atNow now).outs, x.stopped = false := by
  obtain ⟨hoffer, -⟩ := h
  obtain ⟨t, ht, houts, -⟩ := (hoffer l o now s _ hl rfl).1 (.inl ((State.atNow_safe s now).trans hs))
  rw [exec_handoverOffer l o now hl] at ht
  obtain rfl := Host.Outcome.next.inj ht
  rw [← houts]
  exact fun x hx => stopped_of_mem_commit hs hx

/-- Refutes O33: the statement takes every state, and has an offer in the safe state leave everything that was sent before it. Where the
safe state holds with a Tether link up, a handover slot that comes due sends the digest of a tile group, and the safe state stops it. -/
theorem not_handovers : ¬ Obligations.Handovers := by
  intro h
  obtain ⟨hl, hs, hfires⟩ := digestDue_fires
  obtain ⟨x, hx, hstop⟩ := List.any_eq_true.mp hfires
  have hfree := unstopped_of_handovers h 0 ⟨0, [], 0, 0, 0⟩ ⟨0, 0⟩ hl hs x hx
  exact Bool.noConfusion (hstop.symm.trans hfree)

end Sys2Proof
end

section
/-!
PROOFS. What the way of a frame through a die leaves alone, and that events, recorded occurrences and the pools keep to it (R286 to
R297, R359 to R361, R462).
-/

namespace Sys2Proof

open Machine

variable {B C : Key → Bool} {s t u : State}

/-- What the way of a frame through a die keeps (R211 to R251): every register whose key does not pass `touched`, every byte of memory,
the number of the next chain, and the copies on their way to the other die, which new ones join at the end. Each of three queues
changes only where a register that goes with it may change: the copies that wait for egress with the sequence counters, what the merge
holds with the expected numbers, and the recirculation queues with their count of drops. -/
structure Carried (touched : Key → Bool) (s t : State) : Prop where
  regs    : SameRegs touched s t
  bytes   : SameBytes s t
  nextId  : t.nextId = s.nextId
  cross   : s.cross <+: t.cross
  copies  : touched ⟨.shp .SEQ_NEXT, 0, 0, 0⟩ = false → t.copies = s.copies
  held    : touched ⟨.prs .xME, 0, 0, 0⟩ = false → t.mheld = s.mheld
  recircs : touched ⟨.prs .CNT, 0, 6, 0⟩ = false → t.recircs = s.recircs

namespace Carried

theorem refl (B : Key → Bool) (s : State) : Carried B s s :=
  ⟨fun _ _ => rfl, ⟨rfl, rfl, rfl, rfl⟩, rfl, List.prefix_rfl, fun _ => rfl, fun _ => rfl, fun _ => rfl⟩

theorem trans (h : Carried B s t) (g : Carried B t u) : Carried B s u :=
  ⟨h.regs.trans g.regs, h.bytes.trans g.bytes, g.nextId.trans h.nextId, h.cross.trans g.cross, fun e => (g.copies e).trans (h.copies e),
    fun e => (g.held e).trans (h.held e), fun e => (g.recircs e).trans (h.recircs e)⟩

theorem mono (h : Carried B s t) (hb : ∀ k, B k = true → C k = true) : Carried C s t := by
  have off : ∀ k, C k = false → B k = false := fun k hk => by
    cases e : B k with
    | false => rfl
    | true => simp [hb k e] at hk
  exact ⟨h.regs.mono hb, h.bytes, h.nextId, h.cross, fun e => h.copies (off _ e), fun e => h.held (off _ e), fun e => h.recircs (off _ e)⟩

/-- A change of registers, event FIFOs and what is sent alone. -/
theorem of_kept (h : Kept s t) (hr : SameRegs B s t) : Carried B s t := by
  obtain ⟨st, ff, os, rfl⟩ := h
  exact ⟨hr, ⟨rfl, rfl, rfl, rfl⟩, rfl, List.prefix_rfl, fun _ => rfl, fun _ => rfl, fun _ => rfl⟩

/-- A change of the lists and counters that `Carried` does not speak of. -/
theorem of_lists (h : t = { s with chains := t.chains, inputs := t.inputs, rxs := t.rxs, bufs := t.bufs, learns := t.learns,
                                   mdone := t.mdone, tb := t.tb, freeCtr := t.freeCtr } := by rfl) : Carried B s t := by
  rw [h]
  exact ⟨fun _ _ => rfl, ⟨rfl, rfl, rfl, rfl⟩, rfl, List.prefix_rfl, fun _ => rfl, fun _ => rfl, fun _ => rfl⟩

theorem put (s : State) (f : Fld) (v i j k : Nat) (h : B ⟨f, i, j, k⟩ = true) : Carried B s (s.put f v i j k) :=
  of_kept (Kept.put s f v i j k) (SameRegs.put B s f v i j k h)

theorem bump (s : State) (f : Fld) (i j k n : Nat) (h : B ⟨f, i, j, k⟩ = true) : Carried B s (s.bump f i j k n) := put s f _ i j k h

theorem when (p : Bool) (f : State → State) (h : Carried B s (f s)) : Carried B s (s.when p f) := by
  unfold State.when
  split
  · exact h
  · exact refl B s

theorem ite {c : Prop} [Decidable c] (h : Carried B s t) (g : Carried B s u) : Carried B s (if c then t else u) := by
  split
  · exact h
  · exact g

theorem forEach {α : Type} (l : List α) (f : α → State → State) (h : ∀ x v, Carried B v (f x v)) (s : State) :
    Carried B s (forEach l f s) :=
  forEach_inv (fun v => Carried B s v) l f (fun x _ v hv => hv.trans (h x v)) s (refl B s)

end Carried

-- Events and recorded occurrences

theorem evLevel_kept (n : Nat) (on : Bool) (det : Nat) (s : State) : Kept s (evLevel n on det s) := by
  have hon : Kept s (s.putB (.evc .SRC_CFG_ASSERTED) on n) := Kept.put _ _ _ _ _ _
  have hent := Kept.ite (c := (on && !s.flag (.evc .SRC_CFG_ASSERTED) n) = true)
    ((hon.trans (srcEntry_kept n det _)).trans (thrAll_kept s _)) hon
  exact (Kept.ite (hent.trans (Kept.put _ _ _ _ _ _)) hent).trans (settle_kept _)

theorem evPulse_carried (n det : Nat) (s : State) : Carried evcKeys s (evPulse n det s) :=
  .of_kept (evPulse_kept n det s) (evPulse_frame n det s).regs

theorem evLevel_carried (n : Nat) (on : Bool) (det : Nat) (s : State) : Carried evcKeys s (evLevel n on det s) :=
  .of_kept (evLevel_kept n on det s) (evLevel_frame n on det s).regs

theorem flowEvent_frame (d h kind : Nat) (s : State) : Frame evcKeys s (flowEvent d h kind s) :=
  Frame.forEach _ _ (fun _ _ _ => evPulse_frame _ _ _) s

theorem flowEvent_carried (d h kind : Nat) (s : State) : Carried evcKeys s (flowEvent d h kind s) :=
  .forEach _ _ (fun _ _ => evPulse_carried _ _ _) s

theorem record_carried (o : Occ) (wire inj : Bool) (s : State) : Carried fltKeys s (record o wire inj s) := by
  have ev : ∀ n det v, Carried fltKeys v (evPulse n det v) := fun n det v => (evPulse_carried n det v).mono (fun _ => evcKeys_flt)
  have put : ∀ (f : Flt) (v i j : Nat) (w : State), Carried fltKeys w (w.put (.flt f) v i j) := fun f v i j w => .put w _ _ _ _ _ rfl
  have recs : ∀ (f : Flt) (i : Nat) (ws : List Nat) (w : State), Carried fltKeys w (writeRec (.flt f) i ws w) :=
    fun f i ws w => .forEach _ _ (fun _ _ => put _ _ _ _ _) w
  unfold record
  split
  · exact .refl _ s
  · next c _ =>
    dsimp only
    split
    · exact (((put .CNT _ c 0 s).trans (put _ _ _ _ _)).trans (put _ _ _ _ _)).trans (ev _ _ _)
    · refine .trans (.trans (.trans ?_ (put _ _ _ _ _)) (put _ _ _ _ _)) (ev _ _ _)
      exact (((put .CNT _ c 0 s).trans (.of_lists)).trans (recs _ _ _ _)).trans (.when _ _ (recs _ _ _ _))

theorem raise_minor_carried {code : Nat} (c : Nat) (hc : faultClass code = some c) (h : c < 3) (die loc det : Nat) (s : State) :
    Carried fltKeys s (raise code die loc det s) := by
  rw [raise_minor c hc h]
  exact record_carried _ _ _ _

-- The pools

theorem poolKeys_of_evcKeys {k : Key} (h : evcKeys k = true) : poolKeys k = true := by simp [poolKeys, h]

theorem Carried.pool_of_evc (h : Carried evcKeys s t) : Carried poolKeys s t := h.mono (fun _ => poolKeys_of_evcKeys)

theorem pdkPut_carried (f : Pdk) (v i j k : Nat) (s : State) : Carried poolKeys s (s.put (.pdk f) v i j k) := .put s _ _ _ _ _ rfl

theorem pdkBump_carried (f : Pdk) (i j k n : Nat) (s : State) : Carried poolKeys s (s.bump (.pdk f) i j k n) := .put s _ _ _ _ _ rfl

theorem poolSettle_carried (d : Nat) (s : State) : Carried poolKeys s (poolSettle d s) := by
  refine .trans (.trans (.when _ _ (pdkPut_carried _ _ _ _ _ s)) (.when _ _ (evLevel_carried _ _ _ _).pool_of_evc)) (.forEach _ _ (fun r v => ?_) _)
  exact .trans (.forEach _ _ (fun c w => .when _ _ (pdkPut_carried _ _ _ _ _ w)) v) (.when _ _ (evLevel_carried _ _ _ _).pool_of_evc)

theorem notePeak_carried (d o : Nat) (s : State) : Carried poolKeys s (notePeak d o s) := by
  unfold notePeak
  exact .when _ _ (pdkPut_carried _ _ _ _ _ s)

theorem lowerReserves_carried (d : Nat) (s : State) : Carried poolKeys s (lowerReserves d s) :=
  .ite (.refl _ s) (.trans (.forEach _ _ (fun _ v => .when _ _ (pdkPut_carried _ _ _ _ _ v)) s) (pdkPut_carried _ _ _ _ _ _))

theorem returnChain_carried (c : Chain) (s : State) : Carried poolKeys s (returnChain c s) := by
  have hfree : Carried poolKeys s { s with chains := s.chains.filter (fun x => x.id != c.id) } := .of_lists
  unfold returnChain
  dsimp only
  refine .ite hfree (.ite (hfree.trans (.of_lists)) ?_)
  exact ((hfree.trans (.of_lists)).trans ((pdkPut_carried _ _ _ _ _ _).trans (pdkBump_carried _ _ _ _ _ _))).trans (lowerReserves_carried _ _)

theorem freeIfUnused_carried (id : Nat) (s : State) : Carried poolKeys s (freeIfUnused id s) := by
  unfold freeIfUnused
  split
  · exact .refl _ s
  · exact .ite (returnChain_carried _ _) (.refl _ s)

theorem dropRef_carried (id : Nat) (s : State) : Carried poolKeys s (dropRef id s) := by
  unfold dropRef
  split
  · exact .refl _ s
  · exact .ite (returnChain_carried _ _) (.of_lists)

theorem moveHolder_carried {id o : Nat} (h : moveHolder id o s = some t) : Carried poolKeys s t := by
  unfold moveHolder at h
  split at h
  · exact absurd h (by simp)
  · dsimp only at h
    split at h
    · obtain rfl := Option.some.inj h
      exact .trans (.of_lists) (notePeak_carried _ _ _)
    · exact absurd h (by simp)

-- Buffers that are granted

theorem grantBuf_carried (d g c o : Nat) (s : State) : Carried poolKeys s (grantBuf d g c o s).2 := by
  unfold grantBuf
  dsimp only
  exact .trans (.trans (t := { s.free.2 with bufs := _ }) (.of_lists) (.when _ _ (pdkPut_carried _ _ _ _ _ _))) (pdkBump_carried _ _ _ _ _ _)

theorem grantEach_carried (d g c : Nat) (l : List ClassReq) (s : State) : Carried poolKeys s (grantEach d g c l s).2 := by
  unfold grantEach
  refine List.foldlRecOn (motive := fun p : Grants × State => Carried poolKeys s p.2) l _ (.refl _ s) (fun p hp r _ => ?_)
  dsimp only
  split
  · exact hp.trans (grantBuf_carried _ _ _ _ _)
  · exact hp

theorem servePool_carried (d g c : Nat) (l : List ClassReq) (s : State) : Carried poolKeys s (servePool d g c l s).2.2 := by
  have hgrants : ∀ l₁ l₂ : List ClassReq, Carried poolKeys s (grantEach d g c l₂ (grantEach d g c l₁ s).2).2 :=
    fun l₁ l₂ => (grantEach_carried d g c l₁ s).trans (grantEach_carried d g c l₂ _)
  unfold servePool
  dsimp only
  split
  · exact (hgrants _ _).trans (.when _ _ ((pdkPut_carried _ _ _ _ _ _).trans (pdkBump_carried _ _ _ _ _ _)))
  · exact hgrants _ _

theorem edgeClass_carried (d g : Nat) (l : List ClassReq) (p : EdgeReqs × State) (c : Nat) : Carried poolKeys p.2 (edgeClass d g l p c).2 := by
  unfold edgeClass
  dsimp only
  split
  · exact .refl _ p.2
  · exact ((servePool_carried _ _ _ _ _).trans (pdkBump_carried _ _ _ _ _ _)).trans (pdkBump_carried _ _ _ _ _ _)

theorem edgeClasses_carried (d g : Nat) (l : List ClassReq) (cs : List Nat) (p : EdgeReqs × State) :
    Carried poolKeys p.2 (cs.foldl (edgeClass d g l) p).2 :=
  List.foldlRecOn (motive := fun q : EdgeReqs × State => Carried poolKeys p.2 q.2) cs _ (.refl _ p.2)
    (fun q hq c _ => hq.trans (edgeClass_carried d g l q c))

theorem edgeRound_carried (d : Nat) (l : List ClassReq) (rs : List Nat) (p : EdgeReqs × State) :
    Carried poolKeys p.2 (DownBare.edgeRound d l rs p).2 :=
  List.foldlRecOn (motive := fun q : EdgeReqs × State => Carried poolKeys p.2 q.2) rs _ (.refl _ p.2)
    (fun q hq _ _ => hq.trans (edgeClasses_carried d _ _ _ ({ q.1 with here := [] }, q.2)))

theorem allocRounds_carried (d n : Nat) (l : List ClassReq) (acc : List (Nat × Buf)) (s : State) :
    Carried poolKeys s (allocRounds d n l acc s).2 := by
  induction n generalizing s l acc with
  | zero => exact .refl _ s
  | succ n ih =>
    have hround := edgeRound_carried d l (List.range 4) (⟨[], [], acc⟩, s)
    rw [DownBare.edgeRound] at hround
    unfold allocRounds
    split
    next e t he =>
      rw [he] at hround
      exact hround.trans (ih _ _ _)

theorem allocEdge_carried (d : Nat) (l : List (Nat × Nat)) (s : State) : Carried poolKeys s (allocEdge d l s).2 := by
  unfold allocEdge
  dsimp only
  generalize 8 = n
  exact .trans (.forEach _ _ (fun _ v => pdkBump_carried _ _ _ _ _ v) s) (allocRounds_carried _ _ _ _ _)

theorem allocOne_carried (d o c : Nat) (s : State) : Carried poolKeys s (allocOne d o c s).2 := by
  have h := allocEdge_carried d [(o, c)] s
  unfold allocOne
  generalize allocEdge d [(o, c)] s = p at h ⊢
  exact h

end Sys2Proof
end

section
/-!
PROOFS. A PTP message that pass 1 copies to the time base touches no register of the ingress, no memory and no queue (R42 to R48, R218).
-/

namespace Sys2Proof

open Machine

variable {r s t u : State}

/-- Every key but those of the ingress block. -/
def offPrs (k : Key) : Bool := k.fld.home != .prs

theorem offPrs_of_poolKeys {k : Key} (h : poolKeys k = true) : offPrs k = true := by
  obtain ⟨f, i, j, n⟩ := k
  cases f <;> simp_all [poolKeys, evcKeys, offPrs, Fld.home]

theorem offPrs_of_fltKeys {k : Key} (h : fltKeys k = true) : offPrs k = true := by
  obtain ⟨f, i, j, n⟩ := k
  cases f <;> simp_all [fltKeys, evcKeys, offPrs, Fld.home]

theorem Carried.off_of_pool (h : Carried poolKeys s t) : Carried offPrs s t := h.mono (fun _ => offPrs_of_poolKeys)

theorem Carried.off_of_evc (h : Carried evcKeys s t) : Carried offPrs s t := h.pool_of_evc.off_of_pool

theorem trsPut_carried (f : Trs) (v i j k : Nat) (s : State) : Carried offPrs s (s.put (.trs f) v i j k) := .put s _ _ _ _ _ rfl

theorem Carried.trsPut (h : Carried offPrs r s) (f : Trs) (v i j k : Nat) : Carried offPrs r (s.put (.trs f) v i j k) :=
  h.trans (trsPut_carried f v i j k s)

/-- A Notice of the time base is recorded and nothing more (R48, R469). -/
theorem notice_carried {code : Nat} (hc : faultClass code = some 0) (loc det : Nat) (s : State) :
    Carried offPrs s (raise code 2 loc det s) :=
  (raise_minor_carried 0 hc (by decide) 2 loc det s).mono (fun _ => offPrs_of_fltKeys)

theorem setTb_carried (st : Nat) (s : State) : Carried offPrs s (setTb st s) := by
  have put := trsPut_carried
  have fltPut : ∀ (f : Flt) (v : Nat) (w : State), Carried offPrs w (w.put (.flt f) v) := fun f v w => .put w _ _ _ _ _ rfl
  unfold setTb
  refine .ite (.refl _ s) ?_
  refine .trans ?_ (evPulse_carried _ _ _).off_of_evc
  refine .trans ?_ (.when _ _ (.put _ _ _ _ _ _ rfl))
  refine .trans ?_ (.when _ _ ((put _ _ _ _ _ _).trans (put _ _ _ _ _ _)))
  refine .trans ?_ (.when _ _ ((put _ _ _ _ _ _).trans (put _ _ _ _ _ _)))
  refine .trans ?_ (.when _ _ (put _ _ _ _ _ _))
  refine .trans ?_ (.when _ _ (((put _ _ _ _ _ _).trans (put _ _ _ _ _ _)).trans (put _ _ _ _ _ _)))
  refine .trans ?_ (.when _ _ ((put _ _ _ _ _ _).trans (put _ _ _ _ _ _)))
  refine .trans ?_ (.when _ _ ((fltPut _ _ _).trans (notice_carried rfl _ _ _)))
  exact (put _ _ _ _ _ s).trans (.when _ _ ((fltPut _ _ _).trans (notice_carried rfl _ _ _)))

theorem elect_carried (s : State) : Carried offPrs s (elect s) := by
  unfold elect
  dsimp only
  split
  · exact .refl _ s
  · exact trsPut_carried _ _ _ _ _ s

theorem setOffset_carried (off : Int) (s : State) : Carried offPrs s (setOffset off s) :=
  .trans ((trsPut_carried _ _ _ _ _ s).trans (trsPut_carried _ _ _ _ _ _)) (.when _ _ (notice_carried rfl _ _ _))

theorem servo_carried (off : Int) (s : State) : Carried offPrs s (servo off s) := by
  have hnote : Carried offPrs s (noteMaster off s) := (trsPut_carried _ _ _ _ _ s).trans (trsPut_carried _ _ _ _ _ _)
  have hoff := hnote.trans (setOffset_carried off _)
  have hlocks : ∀ v, Carried offPrs v (setTb tbLOCKING (v.put (.trs .xGOOD) 0)) :=
    fun v => (trsPut_carried _ _ _ _ _ v).trans (setTb_carried _ _)
  have hstep : Carried offPrs (noteMaster off s) (stepTb off (noteMaster off s)) := .of_lists
  unfold servo
  dsimp only
  refine .ite (((hnote.trans hstep).trans ((trsPut_carried _ _ _ _ _ _).trans (setOffset_carried _ _))).trans (setTb_carried _ _)) ?_
  refine .ite (.ite ?_ (hoff.trsPut _ _ _ _ _)) ?_
  · exact ((hoff.trsPut _ _ _ _ _).trsPut _ _ _ _ _).trans (setTb_carried _ _)
  · have hlock := Carried.ite (c := s.tbState = tbLOCKING) hoff (hoff.trans (hlocks _))
    exact .ite (((hlock.trsPut _ _ _ _ _).trsPut _ _ _ _ _).trans (setTb_carried _ _)) (hlock.trsPut _ _ _ _ _)

theorem syncMeasured_carried (p : Nat) (diff : Int) (s : State) : Carried offPrs s (syncMeasured p diff s) :=
  .trans (.trans (trsPut_carried _ _ _ _ _ s) (.when _ _ ((trsPut_carried _ _ _ _ _ _).trans (elect_carried _))))
    (.when _ _ (servo_carried _ _))

theorem syncMsg_carried (p : Nat) (m : PtpTiming) (s : State) : Carried offPrs s (syncMsg p m s) := by
  have hdue := trsPut_carried .xSYNC_DUE (s.dueIn s.syncToNs) p 0 0 s
  unfold syncMsg
  exact .ite (.ite (((hdue.trsPut _ _ _ _ _).trsPut _ _ _ _ _).trsPut _ _ _ _ _) (hdue.trans (syncMeasured_carried _ _ _))) (.refl _ s)

theorem followUpMsg_carried (p : Nat) (m : PtpTiming) (s : State) : Carried offPrs s (followUpMsg p m s) :=
  .ite ((trsPut_carried _ _ _ _ _ s).trans (syncMeasured_carried _ _ _)) (.refl _ s)

theorem announceMsg_carried (p : Nat) (a : Announce) (s : State) : Carried offPrs s (announceMsg p a s) := by
  unfold announceMsg
  refine .ite (.trans ?_ (elect_carried _)) (.refl _ s)
  exact ((Carried.forEach _ _ (fun _ v => trsPut_carried _ _ _ _ _ v) s).trsPut _ _ _ _ _).trsPut _ _ _ _ _

theorem delayRespMsg_carried (p : Nat) (d : DelayResp) (s : State) : Carried offPrs s (delayRespMsg p d s) :=
  .when _ _ ((trsPut_carried _ _ _ _ _ s).trans (trsPut_carried _ _ _ _ _ _))

theorem ptpMessage_carried (p : Nat) (path : PtpPath) (b : List Byte) (s : State) : Carried offPrs s (ptpMessage p path b s) := by
  have hresp : Carried offPrs s (ptpDelayResp p path b s) := .when _ _ (delayRespMsg_carried _ _ _)
  have hpeer : Carried offPrs s (ptpPdelayResp p path b s) := by
    unfold ptpPdelayResp
    refine .when _ _ ?_
    exact .ite ((trsPut_carried _ _ _ _ _ _).trans (trsPut_carried _ _ _ _ _ _)) (delayRespMsg_carried _ _ _)
  have hfollow : Carried offPrs s (ptpPdelayFollowUp p path b s) := by
    unfold ptpPdelayFollowUp
    exact .when _ _ ((trsPut_carried _ _ _ _ _ _).trans (delayRespMsg_carried _ _ _))
  unfold ptpMessage
  dsimp only
  refine .ite (.refl _ s) (.ite (syncMsg_carried _ _ s) (.ite (followUpMsg_carried _ _ s) (.ite ?_ (.ite (.refl _ s) ?_))))
  · exact .ite (announceMsg_carried _ _ s) (.refl _ s)
  · exact .ite hresp (.ite hpeer (.ite hfollow (.refl _ s)))

theorem ptpCopy_carried (iface : Nat) (q : Parse) (s : State) : Carried offPrs s (ptpCopy iface q s) := by
  unfold ptpCopy
  split
  · exact .ite (ptpMessage_carried _ _ _ s) (.refl _ s)
  · exact .refl _ s

end Sys2Proof
end

section
/-!
PROOFS. The delivery of a frame touches no register of the ingress, no memory, no held copy of the merge and no recirculation queue
(R166, R241, R246 to R250, R269, R274, R281, R294, R349).
-/

namespace Sys2Proof

open Machine

variable {r s t u : State}

-- What a delivery is made of

theorem addRef_carried (id : Nat) (s : State) : Carried offPrs s (addRef id s) := .of_lists

theorem refPut_carried (f : Ref) (v i j k : Nat) (s : State) : Carried offPrs s (s.put (.ref f) v i j k) := .put s _ _ _ _ _ rfl

theorem shpBump_carried (f : Shp) (i j k n : Nat) (s : State) : Carried offPrs s (s.bump (.shp f) i j k n) := .bump s _ _ _ _ _ rfl

theorem fwdBump_carried (f : Fwd) (i j k n : Nat) (s : State) : Carried offPrs s (s.bump (.fwd f) i j k n) := .bump s _ _ _ _ _ rfl

/-- A copy joins those that wait for egress. -/
theorem queued_carried (c : Copy) (s : State) : Carried offPrs s { s with copies := s.copies ++ [c] } :=
  ⟨fun _ _ => rfl, ⟨rfl, rfl, rfl, rfl⟩, rfl, List.prefix_rfl, fun e => Bool.noConfusion e, fun _ => rfl, fun _ => rfl⟩

/-- A copy joins those on their way to the other die. -/
theorem crossing_carried (x : Cross) (s : State) : Carried offPrs s { s with cross := s.cross ++ [x] } :=
  ⟨fun _ _ => rfl, ⟨rfl, rfl, rfl, rfl⟩, rfl, List.prefix_append _ _, fun _ => rfl, fun _ => rfl, fun _ => rfl⟩

-- A channel receives

theorem takeWork_carried (ch n : Nat) (f : Fmt) (s : State) : Carried offPrs s (takeWork ch n f s).2 := by
  have h := (allocOne_carried (s.get (.cch .CTRL_HOME_DIE) ch) ch f.bufClass s).off_of_pool
  unfold takeWork
  dsimp only
  split
  · exact .refl _ s
  · generalize allocOne (s.get (.cch .CTRL_HOME_DIE) ch) ch f.bufClass s = p at h ⊢
    obtain ⟨b | b, v⟩ := p
    · exact h
    · exact h.trans (refPut_carried _ _ _ _ _ _)

theorem takeHdr_carried (ch n : Nat) (b : List Byte) (ssrc : Nat) (s : State) : Carried offPrs s (takeHdr ch n b ssrc s) := by
  unfold takeHdr
  dsimp only
  split
  · exact refPut_carried _ _ _ _ _ s
  · have hkeep := ((refPut_carried .xHDR (beNat b) ch 0 (n % 2) s).trans (refPut_carried .xH_OK 1 ch 0 (n % 2) _)).trans
      (refPut_carried .xMSSRC ssrc ch 0 0 _)
    have hcount := fun m => hkeep.trans (refPut_carried .CNT m ch 11 0 _)
    refine .ite (hcount _) (.ite ((hcount _).trans (takeWork_carried _ _ _ _)) ?_)
    exact ((hcount _).trans (takeWork_carried _ _ _ _)).trans ((refPut_carried _ _ _ _ _ _).trans (refPut_carried _ _ _ _ _ _))

theorem tryHdr_carried (ch n : Nat) (s : State) : Carried offPrs s (tryHdr ch n s) := by
  unfold tryHdr
  dsimp only
  refine .ite (.refl _ s) ?_
  split
  · exact .refl _ s
  · exact takeHdr_carried _ _ _ _ s

theorem hdrArrives_carried (ch n : Nat) (i : Inp) (f : Frag) (s : State) : Carried offPrs s (hdrArrives ch n i f s) := by
  unfold hdrArrives
  exact .ite (tryHdr_carried _ _ s) (.when _ _ (refPut_carried _ _ _ _ _ s))

theorem chanLate_carried (ch : Nat) (s : State) : Carried offPrs s (chanLate ch s) := .when _ _ (refPut_carried _ _ _ _ _ s)

theorem chanTake_carried (ch id : Nat) (s : State) : Carried offPrs s (chanTake ch id s) := by
  unfold chanTake
  split
  · split
    · split
      · exact refPut_carried _ _ _ _ _ s
      · have hin : ∀ i, Carried offPrs s (addRef id { s with inputs := s.inputs ++ [i] }) := fun i => .of_lists
        dsimp only
        split
        · exact (hin _).trans (.when _ _ (hdrArrives_carried _ _ _ _ _))
        · exact hin _
    · exact .refl _ s
  · exact .refl _ s

-- The other targets of a frame

theorem rxAssign_carried (d q : Nat) (h : Option Nat) (id : Nat) (s : State) : Carried offPrs s (rxAssign d q h id s) :=
  .ite .of_lists (.bump s _ _ _ _ _ rfl)

theorem ostFrame_carried (d : Nat) (h : Option Nat) (id : Nat) (s : State) : Carried offPrs s (ostFrame d h id s) :=
  .ite (.bump s _ _ _ _ _ rfl) .of_lists

theorem passHolder_carried (d id : Nat) (l lost : List Nat) (s : State) : Carried offPrs s (passHolder d id l lost s).2 := by
  induction l generalizing lost s with
  | nil => exact .refl _ s
  | cons o l ih =>
    unfold passHolder
    split
    · next v hv => exact (moveHolder_carried hv).off_of_pool
    · exact (pdkBump_carried _ _ _ _ _ s).off_of_pool.trans (ih _ _)

theorem orphan_carried (d h : Nat) (s : State) : Carried offPrs s (orphan d h s) :=
  (shpBump_carried _ _ _ _ _ s).trans (flowEvent_carried _ _ _ _).off_of_evc

theorem shapeDrop_carried (d : Nat) (h : Option Nat) (cnt : Nat) (s : State) : Carried offPrs s (shapeDrop d h cnt s) := by
  have hcnt := shpBump_carried .CNT d cnt 0 1 s
  unfold shapeDrop
  dsimp only
  split
  · exact hcnt.trans (flowEvent_carried _ _ _ _).off_of_evc
  · exact hcnt

theorem queueCopy_carried (c : Copy) (len : Nat) (s : State) : Carried offPrs s (queueCopy c len s) :=
  .ite (shpBump_carried _ _ _ _ _ s) (.ite (shapeDrop_carried _ _ _ s) (.ite (shapeDrop_carried _ _ _ s)
    ((queued_carried c s).trans (addRef_carried _ _))))

theorem queueOuts_carried (d : Nat) (h : Option Nat) (pace : Bool) (v : Dlv) (outs : List Nat) (len : Nat) (s : State) :
    Carried offPrs s (queueOuts d h pace v outs len s) := by
  unfold queueOuts
  dsimp only
  refine .ite (shpBump_carried _ _ _ _ _ s) (.ite (shpBump_carried _ _ _ _ _ s) (.forEach _ _ (fun i w => ?_) s))
  exact .trans (.when _ _ (shpBump_carried _ _ _ _ _ w)) (queueCopy_carried _ _ _)

theorem reseq_carried (d h : Nat) (v : Dlv) (s : State) : Carried offPrs s (reseq d h v s).2 := by
  unfold reseq
  dsimp only
  rw [apply_ite Prod.snd]
  exact .ite ((shpBump_carried .SEQ_NEXT d h 0 1 s).trans (shpBump_carried _ _ _ _ _ _)) (.refl _ s)

theorem serve_carried (d : Nat) (h : Option Nat) (pace : Bool) (v : Dlv) (g : Targets) (s : State) : Carried offPrs s (serve d h pace v g s) := by
  have dmaBump : ∀ w : State, Carried offPrs w (w.bump (.dma .CNT) d 4) := fun w => .bump w _ _ _ _ _ rfl
  unfold serve
  dsimp only
  refine .trans ?_ (freeIfUnused_carried _ _).off_of_pool
  refine .trans ?_ (.ite (.forEach _ _ (fun _ w => shapeDrop_carried _ _ _ w) _) (queueOuts_carried _ _ _ _ _ _ _))
  refine .trans ?_ (.when _ _ (ostFrame_carried _ _ _ _))
  have hchans := (passHolder_carried d v.chain (s.holders d g) [] s).trans
    (.forEach g.chans _ (fun ch w => .ite (c := (passHolder d v.chain (s.holders d g) [] s).1.contains ch = true)
      (chanLate_carried ch w) (chanTake_carried ch v.chain w)) _)
  split
  · split
    · exact hchans.trans (.ite (dmaBump _) (rxAssign_carried _ _ _ _ _))
    · exact hchans.trans (dmaBump _)
  · exact hchans

-- Delivery

theorem sendCross_carried (d : Nat) (h xh : Option Nat) (mask : Nat) (v : Dlv) (s : State) : Carried offPrs s (sendCross d h xh mask v s) := by
  unfold sendCross
  refine .ite (shpBump_carried _ _ _ _ _ s) ?_
  split
  · exact crossing_carried _ s
  · exact .refl _ s

theorem deliver_carried (d h : Nat) (crossed : Bool) (v : Dlv) (s : State) : Carried offPrs s (deliver d h crossed v s) := by
  have hdrop : ∀ w : State, Carried offPrs s w → Carried offPrs s (freeIfUnused v.chain w) := fun w hw =>
    hw.trans (freeIfUnused_carried _ _).off_of_pool
  have hseq : ∀ c : Bool, Carried offPrs s (if c = true then (v, s) else reseq d h v s).2 := fun c => by
    rw [apply_ite Prod.snd]
    exact .ite (.refl _ s) (reseq_carried d h v s)
  unfold deliver
  dsimp only
  refine .ite (hdrop _ (fwdBump_carried _ _ _ _ _ s)) (.ite (hdrop _ (orphan_carried _ _ s)) ?_)
  refine .trans ?_ (serve_carried _ _ _ _ _ _)
  exact (hseq _).trans (.ite (.refl _ _) (.ite (fwdBump_carried _ _ _ _ _ _) (sendCross_carried _ _ _ _ _ _)))

theorem forward_carried (d mask tc id : Nat) (s : State) : Carried offPrs s (forward d mask tc id s) := by
  unfold forward
  exact .trans (.ite (.refl _ s) (sendCross_carried _ _ _ _ _ s)) (serve_carried _ _ _ _ _ _)

end Sys2Proof
end

section
/-!
PROOFS. The passes of a frame and the merge touch no memory and none of the counts of the MAC, of second passes and of lost numbers (R215,
R220, R224 to R226, R231 to R237, R241, R249 to R251).
-/

namespace Sys2Proof

open Machine

variable {r s t u : State}

/-- Every key but the ingress counts of frames received (0), of second passes (5), of frames that the recirculation queue drops (6) and
of numbers lost (13). -/
def passKeys (k : Key) : Bool := k.fld != .prs .CNT || !([0, 5, 6, 13].contains k.j)

/-- Every key but the count of frames received. -/
def macKeys (k : Key) : Bool := k.fld != .prs .CNT || k.j != 0

theorem passKeys_of_offPrs {k : Key} (h : offPrs k = true) : passKeys k = true := by
  obtain ⟨f, i, j, n⟩ := k
  cases f <;> simp_all [offPrs, passKeys, Fld.home]

theorem macKeys_of_passKeys {k : Key} (h : passKeys k = true) : macKeys k = true := by
  simp only [passKeys, macKeys, Bool.or_eq_true, Bool.not_eq_true', bne_iff_ne] at h ⊢
  exact h.imp_right (fun hj e => by simp [e] at hj)

theorem Carried.pass_of_off (h : Carried offPrs s t) : Carried passKeys s t := h.mono (fun _ => passKeys_of_offPrs)

theorem Carried.mac_of_pass (h : Carried passKeys s t) : Carried macKeys s t := h.mono (fun _ => macKeys_of_passKeys)

theorem discard_carried (id : Nat) (s : State) : Carried passKeys s (discard id s) := (freeIfUnused_carried id s).off_of_pool.pass_of_off

theorem prsPut_carried (f : Prs) (v i j k : Nat) (s : State) (hf : f ≠ .CNT := by decide) :
    Carried passKeys s (s.put (.prs f) v i j k) := .put s _ _ _ _ _ (by simp [passKeys, hf])

theorem prsCount_carried (i j : Nat) (s : State) (hj : [0, 5, 6, 13].contains j = false := by rfl) :
    Carried passKeys s (s.bump (.prs .CNT) i j) := .bump s _ _ _ _ _ (by simp only [passKeys, hj]; rfl)

-- The merge

/-- The merge changes what it holds and what it has released. -/
theorem mergeLists_carried (l : List MHeld) (m : List MDone) (s : State) : Carried passKeys s { s with mheld := l, mdone := m } :=
  ⟨fun _ _ => rfl, ⟨rfl, rfl, rfl, rfl⟩, rfl, List.prefix_rfl, fun _ => rfl, fun e => Bool.noConfusion e, fun _ => rfl⟩

theorem noteSkew_carried (d m seq : Nat) (planeB : Bool) (ts : Nat) (s : State) : Carried passKeys s (noteSkew d m seq planeB ts s) := by
  unfold noteSkew
  dsimp only
  generalize (match s.mheld.find? _ with | some h => some h.ts | none => _) = other
  split
  · exact .when _ _ (prsPut_carried _ _ _ _ _ s)
  · exact .refl _ s

theorem mergeRelease_carried (d : Nat) (p : MPair) (h : MHeld) (s : State) : Carried passKeys s (mergeRelease d p h s) :=
  (mergeLists_carried _ _ s).trans (deliver_carried _ _ _ _ _).pass_of_off

theorem releaseRun_carried (d : Nat) (p : MPair) (n : Nat) (s : State) : Carried passKeys s (releaseRun d p n s) := by
  induction n generalizing s with
  | zero => exact .refl _ s
  | succ n ih =>
    unfold releaseRun
    dsimp only
    split
    · exact ((mergeRelease_carried _ _ _ s).trans (prsPut_carried _ _ _ _ _ _)).trans (ih _)
    · exact .refl _ s

theorem releaseAll_carried (d : Nat) (p : MPair) (n : Nat) (s : State) : Carried passKeys s (releaseAll d p n s) := by
  induction n generalizing s with
  | zero => exact .refl _ s
  | succ n ih =>
    unfold releaseAll
    split
    · exact (mergeRelease_carried _ _ _ s).trans (ih _)
    · exact .refl _ s

theorem forget_carried (d : Nat) (p : MPair) (s : State) : Carried passKeys s (forget d p s) := .of_lists

theorem resync_carried (d : Nat) (p : MPair) (seq : Nat) (s : State) : Carried passKeys s (resync d p seq s) := by
  have hput := ((releaseAll_carried d p (s.heldOf d p.m).length s).trans (prsPut_carried .xME seq d p.m 0 _)).trans
    (prsPut_carried .MERGE_STAT_RESYNC 1 d p.m 0 _)
  exact (hput.trans (.of_lists)).trans (flowEvent_carried _ _ _ _).off_of_evc.pass_of_off

theorem mergeCopy_carried (d : Nat) (p : MPair) (planeB crossed : Bool) (v : Dlv) (s : State) :
    Carried passKeys s (mergeCopy d p planeB crossed v s) := by
  unfold mergeCopy
  split
  · exact .refl _ s
  · next c _ =>
    split
    · exact (prsCount_carried _ _ s).trans (discard_carried _ _)
    · next seq _ =>
      extract_lets w plane seen first e far near e' skew known
      have hseen : Carried passKeys s seen :=
        (prsPut_carried _ _ _ _ _ s).trans (.put _ _ _ _ _ _ (by cases planeB <;> rfl))
      have hfirst : Carried passKeys s first := hseen.trans (.ite (.refl _ _) ((prsPut_carried _ _ _ _ _ _).trans (prsPut_carried _ _ _ _ _ _)))
      have hnear : Carried passKeys s near := hfirst.trans (.ite (resync_carried _ _ _ _) (.refl _ _))
      have hskew : Carried passKeys s skew := hnear.trans (noteSkew_carried _ _ _ _ _ _)
      refine .ite ?_ (.ite ?_ ?_)
      · have hcount : ∀ u : State, Carried passKeys u (u.bump (.prs .CNT) d (if known = true then 12 else 14)) :=
          fun u => prsCount_carried d _ u (by split <;> rfl)
        exact ((hskew.trans (.ite (.refl _ _) .of_lists)).trans (hcount _)).trans (discard_carried _ _)
      · exact (hskew.trans (prsCount_carried _ _ _)).trans (discard_carried _ _)
      · exact ((hskew.trans (mergeLists_carried _ _ _)).trans (releaseRun_carried _ _ _ _)).trans (forget_carried _ _ _)

theorem deliverFlow_carried (d h : Nat) (crossed : Bool) (v : Dlv) (s : State) : Carried passKeys s (deliverFlow d h crossed v s) := by
  unfold deliverFlow
  split
  · exact mergeCopy_carried _ _ _ _ _ s
  · exact (deliver_carried _ _ _ _ s).pass_of_off

-- The leaves

theorem routeLookup_carried (d fam a : Nat) (s : State) : Carried offPrs s (routeLookup d fam a s).2 := by
  unfold routeLookup
  split
  · exact fwdBump_carried _ _ _ _ _ s
  · exact fwdBump_carried _ _ _ _ _ s

theorem routeFrame_carried (d : Nat) (p : Parse) (v : Dlv) (s : State) : Carried passKeys s (routeFrame d p v s) := by
  have hlook : ∀ fam a, Carried passKeys s (routeLookup d fam a s).2 := fun fam a => (routeLookup_carried d fam a s).pass_of_off
  have hmiss : Carried passKeys s (s.bump (.fwd .CNT) d 1) := (fwdBump_carried .CNT d 1 0 1 s).pass_of_off
  have hact : ∀ q : Option Nat × State, Carried passKeys s q.2 → Carried passKeys s (match q.1 with
      | some h => deliverFlow d h false v q.2
      | none => discard v.chain q.2) := fun q hq => by
    split
    · exact hq.trans (deliverFlow_carried _ _ _ _ _)
    · exact hq.trans (discard_carried _ _)
  unfold routeFrame
  dsimp only
  refine hact _ ?_
  rw [apply_ite Prod.snd, apply_ite Prod.snd]
  exact .ite (hlook _ _) (.ite (hlook _ _) hmiss)

theorem fwdPut_carried (f : Fwd) (v i j k : Nat) (s : State) : Carried offPrs s (s.put (.fwd f) v i j k) := .put s _ _ _ _ _ rfl

theorem learn_carried (d vid sa iface : Nat) (was : Option Nat) (s : State) : Carried offPrs s (learn d vid sa iface was s) := by
  unfold learn
  split
  · refine .ite (fwdPut_carried _ _ _ _ _ s) (.ite (fwdBump_carried _ _ _ _ _ s) ?_)
    exact ((fwdPut_carried _ _ _ _ _ s).trans (fwdPut_carried _ _ _ _ _ _)).trans (fwdBump_carried _ _ _ _ _ _)
  · exact .ite (fwdBump_carried _ _ _ _ _ s) .of_lists

theorem bridgeFrame_carried (d iface : Nat) (p : Parse) (v : Dlv) (s : State) : Carried passKeys s (bridgeFrame d iface p v s) := by
  unfold bridgeFrame
  extract_lets vid da sa hit was s
  have hlearn : Carried offPrs _ s := .when _ _ (learn_carried _ _ _ _ _ _)
  clear_value hit
  cases hit with
  | some o =>
    refine .ite ?_ ?_
    · exact (hlearn.trans (fwdBump_carried _ _ _ _ _ _)).pass_of_off.trans (discard_carried _ _)
    · exact ((hlearn.trans (fwdBump_carried _ _ _ _ _ _)).trans (forward_carried _ _ _ _ _)).pass_of_off
  | none => exact ((hlearn.trans (fwdBump_carried _ _ _ _ _ _)).trans (forward_carried _ _ _ _ _)).pass_of_off

theorem spreadFrame_carried (d iface leaf : Nat) (p : Parse) (v : Dlv) (s : State) : Carried passKeys s (spreadFrame d iface leaf p v s) := by
  unfold spreadFrame
  dsimp only
  split
  · exact (serve_carried _ _ _ _ _ s).pass_of_off
  · exact (forward_carried _ _ _ _ s).pass_of_off
  · exact .ite ((prsCount_carried _ _ s).trans (discard_carried _ _)) (serve_carried _ _ _ _ _ s).pass_of_off
  · exact discard_carried _ s

theorem actLeaf_carried (d iface leaf : Nat) (p : Parse) (id : Nat) (s : State) : Carried passKeys s (actLeaf d iface leaf p id s) := by
  unfold actLeaf
  dsimp only
  split
  · exact deliverFlow_carried _ _ _ _ s
  · exact routeFrame_carried _ _ _ s
  · exact bridgeFrame_carried _ _ _ _ s
  · exact spreadFrame_carried _ _ _ _ _ s
  · exact (serve_carried _ _ _ _ _ s).pass_of_off
  · exact (serve_carried _ _ _ _ _ s).pass_of_off
  · exact discard_carried _ s

-- The passes

theorem setTokens_carried (d n : Nat) (v : Int) (s : State) : Carried offPrs s (setTokens d n v s) :=
  .trans (.put s _ _ _ _ _ rfl) (.put _ _ _ _ _ _ rfl)

theorem refill_carried (d n ts : Nat) (s : State) : Carried offPrs s (refill d n ts s) := by
  unfold refill
  exact .ite (.refl _ s) (((setTokens_carried _ _ _ s).trans (.put _ _ _ _ _ _ rfl)).trans (.put _ _ _ _ _ _ rfl))

theorem police_carried (d n ts len : Nat) (excess : Bool) (s : State) : Carried passKeys s (police d n ts len excess s).2.2 := by
  have hfill := (refill_carried d n ts s).pass_of_off
  have hexcess := hfill.trans (flowEvent_carried d n 3 _).off_of_evc.pass_of_off
  unfold police
  dsimp only
  split
  · split
    · exact hfill.trans (setTokens_carried _ _ _ _).pass_of_off
    · split
      · exact hexcess.trans (prsCount_carried _ _ _)
      · exact hexcess.trans (prsCount_carried _ _ _)
  · exact prsCount_carried _ _ s

/-- A walk that reaches no leaf counts as a tree error or as a bad node (R225, R226). -/
theorem walk_err {d g : Nat} {p : Parse} {n tree ix k : Nat} (h : walk s d g p n tree ix = .err k) : k = cntTREE_ERR ∨ k = cntNODE_BAD := by
  induction n generalizing tree ix with
  | zero => exact .inl (Walk.err.inj h).symm
  | succ n ih =>
    unfold walk at h
    dsimp only at h
    split at h
    · exact .inl (Walk.err.inj h).symm
    · split at h
      · exact .inr (Walk.err.inj h).symm
      · split at h
        · split at h
          · exact ih h
          · exact ih h
          · exact .inl (Walk.err.inj h).symm
        · split at h
          · split at h
            · exact .inl (Walk.err.inj h).symm
            · exact ih h
          · split at h
            · exact .inl (Walk.err.inj h).symm
            · exact absurd h (by simp)
        · exact .inl (Walk.err.inj h).symm

theorem classify_carried (d g i : Nat) (p : Parse) (s : State) : Carried passKeys s (classify d g i p s).2 := by
  unfold classify
  dsimp only
  split
  · exact .refl _ s
  · next k hk =>
    have hcnt : k = cntTREE_ERR ∨ k = cntNODE_BAD := by
      split at hk
      · exact walk_err hk
      · exact .inl (Walk.err.inj hk).symm
    exact prsCount_carried _ _ s (by rcases hcnt with rfl | rfl <;> rfl)

theorem lastPass_carried (d iface leaf : Nat) (p : Parse) (id : Nat) (s : State) : Carried passKeys s (lastPass d iface leaf p id s) := by
  unfold lastPass
  extract_lets limit info
  have hlimit : Carried passKeys s limit := .when _ _ (prsCount_carried _ _ s)
  have hinfo : Carried passKeys s info := hlimit.trans .of_lists
  split
  · exact hlimit
  · next c _ =>
    refine .ite (hinfo.trans (discard_carried _ _)) ?_
    have hpolice : ∀ b : Bool, Carried passKeys s (if b = true then
        police d (bitsOf leaf 34 12) (info.fullTs c.ts) (c.data.length + 4) (bitOf leaf 32) info else (true, false, info)).2.2 := fun b => by
      rw [apply_ite Prod.snd, apply_ite Prod.snd]
      exact .ite (hinfo.trans (police_carried _ _ _ _ _ _)) hinfo
    dsimp only
    refine .ite ?_ ?_
    · exact ((hpolice _).trans .of_lists).trans (actLeaf_carried _ _ _ _ _ _)
    · exact ((hpolice _).trans .of_lists).trans (discard_carried _ _)

/-- A frame joins a recirculation queue. -/
theorem recircs_carried (l : List Recirc) (s : State) : Carried macKeys s { s with recircs := l } :=
  ⟨fun _ _ => rfl, ⟨rfl, rfl, rfl, rfl⟩, rfl, List.prefix_rfl, fun _ => rfl, fun _ => rfl, fun e => Bool.noConfusion e⟩

theorem recircFrame_carried (d leaf g : Nat) (p : Parse) (q : Recur) (id : Nat) (s : State) :
    Carried macKeys s (recircFrame d leaf g p q id s) := by
  have hdrop : ∀ v, Carried macKeys v (discard id v) := fun v => (discard_carried id v).mac_of_pass
  unfold recircFrame
  refine .ite (hdrop s) (.ite ((Carried.bump s _ _ _ _ _ rfl).trans (hdrop _)) ?_)
  split
  · next v hv => exact (moveHolder_carried hv).off_of_pool.pass_of_off.mac_of_pass.trans (recircs_carried _ _)
  · exact (pdkBump_carried _ _ _ _ _ s).off_of_pool.pass_of_off.mac_of_pass.trans (hdrop _)

theorem firstPass_carried (d iface id : Nat) (s : State) : Carried macKeys s (firstPass d iface id s) := by
  unfold firstPass
  split
  · exact .refl _ s
  · dsimp only
    have hclass := fun (i g : Nat) (p : Parse) => ((ptpCopy_carried iface p s).pass_of_off.trans (classify_carried d g i p _)).mac_of_pass
    split
    · exact (hclass _ _ _).trans (recircFrame_carried _ _ _ _ _ _ _)
    · exact (hclass _ _ _).trans (lastPass_carried _ _ _ _ _ _).mac_of_pass

end Sys2Proof
end

section
/-!
PROOFS. Frames at the MAC and in the queues behind it (R211, R213, R220, R236, R237, R248, R465).
-/

namespace Sys2Proof

open Machine

variable {s t u : State} {d : Nat}

-- An effect that a running die has

/-- What a running die does outside the safe state. -/
theorem when_open (hs : s.safe = false) (hd : s.dieUp d = true) (f : State → State) : s.when (!s.safe && s.dieUp d) f = f s := by
  rw [hs, hd]
  rfl

/-- In the safe state, or where it does not run, a die does nothing. -/
theorem when_shut (h : s.safe = true ∨ s.dieUp d = false) (f : State → State) : s.when (!s.safe && s.dieUp d) f = s := by
  have hb : (!s.safe && s.dieUp d) = false := by rcases h with h | h <;> simp [h]
  rw [hb]
  rfl

/-- A count of 64 bits goes up, and nothing else moves. -/
theorem count_reads (f : Fld) (i j n : Nat) (s : State) (hw : f.width = 64) :
    (s.bump f i j 0 n).get f i j = (s.get f i j + n) % 2 ^ 64 ∧ Frame (fun k => k == ⟨f, i, j, 0⟩) s (s.bump f i j 0 n) :=
  ⟨(State.get_put_same _ _ _ _ _ _).trans (by simp [Key.cut, hw]), Frame.bump _ _ _ _ _ _ (by simp)⟩

-- The MAC

theorem frameIn_unseen {i : Nat} (h : s.rxStopped = true ∨ s.ifaceUp i = false) (b : List Byte) (ok : Bool) (poison : List Nat) :
    frameIn i b ok poison s = s := if_pos (by rcases h with h | h <;> simp [h])

theorem frameIn_badFcs {i : Nat} (hr : s.rxStopped = false) (hu : s.ifaceUp i = true) (b : List Byte) (poison : List Nat) :
    frameIn i b false poison s = s.bump (.prs .CNT) (i / 8) 1 := by
  simp [frameIn, hr, hu, ifaceDie]

/-- The count of a frame in which the FCS is good. -/
def seen (i : Nat) (s : State) : State := s.bump (.prs .CNT) (i / 8) 0

theorem seen_mtu (i : Nat) (s : State) : (seen i s).mtu i = s.mtu i := by simp [seen, State.mtu, State.bump_eq]

/-- What cells are available rests on the pool's registers and on the chains (R288). -/
theorem availCells_of_regs {B : Key → Bool} (h : SameRegs B s t) (hb : ∀ f i j, B ⟨.pdk f, i, j, 0⟩ = false) (hc : t.chains = s.chains)
    (d o n : Nat) : t.availCells d o n = s.availCells d o n := by
  have hheld : ∀ x, t.cellsHeld d x = s.cellsHeld d x := fun x => by rw [State.cellsHeld, hc, State.cellsHeld]
  have hrsv : ∀ x, t.cellRsv d x = s.cellRsv d x := fun x => h.get (hb _ _ _)
  have hmax : t.cellMax d o = s.cellMax d o := by rw [State.cellMax, h.get (hb _ _ _), State.cellMax]
  have hfree : t.cellFree d = s.cellFree d := by rw [State.cellFree, hc, h.get (hb _ _ _), State.cellFree]
  have hunmet : t.cellU d o = s.cellU d o := by simp only [State.cellU, State.cellUnmet, hrsv, hheld]
  unfold State.availCells
  rw [hheld, hmax, hfree, hunmet, hrsv]

/-- What is left of a frame's arrival once it is seen with a good FCS (R211, R213). -/
theorem frameIn_seen {i : Nat} (hr : s.rxStopped = false) (hu : s.ifaceUp i = true) (b : List Byte) (poison : List Nat) :
    frameIn i b true poison s =
      if b.length + 4 < 64 ∨ s.mtu i < b.length + 4 then (seen i s).bump (.prs .CNT) (i / 8) 2
      else if beAt b 12 2 = 0x8808 then (seen i s).bump (.prs .CNT) (i / 8) 15
      else if !s.availCells (i / 8) (48 + 2 * (i / 4)) (cellsFor (b.length + 4)) then (seen i s).bump (.prs .CNT) (i / 8) 3
      else
        let v := (seen i s).when (!poison.isEmpty) (fun s => s.bump (.pdk .CNT) (i / 8) 6)
        let c := newChain (i / 8) (48 + 2 * (i / 4)) b i (v.tai % 2 ^ 48) poison noMeta v
        poolSettle (i / 8) (firstPass (i / 8) i c.1 c.2) := by
  have hcells := availCells_of_regs (Frame.bump (B := fun k => k.fld == .prs .CNT) s (.prs .CNT) (i / 8) 0 0 1 rfl).regs (fun _ _ _ => rfl) rfl
  rw [← seen_mtu i s, ← hcells]
  unfold frameIn
  rw [if_neg (by simp [hr, hu]), if_neg (by simp)]
  rfl

/-- A second count beside that of a frame seen. -/
theorem seen_reads (i j : Nat) (hj : j ≠ 0) (s : State) :
    ((seen i s).bump (.prs .CNT) (i / 8) j).get (.prs .CNT) (i / 8) j = (s.get (.prs .CNT) (i / 8) j + 1) % 2 ^ 64 ∧
    Frame (fun k => k == ⟨.prs .CNT, i / 8, 0, 0⟩ || k == ⟨.prs .CNT, i / 8, j, 0⟩) s ((seen i s).bump (.prs .CNT) (i / 8) j) := by
  obtain ⟨hcnt, hframe⟩ := count_reads (.prs .CNT) (i / 8) j 1 (seen i s) rfl
  obtain ⟨-, hseen⟩ := count_reads (.prs .CNT) (i / 8) 0 1 s rfl
  have hkeep : (seen i s).get (.prs .CNT) (i / 8) j = s.get (.prs .CNT) (i / 8) j := hseen.regs.get (by simp [hj])
  exact ⟨hkeep ▸ hcnt, (hseen.mono (fun k hk => by simp [hk])).trans (hframe.mono (fun k hk => by simp [hk]))⟩

/-- A new chain takes the next number; beside that the pool alone notes it (R293, R297). -/
theorem newChain_carried (d o : Nat) (data : List Byte) (i ts : Nat) (poison : List Nat) (info : Meta) (s : State) :
    Carried poolKeys { s with nextId := s.nextId + 1 } (newChain d o data i ts poison info s).2 :=
  .trans (.trans .of_lists (pdkBump_carried _ _ _ _ _ _)) (notePeak_carried _ _ _)

theorem Carried.mac_of_pool (h : Carried poolKeys s t) : Carried macKeys s t := h.off_of_pool.pass_of_off.mac_of_pass

/-- A frame that finds cells takes a new chain, counts as received and touches no memory (R211, R213). -/
theorem frameIn_taken {i : Nat} {b : List Byte} {poison : List Nat} (hr : s.rxStopped = false) (hu : s.ifaceUp i = true)
    (hmin : 64 ≤ b.length + 4) (hmax : b.length + 4 ≤ s.mtu i) (hp : beAt b 12 2 ≠ 0x8808)
    (hc : s.availCells (i / 8) (48 + 2 * (i / 4)) (cellsFor (b.length + 4)) = true) :
    (frameIn i b true poison s).nextId = s.nextId + 1 ∧
    (frameIn i b true poison s).get (.prs .CNT) (i / 8) 0 = (s.get (.prs .CNT) (i / 8) 0 + 1) % 2 ^ 64 ∧
    SameBytes s (frameIn i b true poison s) := by
  rw [frameIn_seen hr hu, if_neg (by omega), if_neg hp, if_neg (by simp [hc])]
  extract_lets v c
  have hmark : Carried macKeys (seen i s) v := .when _ _ (pdkBump_carried _ _ _ _ _ _).mac_of_pool
  have hpass : Carried macKeys { v with nextId := v.nextId + 1 } (poolSettle (i / 8) (firstPass (i / 8) i c.1 c.2)) :=
    ((newChain_carried _ _ _ _ _ _ _ v).mac_of_pool.trans (firstPass_carried _ _ _ _)).trans (poolSettle_carried _ _).mac_of_pool
  refine ⟨?_, ?_, ?_⟩
  · exact hpass.nextId.trans (congrArg (· + 1) hmark.nextId)
  · exact ((hpass.regs.get rfl).trans (hmark.regs.get rfl)).trans (count_reads (.prs .CNT) (i / 8) 0 1 s rfl).1
  · exact SameBytes.trans (t := v) hmark.bytes hpass.bytes

-- Second passes

/-- The queue without the frame that waits longest. -/
def unqueued (d : Nat) (s : State) : State := { s with recircs := s.recircs.eraseP (fun x => x.die == d) }

/-- Pass 2 of a frame, counted, from its parse to the free lists (R220). -/
def secondPass (d : Nat) (q : Recirc) (c : Chain) (s : State) : State :=
  let p := parsePass (s.parseCfg d) c.data q.ofs (startHdr q.start) 1 (c.iface % 8) (some (q.tunTyp, q.tunId)) c.poison
  let k := classify d q.slot (c.iface % 8) p s
  poolSettle d (lastPass d c.iface k.1 p q.chain k.2)

theorem secondPass_carried (q : Recirc) (c : Chain) (s : State) : Carried passKeys s (secondPass d q c s) :=
  ((classify_carried _ _ _ _ _).trans (lastPass_carried _ _ _ _ _ _)).trans (poolSettle_carried _ _).off_of_pool.pass_of_off

theorem recircStart_gone {q : Recirc} (hq : s.recircs.find? (fun x => x.die == d) = some q) (hc : s.chain? q.chain = none) :
    recircStart d s = unqueued d s := by
  have hchain : (unqueued d s).chain? q.chain = none := hc
  unfold recircStart
  rw [hq]
  dsimp only
  rw [← unqueued, hchain]

theorem recircStart_found {q : Recirc} {c : Chain} (hq : s.recircs.find? (fun x => x.die == d) = some q)
    (hc : s.chain? q.chain = some c) : recircStart d s = secondPass d q c ((unqueued d s).bump (.prs .CNT) d 5) := by
  have hchain : (unqueued d s).chain? q.chain = some c := hc
  unfold recircStart
  rw [hq]
  dsimp only
  rw [← unqueued, hchain]
  rfl

/-- The second pass of the frame that waits longest (R219, R220). -/
theorem recircStart_takes {q : Recirc} (hq : s.recircs.find? (fun x => x.die == d) = some q) :
    (recircStart d s).recircs = s.recircs.eraseP (fun x => x.die == d) ∧ SameBytes s (recircStart d s) ∧
    ∀ c, s.chain? q.chain = some c → (recircStart d s).get (.prs .CNT) d 5 = (s.get (.prs .CNT) d 5 + 1) % 2 ^ 64 := by
  cases hc : s.chain? q.chain with
  | none =>
    rw [recircStart_gone hq hc]
    exact ⟨rfl, ⟨rfl, rfl, rfl, rfl⟩, nofun⟩
  | some c =>
    rw [recircStart_found hq hc]
    have hpass := secondPass_carried (d := d) q c ((unqueued d s).bump (.prs .CNT) d 5)
    have hcnt := (count_reads (.prs .CNT) d 5 1 (unqueued d s) rfl).1
    exact ⟨hpass.recircs rfl, hpass.bytes, fun _ _ => (hpass.regs.get rfl).trans hcnt⟩

-- Copies that have crossed

/-- The copies on their way without the oldest to a die. -/
def uncrossed (d : Nat) (s : State) : State := { s with cross := s.cross.eraseP (fun x => x.dst == d) }

/-- A copy that has crossed is written into a new chain of its die (R248, R294). -/
def landed (d : Nat) (x : Cross) (s : State) : Nat × State :=
  let c := newChain d 59 x.data x.iface x.ts x.poison x.info s
  (c.1, c.2.mapChain c.1 (fun c => { c with arr := x.arr, mark := x.mark }))

/-- It is delivered under the handle that it crossed with, or on the ports of its mask (R248). -/
def handOver (d : Nat) (x : Cross) (id : Nat) (s : State) : State :=
  let v : Dlv := ⟨id, x.tc, x.raster, x.due, x.relAt, x.ch, x.dom, x.row, x.ix, x.out, x.seq, x.ipid, x.own⟩
  match x.handle with
  | some h => deliverFlow d h true v s
  | none => serve d none false v ⟨[], none, false, (bitsSet 16 x.mask).filter (fun i => ifaceDie i == d)⟩ s

theorem landed_carried (x : Cross) (s : State) : Carried passKeys { s with nextId := s.nextId + 1 } (landed d x s).2 :=
  .trans (newChain_carried _ _ _ _ _ _ _ _).off_of_pool.pass_of_off .of_lists

theorem handOver_carried (x : Cross) (id : Nat) (s : State) : Carried passKeys s (handOver d x id s) := by
  unfold handOver
  cases x.handle with
  | some h => exact deliverFlow_carried _ _ _ _ _
  | none => exact (serve_carried _ _ _ _ _ _).pass_of_off

theorem crossArrive_dropped {x : Cross} (hx : s.cross.find? (fun x => x.dst == d) = some x)
    (hc : s.availCells d 59 (cellsFor (x.data.length + 4)) = false) : crossArrive d s = (uncrossed d s).bump (.pdk .CNT) d 8 := by
  have hcells : (uncrossed d s).availCells d 59 (cellsFor (x.data.length + 4)) = false := hc
  unfold crossArrive
  rw [hx]
  exact if_pos (by simpa [uncrossed] using hcells)

theorem crossArrive_landed {x : Cross} (hx : s.cross.find? (fun x => x.dst == d) = some x)
    (hc : s.availCells d 59 (cellsFor (x.data.length + 4)) = true) :
    crossArrive d s = poolSettle d (handOver d x (landed d x (uncrossed d s)).1 (landed d x (uncrossed d s)).2) := by
  have hcells : (uncrossed d s).availCells d 59 (cellsFor (x.data.length + 4)) = true := hc
  unfold crossArrive handOver
  rw [hx]
  dsimp only
  rw [if_neg (by simpa [uncrossed] using hcells)]
  rfl

/-- A copy that has crossed and finds cells takes a new chain; the copies behind it stay in their order (R248, R294). -/
theorem crossArrive_taken {x : Cross} (hx : s.cross.find? (fun x => x.dst == d) = some x)
    (hc : s.availCells d 59 (cellsFor (x.data.length + 4)) = true) :
    Carried passKeys { uncrossed d s with nextId := s.nextId + 1 } (crossArrive d s) := by
  rw [crossArrive_landed hx hc]
  exact .trans ((landed_carried x (uncrossed d s)).trans (handOver_carried _ _ _)) (poolSettle_carried _ _).off_of_pool.pass_of_off

-- The merge window

/-- The held copy that comes first is one of those held. -/
theorem lowestHeld_mem {p : MPair} {h : MHeld} (hh : s.lowestHeld d p = some h) : h ∈ s.heldOf d p.m := by
  have hall : ∀ x, s.lowestHeld d p = some x → x ∈ s.heldOf d p.m := by
    unfold State.lowestHeld
    refine List.foldlRecOn (motive := fun b : Option MHeld => ∀ x, b = some x → x ∈ s.heldOf d p.m) _ _ (by simp) (fun b hb y hy x hx => ?_)
    cases b with
    | none => exact Option.some.inj hx ▸ hy
    | some z =>
      dsimp only at hx
      split at hx
      · exact Option.some.inj hx ▸ hy
      · exact hb x hx
  exact hall h hh

theorem mergeRelease_mheld (p : MPair) (h : MHeld) (s : State) : (mergeRelease d p h s).mheld = s.mheld.filter (fun x => x != h) :=
  (deliver_carried _ _ _ _ _).held rfl

theorem releaseRun_mheld (p : MPair) (n : Nat) (s : State) : (releaseRun d p n s).mheld.Sublist s.mheld := by
  induction n generalizing s with
  | zero => exact List.Sublist.refl _
  | succ n ih =>
    unfold releaseRun
    dsimp only
    split
    · next h _ =>
      refine (ih _).trans ?_
      rw [State.put_mheld, mergeRelease_mheld]
      exact List.filter_sublist
    · exact List.Sublist.refl _

/-- Where a copy of the expected number is held, one that was held is held no more (R236). -/
theorem releaseRun_releases {p : MPair} {x : MHeld} {n : Nat} (hx : x ∈ s.heldOf d p.m) (he : s.get (.prs .xME) d p.m = x.seq) (hn : 0 < n) :
    ((releaseRun d p n s).heldOf d p.m).length < (s.heldOf d p.m).length := by
  obtain ⟨n, rfl⟩ := Nat.exists_eq_succ_of_ne_zero hn.ne'
  obtain ⟨hmem, hpair⟩ := List.mem_filter.mp hx
  obtain ⟨y, hy⟩ := Option.isSome_iff_exists.mp (List.find?_isSome (p := fun h : MHeld => h.die == d && h.pair == p.m && h.seq == x.seq) |>.mpr
    ⟨x, hmem, by simpa using hpair⟩)
  have hyp := List.find?_some hy
  simp only [Bool.and_eq_true] at hyp
  have hsub : (releaseRun d p (n + 1) s).mheld.Sublist (s.mheld.filter (fun z => z != y)) := by
    unfold releaseRun
    dsimp only
    rw [he, hy]
    exact (releaseRun_mheld p n _).trans (by rw [State.put_mheld, mergeRelease_mheld])
  have hlist : (releaseRun d p (n + 1) s).heldOf d p.m |>.Sublist ((s.heldOf d p.m).filter (fun z => z != y)) := by
    have hs := hsub.filter (fun h : MHeld => h.die == d && h.pair == p.m)
    rwa [List.filter_comm] at hs
  refine hlist.length_le.trans_lt (List.length_filter_lt_length_iff_exists.mpr ⟨y, ?_, by simp⟩)
  exact List.mem_filter.mpr ⟨List.mem_of_find?_eq_some hy, by simp [hyp]⟩

/-- The numbers that a passed window gives up, as lost, and the number that the pair then expects (R236). -/
def giveUp (d : Nat) (p : MPair) (h : MHeld) (lost : Nat) (s : State) : State :=
  ((s.bump (.prs .CNT) d 13 0 lost).put (.prs .xME) h.seq d p.m).when (lost != 0) (flowEvent d p.a 1)

/-- What a pass of a merge window does: it gives the numbers up and releases from the next one on (R236). -/
theorem mergeExpire_due {m : Nat} {p : MPair} {h : MHeld} (hp : (s.mergePairs d).find? (fun p => p.m == m) = some p)
    (hh : s.lowestHeld d p = some h) (hdue : h.due ≤ s.osc) :
    mergeExpire d m s = let v := giveUp d p h (seqDist p.bits (s.get (.prs .xME) d m) h.seq) s
      poolSettle d (forget d p (releaseRun d p (v.heldOf d m).length v)) := by
  have hm : p.m = m := beq_iff_eq.mp (List.find?_some (p := fun q : MPair => q.m == m) hp)
  subst hm
  unfold mergeExpire
  rw [hp]
  dsimp only
  rw [hh]
  exact if_pos hdue

/-- The lists and the expected number after numbers are given up. -/
theorem giveUp_reads (p : MPair) (h : MHeld) (lost : Nat) (s : State) :
    (giveUp d p h lost s).get (.prs .CNT) d 13 = (s.get (.prs .CNT) d 13 + lost) % 2 ^ 64 ∧
    (giveUp d p h lost s).mheld = s.mheld ∧ SameBytes s (giveUp d p h lost s) ∧
    (h.seq < 2 ^ 32 → (giveUp d p h lost s).get (.prs .xME) d p.m = h.seq) := by
  have hevent : Carried evcKeys ((s.bump (.prs .CNT) d 13 0 lost).put (.prs .xME) h.seq d p.m) (giveUp d p h lost s) :=
    .when _ _ (flowEvent_carried _ _ _ _)
  have hput := prsPut_carried (.xME) h.seq d p.m 0 (s.bump (.prs .CNT) d 13 0 lost)
  have hcnt := (count_reads (.prs .CNT) d 13 lost s rfl).1
  refine ⟨?_, hevent.held rfl, hevent.bytes, fun hseq => ?_⟩
  · exact (hevent.regs.get rfl).trans ((hput.regs.get rfl).trans hcnt)
  · exact (hevent.regs.get rfl).trans ((State.get_put_same _ _ _ _ _ _).trans (Key.cut_fit _ _ hseq))

/-- A number of a pair's width fits the expected number's register. -/
theorem seq_fits {p : MPair} {n : Nat} (h : n < 2 ^ p.bits) : n < 2 ^ 32 :=
  h.trans_le (Nat.pow_le_pow_right (by decide) (by unfold MPair.bits; split <;> decide))

/-- A merge window that has passed counts the numbers given up as lost, and lets the copy go that comes first (R236). -/
theorem mergeExpire_gives {m : Nat} {p : MPair} {h : MHeld} (hp : (s.mergePairs d).find? (fun p => p.m == m) = some p)
    (hh : s.lowestHeld d p = some h) (hdue : h.due ≤ s.osc) :
    (mergeExpire d m s).get (.prs .CNT) d 13 = (s.get (.prs .CNT) d 13 + seqDist p.bits (s.get (.prs .xME) d m) h.seq) % 2 ^ 64 ∧
    (h.seq < 2 ^ p.bits → ((mergeExpire d m s).heldOf d m).length < (s.heldOf d m).length) ∧ SameBytes s (mergeExpire d m s) := by
  rw [mergeExpire_due hp hh hdue]
  have hm : p.m = m := beq_iff_eq.mp (List.find?_some (p := fun q : MPair => q.m == m) hp)
  subst hm
  extract_lets v
  obtain ⟨hcnt, hkept, hbytes, hnext⟩ : _ ∧ v.mheld = s.mheld ∧ SameBytes s v ∧ (h.seq < 2 ^ 32 → v.get (.prs .xME) d p.m = h.seq) :=
    giveUp_reads p h _ s
  have hmem : h ∈ v.heldOf d p.m := by
    rw [State.heldOf, hkept]
    exact lowestHeld_mem hh
  have hforget := forget_carried d p (releaseRun d p (v.heldOf d p.m).length v)
  have hall := ((releaseRun_carried d p _ v).trans hforget).trans (poolSettle_carried d _).off_of_pool.pass_of_off
  have hsettle : (poolSettle d (forget d p (releaseRun d p (v.heldOf d p.m).length v))).mheld = (releaseRun d p (v.heldOf d p.m).length v).mheld :=
    (poolSettle_carried d _).held rfl
  refine ⟨(hall.regs.get rfl).trans hcnt, fun hseq => ?_, hbytes.trans hall.bytes⟩
  have hless := releaseRun_releases hmem (hnext (seq_fits hseq)) (List.length_pos_of_mem hmem)
  have hstart : v.heldOf d p.m = s.heldOf d p.m := congrArg (List.filter _) hkept
  have hdone : (poolSettle d (forget d p (releaseRun d p (v.heldOf d p.m).length v))).heldOf d p.m =
      (releaseRun d p (v.heldOf d p.m).length v).heldOf d p.m := congrArg (List.filter _) hsettle
  rw [hdone]
  exact hless.trans_eq (congrArg List.length hstart)

theorem mergeExpire_waits {m : Nat} (h : ∀ (p : MPair) (h : MHeld), (s.mergePairs d).find? (fun p => p.m == m) = some p →
    s.lowestHeld d p = some h → s.osc < h.due) : mergeExpire d m s = s := by
  unfold mergeExpire
  split
  · rfl
  · next p hp =>
    split
    · rfl
    · next x hx => exact if_neg (Nat.not_le.mpr (h p x hp hx))

-- The planes

/-- The OK bit of a plane of a merge pair. -/
def planeOk (b : Bool) : Fld := if b then .prs .MERGE_STAT_B_OK else .prs .MERGE_STAT_A_OK

/-- A plane that has been silent for the window loses its OK bit, with its event (R237). -/
theorem planeFalls_falls {m : Nat} {b : Bool} (hok : s.flag (planeOk b) d m = true) (hlast : s.get (.prs .xMLAST) d m b.toNat ≤ s.osc) :
    (planeFalls d m b s).flag (planeOk b) d m = false ∧
    Frame (fun k => k == ⟨planeOk b, d, m, 0⟩ || evcKeys k) s (planeFalls d m b s) := by
  have e : planeFalls d m b s = flowEvent d (s.get (.prs .MERGE_FLOW_A) d m) 0 (s.put (planeOk b) 0 d m) := by
    cases b <;> exact if_pos (by simpa [planeOk] using ⟨hok, hlast⟩)
  have hevent := flowEvent_frame d (s.get (.prs .MERGE_FLOW_A) d m) 0 (s.put (planeOk b) 0 d m)
  rw [e]
  refine ⟨?_, (Frame.put _ _ _ _ _ _ (by simp)).trans (hevent.mono (fun k hk => by simp [hk]))⟩
  rw [hevent.regs.flag (by cases b <;> rfl), flag_put_same]
  cases b <;> rfl

theorem planeFalls_stands {m : Nat} {b : Bool} (h : s.flag (planeOk b) d m = false ∨ s.osc < s.get (.prs .xMLAST) d m b.toNat) :
    planeFalls d m b s = s := by
  cases b <;> exact if_neg (by rcases h with h | h <;> simp_all [planeOk])

-- The statement

/-- A commit keeps the frame of the effect on the state `u` that a time-driven command finds. -/
theorem Frame.commitNow {B : Key → Bool} {now : Now} (hnow : u = s.atNow now) (h : Frame B u t) : Frame B u (s.commit t) := by
  replace hnow := hnow.symm
  subst hnow
  exact h.atCommit

theorem exec_frameReceive (i : Iface) (b : List Byte) (ok : Bool) (poison : List Nat) {now : Now} (hl : s.live = true)
    (hnow : u = s.atNow now) : exec (.frameReceive i b ok poison now) s = .next (s.commit (frameIn i b ok poison u)) := by
  replace hnow := hnow.symm
  subst hnow
  exact exec_at rfl hl rfl

/-- What a command of a die that runs leaves outside the safe state. -/
theorem exec_at_open {i : Instr} {now : Now} {f : State → State}
    (he : exec i s = s.runAt now (fun s => s.when (!s.safe && s.dieUp d) f)) (hl : s.live = true) (hnow : u = s.atNow now)
    (hs : u.safe = false) (hd : u.dieUp d = true) : exec i s = .next (s.commit (f u)) := by
  replace hnow := hnow.symm
  subst hnow
  exact exec_at he hl (when_open hs hd f)

theorem exec_at_open_still {i : Instr} {now : Now} {f : State → State}
    (he : exec i s = s.runAt now (fun s => s.when (!s.safe && s.dieUp d) f)) (hl : s.live = true) (hnow : u = s.atNow now)
    (hs : u.safe = false) (hd : u.dieUp d = true) (h : f u = u) : ∃ t, exec i s = .next t ∧ Still u t := by
  refine ⟨_, exec_at_open he hl hnow hs hd, ?_⟩
  rw [h]
  exact (Frame.refl _ _).commitNow hnow

theorem exec_at_shut_still {i : Instr} {now : Now} {f : State → State}
    (he : exec i s = s.runAt now (fun s => s.when (!s.safe && s.dieUp d) f)) (hl : s.live = true) (hnow : u = s.atNow now)
    (h : u.safe = true ∨ u.dieUp d = false) : ∃ t, exec i s = .next t ∧ Still u t := by
  replace hnow := hnow.symm
  subst hnow
  exact exec_at_still he hl (when_shut h f)

/-- Settles O40: each of the commands is its effect on the state that the clock leaves, and of each effect the lemmas above say what it
counts, takes and leaves. -/
theorem framesReceived : Obligations.FramesReceived := by
  unfold Obligations.FramesReceived
  constructor
  · intro i b poison now s u hl hnow
    refine ⟨fun ok h => ?_, fun hr hu => ⟨?_, fun hlen => ?_, fun hmin hmax =>
      ⟨fun hp => ?_, fun hp => ⟨fun hc => ?_, fun hc => ?_⟩⟩⟩⟩ <;> refine ⟨_, exec_frameReceive i b _ poison hl hnow, ?_⟩
    · rw [frameIn_unseen h b ok poison]
      exact (Frame.refl _ _).commitNow hnow
    · rw [frameIn_badFcs hr hu]
      obtain ⟨hcnt, hframe⟩ := count_reads (.prs .CNT) (i / 8) 1 1 u rfl
      exact ⟨hcnt, hframe.commitNow hnow⟩
    · rw [frameIn_seen hr hu, if_pos hlen]
      obtain ⟨hcnt, hframe⟩ := seen_reads i 2 (by decide) u
      exact ⟨hcnt, hframe.commitNow hnow⟩
    · rw [frameIn_seen hr hu, if_neg (by omega), if_pos hp]
      obtain ⟨hcnt, hframe⟩ := seen_reads i 15 (by decide) u
      exact ⟨hcnt, hframe.commitNow hnow⟩
    · rw [frameIn_seen hr hu, if_neg (by omega), if_neg hp, if_pos (by simp [hc])]
      obtain ⟨hcnt, hframe⟩ := seen_reads i 3 (by decide) u
      exact ⟨hcnt, hframe.commitNow hnow⟩
    · exact frameIn_taken hr hu hmin hmax hp hc
  · intro d now s u hl hnow
    refine ⟨fun h m b i hi => ?_, fun hs hd => ⟨fun hq => ?_, fun q hq => ⟨_, exec_at_open rfl hl hnow hs hd, recircStart_takes hq⟩,
      fun hx => ?_, fun x hx => ⟨fun hc => ⟨_, exec_at_open rfl hl hnow hs hd, ?_⟩, fun hc => ⟨_, exec_at_open rfl hl hnow hs hd, ?_⟩⟩,
      fun m => ⟨fun p h hp hh hdue => ⟨_, exec_at_open rfl hl hnow hs hd, mergeExpire_gives hp hh hdue⟩,
        fun h => exec_at_open_still rfl hl hnow hs hd (mergeExpire_waits h), fun b ok hok => ?_⟩⟩⟩
    · simp only [List.mem_cons, List.not_mem_nil, or_false] at hi
      rcases hi with rfl | rfl | rfl | rfl <;> exact exec_at_shut_still rfl hl hnow h
    · exact exec_at_open_still (f := recircStart d) rfl hl hnow hs hd (by rw [recircStart, hq])
    · exact exec_at_open_still (f := crossArrive d) rfl hl hnow hs hd (by rw [crossArrive, hx])
    · rw [crossArrive_dropped hx hc]
      obtain ⟨hcnt, hframe⟩ := count_reads (.pdk .CNT) d 8 1 (uncrossed d u) rfl
      exact ⟨rfl, hcnt, rfl, rfl, ⟨rfl, rfl, rfl, rfl⟩, hframe.regs⟩
    · have htaken := crossArrive_taken hx hc
      exact ⟨htaken.nextId, htaken.cross, htaken.bytes⟩
    · obtain rfl : ok = planeOk b := hok
      refine ⟨fun hup hlast => ⟨_, exec_at_open rfl hl hnow hs hd, ?_⟩, fun h => exec_at_open_still rfl hl hnow hs hd (planeFalls_stands h)⟩
      obtain ⟨hdown, hframe⟩ := planeFalls_falls hup hlast
      exact ⟨hdown, hframe.commitNow hnow⟩

end Sys2Proof
end

section
/-!
PROOFS. Rule sets and port settings (R210, R226 to R231, R235).
-/

namespace Sys2Proof

open Machine

variable {s t u : State} {d v : Nat}

-- Staged accesses to the nodes

/-- The word of a staged read: READ set, and the rest of the word as written (R227). -/
theorem withBits_nodeRead (v : Nat) : bitOf (withBits v 16 1 1) 16 = true ∧ bitOf (withBits v 16 1 1) 17 = bitOf v 17 ∧
    withBits v 16 1 1 % 65536 = v % 65536 := by
  rw [Bool.eq_iff_iff (a := bitOf (withBits v 16 1 1) 17)]
  simp only [bitOf, withBits, bitsOf, beq_iff_eq]
  omega

/-- The word of a staged write: WRITE set, and the rest of the word as written (R227). -/
theorem withBits_nodeWrite (v : Nat) : bitOf (withBits v 17 1 1) 17 = true ∧ bitOf (withBits v 17 1 1) 16 = bitOf v 16 ∧
    withBits v 17 1 1 % 65536 = v % 65536 := by
  rw [Bool.eq_iff_iff (a := bitOf (withBits v 17 1 1) 16)]
  simp only [bitOf, withBits, bitsOf, beq_iff_eq]
  omega

theorem nodeAddrWrite_both (hr : bitOf v 16 = true) (hw : bitOf v 17 = true) : nodeAddrWrite d v s = s := if_pos (by simp [hr, hw])

theorem nodeAddrWrite_read (hr : bitOf v 16 = true) (hw : bitOf v 17 = false) :
    nodeAddrWrite d v s = ((s.put (.prs .NODE_ADDR_INDEX) (v % 65536) d).put (.prs .NODE_LO_NODE_LO)
      (s.get (.prs .xNODE) d (v % 65536) % 2 ^ 32) d).put (.prs .NODE_HI_NODE_HI) (s.get (.prs .xNODE) d (v % 65536) / 2 ^ 32) d := by
  simp [nodeAddrWrite, State.when, hr, hw]

theorem nodeAddrWrite_write (hr : bitOf v 16 = false) (hw : bitOf v 17 = true) :
    nodeAddrWrite d v s = ((s.put (.prs .NODE_ADDR_INDEX) (v % 65536) d).put (.prs .xNODE_BAD) 0 d (v % 65536 / 4)).put (.prs .xNODE)
      (s.get (.prs .NODE_HI_NODE_HI) d * 2 ^ 32 + s.get (.prs .NODE_LO_NODE_LO) d) d (v % 65536) := by
  simp [nodeAddrWrite, State.when, hr, hw]

/-- A staged read takes the node into the two words (R227). -/
theorem nodeAddrWrite_reads (hr : bitOf v 16 = true) (hw : bitOf v 17 = false) :
    (nodeAddrWrite d v s).get (.prs .NODE_LO_NODE_LO) d = s.get (.prs .xNODE) d (v % 65536) % 2 ^ 32 ∧
    (nodeAddrWrite d v s).get (.prs .NODE_HI_NODE_HI) d = s.get (.prs .xNODE) d (v % 65536) / 2 ^ 32 % 2 ^ 32 ∧
    Frame (fun k => k.i == d && (k.fld == .prs .NODE_ADDR_INDEX || k.fld == .prs .NODE_LO_NODE_LO || k.fld == .prs .NODE_HI_NODE_HI))
      s (nodeAddrWrite d v s) := by
  rw [nodeAddrWrite_read hr hw]
  refine ⟨?_, ?_, ?_⟩
  · rw [State.get_put_fld _ _ _ _ _ _ _ _ _ _ (by decide), State.get_put_same]
    exact Key.cut_fit _ _ (Nat.mod_lt _ (by decide))
  · exact State.get_put_same _ _ _ _ _ _
  · exact ((Frame.put _ _ _ _ _ _ (by simp)).trans (Frame.put _ _ _ _ _ _ (by simp))).trans (Frame.put _ _ _ _ _ _ (by simp))

/-- A staged write puts the two words into the node and clears the mark of its line (R226, R227). -/
theorem nodeAddrWrite_writes (hr : bitOf v 16 = false) (hw : bitOf v 17 = true) :
    (nodeAddrWrite d v s).get (.prs .xNODE) d (v % 65536) =
      (s.get (.prs .NODE_HI_NODE_HI) d * 2 ^ 32 + s.get (.prs .NODE_LO_NODE_LO) d) % 2 ^ 64 ∧
    (nodeAddrWrite d v s).flag (.prs .xNODE_BAD) d (v % 65536 / 4) = false ∧
    Frame (fun k => k.i == d && (k.fld == .prs .NODE_ADDR_INDEX || k == ⟨.prs .xNODE, d, v % 65536, 0⟩ ||
      k == ⟨.prs .xNODE_BAD, d, v % 65536 / 4, 0⟩)) s (nodeAddrWrite d v s) := by
  rw [nodeAddrWrite_write hr hw]
  refine ⟨(State.get_put_same _ _ _ _ _ _).trans (by simp [Key.cut, Fld.width, Prs.width]), ?_, ?_⟩
  · rw [flag_put_fld _ _ _ _ _ _ _ _ (by decide), flag_put_same]
    rfl
  · exact ((Frame.put _ _ _ _ _ _ (by simp)).trans (Frame.put _ _ _ _ _ _ (by simp))).trans (Frame.put _ _ _ _ _ _ (by simp))

-- Publications

/-- The registers of a die's rule sets, and what an event may touch. -/
def ruleKeys (d : Nat) (k : Key) : Bool := (k.fld.home == .prs && k.i == d) || evcKeys k

theorem rulePut_frame (f : Prs) (x j k : Nat) (s : State) : Frame (fun k => k.fld.home == .prs && k.i == d) s (s.put (.prs f) x d j k) :=
  Frame.put _ _ _ _ _ _ (by simp [Fld.home])

theorem Frame.rule (h : Frame (fun k => k.fld.home == .prs && k.i == d) s t) : Frame (ruleKeys d) s t :=
  h.mono (fun k hk => by simp [ruleKeys, hk])

theorem Frame.rule_of_evc (h : Frame evcKeys s t) : Frame (ruleKeys d) s t := h.mono (fun k hk => by simp [ruleKeys, hk])

/-- Whether the other slot is old rests on the active slot and on the frames that wait (R231). -/
theorem slotOld_of {B : Key → Bool} (h : Frame B s t) (hb : B ⟨.prs .GEN_STATUS_ACTIVE, d, 0, 0⟩ = false) : t.slotOld d = s.slotOld d := by
  have hslot : t.ruleSlot d = s.ruleSlot d := h.regs.get hb
  have hwait : t.recircs = s.recircs := by obtain ⟨-, -, -, -, -, -, -, -, hr, -⟩ := h.traffic; exact hr
  simp only [State.slotOld, State.inflightOld, hslot, hwait]

theorem retireSlot_due (ho : s.flag (.prs .xOLD) d = true) (hs : s.slotOld d = false) :
    retireSlot d s = evPulse (852 + 8 * d) (s.get (.prs .GEN_STATUS_GEN) d % 2 ^ 14) (s.put (.prs .xOLD) 0 d) :=
  if_pos (by simp [ho, hs])

theorem retireSlot_still (h : s.flag (.prs .xOLD) d = false ∨ s.slotOld d = true) : retireSlot d s = s :=
  if_neg (by rcases h with h | h <;> simp [h])

theorem retireSlot_oldFrame (d : Nat) (s : State) : Frame (fun k => k == ⟨.prs .xOLD, d, 0, 0⟩ || evcKeys k) s (retireSlot d s) :=
  Frame.ite ((Frame.put _ _ _ _ _ _ (by simp)).trans ((evPulse_frame _ _ _).mono (fun k hk => by simp [hk]))) (Frame.refl _ _)

/-- The old slot retires with its event (R231, R360). -/
theorem retireSlot_retires (hd : d < 2) (ho : s.flag (.prs .xOLD) d = true) (hs : s.slotOld d = false) :
    (retireSlot d s).flag (.prs .xOLD) d = false ∧ (retireSlot d s).flag (.evc .SRC_CFG_PENDING) (852 + 8 * d) = true := by
  rw [retireSlot_due ho hs]
  refine ⟨?_, (evPulse_pends _ _ _).2 (by interval_cases d <;> rfl)⟩
  rw [(evPulse_frame _ _ _).regs.flag rfl, flag_put_same]
  rfl

/-- What a publication puts first: nothing is to be published any more (R229). -/
def unpublished (d : Nat) (s : State) : State := (s.put (.prs .GEN_CTRL_PUBLISH) 0 d).put (.prs .GEN_STATUS_PUB_PENDING) 0 d

theorem unpublished_frame (d : Nat) (s : State) :
    Frame (fun k => k == ⟨.prs .GEN_CTRL_PUBLISH, d, 0, 0⟩ || k == ⟨.prs .GEN_STATUS_PUB_PENDING, d, 0, 0⟩) s (unpublished d s) :=
  (Frame.put _ _ _ _ _ _ (by simp)).trans (Frame.put _ _ _ _ _ _ (by simp))

theorem unpublished_rule (d : Nat) (s : State) : Frame (ruleKeys d) s (unpublished d s) :=
  ((rulePut_frame _ _ _ _ _).trans (rulePut_frame _ _ _ _ _)).rule

/-- The slots swap, and the count of publications goes up (R229). -/
def swapped (d : Nat) (s : State) : State :=
  (((retireSlot d s).put (.prs .xOLD) 1 d).bump (.prs .GEN_STATUS_GEN) d).put (.prs .GEN_STATUS_ACTIVE) (1 - s.ruleSlot d) d

theorem publishNow_eq (d : Nat) (s : State) : publishNow d s =
    let w := if s.slotOld d then (unpublished d s).put (.prs .GEN_STATUS_PUB_BUSY) 1 d else swapped d (unpublished d s)
    evPulse (851 + 8 * d) (w.get (.prs .GEN_STATUS_GEN) d % 2 ^ 14) w := by
  rw [← slotOld_of (d := d) (unpublished_frame d s) (by simp)]
  rfl

theorem swapped_reads (d : Nat) (s : State) :
    (swapped d s).ruleSlot d = (1 - s.ruleSlot d) % 2 ∧ (swapped d s).flag (.prs .xOLD) d = true ∧
    (swapped d s).get (.prs .GEN_STATUS_GEN) d = (s.get (.prs .GEN_STATUS_GEN) d + 1) % 2 ^ 16 ∧ Frame (ruleKeys d) s (swapped d s) := by
  have hret := retireSlot_oldFrame d s
  have hgen : (retireSlot d s).get (.prs .GEN_STATUS_GEN) d = s.get (.prs .GEN_STATUS_GEN) d := hret.regs.get (by simp [evcKeys, Fld.home])
  refine ⟨State.get_put_same _ _ _ _ _ _, ?_, ?_, ?_⟩
  · simp [swapped, State.bump_eq, Key.cut, Fld.width, Prs.width]
  · simp [swapped, State.bump_eq, hgen, Key.cut, Fld.width, Prs.width]
  · have hold : Frame (ruleKeys d) s (retireSlot d s) := hret.mono (fun k hk => by
      rcases Bool.or_eq_true _ _ ▸ hk with hk | hk
      · obtain rfl := eq_of_beq hk
        simp [ruleKeys, Fld.home]
      · simp [ruleKeys, hk])
    exact hold.trans (((rulePut_frame _ _ _ _ _).trans (rulePut_frame _ _ _ _ _)).trans (rulePut_frame _ _ _ _ _)).rule

/-- A publication takes effect where the other slot is retired (R229). -/
theorem publishNow_swaps (h : s.slotOld d = false) :
    (publishNow d s).ruleSlot d = (1 - s.ruleSlot d) % 2 ∧ (publishNow d s).flag (.prs .xOLD) d = true ∧
    (publishNow d s).get (.prs .GEN_STATUS_GEN) d = (s.get (.prs .GEN_STATUS_GEN) d + 1) % 2 ^ 16 ∧
    Frame (ruleKeys d) s (publishNow d s) := by
  rw [publishNow_eq, if_neg (by simp [h])]
  obtain ⟨hslot, hold, hgen, hframe⟩ := swapped_reads d (unpublished d s)
  have hun := unpublished_frame d s
  have hev := evPulse_frame (851 + 8 * d) ((swapped d (unpublished d s)).get (.prs .GEN_STATUS_GEN) d % 2 ^ 14) (swapped d (unpublished d s))
  have hslot0 : (unpublished d s).ruleSlot d = s.ruleSlot d := hun.regs.get (by simp)
  have hgen0 : (unpublished d s).get (.prs .GEN_STATUS_GEN) d = s.get (.prs .GEN_STATUS_GEN) d := hun.regs.get (by simp)
  refine ⟨?_, (hev.regs.flag rfl).trans hold, ?_, ((unpublished_rule d s).trans hframe).trans hev.rule_of_evc⟩
  · exact (hev.regs.get rfl).trans (hslot0 ▸ hslot)
  · exact (hev.regs.get rfl).trans (hgen0 ▸ hgen)

/-- A publication is refused where the other slot is old (R229). -/
theorem publishNow_refused (h : s.slotOld d = true) :
    (publishNow d s).ruleSlot d = s.ruleSlot d ∧ (publishNow d s).flag (.prs .GEN_STATUS_PUB_BUSY) d = true ∧
    (publishNow d s).get (.prs .GEN_STATUS_GEN) d = s.get (.prs .GEN_STATUS_GEN) d ∧ Frame (ruleKeys d) s (publishNow d s) := by
  rw [publishNow_eq, if_pos h]
  extract_lets w
  have hun := unpublished_frame d s
  have hbusy : Frame (fun k => k == ⟨.prs .GEN_STATUS_PUB_BUSY, d, 0, 0⟩) (unpublished d s) w := Frame.put _ _ _ _ _ _ (by simp)
  have hev := evPulse_frame (851 + 8 * d) (w.get (.prs .GEN_STATUS_GEN) d % 2 ^ 14) w
  refine ⟨?_, ?_, ?_, ((unpublished_rule d s).trans (rulePut_frame _ _ _ _ _).rule).trans hev.rule_of_evc⟩
  · exact (hev.regs.get rfl).trans ((hbusy.regs.get (by simp)).trans (hun.regs.get (by simp)))
  · rw [hev.regs.flag rfl, flag_put_same]
    rfl
  · exact (hev.regs.get rfl).trans ((hbusy.regs.get (by simp)).trans (hun.regs.get (by simp)))

/-- The handover settings of a write of `PRS_GEN_CTRL` (R229). -/
def hoWritten (d v : Nat) (s : State) : State :=
  (s.put (.prs .GEN_CTRL_HO_EN) (bitsOf v 1 1) d).put (.prs .GEN_CTRL_HO_SLOT) (bitsOf v 4 4) d

theorem hoWritten_frame (d v : Nat) (s : State) :
    Frame (fun k => k == ⟨.prs .GEN_CTRL_HO_EN, d, 0, 0⟩ || k == ⟨.prs .GEN_CTRL_HO_SLOT, d, 0, 0⟩) s (hoWritten d v s) :=
  (Frame.put _ _ _ _ _ _ (by simp)).trans (Frame.put _ _ _ _ _ _ (by simp))

theorem hoWritten_prs (d v : Nat) (s : State) : Frame (fun k => k.fld.home == .prs && k.i == d) s (hoWritten d v s) :=
  (rulePut_frame _ _ _ _ _).trans (rulePut_frame _ _ _ _ _)

/-- Each of the die's rule-set fields that is no handover setting stays through a write of those. -/
theorem hoWritten_get {f : Prs} (h : f ≠ .GEN_CTRL_HO_EN ∧ f ≠ .GEN_CTRL_HO_SLOT := by decide) :
    (hoWritten d v s).get (.prs f) d = s.get (.prs f) d := (hoWritten_frame d v s).regs.get (by simp [h])

theorem hoWritten_slotOld : (hoWritten d v s).slotOld d = s.slotOld d := slotOld_of (hoWritten_frame d v s) (by simp)

theorem genCtrlWrite_pending (h : s.flag (.prs .GEN_STATUS_PUB_PENDING) d = true) : genCtrlWrite d v s = hoWritten d v s :=
  if_pos (by simp [h])

theorem genCtrlWrite_now (h : s.flag (.prs .GEN_STATUS_PUB_PENDING) d = false) (hp : bitOf v 0 = true) (hn : bitOf v 1 = false) :
    genCtrlWrite d v s = publishNow d (hoWritten d v s) :=
  (if_neg (by simp [h, hp])).trans (if_neg (by simp [hn]))

theorem genCtrlWrite_handover (h : s.flag (.prs .GEN_STATUS_PUB_PENDING) d = false) (hp : bitOf v 0 = true) (hn : bitOf v 1 = true) :
    genCtrlWrite d v s = (((hoWritten d v s).put (.prs .GEN_CTRL_PUBLISH) 1 d).put (.prs .xPUB_SLOT) (slotOf (bitsOf v 4 4)) d).put
      (.prs .GEN_STATUS_PUB_PENDING) 1 d :=
  (if_neg (by simp [h, hp])).trans (if_pos hn)

-- Ports

/-- The settings of a write of `PRS_PORT_CFG` (R210). -/
def portSet (d pp v : Nat) (s : State) : State :=
  (s.put (.prs .PORT_CFG_EN) (bitsOf v 4 4) d pp).put (.prs .PORT_CFG_MTU) (bitsOf v 16 14) d pp

/-- The sub-ports that a write of the enables turns off. -/
def turnedOff (en v : Nat) : List Nat := (bitsSet 4 en).filter (fun k => !bitOf (bitsOf v 4 4) k)

/-- What is queued for the sub-ports that are turned off is dropped (R269). -/
def emptied (d pp : Nat) (off : List Nat) (s : State) : State :=
  let w := forEach off (fun k s => dropQueued (8 * d + 4 * pp + k) s) s
  if off.isEmpty then w else poolSettle d w

theorem portCfgWrite_refused {pp : Nat} (hm : bitsOf v 0 2 ≠ s.get (.prs .PORT_CFG_MODE) d pp) (he : s.get (.prs .PORT_CFG_EN) d pp ≠ 0) :
    portCfgWrite d pp v s = s := if_pos (by simp [hm, he])

theorem portCfgWrite_changes {pp : Nat} (hm : bitsOf v 0 2 ≠ s.get (.prs .PORT_CFG_MODE) d pp) (he : s.get (.prs .PORT_CFG_EN) d pp = 0) :
    portCfgWrite d pp v s =
      ((portSet d pp v s).put (.prs .PORT_CFG_LINK_UP) 0 d pp).put (.prs .PORT_CFG_MODE) (bitsOf v 0 2) d pp := by
  have hoff : bitsSet 4 0 = [] := by decide
  simp [portCfgWrite, State.when, hm, he, hoff, portSet, forEach]

theorem portCfgWrite_keeps {pp : Nat} (hm : bitsOf v 0 2 = s.get (.prs .PORT_CFG_MODE) d pp) :
    portCfgWrite d pp v s = emptied d pp (turnedOff (s.get (.prs .PORT_CFG_EN) d pp) v) (portSet d pp v s) := by
  simp [portCfgWrite, State.when, hm, portSet, emptied, turnedOff]

theorem bitsOf_lt (v lo len : Nat) : bitsOf v lo len < 2 ^ len := Nat.mod_lt _ (Nat.two_pow_pos len)

theorem portSet_reads (d pp v : Nat) (s : State) :
    (portSet d pp v s).get (.prs .PORT_CFG_EN) d pp = bitsOf v 4 4 ∧ (portSet d pp v s).get (.prs .PORT_CFG_MTU) d pp = bitsOf v 16 14 := by
  refine ⟨?_, (State.get_put_same _ _ _ _ _ _).trans (Key.cut_fit _ _ (bitsOf_lt _ _ _))⟩
  rw [portSet, State.get_put_fld _ _ _ _ _ _ _ _ _ _ (by decide), State.get_put_same]
  exact Key.cut_fit _ _ (bitsOf_lt _ _ _)

/-- What the queued copies of a sub-port leave behind as they are dropped: the pools, and the counts of the bridle. -/
def dropKeys (k : Key) : Bool := poolKeys k || k.fld == .shp .CNT

theorem Carried.drop_of_pool (h : Carried poolKeys s t) : Carried dropKeys s t := h.mono (fun k hk => by simp [dropKeys, hk])

theorem shapeDrop_dropKeys (d : Nat) (h : Option Nat) (cnt : Nat) (s : State) : Carried dropKeys s (shapeDrop d h cnt s) := by
  have hcnt : Carried dropKeys s (s.bump (.shp .CNT) d cnt) := .bump _ _ _ _ _ _ rfl
  unfold shapeDrop
  cases h with
  | none => exact hcnt
  | some h => exact hcnt.trans (flowEvent_carried _ _ _ _).pool_of_evc.drop_of_pool

theorem dropQueued_carried (i : Nat) (s : State) :
    Carried dropKeys { s with copies := s.copies.filter (fun c => c.iface != i) } (dropQueued i s) :=
  .forEach _ _ (fun _ v => (dropRef_carried _ v).drop_of_pool.trans (shapeDrop_dropKeys _ _ _ _)) _

/-- A state in which the queues of some interfaces have been emptied. -/
structure Emptied (l : List Nat) (s t : State) : Prop where
  regs   : SameRegs dropKeys s t
  bytes  : SameBytes s t
  copies : ∀ c ∈ t.copies, c ∈ s.copies ∧ c.iface ∉ l

theorem dropQueued_emptied (i : Nat) (s : State) : Emptied [i] s (dropQueued i s) := by
  have h := dropQueued_carried i s
  refine ⟨h.regs, h.bytes, fun c hc => ?_⟩
  rw [h.copies rfl] at hc
  simpa using hc

theorem Emptied.trans {l m : List Nat} (h : Emptied l s t) (g : Emptied m t u) : Emptied (l ++ m) s u := by
  refine ⟨h.regs.trans g.regs, SameBytes.trans h.bytes g.bytes, fun c hc => ?_⟩
  obtain ⟨hct, hm⟩ := g.copies c hc
  obtain ⟨hcs, hl⟩ := h.copies c hct
  exact ⟨hcs, by simp [hl, hm]⟩

theorem Emptied.carried {l : List Nat} (h : Emptied l s t) (g : Carried dropKeys t u) : Emptied l s u :=
  ⟨h.regs.trans g.regs, SameBytes.trans h.bytes g.bytes, fun c hc => h.copies c (g.copies rfl ▸ hc)⟩

theorem dropEach_emptied (n : Nat) (off : List Nat) (s : State) :
    Emptied (off.map (n + ·)) s (forEach off (fun k s => dropQueued (n + k) s) s) := by
  induction off generalizing s with
  | nil => exact ⟨fun _ _ => rfl, ⟨rfl, rfl, rfl, rfl⟩, fun c hc => ⟨hc, List.not_mem_nil⟩⟩
  | cons k off ih => exact (dropQueued_emptied (n + k) s).trans (ih _)

theorem emptied_spec (d pp : Nat) (off : List Nat) (s : State) : Emptied (off.map (8 * d + 4 * pp + ·)) s (emptied d pp off s) := by
  have h := dropEach_emptied (8 * d + 4 * pp) off s
  unfold emptied
  dsimp only
  split
  · exact h
  · exact h.carried (poolSettle_carried _ _).drop_of_pool

theorem mem_turnedOff {en k : Nat} (hk : k < 4) (he : bitOf en k = true) (hv : bitOf (bitsOf v 4 4) k = false) : k ∈ turnedOff en v := by
  simp [turnedOff, bitsSet, hk, he, hv]

-- Merge pairs

/-- The registers of a merge pair, and what the pools may touch. -/
def pairKeys (d m : Nat) (k : Key) : Bool := (k.fld.home == .prs && k.i == d && k.j == m) || poolKeys k

theorem pairPut_frame {m : Nat} (f : Prs) (x k : Nat) (s : State) :
    Frame (fun k => k.fld.home == .prs && k.i == d && k.j == m) s (s.put (.prs f) x d m k) := Frame.put _ _ _ _ _ _ (by simp [Fld.home])

theorem Frame.pair {m : Nat} (h : Frame (fun k => k.fld.home == .prs && k.i == d && k.j == m) s t) : SameRegs (pairKeys d m) s t :=
  h.regs.mono (fun k hk => by simp [pairKeys, hk])

theorem SameRegs.pair_of_pool (m : Nat) (h : SameRegs poolKeys s t) : SameRegs (pairKeys d m) s t := h.mono (fun k hk => by simp [pairKeys, hk])

/-- What a pair holds is discarded (R235). -/
def unheld (d m : Nat) (s : State) : State :=
  forEach (s.heldOf d m) (fun h s => discard h.chain s) { s with
    mheld := s.mheld.filter (fun h => !(h.die == d && h.pair == m)), mdone := s.mdone.filter (fun h => !(h.die == d && h.pair == m)) }

theorem unheld_carried (d m : Nat) (s : State) :
    Carried poolKeys { s with mheld := s.mheld.filter (fun h => !(h.die == d && h.pair == m)) } (unheld d m s) :=
  .trans .of_lists (.forEach _ _ (fun _ v => freeIfUnused_carried _ v) _)

/-- The registers of a pair's state at their reset values (R235, R237). -/
def pairCleared (d m : Nat) (s : State) : State :=
  let s := ((s.put (.prs .xMST) 0 d m).put (.prs .xME) 0 d m).put (.prs .MERGE_STAT_SKEW_MAX) 0 d m
  let s := (s.put (.prs .MERGE_STAT_A_OK) 0 d m).put (.prs .MERGE_STAT_B_OK) 0 d m
  (s.put (.prs .xMLAST) 0 d m 0).put (.prs .xMLAST) 0 d m 1

theorem mergeReset_eq (d m : Nat) (s : State) : mergeReset d m s = pairCleared d m (unheld d m s) := rfl

theorem pairCleared_reads (d m : Nat) (s : State) :
    (pairCleared d m s).get (.prs .MERGE_STAT_SKEW_MAX) d m = 0 ∧ (pairCleared d m s).flag (.prs .MERGE_STAT_A_OK) d m = false ∧
    (pairCleared d m s).flag (.prs .MERGE_STAT_B_OK) d m = false := by
  simp [pairCleared, Key.cut]

theorem pairCleared_frame (d m : Nat) (s : State) : Frame (fun k => k.fld.home == .prs && k.i == d && k.j == m) s (pairCleared d m s) :=
  ((((((pairPut_frame _ _ _ _).trans (pairPut_frame _ _ _ _)).trans (pairPut_frame _ _ _ _)).trans (pairPut_frame _ _ _ _)).trans
    (pairPut_frame _ _ _ _)).trans (pairPut_frame _ _ _ _)).trans (pairPut_frame _ _ _ _)

theorem mergeReset_same (d m : Nat) (s : State) :
    (mergeReset d m s).mheld = s.mheld.filter (fun h => !(h.die == d && h.pair == m)) ∧ SameBytes s (mergeReset d m s) ∧
    SameRegs (pairKeys d m) s (mergeReset d m s) := by
  obtain ⟨hregs, hbytes, -, -, -, hheld, -⟩ := unheld_carried d m s
  rw [mergeReset_eq]
  have hclear := pairCleared_frame d m (unheld d m s)
  obtain ⟨-, -, -, hkept, -⟩ := hclear.traffic
  exact ⟨hkept.trans (hheld rfl), SameBytes.trans hbytes hclear.bytes, (hregs.pair_of_pool m).trans hclear.pair⟩

/-- A pair with its state reset, before its new settings. -/
def pairReset (d m : Nat) (s : State) : State := if (s.heldOf d m).isEmpty then mergeReset d m s else poolSettle d (mergeReset d m s)

theorem pairReset_carried (d m : Nat) (s : State) : Carried poolKeys (mergeReset d m s) (pairReset d m s) :=
  .ite (.refl _ _) (poolSettle_carried _ _)

/-- The new settings of a pair (R235). -/
def pairSet (d m v : Nat) (s : State) : State :=
  (((s.put (.prs .MERGE_FLOW_A) (bitsOf v 0 12) d m).put (.prs .MERGE_FLOW_B) (bitsOf v 16 12) d m).put (.prs .MERGE_SEQ) (bitsOf v 29 2) d m).put
    (.prs .MERGE_EN) (bitsOf v 31 1) d m

theorem mergeWrite_eq (d m v : Nat) (s : State) : mergeWrite d m v s = pairSet d m v (pairReset d m s) := rfl

theorem pairSet_reads (d m v : Nat) (s : State) :
    (pairSet d m v s).get (.prs .MERGE_FLOW_A) d m = bitsOf v 0 12 ∧ (pairSet d m v s).get (.prs .MERGE_FLOW_B) d m = bitsOf v 16 12 ∧
    (pairSet d m v s).get (.prs .MERGE_SEQ) d m = bitsOf v 29 2 ∧ (pairSet d m v s).get (.prs .MERGE_EN) d m = bitsOf v 31 1 := by
  simp [pairSet, Key.cut, Fld.width, Prs.width, bitsOf]

theorem pairSet_frame (d m v : Nat) (s : State) : Frame (fun k => k.fld == .prs .MERGE_FLOW_A || k.fld == .prs .MERGE_FLOW_B ||
    k.fld == .prs .MERGE_SEQ || k.fld == .prs .MERGE_EN) s (pairSet d m v s) :=
  (((Frame.put _ _ _ _ _ _ rfl).trans (Frame.put _ _ _ _ _ _ rfl)).trans (Frame.put _ _ _ _ _ _ rfl)).trans (Frame.put _ _ _ _ _ _ rfl)

theorem pairSet_pair (d m v : Nat) (s : State) : SameRegs (pairKeys d m) s (pairSet d m v s) :=
  (((pairPut_frame _ _ _ _).trans (pairPut_frame _ _ _ _)).trans ((pairPut_frame _ _ _ _).trans (pairPut_frame _ _ _ _))).pair

/-- A write of a pair takes its settings and resets its state (R235). -/
theorem mergeWrite_resets (d m v : Nat) (s : State) :
    (mergeWrite d m v s).get (.prs .MERGE_STAT_SKEW_MAX) d m = 0 ∧ (mergeWrite d m v s).flag (.prs .MERGE_STAT_A_OK) d m = false ∧
    (mergeWrite d m v s).flag (.prs .MERGE_STAT_B_OK) d m = false ∧
    (mergeWrite d m v s).mheld = s.mheld.filter (fun h => !(h.die == d && h.pair == m)) ∧ SameBytes s (mergeWrite d m v s) ∧
    SameRegs (pairKeys d m) s (mergeWrite d m v s) := by
  rw [mergeWrite_eq]
  obtain ⟨hskew, ha, hb⟩ := pairCleared_reads d m (unheld d m s)
  rw [← mergeReset_eq] at hskew ha hb
  obtain ⟨hheld, hbytes, hregs⟩ := mergeReset_same d m s
  have hpool := pairReset_carried d m s
  have hset := pairSet_frame d m v (pairReset d m s)
  refine ⟨?_, ?_, ?_, ?_, ?_, (hregs.trans (hpool.regs.pair_of_pool m)).trans (pairSet_pair d m v _)⟩
  · exact (hset.regs.get rfl).trans ((hpool.regs.get rfl).trans hskew)
  · exact (hset.regs.flag rfl).trans ((hpool.regs.flag rfl).trans ha)
  · exact (hset.regs.flag rfl).trans ((hpool.regs.flag rfl).trans hb)
  · exact (hpool.held rfl).trans hheld
  · exact SameBytes.trans hbytes (SameBytes.trans hpool.bytes hset.bytes)

-- Lines that stay bad

/-- What a record may touch once its class has counted: the records, the ring and the event (R462, R463). -/
def recordedKeys (k : Key) : Bool := recKeys k && k.fld != .flt .CNT

theorem recordedPut_regs (f : Flt) (v i j : Nat) (s : State) (hf : recordedKeys ⟨.flt f, i, j, 0⟩ = true := by rfl) :
    SameRegs recordedKeys s (s.put (.flt f) v i j) := SameRegs.put _ _ _ _ _ _ _ hf

theorem recordedPulse_regs (n det : Nat) (s : State) : SameRegs recordedKeys s (evPulse n det s) :=
  (evPulse_frame n det s).regs.mono (fun k hk => by
    have hf : k.fld ≠ .flt .CNT := fun e => by simp [evcKeys, e, Fld.home] at hk
    simp [recordedKeys, recKeys, hk, hf])

/-- A recorded occurrence counts in its class, and is written down after that (R462). -/
theorem record_counted {o : Occ} {c : Nat} (hc : faultClass o.code = some c) (wire inj : Bool) (s : State) :
    SameRegs recordedKeys (s.bump (.flt .CNT) c) (record o wire inj s) := by
  unfold record
  rw [hc]
  dsimp only
  split
  · exact ((recordedPut_regs .REC_WORD _ _ _ _).trans (recordedPut_regs .REC_WORD _ _ _ _)).trans (recordedPulse_regs _ _ _)
  · refine SameRegs.trans ?_ (((recordedPut_regs .RING_HEAD _ _ _ _).trans (recordedPut_regs .RING_TOTAL _ _ _ _)).trans (recordedPulse_regs _ _ _))
    refine (((Frame.free _).trans (Frame.forEach _ _ (fun _ _ _ => Frame.put _ _ _ _ _ _ ?_) _)).trans (Frame.when _ _ (fun _ =>
      Frame.forEach _ _ (fun _ _ _ => Frame.put _ _ _ _ _ _ ?_) _))).regs <;> rfl

theorem record_counts {o : Occ} {c : Nat} (hc : faultClass o.code = some c) (wire inj : Bool) (s : State) :
    (record o wire inj s).get (.flt .CNT) c = (s.get (.flt .CNT) c + 1) % 2 ^ 64 :=
  ((record_counted hc wire inj s).get rfl).trans (count_reads (.flt .CNT) c 0 1 s rfl).1

/-- A line that stays bad is marked, and its fault counts (R226). -/
theorem nodeRefetch_bad (line : Nat) :
    (nodeRefetch d line false s).flag (.prs .xNODE_BAD) d line = true ∧
    (nodeRefetch d line false s).get (.prs .CNT) d 8 = (s.get (.prs .CNT) d 8 + 1) % 2 ^ 64 ∧
    (nodeRefetch d line false s).get (.flt .CNT) 2 = (s.get (.flt .CNT) 2 + 1) % 2 ^ 64 ∧
    Frame (fun k => k == ⟨.prs .CNT, d, 8, 0⟩ || k == ⟨.prs .xNODE_BAD, d, line, 0⟩ || fltKeys k) s (nodeRefetch d line false s) := by
  have e : nodeRefetch d line false s = (raise 0x46 d line 3 (s.bump (.prs .CNT) d 8)).put (.prs .xNODE_BAD) 1 d line := rfl
  obtain ⟨hcnt, hbump⟩ := count_reads (.prs .CNT) d 8 1 s rfl
  have hraise := raise_minor_frame (code := 0x46) 2 rfl (by decide) d line 3 (s.bump (.prs .CNT) d 8)
  have hclass : (raise 0x46 d line 3 (s.bump (.prs .CNT) d 8)).get (.flt .CNT) 2 = (s.get (.flt .CNT) 2 + 1) % 2 ^ 64 := by
    rw [raise_minor 2 rfl (by decide), record_counts (c := 2) rfl, hbump.regs.get rfl]
  rw [e]
  refine ⟨?_, ?_, ?_, ?_⟩
  · rw [flag_put_same]
    rfl
  · rw [State.get_put_fld _ _ _ _ _ _ _ _ _ _ (by decide), hraise.regs.get rfl, hcnt]
  · rw [State.get_put_fld _ _ _ _ _ _ _ _ _ _ (by decide), hclass]
  · exact ((hbump.mono (fun k hk => by simp [hk])).trans (hraise.mono (fun k hk => by simp [hk]))).trans (Frame.put _ _ _ _ _ _ (by simp))

-- The statement

section
variable {p : Party} {d : Die} {v : Word} (hl : s.live = true) (hg : s.gateOf p .prs (some d.val) = .pass)
include hl hg

/-- The staged accesses, from what their write does to the state as found. -/
theorem exec_nodeRead : exec (.nodeRead p d v) s = .next (s.commit (nodeAddrWrite d (withBits v.toNat 16 1 1) s.quiet)) :=
  exec_gated_pass rfl hl hg

theorem exec_nodeWrite : exec (.nodeWrite p d v) s = .next (s.commit (nodeAddrWrite d (withBits v.toNat 17 1 1) s.quiet)) :=
  exec_gated_pass rfl hl hg

theorem nodeRead_reads (hw : bitOf v.toNat 17 = false) : ∃ t, exec (.nodeRead p d v) s = .next t ∧
    t.get (.prs .NODE_LO_NODE_LO) d = s.get (.prs .xNODE) d (v.toNat % 65536) % 2 ^ 32 ∧
    t.get (.prs .NODE_HI_NODE_HI) d = s.get (.prs .xNODE) d (v.toNat % 65536) / 2 ^ 32 % 2 ^ 32 ∧
    Frame (fun k => k.i == d.val && (k.fld == .prs .NODE_ADDR_INDEX || k.fld == .prs .NODE_LO_NODE_LO ||
      k.fld == .prs .NODE_HI_NODE_HI)) s t := by
  obtain ⟨hset, hother, hindex⟩ := withBits_nodeRead v.toNat
  obtain ⟨hlo, hhi, hframe⟩ := nodeAddrWrite_reads (d := d) (s := s.quiet) hset (hother.trans hw)
  rw [hindex, State.get_quiet] at hlo hhi
  exact ⟨_, exec_nodeRead hl hg, (State.get_commit ..).trans hlo, (State.get_commit ..).trans hhi, Frame.ofQuiet hframe⟩

theorem nodeWrite_writes (hr : bitOf v.toNat 16 = false) : ∃ t, exec (.nodeWrite p d v) s = .next t ∧
    t.get (.prs .xNODE) d (v.toNat % 65536) =
      (s.get (.prs .NODE_HI_NODE_HI) d * 2 ^ 32 + s.get (.prs .NODE_LO_NODE_LO) d) % 2 ^ 64 ∧
    t.flag (.prs .xNODE_BAD) d (v.toNat % 65536 / 4) = false ∧
    Frame (fun k => k.i == d.val && (k.fld == .prs .NODE_ADDR_INDEX ||
      k == ⟨.prs .xNODE, d, v.toNat % 65536, 0⟩ || k == ⟨.prs .xNODE_BAD, d, v.toNat % 65536 / 4, 0⟩)) s t := by
  obtain ⟨hset, hother, hindex⟩ := withBits_nodeWrite v.toNat
  obtain ⟨hnode, hbad, hframe⟩ := nodeAddrWrite_writes (d := d) (s := s.quiet) (hother.trans hr) hset
  rw [hindex] at hnode hbad hframe
  rw [State.get_quiet, State.get_quiet] at hnode
  exact ⟨_, exec_nodeWrite hl hg, (State.get_commit ..).trans hnode, (State.flag_commit ..).trans hbad, Frame.ofQuiet hframe⟩

theorem nodeAccess_both : (bitOf v.toNat 17 = true → ∃ t, exec (.nodeRead p d v) s = .next t ∧ Still s t) ∧
    (bitOf v.toNat 16 = true → ∃ t, exec (.nodeWrite p d v) s = .next t ∧ Still s t) := by
  obtain ⟨hread, hreadOther, -⟩ := withBits_nodeRead v.toNat
  obtain ⟨hwrite, hwriteOther, -⟩ := withBits_nodeWrite v.toNat
  refine ⟨fun hw => ⟨_, exec_nodeRead hl hg, ?_⟩, fun hr => ⟨_, exec_nodeWrite hl hg, ?_⟩⟩
  · rw [nodeAddrWrite_both hread (hreadOther.trans hw)]
    exact Frame.ofQuiet (Frame.refl _ _)
  · rw [nodeAddrWrite_both (hwriteOther.trans hr) hwrite]
    exact Frame.ofQuiet (Frame.refl _ _)

theorem exec_publish : exec (.publish p d v) s = .next (s.commit (genCtrlWrite d (withBits v.toNat 0 1 1) s.quiet)) :=
  exec_gated_pass rfl hl hg

/-- One that waits already takes no second (R229). -/
theorem publish_pending (h : s.flag (.prs .GEN_STATUS_PUB_PENDING) d = true) :
    ∃ t, exec (.publish p d v) s = .next t ∧ t.ruleSlot d = s.ruleSlot d ∧
      Frame (fun k => k == ⟨.prs .GEN_CTRL_HO_EN, d, 0, 0⟩ || k == ⟨.prs .GEN_CTRL_HO_SLOT, d, 0, 0⟩) s t := by
  have hframe := Frame.ofQuiet (hoWritten_frame d (withBits v.toNat 0 1 1) s.quiet)
  refine ⟨_, (exec_publish hl hg).trans (by rw [genCtrlWrite_pending (s := s.quiet) h]), hframe.regs.get (by simp), hframe⟩

/-- A publication at once swaps the slots, or is refused (R229). -/
theorem publish_now (h : s.flag (.prs .GEN_STATUS_PUB_PENDING) d = false) (hn : bitOf v.toNat 1 = false) :
    (s.slotOld d = false → ∃ t, exec (.publish p d v) s = .next t ∧
      t.ruleSlot d = (1 - s.ruleSlot d) % 2 ∧ t.flag (.prs .xOLD) d = true ∧
      t.get (.prs .GEN_STATUS_GEN) d = (s.get (.prs .GEN_STATUS_GEN) d + 1) % 2 ^ 16 ∧ Frame (ruleKeys d) s t) ∧
    (s.slotOld d = true → ∃ t, exec (.publish p d v) s = .next t ∧
      t.ruleSlot d = s.ruleSlot d ∧ t.flag (.prs .GEN_STATUS_PUB_BUSY) d = true ∧
      t.get (.prs .GEN_STATUS_GEN) d = s.get (.prs .GEN_STATUS_GEN) d ∧ Frame (ruleKeys d) s t) := by
  have hpub : bitOf (withBits v.toNat 0 1 1) 0 = true := by rw [bitOf_withBits _ (by decide) (by decide)]; rfl
  have hnow : bitOf (withBits v.toNat 0 1 1) 1 = false := by rw [bitOf_withBits _ (by decide) (by decide), hn]; rfl
  generalize hx : withBits v.toNat 0 1 1 = x at hpub hnow
  have hexec : exec (.publish p d v) s = .next (s.commit (publishNow d (hoWritten d x s.quiet))) :=
    (exec_publish hl hg).trans (by rw [hx, genCtrlWrite_now (s := s.quiet) h hpub hnow])
  have hslot : (hoWritten d x s.quiet).ruleSlot d = s.ruleSlot d := hoWritten_get
  have hgen : (hoWritten d x s.quiet).get (.prs .GEN_STATUS_GEN) d = s.get (.prs .GEN_STATUS_GEN) d := hoWritten_get
  have hold : (hoWritten d x s.quiet).slotOld d = s.slotOld d := hoWritten_slotOld
  refine ⟨fun ho => ?_, fun ho => ?_⟩
  · obtain ⟨hswap, hmark, hcount, hframe⟩ := publishNow_swaps (hold.trans ho)
    rw [hslot] at hswap
    rw [hgen] at hcount
    exact ⟨_, hexec, hswap, hmark, (State.get_commit ..).trans hcount, Frame.ofQuiet ((hoWritten_prs d x _).rule.trans hframe)⟩
  · obtain ⟨hkeep, hbusy, hcount, hframe⟩ := publishNow_refused (hold.trans ho)
    exact ⟨_, hexec, hkeep.trans hslot, hbusy, hcount.trans hgen, Frame.ofQuiet ((hoWritten_prs d x _).rule.trans hframe)⟩

/-- A publication for a handover waits (R229). -/
theorem publish_waits (h : s.flag (.prs .GEN_STATUS_PUB_PENDING) d = false) (hn : bitOf v.toNat 1 = true) :
    ∃ t, exec (.publish p d v) s = .next t ∧ t.flag (.prs .GEN_STATUS_PUB_PENDING) d = true ∧ t.ruleSlot d = s.ruleSlot d ∧
      Frame (fun k => k.fld.home == .prs && k.i == d.val) s t := by
  have hpub : bitOf (withBits v.toNat 0 1 1) 0 = true := by rw [bitOf_withBits _ (by decide) (by decide)]; rfl
  have hho : bitOf (withBits v.toNat 0 1 1) 1 = true := by rw [bitOf_withBits _ (by decide) (by decide), hn]; rfl
  generalize hx : withBits v.toNat 0 1 1 = x at hpub hho
  refine ⟨_, (exec_publish hl hg).trans (by rw [hx, genCtrlWrite_handover (s := s.quiet) h hpub hho]), ?_, ?_, ?_⟩
  · rw [State.flag_commit, flag_put_same]
    rfl
  · simp only [State.ruleSlot, State.get_commit]
    rw [State.get_put_fld _ _ _ _ _ _ _ _ _ _ (by decide), State.get_put_fld _ _ _ _ _ _ _ _ _ _ (by decide),
      State.get_put_fld _ _ _ _ _ _ _ _ _ _ (by decide), hoWritten_get, State.get_quiet]
  · exact Frame.ofQuiet ((((hoWritten_prs d x _).trans (rulePut_frame _ _ _ _ _)).trans (rulePut_frame _ _ _ _ _)).trans (rulePut_frame _ _ _ _ _))

theorem exec_portModeChange (pp : Fin 2) : exec (.portModeChange p d pp v) s = .next (s.commit (portCfgWrite d pp v.toNat s.quiet)) :=
  exec_gated_pass rfl hl hg

/-- A change of MODE with a sub-port enabled is ignored whole (R210). -/
theorem portMode_refused (pp : Fin 2) (hm : bitsOf v.toNat 0 2 ≠ s.get (.prs .PORT_CFG_MODE) d pp)
    (he : s.get (.prs .PORT_CFG_EN) d pp ≠ 0) : ∃ t, exec (.portModeChange p d pp v) s = .next t ∧ Still s t :=
  ⟨_, (exec_portModeChange hl hg pp).trans (by rw [portCfgWrite_refused (s := s.quiet) hm he]), Frame.ofQuiet (Frame.refl _ _)⟩

/-- A change of MODE with none enabled takes every setting, and the port's links fall (R210). -/
theorem portMode_changes (pp : Fin 2) (hm : bitsOf v.toNat 0 2 ≠ s.get (.prs .PORT_CFG_MODE) d pp)
    (he : s.get (.prs .PORT_CFG_EN) d pp = 0) :
    ∃ t, exec (.portModeChange p d pp v) s = .next t ∧ t.get (.prs .PORT_CFG_MODE) d pp = bitsOf v.toNat 0 2 ∧
      t.get (.prs .PORT_CFG_EN) d pp = bitsOf v.toNat 4 4 ∧ t.get (.prs .PORT_CFG_MTU) d pp = bitsOf v.toNat 16 14 ∧
      t.get (.prs .PORT_CFG_LINK_UP) d pp = 0 ∧ Frame (fun k => k.fld.home == .prs && k.i == d.val && k.j == pp.val) s t := by
  obtain ⟨hen, hmtu⟩ := portSet_reads d pp v.toNat s.quiet
  refine ⟨_, (exec_portModeChange hl hg pp).trans (by rw [portCfgWrite_changes (s := s.quiet) hm he]), ?_, ?_, ?_, ?_, Frame.ofQuiet ?_⟩
  · rw [State.get_commit, State.get_put_same]
    exact Key.cut_fit _ _ (bitsOf_lt _ _ _)
  · rw [State.get_commit, State.get_put_fld _ _ _ _ _ _ _ _ _ _ (by decide), State.get_put_fld _ _ _ _ _ _ _ _ _ _ (by decide), hen]
  · rw [State.get_commit, State.get_put_fld _ _ _ _ _ _ _ _ _ _ (by decide), State.get_put_fld _ _ _ _ _ _ _ _ _ _ (by decide), hmtu]
  · rw [State.get_commit, State.get_put_fld _ _ _ _ _ _ _ _ _ _ (by decide), State.get_put_same]
    rfl
  · exact (((pairPut_frame _ _ _ _).trans (pairPut_frame _ _ _ _)).trans (pairPut_frame _ _ _ _)).trans (pairPut_frame _ _ _ _)

/-- A write that leaves MODE alone takes the enables and the MTU, and the queues of a sub-port that it turns off are empty (R210, R269). -/
theorem portMode_keeps (pp : Fin 2) (hm : bitsOf v.toNat 0 2 = s.get (.prs .PORT_CFG_MODE) d pp) :
    ∃ t, exec (.portModeChange p d pp v) s = .next t ∧
      t.get (.prs .PORT_CFG_EN) d pp = bitsOf v.toNat 4 4 ∧ t.get (.prs .PORT_CFG_MTU) d pp = bitsOf v.toNat 16 14 ∧
      t.get (.prs .PORT_CFG_LINK_UP) d pp = s.get (.prs .PORT_CFG_LINK_UP) d pp ∧ SameBytes s t ∧
      (∀ c ∈ t.copies, c ∈ s.copies) ∧
      ∀ c ∈ t.copies, ∀ k < 4, c.iface = 8 * d.val + 4 * pp.val + k → bitOf (s.get (.prs .PORT_CFG_EN) d pp) k = true →
        bitOf (bitsOf v.toNat 4 4) k = true := by
  obtain ⟨hen, hmtu⟩ := portSet_reads d pp v.toNat s.quiet
  have hset : Frame (fun k => k.fld == .prs .PORT_CFG_EN || k.fld == .prs .PORT_CFG_MTU) s.quiet (portSet d pp v.toNat s.quiet) :=
    (Frame.put _ _ _ _ _ _ rfl).trans (Frame.put _ _ _ _ _ _ rfl)
  obtain ⟨hregs, hbytes, hcopies⟩ := emptied_spec d pp (turnedOff (s.get (.prs .PORT_CFG_EN) d pp) v.toNat) (portSet d pp v.toNat s.quiet)
  have hexec := exec_portModeChange (v := v) hl hg pp
  rw [portCfgWrite_keeps (s := s.quiet) hm, State.get_quiet] at hexec
  refine ⟨_, hexec, ?_, ?_, ?_, ?_, fun c hc => (hcopies c hc).1, fun c hc k hk hi he => ?_⟩
  · exact (hregs.get rfl).trans hen
  · exact (hregs.get rfl).trans hmtu
  · exact (hregs.get rfl).trans (hset.regs.get rfl)
  · exact SameBytes.trans hset.bytes hbytes
  · cases hv : bitOf (bitsOf v.toNat 4 4) k with
    | true => rfl
    | false => exact absurd (List.mem_map.mpr ⟨k, mem_turnedOff hk he hv, hi.symm⟩) (hcopies c hc).2

/-- A write of a merge pair (R235). -/
theorem mergePairWrite_resets (m : Pair) : ∃ t, exec (.mergePairWrite p d m v) s = .next t ∧
    t.get (.prs .MERGE_FLOW_A) d m = bitsOf v.toNat 0 12 ∧ t.get (.prs .MERGE_FLOW_B) d m = bitsOf v.toNat 16 12 ∧
    t.get (.prs .MERGE_SEQ) d m = bitsOf v.toNat 29 2 ∧
    t.get (.prs .MERGE_EN) d m = bitsOf v.toNat 31 1 ∧ t.get (.prs .MERGE_STAT_SKEW_MAX) d m = 0 ∧
    t.flag (.prs .MERGE_STAT_A_OK) d m = false ∧ t.flag (.prs .MERGE_STAT_B_OK) d m = false ∧
    t.mheld = s.mheld.filter (fun h => !(h.die == d.val && h.pair == m.val)) ∧ SameBytes s t ∧ SameRegs (pairKeys d m) s t := by
  obtain ⟨ha, hb, hseq, hen⟩ := pairSet_reads d m v.toNat (pairReset d m s.quiet)
  rw [← mergeWrite_eq] at ha hb hseq hen
  exact ⟨_, exec_gated_pass rfl hl hg, ha, hb, hseq, hen, mergeWrite_resets d m v.toNat s.quiet⟩

end

/-- What a command of a die that runs leaves outside the safe state. -/
theorem exec_run_open {i : Instr} {f : State → State} (he : exec i s = s.run (fun s => s.when (!s.safe && s.dieUp d) f))
    (hl : s.live = true) (hs : s.safe = false) (hd : s.dieUp d = true) : exec i s = .next (s.commit (f s.quiet)) := by
  rw [he, State.run_live _ _ hl, when_open (s := s.quiet) hs hd]

theorem exec_run_shut_still {i : Instr} {f : State → State} (he : exec i s = s.run (fun s => s.when (!s.safe && s.dieUp d) f))
    (hl : s.live = true) (h : s.safe = true ∨ s.dieUp d = false) : ∃ t, exec i s = .next t ∧ Still s t := by
  refine ⟨_, by rw [he, State.run_live _ _ hl, when_shut (s := s.quiet) h], Frame.ofQuiet (Frame.refl _ _)⟩

/-- Settles O41: each of the commands is its write or its effect on the state as found, and of each the lemmas above say what it takes
and what it leaves. -/
theorem ruleSets : Obligations.RuleSets := by
  unfold Obligations.RuleSets
  refine ⟨fun p d v s hl hg => ⟨nodeRead_reads hl hg, nodeWrite_writes hl hg, nodeAccess_both hl hg, publish_pending hl hg,
    fun h => ⟨fun hn => (publish_now hl hg h hn).1, fun hn => (publish_now hl hg h hn).2, publish_waits hl hg h⟩,
    fun pp => ⟨portMode_refused hl hg pp, portMode_changes hl hg pp, portMode_keeps hl hg pp⟩, mergePairWrite_resets hl hg⟩,
    fun d s hl => ⟨exec_run_shut_still rfl hl, fun hs hd => ⟨fun ho hold => ?_, fun h => ?_⟩, fun line =>
      ⟨fun h good => exec_run_shut_still rfl hl h, fun hs hd => ⟨?_, ?_⟩⟩⟩⟩
  · obtain ⟨hoff, hpends⟩ := retireSlot_retires (s := s.quiet) d.isLt ho hold
    exact ⟨_, exec_run_open rfl hl hs hd, hoff, hpends, Frame.ofQuiet (retireSlot_oldFrame d _)⟩
  · refine ⟨_, exec_run_open rfl hl hs hd, ?_⟩
    rw [retireSlot_still (s := s.quiet) h]
    exact Frame.ofQuiet (Frame.refl _ _)
  · obtain ⟨hcnt, hframe⟩ := count_reads (.prs .CNT) d 8 1 s.quiet rfl
    exact ⟨_, exec_run_open rfl hl hs hd, hcnt, Frame.ofQuiet hframe⟩
  · obtain ⟨hbad, hcnt, hclass, hframe⟩ := nodeRefetch_bad (d := d) (s := s.quiet) line
    exact ⟨_, exec_run_open rfl hl hs hd, hbad, hcnt, hclass, Frame.ofQuiet hframe⟩

end Sys2Proof
end

section
/-!
PROOFS. The lookup of a route: the longest one that covers an address (R242).
-/

namespace Sys2Proof

open Machine

/-- One step of a route lookup: a route that covers the address takes the place of none, or of a shorter one (R242). -/
def longer (a : Nat) (b : Option Route) (r : Route) : Option Route :=
  if r.covers a then (match b with
    | none => some r
    | some q => if q.len < r.len then some r else some q) else b

theorem lpm_eq (s : State) (d fam a : Nat) : s.lpm d fam a = (s.routesOf d fam).foldl (longer a) none := rfl

theorem mem_routesOf {s : State} {d fam : Nat} {r : Route} : r ∈ s.routesOf d fam ↔ r ∈ s.routes ∧ r.die = d ∧ r.fam = fam := by
  simp [State.routesOf]

/-- What a lookup has found among the routes seen: one that covers the address, with none longer, or nothing where none covers it. -/
def Longest (a : Nat) (l : List Route) : Option Route → Prop
  | none => ∀ q ∈ l, q.covers a = false
  | some r => r ∈ l ∧ r.covers a = true ∧ ∀ q ∈ l, q.covers a = true → q.len ≤ r.len

variable {a : Nat} {l : List Route} {b : Option Route} {q r : Route}

theorem longer_uncovered (hr : r.covers a = false) : longer a b r = b := if_neg (by simp [hr])

theorem longer_none (hr : r.covers a = true) : longer a none r = some r := if_pos hr

theorem longer_some (hr : r.covers a = true) : longer a (some q) r = if q.len < r.len then some r else some q := if_pos hr

theorem Longest.uncovered (h : Longest a l b) (hr : r.covers a = false) : Longest a (l ++ [r]) b := by
  cases b with
  | none => exact List.forall_mem_append.mpr ⟨h, by simpa using hr⟩
  | some q =>
    obtain ⟨hq, hcov, hlen⟩ := h
    exact ⟨List.mem_append_left _ hq, hcov, List.forall_mem_append.mpr ⟨hlen, by simp [hr]⟩⟩

theorem Longest.first (h : Longest a l none) (hr : r.covers a = true) : Longest a (l ++ [r]) (some r) := by
  refine ⟨by simp, hr, List.forall_mem_append.mpr ⟨fun p hp hc => absurd hc (by simp [h p hp]), by simp⟩⟩

theorem Longest.longer_of (h : Longest a l (some q)) (hr : r.covers a = true) :
    Longest a (l ++ [r]) (if q.len < r.len then some r else some q) := by
  obtain ⟨hq, hcov, hlen⟩ := h
  split
  · next hlt => exact ⟨by simp, hr, List.forall_mem_append.mpr ⟨fun p hp hc => (hlen p hp hc).trans hlt.le, by simp⟩⟩
  · next hge => exact ⟨List.mem_append_left _ hq, hcov, List.forall_mem_append.mpr ⟨hlen, by simpa using fun _ => Nat.le_of_not_lt hge⟩⟩

theorem Longest.step (h : Longest a l b) (r : Route) : Longest a (l ++ [r]) (longer a b r) := by
  cases hr : r.covers a with
  | false => rw [longer_uncovered hr]; exact h.uncovered hr
  | true =>
    cases b with
    | none => rw [longer_none hr]; exact h.first hr
    | some q => rw [longer_some hr]; exact h.longer_of hr

theorem Longest.foldl {m : List Route} (h : Longest a l b) : Longest a (l ++ m) (m.foldl (longer a) b) := by
  induction m generalizing l b with
  | nil => rwa [List.append_nil]
  | cons r m ih => rw [List.append_cons]; exact ih (h.step r)

/-- What a lookup finds is the longest route among those of its die and family (R242). -/
theorem lpm_longest (s : State) (d fam a : Nat) : Longest a (s.routesOf d fam) (s.lpm d fam a) :=
  Longest.foldl (l := []) (b := none) (fun _ hq => absurd hq List.not_mem_nil)

/-- Settles O43, by the invariant of the lookup's fold over the routes seen so far. -/
theorem longestPrefix : Obligations.LongestPrefix := by
  unfold Obligations.LongestPrefix
  intro d fam a s
  have h := lpm_longest s d fam a
  refine ⟨fun r hr => ?_, fun hnone q hq hdie hfam => ?_⟩
  · rw [hr] at h
    obtain ⟨hmem, hcov, hlen⟩ := h
    obtain ⟨hr, hdie, hfam⟩ := mem_routesOf.mp hmem
    exact ⟨hr, hdie, hfam, hcov, fun q hq hd hf => hlen q (mem_routesOf.mpr ⟨hq, hd, hf⟩)⟩
  · rw [hnone] at h
    exact h q (mem_routesOf.mpr ⟨hq, hdie, hfam⟩)

end Sys2Proof
end

section
/-!
PROOFS. A refutation by a bridge entry whose interface is wider than its field: the data word that a READ stages is a sum, and what
the interface holds beyond its four bits carries into VALID (R260, R265).
-/

namespace Sys2Proof

open Machine

/-- A bridge READ of slot 0 runs on die 0, and the slot holds an entry whose interface is 2^31 in four bits. -/
def ifaceWide : State :=
  holding (((State.reset.put (.fwd .BR_CMD_BUSY) 1).put (.fwd .xCMD_OP) 1 0 2).put (.fwd .xBR_VALID) 1)
    ⟨.fwd .xBR_IF, 0, 0, 0⟩ (2 ^ 31) (by decide)

/-- What the statement asks of a READ that finds an entry. -/
theorem ifaceWide_reads : ifaceWide.live = true ∧ (ifaceWide.atNow ⟨0, 0⟩).flag (.fwd .BR_CMD_BUSY) (0 : Die) = true ∧
    (ifaceWide.atNow ⟨0, 0⟩).get (.fwd .xCMD_OP) (0 : Die) 2 = 1 ∧
    ((ifaceWide.atNow ⟨0, 0⟩).br (0 : Die) ((ifaceWide.atNow ⟨0, 0⟩).get (.fwd .xCMD_IX) (0 : Die) 2 % 32768)).valid = true := by decide +kernel

/-- The interface and VALID of the entry add up to 2^32, and bit 31 of the staged word is 0. -/
theorem ifaceWide_staged :
    (leaves (.tableCmdComplete 0 .bridge ⟨false, []⟩ ⟨0, 0⟩) ifaceWide).flag (.fwd .BR_DATA_VALID) (0 : Die) = false := by decide +kernel

/-- By the statement a bridge READ that finds an entry stages VALID. -/
theorem valid_of_tableEnds (h : Obligations.TableEnds) {d : Die} {now : Now} {s : State} (hl : s.live = true)
    (hb : (s.atNow now).flag (.fwd .BR_CMD_BUSY) d = true) (hop : (s.atNow now).get (.fwd .xCMD_OP) d 2 = 1)
    (hv : ((s.atNow now).br d ((s.atNow now).get (.fwd .xCMD_IX) d 2 % 32768)).valid = true) :
    (leaves (.tableCmdComplete d .bridge ⟨false, []⟩ now) s).flag (.fwd .BR_DATA_VALID) d = true := by
  obtain ⟨-, -, -, hbridge, -⟩ := h.1 d now s _ hl rfl
  obtain ⟨hends, -⟩ := hbridge false [] 1 _ _ _ hb hop.symm rfl rfl rfl
  obtain ⟨t, ht, hread, -⟩ := hends (fun _ hn => absurd hn List.not_mem_nil)
  obtain ⟨-, -, -, hvalid⟩ := (hread rfl).2.1 _ rfl hv
  rw [leaves_of_next ht]
  exact hvalid

/-- Refutes O42: the statement takes every register store, and a READ of the entry of `ifaceWide`, whose interface the store holds as
2^31, stages VALID 0. -/
theorem not_tableEnds : ¬ Obligations.TableEnds := by
  intro h
  obtain ⟨hl, hb, hop, hv⟩ := ifaceWide_reads
  have hvalid := valid_of_tableEnds h (d := 0) hl hb hop hv
  exact absurd (ifaceWide_staged.symm.trans hvalid) (by decide)

end Sys2Proof
end

section
/-!
PROOFS. The upkeep of the tables: the slots of the learning bridge, the learn engine, the sweeps of the aging and the protection of
the lines (R251, R255 to R257, R262, R263).
-/

namespace Sys2Proof

open Machine

variable {B : Key → Bool} {s t u : State} {d m n : Nat} {e : BrEntry}

-- A bridge slot

/-- The fields of a bridge slot (R249, R255). -/
def entryFlds : List Fwd := [.xBR_VALID, .xBR_VID, .xBR_MAC, .xBR_IF, .xBR_STATIC, .xBR_HIT, .xBR_AGE, .xBR_SWEEP]

/-- The registers of one bridge slot. -/
def entryKeys (d n : Nat) (k : Key) : Bool := k.i == d && k.j == n && entryFlds.any (fun f => k.fld == .fwd f)

theorem entryKeys_iff {k : Key} : entryKeys d n k = true ↔ k.i = d ∧ k.j = n ∧ ∃ f ∈ entryFlds, k.fld = .fwd f := by
  simp [entryKeys, and_assoc]

theorem Frame.entryPut (h : Frame (entryKeys d n) s t) (f : Fwd) (v : Nat) (hf : f ∈ entryFlds := by decide) :
    Frame (entryKeys d n) s (t.put (.fwd f) v d n) :=
  h.trans (Frame.put _ _ _ _ _ _ (entryKeys_iff.mpr ⟨rfl, rfl, f, hf, rfl⟩))

theorem brPut_frame (d n : Nat) (e : BrEntry) (s : State) : Frame (entryKeys d n) s (brPut d n e s) :=
  ((((((((Frame.refl _ s).entryPut .xBR_VID _).entryPut .xBR_MAC _).entryPut .xBR_IF _).entryPut .xBR_STATIC _).entryPut
    .xBR_HIT _).entryPut .xBR_AGE _).entryPut .xBR_SWEEP _).entryPut .xBR_VALID _

/-- A one-bit field gives back the flag that it is set to. -/
theorem bit_of_flag (b : Bool) : ((if b = true then 1 else 0) % 2 == 1) = b := by cases b <;> rfl

/-- An entry written reads back, cut to the widths of its fields (R253). -/
theorem br_brPut_same (d n : Nat) (e : BrEntry) (s : State) : (brPut d n e s).br d n = e.cut := by
  simp [State.br, brPut, Machine.BrEntry.cut, State.putB_eq, Key.cut, Fld.width, Fwd.width, bit_of_flag]

/-- The entry of a slot rests on the slot's own registers. -/
theorem br_of_regs (h : SameRegs B s t) (hb : ∀ f ∈ entryFlds, B ⟨.fwd f, d, n, 0⟩ = false) : t.br d n = s.br d n := by
  have hget : ∀ f ∈ entryFlds, t.get (.fwd f) d n = s.get (.fwd f) d n := fun f hf => h.get (hb f hf)
  simp only [entryFlds, List.forall_mem_cons] at hget
  simp [State.br, State.flag_eq, hget]

/-- What a sweep marks and counts lies outside every slot. -/
theorem status_no_entry : ∀ f ∈ entryFlds, f ≠ .xAGE_DUE ∧ f ≠ .xAGED ∧ f ≠ .STATUS_PARITY ∧ f ≠ .STATUS_SWEEP_ACTIVE := by
  decide

theorem count_no_entry : ∀ f ∈ entryFlds, f ≠ .CNT ∧ f ≠ .xAGED := by decide

theorem fwd_of_entryKeys {k : Key} (h : entryKeys d n k = true) : k.fld.home = .fwd ∧ k.i = d ∧ k.j = n := by
  obtain ⟨hi, hj, f, -, hf⟩ := entryKeys_iff.mp h
  exact ⟨by rw [hf]; rfl, hi, hj⟩

theorem br_commit : (s.commit t).br d n = t.br d n := rfl

theorem brPut_kept (d n : Nat) (e : BrEntry) (s : State) : Kept s (brPut d n e s) :=
  ((((((Kept.put s _ _ _ _ _).trans (Kept.put _ _ _ _ _ _)).trans (Kept.put _ _ _ _ _ _)).trans (Kept.put _ _ _ _ _ _)).trans
    (Kept.put _ _ _ _ _ _)).trans (Kept.put _ _ _ _ _ _)).trans ((Kept.put _ _ _ _ _ _).trans (Kept.put _ _ _ _ _ _))

-- Insertions

theorem brMoves_kept (d : Nat) (l : List Nat) (target : Nat) (s : State) : Kept s (brMoves d l target s) := by
  induction l generalizing target s with
  | nil => exact Kept.refl s
  | cons w l ih => exact ((brPut_kept _ _ _ _).trans (brPut_kept _ _ _ _)).trans (ih _ _)

/-- An insertion changes registers alone (R252). -/
theorem brInsert_kept (h : brInsert d e s = some t) : Kept s t := by
  unfold brInsert at h
  dsimp only at h
  split at h
  · exact Option.some.inj h ▸ brPut_kept _ _ _ _
  · split at h
    · exact Option.some.inj h ▸ brPut_kept _ _ _ _
    · split at h
      · exact Option.some.inj h ▸ (brMoves_kept _ _ _ _).trans (brPut_kept _ _ _ _)
      · cases h

theorem brInsert_firstBucket (h : s.brFree d (brBuckets e.vid e.mac).1 = some n) : brInsert d e s = some (brPut d n e s) := by
  simp [brInsert, h]

-- The learn engine

/-- The state without the oldest learn request of a die (R251). -/
def learnTaken (d : Nat) (s : State) : State := { s with learns := s.learns.eraseP (fun x => x.die == d) }

/-- The entry that a learn request enters, with the sweep parity of its die (R251, R255). -/
def learnEntry (d : Nat) (l : Learn) (s : State) : BrEntry := { brLearned l with sweep := s.flag (.fwd .STATUS_PARITY) d }

section
variable {l : Learn}

theorem learnOne_idle (h : s.learns.find? (fun l => l.die == d) = none) : learnOne d s = s := by rw [learnOne, h]

theorem learnOne_takes (h : s.learns.find? (fun l => l.die == d) = some l) : learnOne d s =
    match (learnTaken d s).brFind d l.vid l.mac with
    | some n => (learnTaken d s).put (.fwd .xBR_HIT) 1 d n
    | none => match brInsert d (learnEntry d l s) (learnTaken d s) with
      | some t => t.bump (.fwd .CNT) d 6
      | none => (learnTaken d s).bump (.fwd .CNT) d 9 := by
  rw [learnOne, h]
  rfl

theorem learnOne_known (h : s.learns.find? (fun l => l.die == d) = some l) (hf : s.brFind d l.vid l.mac = some n) :
    learnOne d s = (learnTaken d s).put (.fwd .xBR_HIT) 1 d n := by
  have hf : (learnTaken d s).brFind d l.vid l.mac = some n := hf
  rw [learnOne_takes h, hf]

theorem learnOne_enters (h : s.learns.find? (fun l => l.die == d) = some l) (hf : s.brFind d l.vid l.mac = none)
    (hi : brInsert d (learnEntry d l s) (learnTaken d s) = some t) : learnOne d s = t.bump (.fwd .CNT) d 6 := by
  have hf : (learnTaken d s).brFind d l.vid l.mac = none := hf
  rw [learnOne_takes h, hf, hi]

theorem learnOne_drops (h : s.learns.find? (fun l => l.die == d) = some l) (hf : s.brFind d l.vid l.mac = none)
    (hi : brInsert d (learnEntry d l s) (learnTaken d s) = none) : learnOne d s = (learnTaken d s).bump (.fwd .CNT) d 9 := by
  have hf : (learnTaken d s).brFind d l.vid l.mac = none := hf
  rw [learnOne_takes h, hf, hi]

/-- A learn request whose key has a free way in its first bucket enters there (R251, R252). -/
theorem learnOne_firstBucket (h : s.learns.find? (fun l => l.die == d) = some l) (hf : s.brFind d l.vid l.mac = none)
    (hfree : s.brFree d (brBuckets l.vid l.mac).1 = some n) :
    (learnOne d s).br d n = (learnEntry d l s).cut ∧ (learnOne d s).get (.fwd .CNT) d 6 = (s.get (.fwd .CNT) d 6 + 1) % 2 ^ 64 ∧
    Frame (fun k => (k.fld.home == .fwd && k.i == d && k.j == n) || k == ⟨.fwd .CNT, d, 6, 0⟩) (learnTaken d s) (learnOne d s) := by
  rw [learnOne_enters h hf (brInsert_firstBucket hfree)]
  have hput := brPut_frame d n (learnEntry d l s) (learnTaken d s)
  obtain ⟨hcnt, hframe⟩ := count_reads (.fwd .CNT) d 6 1 (brPut d n (learnEntry d l s) (learnTaken d s)) rfl
  refine ⟨?_, ?_, (hput.mono fun k hk => ?_).trans (hframe.mono fun k hk => ?_)⟩
  · rw [br_of_regs hframe.regs (fun f hf => by simp [count_no_entry f hf]), br_brPut_same]
  · rw [hcnt, hput.regs.get (by simp [entryKeys, entryFlds])]
    rfl
  · obtain ⟨hhome, hi, hj⟩ := fwd_of_entryKeys hk
    simp [hhome, hi, hj]
  · rw [hk, Bool.or_true]

theorem learnOne_learns (h : s.learns.find? (fun l => l.die == d) = some l) (hf : s.brFind d l.vid l.mac = none) :
    (learnOne d s).learns = (learnTaken d s).learns := by
  cases hi : brInsert d (learnEntry d l s) (learnTaken d s) with
  | none => rw [learnOne_drops h hf hi]; rfl
  | some t =>
    obtain ⟨st, ff, os, rfl⟩ := brInsert_kept hi
    rw [learnOne_enters h hf hi]
    rfl

end

-- The sweeps of the aging

theorem ageExpiry_due (h : s.expired (.fwd .xAGE_NEXT) d = true) : ageExpiry d s =
    ((s.put (.fwd .xAGE_NEXT) (s.dueIn (s.agePeriodNs d)) d).put (.fwd .xAGE_DUE) 1 d).put (.fwd .xAGE_TAI)
      (if s.tbState = tbFREE then 0 else s.tai) d := if_pos h

/-- A period that passes makes a sweep due, and the next period runs (R255, R256). -/
theorem ageExpiry_passes (h : s.expired (.fwd .xAGE_NEXT) d = true) :
    (ageExpiry d s).flag (.fwd .xAGE_DUE) d = true ∧ (ageExpiry d s).get (.fwd .xAGE_NEXT) d = s.dueIn (s.agePeriodNs d) % 2 ^ 64 ∧
    (ageExpiry d s).get (.fwd .xAGE_TAI) d = (if s.tbState = tbFREE then 0 else s.tai) ∧
    Frame (fun k => k == ⟨.fwd .xAGE_DUE, d, 0, 0⟩ || k == ⟨.fwd .xAGE_NEXT, d, 0, 0⟩ || k == ⟨.fwd .xAGE_TAI, d, 0, 0⟩) s
      (ageExpiry d s) := by
  rw [ageExpiry_due h]
  refine ⟨?_, ?_, ?_, ((Frame.put _ _ _ _ _ _ (by simp)).trans (Frame.put _ _ _ _ _ _ (by simp))).trans (Frame.put _ _ _ _ _ _ (by simp))⟩ <;>
    simp [Key.cut, Fld.width, Fwd.width]

theorem ageExpiry_waits (h : s.expired (.fwd .xAGE_NEXT) d = false) : ageExpiry d s = s := if_neg (by simp [h])

/-- What one slot of a sweep may touch: its entry, and the counts of what is removed (R255). -/
def sweptKeys (d n : Nat) (k : Key) : Bool := entryKeys d n k || k == ⟨.fwd .CNT, d, 10, 0⟩ || k == ⟨.fwd .xAGED, d, 0, 0⟩

/-- What a whole sweep may touch (R255). -/
def sweepKeys (d : Nat) (k : Key) : Bool := k.i == d && (.xAGED :: .CNT :: entryFlds).any (fun f => k.fld == .fwd f)

theorem sweepKeys_of_sweptKeys {k : Key} (h : sweptKeys d n k = true) : sweepKeys d k = true := by
  simp only [sweptKeys, Bool.or_eq_true, beq_iff_eq] at h
  rcases h with (h | rfl) | rfl
  · obtain ⟨hi, -, f, hf, hfld⟩ := entryKeys_iff.mp h
    have hany : ∃ f ∈ entryFlds, k.fld = .fwd f := ⟨f, hf, hfld⟩
    simp [sweepKeys, hi, hany]
  · simp [sweepKeys]
  · simp [sweepKeys]

theorem fwd_of_sweepKeys {k : Key} (h : sweepKeys d k = true) : (k.fld.home == .fwd && k.i == d) = true := by
  simp only [sweepKeys, Bool.and_eq_true, beq_iff_eq, List.any_eq_true] at h
  obtain ⟨hi, f, -, hf⟩ := h
  simp [hi, hf, Fld.home]

theorem sweepSlot_frame (d : Nat) (p : Bool) (n : Nat) (s : State) : Frame (sweptKeys d n) s (sweepSlot d p n s) := by
  have hput (e : BrEntry) (s : State) : Frame (sweptKeys d n) s (brPut d n e s) :=
    (brPut_frame d n e s).mono (fun k hk => by simp [sweptKeys, hk])
  unfold sweepSlot
  dsimp only
  refine Frame.ite (Frame.ite (hput _ s) (Frame.ite (hput _ s) ?_)) (Frame.refl _ s)
  exact ((hput _ s).trans (Frame.bump _ _ _ _ _ _ (by simp [sweptKeys]))).trans (Frame.bumpSat _ _ _ _ _ _ (by simp [sweptKeys]))

theorem sweepSlot_keeps_static (p : Bool) (h : (s.br d n).static = true) : sweepSlot d p n s = s :=
  if_neg (by simp [h])

/-- No slot of a sweep changes a static entry (R255). -/
theorem br_sweepSlot_static (p : Bool) (m : Nat) (h : (s.br d n).static = true) : (sweepSlot d p m s).br d n = s.br d n := by
  by_cases e : m = n
  · subst e
    rw [sweepSlot_keeps_static p h]
  · refine br_of_regs (sweepSlot_frame d p m s).regs fun f hf => ?_
    simp [sweptKeys, entryKeys, Ne.symm e, count_no_entry f hf]

/-- The slots of a sweep. -/
def swept (d : Nat) (p : Bool) (s : State) : State := forEach (s.brSlots d) (sweepSlot d p) s

theorem swept_frame (d : Nat) (p : Bool) (s : State) : Frame (sweepKeys d) s (swept d p s) :=
  Frame.forEach _ _ (fun n _ _ => (sweepSlot_frame d p n _).mono (fun _ => sweepKeys_of_sweptKeys)) s

theorem br_swept_static (p : Bool) (h : (s.br d n).static = true) : (swept d p s).br d n = s.br d n :=
  forEach_inv (fun v => v.br d n = s.br d n) _ _ (fun m _ _ hv => (br_sweepSlot_static p m (hv ▸ h)).trans hv) s rfl

/-- A sweep taken up, with its count of removals at 0 (R255). -/
def sweepBegun (d : Nat) (s : State) : State := (s.put (.fwd .xAGE_DUE) 0 d).put (.fwd .xAGED) 0 d

/-- A sweep under way, with the parity of its entries (R255). -/
def sweepMarked (d : Nat) (p : Bool) (s : State) : State :=
  (s.putB (.fwd .STATUS_PARITY) p d).put (.fwd .STATUS_SWEEP_ACTIVE) 1 d

theorem sweepBegun_frame (d : Nat) (s : State) :
    Frame (fun k => k == ⟨.fwd .xAGE_DUE, d, 0, 0⟩ || k == ⟨.fwd .xAGED, d, 0, 0⟩) s (sweepBegun d s) :=
  (Frame.put _ _ _ _ _ _ (by simp)).trans (Frame.put _ _ _ _ _ _ (by simp))

theorem sweepMarked_frame (d : Nat) (p : Bool) (s : State) :
    Frame (fun k => k == ⟨.fwd .STATUS_PARITY, d, 0, 0⟩ || k == ⟨.fwd .STATUS_SWEEP_ACTIVE, d, 0, 0⟩) s (sweepMarked d p s) :=
  (Frame.putB _ _ _ _ _ _ (by simp)).trans (Frame.put _ _ _ _ _ _ (by simp))

theorem sweepMarked_reads (d : Nat) (p : Bool) (s : State) :
    (sweepMarked d p s).flag (.fwd .STATUS_SWEEP_ACTIVE) d = true ∧ (sweepMarked d p s).flag (.fwd .STATUS_PARITY) d = p := by
  simp [sweepMarked, State.putB_eq, Key.cut, Fld.width, Fwd.width, bit_of_flag]

theorem agingSweep_starts (hdue : s.flag (.fwd .xAGE_DUE) d = true) (hmay : s.sweepMayStart d = true)
    (hidle : s.flag (.fwd .STATUS_SWEEP_ACTIVE) d = false) (hshed : s.get (.ost .STATUS_SHED_LEVEL) d < 3) : agingSweep d s =
      sweepMarked d (!s.flag (.fwd .STATUS_PARITY) d) (swept d (!s.flag (.fwd .STATUS_PARITY) d) (sweepBegun d s)) := by
  have hlevel : ¬ 3 ≤ (s.put (.fwd .xAGE_DUE) 0 d).get (.ost .STATUS_SHED_LEVEL) d := by simp [hshed]
  have hparity : (s.put (.fwd .xAGE_DUE) 0 d).flag (.fwd .STATUS_PARITY) d = s.flag (.fwd .STATUS_PARITY) d := by simp
  rw [agingSweep, if_pos (by simp [hdue, hmay, hidle])]
  dsimp only
  rw [if_neg hlevel, hparity]
  rfl

/-- A sweep that is due and shed is counted (R256, R394). -/
theorem agingSweep_shed (hdue : s.flag (.fwd .xAGE_DUE) d = true) (hmay : s.sweepMayStart d = true)
    (hidle : s.flag (.fwd .STATUS_SWEEP_ACTIVE) d = false) (hshed : 3 ≤ s.get (.ost .STATUS_SHED_LEVEL) d) : agingSweep d s =
      ((s.put (.fwd .xAGE_DUE) 0 d).bump (.fwd .CNT) d 14).bump (.ost .CNT) d 8 := by
  have hlevel : 3 ≤ (s.put (.fwd .xAGE_DUE) 0 d).get (.ost .STATUS_SHED_LEVEL) d := by simpa using hshed
  rw [agingSweep, if_pos (by simp [hdue, hmay, hidle])]
  exact if_pos hlevel

theorem agingSweep_waits (h : s.flag (.fwd .xAGE_DUE) d = false ∨ s.sweepMayStart d = false ∨
    s.flag (.fwd .STATUS_SWEEP_ACTIVE) d = true) : agingSweep d s = s := if_neg (by rcases h with h | h | h <;> simp [h])

/-- A sweep that starts inverts the parity and leaves static entries alone (R255). -/
theorem agingSweep_sweeps (hdue : s.flag (.fwd .xAGE_DUE) d = true) (hmay : s.sweepMayStart d = true)
    (hidle : s.flag (.fwd .STATUS_SWEEP_ACTIVE) d = false) (hshed : s.get (.ost .STATUS_SHED_LEVEL) d < 3) :
    (agingSweep d s).flag (.fwd .STATUS_SWEEP_ACTIVE) d = true ∧ (agingSweep d s).flag (.fwd .xAGE_DUE) d = false ∧
    (agingSweep d s).flag (.fwd .STATUS_PARITY) d = !s.flag (.fwd .STATUS_PARITY) d ∧
    (∀ n, (s.br d n).static = true → (agingSweep d s).br d n = s.br d n) ∧
    Frame (fun k => k.fld.home == .fwd && k.i == d) s (agingSweep d s) := by
  rw [agingSweep_starts hdue hmay hidle hshed]
  generalize (!s.flag (.fwd .STATUS_PARITY) d) = p
  have hbegun := sweepBegun_frame d s
  have hswept := swept_frame d p (sweepBegun d s)
  have hmarked := sweepMarked_frame d p (swept d p (sweepBegun d s))
  obtain ⟨hactive, hparity⟩ := sweepMarked_reads d p (swept d p (sweepBegun d s))
  have hbr (n : Nat) : (sweepBegun d s).br d n = s.br d n :=
    br_of_regs hbegun.regs (fun f hf => by simp [status_no_entry f hf])
  refine ⟨hactive, ?_, hparity, fun n hn => ?_, (hbegun.mono fun k hk => ?_).trans ((hswept.mono fun _ => fwd_of_sweepKeys).trans
    (hmarked.mono fun k hk => ?_))⟩
  · rw [hmarked.regs.flag (by simp), hswept.regs.flag (by simp [sweepKeys, entryFlds]), sweepBegun, flag_put_fld _ _ _ _ _ _ _ _ (by decide),
      flag_put_same]
    rfl
  · rw [br_of_regs hmarked.regs (fun f hf => by simp [status_no_entry f hf]), br_swept_static p (hbr n ▸ hn), hbr]
  · rcases Bool.or_eq_true _ _ ▸ hk with hk | hk <;> simp [eq_of_beq hk, Fld.home]
  · rcases Bool.or_eq_true _ _ ▸ hk with hk | hk <;> simp [eq_of_beq hk, Fld.home]

theorem agingSweep_counts (hdue : s.flag (.fwd .xAGE_DUE) d = true) (hmay : s.sweepMayStart d = true)
    (hidle : s.flag (.fwd .STATUS_SWEEP_ACTIVE) d = false) (hshed : 3 ≤ s.get (.ost .STATUS_SHED_LEVEL) d) :
    (agingSweep d s).get (.fwd .CNT) d 14 = (s.get (.fwd .CNT) d 14 + 1) % 2 ^ 64 ∧
    (agingSweep d s).flag (.fwd .xAGE_DUE) d = false ∧
    (agingSweep d s).get (.ost .CNT) d 8 = (s.get (.ost .CNT) d 8 + 1) % 2 ^ 64 ∧
    Frame (fun k => k == ⟨.fwd .CNT, d, 14, 0⟩ || k == ⟨.fwd .xAGE_DUE, d, 0, 0⟩ || k == ⟨.ost .CNT, d, 8, 0⟩) s (agingSweep d s) := by
  rw [agingSweep_shed hdue hmay hidle hshed]
  refine ⟨?_, ?_, ?_, ((Frame.put _ _ _ _ _ _ (by simp)).trans (Frame.bump _ _ _ _ _ _ (by simp))).trans (Frame.bump _ _ _ _ _ _ (by simp))⟩ <;>
    simp [State.bump_eq, Key.cut, Fld.width, Fwd.width, Ost.width]

theorem sweepEnd_idle (h : s.flag (.fwd .STATUS_SWEEP_ACTIVE) d = false) : sweepEnd d s = s := if_neg (by simp [h])

/-- The end of a sweep is an event (R255, R360). -/
theorem sweepEnd_ends (hd : d < 2) (h : s.flag (.fwd .STATUS_SWEEP_ACTIVE) d = true) :
    (sweepEnd d s).flag (.fwd .STATUS_SWEEP_ACTIVE) d = false ∧ (sweepEnd d s).flag (.evc .SRC_CFG_PENDING) (853 + 8 * d) = true ∧
    Frame (fun k => k == ⟨.fwd .STATUS_SWEEP_ACTIVE, d, 0, 0⟩ || evcKeys k) s (sweepEnd d s) := by
  rw [sweepEnd, if_pos h]
  refine ⟨?_, ?_, ((evPulse_frame _ _ _).mono (fun k hk => by simp [hk])).trans (Frame.put _ _ _ _ _ _ (by simp))⟩
  · rw [flag_put_same]
    rfl
  · rw [flag_put_fld _ _ _ _ _ _ _ _ (by decide)]
    exact (evPulse_pends _ _ _).2 (by interval_cases d <;> rfl)

-- The protection of the lines

/-- A line refetched good is counted, and nothing more (R262). -/
theorem lineRefetch_good {tb : TableId} (h : tb ≠ .bridge) (line : Nat) :
    (lineRefetch d tb line true s).get (.fwd .CNT) d 11 = (s.get (.fwd .CNT) d 11 + 1) % 2 ^ 64 ∧
    Frame (fun k => k == ⟨.fwd .CNT, d, 11, 0⟩) s (lineRefetch d tb line true s) := by
  cases tb with
  | bridge => exact absurd rfl h
  | route => exact count_reads (.fwd .CNT) d 11 1 s rfl
  | flow => exact count_reads (.fwd .CNT) d 11 1 s rfl

/-- The number of a table in the event of a bad line, and the mark of its lines (R262, R360). -/
def badKind (tb : TableId) : Nat := if tb = .flow then 0 else 1
def badFld (tb : TableId) : Fld := if tb = .flow then .fwd .xFL_BAD else .fwd .xRT_BAD
def badLine (tb : TableId) (line : Nat) : Nat := if tb = .flow then line % 256 else line

/-- A line that stays bad, counted and recorded as a Contained fault with its event, before its mark (R262). -/
def lineLost (d kind line : Nat) (s : State) : State :=
  evPulse (855 + 8 * d) kind (raise 0x46 d line kind ((s.bump (.fwd .CNT) d 11).bump (.fwd .CNT) d 12))

theorem lineRefetch_bad {tb : TableId} (h : tb ≠ .bridge) (line : Nat) :
    lineRefetch d tb line false s = (lineLost d (badKind tb) line s).put (badFld tb) 1 d (badLine tb line) := by
  cases tb with
  | bridge => exact absurd rfl h
  | route => rfl
  | flow => rfl

theorem lineLost_counts (d kind line : Nat) (s : State) :
    (lineLost d kind line s).get (.fwd .CNT) d 12 = (s.get (.fwd .CNT) d 12 + 1) % 2 ^ 64 ∧
    (lineLost d kind line s).get (.flt .CNT) 2 = (s.get (.flt .CNT) 2 + 1) % 2 ^ 64 ∧
    Frame (fun k => (k.fld.home == .fwd && k.i == d) || fltKeys k) s (lineLost d kind line s) := by
  obtain ⟨-, hseen⟩ := count_reads (.fwd .CNT) d 11 1 s rfl
  obtain ⟨hcnt, hbad⟩ := count_reads (.fwd .CNT) d 12 1 (s.bump (.fwd .CNT) d 11) rfl
  rw [hseen.regs.get (by simp)] at hcnt
  have hminor := raise_minor (code := 0x46) 2 rfl (by decide) d line kind ((s.bump (.fwd .CNT) d 11).bump (.fwd .CNT) d 12)
  have hraise := raise_minor_frame (code := 0x46) 2 rfl (by decide) d line kind ((s.bump (.fwd .CNT) d 11).bump (.fwd .CNT) d 12)
  have hpulse := evPulse_frame (855 + 8 * d) kind (raise 0x46 d line kind ((s.bump (.fwd .CNT) d 11).bump (.fwd .CNT) d 12))
  refine ⟨?_, ?_, ((hseen.mono fun k hk => ?_).trans (hbad.mono fun k hk => ?_)).trans
    ((hraise.mono fun k hk => ?_).trans (hpulse.mono fun k hk => ?_))⟩
  · exact (hpulse.regs.get rfl).trans ((hraise.regs.get rfl).trans hcnt)
  · refine (hpulse.regs.get rfl).trans ?_
    rw [hminor, record_counts (c := 2) rfl, hbad.regs.get rfl, hseen.regs.get rfl]
  · simp [eq_of_beq hk, Fld.home]
  · simp [eq_of_beq hk, Fld.home]
  · simp [hk]
  · simp [evcKeys_flt hk]

/-- A line that stays bad is marked, and its fault counts (R262). -/
theorem lineRefetch_marks {tb : TableId} (h : tb ≠ .bridge) (line : Nat) :
    (lineRefetch d tb line false s).flag (badFld tb) d (badLine tb line) = true ∧
    (lineRefetch d tb line false s).get (.fwd .CNT) d 12 = (s.get (.fwd .CNT) d 12 + 1) % 2 ^ 64 ∧
    (lineRefetch d tb line false s).get (.flt .CNT) 2 = (s.get (.flt .CNT) 2 + 1) % 2 ^ 64 ∧
    Frame (fun k => (k.fld.home == .fwd && k.i == d) || fltKeys k) s (lineRefetch d tb line false s) := by
  obtain ⟨hcnt, hclass, hframe⟩ := lineLost_counts d (badKind tb) line s
  obtain ⟨f, hf, hother, hwidth⟩ : ∃ f, badFld tb = .fwd f ∧ f ≠ .CNT ∧ f.width = 1 := by
    cases tb <;> exact ⟨_, rfl, by decide, rfl⟩
  rw [lineRefetch_bad h, hf]
  refine ⟨?_, ?_, ?_, hframe.trans (Frame.put _ _ _ _ _ _ (by simp [Fld.home]))⟩
  · rw [flag_put_same]
    simp [Key.cut, Fld.width, hwidth]
  · rw [State.get_put_fld _ _ _ _ _ _ _ _ _ _ (by simp [Ne.symm hother]), hcnt]
  · rw [State.get_put_fld _ _ _ _ _ _ _ _ _ _ (by simp), hclass]

/-- A bridge entry of bad parity is removed and counted (R263). -/
theorem lineRefetch_bridge (d line : Nat) (good : Bool) (s : State) :
    ((lineRefetch d .bridge line good s).br d (line % 32768)).valid = false ∧
    (lineRefetch d .bridge line good s).get (.fwd .CNT) d 13 = (s.get (.fwd .CNT) d 13 + 1) % 2 ^ 64 ∧
    Frame (fun k => k == ⟨.fwd .CNT, d, 13, 0⟩ || (k.fld.home == .fwd && k.i == d && k.j == line % 32768)) s
      (lineRefetch d .bridge line good s) := by
  have e : lineRefetch d .bridge line good s = (brPut d (line % 32768) brNone s).bump (.fwd .CNT) d 13 := rfl
  have hput := brPut_frame d (line % 32768) brNone s
  obtain ⟨hcnt, hframe⟩ := count_reads (.fwd .CNT) d 13 1 (brPut d (line % 32768) brNone s) rfl
  rw [e]
  refine ⟨?_, ?_, (hput.mono fun k hk => ?_).trans (hframe.mono fun k hk => by simp [hk])⟩
  · rw [br_of_regs hframe.regs (fun f hf => by simp [count_no_entry f hf]), br_brPut_same]
    rfl
  · rw [hcnt, hput.regs.get (by simp [entryKeys, entryFlds])]
  · obtain ⟨hhome, hi, hj⟩ := fwd_of_entryKeys hk
    simp [hhome, hi, hj]

/-- A trie line is rebuilt from the list of prefixes (R262). -/
theorem trieRebuild_good (d line : Nat) (s : State) : (trieRebuild d line true s).flag (.fwd .xRT_BAD) d line = false ∧
    Frame (fun k => k == ⟨.fwd .xRT_BAD, d, line, 0⟩) s (trieRebuild d line true s) :=
  ⟨flag_put_same s (.fwd .xRT_BAD) 0 d line 0, Frame.put _ _ _ _ _ _ (by simp)⟩

/-- Where that list is poisoned, RT_LOST sets (R262). -/
theorem trieRebuild_lost (d line : Nat) (s : State) : (trieRebuild d line false s).flag (.fwd .STATUS_RT_LOST) d = true ∧
    Frame (fun k => k == ⟨.fwd .STATUS_RT_LOST, d, 0, 0⟩) s (trieRebuild d line false s) :=
  ⟨flag_put_same s (.fwd .STATUS_RT_LOST) 1 d 0 0, Frame.put _ _ _ _ _ _ (by simp)⟩

-- The statement

/-- A commit keeps the frame of an effect over a state that differs from the one found in what it queues alone. -/
theorem Frame.commitTaken {now : Now} (hnow : u = s.atNow now) (h : Frame B (learnTaken d u) t) :
    Frame B (learnTaken d u) (s.commit t) := by
  have hsafe : t.safe = s.safe := by rw [h.safe, ← State.atNow_safe s now, ← hnow]; rfl
  have hosc : t.osc = max s.osc now.osc := by rw [h.clock.1, ← State.atNow_osc, ← hnow]; rfl
  exact ⟨h.regs, h.bytes, h.traffic, by rw [State.commit_safe, hsafe, Bool.or_self, ← hsafe, h.safe],
    ⟨by rw [State.commit_osc, hosc, ← max_assoc, max_self, ← hosc, h.clock.1], h.clock.2⟩, h.events⟩

section
variable {now : Now} {d : Die} (hl : s.live = true) (hnow : u = s.atNow now)
include hl hnow

/-- A learn request that is taken up (R251). -/
theorem exec_learnInsert (hs : u.safe = false) (hd : u.dieUp d = true) :
    exec (.learnInsert d now) s = .next (s.commit (learnOne d u)) := exec_at_open rfl hl hnow hs hd

theorem learnInsert_learns (hs : u.safe = false) (hd : u.dieUp d = true) {l : Learn}
    (h : u.learns.find? (fun l => l.die == d.val) = some l) :
    (∀ n, u.brFind d l.vid l.mac = some n → ∃ t, exec (.learnInsert d now) s = .next t ∧
      t.flag (.fwd .xBR_HIT) d n = true ∧ Frame (fun k => k == ⟨.fwd .xBR_HIT, d, n, 0⟩) (learnTaken d u) t) ∧
    (u.brFind d l.vid l.mac = none →
      (∀ n, u.brFree d (brBuckets l.vid l.mac).1 = some n → ∃ t, exec (.learnInsert d now) s = .next t ∧
        t.br d n = (learnEntry d l u).cut ∧
        t.get (.fwd .CNT) d 6 = (u.get (.fwd .CNT) d 6 + 1) % 2 ^ 64 ∧
        Frame (fun k => (k.fld.home == .fwd && k.i == d.val && k.j == n) || k == ⟨.fwd .CNT, d, 6, 0⟩) (learnTaken d u) t) ∧
      (brInsert d (learnEntry d l u) (learnTaken d u) = none → ∃ t, exec (.learnInsert d now) s = .next t ∧
        t.get (.fwd .CNT) d 9 = (u.get (.fwd .CNT) d 9 + 1) % 2 ^ 64 ∧
        Frame (fun k => k == ⟨.fwd .CNT, d, 9, 0⟩) (learnTaken d u) t) ∧
      ∃ t, exec (.learnInsert d now) s = .next t ∧ t.learns = (learnTaken d u).learns) := by
  have hexec := exec_learnInsert hl hnow hs hd
  refine ⟨fun n hf => ⟨_, hexec, ?_⟩, fun hf => ⟨fun n hfree => ⟨_, hexec, ?_⟩, fun hfull => ⟨_, hexec, ?_⟩, _, hexec, learnOne_learns h hf⟩⟩
  · rw [learnOne_known h hf]
    exact ⟨by rw [State.flag_commit, flag_put_same]; rfl, (Frame.put _ _ _ _ _ _ (by simp)).commitTaken hnow⟩
  · obtain ⟨hbr, hcnt, hframe⟩ := learnOne_firstBucket h hf hfree
    exact ⟨hbr, hcnt, hframe.commitTaken hnow⟩
  · rw [learnOne_drops h hf hfull]
    obtain ⟨hcnt, hframe⟩ := count_reads (.fwd .CNT) d 9 1 (learnTaken d u) rfl
    exact ⟨hcnt, hframe.commitTaken hnow⟩

theorem agePeriod_passes (h : u.expired (.fwd .xAGE_NEXT) d = true) : ∃ t, exec (.agePeriodExpiry d now) s = .next t ∧
    t.flag (.fwd .xAGE_DUE) d = true ∧ t.get (.fwd .xAGE_NEXT) d = u.dueIn (u.agePeriodNs d) % 2 ^ 64 ∧
    t.get (.fwd .xAGE_TAI) d = (if u.tbState = tbFREE then 0 else u.tai) ∧
    Frame (fun k => k == ⟨.fwd .xAGE_DUE, d, 0, 0⟩ || k == ⟨.fwd .xAGE_NEXT, d, 0, 0⟩ || k == ⟨.fwd .xAGE_TAI, d, 0, 0⟩) u t := by
  obtain ⟨hdue, hnext, htai, hframe⟩ := ageExpiry_passes h
  exact ⟨_, exec_at rfl hl (congrArg (ageExpiry d) hnow.symm), hdue, hnext, htai, hframe.commitNow hnow⟩

theorem agePeriod_runs (h : u.expired (.fwd .xAGE_NEXT) d = false) : ∃ t, exec (.agePeriodExpiry d now) s = .next t ∧ Still u t := by
  replace hnow := hnow.symm
  subst hnow
  exact exec_at_still rfl hl (ageExpiry_waits h)

end

theorem exec_tableLineRefetch {d : Die} (hl : s.live = true) (hs : s.safe = false) (hd : s.dieUp d = true) (tb : TableId) (line : Nat)
    (good : Bool) : exec (.tableLineRefetch d tb line good) s = .next (s.commit (lineRefetch d tb line good s.quiet)) :=
  exec_run_open rfl hl hs hd

theorem exec_trieLineRebuild {d : Die} (hl : s.live = true) (hs : s.safe = false) (hd : s.dieUp d = true) (line : Nat) (listOk : Bool) :
    exec (.trieLineRebuild d line listOk) s = .next (s.commit (trieRebuild d line listOk s.quiet)) :=
  exec_run_open rfl hl hs hd

/-- Settles O44: each of the commands is its effect on the state as found, by whether the die runs and something is due, and of each
effect the lemmas above say what it reads and touches. -/
theorem tableUpkeep : Obligations.TableUpkeep := by
  unfold Obligations.TableUpkeep
  intro d now s u hl hnow
  refine ⟨fun h i hi => ?_, fun hs hd => ⟨fun hq => ?_, fun l r hq hr => ?_, fun hdue hmay hidle => ⟨fun hshed => ?_, fun hshed => ?_⟩,
    fun h => exec_at_open_still rfl hl hnow hs hd (agingSweep_waits h), fun hact => ?_,
    fun hidle => exec_at_open_still rfl hl hnow hs hd (sweepEnd_idle hidle)⟩,
    agePeriod_passes hl hnow, agePeriod_runs hl hnow, fun line => ⟨fun h tb good i hi => ?_, fun hs hd =>
      ⟨fun tb htb => ?_, fun tb htb => ?_, fun good => ?_, ?_, ?_⟩⟩⟩
  · simp only [List.mem_cons, List.not_mem_nil, or_false] at hi
    rcases hi with rfl | rfl | rfl <;> exact exec_at_shut_still rfl hl hnow h
  · exact exec_at_open_still rfl hl hnow hs hd (learnOne_idle hq)
  · subst hr
    exact learnInsert_learns hl hnow hs hd hq
  · obtain ⟨hactive, hdone, hparity, hstatic, hframe⟩ := agingSweep_sweeps hdue hmay hidle hshed
    exact ⟨_, exec_at_open rfl hl hnow hs hd, hactive, hdone, hparity, hstatic, hframe.commitNow hnow⟩
  · obtain ⟨hskip, hdone, hcnt, hframe⟩ := agingSweep_counts hdue hmay hidle hshed
    exact ⟨_, exec_at_open rfl hl hnow hs hd, hskip, hdone, hcnt, hframe.commitNow hnow⟩
  · obtain ⟨hidle, hpends, hframe⟩ := sweepEnd_ends d.isLt hact
    exact ⟨_, exec_at_open rfl hl hnow hs hd, hidle, hpends, hframe.commitNow hnow⟩
  · simp only [List.mem_cons, List.not_mem_nil, or_false] at hi
    rcases hi with rfl | rfl <;> exact exec_run_shut_still rfl hl h
  · obtain ⟨hcnt, hframe⟩ := lineRefetch_good (d := d) (s := s.quiet) htb line
    exact ⟨_, exec_tableLineRefetch hl hs hd tb line true, hcnt, Frame.ofQuiet hframe⟩
  · obtain ⟨hbad, hcnt, hclass, hframe⟩ := lineRefetch_marks (d := d) (s := s.quiet) htb line
    exact ⟨_, exec_tableLineRefetch hl hs hd tb line false, hbad, hcnt, hclass, Frame.ofQuiet hframe⟩
  · obtain ⟨hgone, hcnt, hframe⟩ := lineRefetch_bridge d line good s.quiet
    exact ⟨_, exec_tableLineRefetch hl hs hd .bridge line good, by rw [br_commit, hgone], (State.get_commit ..).trans hcnt,
      Frame.ofQuiet hframe⟩
  · obtain ⟨hgood, hframe⟩ := trieRebuild_good d line s.quiet
    exact ⟨_, exec_trieLineRebuild hl hs hd line true, (State.flag_commit ..).trans hgood, Frame.ofQuiet hframe⟩
  · obtain ⟨hlost, hframe⟩ := trieRebuild_lost d line s.quiet
    exact ⟨_, exec_trieLineRebuild hl hs hd line false, (State.flag_commit ..).trans hlost, Frame.ofQuiet hframe⟩

end Sys2Proof
end

section
/-!
PROOFS. A refutation by a staged template word that is wider than its register: a WRITE leaves it as it is held (R283).
-/

namespace Sys2Proof

open Machine

/-- A staged access without READ leaves the data register as it is (R283). -/
theorem tplAddrWrite_data (d : Nat) {v : Nat} (h : bitOf v 30 = false) (s : State) :
    (tplAddrWrite d v s).get (.shp .TPL_DATA_DATA) d = s.get (.shp .TPL_DATA_DATA) d := by
  unfold tplAddrWrite
  dsimp only
  rw [h, State.when_false, State.when_eq]
  split <;> simp

/-- A module after reset, where `SHP_TPL_DATA` of die 0 holds 2^32 in 32 bits. -/
def dataWide : State := holding State.reset ⟨.shp .TPL_DATA_DATA, 0, 0, 0⟩ (2 ^ 32) (by decide)

/-- The Ostler of die 0 may write the shaper's registers there. -/
theorem dataWide_writable : dataWide.live = true ∧ dataWide.gateOf .o0 .shp (some (0 : Die).val) = .pass ∧
    dataWide.get (.shp .TPL_DATA_DATA) (0 : Die) = 2 ^ 32 := by decide +kernel

/-- Refutes O39: the statement takes every register store, and gives the data register after a WRITE modulo 2^32. Where the store holds
2^32 in it, a WRITE without READ, which does not write that register, leaves 2^32. -/
theorem not_egressSetup : ¬ Obligations.EgressSetup := by
  unfold Obligations.EgressSetup
  rintro ⟨h, -⟩
  obtain ⟨hl, hg, hw⟩ := dataWide_writable
  obtain ⟨-, htpl⟩ := h .o0 0 0 dataWide hl hg
  obtain ⟨t, ht, -, -, hdata, -⟩ := (htpl _ rfl).2 (.templateWrite .o0 0 0) (by simp)
  have he := exec_gated_pass (i := .templateWrite .o0 0 0) (f := tplAddrWrite (0 : Die) (withBits (0 : Word).toNat 31 1 1)) rfl hl hg
  obtain rfl := Host.Outcome.next.inj (he.symm.trans ht)
  have hleft := tplAddrWrite_data (0 : Die) (v := withBits (0 : Word).toNat 31 1 1) (by decide) dataWide.quiet
  rw [State.get_commit, hleft, State.get_quiet, hw] at hdata
  exact absurd hdata (by decide)

end Sys2Proof
end

section
/-!
PROOFS. What a state that later steps reach has of an earlier one: the edge of the local oscillator, and the safe state where it was
held. The occurrences, their reactions and the lines of memory keep to it (R66, R305 to R312, R459, R465, R470 to R474).
-/

namespace Sys2Proof

open Machine

variable {B : Key → Bool} {r s t : State}

/-- A state at the same edge of the local oscillator as `r`, and in the safe state where `r` is (R66, R459). -/
structure Onward (r s : State) : Prop where
  safe : r.safe = true → s.safe = true
  osc  : s.osc = r.osc

namespace Onward

theorem refl (s : State) : Onward s s := ⟨id, rfl⟩

/-- A change of registers, lists and memories alone. -/
theorem same (h : Onward r s) (hs : t.safe = s.safe := by rfl) (ho : t.osc = s.osc := by rfl) : Onward r t :=
  ⟨fun e => hs.trans (h.safe e), ho.trans h.osc⟩

theorem frame (hf : Frame B s t) (h : Onward r s) : Onward r t := h.same hf.safe hf.clock.1

theorem mild (hm : Mild B s t) (h : Onward r s) : Onward r t := h.same hm.safe hm.osc

variable {f : Fld} {v i j k n : Nat}

theorem put (h : Onward r s) : Onward r (s.put f v i j k) := ⟨h.safe, h.osc⟩
theorem bump (h : Onward r s) : Onward r (s.bump f i j k n) := h.put
theorem bumpSat (h : Onward r s) : Onward r (s.bumpSat f i j k n) := h.put
theorem putBit {b : Nat} {on : Bool} (h : Onward r s) : Onward r (s.putBit f b on i) := h.put
theorem emit {o : Out} (h : Onward r s) : Onward r (s.emit o) := ⟨h.safe, h.osc⟩
theorem free (h : Onward r s) : Onward r s.free.2 := ⟨h.safe, h.osc⟩
theorem keepKeys {p : Key → Bool} (h : Onward r s) : Onward r (s.keepKeys p) := ⟨h.safe, h.osc⟩

theorem when {p : Bool} {f : State → State} (hf : Onward r s → Onward r (f s)) (h : Onward r s) : Onward r (s.when p f) := by
  unfold State.when
  split
  · exact hf h
  · exact h

theorem ite {c : Prop} [Decidable c] (h : Onward r s) (g : Onward r t) : Onward r (if c then s else t) := by
  split
  · exact h
  · exact g

theorem each {α : Type} {l : List α} {f : α → State → State} (hf : ∀ x v, Onward r v → Onward r (f x v)) (h : Onward r s) :
    Onward r (forEach l f s) := forEach_inv (Onward r) l f (fun x _ v hv => hf x v hv) s h

-- Occurrences and their reactions

theorem pulse {n det : Nat} (h : Onward r s) : Onward r (evPulse n det s) := h.frame (evPulse_frame n det s)

theorem recorded {o : Occ} {wire inj : Bool} (h : Onward r s) : Onward r (record o wire inj s) := h.frame (record_frame o wire inj s)

theorem cutWires {l : List Nat} (h : Onward r s) : Onward r (cutWires l s) := .each (fun _ _ => .when fun hv => hv.put.emit) h

theorem packetsDieDown {d : Nat} (h : Onward r s) : Onward r (packetsDieDown d s) := ⟨h.safe, h.osc⟩

theorem evcDieDown {d : Nat} (h : Onward r s) : Onward r (evcDieDown d s) := by
  have hclear : ∀ l : List Nat, Onward r (forEach l (fun n s => (s.put (.evc .SRC_CFG_PENDING) 0 n).put (.evc .SRC_CFG_ASSERTED) 0 n) s) :=
    fun l => .each (fun _ _ hv => hv.put.put) h
  unfold Machine.evcDieDown
  dsimp only
  exact .frame (settle_frame _) (.each (fun _ _ hv => hv.put) ⟨(hclear _).safe, (hclear _).osc⟩)

theorem freeStirrupsOf {p : Nat} (h : Onward r s) : Onward r (freeStirrupsOf p s) :=
  .each (fun _ _ => .when fun hv => .recorded hv.put.put) h

theorem markResume {ch : Nat} (h : Onward r s) : Onward r (markResume ch s) := .ite h.put.put.put.put h

theorem winterAbandon (h : Onward r s) : Onward r (winterAbandon s) :=
  .when (fun hw => .each (fun _ _ hv => hv.put) hw.put.put.put.put.put) h

theorem fwuIdle (h : Onward r s) : Onward r (fwuIdle s) := by
  unfold Machine.fwuIdle
  exact .when (fun hi => hi.put.put.put.put) h.put

theorem fwuDieDown {d : Nat} (h : Onward r s) : Onward r (fwuDieDown d s) :=
  .ite (.pulse (.put h.fwuIdle)) (.when (fun ht => ht.put.put.put) h)

theorem dieDown {d : Nat} {held : Bool} (h : Onward r s) : Onward r (dieDown d held s) := by
  have hgone := (h.cutWires (l := (List.range 8).map (· + 8 * d))).packetsDieDown (d := d) |>.evcDieDown (d := d) |>.freeStirrupsOf (p := 2 + d)
  unfold Machine.dieDown
  dsimp only
  exact .putBit (.putBit (.putBit (.winterAbandon (.fwuDieDown (.each (fun _ _ hv => hv.put) (.keepKeys
    (.each (fun _ _ hv => hv.markResume) hgone)))))))

theorem restartOrHold {d : Nat} (h : Onward r s) : Onward r (restartOrHold d s) :=
  .ite h (.ite h.dieDown (.dieDown ⟨h.safe, h.osc⟩))

/-- The safe state is entered on the edge of its cause (R465). -/
theorem enterSafe {code : Nat} (h : Onward r s) : Onward r (enterSafe code s) := by
  unfold Machine.enterSafe
  refine .ite h ⟨fun _ => rfl, ?_⟩
  have hlinks := Onward.each (l := [0, 1, 2]) (f := fun l s => s.when (s.flag (.mid .TTH_REV_UP) l)
    (fun s => (s.put (.mid .TTH_REV_UP) 0 l).emit (.tetherLink l false))) (fun _ _ => .when fun hv => hv.put.emit) (h.cutWires (l := List.range 16))
  dsimp only
  generalize forEach [0, 1, 2] _ _ = u at hlinks
  have hlanes : Onward r (u.when (u.flag (.flt .CFG_SAFE_LINK_DOWN)) (·.emit .lanesOff)) := .when emit hlinks
  generalize u.when _ _ = v at hlanes
  exact hlanes.osc

theorem raise {code die loc det : Nat} (h : Onward r s) : Onward r (raise code die loc det s) := by
  have hrec : ∀ l : List Occ, Onward r (forEach l (fun o s => record o false false s) s) := fun l => .each (fun _ _ hv => hv.recorded) h
  unfold Machine.raise raiseAll
  dsimp only
  split
  · exact (hrec _).enterSafe
  · exact .ite (hrec _) (.each (fun _ _ hv => hv.restartOrHold) (hrec _))

-- Lines of memory

theorem ostPost {d c : Nat} (h : Onward r s) : Onward r (ostPost d c s) := by
  have hshed : Onward r (s.when (s.ostSheds d c) (fun s => s.bump (.ost .CNT) d (5 + shedRank c))) := .when bump h
  exact .ite hshed hshed.bump

theorem declareFailed {g k : Nat} {known : Bool} (h : Onward r s) : Onward r (declareFailed g k known s) :=
  .ite h (.ite (.raise h.bump.put.putBit) (.raise (.when ostPost h.bump.put.put.put.put)))

theorem slideErr {g la k : Nat} (h : Onward r s) : Onward r (slideErr g la k s) :=
  .ite h.bumpSat (.when declareFailed h.bumpSat.put.bumpSat)

theorem issued {g la : Nat} {old : State} (h : Onward r s) : Onward r (issued g la old s) := .each (fun _ _ hv => hv.put) h

theorem writeBack {g la mask : Nat} {flips : List Flip} (h : Onward r s) : Onward r (writeBack g la mask flips s) :=
  .each (fun _ _ hv => ⟨hv.safe, hv.osc⟩) h

theorem logPoison {g la mask : Nat} (h : Onward r s) : Onward r (logPoison g la mask s) := ⟨h.safe, h.osc⟩

theorem unlogPoison {g la : Nat} (h : Onward r s) : Onward r (unlogPoison g la s) := ⟨h.safe, h.osc⟩

theorem takeLineSeq {g la : Nat} (h : Onward r s) : Onward r (takeLineSeq g la s) := h.put.bump

theorem rebuildCheck {g la : Nat} (h : Onward r s) : Onward r (rebuildCheck g la s) :=
  .raise (.bump (.bump (.takeLineSeq (.unlogPoison (.put (.put (.when put h)))))))

theorem poisonLine {g la mask : Nat} (h : Onward r s) : Onward r (poisonLine g la mask s) := .raise (.bump (.logPoison h.put))

theorem readAct {g la : Nat} {flips : List Flip} (f : ReadFate) (h : Onward r s) : Onward r (readAct g la flips f s) := by
  cases f with
  | clean => exact h
  | corrected => exact h.bump.raise
  | rebuilt => exact h.writeBack.rebuildCheck
  | poisoned m => exact h.writeBack.poisonLine

theorem lineCheck {g la : Nat} {flips : List Flip} (h : Onward r s) : Onward r (lineCheck g la flips s) :=
  .ite h (.each (fun _ _ hv => hv.slideErr) (.issued (.readAct _ h)))

theorem undoWriteBack {g la : Nat} (h : Onward r s) : Onward r (undoWriteBack g la s) := by
  unfold Machine.undoWriteBack
  dsimp only
  have hold : Onward r (forEach (List.range 4) (fun k t =>
      { t with dram := t.dram.write (dramAddr g (la * 256 + 64 * k)) (beBytes 64 (s.get (.dmc .xWB_SLICE) g la k)) })
      ((s.put (.dmc .xPOIS) (s.get (.dmc .xWB) g la - 1) g la).put (.dmc .xSIDE) (s.get (.dmc .xWB_SIDE) g la) g la)) :=
    .each (fun _ _ hv => ⟨hv.safe, hv.osc⟩) h.put.put
  exact .bump (.ite hold.unlogPoison ⟨hold.safe, hold.osc⟩)

theorem meetWriteBack {g la : Nat} (h : Onward r s) : Onward r (meetWriteBack g la s) :=
  .ite h (.each (fun _ _ hv => hv.put) (.put (.put (.when undoWriteBack h.free))))

theorem staleRow {g row : Nat} (h : Onward r s) : Onward r (staleRow g row s) := by
  unfold Machine.staleRow
  split
  · exact h
  · exact .each (fun _ _ hv => hv.free.put) h

theorem initRow {g row : Nat} (h : Onward r s) : Onward r (initRow g row s) :=
  .ite h (.when put (.bump (.bump (.put (.bump (.put h.staleRow))))))

theorem lineWrite {g la off : Nat} {bytes : List Byte} {tags : Nat} {side : Option Nat} (h : Onward r s) :
    Onward r (lineWrite g la off bytes tags side s) := by
  unfold Machine.lineWrite lineWriteWith
  extract_lets n full met counted fresh read seq held old new sb marked tagged logged
  have hcounted : Onward r counted := .when bump h.meetWriteBack
  have hread : Onward r read := .when lineCheck hcounted
  have hseq : Onward r seq := .ite hread.initRow hread.takeLineSeq
  have hmarked : Onward r marked := hseq.put.put
  have hlogged : Onward r logged := .ite hmarked.logPoison (.when unlogPoison hmarked)
  exact .ite h (.issued ⟨hlogged.safe, hlogged.osc⟩)

end Onward

end Sys2Proof
end


section
/-!
PROOFS. The output of a channel leaves the edge of the clock and the safe state to later steps: the packets that it sends, the buffers
that it returns and the end of its run (R131, R165 to R167, R207, R246 to R250, R293, R294).
-/

namespace Sys2Proof

open Machine

variable {r s : State}

namespace Onward

-- Copies and chains

theorem flowEvent {d h kind : Nat} (hs : Onward r s) : Onward r (flowEvent d h kind s) := hs.frame (flowEvent_frame d h kind s)

theorem shapeDrop {d : Nat} {handle : Option Nat} {cnt : Nat} (h : Onward r s) : Onward r (shapeDrop d handle cnt s) := by
  unfold Machine.shapeDrop
  dsimp only
  split
  · exact h.bump.flowEvent
  · exact h.bump

theorem dropRef {id : Nat} (h : Onward r s) : Onward r (dropRef id s) := h.mild (dropRef_mild 0 id s)

theorem freeIfUnused {id : Nat} (h : Onward r s) : Onward r (freeIfUnused id s) := by
  unfold Machine.freeIfUnused
  split
  · exact h
  · exact .ite (h.mild (returnChain_mild 0 _ s)) h

theorem notePeak {d o : Nat} (h : Onward r s) : Onward r (notePeak d o s) := by
  unfold Machine.notePeak
  exact .when put h

theorem mapChain {id : Nat} {f : Chain → Chain} (h : Onward r s) : Onward r (s.mapChain id f) := ⟨h.safe, h.osc⟩

theorem newChain {d o iface ts : Nat} {data : List Byte} {poison : List Nat} {info : Meta} (h : Onward r s) :
    Onward r (newChain d o data iface ts poison info s).2 := .notePeak (.bump ⟨h.safe, h.osc⟩)

theorem moveHolder {id o : Nat} {t : State} (ht : moveHolder id o s = some t) (h : Onward r s) : Onward r t := by
  unfold Machine.moveHolder at ht
  split at ht
  · exact absurd ht (by simp)
  · dsimp only at ht
    split at ht
    · obtain rfl := Option.some.inj ht
      exact h.mapChain.notePeak
    · exact absurd ht (by simp)

theorem passHolder {d id : Nat} {l lost : List Nat} (h : Onward r s) : Onward r (passHolder d id l lost s).2 := by
  induction l generalizing lost s with
  | nil => exact h
  | cons o l ih =>
    unfold Machine.passHolder
    split
    · next t ht => exact h.moveHolder ht
    · exact ih h.bump

-- The targets of an output packet

theorem rxAssign {d q id : Nat} {handle : Option Nat} (h : Onward r s) : Onward r (rxAssign d q handle id s) :=
  .ite ⟨h.safe, h.osc⟩ h.bump

theorem ostFrame {d id : Nat} {handle : Option Nat} (h : Onward r s) : Onward r (ostFrame d handle id s) :=
  .ite h.bump ⟨h.safe, h.osc⟩

theorem queueCopy {c : Copy} {len : Nat} (h : Onward r s) : Onward r (queueCopy c len s) :=
  .ite h.bump (.ite h.shapeDrop (.ite h.shapeDrop ⟨h.safe, h.osc⟩))

theorem queueOuts {d len : Nat} {handle : Option Nat} {pace : Bool} {v : Dlv} {outs : List Nat} (h : Onward r s) :
    Onward r (queueOuts d handle pace v outs len s) :=
  .ite h.bump (.ite h.bump (.each (fun _ _ hv => .queueCopy (.when bump hv)) h))

/-- A packet that no channel takes is served (R294). -/
theorem serve {d : Nat} {handle : Option Nat} {pace : Bool} {v : Dlv} {g : Targets} (hg : g.chans = []) (h : Onward r s) :
    Onward r (serve d handle pace v g s) := by
  have hpass : Onward r (Machine.passHolder d v.chain (s.holders d g) [] s).2 := h.passHolder
  unfold Machine.serve
  rw [hg]
  split
  next lost t hp =>
  rw [hp] at hpass
  extract_lets len taken hosted shown gone left
  have hhosted : Onward r hosted := by
    unfold hosted
    split
    · split
      · exact .ite hpass.bump hpass.rxAssign
      · exact hpass.bump
    · exact hpass
  have hshown : Onward r shown := .when ostFrame hhosted
  exact .freeIfUnused (.ite (.each (fun _ _ hv => hv.shapeDrop) hshown) hshown.queueOuts)

theorem sendCross {d mask : Nat} {handle xh : Option Nat} {v : Dlv} (h : Onward r s) : Onward r (sendCross d handle xh mask v s) := by
  unfold Machine.sendCross
  refine .ite h.bump ?_
  split
  · exact ⟨h.safe, h.osc⟩
  · exact h

theorem reseq {d handle : Nat} {v : Dlv} (h : Onward r s) : Onward r (reseq d handle v s).2 := by
  unfold Machine.reseq
  dsimp only
  rw [apply_ite Prod.snd]
  exact .ite h.bump.bump h

/-- No channel receives an output packet (R247). -/
theorem entryTargets_chans (d e : Nat) : (entryTargets d e []).chans = [] := by
  unfold entryTargets
  split <;> rfl

theorem deliver {d handle : Nat} {crossed : Bool} {v : Dlv} (hv : v.out = true) (h : Onward r s) :
    Onward r (deliver d handle crossed v s) := by
  unfold Machine.deliver
  rw [hv]
  dsimp only
  refine .ite h.bump.freeIfUnused (.ite h.bump.flowEvent.freeIfUnused (.serve (entryTargets_chans _ _) ?_))
  have hseq : ∀ c : Bool, Onward r (if c = true then (v, s) else Machine.reseq d handle v s).2 := fun c => by
    rw [apply_ite Prod.snd]
    exact .ite h h.reseq
  exact .ite (hseq _) (.ite (hseq _).bump (hseq _).sendCross)

-- Packets of a row

theorem sendOut {ch handle dom row ix relAt ts : Nat} {body : Nat → List Byte} (h : Onward r s) :
    Onward r (sendOut ch handle dom row ix relAt ts body s) := by
  unfold Machine.sendOut
  exact .ite h (.ite h.shapeDrop (.deliver rfl (.newChain (.bump h.bump))))

theorem videoRow {ch n row word : Nat} {f : Fmt} {lines : List Nat} {v : Nat → Nat → Nat → Nat} (h : Onward r s) :
    Onward r (videoRow ch n row word f lines v s) :=
  .each (fun _ _ hv => .each (fun _ _ hw => hw.sendOut) hv) h

theorem sendLines {ch n row : Nat} {lines : List Nat} (h : Onward r s) : Onward r (sendLines ch n row lines s) := h.videoRow

theorem sendVideo {ch n row : Nat} (h : Onward r s) : Onward r (sendVideo ch n row s) :=
  .ite h.sendLines (.sendLines (.when sendLines h))

-- Buffers

theorem consume {l : List Inp} (h : Onward r s) : Onward r (consume l s) := h.mild (consume_mild 0 l s)

theorem emptySlot {ch k : Nat} (h : Onward r s) : Onward r (emptySlot ch k s) :=
  .put (.put (.put (.put (.put (.put (.when (fun hv => ⟨hv.safe, hv.osc⟩) h))))))

theorem storeDrop {ch n : Nat} (h : Onward r s) : Onward r (storeDrop ch n s) := .each (fun _ _ hv => hv.emptySlot) h.put

theorem storePic {ch n slot mark pic : Nat} {f : Fmt} {complete : Bool} (h : Onward r s) :
    Onward r (storePic ch n slot mark pic f complete s) :=
  .ite h (h.emptySlot.put.put.put.put.put.put.put.put.put.put.put.put)

theorem poolSettle {d : Nat} (h : Onward r s) : Onward r (poolSettle d s) := h.frame (poolSettle_frame d s)

theorem startDrop {ch n : Nat} (h : Onward r s) : Onward r (startDrop ch n s) := by
  unfold Machine.startDrop
  refine .when (fun hv => .poolSettle (.poolSettle (.mild (dropReserves_mild _ ch _) (.when (fun hw => ?_) (.each (fun _ _ hx => hx.emptySlot) hv))))) h.put
  exact hw.mild (dropSlab_mild ch _)

theorem dropWork {ch n : Nat} (h : Onward r s) : Onward r (dropWork ch n s) := h.mild (dropWork_mild ch n s)

-- The end of a picture

theorem dropUnits {ch : Nat} (h : Onward r s) : Onward r (dropUnits ch s) := ⟨h.safe, h.osc⟩

theorem endRun {ch st : Nat} (h : Onward r s) : Onward r (endRun ch st s) := by
  rw [endRun_eq]
  refine .poolSettle (.frame (cusRefresh_frame _ _) (.frame (clearLayout_frame (B := unitKeys) ch (fun _ => rfl) (fun _ => rfl) _)
    (.frame (clearMarks_frame ch _) (.frame (setChState_frame ch st _) ?_))))
  exact .dropUnits (.mild (runRelease_mild ch s) h)

theorem tryStop {ch : Nat} (h : Onward r s) : Onward r (tryStop ch s) := by
  unfold Machine.tryStop
  exact .when (fun hv => hv.endRun) h

theorem publishFlags {ch pic k : Nat} (h : Onward r s) : Onward r (publishFlags ch pic k s) := .put (.each (fun _ _ hv => hv.put) h)

theorem picEnd {ch n pic : Nat} (h : Onward r s) : Onward r (picEnd ch n pic s) :=
  .tryStop (.pulse (.each (fun _ _ hv => hv.put.put) (.put h.publishFlags)))

end Onward

end Sys2Proof
end


section
/-!
PROOFS. A decode row that commits past its latest edge leaves the edge of the clock and the safe state to later steps: its
concealment, its reconstruction, its flags, its requests and its packets (R20, R92, R94 to R114, R168 to R181, R202).
-/

namespace Sys2Proof

open Machine

variable {r s : State}

namespace Onward

-- Flags and damage

theorem noteDamage {ch row k reason : Nat} (h : Onward r s) : Onward r (noteDamage ch row k reason s) := by
  unfold Machine.noteDamage
  exact .put (.put h.put)

theorem flagRow {ch row k bit pic : Nat} (h : Onward r s) : Onward r (flagRow ch row k bit pic s) := by
  unfold Machine.flagRow
  exact .when (fun hv => hv.put.pulse) h.put.put

theorem putStr {ch n row stripe v : Nat} (h : Onward r s) : Onward r (putStr ch n row stripe v s) := h.put

-- Blocks of a picture

theorem fillBlock {ch x b : Nat} {f : Fmt} {v : Nat → Nat → Nat → Nat} (h : Onward r s) : Onward r (fillBlock ch f x b v s) :=
  .each (fun _ _ hv => hv.put) h

/-- The function is unfolded as a whole: unfolded at its arguments, its `match` has the kernel evaluate the summary that is stored. -/
theorem setBlock {ch p x b : Nat} {f : Fmt} {m : Sum} (h : Onward r s) : Onward r (setBlock ch p f x b m s) := by
  obtain ⟨store, hstore⟩ : ∃ store, store = @Machine.setBlock := ⟨_, rfl⟩
  rw [← hstore]
  delta Machine.setBlock at hstore
  subst hstore
  beta_reduce
  extract_lets side marked
  have hmarked : Onward r marked := h.put
  clear_value marked side
  split
  · exact hmarked
  · refine .each (fun l v hv => ?_) hmarked
    split
    exact hv.lineWrite

theorem concealSpatial {l : Lost} {src : Option RefPic} {x b : Nat} {pois : Bool} (h : Onward r s) :
    Onward r (concealSpatial l src x b pois s) := by
  unfold Machine.concealSpatial
  exact .setBlock (.fillBlock (.when put h))

theorem concealBlock {l : Lost} {x b : Nat} {pois : Bool} (h : Onward r s) : Onward r (concealBlock l x b pois s) := by
  have hmarked : Onward r ((s.when (!l.enc) (fun s => s.bump (.ref .CNT) l.ch 6)).put (.ref .xCONC) 1 l.ch 0 l.par) :=
    .put (.when (fun hv => hv.bump) h)
  unfold Machine.concealBlock
  generalize (s.when (!l.enc) (fun s => s.bump (.ref .CNT) l.ch 6)).put (.ref .xCONC) 1 l.ch 0 l.par = m at hmarked ⊢
  have hread : ∀ p, Onward r (m.when p (fun s => s.put (.ref .STATUS_SB_BAD) 1 l.ch)) := fun p => .when (fun hv => hv.put) hmarked
  dsimp only
  split
  · exact .ite hmarked.concealSpatial (.ite (hread _).fillBlock.setBlock (hread _).concealSpatial)
  · exact hmarked.concealSpatial

theorem concealStripe {l : Lost} {row : Nat} (h : Onward r s) : Onward r (concealStripe l row s) := .each (fun _ _ hv => hv.concealBlock) h

theorem noteSubst {ch n row pic : Nat} {rs : List (RefPic × Option Nat)} (h : Onward r s) : Onward r (noteSubst ch n row pic rs s) := by
  refine .each (fun x v hv => ?_) h
  exact .noteDamage (.put (.when flagRow (.flagRow (.when (fun hw => hw.put.bump) (.when (fun hw => hw.put.bump) hv)))))

theorem recBlock {ch x b qy qc : Nat} {f : Fmt} {v : Avail} {p : Pred} {tbs : List TbEl} (h : Onward r s) :
    Onward r (recBlock ch f v x b p tbs qy qc s) := by
  refine .each (fun i v hv => ?_) h
  unfold recTb
  exact .each (fun _ _ hw => hw.put) hv

-- Stripes

theorem decBlock {c : DecCtx} {x b q q' : Nat} {e : BlkEl} {t : State} (ht : decBlock c x b e q s = some (.ok (t, q'))) (h : Onward r s) :
    Onward r t := by
  unfold Machine.decBlock at ht
  extract_lets f v l a ar al cbf qd isSkipP prd refs inRange at ht
  split at ht
  · exact absurd ht (by simp)
  split at ht
  · split at ht
    · exact absurd ht (by simp)
    · obtain ⟨rfl, -⟩ := Prod.mk.inj (Except.ok.inj (Option.some.inj ht))
      exact .concealBlock (.noteDamage (.flagRow (.bump h.noteSubst)))
  · obtain ⟨rfl, -⟩ := Prod.mk.inj (Except.ok.inj (Option.some.inj ht))
    exact .setBlock (.recBlock (.when (fun hv => hv.flagRow) (.when (fun hv => hv.put) h.noteSubst)))

theorem decBlocks {c : DecCtx} {l : List (Nat × Nat)} {left q : Nat} {e : Ent} {t : State} (ht : decBlocks c l left e q s = .done t)
    (h : Onward r s) : Onward r t := by
  induction l generalizing left e q s with
  | nil =>
    unfold Machine.decBlocks at ht
    split at ht
    · exact StripeFate.done.inj ht ▸ h
    · exact absurd ht (by simp)
  | cons p l ih =>
    obtain ⟨x, b⟩ := p
    unfold Machine.decBlocks at ht
    dsimp only at ht
    split at ht
    · exact absurd ht (by simp)
    · split at ht
      · exact absurd ht (by simp)
      · exact absurd ht (by simp)
      · next hb => exact ih ht (h.decBlock hb)

theorem decodeStripe {ch n row i : Nat} {final : Bool} {t : State} (ht : decodeStripe ch n row i final s = .done t) (h : Onward r s) :
    Onward r t := by
  unfold Machine.decodeStripe at ht
  split at ht
  · exact h.decBlocks ht
  · exact absurd ht (by simp)

theorem loseStripe {ch n row i : Nat} (h : Onward r s) : Onward r (loseStripe ch n row i s) := h.putStr.bump.noteDamage

theorem stripeDecoded {ch n row i : Nat} (h : Onward r s) : Onward r (stripeDecoded ch n row i s) := by
  unfold Machine.stripeDecoded
  extract_lets l trunc counted hit
  have hcounted : Onward r counted := .when (fun hv => hv.bump.flagRow) h
  exact .ite hcounted.putStr (.noteDamage (.flagRow (.putStr (.each (fun _ _ hv => hv.put) hcounted))))

theorem concealParity {l : Lost} {row : Nat} (h : Onward r s) : Onward r (concealParity l row s) := .each (fun _ _ hv => hv.concealBlock) h

theorem finishStripe {ch n row i : Nat} (h : Onward r s) : Onward r (finishStripe ch n row i s) := by
  unfold Machine.finishStripe
  dsimp only
  split
  · exact h.concealStripe.putStr.flagRow
  · split
    · next t ht => exact .flagRow (.putStr (.when concealParity (h.decodeStripe ht).stripeDecoded))
    · exact h.loseStripe.concealStripe.putStr.flagRow
  · exact h.concealParity.putStr.flagRow
  · exact h

-- Requests for a refresh

theorem sendRequest {ch pic a b reasons : Nat} (h : Onward r s) : Onward r (sendRequest ch pic a b reasons s) :=
  .pulse (.bump (.bump h.free.emit))

theorem sendCollected {ch : Nat} (h : Onward r s) : Onward r (sendCollected ch s) := .ite h (.put (.put (.put (.put h.sendRequest))))

theorem requestFor {ch n pic : Nat} (h : Onward r s) : Onward r (requestFor ch n pic s) := .ite h (.sendCollected h.put.put.put.put)

-- The commit of a row

theorem commitDecRow {ch n row : Nat} (h : Onward r s) : Onward r (commitDecRow ch n row s) := by
  unfold Machine.commitDecRow
  split
  next f x pic hf =>
  extract_lets w k lost flagged counted marked kept sent consumed dropped stored started
  have hflagged : Onward r flagged := .when flagRow h
  have hcounted : Onward r counted := .when bump hflagged
  have hsent : Onward r sent := .sendVideo ⟨hcounted.safe, hcounted.osc⟩
  have hdropped : Onward r dropped := hsent.consume.storeDrop
  have hstored : Onward r stored := by
    refine .ite hdropped ?_
    split
    · exact hdropped.storePic
    · exact hdropped
  exact .ite hsent (.picEnd (.requestFor hstored.dropWork.startDrop))

theorem closeRow {ch n row : Nat} (h : Onward r s) : Onward r (closeRow ch n row s) :=
  .ite h (.commitDecRow (.each (fun _ _ hv => hv.finishStripe) h))

-- HEVC

theorem sortDpb {ch : Nat} (h : Onward r s) : Onward r (sortDpb ch s) := .each (fun _ _ hv => .each (fun _ _ hw => hw.put) hv) h

theorem hevcPicture {ch n : Nat} (h : Onward r s) : Onward r (hevcPicture ch n s) := by
  unfold Machine.hevcPicture
  split
  next f x pic hf =>
  split
  next v t ht =>
  have hfree : Onward r t := (Prod.mk.inj ht).2 ▸ h.free
  extract_lets whole wrong flagged last entry
  have hflagged : Onward r flagged := .when (fun hv => hv.bump.flagRow) hfree
  exact .ite hflagged hflagged.storePic.sortDpb

theorem hevcRowDone {ch n row : Nat} (h : Onward r s) : Onward r (hevcRowDone ch n row s) := by
  unfold Machine.hevcRowDone
  exact .commitDecRow (.when (fun hv => hv.hevcPicture) h)

theorem hashRow {ch n row : Nat} {f : Fmt} (h : Onward r s) : Onward r (hashRow ch n row f s) := .each (fun _ _ hv => hv.put) h

theorem concealCtuRow {ch n row : Nat} (h : Onward r s) : Onward r (concealCtuRow ch n row s) :=
  .hevcRowDone (.hashRow (.flagRow (.putStr (.each (fun _ _ hv => hv.concealBlock) h))))

theorem concealNext {ch n k row : Nat} (h : Onward r s) : Onward r (concealNext ch n k row s) := by
  induction k generalizing row s with
  | zero => exact h
  | succ k ih => exact .ite (ih h.concealCtuRow) h

-- The latest commit

theorem endRex {ch n row i : Nat} (h : Onward r s) : Onward r (endRex ch n row i s) := by
  unfold Machine.endRex
  split
  · exact h
  · exact .put (.frame (gateTouch_frame _ _) h.put)

theorem commitLate {ch n row : Nat} (h : Onward r s) : Onward r (commitLate ch n row s) := by
  have hstripe : ∀ i v, Onward r v → Onward r (if v.strSt ch n row i = 1 then
      Machine.noteDamage ch row (n % 2) 1 (Machine.putStr ch n row i 3 (Machine.endRex ch n row i v)) else v) := fun i v hv =>
    .ite hv.endRex.putStr.noteDamage hv
  unfold Machine.commitLate
  exact .ite h (.ite h.endRex.concealCtuRow.concealNext (.closeRow (.each hstripe h)))

/-- The rows of a channel past their latest commit commit at the edge of the clock, and no safe state ends (R202, R459). -/
theorem commitAllLate {ch : Nat} (h : Onward r s) : Onward r (commitAllLate ch s) :=
  .each (fun _ _ hv => .each (fun _ _ hw => hw.commitLate) hv) h

end Onward

end Sys2Proof
end

section
/-!
PROOFS. What has been sent stays sent while the pools of a die settle, and the frame that their settling keeps (R297, R361, R372, R399).
-/

namespace Sys2Proof

open Machine

variable {s t u : State}

/-- Something has left the module. -/
def Said (o : Out) (s : State) : Prop := o ∈ s.outs

namespace Said

variable {o : Out} {f : Fld} {v i j k n : Nat}

theorem put (h : Said o s) : Said o (s.put f v i j k) := h
theorem bump (h : Said o s) : Said o (s.bump f i j k n) := h
theorem emit (p : Out) (h : Said o s) : Said o (s.emit p) := List.mem_append_left _ h
theorem emitted (o : Out) (s : State) : Said o (s.emit o) := by simp [Said, State.emit]

theorem when {p : Bool} {f : State → State} (hf : Said o s → Said o (f s)) (h : Said o s) : Said o (s.when p f) := by
  unfold State.when
  split
  · exact hf h
  · exact h

theorem ite {c : Prop} [Decidable c] (h : Said o s) (g : Said o t) : Said o (if c then s else t) := by
  split
  · exact h
  · exact g

theorem each {α : Type} {l : List α} {f : α → State → State} (hf : ∀ x v, Said o v → Said o (f x v)) (h : Said o s) :
    Said o (forEach l f s) := forEach_inv (Said o) l f (fun x _ v hv => hf x v hv) s h

-- The event controller

theorem msix (h : Said o s) : Said o (sendMsix n s) := .ite h.put (h.emit _)

theorem settleTarget (h : Said o s) : Said o (settleTarget n s) := .ite (.msix h.put) h.put

theorem settle (h : Said o s) : Said o (settle s) := h.settleTarget.settleTarget.settleTarget.settleTarget

theorem fifoWrite {data : Nat} {poison : Bool} (h : Said o s) : Said o (fifoWrite n data poison s) := .ite h h

theorem srcEntry {det : Nat} (h : Said o s) : Said o (srcEntry n det s) := .when (fun hs => hs.fifoWrite) h

theorem thrPulse {r : State} (h : Said o s) : Said o (thrPulse r n s) :=
  .ite (.ite (.bump (.srcEntry h.put)) (.put (.srcEntry h.put))) h

theorem thrAll {r : State} (h : Said o s) : Said o (thrAll r s) :=
  .each (fun _ _ hv => .ite hv hv.thrPulse) (.each (fun _ _ hv => hv.thrPulse) h)

theorem evLevel {on : Bool} {det : Nat} (h : Said o s) : Said o (evLevel n on det s) := by
  have hon : Said o (s.putB (.evc .SRC_CFG_ASSERTED) on n) := h.put
  have hent := Said.ite (c := (on && !s.flag (.evc .SRC_CFG_ASSERTED) n) = true)
    ((hon.srcEntry (n := n) (det := det)).thrAll (r := s)) hon
  exact .settle (.ite hent.put hent)

theorem pool {d : Nat} (h : Said o s) : Said o (poolSettle d s) := by
  unfold Machine.poolSettle
  exact .each (fun _ _ hv => .when Said.evLevel (.each (fun _ _ hw => .when Said.put hw) hv)) (.when Said.evLevel (.when Said.put h))

/-- Outside the safe state a command keeps what its effect has sent. -/
theorem commit (hs : s.safe = false) (h : Said o t) : Said o (s.commit t) := by
  rw [Said, outs_commit_of_open hs]
  exact h

end Said

/-- The pools settle with their LOW bits and events alone (R297, R360). -/
theorem poolSettle_pool (d : Nat) (s : State) : Frame poolKeys s (poolSettle d s) :=
  have h := poolSettle_frame d s
  ⟨(poolSettle_carried d s).regs, h.bytes, h.traffic, h.safe, h.clock, fun e => absurd e (by decide)⟩

theorem poolsSettle_pool (s : State) : Frame poolKeys s (poolsSettle s) :=
  .forEach _ _ (fun _ _ _ => .when _ _ (fun _ => poolSettle_pool _ _)) s

/-- A commit keeps the frame of what comes after a state that has the safe state and the clock of the one found. -/
theorem Frame.commitOnward {B : Key → Bool} {now : Now} {w : State} (hnow : u = s.atNow now) (hw : Onward u w) (h : Frame B w t) :
    Frame B w (s.commit t) := by
  replace hnow := hnow.symm
  subst hnow
  refine ⟨h.regs, h.bytes, h.traffic, ?_, ⟨?_, h.clock.2⟩, h.events⟩
  · have hsafe : s.safe = true → w.safe = true := fun e => hw.safe ((State.atNow_safe s now).trans e)
    rw [State.commit_safe, h.safe]
    cases hs : s.safe
    · rfl
    · exact (hsafe hs).symm
  · rw [State.commit_osc, h.clock.1, hw.osc, State.atNow_osc, ← max_assoc, max_self]

end Sys2Proof
end

section
/-!
PROOFS. The tokens of a bucket (R267, R276, R282): what a setting, a refill and a charge touch, and what the tokens then are.
-/

namespace Sys2Proof

open Machine

variable {s t u : State} {d n : Nat}

/-- The hidden counters of a bucket. -/
def tokKeys (d n : Nat) (k : Key) : Bool :=
  (k.fld == .shp .xTOK || k.fld == .shp .xTOK_SET || k.fld == .shp .xRESID || k.fld == .shp .xREFILL) && k.i == d && k.j == n

theorem tokKeys_home {k : Key} (h : tokKeys d n k = true) : (k.fld.home == .shp && k.i == d && k.j == n) = true := by
  obtain ⟨f, i, j, m⟩ := k
  cases f <;> simp_all [tokKeys, Fld.home]

theorem setTokens_tok (d n : Nat) (v : Int) (s : State) : Frame (tokKeys d n) s (setTokens d n v s) :=
  (Frame.put _ _ _ _ _ _ (by simp [tokKeys])).trans (Frame.put _ _ _ _ _ _ (by simp [tokKeys]))

theorem refill_tok (d n m : Nat) (s : State) : Frame (tokKeys d n) s (refill d n m s) :=
  .ite (.refl _ s) (((setTokens_tok _ _ _ s).trans (Frame.put _ _ _ _ _ _ (by simp [tokKeys]))).trans
    (Frame.put _ _ _ _ _ _ (by simp [tokKeys])))

theorem deduct_tok (d n len : Nat) (s : State) : Frame (tokKeys d n) s (deduct d n len s) := setTokens_tok _ _ _ s

theorem refill_kept (d n m : Nat) (s : State) : Kept s (refill d n m s) :=
  .ite (.refl s) (((setTokens_kept _ _ _ s).trans (.put _ _ _ _ _ _)).trans (.put _ _ _ _ _ _))

/-- A charge after a refill changes the bucket's counters alone. -/
theorem charge_carried (d n m len : Nat) (s : State) : Carried (tokKeys d n) s (deduct d n len (refill d n m s)) :=
  .of_kept ((refill_kept d n m s).trans (setTokens_kept _ _ _ _)) ((refill_tok d n m s).trans (deduct_tok _ _ _ _)).regs

-- What the tokens are

/-- A number of `w` bits in two's complement reads back. -/
theorem signedOf_toSigned {v : Int} (hlo : -(2 ^ 63) ≤ v) (hhi : v < 2 ^ 63) : signedOf 64 (toSigned 64 v) = v := by
  unfold signedOf toSigned
  norm_num at *
  split <;> omega

theorem signedOf_ge (v : Nat) : -(2 ^ 63) ≤ signedOf 64 v := by
  unfold signedOf
  norm_num
  split <;> omega

theorem tokens_setTokens {v : Int} (hlo : -(2 ^ 63) ≤ v) (hhi : v < 2 ^ 63) : (setTokens d n v s).tokens d n = v := by
  have hcut : Key.cut ⟨.shp .xTOK, d, n, 0⟩ (toSigned 64 v) = toSigned 64 v := Key.cut_fit _ _ (toSigned_lt 64 v)
  have hset : (setTokens d n v s).flag (.shp .xTOK_SET) d n = true := flag_put_same _ _ _ _ _ _
  have htok : (setTokens d n v s).get (.shp .xTOK) d n = toSigned 64 v :=
    (State.get_put_fld _ _ _ _ _ _ _ _ _ _ (by decide)).trans ((State.get_put_same _ _ _ _ _ _).trans hcut)
  rw [State.tokens, hset, if_pos rfl, State.int, htok]
  exact signedOf_toSigned hlo hhi

/-- The fields that the tokens of a bucket are read from. -/
def tokFlds : List Fld := [.shp .xTOK, .shp .xTOK_SET, .shp .BKT_CFG_RESET_FILL, .shp .BKT_BURST_BURST]

theorem tokens_put {f : Fld} (v i j k : Nat) (s : State) (hf : ∀ g ∈ tokFlds, g ≠ f) : (s.put f v i j k).tokens d n = s.tokens d n := by
  simp only [tokFlds, List.forall_mem_cons] at hf
  obtain ⟨htok, hset, hfill, hburst, -⟩ := hf
  simp only [State.tokens, State.int, State.bktBurst, flag_put_fld _ _ _ _ _ _ _ _ hset, flag_put_fld _ _ _ _ _ _ _ _ hfill,
    State.get_put_fld _ _ _ _ _ _ _ _ _ _ htok, State.get_put_fld _ _ _ _ _ _ _ _ _ _ hburst]

theorem bktBurst_le (s : State) (d n : Nat) : s.bktBurst d n ≤ 16777216 := by
  unfold State.bktBurst clampTo
  split_ifs <;> omega

theorem tokens_ge (s : State) (d n : Nat) : -(2 ^ 63) ≤ s.tokens d n := by
  unfold State.tokens
  split
  · exact signedOf_ge _
  · simp only [tokUnit]
    split <;> omega

/-- A refill adds what the rate gives since the last one, up to BURST (R267). -/
theorem tokens_refill (d n m : Nat) (s : State) :
    (refill d n m s).tokens d n =
      if m ≤ s.lastRefill d n then s.tokens d n
      else min ((s.bktBurst d n : Int) * tokUnit)
        (s.tokens d n + ((s.bktRate d n * (m - s.lastRefill d n) * 65536 + s.get (.shp .xRESID) d n) / 8000 : Nat)) := by
  unfold refill
  dsimp only
  split
  · rfl
  · have hburst := bktBurst_le s d n
    have htok := tokens_ge s d n
    rw [tokens_put _ _ _ _ _ (by decide), tokens_put _ _ _ _ _ (by decide)]
    refine tokens_setTokens ?_ ?_ <;> (simp only [tokUnit]; omega)

/-- A refill never passes BURST (R267). -/
theorem tokens_refill_le {m : Nat} (h : s.lastRefill d n < m) : (refill d n m s).tokens d n ≤ (s.bktBurst d n : Int) * tokUnit := by
  rw [tokens_refill, if_neg (by omega)]
  exact min_le_left _ _

end Sys2Proof
end

section
/-!
PROOFS. What an interface takes next (R276): the choice does not depend on the wire, and each choice has its effect.
-/

namespace Sys2Proof

open Machine

variable {s t u : State} {i : Nat} {c : Copy}

section
variable (v j : Nat) (s : State)

theorem copyReady_wire (c : Copy) : (s.put (.shp .xWIRE) v j).copyReady c = s.copyReady c := by
  simp [State.copyReady, State.bktMode]

theorem bktOpen_wire (d n : Nat) : (s.put (.shp .xWIRE) v j).bktOpen d n = s.bktOpen d n := by
  have htok : (s.put (.shp .xWIRE) v j).tokens d n = s.tokens d n := tokens_put _ _ _ _ _ (by decide)
  simp [State.bktOpen, State.bktMode, tokens_refill, htok, State.lastRefill, State.bktBurst, State.bktRate, State.tai]

theorem pickClass_wire (i : Nat) : (s.put (.shp .xWIRE) v j).pickClass i = s.pickClass i := by
  simp only [State.pickClass, bktOpen_wire, copyReady_wire]
  rfl

theorem pickHost_wire (i : Nat) : (s.put (.shp .xWIRE) v j).pickHost i = s.pickHost i := by
  simp only [State.pickHost, bktOpen_wire, State.put_copies]

theorem txStopped_wire : (s.put (.shp .xWIRE) v j).txStopped = s.txStopped := by simp [State.txStopped]

theorem ifaceUp_wire (i : Nat) : (s.put (.shp .xWIRE) v j).ifaceUp i = s.ifaceUp i := by simp [State.ifaceUp, State.dieUp]

theorem ptpWaits_wire (i : Nat) : (s.put (.shp .xWIRE) v j).ptpWaits i = s.ptpWaits i := by simp [State.ptpWaits, State.ptpIface]

theorem nextCopy_wire (i : Nat) : nextCopy i (s.put (.shp .xWIRE) v j) = nextCopy i s := by
  have hraster : (s.put (.shp .xWIRE) v j).pickRaster i = s.pickRaster i := rfl
  rw [nextCopy, txStopped_wire, ifaceUp_wire, ptpWaits_wire, hraster, pickClass_wire, pickHost_wire, nextCopy]

end

/-- The copy that comes next starts (R276). -/
theorem nextFrame_copy (h : nextCopy i s = some c) : nextFrame i s = startCopy c s := by
  unfold nextCopy at h
  unfold nextFrame
  split at h
  · exact absurd h (by simp)
  · next hgo =>
    simp only [Bool.or_eq_true, not_or] at hgo
    rw [if_neg (by simpa using hgo.1), if_neg hgo.2]
    rcases hraster : s.pickRaster i with _ | a
    · rcases hclass : s.pickClass i with _ | a
      · rw [hraster, hclass, Option.none_or, Option.none_or] at h
        rw [h]
      · rw [hraster, hclass, Option.none_or, Option.some_or] at h
        rw [Option.some.inj h]
    · rw [hraster, Option.some_or, Option.some_or] at h
      rw [Option.some.inj h]

/-- Nothing starts where nothing may leave, or nothing waits (R269, R276, R465). -/
theorem nextFrame_none (h : s.txStopped = true ∨ s.ifaceUp i = false ∨ (s.ptpWaits i = false ∧ nextCopy i s = none)) : nextFrame i s = s := by
  unfold nextFrame
  split
  · rfl
  · next hgo =>
    obtain ⟨htx, hup⟩ : s.txStopped = false ∧ s.ifaceUp i = true := by simpa using hgo
    obtain ⟨hptp, hnone⟩ := (h.resolve_left (by simp [htx])).resolve_left (by simp [hup])
    rw [nextCopy, htx, hup, hptp] at hnone
    simp only [Bool.not_true, Bool.or_false, Bool.false_eq_true, if_false, Option.or_eq_none_iff] at hnone
    obtain ⟨⟨hraster, hclass⟩, hhost⟩ := hnone
    rw [hptp, hraster, hclass, hhost]
    rfl

/-- A delay request that waits comes first (R42, R276). -/
theorem nextFrame_ask (htx : s.txStopped = false) (hup : s.ifaceUp i = true) (hptp : s.ptpWaits i = true) :
    nextFrame i s = emitDelayReq (i / 4) ((s.put (.trs .xDREQ) 0 (i / 4)).put (.shp .xWIRE) 1 i) := by
  rw [nextFrame, htx, hup, hptp]
  rfl

end Sys2Proof
end

section
/-!
PROOFS. What starts on an interface (R42, R276, R281), and what the settling of the pools and the commit leave of it.
-/

namespace Sys2Proof

open Machine

variable {s t u v w : State} {i : Nat} {c : Copy}

-- A copy

/-- What the start of a copy may touch before it is counted: all but the sequence counters, which go with the queues, and the count. -/
def startCopyKeys (c : Copy) (k : Key) : Bool := k.fld != .shp .SEQ_NEXT && k != ⟨.shp .CNT, c.die, 0, 0⟩

theorem startCopyKeys_of_pool {k : Key} (h : poolKeys k = true) : startCopyKeys c k = true := by
  obtain ⟨f, a, b, n⟩ := k
  cases f <;> simp_all [poolKeys, evcKeys, startCopyKeys, Fld.home]

theorem startCopyKeys_of_tok {d n : Nat} {k : Key} (h : tokKeys d n k = true) : startCopyKeys c k = true := by
  obtain ⟨f, a, b, m⟩ := k
  cases f <;> simp_all [tokKeys, startCopyKeys]; grind

theorem lateMark_carried (s : State) :
    Carried (startCopyKeys c) s (match c.handle with
      | some h => flowEvent c.die h 2 (s.bump (.shp .CNT) c.die 3)
      | none => s.bump (.shp .CNT) c.die 3) := by
  have hcnt : Carried (startCopyKeys c) s (s.bump (.shp .CNT) c.die 3) := .bump _ _ _ _ _ _ (by simp [startCopyKeys])
  split
  · exact hcnt.trans ((flowEvent_carried _ _ _ _).pool_of_evc.mono (fun _ => startCopyKeys_of_pool))
  · exact hcnt

theorem mirrorMsg_carried (d h next : Nat) (s : State) : Carried (startCopyKeys c) s (mirrorMsg d h next s) :=
  .ite (.refl _ s) (.put _ _ _ _ _ _ (by simp [startCopyKeys]))

theorem firstPicture_carried (s : State) : Carried (startCopyKeys c) s (firstPicture s) := by
  have hmid : ∀ (f : Mid) (n : Nat) (v : State), Carried (startCopyKeys c) v (v.put (.mid f) n) :=
    fun f n v => .put _ _ _ _ _ _ (by simp [startCopyKeys])
  unfold firstPicture
  exact .trans (.when _ _ (hmid _ _ _)) (.when _ _ (hmid _ _ _))

/-- A copy that is taken off its queue between such steps has left when it is counted and on the wire. -/
theorem sent_of_carried {out : List Byte} {good : Bool} (hv : Carried (startCopyKeys c) u v)
    (hw : Carried (startCopyKeys c) { v with copies := v.copies.filter (· != c) } w) :
    Sent c u (((w.bump (.shp .CNT) c.die 0).put (.shp .xWIRE) 1 c.iface).emit (.frame c.iface out good)) := by
  have hqueue : startCopyKeys c ⟨.shp .SEQ_NEXT, 0, 0, 0⟩ = false := rfl
  have hcount : w.get (.shp .CNT) c.die 0 = u.get (.shp .CNT) c.die 0 :=
    (hw.regs.get (by simp [startCopyKeys])).trans (hv.regs.get (by simp [startCopyKeys]))
  have hcopies : w.copies = u.copies.filter (· != c) := (hw.copies hqueue).trans (congrArg _ (hv.copies hqueue))
  have hbytes : SameBytes v w := hw.bytes
  have hend : Carried (fun k => k != ⟨.shp .SEQ_NEXT, 0, 0, 0⟩) w
      (((w.bump (.shp .CNT) c.die 0).put (.shp .xWIRE) 1 c.iface).emit (.frame c.iface out good)) :=
    ((Carried.bump _ _ _ _ _ _ (by simp)).trans (.put _ _ _ _ _ _ (by simp))).trans (.of_kept (.emit _ _) (Frame.emit _ _).regs)
  refine ⟨(hend.copies (by simp)).trans hcopies, flag_put_same _ _ _ _ _ _, ⟨out, good, Said.emitted _ _⟩, ?_,
    (hv.bytes.trans hbytes).trans hend.bytes⟩
  rw [← hcount, State.get_emit, State.get_put_fld _ _ _ _ _ _ _ _ _ _ (by decide)]
  exact (count_reads _ _ _ _ w rfl).1

theorem startCopy_sent {x : Chain} (hx : u.chain? c.chain = some x) : Sent c u (startCopy c u) := by
  unfold startCopy
  rw [hx]
  exact sent_of_carried
    (((Carried.when _ _ ((charge_carried _ _ _ _ u).mono (fun _ => startCopyKeys_of_tok))).trans (.when _ _ (lateMark_carried _))).trans
      (.when _ _ (mirrorMsg_carried _ _ _ _)))
    (((dropRef_carried _ _).mono (fun _ => startCopyKeys_of_pool)).trans (.when _ _ (firstPicture_carried _)))

theorem Sent.pool (h : Sent c u t) (d : Nat) : Sent c u (poolSettle d t) := by
  obtain ⟨hqueue, hwire, ⟨out, good, hout⟩, hcount, hbytes⟩ := h
  have hp := poolSettle_pool d t
  exact ⟨hp.traffic.2.1.trans hqueue, (hp.regs.flag rfl).trans hwire, ⟨out, good, Said.pool hout⟩, (hp.regs.get rfl).trans hcount,
    hbytes.trans hp.bytes⟩

theorem Sent.commit (hs : s.safe = false) (h : Sent c u t) : Sent c u (s.commit t) := by
  obtain ⟨hqueue, hwire, ⟨out, good, hout⟩, hcount, hbytes⟩ := h
  exact ⟨hqueue, hwire, ⟨out, good, Said.commit hs hout⟩, hcount, hbytes⟩

/-- The wire that has been given up does not matter. -/
theorem Sent.of_wire {n j : Nat} (h : Sent c (u.put (.shp .xWIRE) n j) t) : Sent c u t := by
  obtain ⟨hqueue, hwire, hout, hcount, hbytes⟩ := h
  exact ⟨hqueue, hwire, hout, hcount.trans (by rw [State.get_put_fld _ _ _ _ _ _ _ _ _ _ (by decide)]), hbytes⟩

-- A delay request

theorem emitDelayReq_asked (u : State) : Asked i u (emitDelayReq (i / 4) ((u.put (.trs .xDREQ) 0 (i / 4)).put (.shp .xWIRE) 1 i)) := by
  have hkept : Kept u (emitDelayReq (i / 4) ((u.put (.trs .xDREQ) 0 (i / 4)).put (.shp .xWIRE) 1 i)) :=
    ((((Kept.put _ _ _ _ _ _).trans (.put _ _ _ _ _ _)).trans (.put _ _ _ _ _ _)).trans (.put _ _ _ _ _ _)).trans (.emit _ _)
  obtain ⟨st, ff, os, heq⟩ := hkept
  refine ⟨?_, ?_, ?_, by rw [heq], by rw [heq]; exact ⟨rfl, rfl, rfl, rfl⟩⟩
  · simp [emitDelayReq, State.bump_eq, Key.cut]
  · simp [emitDelayReq, State.bump_eq, Key.cut, Fld.width, Shp.width]
  · simp [emitDelayReq, State.bump_eq, Key.cut, Fld.width, Trs.width, State.emit]

theorem Asked.pool (h : Asked i u t) (d : Nat) : Asked i u (poolSettle d t) := by
  obtain ⟨hwait, hwire, hout, hqueue, hbytes⟩ := h
  have hp := poolSettle_pool d t
  exact ⟨(hp.regs.flag rfl).trans hwait, (hp.regs.flag rfl).trans hwire, Said.pool hout, hp.traffic.2.1.trans hqueue, hbytes.trans hp.bytes⟩

theorem Asked.commit (hs : s.safe = false) (h : Asked i u t) : Asked i u (s.commit t) := by
  obtain ⟨hwait, hwire, hout, hqueue, hbytes⟩ := h
  exact ⟨hwait, hwire, Said.commit hs hout, hqueue, hbytes⟩

theorem Asked.of_wire {n j : Nat} (h : Asked i (u.put (.shp .xWIRE) n j) t) : Asked i u t := by
  obtain ⟨hwait, hwire, hout, hqueue, hbytes⟩ := h
  rw [flag_put_fld _ _ _ _ _ _ _ _ (by decide), State.get_put_fld _ _ _ _ _ _ _ _ _ _ (by decide)] at hout
  exact ⟨hwait, hwire, hout, hqueue, hbytes⟩

-- The raster releases

/-- The copies of a position go, and are counted (R272, R273). -/
theorem releaseCopies_released (ch : Nat) (hit : Nat → Nat → Bool) (u : State) : ReleasedAt ch hit u (releaseCopies ch hit u) := by
  refine ⟨?_, ?_, rfl, ⟨rfl, rfl, rfl, rfl⟩, ?_⟩
  · refine List.map_congr_left (fun c _ => ?_)
    simp only [Copy.released, Bool.and_eq_true, beq_iff_eq, Bool.not_eq_true', decide_eq_true_eq, and_assoc]
  · refine List.map_congr_left (fun c _ => ?_)
    simp only [Cross.released, Bool.and_eq_true, beq_iff_eq, Bool.not_eq_true', decide_eq_true_eq, and_assoc]
  · exact (SameRegs.put _ _ _ _ _ _ _ (by simp)).trans (SameRegs.put _ _ _ _ _ _ _ (by simp))

theorem ReleasedAt.frame {ch : Nat} {hit : Nat → Nat → Bool} (h : ReleasedAt ch hit u t) (g : Frame poolKeys t v) :
    ReleasedAt ch hit u v := by
  obtain ⟨hcopies, hcross, hchains, hbytes, hregs⟩ := h
  obtain ⟨gchains, gcopies, gcross, -⟩ := g.traffic
  exact ⟨gcopies.trans hcopies, gcross.trans hcross, gchains.trans hchains, hbytes.trans g.bytes,
    hregs.trans (g.regs.mono (fun k hk => by simp [hk]))⟩

end Sys2Proof
end

section
/-!
PROOFS. EgressOrder: what a release, a frame boundary and a bucket let go, and the mirror of a sequence counter (R267, R268, R272, R273,
R276, R281).
-/

namespace Sys2Proof

open Machine

variable {s t u w : State} {now : Now}

theorem safe_of_txOpen (h : u.txStopped = false) : u.safe = false := by
  simp only [State.txStopped, Bool.or_eq_false_iff] at h
  exact h.1

/-- Where frames start, the state that the clock leaves and the one before it are outside the safe state. -/
theorem found_open (hnow : u = s.atNow now) (h : u.txStopped = false) : s.safe = false :=
  (State.atNow_safe s now).symm.trans (hnow ▸ safe_of_txOpen h)

theorem exec_found {i : Instr} {f : State → State} (he : exec i s = s.runAt now f) (hl : s.live = true) (hnow : u = s.atNow now) :
    exec i s = .next (s.commit (f u)) := by
  replace hnow := hnow.symm
  subst hnow
  exact exec_at he hl rfl

-- The raster releases

section
variable {ch : Nat} {hit : Nat → Nat → Bool}

/-- The release of a position, where the raster runs and frames may start. -/
def releaseOpen (ch : Nat) (hit : Nat → Nat → Bool) (s : State) : State :=
  poolsSettle (s.when (!s.txStopped && s.tbState != tbFREE) (releaseCopies ch hit))

theorem releaseOpen_goes (htx : w.txStopped = false) (htb : w.tbState ≠ tbFREE) : ReleasedAt ch hit w (releaseOpen ch hit w) := by
  have hgo : (!w.txStopped && w.tbState != tbFREE) = true := by simp [htx, htb]
  rw [releaseOpen, hgo]
  exact (releaseCopies_released ch hit w).frame (poolsSettle_pool _)

theorem releaseOpen_stays (h : w.txStopped = true ∨ w.tbState = tbFREE) : Frame poolKeys w (releaseOpen ch hit w) := by
  have hstop : (!w.txStopped && w.tbState != tbFREE) = false := by rcases h with h | h <;> simp [h]
  rw [releaseOpen, hstop]
  exact poolsSettle_pool w

theorem ReleasedAt.commit (h : ReleasedAt ch hit u t) (s : State) : ReleasedAt ch hit u (s.commit t) := h

end

-- A frame boundary

section
variable {i : Nat} {c : Copy} {x : Chain}

theorem open_of_nextCopy (h : nextCopy i u = some c) : u.txStopped = false := by
  cases htx : u.txStopped
  · rfl
  · simp [nextCopy, htx] at h

theorem frameBoundary_sent (hc : nextCopy i u = some c) (hx : u.chain? c.chain = some x) : Sent c u (frameBoundary i u) := by
  rw [frameBoundary, nextFrame_copy ((nextCopy_wire _ _ u i).trans hc)]
  exact ((startCopy_sent (u := u.put (.shp .xWIRE) 0 i) hx).pool _).of_wire

theorem frameBoundary_asked (htx : u.txStopped = false) (hup : u.ifaceUp i = true) (hptp : u.ptpWaits i = true) :
    Asked i u (frameBoundary i u) := by
  rw [frameBoundary, nextFrame_ask ((txStopped_wire _ _ u).trans htx) ((ifaceUp_wire _ _ u i).trans hup) ((ptpWaits_wire _ _ u i).trans hptp)]
  exact ((emitDelayReq_asked _).pool _).of_wire

theorem frameBoundary_idle (h : u.txStopped = true ∨ u.ifaceUp i = false ∨ (u.ptpWaits i = false ∧ nextCopy i u = none)) :
    (frameBoundary i u).flag (.shp .xWIRE) i = false ∧
      Frame (fun k => k == ⟨.shp .xWIRE, i, 0, 0⟩ || poolKeys k) u (frameBoundary i u) := by
  have hnone : nextFrame i (u.put (.shp .xWIRE) 0 i) = u.put (.shp .xWIRE) 0 i :=
    nextFrame_none (by rwa [txStopped_wire, ifaceUp_wire, ptpWaits_wire, nextCopy_wire])
  rw [frameBoundary, hnone]
  have hpool := poolSettle_pool (ifaceDie i) (u.put (.shp .xWIRE) 0 i)
  exact ⟨(hpool.regs.flag rfl).trans (flag_put_same _ _ _ _ _ _), (Frame.put _ _ _ _ _ _ (by simp)).trans (hpool.mono (fun k hk => by simp [hk]))⟩

end

-- A bucket

section
variable {d n : Nat} {c : Copy}

/-- The copies of a frame that waits for a per-flow bucket. -/
def heldAlike (d n : Nat) (c x : Copy) : Bool := x.die == d && x.chain == c.chain && x.handle == some n && x.wait

/-- A frame whose copies enter their queues after its bucket has been charged leaves the rest as it was. -/
theorem entered_of_carried {v : State} (hv : Carried (tokKeys d n) u v) (ht : t = { v with
      copies := v.copies.filter (fun x => !heldAlike d n c x) ++ (v.copies.filter (heldAlike d n c)).map (fun x => { x with wait := false }) }) :
    t.copies = u.copies.filter (fun x => !heldAlike d n c x) ++
        (u.copies.filter (heldAlike d n c)).map (fun x => { x with wait := false }) ∧
      SameBytes u t ∧ SameRegs (tokKeys d n) u t := by
  subst ht
  rw [← hv.copies rfl]
  exact ⟨rfl, hv.bytes, hv.regs⟩

/-- A per-flow bucket with tokens lets its frame's copies enter their queues behind all others (R268, R276). -/
theorem shapedStart_enters (hn : n < 4096) (hc : u.copies.find? (fun c => c.die == d && c.wait && c.handle == some n) = some c)
    (htok : 0 ≤ (refill d n u.tai u).tokens d n) :
    (shapedStart d n u).copies = u.copies.filter (fun x => !heldAlike d n c x) ++
        (u.copies.filter (heldAlike d n c)).map (fun x => { x with wait := false }) ∧
      SameBytes u (shapedStart d n u) ∧ SameRegs (tokKeys d n) u (shapedStart d n u) := by
  rw [shapedStart, if_pos hn, hc]
  exact entered_of_carried (charge_carried d n u.tai _ u) (if_neg (by omega))

/-- Without tokens the frame waits on. -/
theorem shapedStart_waits (hn : n < 4096) (hc : u.copies.find? (fun c => c.die == d && c.wait && c.handle == some n) = some c)
    (htok : (refill d n u.tai u).tokens d n < 0) : shapedStart d n u = refill d n u.tai u := by
  rw [shapedStart, if_pos hn, hc]
  exact if_pos htok

theorem shapedStart_void (hn : n < 4096) (hc : u.copies.find? (fun c => c.die == d && c.wait && c.handle == some n) = none) :
    shapedStart d n u = u := by
  rw [shapedStart, if_pos hn, hc]

theorem shapedStart_busy (hn : 4096 ≤ n) (hw : w = refill d n u.tai u) (hwire : w.flag (.shp .xWIRE) (8 * d + (n - 4096) / 8) = true) :
    shapedStart d n u = w := by
  rw [shapedStart, if_neg (by omega), ← hw]
  exact if_pos hwire

theorem shapedStart_chooses (hn : 4096 ≤ n) (hw : w = refill d n u.tai u)
    (hwire : w.flag (.shp .xWIRE) (8 * d + (n - 4096) / 8) = false) :
    shapedStart d n u = poolSettle d (nextFrame (8 * d + (n - 4096) / 8) w) := by
  rw [shapedStart, if_neg (by omega), ← hw]
  exact if_neg (by simp [hwire])

/-- What decides whether an interface may choose reads the same after a refill. -/
theorem refill_txStopped (m : Nat) : (refill d n m u).txStopped = u.txStopped := by
  have h := refill_tok d n m u
  rw [State.txStopped, State.txStopped, h.safe, h.regs.get rfl]

theorem refill_ifaceUp (m i : Nat) : (refill d n m u).ifaceUp i = u.ifaceUp i := by
  have h := refill_tok d n m u
  rw [State.ifaceUp, State.dieUp, h.regs.get rfl, h.regs.get rfl, h.regs.get rfl, h.regs.get rfl]
  rfl

theorem refill_ptpWaits (m i : Nat) : (refill d n m u).ptpWaits i = u.ptpWaits i := by
  have h := refill_tok d n m u
  rw [State.ptpWaits, State.ptpIface, h.regs.flag rfl, h.regs.get rfl, h.regs.get rfl]
  rfl

theorem refill_wire (m i : Nat) : (refill d n m u).flag (.shp .xWIRE) i = u.flag (.shp .xWIRE) i := (refill_tok d n m u).regs.flag rfl

end

-- The mirror

section
variable {d h : Nat} {next : Word}

/-- A message that is not behind the mirror moves it on (R281). -/
theorem mirrorMsg_moves (hm : s.get (.shp .xMIRROR) d h = 0 ∨ seqBefore 32 next.toNat (s.get (.shp .xMIRROR) d h - 1) = false) :
    (mirrorMsg d h next.toNat s).get (.shp .xMIRROR) d h = next.toNat + 1 ∧
      Frame (fun k => k == ⟨.shp .xMIRROR, d, h, 0⟩) s (mirrorMsg d h next.toNat s) := by
  have hfit : next.toNat < 2 ^ 32 := next.isLt
  have hput : mirrorMsg d h next.toNat s = s.put (.shp .xMIRROR) (next.toNat + 1) d h := by
    unfold mirrorMsg
    rw [if_neg (by rcases hm with hm | hm <;> simp [hm]), Nat.mod_eq_of_lt hfit]
  have hcut : Key.cut ⟨.shp .xMIRROR, d, h, 0⟩ (next.toNat + 1) = next.toNat + 1 := Key.cut_fit _ _ (by
    show next.toNat + 1 < 2 ^ 33
    omega)
  rw [hput]
  exact ⟨(State.get_put_same _ _ _ _ _ _).trans hcut, Frame.put _ _ _ _ _ _ (by simp)⟩

theorem mirrorMsg_stays (h0 : s.get (.shp .xMIRROR) d h ≠ 0) (hb : seqBefore 32 next.toNat (s.get (.shp .xMIRROR) d h - 1) = true) :
    mirrorMsg d h next.toNat s = s := if_pos ⟨h0, hb⟩

end

-- The statement

/-- The clause of the releases. -/
theorem releases_go (ch : Chan) (row j : Nat) (hl : s.live = true) (hnow : u = s.atNow now)
    (hw : w = (if (u.chRuns ch && u.chDecodes ch) = true then commitAllLate ch u else u)) :
    (u.txStopped = false → u.tbState ≠ tbFREE →
      ∃ t, exec (.rasterRelease ch row j now) s = .next t ∧ ReleasedAt ch (fun r i => r == row && i == j) u t) ∧
    (u.txStopped = true ∨ u.tbState = tbFREE → ∃ t, exec (.rasterRelease ch row j now) s = .next t ∧ Frame poolKeys u t) ∧
    (w.txStopped = false → w.tbState ≠ tbFREE →
      ∃ t, exec (.st2110Release ch j now) s = .next t ∧ ReleasedAt ch (fun _ i => i == j) w t) ∧
    (w.txStopped = true ∨ w.tbState = tbFREE → ∃ t, exec (.st2110Release ch j now) s = .next t ∧ Frame poolKeys w t) := by
  have hraster : exec (.rasterRelease ch row j now) s = .next (s.commit (releaseOpen ch (fun r i => r == row && i == j) u)) :=
    exec_found (f := releaseOpen ch (fun r i => r == row && i == j)) rfl hl hnow
  have hst2110 : exec (.st2110Release ch j now) s = .next (s.commit (releaseOpen ch (fun _ i => i == j) w)) :=
    hw ▸ exec_found (f := fun s => releaseOpen ch (fun _ i => i == j) (s.when (s.chRuns ch && s.chDecodes ch) (commitAllLate ch))) rfl hl hnow
  have honward : Onward u w := hw ▸ .ite (.commitAllLate (.refl u)) (.refl u)
  exact ⟨fun htx htb => ⟨_, hraster, (releaseOpen_goes htx htb).commit s⟩, fun h => ⟨_, hraster, (releaseOpen_stays h).commitNow hnow⟩,
    fun htx htb => ⟨_, hst2110, (releaseOpen_goes htx htb).commit s⟩, fun h => ⟨_, hst2110, (releaseOpen_stays h).commitOnward hnow honward⟩⟩

/-- The clause of a per-flow bucket. -/
theorem flowBucket_lets (d : Die) (n : Bucket) (hl : s.live = true) (hnow : u = s.atNow now) (hn : n.val < 4096) :
    (∀ c, u.txStopped = false → u.copies.find? (fun c => c.die == d.val && c.wait && c.handle == some n.val) = some c →
      (0 ≤ (refill d n u.tai u).tokens d n →
        ∃ t, exec (.shapedFrameStart d n now) s = .next t ∧
          t.copies = u.copies.filter (fun x => !(x.die == d.val && x.chain == c.chain && x.handle == some n.val && x.wait)) ++
            (u.copies.filter (fun x => x.die == d.val && x.chain == c.chain && x.handle == some n.val && x.wait)).map
              (fun x => { x with wait := false }) ∧
          SameBytes u t ∧ SameRegs (fun k => k.fld.home == .shp && k.i == d.val && k.j == n.val) u t) ∧
      ((refill d n u.tai u).tokens d n < 0 →
        ∃ t, exec (.shapedFrameStart d n now) s = .next t ∧
          Frame (fun k => k.fld.home == .shp && k.i == d.val && k.j == n.val) u t)) ∧
    (u.txStopped = true ∨ u.copies.find? (fun c => c.die == d.val && c.wait && c.handle == some n.val) = none →
      ∃ t, exec (.shapedFrameStart d n now) s = .next t ∧ Still u t) := by
  have hexec : exec (.shapedFrameStart d n now) s = .next (s.commit (u.when (!u.txStopped) (shapedStart d n))) :=
    exec_found (f := fun s => s.when (!s.txStopped) (shapedStart d n)) rfl hl hnow
  refine ⟨fun c htx hc => ?_, fun h => ⟨_, hexec, Frame.commitNow hnow ?_⟩⟩
  · rw [htx] at hexec
    refine ⟨fun htok => ⟨_, hexec, ?_⟩, fun htok => ⟨_, hexec, Frame.commitNow hnow ?_⟩⟩
    · obtain ⟨hqueue, hbytes, hregs⟩ := shapedStart_enters hn hc htok
      exact ⟨hqueue, hbytes, hregs.mono (fun _ => tokKeys_home)⟩
    · rw [Bool.not_false, State.when_true, shapedStart_waits hn hc htok]
      exact (refill_tok _ _ _ _).mono (fun _ => tokKeys_home)
  · have hstill : u.when (!u.txStopped) (shapedStart d n) = u := by
      rcases h with h | h
      · rw [h]; rfl
      · rw [State.when_eq, shapedStart_void hn h, ite_self]
    rw [hstill]
    exact .refl _ u

/-- The clause of a port-class bucket. -/
theorem classBucket_chooses (d : Die) (n : Bucket) (hl : s.live = true) (hnow : u = s.atNow now) (hn : 4096 ≤ n.val) {i : Nat}
    (hi : i = 8 * d.val + (n - 4096) / 8) (hw : w = refill d n u.tai u) :
    (u.txStopped = true → ∃ t, exec (.shapedFrameStart d n now) s = .next t ∧ Still u t) ∧
    (u.txStopped = false →
      (u.flag (.shp .xWIRE) i = true → ∃ t, exec (.shapedFrameStart d n now) s = .next t ∧ Still w t) ∧
      (∀ c x, u.flag (.shp .xWIRE) i = false → nextCopy i w = some c → w.chain? c.chain = some x →
        ∃ t, exec (.shapedFrameStart d n now) s = .next t ∧ Sent c w t) ∧
      (u.flag (.shp .xWIRE) i = false → u.ifaceUp i = true → u.ptpWaits i = true →
        ∃ t, exec (.shapedFrameStart d n now) s = .next t ∧ Asked i w t) ∧
      (u.flag (.shp .xWIRE) i = false → u.ifaceUp i = false ∨ (u.ptpWaits i = false ∧ nextCopy i w = none) →
        ∃ t, exec (.shapedFrameStart d n now) s = .next t ∧ Frame poolKeys w t)) := by
  have hexec : exec (.shapedFrameStart d n now) s = .next (s.commit (u.when (!u.txStopped) (shapedStart d n))) :=
    exec_found (f := fun s => s.when (!s.txStopped) (shapedStart d n)) rfl hl hnow
  have hwire : w.flag (.shp .xWIRE) i = u.flag (.shp .xWIRE) i := hw ▸ refill_wire _ _
  have hup : w.ifaceUp i = u.ifaceUp i := hw ▸ refill_ifaceUp _ _
  have hptp : w.ptpWaits i = u.ptpWaits i := hw ▸ refill_ptpWaits _ _
  have hstop : w.txStopped = u.txStopped := hw ▸ refill_txStopped _
  have honward : Onward u w := hw ▸ .frame (refill_tok _ _ _ _) (.refl u)
  refine ⟨fun htx => ?_, fun htx => ?_⟩
  · rw [htx] at hexec
    exact ⟨_, hexec, (Frame.refl _ u).commitNow hnow⟩
  · have hsafe := found_open hnow htx
    rw [htx, Bool.not_false, State.when_true] at hexec
    have hidle : u.flag (.shp .xWIRE) i = false → exec (.shapedFrameStart d n now) s = .next (s.commit (poolSettle d (nextFrame i w))) :=
      fun h => by rw [hexec, shapedStart_chooses hn hw (hi ▸ hwire.trans h), ← hi]
    refine ⟨fun h => ⟨_, hexec, ?_⟩, fun c x h hc hx => ⟨_, hidle h, ?_⟩, fun h hu hp => ⟨_, hidle h, ?_⟩, fun h hnone => ⟨_, hidle h, ?_⟩⟩
    · rw [shapedStart_busy hn hw (hi ▸ hwire.trans h)]
      exact (Frame.refl _ w).commitOnward hnow honward
    · rw [nextFrame_copy hc]
      exact ((startCopy_sent hx).pool d).commit hsafe
    · rw [nextFrame_ask (hstop.trans htx) (hup.trans hu) (hptp.trans hp)]
      exact ((emitDelayReq_asked w).pool d).commit hsafe
    · rw [nextFrame_none (.inr (by rwa [hup, hptp]))]
      exact (poolSettle_pool d w).commitOnward hnow honward

/-- Settles O38: each command is its effect on the state that the clock leaves. A copy that starts is counted and put on the wire after
its bucket is charged, and neither the settling of the pools nor the commit takes back what has left. -/
theorem egressOrder : Obligations.EgressOrder := by
  unfold Obligations.EgressOrder
  refine ⟨fun ch row j now s u w hl hnow hw => releases_go ch row j hl hnow hw, fun i now s u hl hnow => ?_,
    fun d n now s u hl hnow => ⟨flowBucket_lets d n hl hnow, fun hn i w hi hw => classBucket_chooses d n hl hnow hn hi hw⟩,
    fun d n m s h => tokens_refill_le h, fun d h next s hl => ?_⟩
  · have hexec : exec (.interfaceFrameBoundary i now) s = .next (s.commit (frameBoundary i u)) :=
      exec_found (f := frameBoundary i) rfl hl hnow
    refine ⟨fun c x hc hx => ⟨_, hexec, ?_⟩, fun htx hup hptp => ⟨_, hexec, ?_⟩, fun h => ⟨_, hexec, ?_⟩⟩
    · exact (frameBoundary_sent hc hx).commit (found_open hnow (open_of_nextCopy hc))
    · exact (frameBoundary_asked htx hup hptp).commit (found_open hnow htx)
    · obtain ⟨hwire, hframe⟩ := frameBoundary_idle h
      exact ⟨by rwa [State.flag_commit], hframe.commitNow hnow⟩
  · have hexec : exec (.seqMirrorUpdate d h next) s = .next (s.commit (mirrorMsg d h next.toNat s.quiet)) := State.run_live _ _ hl
    refine ⟨fun hm => ⟨_, hexec, ?_⟩, fun h0 hb => ⟨_, hexec, ?_⟩⟩
    · obtain ⟨hval, hframe⟩ := mirrorMsg_moves (s := s.quiet) hm
      exact ⟨hval, hframe.ofQuiet⟩
    · rw [mirrorMsg_stays (s := s.quiet) h0 hb]
      exact (Frame.refl _ _).ofQuiet

end Sys2Proof
end

section
/-!
PROOFS. The free buffer that a pool grants (R284, R288): the search for it ends at an index that no buffer of the pool has.
-/

namespace Sys2Proof

open Machine

variable {d g c o : Nat} {s t : State}

/-- How many of the indexes held are not above an index. -/
def heldUpTo (held : List Nat) (i : Nat) : Nat := held.countP (fun h => decide (h ≤ i))

theorem heldUpTo_mono (held : List Nat) {i j : Nat} (h : i ≤ j) : heldUpTo held i ≤ heldUpTo held j :=
  List.countP_mono_left (fun x _ hx => by simp only [decide_eq_true_eq] at hx ⊢; omega)

/-- An index that is held counts where it is reached. -/
theorem heldUpTo_lt_of_mem {held : List Nat} {i j : Nat} (hj : j ∈ held) (h : i < j) : heldUpTo held i < heldUpTo held j := by
  induction held with
  | nil => exact absurd hj List.not_mem_nil
  | cons x held ih =>
    have hmono := heldUpTo_mono held (Nat.le_of_lt h)
    simp only [heldUpTo, List.countP_cons, decide_eq_true_eq] at ih hmono ⊢
    rcases List.mem_cons.mp hj with rfl | hj
    · rw [if_neg (by omega), if_pos le_rfl]
      omega
    · have := ih hj
      split_ifs <;> omega

theorem nthFree_succ (held : List Nat) (n k i : Nat) :
    nthFree held (n + 1) k i = if k + heldUpTo held i = i then i else nthFree held n k (k + heldUpTo held i) := by
  rw [nthFree, heldUpTo, List.countP_eq_length_filter]

/-- The search moves up to the first index `i` with `i = k +` the number of held ones up to `i`: every index below it falls short of
that, so it is not itself held, and each move uses up one of the held ones. -/
theorem nthFree_not_mem {held : List Nat} {n k i : Nat} (hn : held.length + k < n + i) (hi : i ≤ k + held.length)
    (hshort : ∀ x < i, x < k + heldUpTo held x) (hup : i ≤ k + heldUpTo held i) : nthFree held n k i ∉ held := by
  induction n generalizing i with
  | zero => omega
  | succ n ih =>
    rw [nthFree_succ]
    split
    · next hfix =>
      intro hmem
      rcases Nat.eq_zero_or_pos i with rfl | hpos
      · have : 0 < heldUpTo held 0 := List.countP_pos_iff.mpr ⟨0, hmem, by simp⟩
        omega
      · have hbelow := hshort (i - 1) (by omega)
        have := heldUpTo_lt_of_mem hmem (show i - 1 < i by omega)
        omega
    · next hmove =>
      have hbound : heldUpTo held i ≤ held.length := List.countP_le_length
      refine ih (by omega) (by omega) (fun x hx => ?_) (by have := heldUpTo_mono held hup; omega)
      rcases Nat.lt_or_ge x i with h | h
      · exact hshort x h
      · have := heldUpTo_mono held h
        omega

/-- The indexes of the buffers that are held of a pool. -/
def heldIxs (g c : Nat) (s : State) : List Nat := (s.bufs.filter (fun b => b.grp == g && b.cls == c)).map (·.ix)

theorem mem_heldIxs {b : Buf} (hb : b ∈ s.bufs) (hg : b.grp = g) (hc : b.cls = c) : b.ix ∈ heldIxs g c s :=
  List.mem_map_of_mem (List.mem_filter.mpr ⟨hb, by simp [hg, hc]⟩)

/-- The index that a grant takes. -/
def grantIx (g c : Nat) (s : State) : Nat :=
  nthFree (heldIxs g c s) ((heldIxs g c s).length + 1) (s.free.1 % max 1 (s.classFree g c)) (s.free.1 % max 1 (s.classFree g c))

theorem grantIx_not_held (g c : Nat) (s : State) : grantIx g c s ∉ heldIxs g c s :=
  nthFree_not_mem (by omega) (by omega) (fun x hx => by omega) (by omega)

theorem grantBuf_fst (d g c o : Nat) (s : State) : (grantBuf d g c o s).1 = ⟨g, c, grantIx g c s, o⟩ := rfl

theorem grantBuf_bufs (d g c o : Nat) (s : State) : (grantBuf d g c o s).2.bufs = s.bufs ++ [(grantBuf d g c o s).1] := by
  rw [grantBuf_fst]
  unfold grantBuf
  dsimp only
  rw [State.bump_eq, State.put_bufs, State.when_eq]
  split <;> rfl

/-- Settles O45: a grant adds the one buffer, and the search for its index ends at one that no buffer of the pool has. -/
theorem grantedBufferFree : Obligations.GrantedBufferFree := by
  unfold Obligations.GrantedBufferFree
  intro d g c o s
  refine ⟨grantBuf_bufs d g c o s, by rw [grantBuf_fst], fun b hb ⟨hgrp, hcls, hix⟩ => ?_⟩
  have hix : b.ix = grantIx g c s := hix
  exact grantIx_not_held g c s (hix ▸ mem_heldIxs hb hgrp hcls)

end Sys2Proof
end

section
/-!
PROOFS. An edge of the class pools (R289, R290): what every grant of an edge keeps, and the edge of a request that no other contests.
-/

namespace Sys2Proof

open Machine

variable {d g c o n : Nat} {s t : State} {r : ClassReq}

-- What every grant of an edge keeps

/-- The registers that the grants of an edge touch: the counts, the owners' peaks and the pools' pointers (R290, R297, R300). -/
def grantFlds : List Pdk := [.CNT, .xPEAK, .xRR]

/-- A round on the four groups, and then the round of those that lost (R290). -/
theorem allocRounds_succ (d n : Nat) (l : List ClassReq) (acc : List (Nat × Buf)) (s : State) {e : EdgeReqs} {t : State}
    (h : DownBare.edgeRound d l (List.range 4) (⟨[], [], acc⟩, s) = (e, t)) :
    allocRounds d (n + 1) l acc s = allocRounds d n e.next e.got t := by
  rw [DownBare.edgeRound] at h
  conv_lhs => unfold allocRounds
  split
  next e' t' h' =>
    rw [h] at h'
    cases h'
    rfl

section
variable {P : State → Prop} (hmark : ∀ f ∈ grantFlds, ∀ v i j k w, P w → P (w.put (.pdk f) v i j k))
  (hadd : ∀ b w, P w → P { w.free.2 with bufs := w.bufs ++ [b] })
include hmark hadd

theorem grantBuf_inv (d g c o : Nat) (h : P s) : P (grantBuf d g c o s).2 := by
  unfold grantBuf
  dsimp only
  exact hmark .CNT (by decide) _ _ _ _ _ (when_inv P _ _ (fun u hu => hmark .xPEAK (by decide) _ _ _ _ _ hu) _ (hadd _ _ h))

theorem grantEach_inv (l : List ClassReq) (h : P s) : P (grantEach d g c l s).2 := by
  unfold grantEach
  refine List.foldlRecOn (motive := fun p : Grants × State => P p.2) l _ h (fun p hp r _ => ?_)
  dsimp only
  split
  · exact grantBuf_inv hmark hadd _ _ _ _ hp
  · exact hp

theorem servePool_inv (l : List ClassReq) (h : P s) : P (servePool d g c l s).2.2 := by
  have hgrants : ∀ l₁ l₂ : List ClassReq, P (grantEach d g c l₂ (grantEach d g c l₁ s).2).2 :=
    fun l₁ l₂ => grantEach_inv hmark hadd l₂ (grantEach_inv hmark hadd l₁ h)
  unfold servePool
  dsimp only
  split
  · exact when_inv P _ _ (fun u hu => hmark .CNT (by decide) _ _ _ _ _ (hmark .xRR (by decide) _ _ _ _ _ hu)) _ (hgrants _ _)
  · exact hgrants _ _

theorem edgeClass_inv (l : List ClassReq) (p : EdgeReqs × State) (c : Nat) (h : P p.2) : P (edgeClass d g l p c).2 := by
  unfold edgeClass
  dsimp only
  split
  · exact h
  · exact hmark .CNT (by decide) _ _ _ _ _ (hmark .CNT (by decide) _ _ _ _ _ (servePool_inv hmark hadd _ h))

theorem edgeRound_inv (l : List ClassReq) (rs : List Nat) (p : EdgeReqs × State) (h : P p.2) : P (DownBare.edgeRound d l rs p).2 :=
  List.foldlRecOn (motive := fun q : EdgeReqs × State => P q.2) rs _ h (fun _ hq _ _ =>
    List.foldlRecOn (motive := fun x : EdgeReqs × State => P x.2) (List.range 8) _ hq
      (fun x hx c _ => edgeClass_inv hmark hadd _ x c hx))

theorem allocRounds_inv (n : Nat) (l : List ClassReq) (acc : List (Nat × Buf)) (h : P s) : P (allocRounds d n l acc s).2 := by
  induction n generalizing s l acc with
  | zero => exact h
  | succ n ih =>
    have hround := edgeRound_inv (d := d) hmark hadd l (List.range 4) (⟨[], [], acc⟩, s) h
    rcases he : DownBare.edgeRound d l (List.range 4) (⟨[], [], acc⟩, s) with ⟨e, t⟩
    rw [he] at hround
    rw [allocRounds_succ d n l acc s he]
    exact ih _ _ hround

/-- What the grants of an edge keep, whatever the requests are (R290). -/
theorem allocEdge_inv (d : Nat) (l : List (Nat × Nat)) (h : P s) : P (allocEdge d l s).2 := by
  have hbad := forEach_inv P (l.filter (fun r => decide (8 ≤ r.2))) (fun _ s => s.bump (.pdk .CNT) d 1)
    (fun _ _ u hu => hmark .CNT (by decide) _ _ _ _ _ hu) s h
  unfold allocEdge
  dsimp only
  generalize 8 = n at hbad ⊢
  exact allocRounds_inv hmark hadd n _ _ hbad

end

/-- An edge on the pools is at one edge of the clock, and what was held is held still. -/
theorem allocEdge_osc (d : Nat) (l : List (Nat × Nat)) (s : State) : (allocEdge d l s).2.osc = s.osc :=
  allocEdge_inv (P := fun w => w.osc = s.osc) (fun _ _ _ _ _ _ _ hw => hw) (fun _ _ hw => hw) d l rfl

theorem allocEdge_bufs (d : Nat) (l : List (Nat × Nat)) (s : State) : s.bufs <+: (allocEdge d l s).2.bufs :=
  allocEdge_inv (P := fun w => s.bufs <+: w.bufs) (fun _ _ _ _ _ _ _ hw => hw)
    (fun _ _ hw => hw.trans (List.prefix_append _ _)) d l List.prefix_rfl

/-- A grant leaves every owner's home group. -/
theorem homeGroup_mark {f : Pdk} (hf : f ∈ grantFlds) (v i j k : Nat) (s : State) (d o : Nat) :
    (s.put (.pdk f) v i j k).homeGroup d o = s.homeGroup d o := by
  have hne : (Fld.pdk .OWN_CFG_GROUP) ≠ .pdk f := by
    rintro ⟨⟩
    exact absurd hf (by decide)
  rw [State.homeGroup, State.get_put_fld _ _ _ _ _ _ _ _ _ _ hne, State.homeGroup]

theorem homeGroup_grantBuf (d g c o : Nat) (s : State) (a b : Nat) : (grantBuf d g c o s).2.homeGroup a b = s.homeGroup a b :=
  grantBuf_inv (P := fun w => w.homeGroup a b = s.homeGroup a b) (fun _ hf _ _ _ _ _ hw => (homeGroup_mark hf _ _ _ _ _ _ _).trans hw)
    (fun _ _ hw => hw) d g c o rfl

-- A request that no other contests

/-- A class without a request that asks it does nothing. -/
theorem edgeClass_idle {l : List ClassReq} {p : EdgeReqs × State} (hhere : p.1.here = []) (hl : ∀ r ∈ l, r.cls ≠ c) :
    edgeClass d g l p c = p := by
  have hmine : l.filter (fun r => r.cls == c) = [] := List.filter_eq_nil_iff.mpr (fun r hr => by simpa using hl r hr)
  unfold edgeClass
  rw [hhere, hmine]
  rfl

theorem edgeClasses_idle {l : List ClassReq} {p : EdgeReqs × State} {cs : List Nat} (hhere : p.1.here = [])
    (hl : ∀ r ∈ l, r.cls ∉ cs) : cs.foldl (edgeClass d g l) p = p := by
  induction cs with
  | nil => rfl
  | cons c cs ih =>
    rw [List.foldl_cons, edgeClass_idle hhere (fun r hr e => hl r hr (e ▸ List.mem_cons_self)),
      ih (fun r hr hm => hl r hr (List.mem_cons_of_mem _ hm))]

/-- Of the classes of a group a lone request that leaves none behind meets its own alone. -/
theorem edgeClasses_alone {p q : EdgeReqs × State} {cs : List Nat} (hcs : cs.Nodup) (hc : r.cls ∈ cs) (hhere : p.1.here = [])
    (hq : edgeClass d g [r] p r.cls = q) (hdone : q.1.here = []) : cs.foldl (edgeClass d g [r]) p = q := by
  induction cs with
  | nil => exact absurd hc List.not_mem_nil
  | cons c cs ih =>
    obtain ⟨hnot, hcs⟩ := List.nodup_cons.mp hcs
    rw [List.foldl_cons]
    by_cases e : r.cls = c
    · rw [← e, hq]
      exact edgeClasses_idle hdone (by simpa [e] using hnot)
    · rw [edgeClass_idle hhere (by simpa using e)]
      exact ih hcs ((List.mem_cons.mp hc).resolve_left e)

theorem here_cleared {e : EdgeReqs} (hhere : e.here = []) : ({ e with here := [] } : EdgeReqs) = e := by
  cases e
  cases hhere
  rfl

/-- The groups in which no request has its owner's home do nothing. -/
theorem edgeRound_idle {l : List ClassReq} {rs : List Nat} {e : EdgeReqs} (hhere : e.here = [])
    (hl : ∀ r ∈ l, ∀ a ∈ rs, s.homeGroup d r.owner ≠ 4 * d + a) : DownBare.edgeRound d l rs (e, s) = (e, s) := by
  induction rs with
  | nil => rfl
  | cons a rs ih =>
    have hmine : l.filter (fun q => s.homeGroup d q.owner == 4 * d + a) = [] :=
      List.filter_eq_nil_iff.mpr (fun r hr => by simpa using hl r hr a List.mem_cons_self)
    rw [DownBare.edgeRound, List.foldl_cons, ← DownBare.edgeRound]
    dsimp only
    rw [hmine, here_cleared hhere, edgeClasses_idle hhere (fun r hr => absurd hr List.not_mem_nil)]
    exact ih (fun r hr b hb => hl r hr b (List.mem_cons_of_mem _ hb))

/-- Of the groups of a die a lone request that leaves none behind meets its owner's home alone. -/
theorem edgeRound_alone {rs : List Nat} {e f : EdgeReqs} {q : Nat} (hrs : rs.Nodup) (hq : q ∈ rs) (hcls : r.cls < 8)
    (hs : s.homeGroup d r.owner = 4 * d + q) (ht : t.homeGroup d r.owner = 4 * d + q) (hhere : e.here = [])
    (hf : edgeClass d (4 * d + q) [r] (e, s) r.cls = (f, t)) (hdone : f.here = []) :
    DownBare.edgeRound d [r] rs (e, s) = (f, t) := by
  induction rs with
  | nil => exact absurd hq List.not_mem_nil
  | cons a rs ih =>
    obtain ⟨hnot, hrs⟩ := List.nodup_cons.mp hrs
    rw [DownBare.edgeRound, List.foldl_cons, ← DownBare.edgeRound]
    dsimp only
    rw [here_cleared hhere]
    by_cases haq : q = a
    · subst haq
      have hmine : [r].filter (fun x => s.homeGroup d x.owner == 4 * d + q) = [r] := by simp [hs]
      rw [hmine, edgeClasses_alone List.nodup_range (List.mem_range.mpr hcls) hhere hf hdone]
      refine edgeRound_idle hdone (fun x hx b hb hxb => hnot ?_)
      rw [List.mem_singleton.mp hx, ht] at hxb
      exact (show q = b by omega) ▸ hb
    · have hmine : [r].filter (fun x => s.homeGroup d x.owner == 4 * d + a) = [] := by simp [hs, haq]
      rw [hmine, edgeClasses_idle hhere (fun x hx => absurd hx List.not_mem_nil)]
      exact ih hrs ((List.mem_cons.mp hq).resolve_left haq)

/-- Without requests no edge follows. -/
theorem allocRounds_none (d n : Nat) (acc : List (Nat × Buf)) (s : State) : allocRounds d n [] acc s = (acc, s) := by
  induction n with
  | zero => rfl
  | succ n ih =>
    rw [allocRounds_succ d n [] acc s (edgeRound_idle rfl (fun r hr => absurd hr List.not_mem_nil))]
    exact ih

/-- The edge of a lone request that its own class settles. -/
theorem allocEdge_alone {got : List (Nat × Buf)} (hc : c < 8) (ht : t.homeGroup d o = s.homeGroup d o)
    (h : edgeClass d (s.homeGroup d o) [⟨o, c, c⟩] (⟨[], [], []⟩, s) c = (⟨[], [], got⟩, t)) : allocEdge d [(o, c)] s = (got, t) := by
  have hone : allocEdge d [(o, c)] s = allocRounds d 8 [⟨o, c, c⟩] [] s := by simp [allocEdge, hc]
  have hround := edgeRound_alone (r := ⟨o, c, c⟩) (q := s.get (.pdk .OWN_CFG_GROUP) d o % 4) (rs := List.range 4) List.nodup_range
    (List.mem_range.mpr (Nat.mod_lt _ (by decide))) hc rfl ht rfl h rfl
  rw [hone, allocRounds_succ d 7 _ _ _ hround, allocRounds_none]

-- What a pool does with such a request

/-- A pool grants a lone request that finds a buffer available (R288). -/
theorem servePool_grants (h : s.availBuf d g c r.owner = true) : ∃ lost, servePool d g c [r] s =
    ([(r, (grantBuf d g c r.owner s).1)], lost, (grantBuf d g c r.owner s).2) := by
  have hgrant : grantEach d g c [r] s = ([(r, (grantBuf d g c r.owner s).1)], (grantBuf d g c r.owner s).2) := by simp [grantEach, h]
  have hnone : ∀ w, grantEach d g c [] w = ([], w) := fun _ => rfl
  cases hin : s.insideRsv d g c r.owner
  · exact ⟨true, by simp [servePool, hin, hgrant, hnone, rrSort, rrInsert, Grants.has]⟩
  · exact ⟨false, by simp [servePool, hin, hgrant, hnone, rrSort, Grants.has]⟩

/-- It leaves one that finds none. -/
theorem servePool_refuses (h : s.availBuf d g c r.owner = false) : servePool d g c [r] s = ([], false, s) := by
  have hgrant : grantEach d g c [r] s = ([], s) := by simp [grantEach, h]
  have hnone : grantEach d g c [] s = ([], s) := rfl
  cases hin : s.insideRsv d g c r.owner <;> simp [servePool, hin, hgrant, hnone, rrSort, rrInsert, Grants.has]

/-- The counts of FALLBACK and ALLOC_FAIL after a class has been served. -/
def classCounts (d fell failed : Nat) (s : State) : State := (s.bump (.pdk .CNT) d 2 0 fell).bump (.pdk .CNT) d 1 0 failed

theorem classCounts_homeGroup (fell failed a b : Nat) (s : State) : (classCounts d fell failed s).homeGroup a b = s.homeGroup a b := by
  rw [classCounts, State.bump_eq, homeGroup_mark (by decide), State.bump_eq, homeGroup_mark (by decide)]

theorem classCounts_bufs (fell failed : Nat) (s : State) : (classCounts d fell failed s).bufs = s.bufs := rfl

/-- A lone request that is served has its buffer, and nothing asks on. -/
theorem edgeClass_grants (h : s.availBuf d g c o = true) : edgeClass d g [⟨o, c, c⟩] (⟨[], [], []⟩, s) c =
    (⟨[], [], [(o, (grantBuf d g c o s).1)]⟩, classCounts d 0 0 (grantBuf d g c o s).2) := by
  obtain ⟨lost, hserve⟩ := servePool_grants (r := ⟨o, c, c⟩) h
  cases lost <;> simp [edgeClass, hserve, Grants.has, classCounts]

/-- A lone request that finds nothing and may not grow fails (R289). -/
theorem edgeClass_refuses (h : s.availBuf d g c o = false) (hgrow : s.maxUp d o = 0 ∨ c = 7) :
    edgeClass d g [⟨o, c, c⟩] (⟨[], [], []⟩, s) c = (⟨[], [], []⟩, classCounts d 0 1 s) := by
  have hserve := servePool_refuses (r := ⟨o, c, c⟩) h
  have hmay : (s.bump (.pdk .CNT) d 2 0 0).mayGrow d ⟨o, c, c⟩ = false ∧ s.mayGrow d ⟨o, c, c⟩ = false := by
    rcases hgrow with hmax | rfl
    · simp [State.mayGrow, State.maxUp, State.bump_eq] at hmax ⊢
      omega
    · simp [State.mayGrow]
  simp [edgeClass, hserve, Grants.has, classCounts, hmay]

-- What becomes of such a request

/-- A lone request with a buffer available in its class has one from its owner's home group (R287 to R289). -/
theorem allocEdge_grants (hc : c < 8) (h : s.availBuf d (s.homeGroup d o) c o = true) : ∃ t b, allocEdge d [(o, c)] s = ([(o, b)], t) ∧
    t.bufs = s.bufs ++ [b] ∧ b.owner = o ∧ b.cls = c ∧ b.grp = s.homeGroup d o :=
  ⟨_, (grantBuf d (s.homeGroup d o) c o s).1,
    allocEdge_alone hc ((classCounts_homeGroup _ _ _ _ _).trans (homeGroup_grantBuf _ _ _ _ _ _ _)) (edgeClass_grants h),
    (classCounts_bufs _ _ _).trans (grantBuf_bufs _ _ _ _ _), by rw [grantBuf_fst], by rw [grantBuf_fst], by rw [grantBuf_fst]⟩

/-- One that exceeds the largest class, or that finds none and may not grow, has none (R289). -/
theorem allocEdge_refuses (h : 8 ≤ c ∨ (s.availBuf d (s.homeGroup d o) c o = false ∧ (s.maxUp d o = 0 ∨ c = 7))) :
    ∃ t, allocEdge d [(o, c)] s = ([], t) ∧ t.bufs = s.bufs := by
  by_cases hc : c < 8
  · obtain ⟨havail, hgrow⟩ := h.resolve_left (by omega)
    exact ⟨_, allocEdge_alone hc (classCounts_homeGroup _ _ _ _ _) (edgeClass_refuses havail hgrow), classCounts_bufs _ _ _⟩
  · refine ⟨s.bump (.pdk .CNT) d 1, ?_, rfl⟩
    have hnone : allocEdge d [(o, c)] s = allocRounds d 8 [] [] (s.bump (.pdk .CNT) d 1) := by
      simp [allocEdge, hc, show 8 ≤ c by omega]
    rw [hnone, allocRounds_none]

end Sys2Proof
end

section
/-!
PROOFS. HostBuffers: the requests and frees of a host port, and the writes of the reserves (R287 to R292, R298, R299).
-/

namespace Sys2Proof

open Machine

variable {B : Key → Bool} {d n o c h st : Nat} {s t u : State}

theorem Frame.bufs (hf : Frame B s t) : t.bufs = s.bufs := by
  obtain ⟨-, -, -, -, -, -, -, hbufs, -⟩ := hf.traffic
  exact hbufs

-- The result register

/-- The registers of a port's requests and results. -/
def hostKeys (d n : Nat) (k : Key) : Bool := k.fld.home == .pdk && k.i == d && k.j == n

theorem hostResult_frame (d n st h : Nat) (s : State) : Frame (hostKeys d n) s (hostResult d n st h s) :=
  ((((Frame.free s).trans (Frame.put _ _ _ _ _ _ (by simp [hostKeys, Fld.home]))).trans
    (Frame.put _ _ _ _ _ _ (by simp [hostKeys, Fld.home]))).trans (Frame.put _ _ _ _ _ _ (by simp [hostKeys, Fld.home]))).trans
    (Frame.put _ _ _ _ _ _ (by simp [hostKeys, Fld.home]))

theorem hostResult_handle (d n st h : Nat) (s : State) : (hostResult d n st h s).get (.pdk .HRES_HANDLE) d n = h % 2 ^ 22 := by
  simp [hostResult, Key.cut, Fld.width, Pdk.width]

/-- A result stands with its status, at most 1,500 edges from the edge of the request (R298). -/
theorem hostResult_resulted {d : Die} {n : HostPort} (h : Nat) (hst : st < 8) (ht : t.osc = s.osc) :
    Resulted d n st s (hostResult d n st h t) := by
  have hcut : st % 2 ^ 3 = st := Nat.mod_eq_of_lt hst
  refine ⟨flag_put_same _ _ _ _ _ _, ?_, ?_⟩
  · simpa [hostResult, Key.cut, Fld.width, Pdk.width] using hcut
  · have hat : (hostResult d n st h t).get (.pdk .xHRES_AT) d n = (t.osc + t.free.1 % 1501) % 2 ^ 64 := by
      simp [hostResult, Key.cut, Fld.width, Pdk.width]
    rw [hat, ht]
    omega

theorem Resulted.commit {d : Die} {n : HostPort} (h : Resulted d n st s u) : Resulted d n st s (s.commit u) := h

/-- What a result leaves that is shown once the pools have settled: the status and the handle, the buffers and bytes of the state that the
request reached, and every register but those of the pools and their events (R297, R298). -/
structure Answered (d : Die) (n : HostPort) (st h : Nat) (s t u : State) : Prop where
  resulted : Resulted d n st s u
  bufs     : u.bufs = t.bufs
  handle   : u.get (.pdk .HRES_HANDLE) d n = h % 2 ^ 22
  bytes    : SameBytes t u
  regs     : SameRegs poolKeys t u

theorem hostResult_answered {d : Die} {n : HostPort} (h : Nat) (hst : st < 8) (ht : t.osc = s.osc) :
    Answered d n st h s t (hostResult d n st h (poolSettle d t)) := by
  have hsettle := poolSettle_pool d t
  have hframe : Frame poolKeys t (hostResult d n st h (poolSettle d t)) := hsettle.trans ((hostResult_frame _ _ _ _ _).mono fun k hk => by
    simp only [hostKeys, Bool.and_eq_true] at hk
    simp [poolKeys, hk])
  exact ⟨hostResult_resulted h hst (hsettle.clock.1.trans ht), hframe.bufs, hostResult_handle _ _ _ _ _, hframe.bytes, hframe.regs⟩

theorem Answered.commit {d : Die} {n : HostPort} (ha : Answered d n st h s t u) : Answered d n st h s t (s.commit u) :=
  ⟨ha.resulted, ha.bufs, ha.handle, ha.bytes, ha.regs⟩

-- An allocation

theorem unlessBusy_open {f : State → State} (hb : s.hostBusy d n = false) : unlessBusy d n f s = f s := by simp [unlessBusy, hb]

theorem unlessBusy_busy {f : State → State} (hb : s.hostBusy d n = true) : unlessBusy d n f s = s.put (.pdk .STATUS_HLOST) 1 d := by
  simp [unlessBusy, hb]

/-- The word of a request has OP 1, and the rest of it as written. -/
theorem withOp_bits (v : Nat) : withBits v 0 2 1 % 4 = 1 ∧ withBits v 0 2 1 / 4 = v / 4 := by
  simp only [withBits, bitsOf]
  omega

theorem bitsOf_withOp {lo : Nat} (v len : Nat) (hlo : 2 ≤ lo) : bitsOf (withBits v 0 2 1) lo len = bitsOf v lo len := by
  obtain ⟨k, rfl⟩ := Nat.exists_eq_add_of_le hlo
  simp only [bitsOf, pow_add, ← Nat.div_div_eq_div_mul]
  rw [show 2 ^ 2 = 4 from rfl, (withOp_bits v).2]

theorem reqClass_withOp (v : Word) :
    (if bitOf (withBits v.toNat 0 2 1) 2 then bitsOf (withBits v.toNat 0 2 1) 4 3
      else classFor (bitsOf (withBits v.toNat 0 2 1) 4 28 * 1024)) = reqClass v := by
  have hbit : bitOf (withBits v.toNat 0 2 1) 2 = bitOf v.toNat 2 :=
    congrArg (· == 1) (bitsOf_withOp v.toNat 1 le_rfl)
  rw [hbit, bitsOf_withOp _ 3 (by decide), bitsOf_withOp _ 28 (by decide), reqClass]

/-- The requests of an edge on which a host port asks for a class, beside its rivals (R290). -/
def hostEdge (n c : Nat) (rivals : List (Nat × Nat)) : List (Nat × Nat) :=
  (hostOwner n, c) :: rivals.filter (fun r => decide (r.1 ≠ hostOwner n ∧ r.1 < 64))

/-- The status and the handle that the grants of an edge give a host port (R298). -/
def hostAnswer (n : Nat) (got : List (Nat × Buf)) : Nat × Nat :=
  (got.find? (fun a => a.1 == hostOwner n)).elim (stEMPTY, 0) (fun a => (stOK, a.2.handle))

theorem hostAnswer_cases (n : Nat) (got : List (Nat × Buf)) : (hostAnswer n got).1 = stOK ∨ (hostAnswer n got).1 = stEMPTY := by
  unfold hostAnswer
  cases got.find? (fun a => a.1 == hostOwner n)
  · exact .inr rfl
  · exact .inl rfl

section
variable {v : Word} {rivals : List (Nat × Nat)} (hb : s.hostBusy d n = false)
include hb

/-- Before the pools are ready a request fails (R299). -/
theorem hostAllocReq_notReady (hr : s.flag (.pdk .STATUS_DRAM_READY) d = false) :
    hostAllocReq d n (withBits v.toNat 0 2 1) rivals s = hostResult d n stNOTREADY 0 (s.bump (.pdk .CNT) d 1) := by
  rw [hostAllocReq, if_neg (not_not_intro (withOp_bits _).1), unlessBusy_open hb, hr]
  rfl

variable {got : List (Nat × Buf)} (hr : s.flag (.pdk .STATUS_DRAM_READY) d = true)
  (he : allocEdge d (hostEdge n (reqClass v) rivals) s = (got, t))
include hr he

/-- On a ready pool it takes part in the grants of its edge, and its result is what they give it (R290, R298). -/
theorem hostAllocReq_ready : hostAllocReq d n (withBits v.toNat 0 2 1) rivals s =
    hostResult d n (hostAnswer n got).1 (hostAnswer n got).2 (poolSettle d t) := by
  rw [hostEdge] at he
  rw [hostAllocReq, if_neg (not_not_intro (withOp_bits _).1), unlessBusy_open hb, hr]
  dsimp only
  rw [if_neg (show ¬ (!true) = true by decide), reqClass_withOp, he, hostAnswer]
  cases got.find? (fun a => a.1 == hostOwner n) <;> rfl

end

-- A free

theorem freeStatus_lt (d o h : Nat) (s : State) : s.freeStatus d o h < 8 := by
  unfold State.freeStatus
  dsimp only
  split
  · decide
  · split
    · decide
    · split <;> decide

/-- A free of an owned handle takes its buffer away (R292). -/
theorem freeBuf_applies (hst : s.freeStatus d o h = stOK) :
    freeBuf d o h s = (stOK, { s with bufs := s.bufs.filter (fun b => b.handle != h % 2 ^ 22) }) := by
  rw [freeBuf, hst]
  rfl

/-- What the refusal of a free touches: the pools' counts, the collector and their events. -/
def refusalKeys (k : Key) : Bool := poolKeys k || fltKeys k

/-- A free that is refused is counted, with a Notice, and no buffer moves (R292). -/
theorem freeBuf_refuses (hst : s.freeStatus d o h ≠ stOK) : ∃ t, freeBuf d o h s = (s.freeStatus d o h, t) ∧
    t.get (.flt .CNT) 0 = (s.get (.flt .CNT) 0 + 1) % 2 ^ 64 ∧ Frame refusalKeys s t := by
  generalize hx : s.freeStatus d o h = x at hst
  let v := s.bump (.pdk .CNT) d (if x = stDOUBLE then 4 else 5)
  have hcount : Frame poolKeys s v := Frame.bump _ _ _ _ _ _ rfl
  have hnotice := raise_minor_frame (code := 0x08) 0 rfl (by decide) d o x v
  have hpulse := evPulse_frame (837 + 8 * d) o (raise 0x08 d o x v)
  refine ⟨evPulse (837 + 8 * d) o (raise 0x08 d o x v), ?_, ?_, ?_⟩
  · rw [freeBuf, hx]
    exact if_neg hst
  · rw [hpulse.regs.get rfl, raise_minor 0 rfl (by decide), record_counts (c := 0) rfl, hcount.regs.get rfl]
  · exact ((hcount.mono fun k hk => by simp [refusalKeys, hk]).trans (hnotice.mono fun k hk => by simp [refusalKeys, hk])).trans
      (hpulse.mono fun k hk => by simp [refusalKeys, poolKeys_of_evcKeys hk])

theorem hostFreeReq_answers (hb : s.hostBusy d n = false) (hf : freeBuf d (hostOwner n) h s = (st, t)) :
    hostFreeReq d n h s = hostResult d n st (if st = stOK then h % 2 ^ 22 else 0) (poolSettle d t) := by
  rw [hostFreeReq, unlessBusy_open hb, hf]

-- A reserve

theorem cellCovers_max (v w i d o : Nat) (s : State) : (s.put (.pdk .OWN_CELL_MAX) w d i).cellCovers d o v = s.cellCovers d o v := by
  simp [State.cellCovers, State.cellUnmet, State.cellRsv, State.cellsHeld, State.cellFree, State.get_put]

theorem cellRsv_max (w i d o : Nat) (s : State) : (s.put (.pdk .OWN_CELL_MAX) w d i).cellRsv d o = s.cellRsv d o := by
  simp [State.cellRsv]

/-- A write of a cell reserve that is accepted (R291). -/
theorem ownCellWrite_sets {v : Nat} (h : v % 2 ^ 17 ≤ s.cellRsv d o ∨ s.cellCovers d o (v % 2 ^ 17) = true) :
    ownCellWrite d o v s = (s.put (.pdk .OWN_CELL_MAX) (bitsOf v 17 15) d o).put (.pdk .OWN_CELL_RSV) (v % 2 ^ 17) d o := by
  rw [ownCellWrite, setCellRsv, Nat.mod_mod, cellRsv_max, cellCovers_max, if_pos h]

/-- One that is refused. -/
theorem ownCellWrite_keeps {v : Nat} (h : s.cellRsv d o < v % 2 ^ 17) (hc : s.cellCovers d o (v % 2 ^ 17) = false) :
    ownCellWrite d o v s = rsvRefused d (s.put (.pdk .OWN_CELL_MAX) (bitsOf v 17 15) d o) := by
  rw [ownCellWrite, setCellRsv, Nat.mod_mod, cellRsv_max, cellCovers_max,
    if_neg (by rw [hc]; exact fun e => e.elim (Nat.not_le_of_lt h) Bool.false_ne_true)]

/-- A refusal sets RSV_ERR and counts, and nothing else moves (R291). -/
theorem rsvRefused_counts (d : Nat) (s : State) : (rsvRefused d s).flag (.pdk .STATUS_RSV_ERR) d = true ∧
    (rsvRefused d s).get (.pdk .CNT) d 9 = (s.get (.pdk .CNT) d 9 + 1) % 2 ^ 64 ∧
    Frame (fun k => k == ⟨.pdk .STATUS_RSV_ERR, d, 0, 0⟩ || k == ⟨.pdk .CNT, d, 9, 0⟩) s (rsvRefused d s) := by
  obtain ⟨hcnt, hframe⟩ := count_reads (.pdk .CNT) d 9 1 (s.put (.pdk .STATUS_RSV_ERR) 1 d) rfl
  refine ⟨(hframe.regs.flag (by simp)).trans (flag_put_same _ _ _ _ _ _), ?_,
    (Frame.put _ _ _ _ _ _ (by simp)).trans (hframe.mono fun k hk => by simp [hk])⟩
  rw [rsvRefused, hcnt, State.get_put_fld _ _ _ _ _ _ _ _ _ _ (by decide)]

/-- A write of a class reserve that is accepted: one before its pool is ready, one that does not grow, or one that the free pool covers
(R291, R299). -/
theorem setClassRsv_sets {v : Nat} (h : s.flag (.pdk .STATUS_DRAM_READY) d = false ∨ v % 2 ^ 16 ≤ s.get (.pdk .OWN_RSV_RSV) d o c ∨
    s.classCovers d o c (v % 2 ^ 16) = true) : setClassRsv d o c v s = s.put (.pdk .OWN_RSV_RSV) (v % 2 ^ 16) d o c := by
  rw [setClassRsv]
  exact if_pos (by simpa [or_assoc] using h)

theorem setClassRsv_keeps {v : Nat} (hr : s.flag (.pdk .STATUS_DRAM_READY) d = true) (h : s.get (.pdk .OWN_RSV_RSV) d o c < v % 2 ^ 16)
    (hc : s.classCovers d o c (v % 2 ^ 16) = false) : setClassRsv d o c v s = rsvRefused d s := by
  have hgrows : decide (v % 2 ^ 16 ≤ s.get (.pdk .OWN_RSV_RSV) d o c) = false := decide_eq_false (Nat.not_le_of_lt h)
  rw [setClassRsv]
  exact if_neg (by rw [hr, hc, hgrows]; decide)

-- The statement

section
variable {p : Party} {d : Die} {n : HostPort} {v : Word} (hl : s.live = true) (hg : s.gateOf p .pdk (some d.val) = .pass)
include hl hg

theorem exec_hostAlloc (rivals : List Rival) : exec (.hostAlloc p d n v rivals) s = .next (s.commit (ownPort p n
    (hostAllocReq d n (withBits v.toNat 0 2 1) (rivals.map (fun r => (r.owner, r.cls)))) s.quiet)) := exec_gated_pass rfl hl hg

theorem exec_hostFree : exec (.hostFree p d n v) s = .next (s.commit (ownPort p n (hostFreeReq d n v.toNat) s.quiet)) :=
  exec_gated_pass rfl hl hg

/-- A request in the window of another port does nothing (R298). -/
theorem hostRequest_foreign (hp : p.port ≠ some n.val) (rivals : List Rival) :
    ∀ i ∈ [Instr.hostAlloc p d n v rivals, .hostFree p d n v], ∃ t, exec i s = .next t ∧ Still s t := by
  have hstill : ∀ f, ownPort p n f s.quiet = s.quiet := fun f => by rw [ownPort, beq_eq_false_iff_ne.mpr hp, State.when_false]
  intro i hi
  simp only [List.mem_cons, List.not_mem_nil, or_false] at hi
  rcases hi with rfl | rfl
  · exact ⟨_, exec_hostAlloc hl hg rivals, by rw [hstill]; exact (Frame.refl _ _).ofQuiet⟩
  · exact ⟨_, exec_hostFree hl hg, by rw [hstill]; exact (Frame.refl _ _).ofQuiet⟩

variable (hp : p.port = some n.val)
include hp

theorem exec_hostAlloc_own (rivals : List Rival) : exec (.hostAlloc p d n v rivals) s = .next (s.commit
    (hostAllocReq d n (withBits v.toNat 0 2 1) (rivals.map (fun r => (r.owner, r.cls))) s.quiet)) := by
  rw [exec_hostAlloc hl hg, ownPort, hp, beq_self_eq_true, State.when_true]

theorem exec_hostFree_own : exec (.hostFree p d n v) s = .next (s.commit (hostFreeReq d n v.toNat s.quiet)) := by
  rw [exec_hostFree hl hg, ownPort, hp, beq_self_eq_true, State.when_true]

/-- A request while the last one has not completed is lost with HLOST (R298). -/
theorem hostRequest_lost (hb : s.hostBusy d n = true) (rivals : List Rival) : ∀ i ∈ [Instr.hostAlloc p d n v rivals, .hostFree p d n v],
    ∃ t, exec i s = .next t ∧ t.flag (.pdk .STATUS_HLOST) d = true ∧ Frame (fun k => k == ⟨.pdk .STATUS_HLOST, d, 0, 0⟩) s t := by
  have hlost : (s.commit (s.quiet.put (.pdk .STATUS_HLOST) 1 d)).flag (.pdk .STATUS_HLOST) d = true ∧
      Frame (fun k => k == ⟨.pdk .STATUS_HLOST, d, 0, 0⟩) s (s.commit (s.quiet.put (.pdk .STATUS_HLOST) 1 d)) :=
    ⟨flag_put_same s.quiet (.pdk .STATUS_HLOST) 1 d 0 0, (Frame.put _ _ _ _ _ _ (by simp)).ofQuiet⟩
  have hb : s.quiet.hostBusy d n = true := hb
  intro i hi
  simp only [List.mem_cons, List.not_mem_nil, or_false] at hi
  rcases hi with rfl | rfl
  · refine ⟨_, exec_hostAlloc_own hl hg hp rivals, ?_⟩
    rw [hostAllocReq, if_neg (not_not_intro (withOp_bits _).1), unlessBusy_busy hb]
    exact hlost
  · refine ⟨_, exec_hostFree_own hl hg hp, ?_⟩
    rw [hostFreeReq, unlessBusy_busy hb]
    exact hlost

variable (hb : s.hostBusy d n = false)
include hb

theorem hostAlloc_notReady (hr : s.flag (.pdk .STATUS_DRAM_READY) d = false) (rivals : List Rival) :
    ∃ t, exec (.hostAlloc p d n v rivals) s = .next t ∧ Resulted d n stNOTREADY s t ∧
      Frame (fun k => k.fld.home == .pdk && k.i == d.val && (k.j == n.val || k == ⟨.pdk .CNT, d, 1, 0⟩)) s t := by
  have hosc : (s.quiet.bump (.pdk .CNT) d 1).osc = s.osc := rfl
  have hres := hostResult_resulted (d := d) (n := n) (st := stNOTREADY) 0 (by decide) hosc
  refine ⟨_, exec_hostAlloc_own hl hg hp rivals, ?_⟩
  rw [hostAllocReq_notReady (s := s.quiet) hb hr]
  refine ⟨hres.commit, Frame.ofQuiet ?_⟩
  refine (Frame.bump _ _ _ _ _ _ (by simp [Fld.home])).trans ((hostResult_frame _ _ _ _ _).mono fun k hk => ?_)
  simp only [hostKeys, Bool.and_eq_true] at hk
  simp [hk]

/-- An allocation on a ready pool answers what the grants of its edge give it (R290, R298). -/
theorem hostAlloc_ready (hr : s.flag (.pdk .STATUS_DRAM_READY) d = true) (rivals : List Rival) {got : List (Nat × Buf)}
    (he : allocEdge d (hostEdge n (reqClass v) (rivals.map (fun r => (r.owner, r.cls)))) s.quiet = (got, t)) :
    ∃ u, exec (.hostAlloc p d n v rivals) s = .next u ∧ Answered d n (hostAnswer n got).1 (hostAnswer n got).2 s t u := by
  have hosc : t.osc = s.osc := (congrArg (fun x => x.2.osc) he).symm.trans (allocEdge_osc _ _ _)
  have hanswer : (hostAnswer n got).1 < 8 := by rcases hostAnswer_cases n got with h | h <;> rw [h] <;> decide
  refine ⟨_, exec_hostAlloc_own hl hg hp rivals, ?_⟩
  rw [hostAllocReq_ready (s := s.quiet) hb hr he]
  exact (hostResult_answered _ hanswer hosc).commit

/-- An allocation alone on its edge with a buffer available has one (R288). -/
theorem hostAlloc_grants (hr : s.flag (.pdk .STATUS_DRAM_READY) d = true) (hc : reqClass v < 8)
    (ha : s.availBuf d (s.homeGroup d (56 + n)) (reqClass v) (56 + n) = true) :
    ∃ t, exec (.hostAlloc p d n v []) s = .next t ∧ Resulted d n stOK s t ∧ ∃ b : Buf, t.bufs = s.bufs ++ [b] ∧ b.owner = 56 + n ∧
      b.cls = reqClass v ∧ b.grp = s.homeGroup d (56 + n) ∧ t.get (.pdk .HRES_HANDLE) d n = b.handle % 2 ^ 22 := by
  obtain ⟨w, b, he, hbufs, howner, hcls, hgrp⟩ := allocEdge_grants (s := s.quiet) (o := hostOwner n) hc ha
  obtain ⟨t, hexec, hans⟩ := hostAlloc_ready hl hg hp hb hr [] he
  have hanswer : hostAnswer n [(hostOwner n, b)] = (stOK, b.handle) := by simp [hostAnswer]
  rw [hanswer] at hans
  exact ⟨t, hexec, hans.resulted, b, hans.bufs.trans hbufs, howner, hcls, hgrp, hans.handle⟩

/-- One that exceeds the largest class, or that finds none and may not grow, answers EMPTY (R289). -/
theorem hostAlloc_empty (hr : s.flag (.pdk .STATUS_DRAM_READY) d = true)
    (h : 8 ≤ reqClass v ∨ (s.availBuf d (s.homeGroup d (56 + n)) (reqClass v) (56 + n) = false ∧
      (s.maxUp d (56 + n) = 0 ∨ reqClass v = 7))) :
    ∃ t, exec (.hostAlloc p d n v []) s = .next t ∧ Resulted d n stEMPTY s t ∧ t.bufs = s.bufs := by
  obtain ⟨w, he, hbufs⟩ := allocEdge_refuses (s := s.quiet) (o := hostOwner n) h
  obtain ⟨t, hexec, hans⟩ := hostAlloc_ready hl hg hp hb hr [] he
  exact ⟨t, hexec, hans.resulted, hans.bufs.trans hbufs⟩

/-- Beside others an allocation has one of the two results, and takes no buffer from anyone (R290). -/
theorem hostAlloc_contends (hr : s.flag (.pdk .STATUS_DRAM_READY) d = true) (rivals : List Rival) :
    ∃ t, exec (.hostAlloc p d n v rivals) s = .next t ∧ (Resulted d n stOK s t ∨ Resulted d n stEMPTY s t) ∧ s.bufs <+: t.bufs ∧
      SameBytes s t := by
  have hbufs := allocEdge_bufs d (hostEdge n (reqClass v) (rivals.map (fun r => (r.owner, r.cls)))) s.quiet
  have hbytes := (allocEdge_carried d (hostEdge n (reqClass v) (rivals.map (fun r => (r.owner, r.cls)))) s.quiet).bytes
  rcases he : allocEdge d (hostEdge n (reqClass v) (rivals.map (fun r => (r.owner, r.cls)))) s.quiet with ⟨got, w⟩
  rw [he] at hbufs hbytes
  obtain ⟨t, hexec, hans⟩ := hostAlloc_ready hl hg hp hb hr rivals he
  refine ⟨t, hexec, ?_, hans.bufs ▸ hbufs, hbytes.trans hans.bytes⟩
  have hres := hans.resulted
  rcases hostAnswer_cases n got with h | h <;> rw [h] at hres
  · exact .inl hres
  · exact .inr hres

/-- A free answers its status once the pools have settled (R292, R298). -/
theorem hostFree_answers (hf : freeBuf d (hostOwner n) v.toNat s.quiet = (st, t)) (hst : st < 8) (hosc : t.osc = s.osc) :
    ∃ u h, exec (.hostFree p d n v) s = .next u ∧ Answered d n st h s t u := by
  refine ⟨_, if st = stOK then v.toNat % 2 ^ 22 else 0, exec_hostFree_own hl hg hp, ?_⟩
  rw [hostFreeReq_answers (s := s.quiet) hb hf]
  exact (hostResult_answered _ hst hosc).commit

/-- A free of an owned handle returns it (R292). -/
theorem hostFree_returns (hst : s.freeStatus d (56 + n) v.toNat = stOK) : ∃ t, exec (.hostFree p d n v) s = .next t ∧
    Resulted d n stOK s t ∧ t.bufs = s.bufs.filter (fun b => b.handle != v.toNat % 2 ^ 22) ∧ SameBytes s t := by
  have hf := freeBuf_applies (s := s.quiet) (o := hostOwner n) hst
  obtain ⟨t, h, hexec, hans⟩ := hostFree_answers hl hg hp hb hf (by decide) rfl
  exact ⟨t, hexec, hans.resulted, hans.bufs, hans.bytes⟩

/-- Any other is refused with its status and a Notice (R292). -/
theorem hostFree_refused (hst : s.freeStatus d (56 + n) v.toNat ≠ stOK) : ∃ t, exec (.hostFree p d n v) s = .next t ∧
    Resulted d n (s.freeStatus d (56 + n) v.toNat) s t ∧ t.bufs = s.bufs ∧ t.get (.flt .CNT) 0 = (s.get (.flt .CNT) 0 + 1) % 2 ^ 64 ∧
    SameBytes s t := by
  obtain ⟨w, hf, hcnt, hframe⟩ := freeBuf_refuses (s := s.quiet) (o := hostOwner n) hst
  obtain ⟨t, h, hexec, hans⟩ := hostFree_answers hl hg hp hb hf (freeStatus_lt _ _ _ _) hframe.clock.1
  exact ⟨t, hexec, hans.resulted, hans.bufs.trans hframe.bufs, (hans.regs.get rfl).trans hcnt, SameBytes.trans hframe.bytes hans.bytes⟩

end

-- The writes of the reserves

section
variable {p : Party} {d : Die} {o : Fin 64} {v : Word} (hl : s.live = true) (hg : s.gateOf p .pdk (some d.val) = .pass)
include hl hg

theorem exec_reserveWrite_cell : exec (.reserveWrite p d o none v) s = .next (s.commit (ownCellWrite d o v.toNat s.quiet)) :=
  exec_gated_pass (f := ownCellWrite d o v.toNat) rfl hl hg

theorem exec_reserveWrite_class (c : Fin 8) :
    exec (.reserveWrite p d o (some c) v) s = .next (s.commit (ownRsvWrite d o c v.toNat s.quiet)) :=
  exec_gated_pass (f := ownRsvWrite d o c v.toNat) rfl hl hg

/-- A cell reserve is set where it does not grow or the free cells cover it (R291). -/
theorem cellReserve_sets (h : v.toNat % 2 ^ 17 ≤ s.cellRsv d o ∨ s.cellCovers d o (v.toNat % 2 ^ 17) = true) :
    ∃ t, exec (.reserveWrite p d o none v) s = .next t ∧ t.get (.pdk .OWN_CELL_RSV) d o = v.toNat % 2 ^ 17 ∧
      t.get (.pdk .OWN_CELL_MAX) d o = bitsOf v.toNat 17 15 ∧
      Frame (fun k => k == ⟨.pdk .OWN_CELL_RSV, d, o, 0⟩ || k == ⟨.pdk .OWN_CELL_MAX, d, o, 0⟩) s t := by
  refine ⟨_, exec_reserveWrite_cell hl hg, ?_⟩
  rw [ownCellWrite_sets (s := s.quiet) h]
  refine ⟨?_, ?_, ((Frame.put _ _ _ _ _ _ (by simp)).trans (Frame.put _ _ _ _ _ _ (by simp))).ofQuiet⟩
  · rw [State.get_commit, State.get_put_same, Key.cut_fit]
    exact Nat.mod_lt _ (Nat.two_pow_pos _)
  · rw [State.get_commit, State.get_put_fld _ _ _ _ _ _ _ _ _ _ (by decide)]
    exact get_put_bits _ _ _ _ _ _ _ _ rfl

/-- Any other keeps its value, with RSV_ERR and its count (R291). -/
theorem cellReserve_keeps (h : s.cellRsv d o < v.toNat % 2 ^ 17) (hc : s.cellCovers d o (v.toNat % 2 ^ 17) = false) :
    ∃ t, exec (.reserveWrite p d o none v) s = .next t ∧
      t.get (.pdk .OWN_CELL_RSV) d o = s.get (.pdk .OWN_CELL_RSV) d o ∧ t.flag (.pdk .STATUS_RSV_ERR) d = true ∧
      t.get (.pdk .CNT) d 9 = (s.get (.pdk .CNT) d 9 + 1) % 2 ^ 64 ∧
      Frame (fun k => k == ⟨.pdk .OWN_CELL_MAX, d, o, 0⟩ || k == ⟨.pdk .STATUS_RSV_ERR, d, 0, 0⟩ || k == ⟨.pdk .CNT, d, 9, 0⟩) s t := by
  have hmax : Frame (fun k => k == ⟨.pdk .OWN_CELL_MAX, d, o, 0⟩) s.quiet (s.quiet.put (.pdk .OWN_CELL_MAX) (bitsOf v.toNat 17 15) d o) :=
    Frame.put _ _ _ _ _ _ (by simp)
  obtain ⟨herr, hcnt, hframe⟩ := rsvRefused_counts d (s.quiet.put (.pdk .OWN_CELL_MAX) (bitsOf v.toNat 17 15) d o)
  refine ⟨_, exec_reserveWrite_cell hl hg, ?_⟩
  rw [ownCellWrite_keeps (s := s.quiet) h hc]
  exact ⟨(hframe.regs.get (by simp)).trans (hmax.regs.get (by simp)), herr, hcnt.trans (by rw [hmax.regs.get (by simp)]; rfl),
    ((hmax.mono fun k hk => by simp [hk]).trans (hframe.mono fun k hk => by
      rw [Bool.or_assoc, hk, Bool.or_true])).ofQuiet⟩

/-- A channel's class reserve is set by hardware, and ignores writes (R287). -/
theorem classReserve_channel (c : Fin 8) (ho : o.val < 48) :
    ∃ t, exec (.reserveWrite p d o (some c) v) s = .next t ∧ Still s t := by
  refine ⟨_, exec_reserveWrite_class hl hg c, ?_⟩
  rw [ownRsvWrite, if_pos ho]
  exact (Frame.refl _ _).ofQuiet

/-- Another owner's is set before its pool is ready, where it does not grow, or where the free pool covers it (R291, R299). -/
theorem classReserve_sets (c : Fin 8) (ho : 48 ≤ o.val) (h : s.flag (.pdk .STATUS_DRAM_READY) d = false ∨
      v.toNat % 2 ^ 16 ≤ s.get (.pdk .OWN_RSV_RSV) d o c ∨ s.classCovers d o c (v.toNat % 2 ^ 16) = true) :
    ∃ t, exec (.reserveWrite p d o (some c) v) s = .next t ∧ t.get (.pdk .OWN_RSV_RSV) d o c = v.toNat % 2 ^ 16 ∧
      Frame (fun k => k == ⟨.pdk .OWN_RSV_RSV, d, o, c⟩) s t := by
  refine ⟨_, exec_reserveWrite_class hl hg c, ?_⟩
  rw [ownRsvWrite, if_neg (Nat.not_lt.mpr ho), setClassRsv_sets (s := s.quiet) h]
  refine ⟨?_, (Frame.put _ _ _ _ _ _ (by simp)).ofQuiet⟩
  rw [State.get_commit, State.get_put_same, Key.cut_fit]
  exact Nat.mod_lt _ (Nat.two_pow_pos _)

/-- Any other keeps its value, with RSV_ERR and its count (R291). -/
theorem classReserve_keeps (c : Fin 8) (ho : 48 ≤ o.val) (hr : s.flag (.pdk .STATUS_DRAM_READY) d = true)
    (h : s.get (.pdk .OWN_RSV_RSV) d o c < v.toNat % 2 ^ 16) (hc : s.classCovers d o c (v.toNat % 2 ^ 16) = false) :
    ∃ t, exec (.reserveWrite p d o (some c) v) s = .next t ∧ t.flag (.pdk .STATUS_RSV_ERR) d = true ∧
      t.get (.pdk .CNT) d 9 = (s.get (.pdk .CNT) d 9 + 1) % 2 ^ 64 ∧
      Frame (fun k => k == ⟨.pdk .STATUS_RSV_ERR, d, 0, 0⟩ || k == ⟨.pdk .CNT, d, 9, 0⟩) s t := by
  obtain ⟨herr, hcnt, hframe⟩ := rsvRefused_counts d s.quiet
  refine ⟨_, exec_reserveWrite_class hl hg c, ?_⟩
  rw [ownRsvWrite, if_neg (Nat.not_lt.mpr ho), setClassRsv_keeps (s := s.quiet) hr h hc]
  exact ⟨herr, hcnt, hframe.ofQuiet⟩

end

/-- Settles O46: each request and each reserve write by its effect on the state as found. A lone allocation meets its own pool alone, and
whatever the rivals are, an edge only adds buffers. -/
theorem hostBuffers : Obligations.HostBuffers := by
  unfold Obligations.HostBuffers
  intro p d v s hl hg
  refine ⟨fun n rivals hp hb => hostRequest_lost hl hg hp hb rivals, fun n hp hb => ⟨fun rivals hr => hostAlloc_notReady hl hg hp hb hr rivals,
    fun hr => ⟨fun ha hc => hostAlloc_grants hl hg hp hb hr hc ha, hostAlloc_empty hl hg hp hb hr, hostAlloc_contends hl hg hp hb hr⟩,
    hostFree_returns hl hg hp hb, hostFree_refused hl hg hp hb⟩, fun n rivals hp => hostRequest_foreign hl hg hp rivals,
    fun o => ⟨cellReserve_sets hl hg, cellReserve_keeps hl hg, fun c => ⟨classReserve_channel hl hg c, classReserve_sets hl hg c,
      classReserve_keeps hl hg c⟩⟩⟩

end Sys2Proof
end

section
/-!
PROOFS. The lines of a lockstep group (R303 to R310): what the operations on a line touch, and what the finding of its errors comes to
where no device reaches the threshold of R309.
-/

namespace Sys2Proof

open Machine

variable {B C : Key → Bool} {g la off : Nat} {flips : List Flip} {s t u : State}

-- Work on one line

theorem dramAddr_add (g a b : Nat) : dramAddr g (a + b) = dramAddr g a + b := (Nat.add_assoc _ _ _).symm

/-- What work on one line keeps: every register whose key does not pass `touched`, the payload outside the line, the other memories, the
chains and the buffers. -/
structure OnLine (g la : Nat) (touched : Key → Bool) (s t : State) : Prop where
  regs   : SameRegs touched s t
  dram   : ∀ a, a < dramAddr g (la * 256) ∨ dramAddr g (la * 256) + 256 ≤ a → t.dram.get a = s.dram.get a
  flash  : t.flash = s.flash
  stores : t.stores = s.stores
  host   : t.host = s.host
  chains : t.chains = s.chains
  bufs   : t.bufs = s.bufs

theorem Frame.onLine (h : Frame B s t) : OnLine g la B s t := by
  obtain ⟨hregs, ⟨hdram, hflash, hstores, hhost⟩, htraffic, -, -, -⟩ := h
  unfold SameTraffic at htraffic
  exact ⟨hregs, fun a _ => by rw [hdram], hflash, hstores, hhost, by simp only [htraffic], by simp only [htraffic]⟩

namespace OnLine

theorem refl (s : State) : OnLine g la B s s := (Frame.refl B s).onLine

theorem trans (h : OnLine g la B s t) (i : OnLine g la B t u) : OnLine g la B s u :=
  ⟨h.regs.trans i.regs, fun a ha => (i.dram a ha).trans (h.dram a ha), i.flash.trans h.flash, i.stores.trans h.stores,
    i.host.trans h.host, i.chains.trans h.chains, i.bufs.trans h.bufs⟩

theorem mono (h : OnLine g la B s t) (hb : ∀ k, B k = true → C k = true) : OnLine g la C s t :=
  ⟨h.regs.mono hb, h.dram, h.flash, h.stores, h.host, h.chains, h.bufs⟩

theorem put (f : Fld) (v i j k : Nat) (hb : B ⟨f, i, j, k⟩ = true) (h : OnLine g la B s t) : OnLine g la B s (t.put f v i j k) :=
  h.trans (Frame.put t f v i j k hb).onLine

theorem bump (f : Fld) (i j k n : Nat) (hb : B ⟨f, i, j, k⟩ = true) (h : OnLine g la B s t) : OnLine g la B s (t.bump f i j k n) :=
  h.put f _ i j k hb

/-- Another poison log. -/
theorem plog (l : List PLog) (h : OnLine g la B s t) : OnLine g la B s { t with plog := l } :=
  ⟨h.regs, h.dram, h.flash, h.stores, h.host, h.chains, h.bufs⟩

theorem when {p : Bool} {f : State → State} (hf : OnLine g la B s (f t)) (h : OnLine g la B s t) : OnLine g la B s (t.when p f) := by
  unfold State.when
  split
  · exact hf
  · exact h

theorem ite {c : Prop} [Decidable c] (h : OnLine g la B s t) (i : OnLine g la B s u) : OnLine g la B s (if c then t else u) := by
  split
  · exact h
  · exact i

/-- Bytes written inside the line. -/
theorem write (bytes : List Byte) (hn : off + bytes.length ≤ 256) (h : OnLine g la B s t) :
    OnLine g la B s { t with dram := t.dram.write (dramAddr g (la * 256 + off)) bytes } := by
  refine ⟨h.regs, fun a ha => ?_, h.flash, h.stores, h.host, h.chains, h.bufs⟩
  rw [← h.dram a ha, dramAddr_add]
  exact Mem.get_write_outside _ _ _ _ (by omega)

theorem each {α : Type} {l : List α} {f : α → State → State} (hf : ∀ x ∈ l, ∀ v, OnLine g la B s v → OnLine g la B s (f x v))
    (h : OnLine g la B s t) : OnLine g la B s (forEach l f t) := forEach_inv (OnLine g la B s) l f hf t h

end OnLine

/-- Keys of the fields of a list of the memory controllers. -/
def dmcOf (l : List Dmc) (k : Key) : Bool :=
  match k.fld with
  | .dmc f => l.contains f
  | _ => false

theorem dmcOf_mono {l m : List Dmc} (h : ∀ f ∈ l, m.contains f = true) (k : Key) (hk : dmcOf l k = true) : dmcOf m k = true := by
  unfold dmcOf at *
  split at hk
  · exact h _ (List.contains_iff_mem.mp hk)
  · exact Bool.noConfusion hk

-- The slices as they are read

@[simp] theorem beBytes_length (n v : Nat) : (beBytes n v).length = n := by
  induction n with
  | zero => rfl
  | succ n ih => rw [beBytes, List.length_cons, ih]

@[simp] theorem flipBurst_length (flips : List Flip) (k : Nat) (l : List Byte) : (flipBurst flips k l).length = l.length := by
  unfold flipBurst
  generalize flips.filter (fun f => f.dev.val == k) = fs
  induction fs generalizing l with
  | nil => rfl
  | cons f fs ih => rw [List.foldl_cons, ih, List.length_set]

theorem foldl_xorBytes_length {α : Type} (b : α → List Byte) (l : List α) (a : List Byte) :
    (l.foldl (fun a i => xorBytes a (b i)) a).length ≤ a.length := by
  induction l generalizing a with
  | nil => exact le_rfl
  | cons i l ih =>
    refine (ih _).trans ?_
    exact List.length_zipWith.trans_le (Nat.min_le_left _ _)

/-- A data slice as its device returns it has 64 bytes. -/
theorem burstsRead_length (s : State) (g la : Nat) (flips : List Flip) {k : Nat} (hk : k < 4) :
    ((s.burstsRead g la flips).getD k []).length = 64 := by
  have hslice : (s.burstsGiven g la)[k]? = some (s.dramRead g (la * 256 + 64 * k) 64) := by
    have hl : (s.slices g la).length = 4 := by simp [State.slices]
    rw [State.burstsGiven, List.getElem?_append_left (by omega)]
    simp [State.slices, hk]
  have hgiven : ∃ l, (s.bursts g la)[k]? = some l ∧ l.length = 64 := by
    rw [State.bursts, List.getElem?_map, List.getElem?_zipIdx, hslice]
    refine ⟨_, rfl, ?_⟩
    dsimp only
    split
    · simp [State.dramRead, Mem.read]
    · exact beBytes_length _ _
  obtain ⟨l, hl, hlen⟩ := hgiven
  rw [List.getD_eq_getElem?_getD, State.burstsRead, List.getElem?_map, List.getElem?_zipIdx, hl]
  simpa only [Option.map_some, Option.getD_some, flipBurst_length] using hlen

theorem sliceRead_length (s : State) (g la : Nat) (flips : List Flip) {k : Nat} (hk : k < 4) :
    (s.sliceRead g la flips k).length ≤ 64 := by
  unfold State.sliceRead
  dsimp only
  split
  · exact (foldl_xorBytes_length _ _ _).trans (by simp)
  · exact (burstsRead_length s g la flips hk).le

-- What a read finds

/-- What a read that finds something does to the line may touch these, and the collector. -/
def mendKeys (k : Key) : Bool :=
  fltKeys k || dmcOf [.xPOIS, .xSIDE, .xSEQ, .xWSEQ, .CNT, .POISON_LAST_LINE, .POISON_LAST_MASK, .POISON_LAST_LOG_LOST] k

theorem mendKeys_of_fltKeys {k : Key} (h : fltKeys k = true) : mendKeys k = true := by simp [mendKeys, h]

theorem logPoison_onLine (mask : Nat) (h : OnLine g la mendKeys s t) : OnLine g la mendKeys s (logPoison g la mask t) :=
  (((h.plog _).put _ _ _ _ _ rfl).put _ _ _ _ _ rfl)

theorem unlogPoison_onLine (h : OnLine g la B s t) : OnLine g la B s (unlogPoison g la t) := h.plog _

theorem raise_onLine {code : Nat} (c : Nat) (hc : faultClass code = some c) (hlow : c < 3) (die loc det : Nat)
    (h : OnLine g la mendKeys s t) : OnLine g la mendKeys s (raise code die loc det t) :=
  h.trans ((raise_minor_frame c hc hlow die loc det t).mono (fun _ => mendKeys_of_fltKeys)).onLine

theorem writeBack_onLine (mask : Nat) (s : State) : OnLine g la B s (writeBack g la mask flips s) := by
  refine .each (fun k hk v hv => hv.write _ ?_) (.refl s)
  have hk4 : k < 4 := List.mem_range.mp (List.mem_of_mem_filter hk)
  have hlen := sliceRead_length s g la flips hk4
  omega

theorem takeLineSeq_onLine (h : OnLine g la B s t) (hseq : B ⟨.dmc .xSEQ, g, la, 0⟩ = true) (hnext : B ⟨.dmc .xWSEQ, g, 0, 0⟩ = true) :
    OnLine g la B s (takeLineSeq g la t) := (h.put _ _ _ _ _ hseq).bump _ _ _ _ _ hnext

theorem rebuildCheck_onLine (h : OnLine g la mendKeys s t) : OnLine g la mendKeys s (rebuildCheck g la t) := by
  unfold rebuildCheck
  extract_lets lost cleared
  have hlost : OnLine g la mendKeys s lost := .when (h.put _ _ _ _ _ rfl) h
  have hcleared : OnLine g la mendKeys s cleared :=
    takeLineSeq_onLine (unlogPoison_onLine ((hlost.put _ _ _ _ _ rfl).put _ _ _ _ _ rfl)) rfl rfl
  exact raise_onLine 1 rfl (by decide) _ _ _ ((hcleared.bump _ _ _ _ _ rfl).bump _ _ _ _ _ rfl)

theorem poisonLine_onLine (m : Nat) (h : OnLine g la mendKeys s t) : OnLine g la mendKeys s (poisonLine g la m t) := by
  unfold poisonLine
  extract_lets mask logged
  have hlogged : OnLine g la mendKeys s logged := logPoison_onLine _ (h.put _ _ _ _ _ rfl)
  exact raise_onLine 2 rfl (by decide) _ _ _ (hlogged.bump _ _ _ _ _ rfl)

/-- What a read finds changes its own line, its numbers and its marks alone (R306, R308). -/
theorem readAct_onLine (f : ReadFate) (s : State) : OnLine g la mendKeys s (readAct g la flips f s) := by
  cases f with
  | clean => exact .refl s
  | corrected =>
    unfold readAct
    exact raise_onLine 1 rfl (by decide) _ _ _ ((OnLine.refl s).bump _ _ _ _ _ rfl)
  | rebuilt => exact rebuildCheck_onLine (writeBack_onLine 15 s)
  | poisoned m => exact poisonLine_onLine m (writeBack_onLine m s)

-- The failures that it attributes

/-- What the attribution of failures may touch, below the threshold. -/
def errKeys : Key → Bool := dmcOf [.xSTALE, .DEV_ERR_TOTAL, .DEV_ERR_PASS_ERR, .xPERR]

theorem issued_frame (old : State) (s : State) : Frame (dmcOf [.xSTALE]) s (issued g la old s) :=
  Frame.forEach _ _ (fun _ _ _ => Frame.put _ _ _ _ _ _ rfl) s

/-- A failure more in the line leaves a device below the threshold of R309, or has been counted already. -/
def Spared (g la k : Nat) (s : State) : Prop :=
  s.flag (.dmc .xPERR) g la k = true ∨ s.get (.dmc .DEV_ERR_PASS_ERR) g k + 1 < s.eraseThr (g / 4)

/-- The counts of a failure that a line has not had before (R309). -/
def failureCounted (g la k : Nat) (s : State) : State :=
  ((s.bumpSat (.dmc .DEV_ERR_TOTAL) g k).put (.dmc .xPERR) 1 g la k).bumpSat (.dmc .DEV_ERR_PASS_ERR) g k

theorem failureCounted_spared {k : Nat} (h : s.get (.dmc .DEV_ERR_PASS_ERR) g k + 1 < s.eraseThr (g / 4)) :
    (failureCounted g la k s).get (.dmc .DEV_ERR_PASS_ERR) g k < (failureCounted g la k s).eraseThr (g / 4) := by
  have hthr : (failureCounted g la k s).eraseThr (g / 4) = s.eraseThr (g / 4) := by
    simp [failureCounted, State.eraseThr, State.bumpSat_eq]
  rw [hthr, failureCounted, State.bumpSat_eq, State.get_put_same]
  refine (Nat.mod_le _ _).trans_lt ((Nat.min_le_left _ _).trans_lt ?_)
  simpa [State.bumpSat_eq] using h

/-- Below the threshold a failure is counted, and its device is not declared failed (R309). -/
theorem slideErr_counts {k : Nat} (h : Spared g la k s) : slideErr g la k s =
    if s.flag (.dmc .xPERR) g la k then s.bumpSat (.dmc .DEV_ERR_TOTAL) g k else failureCounted g la k s := by
  have hflag : (s.bumpSat (.dmc .DEV_ERR_TOTAL) g k).flag (.dmc .xPERR) g la k = s.flag (.dmc .xPERR) g la k :=
    flag_put_fld _ _ _ _ _ _ _ _ (by decide)
  unfold slideErr
  dsimp only
  rw [hflag]
  refine if_ctx_congr Iff.rfl (fun _ => rfl) (fun hp => ?_)
  have hbelow := failureCounted_spared (la := la) (h.resolve_left hp)
  have hcond : decide ((failureCounted g la k s).eraseThr (g / 4) ≤ (failureCounted g la k s).get (.dmc .DEV_ERR_PASS_ERR) g k) = false :=
    decide_eq_false (Nat.not_le.mpr hbelow)
  show (failureCounted g la k s).when (decide ((failureCounted g la k s).eraseThr (g / 4) ≤
    (failureCounted g la k s).get (.dmc .DEV_ERR_PASS_ERR) g k) && (failureCounted g la k s).erasedDev g != k) (declareFailed g k false) = _
  rw [hcond, Bool.false_and, State.when_false]

theorem slideErr_frame {k : Nat} (h : Spared g la k s) : Frame errKeys s (slideErr g la k s) := by
  rw [slideErr_counts h]
  exact .ite (.bumpSat _ _ _ _ _ _ rfl) (((Frame.bumpSat _ _ _ _ _ _ rfl).trans (.put _ _ _ _ _ _ rfl)).trans (.bumpSat _ _ _ _ _ _ rfl))

/-- A failure leaves every device spared: its own has been counted in this line. -/
theorem slideErr_spared {j k : Nat} (hk : Spared g la k s) (hj : Spared g la j s) : Spared g la j (slideErr g la k s) := by
  have hthr : (slideErr g la k s).eraseThr (g / 4) = s.eraseThr (g / 4) := by
    rw [State.eraseThr, (slideErr_frame hk).regs.get rfl, State.eraseThr]
  unfold Spared
  rw [hthr, slideErr_counts hk]
  split
  · simpa [Spared, State.bumpSat_eq] using hj
  · by_cases hjk : j = k
    · left
      simp [hjk, failureCounted, State.bumpSat_eq, Key.cut, Fld.width, Dmc.width]
    · simpa [Spared, failureCounted, State.bumpSat_eq, State.flag_eq, State.get_put, hjk] using hj

theorem slideErrs_frame (l : List Nat) (h : ∀ k ∈ l, Spared g la k s) : Frame errKeys s (forEach l (fun k s => slideErr g la k s) s) := by
  have hall := forEach_inv (fun v => Frame errKeys s v ∧ ∀ k ∈ l, Spared g la k v) l (fun k s => slideErr g la k s)
    (fun k hk v hv => ⟨hv.1.trans (slideErr_frame (hv.2 k hk)), fun j hj => slideErr_spared (hv.2 k hk) (hv.2 j hj)⟩) s
    ⟨.refl _ _, h⟩
  exact hall.1

theorem errDevs_lt (f : ReadFate) (e : LineErr) {k : Nat} (hk : k ∈ errDevs f e) : k < 6 := by
  have hbits : k ∈ bitsSet 5 e.bad → k < 6 := fun h => (List.mem_range.mp (List.mem_of_mem_filter h)).trans (by decide)
  have hone : k ∈ [5] → k < 6 := fun h => by rw [List.mem_singleton.mp h]; decide
  unfold errDevs at hk
  split at hk
  · exact absurd hk List.not_mem_nil
  · exact hone hk
  · split at hk
    · exact hbits hk
    · exact hone hk

/-- No device of a group is so near the threshold of R309 that one failure more takes it there. -/
def BelowThr (g : Nat) (s : State) : Prop := ∀ k < 6, s.get (.dmc .DEV_ERR_PASS_ERR) g k + 1 < s.eraseThr (g / 4)

theorem BelowThr.of_regs (h : BelowThr g s) (hr : SameRegs B s t) (hb : ∀ i j, B ⟨.dmc .DEV_ERR_PASS_ERR, i, j, 0⟩ = false)
    (hc : ∀ i, B ⟨.dmc .CFG_ERASE_THR, i, 0, 0⟩ = false) : BelowThr g t := fun k hk => by
  rw [State.eraseThr, hr.get (hb _ _), hr.get (hc _)]
  exact h k hk

/-- Below the threshold, a line that is not clean is left as its fate has it, with the failures counted (R306, R309). -/
theorem lineCheck_mends (hr : s.readsClean g la flips = false) (h : BelowThr g s) :
    Frame errKeys (readAct g la flips (s.readFate g la flips) s) (lineCheck g la flips s) := by
  have hact := readAct_onLine (g := g) (la := la) (flips := flips) (s.readFate g la flips) s
  have hissued := issued_frame (g := g) (la := la) s (readAct g la flips (s.readFate g la flips) s)
  have hbelow := (h.of_regs hact.regs (fun _ _ => rfl) (fun _ => rfl)).of_regs hissued.regs (fun _ _ => rfl) (fun _ => rfl)
  unfold lineCheck
  rw [if_neg (by simp [hr])]
  exact (hissued.mono (fun k hk => dmcOf_mono (by decide) k hk)).trans
    (slideErrs_frame _ (fun k hk => .inr (hbelow k (errDevs_lt _ _ hk))))

/-- Below the threshold, a line that is not clean is mended in place (R306, R309). -/
theorem lineCheck_onLine (hr : s.readsClean g la flips = false) (h : BelowThr g s) :
    OnLine g la (fun k => mendKeys k || errKeys k) s (lineCheck g la flips s) :=
  ((readAct_onLine _ _).mono fun k hk => by rw [hk, Bool.true_or]).trans
    ((lineCheck_mends hr h).onLine.mono fun k hk => by rw [hk, Bool.or_true])

end Sys2Proof
end

section
/-!
PROOFS. A write of a line (R305, R307, R308, R311, R312): the write-back that it meets, the read that it needs, its number, and what it
stores.
-/

namespace Sys2Proof

open Machine

variable {B : Key → Bool} {g la off n : Nat} {bytes : List Byte} {tags : Nat} {side : Option Nat} {flips : List Flip} {s t u : State}

-- States that a read of a line does not tell apart

/-- The poison with which a line reads rests on the mode of its group, the failed device, the poison log and its mark (R308, R310). -/
theorem linePoison_congr (hm : t.grpMode g = s.grpMode g) (hd : t.erasedDev g = s.erasedDev g) (hp : t.plog = s.plog)
    (hx : t.get (.dmc .xPOIS) g la = s.get (.dmc .xPOIS) g la) : t.linePoison g la = s.linePoison g la := by
  unfold State.linePoison State.grpLost State.logMask
  rw [hm, hd, hp, hx]

/-- The payload, the poison logs and the controllers' registers but for the counters are the same. -/
structure SameLines (s t : State) : Prop where
  regs : SameRegs (dmcOf [.CNT]) s t
  dram : t.dram = s.dram
  plog : t.plog = s.plog

namespace SameLines

theorem dmc (h : SameLines s t) {f : Dmc} (hf : f ≠ .CNT) (i j k : Nat) : t.get (.dmc f) i j k = s.get (.dmc f) i j k :=
  h.regs.get (by simpa [dmcOf] using hf)

theorem of_frame (h : Frame (dmcOf [.CNT]) s t) : SameLines s t := by
  obtain ⟨hregs, ⟨hdram, -, -, -⟩, htraffic, -, -, -⟩ := h
  unfold SameTraffic at htraffic
  exact ⟨hregs, hdram, by simp only [htraffic]⟩

theorem trans (h : SameLines s t) (i : SameLines t u) : SameLines s u :=
  ⟨h.regs.trans i.regs, i.dram.trans h.dram, i.plog.trans h.plog⟩

theorem grpMode (h : SameLines s t) (g : Nat) : t.grpMode g = s.grpMode g := h.dmc (by decide) _ _ _

theorem erasedDev (h : SameLines s t) (g : Nat) : t.erasedDev g = s.erasedDev g := h.dmc (by decide) _ _ _

theorem linePoison (h : SameLines s t) (g la : Nat) : t.linePoison g la = s.linePoison g la :=
  linePoison_congr (h.grpMode g) (h.erasedDev g) h.plog (h.dmc (by decide) _ _ _)

theorem lineSeq (h : SameLines s t) (g la : Nat) : t.lineSeq g la = s.lineSeq g la := by
  simp only [State.lineSeq, h.dmc (f := .xSEQ) (by decide), h.dmc (f := .xROW_SEQ) (by decide)]

theorem burstsRead (h : SameLines s t) (g la : Nat) (flips : List Flip) : t.burstsRead g la flips = s.burstsRead g la flips := by
  simp only [State.burstsRead, State.bursts, State.burstsGiven, State.slices, State.dramRead, h.dram, h.lineSeq,
    h.dmc (f := .xPOIS) (by decide), h.dmc (f := .xSIDE) (by decide), h.dmc (f := .xSTALE) (by decide)]

theorem readFate (h : SameLines s t) (g la : Nat) (flips : List Flip) : t.readFate g la flips = s.readFate g la flips := by
  simp only [State.readFate, State.lineChecks, h.burstsRead, h.grpMode, h.erasedDev]

theorem readsClean (h : SameLines s t) (g la : Nat) (flips : List Flip) : t.readsClean g la flips = s.readsClean g la flips := by
  simp only [State.readsClean, State.lineStale, h.readFate, h.dmc (f := .xSTALE) (by decide)]

theorem sliceRead (h : SameLines s t) (g la : Nat) (flips : List Flip) (k : Nat) : t.sliceRead g la flips k = s.sliceRead g la flips k := by
  simp only [State.sliceRead, h.burstsRead, h.grpMode, h.erasedDev]

end SameLines

/-- The payload as the write-back of a read leaves it. -/
def backDram (g la mask : Nat) (flips : List Flip) (s : State) : Mem 0 :=
  ((List.range 4).filter (bitOf mask)).foldl (fun d k => d.write (dramAddr g (la * 256 + 64 * k)) (s.sliceRead g la flips k)) s.dram

theorem writeBack_eq (mask : Nat) (s : State) : writeBack g la mask flips s = { s with dram := backDram g la mask flips s } := by
  have hfold : ∀ (l : List Nat) (t : State), forEach l (fun k t =>
      { t with dram := t.dram.write (dramAddr g (la * 256 + 64 * k)) (s.sliceRead g la flips k) }) t =
      { t with dram := l.foldl (fun d k => d.write (dramAddr g (la * 256 + 64 * k)) (s.sliceRead g la flips k)) t.dram } := by
    intro l
    induction l with
    | nil => exact fun _ => rfl
    | cons k l ih => exact fun t => ih _
  exact hfold _ s

theorem writeBack_linePoison (mask : Nat) (s : State) (h la' : Nat) :
    (writeBack g la mask flips s).linePoison h la' = s.linePoison h la' := by
  rw [writeBack_eq]
  rfl

/-- The payload, the poison logs and the mark of a line are the same. -/
structure SameView (g la : Nat) (s t : State) : Prop where
  dram : t.dram = s.dram
  plog : t.plog = s.plog
  mark : t.get (.dmc .xPOIS) g la = s.get (.dmc .xPOIS) g la

theorem SameView.trans (h : SameView g la s t) (i : SameView g la t u) : SameView g la s u :=
  ⟨i.dram.trans h.dram, i.plog.trans h.plog, i.mark.trans h.mark⟩

theorem SameView.symm (h : SameView g la s t) : SameView g la t s := ⟨h.dram.symm, h.plog.symm, h.mark.symm⟩

theorem Frame.sameView (h : Frame B s t) (hb : B ⟨.dmc .xPOIS, g, la, 0⟩ = false) : SameView g la s t := by
  obtain ⟨hregs, ⟨hdram, -, -, -⟩, htraffic, -, -, -⟩ := h
  unfold SameTraffic at htraffic
  exact ⟨hdram, by simp only [htraffic], hregs.get hb⟩

theorem SameLines.sameView (h : SameLines s t) : SameView g la s t := ⟨h.dram, h.plog, h.dmc (by decide) _ _ _⟩

theorem raise_sameView {code : Nat} (c : Nat) (hc : faultClass code = some c) (hlow : c < 3) (die loc det : Nat) (s : State) :
    SameView g la s (raise code die loc det s) := (raise_minor_frame c hc hlow die loc det s).sameView rfl

theorem dmcBump_sameView (i j : Nat) (s : State) : SameView g la s (s.bump (.dmc .CNT) i j) :=
  (Frame.bump (B := dmcOf [.CNT]) s (.dmc .CNT) i j 0 1 rfl).sameView rfl

/-- The poison log with a line entered (R308). -/
def loggedAs (g la mask : Nat) (l : List PLog) : List PLog := (logPoison g la mask { State.reset with plog := l }).plog

/-- What a read that poisons slices leaves of a line (R306, R308). -/
theorem poisonLine_leaves (m : Nat) (s : State) : (poisonLine g la m s).dram = s.dram ∧
    (poisonLine g la m s).plog = loggedAs g la (Nat.lor (s.linePoison g la) m) s.plog ∧
    (poisonLine g la m s).get (.dmc .xPOIS) g la = Nat.lor (s.linePoison g la) m % 16 := by
  unfold poisonLine
  extract_lets mask logged
  have hview := (dmcBump_sameView (g := g) (la := la) (g / 4) 1 logged).trans
    (raise_sameView 2 (by decide : faultClass 0x45 = some 2) (by decide) (g / 4) g la _)
  have hmark : logged.get (.dmc .xPOIS) g la = mask % 16 := by
    have h : logged.get (.dmc .xPOIS) g la = (s.put (.dmc .xPOIS) mask g la).get (.dmc .xPOIS) g la :=
      (State.get_put_fld _ _ _ _ _ _ _ _ _ _ (by decide)).trans (State.get_put_fld _ _ _ _ _ _ _ _ _ _ (by decide))
    rw [h, State.get_put_same]
    rfl
  exact ⟨hview.dram, hview.plog, hview.mark.trans hmark⟩

/-- What a read whose check line is lost leaves of a line (R306). -/
theorem rebuildCheck_leaves (s : State) : (rebuildCheck g la s).dram = s.dram ∧
    (rebuildCheck g la s).plog = s.plog.filter (fun p => !(p.grp == g && p.la == la)) ∧
    (rebuildCheck g la s).get (.dmc .xPOIS) g la = 0 := by
  unfold rebuildCheck
  extract_lets lost cleared
  have hlost : Frame (dmcOf [.POISON_LAST_LOG_LOST]) s lost := .when _ _ (fun _ => .put _ _ _ _ _ _ rfl)
  have hviewLost : SameView g la s lost := hlost.sameView rfl
  have hview := ((dmcBump_sameView (g := g) (la := la) (g / 4) 0 cleared).trans (dmcBump_sameView (g / 4) 2 _)).trans
    (raise_sameView 1 (by decide : faultClass 0x20 = some 1) (by decide) (g / 4) g la _)
  have hmark : cleared.get (.dmc .xPOIS) g la = 0 := by
    have h : cleared.get (.dmc .xPOIS) g la = (lost.put (.dmc .xPOIS) 0 g la).get (.dmc .xPOIS) g la :=
      ((State.get_put_fld _ _ _ _ _ _ _ _ _ _ (by decide)).trans (State.get_put_fld _ _ _ _ _ _ _ _ _ _ (by decide))).trans
        (State.get_put_fld (lost.put (.dmc .xPOIS) 0 g la) _ _ _ _ _ _ _ _ _ (by decide))
    rw [h, State.get_put_same]
    rfl
  have hdram : cleared.dram = lost.dram := by simp only [cleared, takeLineSeq, unlogPoison, State.bump_eq, State.put_dram]
  have hplog : cleared.plog = lost.plog.filter (fun p => !(p.grp == g && p.la == la)) := by
    simp only [cleared, takeLineSeq, unlogPoison, State.bump_eq, State.put_plog]
  exact ⟨hview.dram.trans (hdram.trans hviewLost.dram), hview.plog.trans (hplog.trans (by rw [hviewLost.plog])), hview.mark.trans hmark⟩

theorem corrected_sameView (s : State) : SameView g la s (readAct g la flips .corrected s) := by
  rw [readAct]
  exact (dmcBump_sameView (g / 4) 0 s).trans (raise_sameView 1 (by decide : faultClass 0x20 = some 1) (by decide) (g / 4) g la _)

/-- What is found on a line is found alike in two states that a read does not tell apart. -/
theorem readAct_view (h : SameLines s t) (f : ReadFate) : SameView g la (readAct g la flips f s) (readAct g la flips f t) := by
  have hback : ∀ m, (writeBack g la m flips t).dram = (writeBack g la m flips s).dram := fun m => by
    simp only [writeBack_eq, backDram, h.sliceRead, h.dram]
  have hplog : ∀ m, (writeBack g la m flips t).plog = (writeBack g la m flips s).plog := fun m => by
    simp only [writeBack_eq, h.plog]
  cases f with
  | clean => exact h.sameView
  | corrected => exact (corrected_sameView s).symm.trans (h.sameView.trans (corrected_sameView t))
  | rebuilt =>
    obtain ⟨hds, hps, hms⟩ := rebuildCheck_leaves (g := g) (la := la) (writeBack g la 15 flips s)
    obtain ⟨hdt, hpt, hmt⟩ := rebuildCheck_leaves (g := g) (la := la) (writeBack g la 15 flips t)
    exact ⟨(hdt.trans (hback 15)).trans hds.symm, by simp only [readAct, hpt, hps, hplog], hmt.trans hms.symm⟩
  | poisoned m =>
    obtain ⟨hds, hps, hms⟩ := poisonLine_leaves (g := g) (la := la) m (writeBack g la m flips s)
    obtain ⟨hdt, hpt, hmt⟩ := poisonLine_leaves (g := g) (la := la) m (writeBack g la m flips t)
    have hpoison := h.linePoison g la
    exact ⟨(hdt.trans (hback m)).trans hds.symm, by simp only [readAct, hpt, hps, hplog, writeBack_linePoison, hpoison],
      by simp only [readAct, hmt, hms, writeBack_linePoison, hpoison]⟩

/-- Below the threshold, what a read finds on a line it finds alike in two states that it does not tell apart. -/
theorem lineCheck_alike (h : SameLines s t) (hthr : BelowThr g s) (hr : s.readsClean g la flips = false) :
    (lineCheck g la flips t).dram = (lineCheck g la flips s).dram ∧
    (lineCheck g la flips t).linePoison g la = (lineCheck g la flips s).linePoison g la := by
  have hs := lineCheck_mends hr hthr
  have ht := lineCheck_mends ((h.readsClean g la flips).trans hr) (hthr.of_regs h.regs (fun _ _ => rfl) (fun _ => rfl))
  rw [h.readFate] at ht
  have hview := ((hs.sameView (g := g) (la := la) rfl).symm.trans (readAct_view h _)).trans (ht.sameView (g := g) (la := la) rfl)
  have hmended : ∀ (v : State) {w : State} {f : Dmc}, Frame errKeys (readAct g la flips (s.readFate g la flips) v) w →
      (errKeys ⟨.dmc f, g, 0, 0⟩ = false) → (mendKeys ⟨.dmc f, g, 0, 0⟩ = false) → w.get (.dmc f) g = v.get (.dmc f) g :=
    fun v _ _ hw he hm => (hw.regs.get he).trans ((readAct_onLine (g := g) (la := la) (flips := flips) _ v).regs.get hm)
  exact ⟨hview.dram, linePoison_congr ((hmended t ht rfl rfl).trans ((h.grpMode g).trans (hmended s hs rfl rfl).symm))
    ((hmended t ht rfl rfl).trans ((h.erasedDev g).trans (hmended s hs rfl rfl).symm)) hview.plog hview.mark⟩

-- The write-back that a write meets

/-- What the settling of a write-back may touch. -/
def metKeys : Key → Bool := dmcOf [.xPOIS, .xSIDE, .xWB, .xWB_SIDE, .xWB_SLICE, .CNT]

theorem meetWriteBack_none (h : s.get (.dmc .xWB) g la = 0) : meetWriteBack g la s = s := if_pos h

theorem undoWriteBack_onLine (h : OnLine g la metKeys s t) : OnLine g la metKeys s (undoWriteBack g la t) := by
  unfold undoWriteBack
  extract_lets old marked back logged
  have hmarked : OnLine g la metKeys s marked := (h.put _ _ _ _ _ rfl).put _ _ _ _ _ rfl
  have hback : OnLine g la metKeys s back := by
    refine .each (fun k hk v hv => hv.write _ ?_) hmarked
    have hk4 := List.mem_range.mp hk
    rw [beBytes_length]
    omega
  exact .bump _ _ _ _ _ rfl (.ite (unlogPoison_onLine hback) (hback.plog _))

/-- A write that meets a write-back settles it, in its own line (R307). -/
theorem meetWriteBack_settles (s : State) : OnLine g la metKeys s (meetWriteBack g la s) ∧ (meetWriteBack g la s).get (.dmc .xWB) g la = 0 := by
  by_cases h : s.get (.dmc .xWB) g la = 0
  · rw [meetWriteBack_none h]
    exact ⟨.refl s, h⟩
  · unfold meetWriteBack
    rw [if_neg h]
    dsimp only
    have hfree : OnLine g la metKeys s s.free.2 := (Frame.free s).onLine
    have hundone : OnLine g la metKeys s (s.free.2.when (s.free.1 % 2 == 1) (undoWriteBack g la)) := .when (undoWriteBack_onLine hfree) hfree
    generalize s.free.2.when (s.free.1 % 2 == 1) (undoWriteBack g la) = v at hundone
    have hslices : Frame (dmcOf [.xWB_SIDE, .xWB_SLICE]) (v.put (.dmc .xWB) 0 g la) (forEach (List.range 4)
        (fun k s => s.put (.dmc .xWB_SLICE) 0 g la k) ((v.put (.dmc .xWB) 0 g la).put (.dmc .xWB_SIDE) 0 g la)) :=
      (Frame.put _ _ _ _ _ _ rfl).trans (.forEach _ _ (fun _ _ _ => .put _ _ _ _ _ _ rfl) _)
    refine ⟨(hundone.put _ _ _ _ _ rfl).trans (hslices.mono (dmcOf_mono (by decide))).onLine, ?_⟩
    rw [hslices.regs.get rfl, State.get_put_same]
    rfl

theorem forEach_quiet {α : Type} (l : List α) (f : α → State → State) (h : ∀ x v, f x v.quiet = (f x v).quiet) (s : State) :
    forEach l f s.quiet = (forEach l f s).quiet := by
  induction l generalizing s with
  | nil => rfl
  | cons x l ih => rw [forEach_cons, forEach_cons, h, ih]

theorem undoWriteBack_quiet (s : State) : undoWriteBack g la s.quiet = (undoWriteBack g la s).quiet := by
  rw [undoWriteBack, undoWriteBack]
  by_cases h : s.get (.dmc .xWB) g la - 1 = 0
  · rw [if_pos h, if_pos (show s.quiet.get (.dmc .xWB) g la - 1 = 0 from h)]
    rfl
  · rw [if_neg h, if_neg (show ¬ s.quiet.get (.dmc .xWB) g la - 1 = 0 from h)]
    rfl

/-- What the last command sent decides nothing of it. -/
theorem meetWriteBack_quiet (s : State) : meetWriteBack g la s.quiet = (meetWriteBack g la s).quiet := by
  have hfree : s.quiet.free = (s.free.1, s.free.2.quiet) := rfl
  have hundo : s.free.2.quiet.when (s.free.1 % 2 == 1) (undoWriteBack g la) = (s.free.2.when (s.free.1 % 2 == 1) (undoWriteBack g la)).quiet := by
    simp only [State.when_eq, undoWriteBack_quiet]
    split <;> rfl
  unfold meetWriteBack
  by_cases h : s.get (.dmc .xWB) g la = 0
  · rw [if_pos h, if_pos (show s.quiet.get (.dmc .xWB) g la = 0 from h)]
  · rw [if_neg h, if_neg (show ¬ s.quiet.get (.dmc .xWB) g la = 0 from h), hfree]
    dsimp only
    rw [hundo]
    generalize s.free.2.when (s.free.1 % 2 == 1) (undoWriteBack g la) = v
    exact forEach_quiet (List.range 4) (fun k s => s.put (.dmc .xWB_SLICE) 0 g la k) (fun _ _ => rfl)
      ((v.put (.dmc .xWB) 0 g la).put (.dmc .xWB_SIDE) 0 g la)

end Sys2Proof
end

section
/-!
PROOFS. What a line write leaves (R305, R307, R308, R312): the parts of the write one by one, and the write put together.
-/

namespace Sys2Proof

open Machine

variable {B C : Key → Bool} {g la off n : Nat} {bytes : List Byte} {tags : Nat} {side : Option Nat} {flips : List Flip} {s t u v : State}

-- The parts of a write

/-- A write takes a whole line. -/
def wholeLine (off n : Nat) : Bool := off == 0 && n == 256

/-- The state in which a write has met the write-back of its line, and counted where it is not of the whole line. -/
def lineMet (g la off n : Nat) (s : State) : State := (meetWriteBack g la s).when (!wholeLine off n) (·.bump (.dmc .CNT) (g / 4) 4)

/-- The state after the read that a write of a part of a line needs. -/
def lineFound (flips : List Flip) (g la off n : Nat) (s : State) : State :=
  (lineMet g la off n s).when (!wholeLine off n && !!(lineMet g la off n s).flag (.dmc .xINIT) g (la / 32)) (lineCheck g la flips)

/-- A write takes its number: of its row where that is written for the first time, else of its line. -/
def lineNumbered (fresh : Bool) (g la : Nat) (s : State) : State := if fresh then initRow g (la / 32) s else takeLineSeq g la s

/-- The sideband that a write leaves. -/
def sideAfter (side : Option Nat) (g la off n : Nat) (s : State) : Nat :=
  match side with
  | some v => v
  | none => if wholeLine off n then 0 else s.get (.dmc .xSIDE) g la

/-- The poison log after a write that leaves this poison. -/
def poisonLogged (g la off n tags new : Nat) (old : Nat) (s : State) : State :=
  if (slicesOf off n).any (bitOf tags) then logPoison g la new s else s.when (new == 0 && old != 0) (unlogPoison g la)

/-- What a write stores: its poison, its sideband and its bytes. -/
def lineStored (g la off : Nat) (bytes : List Byte) (tags : Nat) (side : Option Nat) (s : State) : State :=
  let new := poisonAfter (s.linePoison g la) off bytes.length tags
  let t := (s.put (.dmc .xPOIS) new g la).put (.dmc .xSIDE) (sideAfter side g la off bytes.length s) g la
  let t := poisonLogged g la off bytes.length tags new (s.linePoison g la) t
  issued g la s { t with dram := t.dram.write (dramAddr g (la * 256 + off)) bytes }

/-- A write of a line is these parts in their order. -/
theorem lineWriteWith_eq (hlost : s.grpLost g = false) (hb : bytes ≠ []) : lineWriteWith flips g la off bytes tags side s =
    lineStored g la off bytes tags side (lineNumbered (!(lineMet g la off bytes.length s).flag (.dmc .xINIT) g (la / 32)) g la
      (lineFound flips g la off bytes.length s)) := by
  rw [lineWriteWith, if_neg (by simp [hlost, hb])]
  cases side <;> rfl

/-- A LOST group drops a write, and one of no bytes does nothing (R311). -/
theorem lineWriteWith_dropped (h : s.grpLost g = true ∨ bytes = []) : lineWriteWith flips g la off bytes tags side s = s :=
  if_pos h

-- The read that it needs

theorem lineMet_same (s : State) : SameLines (meetWriteBack g la s) (lineMet g la off n s) :=
  .of_frame (.when _ _ (fun _ => .bump _ _ _ _ _ _ rfl))

theorem lineMet_onLine (s : State) : OnLine g la metKeys s (lineMet g la off n s) ∧ (lineMet g la off n s).get (.dmc .xWB) g la = 0 := by
  obtain ⟨hmet, hwb⟩ := meetWriteBack_settles (g := g) (la := la) s
  exact ⟨.when (hmet.bump _ _ _ _ _ rfl) hmet, ((lineMet_same s).dmc (by decide) _ _ _).trans hwb⟩

theorem lineMet_init (s : State) : (lineMet g la off n s).flag (.dmc .xINIT) g (la / 32) = s.flag (.dmc .xINIT) g (la / 32) :=
  (lineMet_onLine s).1.regs.flag rfl

/-- A write of a whole line, of a row that nothing has written, or of a line that reads clean finds nothing. -/
theorem lineFound_met (h : wholeLine off n = true ∨ s.flag (.dmc .xINIT) g (la / 32) = false ∨
    (meetWriteBack g la s).readsClean g la flips = true) : lineFound flips g la off n s = lineMet g la off n s := by
  rw [lineFound, lineMet_init, Bool.not_not]
  rcases h with hwhole | hfresh | hclean
  · rw [hwhole]
    rfl
  · rw [hfresh, Bool.and_false]
    rfl
  · have hcheck : lineCheck g la flips (lineMet g la off n s) = lineMet g la off n s :=
      if_pos (((lineMet_same s).readsClean g la flips).trans hclean)
    rw [State.when_eq, hcheck, ite_self]

theorem lineFound_check (hwhole : wholeLine off n = false) (hold : s.flag (.dmc .xINIT) g (la / 32) = true) :
    lineFound flips g la off n s = lineCheck g la flips (lineMet g la off n s) := by
  rw [lineFound, lineMet_init, hwhole, hold]
  rfl

-- Its number

/-- What a write may touch that takes its number. -/
def numKeys : Key → Bool := dmcOf [.xSTALE, .xINIT, .xINIT_N, .xROW_SEQ, .xWSEQ, .xSEQ, .CNT, .GRP_STATUS_INIT_DONE]

theorem staleRow_frame (row : Nat) (s : State) : Frame numKeys s (staleRow g row s) := by
  unfold staleRow
  split
  · exact .refl _ s
  · exact .forEach _ _ (fun _ _ v => (Frame.free v).trans (.put _ _ _ _ _ _ rfl)) s

/-- The first write of a row initialises it (R312). -/
theorem initRow_inits {row : Nat} (h : s.flag (.dmc .xINIT) g row = false) :
    Frame numKeys s (initRow g row s) ∧ (initRow g row s).flag (.dmc .xINIT) g row = true := by
  unfold initRow
  rw [if_neg (by simp [h])]
  dsimp only
  have hmarked : Frame numKeys s ((staleRow g row s).put (.dmc .xINIT) 1 g row) := (staleRow_frame row s).trans (.put _ _ _ _ _ _ rfl)
  have hinit : ((staleRow g row s).put (.dmc .xINIT) 1 g row).flag (.dmc .xINIT) g row = true := by
    rw [flag_put_same]
    rfl
  generalize (staleRow g row s).put (.dmc .xINIT) 1 g row = v at hmarked hinit ⊢
  have hrest : ∀ w : State, Frame (dmcOf [.GRP_STATUS_INIT_DONE]) w
      (w.when (decide (grpRows ≤ w.get (.dmc .xINIT_N) g)) (fun s => s.put (.dmc .GRP_STATUS_INIT_DONE) 1 g)) := fun w =>
    .when _ _ (fun _ => .put _ _ _ _ _ _ rfl)
  have hcounts : Frame (dmcOf [.xINIT_N, .xROW_SEQ, .xWSEQ, .CNT, .GRP_STATUS_INIT_DONE]) v _ :=
    ((((Frame.bump v (.dmc .xINIT_N) g 0 0 1 rfl).trans
      (.put _ (.dmc .xROW_SEQ) ((v.bump (.dmc .xINIT_N) g).get (.dmc .xWSEQ) g) g row 0 rfl)).trans
      (.bump _ (.dmc .xWSEQ) g 0 0 32 rfl)).trans (.bump _ (.dmc .CNT) (g / 4) 6 0 1 rfl)).trans ((hrest _).mono (dmcOf_mono (by decide)))
  exact ⟨hmarked.trans (hcounts.mono (dmcOf_mono (by decide))), (hcounts.regs.flag rfl).trans hinit⟩

theorem lineNumbered_frame (s : State) :
    Frame numKeys s (lineNumbered (!s.flag (.dmc .xINIT) g (la / 32)) g la s) ∧
    (lineNumbered (!s.flag (.dmc .xINIT) g (la / 32)) g la s).flag (.dmc .xINIT) g (la / 32) = true := by
  unfold lineNumbered
  cases h : s.flag (.dmc .xINIT) g (la / 32) with
  | false => exact initRow_inits h
  | true =>
    have hseq : Frame (dmcOf [.xSEQ, .xWSEQ]) s (takeLineSeq g la s) := (Frame.put _ _ _ _ _ _ rfl).trans (.bump _ _ _ _ _ _ rfl)
    exact ⟨hseq.mono (dmcOf_mono (by decide)), (hseq.regs.flag rfl).trans h⟩

theorem numbered_linePoison (h : Frame numKeys s t) : t.linePoison g la = s.linePoison g la := by
  have hview : SameView g la s t := h.sameView rfl
  exact linePoison_congr (h.regs.get rfl) (h.regs.get rfl) hview.plog hview.mark

-- What it stores

/-- What a write may touch that stores its bytes. -/
def storeKeys : Key → Bool := dmcOf [.xPOIS, .xSIDE, .POISON_LAST_LINE, .POISON_LAST_MASK, .xSTALE]

theorem poisonLogged_onLine {new old : Nat} (h : OnLine g la storeKeys s t) : OnLine g la storeKeys s (poisonLogged g la off n tags new old t) :=
  .ite (((h.plog _).put _ _ _ _ _ rfl).put _ _ _ _ _ rfl) (.when (unlogPoison_onLine h) h)

theorem poisonLogged_leaves {new old : Nat} : (poisonLogged g la off n tags new old t).dram = t.dram ∧
    (poisonLogged g la off n tags new old t).get (.dmc .xPOIS) g la = t.get (.dmc .xPOIS) g la := by
  unfold poisonLogged
  split
  · exact ⟨rfl, (State.get_put_fld _ _ _ _ _ _ _ _ _ _ (by decide)).trans (State.get_put_fld _ _ _ _ _ _ _ _ _ _ (by decide))⟩
  · rw [State.when_eq]
    split <;> exact ⟨rfl, rfl⟩

/-- What stands after a write: its bytes, every other byte and register as found, and the poison of its line by the rule of R308. -/
structure LineStands (g la off : Nat) (bytes : List Byte) (tags : Nat) (s t : State) : Prop where
  onLine : OnLine g la storeKeys s t
  dram   : t.dram = s.dram.write (dramAddr g (la * 256 + off)) bytes
  mark   : t.get (.dmc .xPOIS) g la = poisonAfter (s.linePoison g la) off bytes.length tags % 16

theorem lineStored_stands (hn : off + bytes.length ≤ 256) (s : State) :
    LineStands g la off bytes tags s (lineStored g la off bytes tags side s) := by
  unfold lineStored
  extract_lets new marked logged
  have hmarked : OnLine g la storeKeys s marked := ((OnLine.refl s).put _ _ _ _ _ rfl).put _ _ _ _ _ rfl
  obtain ⟨hdram, hpois⟩ := poisonLogged_leaves (g := g) (la := la) (off := off) (n := bytes.length) (tags := tags) (new := new)
    (old := s.linePoison g la) (t := marked)
  have hissued := issued_frame (g := g) (la := la) s { logged with dram := logged.dram.write (dramAddr g (la * 256 + off)) bytes }
  have hview : SameView g la _ _ := hissued.sameView rfl
  refine ⟨((poisonLogged_onLine hmarked).write bytes hn).trans (hissued.mono (dmcOf_mono (by decide))).onLine, ?_, ?_⟩
  · rw [hview.dram]
    exact congrArg (·.write (dramAddr g (la * 256 + off)) bytes) hdram
  · refine hview.mark.trans (hpois.trans ?_)
    exact (State.get_put_fld _ _ _ _ _ _ _ _ _ _ (by decide)).trans (State.get_put_same _ _ _ _ _ _)

-- A write

/-- What a write may touch beside what its read does. -/
def wroteKeys : Key → Bool := dmcOf [.xPOIS, .xSIDE, .xWB, .xWB_SIDE, .xWB_SLICE, .CNT, .xSTALE, .xINIT, .xINIT_N, .xROW_SEQ, .xWSEQ, .xSEQ,
  .GRP_STATUS_INIT_DONE, .POISON_LAST_LINE, .POISON_LAST_MASK]

theorem dmcOf_block {l : List Dmc} {k : Key} (h : dmcOf l k = true) : blkKeys .dmc k = true := by
  unfold dmcOf at h
  unfold blkKeys
  split at h
  · next hf => rw [hf]; rfl
  · exact Bool.noConfusion h

/-- What a read that finds something may touch is the controller's and the collector's. -/
theorem foundKeys_blocks {k : Key} (h : (mendKeys k || errKeys k) = true) : (blkKeys .dmc k || fltKeys k) = true := by
  rw [mendKeys, errKeys, Bool.or_eq_true, Bool.or_eq_true] at h
  rw [Bool.or_eq_true]
  exact h.elim (fun h => h.elim .inr fun h => .inl (dmcOf_block h)) fun h => .inl (dmcOf_block h)

/-- What a write leaves, from what it has found. -/
structure LineWrote (g la off : Nat) (bytes : List Byte) (tags : Nat) (C : Key → Bool) (s v t : State) : Prop where
  named  : ∀ (i : Nat) (h : i < bytes.length), t.dram.get (dramAddr g (la * 256 + off) + i) = bytes[i]
  others : ∀ a, a < dramAddr g (la * 256 + off) ∨ dramAddr g (la * 256 + off) + bytes.length ≤ a → t.dram.get a = v.dram.get a
  mark   : t.get (.dmc .xPOIS) g la = poisonAfter (v.linePoison g la) off bytes.length tags % 16
  met    : t.get (.dmc .xWB) g la = 0
  row    : t.flag (.dmc .xINIT) g (la / 32) = true
  onLine : OnLine g la C s t

/-- A write leaves its bytes, and every other byte as the read before it left it. -/
theorem lineWriteWith_wrote (hlost : s.grpLost g = false) (hb : bytes ≠ []) (hn : off + bytes.length ≤ 256)
    (hv : lineFound flips g la off bytes.length s = v) (hfound : OnLine g la B (lineMet g la off bytes.length s) v)
    (hkeep : B ⟨.dmc .xWB, g, la, 0⟩ = false ∧ B ⟨.dmc .xINIT, g, la / 32, 0⟩ = false) (hB : ∀ k, B k = true → C k = true)
    (hC : ∀ k, wroteKeys k = true → C k = true) :
    LineWrote g la off bytes tags C s v (lineWriteWith flips g la off bytes tags side s) := by
  obtain ⟨hmet, hwb⟩ := lineMet_onLine (g := g) (la := la) (off := off) (n := bytes.length) s
  obtain ⟨hwbKeep, hinitKeep⟩ := hkeep
  have hflag : v.flag (.dmc .xINIT) g (la / 32) = (lineMet g la off bytes.length s).flag (.dmc .xINIT) g (la / 32) := hfound.regs.flag hinitKeep
  rw [lineWriteWith_eq hlost hb, hv, ← hflag]
  obtain ⟨hnum, hrow⟩ := lineNumbered_frame (g := g) (la := la) v
  generalize lineNumbered (!v.flag (.dmc .xINIT) g (la / 32)) g la v = w at hnum hrow
  have hstands := lineStored_stands (g := g) (la := la) (tags := tags) (side := side) hn w
  obtain ⟨honLine, hdram, hmark⟩ := hstands
  have hsame : w.dram = v.dram := (hnum.sameView (g := g) (la := la) rfl).dram
  have hall : OnLine g la C s (lineStored g la off bytes tags side w) :=
    (((hmet.mono fun k hk => hC k (dmcOf_mono (by decide) k hk)).trans (hfound.mono hB)).trans
      (hnum.onLine.mono fun k hk => hC k (dmcOf_mono (by decide) k hk))).trans (honLine.mono fun k hk => hC k (dmcOf_mono (by decide) k hk))
  refine ⟨fun i h => ?_, fun a ha => ?_, ?_, ?_, ?_, hall⟩
  · rw [hdram]
    exact Mem.get_write_inside _ _ _ _ h
  · rw [hdram, ← hsame]
    exact Mem.get_write_outside _ _ _ _ ha
  · rw [hmark, numbered_linePoison hnum]
  · exact (honLine.regs.get rfl).trans ((hnum.regs.get rfl).trans ((hfound.regs.get hwbKeep).trans hwb))
  · exact (honLine.regs.flag rfl).trans hrow

theorem LineWrote.ofQuiet (h : LineWrote g la off bytes tags C s.quiet v t) : LineWrote g la off bytes tags C s v (s.commit t) := by
  obtain ⟨hnamed, hothers, hmark, hmet, hrow, ⟨hregs, hdram, hflash, hstores, hhost, hchains, hbufs⟩⟩ := h
  exact ⟨hnamed, hothers, hmark, hmet, hrow, ⟨hregs, hdram, hflash, hstores, hhost, hchains, hbufs⟩⟩

section
variable {g : Group} {la : Fin 16777216} {off : Fin 256}

theorem take_fits (off : Fin 256) (bytes : List Byte) : off.val + (bytes.take (256 - off)).length ≤ 256 := by
  have h := List.length_take_le (256 - off.val) bytes
  omega

theorem wholeLine_iff (off : Fin 256) (bytes : List Byte) :
    wholeLine off (bytes.take (256 - off)).length = true ↔ (bytes.take (256 - off)).length = 256 := by
  have h := take_fits off bytes
  simp only [wholeLine, Bool.and_eq_true, beq_iff_eq]
  omega

theorem exec_dramWrite (hl : s.live = true) (hs : s.safe = false) (hd : s.dieUp (g / 4) = true) :
    exec (.dramWrite g la off bytes tags ⟨side, flips⟩) s =
      .next (s.commit (lineWriteWith flips g la off (bytes.take (256 - off)) tags side s.quiet)) := exec_run_open rfl hl hs hd

/-- A write whose read finds nothing, or that needs none. -/
theorem dramWrite_plain (hl : s.live = true) (hs : s.safe = false) (hd : s.dieUp (g / 4) = true) (hlost : s.grpLost g = false)
    (hb : bytes.take (256 - off) ≠ [])
    (h : (bytes.take (256 - off)).length = 256 ∨ s.flag (.dmc .xINIT) g (la / 32) = false ∨ (meetWriteBack g la s).readsClean g la flips = true) :
    ∃ t, exec (.dramWrite g la off bytes tags ⟨side, flips⟩) s = .next t ∧
      LineWrote g la off (bytes.take (256 - off)) tags (blkKeys .dmc) s (lineMet g la off (bytes.take (256 - off)).length s.quiet) t := by
  have hq : wholeLine off (bytes.take (256 - off)).length = true ∨ s.quiet.flag (.dmc .xINIT) g (la / 32) = false ∨
      (meetWriteBack g la s.quiet).readsClean g la flips = true :=
    h.imp (wholeLine_iff off bytes).mpr (.imp_right fun hc => by rw [meetWriteBack_quiet]; exact hc)
  exact ⟨_, exec_dramWrite hl hs hd, (lineWriteWith_wrote (s := s.quiet) (B := fun _ => false) hlost hb (take_fits off bytes)
    (lineFound_met hq) (OnLine.refl _) ⟨rfl, rfl⟩ (fun _ h => Bool.noConfusion h) (fun _ h => dmcOf_block h)).ofQuiet⟩

/-- Where no write-back waits, a write whose read finds nothing leaves every byte that it does not name as it was. -/
theorem lineMet_quiet (h : s.get (.dmc .xWB) g la = 0) (n : Nat) : (lineMet g la off n s.quiet).dram = s.dram ∧
    (lineMet g la off n s.quiet).linePoison g la = s.linePoison g la := by
  have hsame : SameLines (meetWriteBack g la s.quiet) (lineMet g la off n s.quiet) := lineMet_same s.quiet
  rw [meetWriteBack_quiet, meetWriteBack_none h] at hsame
  exact ⟨hsame.dram, hsame.linePoison g la⟩

/-- Below the threshold, a write whose read finds something leaves the bytes that it does not name as that read does. -/
theorem dramWrite_mends (hl : s.live = true) (hs : s.safe = false) (hd : s.dieUp (g / 4) = true) (hlost : s.grpLost g = false)
    (hb : bytes.take (256 - off) ≠ []) (hpart : (bytes.take (256 - off)).length ≠ 256) (hold : s.flag (.dmc .xINIT) g (la / 32) = true)
    (hr : (meetWriteBack g la s).readsClean g la flips = false)
    (hthr : ∀ k < 6, s.get (.dmc .DEV_ERR_PASS_ERR) g k + 1 < s.eraseThr (g / 4)) :
    ∃ t v, exec (.dramWrite g la off bytes tags ⟨side, flips⟩) s = .next t ∧
      LineWrote g la off (bytes.take (256 - off)) tags (fun k => blkKeys .dmc k || fltKeys k) s v t ∧
      v.dram = (lineCheck g la flips (meetWriteBack g la s)).dram ∧
      v.linePoison g la = (lineCheck g la flips (meetWriteBack g la s)).linePoison g la := by
  have hwhole : wholeLine off (bytes.take (256 - off)).length = false := Bool.eq_false_iff.mpr fun h => hpart ((wholeLine_iff off bytes).mp h)
  have hsame : SameLines (meetWriteBack g la s) (lineMet g la off (bytes.take (256 - off)).length s.quiet) := by
    have hmet : SameLines (meetWriteBack g la s.quiet) (lineMet g la off (bytes.take (256 - off)).length s.quiet) := lineMet_same s.quiet
    rw [meetWriteBack_quiet] at hmet
    exact ⟨hmet.regs, hmet.dram, hmet.plog⟩
  have hbelow : BelowThr g (meetWriteBack g la s) :=
    BelowThr.of_regs hthr (meetWriteBack_settles s).1.regs (fun _ _ => rfl) (fun _ => rfl)
  have hbelowMet := hbelow.of_regs hsame.regs (fun _ _ => rfl) (fun _ => rfl)
  refine ⟨_, _, exec_dramWrite hl hs hd, (lineWriteWith_wrote (s := s.quiet) hlost hb (take_fits off bytes)
    (lineFound_check hwhole hold) (lineCheck_onLine ((hsame.readsClean g la flips).trans hr) hbelowMet) ⟨rfl, rfl⟩
    (fun _ hk => foundKeys_blocks hk) (fun k hk => by rw [dmcOf_block hk, Bool.true_or])).ofQuiet, lineCheck_alike hsame hbelow hr⟩

/-- A write to a LOST group, or of no bytes, changes nothing. -/
theorem dramWrite_dropped (hl : s.live = true) (h : s.grpLost g = true ∨ bytes.take (256 - off) = []) :
    ∃ t, exec (.dramWrite g la off bytes tags ⟨side, flips⟩) s = .next t ∧ Still s t := by
  by_cases hopen : s.safe = true ∨ s.dieUp (g / 4) = false
  · exact exec_run_shut_still rfl hl hopen
  · obtain ⟨hs, hd⟩ := not_or.mp hopen
    refine ⟨_, exec_dramWrite hl (Bool.not_eq_true _ ▸ hs) (Bool.not_eq_false _ ▸ hd), ?_⟩
    rw [lineWriteWith_dropped (s := s.quiet) h]
    exact Frame.ofQuiet (.refl _ _)

end

/-- Settles O47: a write that passes is the parts of a line write in their order, and of each the lemmas above say what it leaves. -/
theorem lineWrites : Obligations.LineWrites := by
  unfold Obligations.LineWrites
  rintro g la off bytes b tags side flips s m u hl rfl rfl rfl
  refine ⟨fun hs hd hlost hb => ⟨fun h => ?_, fun hpart hold hr hthr => ?_⟩, ?_⟩
  · obtain ⟨t, ht, hnamed, hothers, hmark, hmet, hrow, hregs, hdram, hflash, hstores, hhost, hchains, hbufs⟩ :=
      dramWrite_plain hl hs hd hlost hb h
    refine ⟨t, ht, hnamed, hdram, fun hwb => ?_, hmet, hrow, hflash, hstores, hhost, hchains, hbufs, hregs⟩
    obtain ⟨hsame, hpoison⟩ := lineMet_quiet (off := off) hwb (bytes.take (256 - off)).length
    exact ⟨fun a ha => by rw [hothers a ha, hsame], by rw [hmark, hpoison]⟩
  · obtain ⟨t, v, ht, ⟨hnamed, hothers, hmark, hmet, -, hregs, hdram, hflash, hstores, hhost, hchains, hbufs⟩, hsame, hpoison⟩ :=
      dramWrite_mends hl hs hd hlost hb hpart hold hr hthr
    exact ⟨t, ht, hnamed, hdram, fun a ha => by rw [hothers a ha, hsame], by rw [hmark, hpoison], hmet, hflash, hstores, hhost, hchains,
      hbufs, hregs⟩
  · rintro (hs | hd | hdrop)
    · exact exec_run_shut_still rfl hl (.inl hs)
    · exact exec_run_shut_still rfl hl (.inr hd)
    · exact dramWrite_dropped hl hdrop

end Sys2Proof
end

section
/-!
PROOFS. The refresh of a group (R318 to R320): a store that holds more intervals in advance than their four bits.
-/

namespace Sys2Proof

open Machine

/-- A module in the SUMMER whose die 0 has trained, past its first refresh interval; of group 0 the store holds 17 intervals in four bits as
refreshed in advance. -/
def advanceWide : State :=
  { holding (State.reset.put (.dmc .STATUS_READY) 1) ⟨.dmc .xADV, 0, 0, 0⟩ 17 (by decide) with osc := 10000 }

/-- The interval that is due there meets all that the statement asks. -/
theorem advanceWide_due : advanceWide.live = true ∧ (advanceWide.atNow ⟨0, 0⟩).grpServes 0 = true ∧
    (advanceWide.atNow ⟨0, 0⟩).intervalDue 0 = true ∧ (advanceWide.atNow ⟨0, 0⟩).get (.dmc .xADV) (0 : Group) = 17 := by decide +kernel

/-- It leaves none in advance, as four bits hold 16. -/
theorem advanceWide_left : (leaves (.refreshInterval 0 true ⟨0, 0⟩) advanceWide).get (.dmc .xADV) (0 : Group) = 0 := by decide +kernel

/-- Refutes O49: the statement takes every register store, and where the store holds 17 intervals as refreshed in advance, one that comes
due leaves none of them, where the statement asks for 16. -/
theorem not_scrubAndRefresh : ¬ Obligations.ScrubAndRefresh := by
  unfold Obligations.ScrubAndRefresh ScrubbedAndRefreshed
  rintro ⟨h, -, -⟩
  obtain ⟨hl, hserves, hdue, hadv⟩ := advanceWide_due
  obtain ⟨-, -, hrefresh, -⟩ := h 0 ⟨0, 0⟩ advanceWide _ hl rfl
  obtain ⟨-, hdueTakes, -⟩ := hrefresh hserves
  obtain ⟨t, ht, -, -, -, htaken, -⟩ := hdueTakes hdue true
  obtain ⟨hleft, -⟩ := htaken (by rw [hadv]; decide)
  rw [hadv] at hleft
  have hcut : t.get (.dmc .xADV) (0 : Group) = 0 := by
    rw [← leaves_of_next ht]
    exact advanceWide_left
  exact absurd (hcut.symm.trans hleft) (by decide)

end Sys2Proof
end

section
/-!
PROOFS. A line read whose check line is lost (R306): the number that it takes, and a store that holds more than sixteen bits of it.
-/

namespace Sys2Proof

open Machine

variable {g la : Nat} {s : State}

/-- A check line that is lost takes the number after the group's write counter, in its seventeen bits. -/
theorem rebuildCheck_takes (s : State) : (rebuildCheck g la s).get (.dmc .xSEQ) g la = (s.get (.dmc .xWSEQ) g + 1) % 2 ^ 17 := by
  unfold rebuildCheck
  extract_lets lost cleared
  have hlost : Frame (dmcOf [.POISON_LAST_LOG_LOST]) s lost := .when _ _ (fun _ => .put _ _ _ _ _ _ rfl)
  have hmarks : Frame (dmcOf [.xPOIS, .xSIDE]) lost ((lost.put (.dmc .xPOIS) 0 g la).put (.dmc .xSIDE) 0 g la) :=
    (Frame.put _ _ _ _ _ _ rfl).trans (.put _ _ _ _ _ _ rfl)
  have hcounts : Frame (dmcOf [.CNT]) cleared ((cleared.bump (.dmc .CNT) (g / 4)).bump (.dmc .CNT) (g / 4) 2) :=
    (Frame.bump _ _ _ _ _ _ rfl).trans (.bump _ _ _ _ _ _ rfl)
  have hraise := (raise_minor_frame 1 (by decide : faultClass 0x20 = some 1) (by decide) (g / 4) g la
    ((cleared.bump (.dmc .CNT) (g / 4)).bump (.dmc .CNT) (g / 4) 2)).regs
  have hcount : (unlogPoison g la ((lost.put (.dmc .xPOIS) 0 g la).put (.dmc .xSIDE) 0 g la)).get (.dmc .xWSEQ) g = s.get (.dmc .xWSEQ) g :=
    (hmarks.regs.get rfl).trans (hlost.regs.get rfl)
  have hseq : cleared.get (.dmc .xSEQ) g la = (s.get (.dmc .xWSEQ) g + 1) % 2 ^ 17 := by
    rw [← hcount]
    exact (State.get_put_fld _ _ _ _ _ _ _ _ _ _ (by decide)).trans (State.get_put_same _ _ _ _ _ _)
  exact (hraise.get rfl).trans ((hcounts.regs.get rfl).trans hseq)

theorem exec_dramRead {g : Group} {la : Fin 16777216} {flips : List Flip} (hl : s.live = true) (hs : s.safe = false)
    (hd : s.dieUp (g / 4) = true) : exec (.dramRead g la flips) s = .next (s.commit (lineRead g la flips s.quiet)) :=
  exec_run_open rfl hl hs hd

/-- A module whose die 0 serves and whose line 0 of group 0 has been written; the group's write counter holds 2^17 in sixteen bits. -/
def counterWide : State :=
  holding ((State.reset.put (.mid .STATUS_DIE_UP) 1).put (.dmc .xINIT) 1) ⟨.dmc .xWSEQ, 0, 0, 0⟩ (2 ^ 17) (by decide)

/-- The check device returns a bit of each slice's CRC flipped. -/
def crcFlips : List Flip := [⟨5, 0, 1⟩, ⟨5, 4, 1⟩, ⟨5, 8, 1⟩, ⟨5, 12, 1⟩]

/-- The read of the line that so returns meets all that the statement asks of one whose check line is lost. -/
theorem counterWide_rebuilds : counterWide.live = true ∧ counterWide.safe = false ∧ counterWide.dieUp 0 = true ∧
    counterWide.grpLost 0 = false ∧ counterWide.flag (.dmc .xINIT) 0 0 = true ∧
    (∀ k < 6, counterWide.get (.dmc .DEV_ERR_PASS_ERR) 0 k + 1 < counterWide.eraseThr 0) ∧
    counterWide.readFate 0 0 crcFlips = .rebuilt ∧ counterWide.get (.dmc .xWSEQ) (0 : Group) = 2 ^ 17 := by decide +kernel

/-- So does the state in which it is read, with the line kept as it stood. -/
theorem counterWide_noted : (noteWriteBack 0 0 counterWide.quiet).readsClean 0 0 crcFlips = false ∧
    BelowThr 0 (noteWriteBack 0 0 counterWide.quiet) ∧ (noteWriteBack 0 0 counterWide.quiet).readFate 0 0 crcFlips = .rebuilt ∧
    (noteWriteBack 0 0 counterWide.quiet).get (.dmc .xWSEQ) 0 = 2 ^ 17 := by
  unfold BelowThr
  decide +kernel

/-- The line takes SEQ 0. -/
theorem counterWide_takes (hg : g = 0) (hla : la = 0) : (counterWide.commit (lineRead g la crcFlips counterWide.quiet)).lineSeq g la = 0 := by
  subst hg hla
  obtain ⟨hr, hthr, hfate, hseq⟩ := counterWide_noted
  have hread : lineRead 0 0 crcFlips counterWide.quiet = lineCheck 0 0 crcFlips (noteWriteBack 0 0 counterWide.quiet) :=
    if_neg (by decide +kernel)
  have hmends := lineCheck_mends hr hthr
  rw [hfate] at hmends
  have htakes : (counterWide.commit (lineRead 0 0 crcFlips counterWide.quiet)).get (.dmc .xSEQ) 0 0 = 1 := by
    rw [State.get_commit, hread, hmends.regs.get rfl, readAct, rebuildCheck_takes, (writeBack_onLine (B := fun _ => false) 15 _).regs.get rfl, hseq]
    rfl
  rw [State.lineSeq, htakes]

/-- Refutes O48: the statement takes every register store, and where the store holds 2^17 as a group's write counter, a check line that is
rebuilt takes SEQ 0, which is not the number held. -/
theorem not_lineReads : ¬ Obligations.LineReads := by
  unfold Obligations.LineReads
  rintro ⟨h, -⟩
  obtain ⟨hl, hs, hd, hg, hi, hthr, hfate, hseq⟩ := counterWide_rebuilds
  obtain ⟨-, hserved⟩ := h 0 0 crcFlips counterWide hl
  obtain ⟨-, -, hrebuilds⟩ := hserved hs hd hg hi hthr
  obtain ⟨t, ht, -, -, htakes, -⟩ := hrebuilds hfate
  obtain rfl := Host.Outcome.next.inj (ht.symm.trans (exec_dramRead (g := 0) hl hs hd))
  rw [hseq] at htakes
  exact absurd ((counterWide_takes rfl rfl).symm.trans htakes) (by decide)

end Sys2Proof
end

section
/-!
PROOFS. A FILL of a part of a line that a retraining device has missed (R305 to R307, R310, R343): the read that the write needs
poisons two slices and writes them back as read.
-/

namespace Sys2Proof

open Machine

variable {d q : Nat} {s u : State}

-- What a FILL does to the payload

/-- A descriptor that starts with no host read that fails does its work. -/
theorem dmaStart_runs {d : Die} {q : Queue} {env : DmaEnv} {x : Desc} {ops : Nat → Bool} (h : DescStarts d q env x u)
    (hops : ops x.op = true) (hrecv : x.op ≠ opRECV) (hhost : env.hostErr = false) :
    dmaStart d q ops env u = runOp d q env.ep x (startDesc d q x (u.put (.dma .xLAST_Q) q d)) := by
  obtain ⟨hturn, hfetched, hx, hrefusal, hfree, -⟩ := h
  rw [qTurn, Bool.and_eq_true] at hturn
  obtain ⟨hready, hgranted⟩ := hturn
  rw [fetched, Bool.and_eq_true, Bool.not_eq_true'] at hfetched
  obtain ⟨hok, hpoison⟩ := hfetched
  unfold dmaStart
  rw [if_neg (by simp [hready, hgranted]), if_neg (by simp [hok, hpoison])]
  dsimp only
  rw [hx, if_neg (by simp [hops, hrecv]), hrefusal]
  dsimp only
  rw [if_neg (by simp [hfree]), hhost, Bool.false_and]
  exact if_neg Bool.false_ne_true

theorem runOp_fill {ep : List Nat} {x : Desc} (h : x.op = opFILL) : runOp d q ep x s = runWrites d q ep x s := by
  unfold runOp
  rw [h]
  rfl

/-- A memory operation that feeds no unit leaves the payload as its pieces do. -/
theorem runWrites_dram {ep : List Nat} {x : Desc} (h : x.chkEn = false) :
    (runWrites d q ep x s).dram = (forEach (s.pieces ep (s.qHost d q) x) (fun p s => writeSpan d q (p.1, p.2.1) p.2.2 s) s).dram := by
  unfold runWrites
  extract_lets l fed
  have hfed : fed = writePieces d q l s := if_pos (by simp [h])
  have hwrites : (writePieces d q l s).dram = (forEach l (fun p s => writeSpan d q (p.1, p.2.1) p.2.2 s) s).dram := by
    unfold writePieces
    extract_lets written
    split <;> rfl
  rw [← hwrites, ← hfed]
  split <;> rfl

/-- A write of a destination is noted, for the read-back that may fail. -/
def spanNoted (d q a : Nat) (l : List TByte) (s : State) : State :=
  { s with undo := s.undo ++ [⟨d, q, 0, a, (s.readSpan [] ⟨0, a, l.length⟩).map (·.1)⟩] }

theorem dramWrite_nil {g n o : Nat} {tag : Nat → Bool} : dramWrite g n o [] tag s = s := by cases n <;> rfl

/-- A write within one line is one write of the line, and so is one of a destination there. -/
theorem dramWrite_line {g n o : Nat} {l : List Byte} {tag : Nat → Bool} (hl : l ≠ []) (ho : o % 256 + l.length ≤ 256) :
    ∃ tags, dramWrite g (n + 1) o l tag s = lineWrite g (o / 256) (o % 256) l tags none s := by
  refine ⟨(List.range 4).foldl (fun a k => if tag (4 * (o / 256) + k) then a + 2 ^ k else a) 0, ?_⟩
  have htake : min (256 - o % 256) l.length = l.length := Nat.min_eq_right (by omega)
  rw [dramWrite]
  · rw [htake, List.drop_length, dramWrite_nil, List.take_length]
  · exact hl

theorem writeSpan_line {a : Nat} {l : List TByte} (hl : l ≠ []) (ho : a % 2 ^ 32 % 256 + l.length ≤ 256) :
    ∃ tags, writeSpan d q (0, a) l s =
      lineWrite (a / 2 ^ 32) (a % 2 ^ 32 / 256) (a % 2 ^ 32 % 256) (l.map (·.1)) tags none (spanNoted d q a l s) :=
  dramWrite_line (by simpa using hl) (by simpa using ho)

/-- A FILL of one piece leaves the payload as the write of that piece does. -/
theorem dmaFill_dram {d : Die} {q : Queue} {env : DmaEnv} {x : Desc} {now : Now} {a : Nat} {l : List TByte} (hl : s.live = true)
    (hstarts : DescStarts d q env x (s.atNow now)) (hop : x.op = opFILL) (hchk : x.chkEn = false) (hhost : env.hostErr = false)
    (hu : u = startDesc d q x ((s.atNow now).put (.dma .xLAST_Q) q d)) (hpieces : u.pieces env.ep (u.qHost d q) x = [(0, a, l)]) :
    ∃ t, exec (.dmaFill d q env now) s = .next t ∧ t.dram = (writeSpan d q (0, a) l u).dram := by
  have hops : (x.op == 6) = true := by rw [hop]; rfl
  have hrecv : x.op ≠ opRECV := by rw [hop]; decide
  refine ⟨_, State.runAt_live s _ _ hl, ?_⟩
  rw [State.commit_dram, dmaStart_runs hstarts hops hrecv hhost, ← hu, runOp_fill hop, runWrites_dram hchk, hpieces]
  rfl

-- A line that a retraining device has missed

/-- The descriptor of a FILL of four bytes at the start of line 1 of group 0. -/
def fillDesc : List Byte := leBytes 8 (6 + 2 ^ 11 + 4 * 2 ^ 32) ++ leBytes 8 0 ++ leBytes 8 256

/-- A module whose die 0 is up, with a queue of its Ostler whose ring stands in line 0 of group 0, and a descriptor posted. The check
device of the group has failed, and device 1 missed the last write of line 1 while it retrained: it holds zeros but for its last bit. -/
def missedLine : State :=
  { ((((((((State.reset.put (.mid .STATUS_DIE_UP) 1).put (.dma .Q_CFG_EN) 1).put (.dma .Q_CFG_OWNER) 2).put (.dma .Q_TAIL_TAIL) 1).put
      (.dmc .GRP_STATUS_MODE) 1).put (.dmc .GRP_STATUS_ERASED_DEV) 5).put (.dmc .xINIT) 1).put (.dmc .xSTALE) 2 0 1 1) with
    dram := (Mem.empty 0).write 0 fillDesc }

/-- What PCI Express answers where nothing fails. -/
def cleanEnv : DmaEnv := ⟨false, [], true⟩

/-- The descriptor, and the four bytes that it writes. -/
def fillWork : Desc := descOf (fillDesc ++ leBytes 40 0)
def fillBytes : List TByte := List.replicate 4 (0, false)

/-- The state in which the descriptor writes. -/
def fillBegun : State := startDesc (0 : Die) (0 : Queue) fillWork ((missedLine.atNow ⟨0, 0⟩).put (.dma .xLAST_Q) (0 : Queue) (0 : Die))

/-- The descriptor meets all that the statement asks of one that starts. -/
theorem missedLine_starts : missedLine.live = true ∧ DescStarts 0 0 cleanEnv fillWork (missedLine.atNow ⟨0, 0⟩) := by
  unfold DescStarts
  decide +kernel

/-- Its one piece is those bytes, as it starts and as it writes. -/
theorem missedLine_pieces : ∀ u ∈ [missedLine.atNow ⟨0, 0⟩, fillBegun],
    u.pieces cleanEnv.ep (u.qHost (0 : Die) (0 : Queue)) fillWork = [(0, 256, fillBytes)] := by decide +kernel

/-- The state in which its write has met the line. -/
def fillMet : State := lineMet 0 1 0 4 (spanNoted (0 : Die) (0 : Queue) 256 fillBytes fillBegun)

/-- The write finds all slices of the line poisoned, below the threshold of R309, and what it writes back ends in a byte of 1. -/
theorem fillMet_finds : fillMet.readsClean 0 1 [] = false ∧ BelowThr 0 fillMet ∧ fillMet.readFate 0 1 [] = .poisoned 15 ∧
    (backDram 0 1 15 [] fillMet).get 383 = 1 := by
  unfold BelowThr
  decide +kernel

/-- A read that poisons slices leaves the payload with those slices written back. -/
theorem poisoned_dram {g la : Nat} {flips : List Flip} (m : Nat) (s : State) :
    (readAct g la flips (.poisoned m) s).dram = backDram g la m flips s := by
  obtain ⟨hdram, -, -⟩ := poisonLine_leaves (g := g) (la := la) m (writeBack g la m flips s)
  rw [readAct, hdram, writeBack_eq]

/-- So the write leaves a byte of 1 that it does not name. -/
theorem fill_leaves (tags : Nat) :
    (lineWrite 0 1 0 (fillBytes.map (·.1)) tags none (spanNoted (0 : Die) (0 : Queue) 256 fillBytes fillBegun)).dram.get 383 = 1 := by
  obtain ⟨hr, hthr, hfate, hback⟩ := fillMet_finds
  have hmended := lineCheck_mends hr hthr
  rw [hfate] at hmended
  have hview : SameView 0 1 _ _ := hmended.sameView rfl
  have hwrote : LineWrote 0 1 0 (fillBytes.map (·.1)) tags (fun _ => true) (spanNoted (0 : Die) (0 : Queue) 256 fillBytes fillBegun)
      (lineCheck 0 1 [] fillMet) _ :=
    lineWriteWith_wrote (side := none) (by decide +kernel) (by decide) (by decide) (lineFound_check (by decide) (by decide +kernel))
      (lineCheck_onLine hr hthr) ⟨rfl, rfl⟩ (fun _ _ => rfl) (fun _ _ => rfl)
  have hbeyond := hwrote.others 383 (.inr (by decide))
  rw [hview.dram, poisoned_dram] at hbeyond
  exact hbeyond.trans hback

/-- Refutes O59: the statement takes a FILL of four bytes of a line of which one device has missed the last write, where the check device
has failed; its write reads the line, finds it poisoned and writes back what it read, and a byte beyond the destination changes. -/
theorem not_descWrites : ¬ Obligations.DescWrites := by
  unfold Obligations.DescWrites
  intro h
  obtain ⟨hl, hstarts⟩ := missedLine_starts
  have hpieces := missedLine_pieces _ (List.mem_cons_self ..)
  obtain ⟨hmem, -⟩ := h 0 0 cleanEnv fillWork ⟨0, 0⟩ missedLine _ hl rfl hstarts
  obtain ⟨t, ht, -, ⟨helse, -⟩, -⟩ := hmem (opFILL, .dmaFill 0 0 cleanEnv ⟨0, 0⟩) (by simp [dmaMemOps]) (by decide) (by decide)
    (by decide +kernel) _ hpieces.symm
  obtain ⟨v, hv, hdram⟩ := dmaFill_dram (now := ⟨0, 0⟩) hl hstarts (by decide +kernel) (by decide +kernel) rfl rfl
    (missedLine_pieces fillBegun (by simp))
  obtain rfl := Host.Outcome.next.inj (ht.symm.trans hv)
  obtain ⟨tags, hline⟩ := writeSpan_line (d := (0 : Die)) (q := (0 : Queue)) (s := fillBegun) (a := 256) (l := fillBytes)
    (by decide) (by decide)
  have hkept : t.dram.get 383 = (missedLine.atNow ⟨0, 0⟩).dram.get 383 := helse 383 (by decide +kernel)
  have hleft : t.dram.get 383 = 1 := by
    rw [hdram]
    exact (congrArg (fun w : State => w.dram.get 383) hline).trans (fill_leaves tags)
  exact absurd (hleft.symm.trans hkept) (by decide +kernel)

end Sys2Proof
end

section
/-!
PROOFS. Bytes and numbers: the pieces of a list of bytes, the number that bytes spell, and the bound of a CRC.
-/

namespace Sys2Proof

open Machine

-- Pieces of a list

theorem slice_append_left {a b : List Byte} {off n : Nat} (h : off + n ≤ a.length) : slice (a ++ b) off n = slice a off n := by
  rw [slice, slice, List.drop_append_of_le_length (by omega), List.take_append_of_le_length (by rw [List.length_drop]; omega)]

theorem slice_append_right {a b : List Byte} {off n : Nat} (h : a.length ≤ off) : slice (a ++ b) off n = slice b (off - a.length) n := by
  rw [slice, slice, List.drop_append, List.drop_eq_nil_of_le h, List.nil_append]

theorem slice_all {a : List Byte} {n : Nat} (h : a.length = n) : slice a 0 n = a := by
  rw [slice, List.drop_zero, ← h, List.take_length]

theorem slice_slice {l : List Byte} {off n i k : Nat} (h : i + k ≤ n) : slice (slice l off n) i k = slice l (off + i) k := by
  rw [slice, slice, slice, List.drop_take, List.drop_drop, List.take_take, Nat.min_eq_left (by omega)]

-- The number that bytes spell

theorem beNat_foldl (l : List Byte) (a : Nat) : l.foldl (fun a b => a * 256 + b.toNat) a = a * 256 ^ l.length + beNat l := by
  induction l generalizing a with
  | nil => simp [beNat]
  | cons b l ih =>
    have hcons : beNat (b :: l) = l.foldl (fun a b => a * 256 + b.toNat) (0 * 256 + b.toNat) := rfl
    rw [List.foldl_cons, hcons, ih, ih (0 * 256 + b.toNat), List.length_cons]
    ring

theorem beNat_cons (b : Byte) (l : List Byte) : beNat (b :: l) = b.toNat * 256 ^ l.length + beNat l := by
  rw [beNat, List.foldl_cons, beNat_foldl, Nat.zero_mul, Nat.zero_add]

/-- The bytes of a number spell it, as far as they go. -/
theorem beNat_beBytes (n v : Nat) : beNat (beBytes n v) = v % 256 ^ n := by
  induction n with
  | zero => exact (Nat.mod_one v).symm
  | succ n ih =>
    have hbyte : (BitVec.ofNat 8 (v / 256 ^ n)).toNat = v / 256 ^ n % 256 := BitVec.toNat_ofNat ..
    rw [beBytes, beNat_cons, beBytes_length, ih, hbyte, Nat.pow_succ, Nat.mod_mul (x := v)]
    ring

theorem beNat_lt (l : List Byte) : beNat l < 256 ^ l.length := by
  induction l with
  | nil => exact Nat.one_pos
  | cons b l ih =>
    have hb : b.toNat < 256 := b.isLt
    rw [beNat_cons, List.length_cons, Nat.pow_succ]
    nlinarith

theorem byteAt_eq_beAt (l : List Byte) (off : Nat) : byteAt l off = beAt l off 1 := by
  unfold byteAt beAt slice
  cases l.drop off with
  | nil => rfl
  | cons b t => simp [beNat]

-- A CRC

theorem crcStepR_lt {poly v w : Nat} (hp : poly < 2 ^ w) (hv : v < 2 ^ w) : crcStepR poly v < 2 ^ w := by
  unfold crcStepR
  split
  · exact Nat.xor_lt_two_pow (by omega) hp
  · omega

theorem crcShiftR_lt {poly w : Nat} (hp : poly < 2 ^ w) (n : Nat) {v : Nat} (hv : v < 2 ^ w) : crcShiftR poly n v < 2 ^ w := by
  induction n generalizing v with
  | zero => exact hv
  | succ n ih => exact ih (crcStepR_lt hp hv)

theorem crcR_lt {poly w : Nat} (hp : poly < 2 ^ w) (hw : 8 ≤ w) (l : List Byte) {v : Nat} (hv : v < 2 ^ w) : crcR poly v l < 2 ^ w := by
  induction l generalizing v with
  | nil => exact hv
  | cons b l ih =>
    have hb : b.toNat < 2 ^ w := b.isLt.trans_le (Nat.pow_le_pow_right (by decide) hw)
    exact ih (crcShiftR_lt hp 8 (Nat.xor_lt_two_pow hv hb))

theorem crc32c_lt (l : List Byte) : crc32c l < 256 ^ 4 :=
  Nat.xor_lt_two_pow (n := 32) (crcR_lt (by decide) (by decide) l (by decide)) (by decide)

end Sys2Proof
end

section
/-!
PROOFS. The boot area (R329, R330, R420, R421, R444): where its fields stand, what a whole write leaves of them, and the repair map.
-/

namespace Sys2Proof

open Machine

variable {s t : State} {c n : Nat}

-- Where the fields stand

theorem slice_flashAt {a N off n : Nat} (h : off + n ≤ N) : slice (s.flashAt a N) off n = s.flashAt (a + off) n := by
  apply List.ext_getElem
  · simp [slice, State.flashAt, Mem.read]
    omega
  · intro i hi hj
    simp [slice, State.flashAt, Mem.read, Nat.add_assoc]

theorem beAt_flashAt {a N off n : Nat} (h : off + n ≤ N) : beAt (s.flashAt a N) off n = beNat (s.flashAt (a + off) n) := by
  rw [beAt, slice_flashAt h]

theorem byteAt_flashAt {a N off : Nat} (h : off + 1 ≤ N) : byteAt (s.flashAt a N) off = beNat (s.flashAt (a + off) 1) := by
  rw [byteAt_eq_beAt, beAt_flashAt h]

theorem take_flashAt {a N n : Nat} (h : n ≤ N) : (s.flashAt a N).take n = s.flashAt a n := slice_flashAt (off := 0) (by omega)

/-- A copy whose fields are as R421 has them is valid. -/
theorem bootValid_of (hdir : beNat (s.flashAt (bootBase c) 4) = 0x45544452) (hver : beNat (s.flashAt (bootBase c + 4) 2) = 1)
    (hcrc : beNat (s.flashAt (bootBase c + 4092) 4) = crc32c (s.flashAt (bootBase c) 4092))
    (hmap : beNat (s.flashAt (bootBase c + 4096) 4) = 0x4554524D) (hn : beNat (s.flashAt (bootBase c + 4100) 2) = n) (hlen : n ≤ 4094)
    (hmcrc : beNat (s.flashAt (bootBase c + 4104) 4) =
      crc32c (s.flashAt (bootBase c + 4096) 8 ++ s.flashAt (bootBase c + 4112) (8 * n))) : s.bootValid c = true := by
  unfold State.bootValid
  dsimp only
  rw [beAt_flashAt (by decide), beAt_flashAt (by decide), beAt_flashAt (by decide), beAt_flashAt (by decide), beAt_flashAt (by decide),
    beAt_flashAt (by decide), take_flashAt (by decide), take_flashAt (by decide), Nat.add_assoc, Nat.add_assoc, hn,
    slice_flashAt (by omega)]
  simp only [Nat.add_assoc] at *
  simp [hdir, hver, hcrc, hmap, hlen, hmcrc]

theorem dir_valid (h : s.bootValid (s.get (.mid .BOOT_BOOT_COPY)) = true) (hc : s.get (.mid .BOOT_BOOT_COPY) = c) :
    s.dir = ⟨beNat (s.flashAt (bootBase c + 8) 4), beNat (s.flashAt (bootBase c + 12) 1), beNat (s.flashAt (bootBase c + 13) 1),
      beNat (s.flashAt (bootBase c + 14) 1)⟩ := by
  unfold State.dir
  dsimp only
  rw [if_pos h, hc, beAt_flashAt (by decide), byteAt_flashAt (by decide), byteAt_flashAt (by decide), byteAt_flashAt (by decide)]

theorem repairMap_valid (h : s.bootValid (s.get (.mid .BOOT_BOOT_COPY)) = true) (hc : s.get (.mid .BOOT_BOOT_COPY) = c) :
    s.repairMap.length = beNat (s.flashAt (bootBase c + 4100) 2) := by
  unfold State.repairMap
  dsimp only
  rw [if_pos h, List.length_map, List.length_range, hc, beAt_flashAt (by decide)]

/-- The directory and the map rest on the flash and on the copy in use. -/
theorem dir_congr (hf : t.flash = s.flash) (hc : t.get (.mid .BOOT_BOOT_COPY) = s.get (.mid .BOOT_BOOT_COPY)) :
    t.dir = s.dir ∧ t.repairMap = s.repairMap := by
  unfold State.dir State.repairMap State.bootValid State.flashAt
  rw [hf, hc]
  exact ⟨rfl, rfl⟩

/-- A copy holds at most 4,094 entries. -/
theorem repairMap_fits (s : State) : s.repairMap.length ≤ 4094 := by
  by_cases h : s.bootValid (s.get (.mid .BOOT_BOOT_COPY)) = true
  · rw [repairMap_valid h rfl]
    unfold State.bootValid at h
    simp only [Bool.and_eq_true, decide_eq_true_eq] at h
    obtain ⟨⟨-, hn⟩, -⟩ := h
    rwa [beAt_flashAt (by decide)] at hn
  · unfold State.repairMap
    dsimp only
    rw [if_neg h]
    decide

theorem dir_pref_lt (s : State) : s.dir.pref < 256 := by
  unfold State.dir
  dsimp only
  split
  · rw [byteAt_flashAt (by decide)]
    exact (beNat_lt _).trans_eq (by simp [State.flashAt, Mem.read])
  · decide

-- What is written

/-- The first 4,092 bytes of a copy: its directory. -/
def bootHead (seq : Nat) (d : Dir) : List Byte :=
  beBytes 4 0x45544452 ++ beBytes 2 1 ++ [0, 0] ++ beBytes 4 ((seq + 1) % 2 ^ 32) ++ beBytes 1 d.pref ++
    beBytes 1 (d.slot 0) ++ beBytes 1 (d.slot 1) ++ List.replicate 4077 0

/-- The head of the map of a copy. -/
def mapHead (map : List RepairEntry) (f : Nat) : List Byte := beBytes 4 0x4554524D ++ beBytes 2 map.length ++ beBytes 2 f

/-- A copy. -/
def bootBytes (seq f1 f2 : Nat) (d : Dir) (map : List RepairEntry) : List Byte :=
  bootHead seq d ++ beBytes 4 (crc32c (bootHead seq d)) ++ mapHead map f1 ++
    beBytes 4 (crc32c (mapHead map f1 ++ map.flatMap repairBytes)) ++ beBytes 4 f2 ++ map.flatMap repairBytes

/-- The copy that a write takes. -/
def bootTarget (s : State) : Nat :=
  if s.bootValid (s.get (.mid .BOOT_BOOT_COPY)) then 1 - s.get (.mid .BOOT_BOOT_COPY) else s.get (.mid .BOOT_BOOT_COPY)

/-- The flash as a write of a copy leaves it. -/
def bootFlash (c : Nat) (whole : List Byte) (m : Mem 255) : Mem 255 :=
  (m.keep (fun x => !(decide (bootBase c ≤ x) && decide (x < bootBase c + 0x10000)))).write (bootBase c) whole

/-- A write of a copy, before it is in use. -/
def bootStored (d : Dir) (map : List RepairEntry) (s : State) : State :=
  { s.free.2.free.2 with flash := bootFlash (bootTarget s) (bootBytes s.dir.seq s.free.1 s.free.2.free.1 d map) s.flash }

theorem bootStored_flash (d : Dir) (map : List RepairEntry) (s : State) : (bootStored d map s).flash =
    bootFlash (bootTarget s) (bootBytes s.dir.seq s.free.1 s.free.2.free.1 d map) s.flash := by
  simp only [bootStored]

theorem bootWrite_eq (d : Dir) (map : List RepairEntry) (s : State) :
    bootWrite d map s = slotsShow ((bootStored d map s).put (.mid .BOOT_BOOT_COPY) (bootTarget s)) := rfl

-- What stands in a copy

theorem repairBytes_length (e : RepairEntry) : (repairBytes e).length = 8 := by simp [repairBytes]

theorem entries_length (map : List RepairEntry) : (map.flatMap repairBytes).length = 8 * map.length := by
  induction map with
  | nil => rfl
  | cons e l ih =>
    rw [List.flatMap_cons, List.length_append, repairBytes_length, ih, List.length_cons]
    omega

theorem bootHead_length (seq : Nat) (d : Dir) : (bootHead seq d).length = 4092 := by
  simp only [bootHead, List.length_append, beBytes_length, List.length_replicate, List.length_cons, List.length_nil]

theorem mapHead_length (map : List RepairEntry) (f : Nat) : (mapHead map f).length = 8 := by simp [mapHead]

section
variable {seq f1 f2 : Nat} {d : Dir} {map : List RepairEntry}

theorem bootBytes_length : (bootBytes seq f1 f2 d map).length = 4112 + 8 * map.length := by
  simp only [bootBytes, List.length_append, bootHead_length, mapHead_length, entries_length, beBytes_length]

/-- The parts of a copy. -/
theorem bootBytes_parts : slice (bootBytes seq f1 f2 d map) 0 4092 = bootHead seq d ∧
    slice (bootBytes seq f1 f2 d map) 4092 4 = beBytes 4 (crc32c (bootHead seq d)) ∧
    slice (bootBytes seq f1 f2 d map) 4096 8 = mapHead map f1 ∧
    slice (bootBytes seq f1 f2 d map) 4104 4 = beBytes 4 (crc32c (mapHead map f1 ++ map.flatMap repairBytes)) ∧
    slice (bootBytes seq f1 f2 d map) 4112 (8 * map.length) = map.flatMap repairBytes := by
  have hentries := slice_all (entries_length map)
  refine ⟨?_, ?_, ?_, ?_, ?_⟩ <;>
    simp [bootBytes, slice_append_left, slice_append_right, slice_all, bootHead_length, mapHead_length, hentries]

/-- The fields of a directory. -/
theorem bootHead_fields : slice (bootHead seq d) 0 4 = beBytes 4 0x45544452 ∧ slice (bootHead seq d) 4 2 = beBytes 2 1 ∧
    slice (bootHead seq d) 12 1 = beBytes 1 d.pref ∧ slice (bootHead seq d) 13 1 = beBytes 1 (d.slot 0) ∧
    slice (bootHead seq d) 14 1 = beBytes 1 (d.slot 1) := by
  unfold bootHead
  generalize List.replicate 4077 (0 : Byte) = pad
  refine ⟨?_, ?_, ?_, ?_, ?_⟩ <;>
    simp (disch := simp) only [slice_append_left, slice_append_right, slice_all, List.length_append, beBytes_length,
      List.length_cons, List.length_nil, Nat.reduceAdd, Nat.reduceSub]

/-- The fields of a map's head. -/
theorem mapHead_fields : slice (mapHead map f1) 0 4 = beBytes 4 0x4554524D ∧ slice (mapHead map f1) 4 2 = beBytes 2 map.length := by
  refine ⟨?_, ?_⟩ <;> simp [mapHead, slice_append_left, slice_append_right, slice_all]

end

/-- A copy of the flash holds these bytes. -/
def CopyHolds (c : Nat) (whole : List Byte) (t : State) : Prop :=
  ∀ off n, off + n ≤ whole.length → t.flashAt (bootBase c + off) n = slice whole off n

theorem CopyHolds.part {whole part field : List Byte} {off n i k : Nat} (h : CopyHolds c whole t) (hpart : slice whole off n = part)
    (hfield : slice part i k = field) (hoff : off + n ≤ whole.length) (hi : i + k ≤ n) :
    t.flashAt (bootBase c + (off + i)) k = field := by
  rw [h _ _ (by omega), ← hfield, ← hpart, slice_slice hi]

section
variable {seq f1 f2 : Nat} {d : Dir} {map : List RepairEntry} (h : CopyHolds c (bootBytes seq f1 f2 d map) t)
include h

/-- The fields of the directory of a copy just written. -/
theorem CopyHolds.dirFields : t.flashAt (bootBase c) 4092 = bootHead seq d ∧
    t.flashAt (bootBase c + 4092) 4 = beBytes 4 (crc32c (bootHead seq d)) ∧
    t.flashAt (bootBase c) 4 = beBytes 4 0x45544452 ∧ t.flashAt (bootBase c + 4) 2 = beBytes 2 1 ∧
    t.flashAt (bootBase c + 12) 1 = beBytes 1 d.pref ∧ t.flashAt (bootBase c + 13) 1 = beBytes 1 (d.slot 0) ∧
    t.flashAt (bootBase c + 14) 1 = beBytes 1 (d.slot 1) := by
  obtain ⟨hhead, hcrc, -⟩ := bootBytes_parts (seq := seq) (f1 := f1) (f2 := f2) (d := d) (map := map)
  obtain ⟨hmagic, hver, hpref, hslotA, hslotB⟩ := bootHead_fields (seq := seq) (d := d)
  have hsize := bootBytes_length (seq := seq) (f1 := f1) (f2 := f2) (d := d) (map := map)
  have hfield {field : List Byte} {i k : Nat} (hf : slice (bootHead seq d) i k = field) (hi : i + k ≤ 4092) :
      t.flashAt (bootBase c + i) k = field := by
    rw [← h.part hhead hf (by omega) hi, Nat.zero_add]
  have hfirst {field : List Byte} {k : Nat} (hf : slice (bootHead seq d) 0 k = field) (hk : k ≤ 4092) : t.flashAt (bootBase c) k = field := by
    rw [← hfield hf (by omega), Nat.add_zero]
  exact ⟨hfirst (slice_all (bootHead_length _ _)) (by decide), (h 4092 4 (by omega)).trans hcrc, hfirst hmagic (by decide), hfield hver (by decide),
    hfield hpref (by decide), hfield hslotA (by decide), hfield hslotB (by decide)⟩

/-- The fields of its map. -/
theorem CopyHolds.mapFields : t.flashAt (bootBase c + 4096) 8 = mapHead map f1 ∧
    t.flashAt (bootBase c + 4104) 4 = beBytes 4 (crc32c (mapHead map f1 ++ map.flatMap repairBytes)) ∧
    t.flashAt (bootBase c + 4112) (8 * map.length) = map.flatMap repairBytes ∧
    t.flashAt (bootBase c + 4096) 4 = beBytes 4 0x4554524D ∧ t.flashAt (bootBase c + 4100) 2 = beBytes 2 map.length := by
  obtain ⟨-, -, hmhead, hmcrc, hentries⟩ := bootBytes_parts (seq := seq) (f1 := f1) (f2 := f2) (d := d) (map := map)
  obtain ⟨hmagic, hcount⟩ := mapHead_fields (map := map) (f1 := f1)
  have hsize := bootBytes_length (seq := seq) (f1 := f1) (f2 := f2) (d := d) (map := map)
  exact ⟨(h 4096 8 (by omega)).trans hmhead, (h 4104 4 (by omega)).trans hmcrc, (h 4112 _ (by omega)).trans hentries,
    h.part hmhead hmagic (by omega) (by decide), h.part hmhead hcount (by omega) (by decide)⟩

/-- A copy just written is valid. -/
theorem CopyHolds.valid (hlen : map.length ≤ 4094) : t.bootValid c = true := by
  obtain ⟨hhead, hcrc, hmagic, hver, -⟩ := h.dirFields
  obtain ⟨hmhead, hmcrc, hentries, hmmagic, hcount⟩ := h.mapFields
  have hspells {a n v : Nat} (hl : t.flashAt a n = beBytes n v) (hv : v < 256 ^ n) : beNat (t.flashAt a n) = v := by
    rw [hl, beNat_beBytes, Nat.mod_eq_of_lt hv]
  refine bootValid_of (hspells hmagic (by decide)) (hspells hver (by decide)) ?_ (hspells hmmagic (by decide)) (hspells hcount (by omega))
    hlen ?_
  · rw [hhead]
    exact hspells hcrc (crc32c_lt _)
  · rw [hmhead, hentries]
    exact hspells hmcrc (crc32c_lt _)

/-- Its directory reads as written, and so does its map's length. -/
theorem CopyHolds.reads (hlen : map.length ≤ 4094) (hc : t.get (.mid .BOOT_BOOT_COPY) = c) : t.dir.slot 0 = slotTaken (d.slot 0 % 256) ∧
    t.dir.slot 1 = slotTaken (d.slot 1 % 256) ∧ t.dir.pref = d.pref % 256 ∧ t.repairMap.length = map.length := by
  obtain ⟨-, -, -, -, hpref, hslotA, hslotB⟩ := h.dirFields
  obtain ⟨-, -, -, -, hcount⟩ := h.mapFields
  have hvalid : t.bootValid (t.get (.mid .BOOT_BOOT_COPY)) = true := by
    rw [hc]
    exact h.valid hlen
  rw [dir_valid hvalid hc, repairMap_valid hvalid hc, hpref, hslotA, hslotB, hcount, beNat_beBytes, beNat_beBytes, beNat_beBytes, beNat_beBytes]
  exact ⟨rfl, rfl, rfl, Nat.mod_eq_of_lt (by omega)⟩

end

-- A write of a copy

theorem flash_get_keep (m : Mem 255) (p : Nat → Bool) (a : Nat) : (m.keep p).get a = if p a then m.get a else 255 := by
  unfold Mem.keep Mem.get
  dsimp only
  rw [assocGet_filter]
  split <;> rfl

theorem copyHolds_write {whole : List Byte} {m : Mem 255} (h : t.flash = bootFlash c whole m) : CopyHolds c whole t := fun off n hn => by
  rw [State.flashAt, h]
  exact Mem.read_write_inside _ _ _ _ _ hn

/-- A write of a copy leaves the flash beyond the boot area. -/
theorem bootFlash_beyond {whole : List Byte} {m : Mem 255} {a : Nat} (hc : c < 2) (hw : whole.length ≤ 0x10000) (ha : 0x20000 ≤ a) :
    (bootFlash c whole m).get a = m.get a := by
  have hbase : bootBase c + 0x10000 ≤ a := by
    unfold bootBase
    omega
  rw [bootFlash, Mem.get_write_outside _ _ _ _ (by omega), flash_get_keep, if_pos (by simp; omega)]

/-- What the show of the slots may touch, and with it a write of a copy. -/
def showKeys (k : Key) : Bool := k.fld == .fwu .SLOT_STATE || k.fld == .fwu .SLOT_VER_VERSION
def bootKeys (k : Key) : Bool := k.fld == .mid .BOOT_BOOT_COPY || showKeys k

theorem slotsShow_frame (s : State) : Frame showKeys s (slotsShow s) :=
  .forEach _ _ (fun _ _ _ => (Frame.put _ _ _ _ _ _ rfl).trans (.put _ _ _ _ _ _ rfl)) s

theorem bootTarget_lt (h : s.get (.mid .BOOT_BOOT_COPY) < 2) : bootTarget s < 2 := by
  unfold bootTarget
  split <;> omega

theorem slotTaken_lt (v : Nat) : slotTaken v < 5 := by
  unfold slotTaken
  split <;> omega

theorem slotTaken_slot (d : Dir) (x : Nat) : slotTaken (d.slot x % 256) = d.slot x := by
  have h : d.slot x < 5 := slotTaken_lt _
  rw [Nat.mod_eq_of_lt (by omega), slotTaken, if_pos h]

/-- What a write of a copy leaves. -/
structure BootWrote (d : Dir) (map : List RepairEntry) (s t : State) : Prop where
  slotA  : t.dir.slot 0 = d.slot 0
  slotB  : t.dir.slot 1 = d.slot 1
  pref   : t.dir.pref = d.pref % 256
  count  : t.repairMap.length = map.length
  beyond : ∀ a, 0x20000 ≤ a → t.flash.get a = s.flash.get a
  dram   : t.dram = s.dram
  host   : t.host = s.host
  regs   : SameRegs bootKeys s t

/-- The boot area holds what is written to it (R421). -/
theorem bootWrite_wrote {d : Dir} {map : List RepairEntry} (hc : s.get (.mid .BOOT_BOOT_COPY) < 2) (hlen : map.length ≤ 4094) :
    BootWrote d map s (bootWrite d map s) := by
  have htarget := bootTarget_lt hc
  have hholds : CopyHolds (bootTarget s) _ ((bootStored d map s).put (.mid .BOOT_BOOT_COPY) (bootTarget s)) := 
    copyHolds_write ((State.put_flash ..).trans (bootStored_flash d map s))
  have hcopy : ((bootStored d map s).put (.mid .BOOT_BOOT_COPY) (bootTarget s)).get (.mid .BOOT_BOOT_COPY) = bootTarget s :=
    (State.get_put_same _ _ _ _ _ _).trans (Nat.mod_eq_of_lt htarget)
  have hput : SameRegs bootKeys s ((bootStored d map s).put (.mid .BOOT_BOOT_COPY) (bootTarget s)) :=
    (Frame.put (B := bootKeys) (bootStored d map s) (.mid .BOOT_BOOT_COPY) (bootTarget s) 0 0 0 rfl).regs
  have hshow := slotsShow_frame ((bootStored d map s).put (.mid .BOOT_BOOT_COPY) (bootTarget s))
  obtain ⟨hslotA, hslotB, hpref, hcount⟩ := hholds.reads hlen hcopy
  rw [bootWrite_eq]
  obtain ⟨hregs, ⟨hdram, hflash, -, hhost⟩, -⟩ := hshow
  obtain ⟨hdir, hmap⟩ := dir_congr hflash (hregs.get rfl)
  refine ⟨?_, ?_, ?_, ?_, fun a ha => ?_, hdram, hhost, hput.trans (hregs.mono fun k hk => by rw [bootKeys, hk, Bool.or_true])⟩
  · rw [hdir, hslotA, slotTaken_slot]
  · rw [hdir, hslotB, slotTaken_slot]
  · rw [hdir, hpref]
  · rw [hmap, hcount]
  · rw [hflash, State.put_flash, bootStored_flash]
    exact bootFlash_beyond htarget (bootBytes_length.trans_le (by omega)) ha

-- Slots

theorem Dir.setSlot_slots (d : Dir) {x st : Nat} (hx : x < 2) (hst : st < 5) :
    (d.setSlot x st).slot x = st ∧ (d.setSlot x st).slot (1 - x) = d.slot (1 - x) ∧ (d.setSlot x st).pref = d.pref := by
  interval_cases x <;> simp [Dir.setSlot, Dir.slot, slotTaken, hst]

/-- A slot state that changes stands in the boot area, beside what else stood there (R444). -/
theorem setSlot_persists {x st : Nat} (hx : x < 2) (hst : st < 5) (hc : s.get (.mid .BOOT_BOOT_COPY) < 2) :
    (setSlot x st s).dir.slot x = st ∧ (setSlot x st s).dir.slot (1 - x) = s.dir.slot (1 - x) ∧ (setSlot x st s).dir.pref = s.dir.pref ∧
    (setSlot x st s).repairMap.length = s.repairMap.length ∧ ∀ a : Nat, 0x20000 ≤ a → (setSlot x st s).flash.get a = s.flash.get a := by
  obtain ⟨hset, hother, hpref⟩ := Dir.setSlot_slots s.dir hx hst
  obtain ⟨hslotA, hslotB, hprefIs, hcount, hbeyond, -⟩ := bootWrite_wrote (d := s.dir.setSlot x st) hc (repairMap_fits s)
  have hslot : ∀ y < 2, (setSlot x st s).dir.slot y = (s.dir.setSlot x st).slot y := fun y hy => by
    interval_cases y
    · exact hslotA
    · exact hslotB
  refine ⟨(hslot x hx).trans hset, (hslot _ (by omega)).trans hother, ?_, hcount, hbeyond⟩
  exact hprefIs.trans (by rw [hpref, Nat.mod_eq_of_lt (dir_pref_lt s)])

-- The repair map

/-- What an entry that is appended may touch. -/
def appendKeys (e : RepairEntry) (k : Key) : Bool :=
  k.fld == .mid .BOOT_BOOT_COPY || k.fld == .fwu .SLOT_STATE || k.fld == .fwu .SLOT_VER_VERSION || k == ⟨.cus .UNIT_PERSISTED, e.target, 0, 0⟩

/-- A map with room takes an entry (R330). -/
theorem appendRepair_room {e : RepairEntry} (hc : s.get (.mid .BOOT_BOOT_COPY) < 2) (hroom : s.repairMap.length < 4094) :
    (appendRepair e s).repairMap.length = s.repairMap.length + 1 ∧
    (∀ a : Nat, 0x20000 ≤ a → (appendRepair e s).flash.get a = s.flash.get a) ∧
    (e.kind = 3 → (appendRepair e s).flag (.cus .UNIT_PERSISTED) e.target = true) ∧ (appendRepair e s).dram = s.dram ∧
    (appendRepair e s).host = s.host ∧ SameRegs (appendKeys e) s (appendRepair e s) := by
  have hmarked : Frame (fun k => k == ⟨.cus .UNIT_PERSISTED, e.target, 0, 0⟩) s
      (s.when (e.kind == 3) (fun s => s.put (.cus .UNIT_PERSISTED) 1 e.target)) := .when _ _ (fun _ => .put _ _ _ _ _ _ (by simp))
  have hpersisted : e.kind = 3 →
      (s.when (e.kind == 3) (fun s => s.put (.cus .UNIT_PERSISTED) 1 e.target)).flag (.cus .UNIT_PERSISTED) e.target = true := by
    intro h
    rw [h]
    exact flag_put_same _ _ _ _ _ _
  unfold appendRepair
  rw [if_pos hroom]
  generalize s.when (e.kind == 3) (fun s => s.put (.cus .UNIT_PERSISTED) 1 e.target) = v at hmarked hpersisted
  obtain ⟨hregs, ⟨hdram, hflash, -, hhost⟩, -⟩ := hmarked
  have hcv : v.get (.mid .BOOT_BOOT_COPY) < 2 := by
    rw [hregs.get rfl]
    exact hc
  obtain ⟨-, -, -, hcount, hbeyond, hdramIs, hhostIs, hregsIs⟩ := bootWrite_wrote (s := v) (d := s.dir) (map := s.repairMap ++ [e]) hcv
    (by rw [List.length_append]; exact hroom)
  refine ⟨by rw [hcount, List.length_append, List.length_singleton], fun a ha => by rw [hbeyond a ha, hflash],
    fun h => (hregsIs.flag rfl).trans (hpersisted h), hdramIs.trans hdram, hhostIs.trans hhost, ?_⟩
  refine (hregs.mono fun k hk => ?_).trans (hregsIs.mono fun k hk => ?_)
  · simp only [appendKeys, hk, Bool.or_true]
  · simp only [bootKeys, showKeys, ← Bool.or_assoc] at hk
    simp only [appendKeys, hk, Bool.true_or]

/-- A full map takes no entry, with a Notice (R330). -/
theorem appendRepair_full {e : RepairEntry} (hfull : 4094 ≤ s.repairMap.length) :
    (appendRepair e s).get (.flt .CNT) 0 = (s.get (.flt .CNT) 0 + 1) % 2 ^ 64 ∧ Frame fltKeys s (appendRepair e s) := by
  have hclass : faultClass 0x04 = some 0 := by decide
  unfold appendRepair
  rw [if_neg (by omega)]
  refine ⟨?_, raise_minor_frame 0 hclass (by decide) 2 e.target 2 s⟩
  rw [raise_minor 0 hclass (by decide)]
  exact record_counts hclass false false s

theorem exec_repairMapAppend {e : RepairEntry} (hl : s.live = true) : exec (.repairMapAppend e) s =
    .next (s.commit (s.quiet.when (!s.quiet.safe && s.quiet.repairDue e) (appendRepair e))) := by
  have he : exec (.repairMapAppend e) s = s.run (fun s => s.when (!s.safe && s.repairDue e) (appendRepair e)) := rfl
  rw [he, State.run_live _ _ hl]

theorem repairDue_quiet (e : RepairEntry) : s.quiet.repairDue e = s.repairDue e := rfl

/-- An entry that is due is appended outside the safe state. -/
theorem exec_append_due {e : RepairEntry} (hl : s.live = true) (hs : s.safe = false) (hdue : s.repairDue e = true) :
    exec (.repairMapAppend e) s = .next (s.commit (appendRepair e s.quiet)) := by
  rw [exec_repairMapAppend hl, repairDue_quiet, State.quiet_safe, hs, hdue, Bool.not_false, Bool.true_and, State.when_true]

theorem exec_append_idle {e : RepairEntry} (hl : s.live = true) (h : s.safe = true ∨ s.repairDue e = false) :
    exec (.repairMapAppend e) s = .next (s.commit s.quiet) := by
  have hshut : (!s.safe && s.repairDue e) = false := by
    rcases h with hs | hdue
    · rw [hs]
      rfl
    · rw [hdue, Bool.and_false]
  rw [exec_repairMapAppend hl, repairDue_quiet, State.quiet_safe, hshut, State.when_false]

/-- Settles O50: a write of the boot area reads back as what it was given, and an append is such a write or a Notice. -/
theorem slotStatePersists : Obligations.SlotStatePersists := by
  unfold Obligations.SlotStatePersists
  refine ⟨fun x st s hx hst hc => setSlot_persists hx hst hc, fun e s hl =>
    ⟨fun hs hdue hc hroom => ?_, fun hs hdue hfull => ?_, fun h => ?_⟩⟩
  · obtain ⟨-, hmap⟩ := dir_congr (s := s) (t := s.quiet) (State.quiet_flash ..) (State.get_quiet ..)
    rw [← hmap] at hroom
    obtain ⟨hcount, hbeyond, hpersisted, hdram, hhost, hregs⟩ := appendRepair_room (e := e) (s := s.quiet) hc hroom
    have hexec := exec_append_due hl hs hdue
    generalize appendRepair e s.quiet = t at hexec hcount hbeyond hpersisted hdram hhost hregs
    obtain ⟨-, hmapIs⟩ := dir_congr (s := t) (t := s.commit t) (State.commit_flash ..) (State.get_commit ..)
    exact ⟨_, hexec, by rw [hmapIs, hcount, hmap], hbeyond, hpersisted, hdram, hhost, hregs⟩
  · obtain ⟨-, hmap⟩ := dir_congr (s := s) (t := s.quiet) (State.quiet_flash ..) (State.get_quiet ..)
    rw [← hmap] at hfull
    obtain ⟨hcount, hframe⟩ := appendRepair_full (e := e) hfull
    refine ⟨_, exec_append_due hl hs hdue, ?_, Frame.ofQuiet hframe⟩
    rw [State.get_commit, hcount, State.get_quiet]
  · exact ⟨_, exec_append_idle hl h, Frame.ofQuiet (.refl _ _)⟩

end Sys2Proof
end
